-- ==== Sys2Proof/Word.lean ====
section
/-! DEFINITION. Word types: a 32-bit register word, a byte, and a named bit field of a register. -/

namespace Sys2Proof

/-- A register word (R10). -/
abbrev Word := BitVec 32

/-- One byte of memory or of a packet. -/
abbrev Byte := BitVec 8

/-- A field of a register: its register's BAR0 offset, its lowest bit and its width. -/
structure Bits where
  off : Nat
  lo : Nat
  w : Nat
  deriving DecidableEq, Repr

end Sys2Proof
end

