-- ==== Sys2Proof/Operand.lean ====
section
/-! DEFINITION. The types of the commands' operands. -/

namespace Sys2Proof

/-- A requester of the internal address space (R15): the ring writers, the tellers, the clearing unit, the DMA channels, HEP for BAR0
and for BAR2's windows, the charter, and the management cores. -/
inductive Agent where
  | ringWriter | teller | clearing | dma | bar0 | window | charter | core
  deriving DecidableEq, Repr

/-- A teller's store window as a requester addresses it (R15, R163). -/
structure TellerWindow where
  agent : Agent
  teller : Fin 528
  deriving DecidableEq, Repr

/-- Who accesses a register (R40): the host, a management core, or the dictionary passthrough. -/
inductive Requester where
  | host | mca | mcb | passthrough
  deriving DecidableEq, Repr

/-- Whether an action comes from a register write or from a task input of the event router (R376). -/
inductive Cause where
  | write (r : Requester)
  | task
  deriving DecidableEq, Repr

/-- An uplink packet as the receiver has it: its bytes, whether every block of it was valid with a START and its TERM, and
whether the TERM stood where LEN puts it (R127). -/
structure RxPacket where
  bytes : List Byte
  blocksOk : Bool
  termOk : Bool
  deriving DecidableEq, Repr

/-- One lane's checker at the end of QUALIFY: bits checked, mismatches, sync declared (R120). -/
structure QualLane where
  bits : Nat
  errors : Nat
  sync : Bool
  deriving DecidableEq, Repr

/-- How a detected error went on its one repetition: it succeeded (transient) or failed again (lasting) (R417). -/
inductive Retry where
  | transient | lasting
  deriving DecidableEq, Repr

/-- An error in a teller's microword step (R185): corrected by SECDED, gone at the repeat, or there again. -/
inductive StepError where
  | corrected | transient | lasting
  deriving DecidableEq, Repr

/-- An item of CLR that an error can concern (R229): a position, or a count or time of the entry. -/
inductive ClrItem where
  | position (i : Fin 4)
  | frameNo
  | exposeTime
  | tickNo
  | bytes (stream : Fin 5)
  deriving DecidableEq, Repr

/-- Consecutive samples of an encoder channel that are alike (R339): the ADC codes of tracks A and B, whether the index comparator is active,
and how many more there are than one. -/
structure EncRun where
  a : BitVec 14
  b : BitVec 14
  idx : Bool
  more : Nat
  deriving DecidableEq, Repr

/-- What an encoder channel has sampled since the last command that concerns its samples, oldest first: the age in dt units of the last sample
and the samples up to it, which stand 25 ns apart; the signal stood still before them. -/
structure EncMotion where
  age : Fin 100
  runs : List EncRun
  deriving DecidableEq, Repr

/-- A PTP message as the PTP port takes it (R63, R403): an Announce that the best master clock algorithm selects, with its
grandmaster; the end of the announce receipt timeout; the end of a message interval, at which the port makes a delay request of its own; a
completed Sync with the offset from the master that it measures (1/256 dt), the
domain offset and the trim the servo makes of it; a completed delay measurement; a Pdelay_Req; a message
that completes nothing by itself, such as a two-step Sync; a message discarded as malformed or from
a master not selected. -/
inductive PtpMsg where
  | interval
  | announce (gm : BitVec 64)
  | announceTimeout
  | sync (offset domain : BitVec 64) (trim : BitVec 32)
  | delay (mpd : Nat)
  | pdelayReq
  | part
  | dropped
  deriving DecidableEq, Repr

/-- A PTP message with the domain and the transport that it comes in, in the codes of the object that selects them (R63, R403). -/
structure PtpFrame where
  domain : Byte
  transport : Fin 3
  msg : PtpMsg
  deriving DecidableEq, Repr

/-- Where a beat of an internal queue lies that fails parity, among what the queues hold (R419): a beat of 32 bytes of what a stream of the
frame has waiting in a column, or of a line of the frame in a port's line buffer; a teller's result for the frame; the ledger entry of a stream of
the frame; an item of the blocks' input queues of NTQ, by its place; a beat of a packet ready for a downlink, by its place. -/
inductive BeatPlace where
  | stream (stream : Fin 5) (n : Nat)
  | line (port : Fin 16) (line n : Nat)
  | result (teller : Nat)
  | entry (stream : Fin 5)
  | notice (place : Nat)
  | packet (port : Fin 16) (place n : Nat)
  deriving DecidableEq, Repr

/-- What a beat that fails parity belongs to (R419): a frame and its place in a queue, where there are any. -/
structure FailedBeat where
  frame : Option Nat
  beat : Option BeatPlace
  deriving DecidableEq, Repr

/-- Where an Umsal message comes from (R390, R400): a datagram to port 47800 of an Ethernet port, from an address (IPv4 below 2^32) and
a UDP port; or the request taken from a mailbox slot. -/
inductive UmsalFrom where
  | net (eth : Fin 2) (addr : BitVec 128) (port : BitVec 16) (msg : List Byte)
  | slot (m : Fin 2)
  deriving DecidableEq, Repr

/-- What the boot ROM reads from a flash slot (R432, R452): the image's bytes, and whether its signature verifies. -/
structure SlotImage where
  bytes : List Byte
  sigOk : Bool
  deriving DecidableEq, Repr

end Sys2Proof
end

