-- ==== Sys2Proof/Syntax.lean ====
section
/-! DEFINITION. The commands of the block: one constructor per row of spec/opcode_table.json, with the row's operands. -/

namespace Sys2Proof

/-- A command of the block. Each constructor's comment names its row's rule. -/
inductive Instr where
  /-- REGISTER_WRITE (R36). -/
  | registerWrite (r : Requester) (off : BitVec 25) (data : Word) (be : BitVec 4)
  /-- SET_ALIAS_WRITE (R27). -/
  | setAliasWrite (r : Requester) (off : BitVec 25) (data : Word) (be : BitVec 4)
  /-- CLEAR_ALIAS_WRITE (R27). -/
  | clearAliasWrite (r : Requester) (off : BitVec 25) (data : Word) (be : BitVec 4)
  /-- TOGGLE_ALIAS_WRITE (R27). -/
  | toggleAliasWrite (r : Requester) (off : BitVec 25) (data : Word) (be : BitVec 4)
  /-- BIT_ALIAS_WRITE (R28). -/
  | bitAliasWrite (r : Requester) (off : BitVec 25) (data : Word) (be : BitVec 4)
  /-- OVERSIZE_BAR0_REQUEST (R31). -/
  | oversizeBar0Request (off : BitVec 25) (words : Nat) (posted : Bool)
  /-- NOTICE_STORE (R47). -/
  | noticeStore (block : BitVec 8) (bad : BitVec 8)
  /-- NOTICE_POP (R52). -/
  | noticePop (r : Requester) (q : Fin 8) (bad : Bool)
  /-- NOTICE_PEEK (R52). -/
  | noticePeek (r : Requester) (q : Fin 8)
  /-- NOTICE_ARM (R50). -/
  | noticeArm (r : Requester) (q : Fin 8)
  /-- NOTICE_FLUSH (R49). -/
  | noticeFlush (r : Requester) (q : Fin 8)
  /-- AUDIT_REQUEST (R55). -/
  | auditRequest (c : Cause)
  /-- AUDIT_CAPTURE (R55). -/
  | auditCapture
  /-- AUDIT_DONE (R56). -/
  | auditDone
  /-- SNAP_PAIR_READ (R57). -/
  | snapPairRead (r : Requester) (off : BitVec 25)
  /-- APPLY_REQUEST (R75). -/
  | applyRequest (r : Requester)
  /-- APPLY_LAND (R76). -/
  | applyLand
  /-- TICK_BEGIN (R64). -/
  | tickBegin
  /-- SCHEDULE_POINT (R68). -/
  | schedulePoint
  /-- DRAIN_COMPLETE (R88). -/
  | drainComplete
  /-- DRAIN_TIMEOUT (R87). -/
  | drainTimeout
  /-- DRAIN_LIMIT_WRITE (R85). -/
  | drainLimitWrite (r : Requester) (data : Word) (be : BitVec 4)
  /-- DISC_WRITE (R62). -/
  | discWrite (r : Requester) (disc : BitVec 2)
  /-- DISC_TIMEOUT (R62). -/
  | discTimeout
  /-- REF10M_LOSS (R62). -/
  | ref10mLoss
  /-- BUS_FRAME_SEND (R80). -/
  | busFrameSend
  /-- BUS_FRAME_RECEIVE (R81). -/
  | busFrameReceive (tick tickTime edge : BitVec 64) (flags crc : BitVec 16) (f : BitVec 64) (trim : BitVec 32)
  /-- BUS_SILENCE_TIMEOUT (R83). -/
  | busSilenceTimeout
  /-- PORT_ENABLE (R116). -/
  | portEnable (r : Requester) (p : Fin 16)
  /-- PORT_DISABLE (R116). -/
  | portDisable (r : Requester) (p : Fin 16)
  /-- PORT_RETRAIN (R116). -/
  | portRetrain (r : Requester) (p : Fin 16)
  /-- QUALIFY_START (R119). -/
  | qualifyStart (r : Requester) (p : Fin 16)
  /-- BITSLIP (R110). -/
  | bitslip (r : Requester) (p : Fin 16) (l : Fin 4)
  /-- ULC_STABLE (R116). -/
  | ulcStable (p : Fin 16) (signal : BitVec 4)
  /-- ULC_WRONG_RATE (R116). -/
  | ulcWrongRate (p : Fin 16)
  /-- ULC_LOST (R116). -/
  | ulcLost (p : Fin 16)
  /-- SEEK_HOLD_END (R116). -/
  | seekHoldEnd (p : Fin 16)
  /-- LANE_SIGNAL_LOSS (R110). -/
  | laneSignalLoss (p : Fin 16) (l : Fin 4)
  /-- BLOCK_LOCK_GAINED (R109). -/
  | blockLockGained (p : Fin 16) (l : Fin 4)
  /-- BLOCK_LOCK_LOST (R109). -/
  | blockLockLost (p : Fin 16) (l : Fin 4)
  /-- HEADER_ERROR (R109). -/
  | headerError (p : Fin 16) (l : Fin 4)
  /-- SLIP_END (R110). -/
  | slipEnd (p : Fin 16)
  /-- ALIGN_RECEIVE (R107). -/
  | alignReceive (p : Fin 16) (l : Fin 4) (payload : BitVec 64) (slot : Nat) (bip : Byte)
  /-- DESKEW_END (R111). -/
  | deskewEnd (p : Fin 16)
  /-- CAPS_RECEIVE (R132). -/
  | capsReceive (p : Fin 16) (pkt : RxPacket)
  /-- CAPS_OFFER_TIMEOUT (R132). -/
  | capsOfferTimeout (p : Fin 16)
  /-- ATTEMPT_TIMEOUT (R116). -/
  | attemptTimeout (p : Fin 16)
  /-- DEGRADE_ALIGN_TIMEOUT (R122). -/
  | degradeAlignTimeout (p : Fin 16)
  /-- QUALIFY_END (R120). -/
  | qualifyEnd (p : Fin 16) (l0 l1 l2 l3 : QualLane)
  /-- DOWNLINK_CONTROL_SEND (R108). -/
  | downlinkControlSend (p : Fin 16)
  /-- PLL_LOCK_LOSS (R124). -/
  | pllLockLoss (pll : Fin 5)
  /-- FRAME_START_RECEIVE (R136). -/
  | frameStartReceive (p : Fin 16) (pkt : RxPacket)
  /-- LINE_DATA_RECEIVE (R136). -/
  | lineDataReceive (p : Fin 16) (pkt : RxPacket)
  /-- FRAME_END_RECEIVE (R136). -/
  | frameEndReceive (p : Fin 16) (pkt : RxPacket)
  /-- FRAME_TIMEOUT (R136). -/
  | frameTimeout (p : Fin 16)
  /-- GANG_BAND_TIMEOUT (R465). -/
  | gangBandTimeout (p : Fin 16)
  /-- LINE_CONSUMED (R139). -/
  | lineConsumed (p : Fin 16)
  /-- CREDIT_SEND (R139). -/
  | creditSend (p : Fin 16)
  /-- LINE_BROADCAST (R168). -/
  | lineBroadcast (p : Fin 16)
  /-- STATUS_RECEIVE (R141). -/
  | statusReceive (p : Fin 16) (pkt : RxPacket)
  /-- STATUS_LOST (R141). -/
  | statusLost (p : Fin 16)
  /-- CAMERA_COMMAND_GO (R143). -/
  | cameraCommandGo (r : Requester) (p : Fin 16)
  /-- RESPONSE_RECEIVE (R143). -/
  | responseReceive (p : Fin 16) (pkt : RxPacket)
  /-- CAMERA_COMMAND_TIMEOUT (R143). -/
  | cameraCommandTimeout (p : Fin 16)
  /-- TIME_SEND (R145). -/
  | timeSend (p : Fin 16) (frac : Byte)
  /-- TIME_ECHO_RECEIVE (R147). -/
  | timeEchoReceive (p : Fin 16) (pkt : RxPacket) (rx : Nat)
  /-- URGENT_FIRE (R154). -/
  | urgentFire (c : Cause) (p : Fin 16)
  /-- URGENT_SEND (R153). -/
  | urgentSend (p : Fin 16) (frac : Byte)
  /-- CHARTER_LOAD (R181). -/
  | charterLoad (r : Requester) (cols : BitVec 16)
  /-- LOAD_COMPLETE (R181). -/
  | loadComplete (k : Fin 16) (err : Option (Fin 528))
  /-- CHARTER_ARM (R180). -/
  | charterArm (r : Requester) (cols : BitVec 16)
  /-- CHARTER_DISARM (R183). -/
  | charterDisarm (r : Requester) (cols : BitVec 16)
  /-- SWITCH_COMPLETE (R182). -/
  | switchComplete (k : Fin 16)
  /-- GROUP_RUN (R175). -/
  | groupRun (t : Fin 528)
  /-- RUNAWAY (R178). -/
  | runaway (t : Fin 528)
  /-- MINT_SEGMENT_EMIT (R207). -/
  | mintSegmentEmit (t : Fin 528)
  /-- MERGER_TAKE (R169). -/
  | mergerTake (k : Fin 16) (stream : Fin 5)
  /-- TELLER_RESULT_SEND (R170). -/
  | tellerResultSend (t : Fin 528)
  /-- STREAM_LINE_FETCH (R168). -/
  | streamLineFetch (t : Fin 528) (err : Bool)
  /-- TELLER_STEP_ERROR (R185). -/
  | tellerStepError (t : Fin 528) (outcome : StepError)
  /-- TELLER_SOFT_RETIRE (R187). -/
  | tellerSoftRetire (r : Requester) (t : Fin 528)
  /-- SPARE_ROW_WRITE (R187). -/
  | spareRowWrite (r : Requester) (k : Fin 16) (row : BitVec 6)
  /-- TELLER_STORE_WRITE (R163). -/
  | tellerStoreWrite (t : TellerWindow) (off : BitVec 17) (data : Word) (be : BitVec 4)
  /-- ENC_CAPTURE (R225). -/
  | encCapture (m0 m1 m2 m3 : EncMotion)
  /-- TELLER_RESULT_ACCEPT (R231). -/
  | tellerResultAccept (k : Fin 16)
  /-- LEDGER_ENTRY_QUEUE (R226). -/
  | ledgerEntryQueue (h : Fin 16)
  /-- CLR_ITEM_ERROR (R229). -/
  | clrItemError (h : Fin 16) (n : Nat) (item : ClrItem) (outcome : Retry)
  /-- VAULT_INIT_DONE (R240). -/
  | vaultInitDone (store : Bool × Bool)
  /-- VAULT_ECC_ERROR (R243). -/
  | vaultEccError (w : BitVec 35) (uncorrectable : Bool) (outcome : Retry)
  /-- PAGE_COPY_DONE (R244). -/
  | pageCopyDone
  /-- SCRUB_LINE (R247). -/
  | scrubLine (found : List (Fin 8 × Bool × Retry))
  /-- RETIRE_REQUEST (R248). -/
  | retireRequest (r : Requester) (page : BitVec 17)
  /-- RECORD_BEGIN (R255). -/
  | recordBegin (ring : Fin 64)
  /-- RING_PAYLOAD_WRITE (R251). -/
  | ringPayloadWrite (ring : Fin 64) (n : Nat)
  /-- ENTRY_WRITE (R232). -/
  | entryWrite (ring : Fin 64)
  /-- RING_COMMIT_REQUEST (R256). -/
  | ringCommitRequest (c : Cause) (groups : BitVec 8)
  /-- RING_ARM (R257). -/
  | ringArm (c : Cause) (hi : Bool) (bits : Word)
  /-- OVERDRAFT_MOVE (R262). -/
  | overdraftMove
  /-- RING_VIEW_LATCH (R267). -/
  | ringViewLatch (r : Requester) (ring : BitVec 6)
  /-- DMA_START (R299). -/
  | dmaStart (c : Cause) (ch : Fin 32)
  /-- DMA_STOP (R292). -/
  | dmaStop (c : Cause) (ch : Fin 32)
  /-- DMA_ABORT (R293). -/
  | dmaAbort (r : Requester) (ch : Fin 32)
  /-- DMA_OWNER_WRITE (R271). -/
  | dmaOwnerWrite (r : Requester) (data : Word) (be : BitVec 4)
  /-- CHANNEL_CONFIG_WRITE (R272). -/
  | channelConfigWrite (r : Requester) (ch : Fin 32) (off : BitVec 12) (data : Word) (be : BitVec 4)
  /-- DRING_TAIL_WRITE (R276). -/
  | dringTailWrite (r : Requester) (ch : Fin 32) (data : Word) (be : BitVec 4)
  /-- DRING_HEAD_WRITE (R276). -/
  | dringHeadWrite (r : Requester) (ch : Fin 32) (data : Word) (be : BitVec 4)
  /-- SHADOW_VALID_WRITE (R277). -/
  | shadowValidWrite (r : Requester) (ch : Fin 32) (data : Word) (be : BitVec 4)
  /-- SHADOW_FIELD_WRITE (R277). -/
  | shadowFieldWrite (r : Requester) (ch : Fin 32) (off : BitVec 12) (data : Word) (be : BitVec 4)
  /-- DESCRIPTOR_FETCH (R276). -/
  | descriptorFetch (ch : Fin 32) (data : List Byte)
  /-- BUS_READ_COMPLETION (R278). -/
  | busReadCompletion (ch : Fin 32) (data : List Byte)
  /-- DESCRIPTOR_COMPLETE (R282). -/
  | descriptorComplete (ch : Fin 32)
  /-- BUS_ERROR (R294). -/
  | busError (ch : Fin 32) (kind : BitVec 3) (fetch : Bool) (nth : Nat)
  /-- STREAM_PAYLOAD_MOVE (R286). -/
  | streamPayloadMove (ch : Fin 32)
  /-- LEDGER_COPY_ISSUE (R233). -/
  | ledgerCopyIssue (ch : Fin 32)
  /-- ZERO_LENGTH_READ_DONE (R288). -/
  | zeroLengthReadDone (ch : Fin 32)
  /-- LEDGER_COPY_ACCEPTED (R286). -/
  | ledgerCopyAccepted (ch : Fin 32)
  /-- FLOW_ACK_WRITE (R287). -/
  | flowAckWrite (r : Requester) (ch : Fin 32) (lack hi : Bool) (data : Word) (be : BitVec 4)
  /-- IRQ_HOLDOFF_EXPIRE (R301). -/
  | irqHoldoffExpire (ch : Fin 32)
  /-- INBOUND_READ (R313). -/
  | inboundRead (off : BitVec 38) (len : Nat) (reqId : BitVec 16)
  /-- INBOUND_WRITE (R313). -/
  | inboundWrite (off : BitVec 38) (data : List (Option Byte)) (reqId : BitVec 16)
  /-- POISONED_WRITE (R311). -/
  | poisonedWrite (bar : Fin 3)
  /-- MSIX_TABLE_ACCESS (R311). -/
  | msixTableAccess (off : BitVec 16) (len : Nat) (data : Option (BitVec 64))
  /-- WINDOW_COMMIT (R314). -/
  | windowCommit (r : Requester) (n : Fin 32) (data : Word) (be : BitVec 4)
  /-- COMPLETION_TIMEOUT (R319). -/
  | completionTimeout (tag : BitVec 14)
  /-- LATE_COMPLETION (R320). -/
  | lateCompletion (tag : BitVec 14)
  /-- TAG_QUARANTINE_END (R320). -/
  | tagQuarantineEnd (tag : BitVec 14)
  /-- POISONED_COMPLETION (R328). -/
  | poisonedCompletion (tag : BitVec 14)
  /-- ECRC_ERROR (R325). -/
  | ecrcError
  /-- HEP_INTERNAL_ERROR (R325). -/
  | hepInternalError (outcome : Retry)
  /-- CONTAIN_RELEASE (R330). -/
  | containRelease (r : Requester)
  /-- RELEASE_COMPLETE (R330). -/
  | releaseComplete
  /-- PENDING_MSIX_SEND (R323). -/
  | pendingMsixSend (v : Fin 64)
  /-- LTR_WINDOW (R332). -/
  | ltrWindow
  /-- LTR_SEND (R333). -/
  | ltrSend
  /-- CONFIG_WRITE (R306). -/
  | configWrite (off : BitVec 12) (data : Word) (be : BitVec 4)
  /-- PERST_ASSERT (R334). -/
  | perstAssert (ns : Nat)
  /-- PERST_RELEASE (R451). -/
  | perstRelease (sris : Bool) (ns : Nat)
  /-- HOT_RESET (R334). -/
  | hotReset (linkDown : Bool)
  /-- FUNCTION_LEVEL_RESET (R334). -/
  | functionLevelReset (d3 : Bool)
  /-- HOST_RESET_COMPLETE (R334). -/
  | hostResetComplete
  /-- LINK_CHANGE (R335). -/
  | linkChange (rate : BitVec 4) (width : BitVec 5) (flit : Bool)
  /-- ENCODER_ENABLE (R341). -/
  | encoderEnable (r : Requester) (i : Fin 4)
  /-- ENCODER_DISABLE (R354). -/
  | encoderDisable (r : Requester) (i : Fin 4)
  /-- POSITION_READ (R343). -/
  | positionRead (r : Requester) (i : Fin 4) (m : EncMotion)
  /-- INDEX_PULSE (R348). -/
  | indexPulse (i : Fin 4) (m : EncMotion)
  /-- STANDSTILL_ENTER (R345). -/
  | standstillEnter (i : Fin 4) (m : EncMotion)
  /-- STANDSTILL_LEAVE (R346). -/
  | standstillLeave (i : Fin 4) (m : EncMotion)
  /-- SETTLING_END (R346). -/
  | settlingEnd (i : Fin 4)
  /-- OVERSPEED (R352). -/
  | overspeed (i : Fin 4) (above : Bool) (m : EncMotion)
  /-- WIRING_FAULT (R350). -/
  | wiringFault (i : Fin 4) (input : Fin 6) (rail : Option Bool) (close : Bool) (m : EncMotion)
  /-- WIRING_FAULT_CLEAR (R351). -/
  | wiringFaultClear (i : Fin 4) (m : EncMotion)
  /-- BIAS_REVERSAL (R350). -/
  | biasReversal (rails : List (Fin 4 × Fin 6 × Bool))
  /-- CLEAR_DOUBT (R352). -/
  | clearDoubt (r : Requester) (i : Fin 4)
  /-- FIO_EDGE (R357). -/
  | fioEdge (p : Fin 16) (level : Bool) (age : Nat)
  /-- FIO_STUCK (R358). -/
  | fioStuck (p : Fin 16)
  /-- FIO_SET (R360). -/
  | fioSet (p : Fin 16)
  /-- FIO_CLR (R360). -/
  | fioClr (p : Fin 16)
  /-- FIO_TGL (R360). -/
  | fioTgl (p : Fin 16)
  /-- FIO_PULSE (R360). -/
  | fioPulse (p : Fin 16)
  /-- FIO_PULSE_END (R360). -/
  | fioPulseEnd (p : Fin 16)
  /-- OUTPUT_SHORT (R361). -/
  | outputShort (p : Fin 16)
  /-- OUTPUT_REARM (R361). -/
  | outputRearm (r : Requester) (p : Fin 16)
  /-- OPEN_LOAD (R361). -/
  | openLoad (p : Fin 16)
  /-- VFIELD_LOW (R361). -/
  | vfieldLow
  /-- VFIELD_RESTORED (R361). -/
  | vfieldRestored
  /-- STRIKE_ARM (R365). -/
  | strikeArm (c : Cause) (k : Fin 64)
  /-- STRIKE_DISARM (R365). -/
  | strikeDisarm (c : Cause) (k : Fin 64)
  /-- TIME_STRIKE_LOCK (R366). -/
  | timeStrikeLock (k : Fin 64)
  /-- POSITION_STRIKE_LOCK (R367). -/
  | positionStrikeLock (k : Fin 64) (m : EncMotion)
  /-- STRIKE_FIRE (R369). -/
  | strikeFire (k : Fin 64)
  /-- STRIKE_MISS_CHECK (R371). -/
  | strikeMissCheck (k : Fin 64) (m : EncMotion)
  /-- EVENT_ROUTE (R377). -/
  | eventRoute
  /-- TASK_ACT (R379). -/
  | taskAct (t : BitVec 9)
  /-- SOFTWARE_FIRE (R380). -/
  | softwareFire (r : Requester) (ch : Fin 128)
  /-- DELAY_EXPIRE (R381). -/
  | delayExpire (k : Fin 8)
  /-- UMSAL_OPEN (R394). -/
  | umsalOpen (from' : UmsalFrom)
  /-- UMSAL_CLOSE (R396). -/
  | umsalClose (from' : UmsalFrom)
  /-- UMSAL_HEARTBEAT (R406). -/
  | umsalHeartbeat (from' : UmsalFrom)
  /-- UMSAL_DESCRIBE (R392). -/
  | umsalDescribe (from' : UmsalFrom)
  /-- UMSAL_READ (R387). -/
  | umsalRead (from' : UmsalFrom)
  /-- UMSAL_WRITE (R387). -/
  | umsalWrite (from' : UmsalFrom)
  /-- UMSAL_CLAIM (R407). -/
  | umsalClaim (from' : UmsalFrom)
  /-- UMSAL_HANDOVER (R408). -/
  | umsalHandover (from' : UmsalFrom)
  /-- UMSAL_RESIGN (R406). -/
  | umsalResign (from' : UmsalFrom)
  /-- ESC_BEGIN (R410). -/
  | escBegin (from' : UmsalFrom)
  /-- ESC_COMMIT (R412). -/
  | escCommit (from' : UmsalFrom)
  /-- ESC_ROLLBACK (R411). -/
  | escRollback (from' : UmsalFrom)
  /-- ESC_STATUS (R392). -/
  | escStatus (from' : UmsalFrom)
  /-- UMSAL_SUBSCRIBE (R398). -/
  | umsalSubscribe (from' : UmsalFrom)
  /-- NOTICE_SEND (R399). -/
  | noticeSend (n : Fin 8)
  /-- APPLY_PENDING_TIMEOUT (R412). -/
  | applyPendingTimeout
  /-- ESCROW_IDLE_TIMEOUT (R411). -/
  | escrowIdleTimeout
  /-- SESSION_TIMEOUT (R396). -/
  | sessionTimeout (n : Fin 8)
  /-- KEY_SILENCE (R406). -/
  | keySilence
  /-- CLAIM_WINDOW_END (R406). -/
  | claimWindowEnd
  /-- PARAMETER_SAVE (R430). -/
  | parameterSave (from' : UmsalFrom)
  /-- MAILBOX_TX_WRITE (R400). -/
  | mailboxTxWrite (r : Requester) (m : Fin 2) (data : Word) (be : BitVec 4)
  /-- MAILBOX_SEND (R400). -/
  | mailboxSend (r : Requester) (m : Fin 2)
  /-- MAILBOX_RESET (R400). -/
  | mailboxReset (r : Requester) (m : Fin 2)
  /-- MAILBOX_RX_READ (R400). -/
  | mailboxRxRead (m : Fin 2)
  /-- ARP_REQUEST_RECEIVE (R401). -/
  | arpRequestReceive (n : Fin 2) (mac : BitVec 48) (ip target : BitVec 32)
  /-- NEIGHBOR_SOLICITATION_RECEIVE (R401). -/
  | neighborSolicitationReceive (n : Fin 2) (source target : BitVec 128)
  /-- ECHO_REQUEST_RECEIVE (R401). -/
  | echoRequestReceive (n : Fin 2) (source dest : BitVec 128) (data : List Byte)
  /-- NET_FRAME_DROP (R401). -/
  | netFrameDrop (n : Fin 2)
  /-- ETH_LINK_CHANGE (R405). -/
  | ethLinkChange (n : Fin 2) (code : BitVec 3) (lock : Bool)
  /-- PTP_MESSAGE_RECEIVE (R403). -/
  | ptpMessageReceive (n : Fin 2) (msg : PtpFrame)
  /-- QUEUE_BEAT_PARITY (R419). -/
  | queueBeatParity (queue : Nat) (block : Byte) (hit : FailedBeat) (o : Retry)
  /-- CORE_HEARTBEAT_MISS (R424). -/
  | coreHeartbeatMiss
  /-- CORE_LASTING_ERROR (R424). -/
  | coreLastingError (o : Retry)
  /-- STANDBY_HEARTBEAT_MISS (R423). -/
  | standbyHeartbeatMiss
  /-- STANDBY_REBOOT_DONE (R423). -/
  | standbyRebootDone (passed : Bool)
  /-- FIRMWARE_UPDATE (R426). -/
  | firmwareUpdate (from' : UmsalFrom)
  /-- UPDATE_VERIFY_DONE (R427). -/
  | updateVerifyDone (sigOk : Bool)
  /-- UPDATE_TAKEOVER (R427). -/
  | updateTakeover
  /-- PROBATION_HEALTHY (R427). -/
  | probationHealthy
  /-- PROBATION_TIMEOUT (R427). -/
  | probationTimeout
  /-- FLASH_COMMIT_DONE (R427). -/
  | flashCommitDone (ok : Bool)
  /-- CAMERA_ID_CHECK (R438). -/
  | cameraIdCheck (p : Fin 16) (idLen : Nat) (blob : Option (List Byte)) (sigOk : BitVec 8)
  /-- ATTEST_REQUEST (R436). -/
  | attestRequest (from' : UmsalFrom)
  /-- ATTEST_REPORT_DONE (R436). -/
  | attestReportDone
  /-- FUSE_BURN (R439). -/
  | fuseBurn (r : Requester)
  /-- FUSE_BURN_DONE (R439). -/
  | fuseBurnDone
  /-- SYS_RST_ASSERT (R450). -/
  | sysRstAssert (ns : Nat)
  /-- SYS_RST_RELEASE (R450). -/
  | sysRstRelease (rcvForce : Bool) (control : Bool × Bool)
  /-- BOOT_VERIFY_DONE (R452). -/
  | bootVerifyDone (a b : SlotImage)
  /-- RECOVERY_CHUNK (R455). -/
  | recoveryChunk
  /-- RECOVERY_VERIFY (R456). -/
  | recoveryVerify (r : Requester) (data : Word)
  /-- RECOVERY_VERIFY_DONE (R456). -/
  | recoveryVerifyDone (sigOk : Bool)
  /-- OVERTEMP_ASSERT (R446). -/
  | overtempAssert (die stack : Int)
  /-- OVERTEMP_RELEASE (R446). -/
  | overtempRelease (die stack : Int)
  /-- REF10M_RESTORED (R62). -/
  | ref10mRestored (trim : BitVec 32)
  /-- EQUALISER_ADAPT (R101). -/
  | equaliserAdapt (p : Fin 16) (l : Fin 4) (up : Bool) (idleRun : Nat)
  /-- RESERVED_CONTROL_BLOCK (R105). -/
  | reservedControlBlock (p : Fin 16)
  /-- PORT_LOGIC_FAULT (R116). -/
  | portLogicFault (p : Fin 16) (cause : Nat)
  /-- PLL_RELOCK_DONE (R124). -/
  | pllRelockDone (pll : Fin 5) (ok : Bool)
  /-- TELLER_SELF_CHECK_FAIL (R185). -/
  | tellerSelfCheckFail (t : Fin 528)
  /-- LOW_WORD_LATCH_READ (R33). -/
  | lowWordLatchRead (r : Requester) (off : BitVec 25)
  /-- UNSUPPORTED_INBOUND_REQUEST (R305). -/
  | unsupportedInboundRequest (posted : Bool)
  /-- PCIE_LINK_ERROR (R325). -/
  | pcieLinkError (bit' : Fin 32) (correctable : Bool)
  /-- STUCK_INPUT_RETURN (R358). -/
  | stuckInputReturn (p : Fin 16)
  /-- RECOVERY_FLASH_DONE (R456). -/
  | recoveryFlashDone (ok : Bool)
  deriving DecidableEq, Repr

end Sys2Proof
end

