-- ==== Sys2Proof/Config.lean ====
section
/-! DEFINITION. What the spec leaves open as a value: opaque constants, so that nothing can be proved of any value of them.
Each is applied to a plain counter of the state (`Dev.fresh`) and, where several values are open at once, to an index. -/

namespace Sys2Proof.Config

/-- A value the spec does not state (log entry 3). -/
opaque openValue : Nat → Nat → Nat

/-- The move of the phase tracker of an uplink lane, by the instant its tracking began, the lane and the number of the step: a step down,
none, or a step up (R98, log entry 82). -/
opaque phase : Nat → Nat → Nat → Nat

/-- A session's nonce from the random source (R394). -/
opaque nonce : Nat → BitVec 32

/-- The device serial number fused at manufacture (R307, R435). -/
opaque serial : BitVec 64

/-- The extended capability ID of the Physical Layer 128.0 GT/s structure, which the spec leaves to the base specification (R307). -/
opaque capability128 : BitVec 16

/-- The MAC address fused for Ethernet port 0 (R402), 48 bits with the group bit, bit 40, as the model reads it 0; that of port 1 is the next
one. -/
opaque mac : BitVec 48

/-- A byte of the key hash fused for a key slot, and whether the slot is revoked (R432, R433). -/
opaque keyHash : Nat → Nat → BitVec 8
opaque revoked : Nat → Bool

/-- A byte of the device identity public key, of the identity certificate, and of the signature the identity key gives a report
(R435, R436); the key pair never leaves SEC. -/
opaque identityKey : Nat → BitVec 8
opaque certificate : Nat → BitVec 8
opaque signature : List (BitVec 8) → Nat → BitVec 8

/-- The version of the kernel library of a firmware version (0x6000:01). -/
opaque libraryVersion : Nat → BitVec 32

end Sys2Proof.Config
end

