-- ==== Sys2Proof/Machine/Tab.lean ====
section
/-! DEFINITION. Sparse tables: plain data keyed by a number, in one canonical form (keys strictly rising, no entry equal to
what an unlisted key reads as). Registers, the vault's bytes and every indexed part of the state are such tables. -/

namespace Sys2Proof.Machine

/-- A sparse table. -/
abbrev Tab (α : Type) := List (Nat × α)

/-- What a table holds at a key; `z` says what an unlisted key reads as. -/
def Tab.get {α : Type} (z : Nat → α) : Tab α → Nat → α
  | [], k => z k
  | (j, v) :: t, k => if j = k then v else Tab.get z t k

/-- The table without any entry at a key. -/
def Tab.erase {α : Type} : Tab α → Nat → Tab α
  | [], _ => []
  | (j, v) :: t, k => if j = k then Tab.erase t k else (j, v) :: Tab.erase t k

/-- The table with an entry at a key, put in its place. -/
def Tab.insert {α : Type} : Tab α → Nat → α → Tab α
  | [], k, a => [(k, a)]
  | (j, v) :: t, k, a =>
    if k < j then (k, a) :: (j, v) :: t
    else if j = k then (k, a) :: t
    else (j, v) :: Tab.insert t k a

/-- Writing a table: the canonical form is kept, since a value that an unlisted key reads as is not listed. -/
def Tab.set {α : Type} [DecidableEq α] (z : Nat → α) (t : Tab α) (k : Nat) (a : α) : Tab α :=
  if a = z k then Tab.erase t k else Tab.insert t k a

/-- Changing what a table holds at a key. -/
def Tab.upd {α : Type} [DecidableEq α] (z : Nat → α) (t : Tab α) (k : Nat) (f : α → α) : Tab α :=
  Tab.set z t k (f (Tab.get z t k))

/-- The canonical form: keys strictly rising and no entry equal to what an unlisted key reads as. -/
def Tab.wf {α : Type} [DecidableEq α] (z : Nat → α) : Tab α → Bool
  | [] => true
  | (j, v) :: t => (v != z j) && (t.all fun e => decide (j < e.1)) && Tab.wf z t

end Sys2Proof.Machine
end

