-- ==== Sys2Proof/Machine/RegMap.lean ====
section
/-! DEFINITION. The register map: every register of the spec with its fields' access codes and reset values (R10, R12, R26, R44). -/

namespace Sys2Proof.Machine

/-- The access codes of R10; `rwl` names its lock group's bit of DCT_LOCK (R37). -/
inductive Access where
  | rw | ro | rc | w1c | w1s | wo | rwl (lock : Nat) | wos | snap
  deriving DecidableEq, Repr

/-- A field of a register: bits `hi:lo`, its access code and its reset value. -/
structure Field where
  hi : Nat
  lo : Nat
  access : Access
  reset : Nat
  deriving DecidableEq, Repr

/-- A register or an array of registers of one page: `count` of them from page offset `off`, `stride` apart. -/
structure RegRow where
  off : Nat
  count : Nat
  stride : Nat
  fields : List Field
  deriving DecidableEq, Repr

/-- An entry of the discovery table (R44): block ID, kind, first page, log2 of page size and stride, pages. -/
structure BlockRow where
  id : Nat
  kind : Nat
  base : Nat
  log2 : Nat
  pages : Nat
  regs : List RegRow
  deriving DecidableEq, Repr

/-- Registers of block HDR. -/
def rowsHDR : List RegRow := [
]

/-- Block HDR (R12, R44). -/
def blockHDR : BlockRow :=
  ⟨0x00, 0, 0x0, 16, 1, rowsHDR⟩

/-- Registers of block DCT. -/
def rowsDCT : List RegRow := [
  ⟨0x10, 1, 0x4, [⟨27, 24, .ro, 0⟩, ⟨23, 20, .ro, 0⟩, ⟨19, 16, .ro, 0⟩, ⟨3, 0, .rw, 0⟩]⟩,
  ⟨0x14, 1, 0x4, [⟨19, 0, .rw, 0x2710⟩]⟩,
  ⟨0x40, 1, 0x4, [⟨5, 5, .w1s, 0⟩, ⟨4, 4, .w1s, 0⟩, ⟨3, 3, .w1s, 0⟩, ⟨2, 2, .w1s, 0⟩, ⟨1, 1, .w1s, 0⟩, ⟨0, 0, .w1s, 0⟩]⟩,
  ⟨0x800, 1, 0x4, [⟨3, 3, .w1c, 0⟩, ⟨2, 2, .w1c, 0⟩, ⟨1, 1, .w1c, 0⟩, ⟨0, 0, .w1c, 0⟩]⟩,
  ⟨0x900, 1, 0x4, [⟨4, 4, .ro, 1⟩, ⟨3, 1, .ro, 0⟩, ⟨0, 0, .ro, 0⟩]⟩,
  ⟨0x904, 1, 0x4, [⟨31, 30, .ro, 0⟩, ⟨24, 0, .ro, 0⟩]⟩,
  ⟨0x908, 1, 0x4, [⟨16, 16, .ro, 0⟩, ⟨15, 8, .ro, 0⟩, ⟨7, 0, .ro, 0⟩]⟩,
  ⟨0xA00, 1, 0x8, [⟨31, 0, .ro, 0⟩]⟩,
  ⟨0xA04, 1, 0x8, [⟨31, 0, .ro, 0⟩]⟩,
  ⟨0xA08, 1, 0x8, [⟨31, 0, .ro, 0⟩]⟩,
  ⟨0xA0C, 1, 0x8, [⟨31, 0, .ro, 0⟩]⟩,
  ⟨0xC00, 1, 0x8, [⟨31, 0, .snap, 0⟩]⟩,
  ⟨0xC04, 1, 0x8, [⟨31, 0, .snap, 0⟩]⟩,
  ⟨0xC08, 1, 0x8, [⟨31, 0, .snap, 0⟩]⟩,
  ⟨0xC0C, 1, 0x8, [⟨31, 0, .snap, 0⟩]⟩]

/-- Block DCT (R12, R44). -/
def blockDCT : BlockRow :=
  ⟨0x01, 0, 0x10000, 16, 1, rowsDCT⟩

/-- Registers of block HEP, part 0. -/
def rowsHEP0 : List RegRow := [
  ⟨0x0, 1, 0x4, [⟨0, 0, .w1s, 0⟩]⟩,
  ⟨0x4, 1, 0x4, [⟨3, 3, .ro, 1⟩, ⟨2, 2, .rw, 1⟩, ⟨1, 1, .rw, 1⟩, ⟨0, 0, .rw, 1⟩]⟩,
  ⟨0x8, 1, 0x4, [⟨13, 8, .rw, 0x1e⟩, ⟨3, 0, .rw, 8⟩]⟩,
  ⟨0x10, 1, 0x4, [⟨31, 0, .rw, 0xffffffff⟩]⟩,
  ⟨0x14, 1, 0x4, [⟨31, 0, .rw, 0xffffffff⟩]⟩,
  ⟨0x100, 32, 0x10, [⟨31, 31, .rw, 0⟩, ⟨30, 30, .rw, 0⟩, ⟨29, 29, .rw, 0⟩, ⟨16, 16, .w1s, 0⟩, ⟨5, 0, .rw, 0x15⟩]⟩,
  ⟨0x104, 32, 0x10, [⟨16, 0, .rw, 0⟩]⟩,
  ⟨0x108, 32, 0x10, [⟨26, 0, .rw, 0⟩]⟩,
  ⟨0x800, 1, 0x4, [⟨9, 9, .w1c, 0⟩, ⟨8, 8, .w1c, 0⟩, ⟨7, 7, .w1c, 0⟩, ⟨6, 6, .w1c, 0⟩, ⟨5, 5, .w1c, 0⟩, ⟨4, 4, .w1c, 0⟩, ⟨3, 3, .w1c, 0⟩, ⟨2, 2, .w1c, 0⟩, ⟨1, 1, .w1c, 0⟩, ⟨0, 0, .w1c, 0⟩]⟩,
  ⟨0x808, 1, 0x4, [⟨31, 0, .w1c, 0⟩]⟩,
  ⟨0x80C, 1, 0x4, [⟨31, 0, .w1c, 0⟩]⟩,
  ⟨0x900, 1, 0x4, [⟨12, 12, .ro, 0⟩, ⟨11, 11, .ro, 0⟩, ⟨10, 10, .ro, 0⟩, ⟨9, 9, .ro, 0⟩, ⟨8, 4, .ro, 0⟩, ⟨3, 0, .ro, 0⟩]⟩,
  ⟨0x904, 1, 0x4, [⟨10, 8, .ro, 0⟩, ⟨4, 1, .ro, 0⟩, ⟨0, 0, .ro, 0⟩]⟩,
  ⟨0x908, 1, 0x8, [⟨31, 0, .ro, 0⟩]⟩,
  ⟨0x90C, 1, 0x8, [⟨31, 0, .ro, 0⟩]⟩,
  ⟨0x910, 1, 0x4, [⟨31, 0, .ro, 0⟩]⟩,
  ⟨0x914, 1, 0x4, [⟨31, 16, .ro, 0⟩, ⟨9, 9, .ro, 0⟩, ⟨8, 8, .ro, 0⟩, ⟨5, 0, .ro, 0⟩]⟩,
  ⟨0x918, 1, 0x4, [⟨31, 16, .ro, 0⟩, ⟨15, 0, .ro, 0⟩]⟩,
  ⟨0x91C, 1, 0x4, [⟨21, 16, .ro, 0x3f⟩, ⟨15, 0, .ro, 0⟩]⟩,
  ⟨0xA00, 1, 0x8, [⟨31, 0, .ro, 0⟩]⟩,
  ⟨0xA04, 1, 0x8, [⟨31, 0, .ro, 0⟩]⟩,
  ⟨0xA08, 1, 0x8, [⟨31, 0, .ro, 0⟩]⟩,
  ⟨0xA0C, 1, 0x8, [⟨31, 0, .ro, 0⟩]⟩,
  ⟨0xA10, 1, 0x8, [⟨31, 0, .ro, 0⟩]⟩,
  ⟨0xA14, 1, 0x8, [⟨31, 0, .ro, 0⟩]⟩,
  ⟨0xA18, 1, 0x8, [⟨31, 0, .ro, 0⟩]⟩,
  ⟨0xA1C, 1, 0x8, [⟨31, 0, .ro, 0⟩]⟩,
  ⟨0xA20, 1, 0x8, [⟨31, 0, .ro, 0⟩]⟩,
  ⟨0xA24, 1, 0x8, [⟨31, 0, .ro, 0⟩]⟩,
  ⟨0xA28, 1, 0x8, [⟨31, 0, .ro, 0⟩]⟩,
  ⟨0xA2C, 1, 0x8, [⟨31, 0, .ro, 0⟩]⟩,
  ⟨0xA30, 1, 0x8, [⟨31, 0, .ro, 0⟩]⟩,
  ⟨0xA34, 1, 0x8, [⟨31, 0, .ro, 0⟩]⟩,
  ⟨0xA38, 1, 0x8, [⟨31, 0, .ro, 0⟩]⟩,
  ⟨0xA3C, 1, 0x8, [⟨31, 0, .ro, 0⟩]⟩,
  ⟨0xA40, 1, 0x8, [⟨31, 0, .ro, 0⟩]⟩,
  ⟨0xA44, 1, 0x8, [⟨31, 0, .ro, 0⟩]⟩,
  ⟨0xA48, 1, 0x8, [⟨31, 0, .ro, 0⟩]⟩,
  ⟨0xA4C, 1, 0x8, [⟨31, 0, .ro, 0⟩]⟩,
  ⟨0xA50, 1, 0x8, [⟨31, 0, .ro, 0⟩]⟩,
  ⟨0xA54, 1, 0x8, [⟨31, 0, .ro, 0⟩]⟩,
  ⟨0xC00, 1, 0x8, [⟨31, 0, .snap, 0⟩]⟩,
  ⟨0xC04, 1, 0x8, [⟨31, 0, .snap, 0⟩]⟩,
  ⟨0xC08, 1, 0x8, [⟨31, 0, .snap, 0⟩]⟩,
  ⟨0xC0C, 1, 0x8, [⟨31, 0, .snap, 0⟩]⟩,
  ⟨0xC10, 1, 0x8, [⟨31, 0, .snap, 0⟩]⟩,
  ⟨0xC14, 1, 0x8, [⟨31, 0, .snap, 0⟩]⟩,
  ⟨0xC18, 1, 0x8, [⟨31, 0, .snap, 0⟩]⟩,
  ⟨0xC1C, 1, 0x8, [⟨31, 0, .snap, 0⟩]⟩,
  ⟨0xC20, 1, 0x8, [⟨31, 0, .snap, 0⟩]⟩,
  ⟨0xC24, 1, 0x8, [⟨31, 0, .snap, 0⟩]⟩,
  ⟨0xC28, 1, 0x8, [⟨31, 0, .snap, 0⟩]⟩,
  ⟨0xC2C, 1, 0x8, [⟨31, 0, .snap, 0⟩]⟩,
  ⟨0xC30, 1, 0x8, [⟨31, 0, .snap, 0⟩]⟩,
  ⟨0xC34, 1, 0x8, [⟨31, 0, .snap, 0⟩]⟩,
  ⟨0xC38, 1, 0x8, [⟨31, 0, .snap, 0⟩]⟩,
  ⟨0xC3C, 1, 0x8, [⟨31, 0, .snap, 0⟩]⟩,
  ⟨0xC40, 1, 0x8, [⟨31, 0, .snap, 0⟩]⟩,
  ⟨0xC44, 1, 0x8, [⟨31, 0, .snap, 0⟩]⟩,
  ⟨0xC48, 1, 0x8, [⟨31, 0, .snap, 0⟩]⟩]

/-- Registers of block HEP, part 1. -/
def rowsHEP1 : List RegRow := [
  ⟨0xC4C, 1, 0x8, [⟨31, 0, .snap, 0⟩]⟩,
  ⟨0xC50, 1, 0x8, [⟨31, 0, .snap, 0⟩]⟩,
  ⟨0xC54, 1, 0x8, [⟨31, 0, .snap, 0⟩]⟩,
  ⟨0xE00, 32, 0x10, [⟨31, 31, .ro, 0⟩, ⟨30, 30, .ro, 0⟩, ⟨29, 29, .ro, 0⟩, ⟨16, 16, .ro, 0⟩, ⟨5, 0, .ro, 0x15⟩]⟩,
  ⟨0xE04, 32, 0x10, [⟨16, 0, .ro, 0⟩]⟩,
  ⟨0xE08, 32, 0x10, [⟨26, 0, .ro, 0⟩]⟩]

/-- Block HEP (R12, R44). -/
def blockHEP : BlockRow :=
  ⟨0x02, 0, 0x20000, 16, 1, rowsHEP0 ++ rowsHEP1⟩

/-- Registers of block EVR. -/
def rowsEVR : List RegRow := [
  ⟨0x0, 4, 0x4, [⟨31, 0, .w1s, 0⟩]⟩,
  ⟨0x40, 8, 0x4, [⟨31, 0, .rw, 0xfa0⟩]⟩,
  ⟨0x100, 128, 0x4, [⟨31, 31, .rw, 0⟩, ⟨23, 16, .rw, 0⟩, ⟨8, 0, .rw, 0⟩]⟩,
  ⟨0x800, 1, 0x4, [⟨2, 2, .w1c, 0⟩, ⟨1, 1, .w1c, 0⟩, ⟨0, 0, .w1c, 0⟩]⟩,
  ⟨0x900, 1, 0x4, [⟨22, 16, .ro, 0⟩, ⟨8, 0, .ro, 0⟩]⟩,
  ⟨0xA00, 1, 0x8, [⟨31, 0, .ro, 0⟩]⟩,
  ⟨0xA04, 1, 0x8, [⟨31, 0, .ro, 0⟩]⟩,
  ⟨0xA08, 1, 0x8, [⟨31, 0, .ro, 0⟩]⟩,
  ⟨0xA0C, 1, 0x8, [⟨31, 0, .ro, 0⟩]⟩,
  ⟨0xA10, 1, 0x8, [⟨31, 0, .ro, 0⟩]⟩,
  ⟨0xA14, 1, 0x8, [⟨31, 0, .ro, 0⟩]⟩,
  ⟨0xA18, 1, 0x8, [⟨31, 0, .ro, 0⟩]⟩,
  ⟨0xA1C, 1, 0x8, [⟨31, 0, .ro, 0⟩]⟩,
  ⟨0xC00, 1, 0x8, [⟨31, 0, .snap, 0⟩]⟩,
  ⟨0xC04, 1, 0x8, [⟨31, 0, .snap, 0⟩]⟩,
  ⟨0xC08, 1, 0x8, [⟨31, 0, .snap, 0⟩]⟩,
  ⟨0xC0C, 1, 0x8, [⟨31, 0, .snap, 0⟩]⟩,
  ⟨0xC10, 1, 0x8, [⟨31, 0, .snap, 0⟩]⟩,
  ⟨0xC14, 1, 0x8, [⟨31, 0, .snap, 0⟩]⟩,
  ⟨0xC18, 1, 0x8, [⟨31, 0, .snap, 0⟩]⟩,
  ⟨0xC1C, 1, 0x8, [⟨31, 0, .snap, 0⟩]⟩]

/-- Block EVR (R12, R44). -/
def blockEVR : BlockRow :=
  ⟨0x03, 0, 0x30000, 16, 1, rowsEVR⟩

/-- Registers of block CAD. -/
def rowsCAD : List RegRow := [
  ⟨0x0, 1, 0x4, [⟨11, 8, .rw, 2⟩, ⟨3, 2, .rw, 0⟩, ⟨1, 0, .rw, 0⟩]⟩,
  ⟨0x4, 1, 0x4, [⟨31, 0, .rw, 0x3d0900⟩]⟩,
  ⟨0x8, 1, 0x4, [⟨31, 0, .rw, 0x30d40⟩]⟩,
  ⟨0xC, 1, 0x4, [⟨31, 0, .rw, 0⟩]⟩,
  ⟨0x10, 1, 0x4, [⟨31, 0, .rw, 0⟩]⟩,
  ⟨0x14, 1, 0x4, [⟨1, 1, .ro, 0⟩, ⟨0, 0, .w1s, 0⟩]⟩,
  ⟨0x20, 1, 0x4, [⟨1, 0, .rw, 0⟩]⟩,
  ⟨0x24, 1, 0x4, [⟨31, 0, .rw, 0⟩]⟩,
  ⟨0x28, 1, 0x4, [⟨31, 0, .rw, 0⟩]⟩,
  ⟨0x2C, 1, 0x4, [⟨31, 0, .rw, 0⟩]⟩,
  ⟨0x30, 1, 0x4, [⟨15, 0, .rw, 0⟩]⟩,
  ⟨0x34, 1, 0x4, [⟨31, 0, .rw, 0x61a80⟩]⟩,
  ⟨0x100, 16, 0x8, [⟨31, 16, .rw, 0⟩, ⟨15, 0, .rw, 1⟩]⟩,
  ⟨0x104, 16, 0x8, [⟨31, 0, .rw, 0⟩]⟩,
  ⟨0x800, 1, 0x4, [⟨7, 7, .w1c, 0⟩, ⟨6, 6, .w1c, 0⟩, ⟨5, 5, .w1c, 0⟩, ⟨4, 4, .w1c, 0⟩, ⟨3, 3, .w1c, 0⟩, ⟨2, 2, .w1c, 0⟩, ⟨1, 1, .w1c, 0⟩, ⟨0, 0, .w1c, 0⟩]⟩,
  ⟨0x900, 1, 0x8, [⟨31, 0, .ro, 0⟩]⟩,
  ⟨0x904, 1, 0x8, [⟨31, 0, .ro, 0⟩]⟩,
  ⟨0x908, 1, 0x8, [⟨31, 0, .ro, 0xffffffff⟩]⟩,
  ⟨0x90C, 1, 0x8, [⟨31, 0, .ro, 0xffffffff⟩]⟩,
  ⟨0x910, 1, 0x4, [⟨5, 5, .ro, 0⟩, ⟨4, 4, .ro, 0⟩, ⟨3, 3, .ro, 0⟩, ⟨2, 1, .ro, 0⟩, ⟨0, 0, .ro, 0⟩]⟩,
  ⟨0x918, 1, 0x8, [⟨31, 0, .ro, 0⟩]⟩,
  ⟨0x91C, 1, 0x8, [⟨31, 0, .ro, 0⟩]⟩,
  ⟨0x920, 1, 0x8, [⟨31, 0, .ro, 0⟩]⟩,
  ⟨0x924, 1, 0x8, [⟨31, 0, .ro, 0⟩]⟩,
  ⟨0xA00, 6, 0x8, [⟨31, 0, .ro, 0⟩]⟩,
  ⟨0xA04, 6, 0x8, [⟨31, 0, .ro, 0⟩]⟩,
  ⟨0xA30, 1, 0x8, [⟨31, 0, .ro, 0⟩]⟩,
  ⟨0xA34, 1, 0x8, [⟨31, 0, .ro, 0⟩]⟩,
  ⟨0xA38, 1, 0x8, [⟨31, 0, .ro, 0⟩]⟩,
  ⟨0xA3C, 1, 0x8, [⟨31, 0, .ro, 0⟩]⟩,
  ⟨0xA40, 1, 0x8, [⟨31, 0, .ro, 0⟩]⟩,
  ⟨0xA44, 1, 0x8, [⟨31, 0, .ro, 0⟩]⟩,
  ⟨0xC00, 6, 0x8, [⟨31, 0, .snap, 0⟩]⟩,
  ⟨0xC04, 6, 0x8, [⟨31, 0, .snap, 0⟩]⟩,
  ⟨0xC30, 1, 0x8, [⟨31, 0, .snap, 0⟩]⟩,
  ⟨0xC34, 1, 0x8, [⟨31, 0, .snap, 0⟩]⟩,
  ⟨0xC38, 1, 0x8, [⟨31, 0, .snap, 0⟩]⟩,
  ⟨0xC3C, 1, 0x8, [⟨31, 0, .snap, 0⟩]⟩,
  ⟨0xC40, 1, 0x8, [⟨31, 0, .snap, 0⟩]⟩,
  ⟨0xC44, 1, 0x8, [⟨31, 0, .snap, 0⟩]⟩,
  ⟨0xDF8, 1, 0x8, [⟨31, 0, .snap, 0⟩]⟩,
  ⟨0xDFC, 1, 0x8, [⟨31, 0, .snap, 0⟩]⟩,
  ⟨0xE00, 1, 0x4, [⟨11, 8, .ro, 2⟩, ⟨3, 2, .ro, 0⟩, ⟨1, 0, .ro, 0⟩]⟩,
  ⟨0xE04, 1, 0x4, [⟨31, 0, .ro, 0x3d0900⟩]⟩,
  ⟨0xE08, 1, 0x4, [⟨31, 0, .ro, 0x30d40⟩]⟩,
  ⟨0xE0C, 1, 0x4, [⟨31, 0, .ro, 0⟩]⟩,
  ⟨0xE10, 1, 0x4, [⟨31, 0, .ro, 0⟩]⟩,
  ⟨0xE34, 1, 0x4, [⟨31, 0, .ro, 0x61a80⟩]⟩,
  ⟨0xF00, 16, 0x8, [⟨31, 16, .ro, 0⟩, ⟨15, 0, .ro, 1⟩]⟩,
  ⟨0xF04, 16, 0x8, [⟨31, 0, .ro, 0⟩]⟩]

/-- Block CAD (R12, R44). -/
def blockCAD : BlockRow :=
  ⟨0x04, 0, 0x40000, 16, 1, rowsCAD⟩

/-- Registers of block STP. -/
def rowsSTP : List RegRow := [
  ⟨0x0, 64, 0x18, [⟨30, 30, .rw, 0⟩, ⟨29, 28, .rw, 0⟩, ⟨27, 26, .rw, 0⟩, ⟨25, 25, .rw, 0⟩, ⟨24, 24, .rw, 0⟩, ⟨16, 16, .rw, 0⟩]⟩,
  ⟨0x4, 64, 0x18, [⟨31, 0, .rw, 0⟩]⟩,
  ⟨0x8, 64, 0x18, [⟨31, 0, .rw, 0⟩]⟩,
  ⟨0xC, 64, 0x18, [⟨31, 0, .rw, 0⟩]⟩,
  ⟨0x10, 64, 0x18, [⟨31, 16, .rw, 0⟩, ⟨9, 0, .rw, 0x64⟩]⟩,
  ⟨0x14, 64, 0x18, [⟨31, 0, .rw, 0⟩]⟩,
  ⟨0x600, 1, 0x4, [⟨31, 0, .w1s, 0⟩]⟩,
  ⟨0x604, 1, 0x4, [⟨31, 0, .w1s, 0⟩]⟩,
  ⟨0x608, 1, 0x4, [⟨31, 0, .w1s, 0⟩]⟩,
  ⟨0x60C, 1, 0x4, [⟨31, 0, .w1s, 0⟩]⟩,
  ⟨0x800, 1, 0x4, [⟨5, 5, .w1c, 0⟩, ⟨4, 4, .w1c, 0⟩, ⟨3, 3, .w1c, 0⟩, ⟨2, 2, .w1c, 0⟩, ⟨1, 1, .w1c, 0⟩, ⟨0, 0, .w1c, 0⟩]⟩,
  ⟨0x900, 64, 0x4, [⟨31, 8, .ro, 0⟩, ⟨2, 2, .ro, 0⟩, ⟨1, 0, .ro, 0⟩]⟩,
  ⟨0xA00, 1, 0x8, [⟨31, 0, .ro, 0⟩]⟩,
  ⟨0xA04, 1, 0x8, [⟨31, 0, .ro, 0⟩]⟩,
  ⟨0xA08, 1, 0x8, [⟨31, 0, .ro, 0⟩]⟩,
  ⟨0xA0C, 1, 0x8, [⟨31, 0, .ro, 0⟩]⟩,
  ⟨0xA10, 1, 0x8, [⟨31, 0, .ro, 0⟩]⟩,
  ⟨0xA14, 1, 0x8, [⟨31, 0, .ro, 0⟩]⟩,
  ⟨0xA18, 1, 0x8, [⟨31, 0, .ro, 0⟩]⟩,
  ⟨0xA1C, 1, 0x8, [⟨31, 0, .ro, 0⟩]⟩,
  ⟨0xA20, 1, 0x8, [⟨31, 0, .ro, 0⟩]⟩,
  ⟨0xA24, 1, 0x8, [⟨31, 0, .ro, 0⟩]⟩,
  ⟨0xC00, 1, 0x8, [⟨31, 0, .snap, 0⟩]⟩,
  ⟨0xC04, 1, 0x8, [⟨31, 0, .snap, 0⟩]⟩,
  ⟨0xC08, 1, 0x8, [⟨31, 0, .snap, 0⟩]⟩,
  ⟨0xC0C, 1, 0x8, [⟨31, 0, .snap, 0⟩]⟩,
  ⟨0xC10, 1, 0x8, [⟨31, 0, .snap, 0⟩]⟩,
  ⟨0xC14, 1, 0x8, [⟨31, 0, .snap, 0⟩]⟩,
  ⟨0xC18, 1, 0x8, [⟨31, 0, .snap, 0⟩]⟩,
  ⟨0xC1C, 1, 0x8, [⟨31, 0, .snap, 0⟩]⟩,
  ⟨0xC20, 1, 0x8, [⟨31, 0, .snap, 0⟩]⟩,
  ⟨0xC24, 1, 0x8, [⟨31, 0, .snap, 0⟩]⟩,
  ⟨0xE00, 64, 0x8, [⟨31, 0, .ro, 0xffffffff⟩]⟩,
  ⟨0xE04, 64, 0x8, [⟨31, 0, .ro, 0xffffffff⟩]⟩]

/-- Block STP (R12, R44). -/
def blockSTP : BlockRow :=
  ⟨0x05, 0, 0x50000, 16, 1, rowsSTP⟩

/-- Registers of block ENC. -/
def rowsENC : List RegRow := [
  ⟨0x0, 4, 0x20, [⟨31, 31, .rw, 0⟩, ⟨30, 30, .rw, 0⟩, ⟨29, 29, .rw, 0⟩, ⟨28, 28, .rw, 1⟩, ⟨27, 27, .rw, 1⟩, ⟨26, 26, .rw, 1⟩, ⟨25, 25, .rw, 0⟩, ⟨24, 24, .rw, 0⟩, ⟨23, 22, .rw, 0⟩, ⟨21, 21, .rw, 0⟩, ⟨20, 16, .rw, 0xc⟩]⟩,
  ⟨0x4, 4, 0x20, [⟨31, 24, .rw, 0⟩, ⟨23, 0, .rw, 0⟩]⟩,
  ⟨0x8, 4, 0x20, [⟨25, 0, .rw, 0x2710⟩]⟩,
  ⟨0xC, 4, 0x20, [⟨31, 16, .rw, 0x1b33⟩, ⟨15, 0, .rw, 0x666⟩]⟩,
  ⟨0x10, 4, 0x20, [⟨31, 16, .rw, 0⟩, ⟨15, 0, .rw, 0⟩]⟩,
  ⟨0x14, 4, 0x20, [⟨31, 16, .rw, 0⟩, ⟨15, 0, .rw, 0x4000⟩]⟩,
  ⟨0x18, 4, 0x20, [⟨0, 0, .w1s, 0⟩]⟩,
  ⟨0x800, 4, 0x4, [⟨9, 9, .w1c, 0⟩, ⟨8, 8, .w1c, 0⟩, ⟨7, 7, .w1c, 0⟩, ⟨6, 6, .w1c, 0⟩, ⟨5, 5, .w1c, 0⟩, ⟨4, 4, .w1c, 0⟩, ⟨3, 3, .w1c, 0⟩, ⟨2, 2, .w1c, 0⟩, ⟨1, 1, .w1c, 0⟩, ⟨0, 0, .w1c, 0⟩]⟩,
  ⟨0x900, 4, 0x20, [⟨31, 0, .ro, 0⟩]⟩,
  ⟨0x904, 4, 0x20, [⟨7, 0, .ro, 0⟩]⟩,
  ⟨0x908, 4, 0x20, [⟨31, 0, .ro, 0⟩]⟩,
  ⟨0x90C, 4, 0x20, [⟨31, 0, .ro, 0⟩]⟩,
  ⟨0x910, 4, 0x20, [⟨31, 0, .ro, 0⟩]⟩,
  ⟨0x914, 4, 0x20, [⟨31, 0, .ro, 0⟩]⟩,
  ⟨0x918, 4, 0x20, [⟨23, 8, .ro, 0⟩, ⟨7, 7, .ro, 0⟩, ⟨6, 6, .ro, 0⟩, ⟨5, 5, .ro, 0⟩, ⟨4, 4, .ro, 0⟩, ⟨3, 3, .ro, 0⟩, ⟨2, 2, .ro, 0⟩, ⟨1, 1, .ro, 0⟩, ⟨0, 0, .ro, 0⟩]⟩,
  ⟨0x91C, 4, 0x20, [⟨24, 0, .ro, 0⟩]⟩,
  ⟨0xA00, 4, 0x8, [⟨31, 0, .ro, 0⟩]⟩,
  ⟨0xA04, 4, 0x8, [⟨31, 0, .ro, 0⟩]⟩,
  ⟨0xA20, 4, 0x8, [⟨31, 0, .ro, 0⟩]⟩,
  ⟨0xA24, 4, 0x8, [⟨31, 0, .ro, 0⟩]⟩,
  ⟨0xA40, 4, 0x8, [⟨31, 0, .ro, 0⟩]⟩,
  ⟨0xA44, 4, 0x8, [⟨31, 0, .ro, 0⟩]⟩,
  ⟨0xA60, 4, 0x8, [⟨31, 0, .ro, 0⟩]⟩,
  ⟨0xA64, 4, 0x8, [⟨31, 0, .ro, 0⟩]⟩,
  ⟨0xC00, 4, 0x8, [⟨31, 0, .snap, 0⟩]⟩,
  ⟨0xC04, 4, 0x8, [⟨31, 0, .snap, 0⟩]⟩,
  ⟨0xC20, 4, 0x8, [⟨31, 0, .snap, 0⟩]⟩,
  ⟨0xC24, 4, 0x8, [⟨31, 0, .snap, 0⟩]⟩,
  ⟨0xC40, 4, 0x8, [⟨31, 0, .snap, 0⟩]⟩,
  ⟨0xC44, 4, 0x8, [⟨31, 0, .snap, 0⟩]⟩,
  ⟨0xC60, 4, 0x8, [⟨31, 0, .snap, 0⟩]⟩,
  ⟨0xC64, 4, 0x8, [⟨31, 0, .snap, 0⟩]⟩]

/-- Block ENC (R12, R44). -/
def blockENC : BlockRow :=
  ⟨0x06, 0, 0x60000, 16, 1, rowsENC⟩

/-- Registers of block FIO. -/
def rowsFIO : List RegRow := [
  ⟨0x0, 16, 0x10, [⟨31, 30, .rw, 0⟩, ⟨29, 28, .rw, 0⟩, ⟨27, 27, .rw, 0⟩, ⟨25, 25, .rwl 2, 0⟩, ⟨23, 16, .rw, 0⟩, ⟨7, 0, .rwl 2, 0x19⟩]⟩,
  ⟨0x4, 16, 0x10, [⟨25, 0, .rwl 2, 0⟩]⟩,
  ⟨0x8, 16, 0x10, [⟨31, 0, .rw, 0xfa0⟩]⟩,
  ⟨0xC, 16, 0x10, [⟨0, 0, .w1s, 0⟩]⟩,
  ⟨0x800, 1, 0x4, [⟨15, 0, .w1c, 0⟩]⟩,
  ⟨0x804, 1, 0x4, [⟨15, 0, .w1c, 0⟩]⟩,
  ⟨0x808, 1, 0x4, [⟨31, 16, .w1c, 0⟩, ⟨15, 0, .w1c, 0⟩]⟩,
  ⟨0x80C, 1, 0x4, [⟨2, 2, .w1c, 0⟩, ⟨1, 1, .w1c, 0⟩, ⟨0, 0, .w1c, 0⟩]⟩,
  ⟨0x900, 1, 0x4, [⟨15, 0, .ro, 0⟩]⟩,
  ⟨0x904, 1, 0x4, [⟨16, 16, .ro, 0⟩, ⟨15, 0, .ro, 0⟩]⟩,
  ⟨0x908, 1, 0x4, [⟨15, 0, .ro, 0⟩]⟩,
  ⟨0x980, 16, 0x8, [⟨31, 0, .ro, 0⟩]⟩,
  ⟨0x984, 16, 0x8, [⟨31, 0, .ro, 0⟩]⟩,
  ⟨0xA00, 16, 0x8, [⟨31, 0, .ro, 0⟩]⟩,
  ⟨0xA04, 16, 0x8, [⟨31, 0, .ro, 0⟩]⟩,
  ⟨0xA80, 16, 0x8, [⟨31, 0, .ro, 0⟩]⟩,
  ⟨0xA84, 16, 0x8, [⟨31, 0, .ro, 0⟩]⟩,
  ⟨0xB00, 1, 0x8, [⟨31, 0, .ro, 0⟩]⟩,
  ⟨0xB04, 1, 0x8, [⟨31, 0, .ro, 0⟩]⟩,
  ⟨0xB08, 1, 0x8, [⟨31, 0, .ro, 0⟩]⟩,
  ⟨0xB0C, 1, 0x8, [⟨31, 0, .ro, 0⟩]⟩,
  ⟨0xC00, 16, 0x8, [⟨31, 0, .snap, 0⟩]⟩,
  ⟨0xC04, 16, 0x8, [⟨31, 0, .snap, 0⟩]⟩,
  ⟨0xC80, 16, 0x8, [⟨31, 0, .snap, 0⟩]⟩,
  ⟨0xC84, 16, 0x8, [⟨31, 0, .snap, 0⟩]⟩,
  ⟨0xD00, 1, 0x8, [⟨31, 0, .snap, 0⟩]⟩,
  ⟨0xD04, 1, 0x8, [⟨31, 0, .snap, 0⟩]⟩,
  ⟨0xD08, 1, 0x8, [⟨31, 0, .snap, 0⟩]⟩,
  ⟨0xD0C, 1, 0x8, [⟨31, 0, .snap, 0⟩]⟩]

/-- Block FIO (R12, R44). -/
def blockFIO : BlockRow :=
  ⟨0x07, 0, 0x70000, 16, 1, rowsFIO⟩

/-- Registers of block AVP, part 0. -/
def rowsAVP0 : List RegRow := [
  ⟨0x0, 1, 0x4, [⟨7, 7, .w1s, 0⟩, ⟨6, 6, .w1s, 0⟩, ⟨3, 3, .rw, 0⟩, ⟨0, 0, .rw, 0⟩]⟩,
  ⟨0x4, 1, 0x4, [⟨9, 8, .rw, 2⟩, ⟨5, 4, .rw, 2⟩, ⟨1, 0, .rw, 3⟩]⟩,
  ⟨0x8, 1, 0x4, [⟨13, 8, .rw, 0x20⟩, ⟨2, 0, .rw, 3⟩]⟩,
  ⟨0xC, 1, 0x4, [⟨11, 8, .rwl 0, 8⟩, ⟨3, 0, .rwl 0, 8⟩]⟩,
  ⟨0x10, 1, 0x4, [⟨18, 16, .rw, 2⟩, ⟨15, 0, .rw, 0⟩]⟩,
  ⟨0x14, 1, 0x4, [⟨15, 0, .rw, 0⟩]⟩,
  ⟨0x18, 1, 0x4, [⟨1, 0, .rw, 0⟩]⟩,
  ⟨0x1C, 1, 0x4, [⟨13, 0, .rw, 0x64⟩]⟩,
  ⟨0x20, 1, 0x4, [⟨31, 0, .rw, 0⟩]⟩,
  ⟨0x24, 1, 0x4, [⟨19, 0, .rw, 0x2710⟩]⟩,
  ⟨0x30, 1, 0x4, [⟨31, 0, .rw, 0⟩]⟩,
  ⟨0x34, 1, 0x4, [⟨31, 31, .w1s, 0⟩, ⟨30, 30, .rw, 0⟩, ⟨23, 16, .rw, 0xa⟩, ⟨7, 0, .rw, 1⟩]⟩,
  ⟨0x38, 1, 0x4, [⟨0, 0, .w1s, 0⟩]⟩,
  ⟨0x40, 4, 0x4, [⟨31, 31, .w1s, 0⟩, ⟨23, 23, .rwl 0, 0⟩, ⟨21, 16, .rwl 0, 0x20⟩, ⟨8, 8, .rwl 0, 0⟩, ⟨4, 0, .rwl 0, 0xc⟩]⟩,
  ⟨0x800, 1, 0x4, [⟨9, 9, .w1c, 0⟩, ⟨8, 8, .w1c, 0⟩, ⟨7, 7, .w1c, 0⟩, ⟨6, 6, .w1c, 0⟩, ⟨5, 5, .w1c, 0⟩, ⟨4, 4, .w1c, 0⟩, ⟨3, 3, .w1c, 0⟩, ⟨2, 2, .w1c, 0⟩, ⟨1, 1, .w1c, 0⟩, ⟨0, 0, .w1c, 0⟩]⟩,
  ⟨0x804, 1, 0x4, [⟨11, 11, .w1c, 0⟩, ⟨10, 10, .w1c, 0⟩, ⟨9, 9, .w1c, 0⟩, ⟨8, 8, .w1c, 0⟩, ⟨7, 7, .w1c, 0⟩, ⟨6, 6, .w1c, 0⟩, ⟨5, 5, .w1c, 0⟩, ⟨4, 4, .w1c, 0⟩, ⟨3, 3, .w1c, 0⟩, ⟨2, 2, .w1c, 0⟩, ⟨1, 1, .w1c, 0⟩, ⟨0, 0, .w1c, 0⟩]⟩,
  ⟨0x900, 1, 0x4, [⟨17, 16, .ro, 3⟩, ⟨15, 12, .ro, 0⟩, ⟨11, 8, .ro, 0⟩, ⟨7, 6, .ro, 0⟩, ⟨5, 4, .ro, 0⟩, ⟨3, 0, .ro, 0⟩]⟩,
  ⟨0x910, 4, 0x4, [⟨22, 16, .ro, 0⟩, ⟨14, 10, .ro, 0xc⟩, ⟨9, 4, .ro, 0x20⟩, ⟨3, 3, .ro, 0⟩, ⟨2, 2, .ro, 0⟩, ⟨1, 1, .ro, 0⟩, ⟨0, 0, .ro, 0⟩]⟩,
  ⟨0x920, 1, 0x4, [⟨19, 16, .ro, 0⟩, ⟨15, 0, .ro, 0⟩]⟩,
  ⟨0x940, 4, 0x8, [⟨31, 0, .ro, 0⟩]⟩,
  ⟨0x944, 4, 0x8, [⟨15, 0, .ro, 0⟩]⟩,
  ⟨0x960, 4, 0x8, [⟨31, 0, .ro, 0⟩]⟩,
  ⟨0x964, 4, 0x8, [⟨15, 0, .ro, 0⟩]⟩,
  ⟨0x980, 1, 0x4, [⟨7, 4, .ro, 0⟩, ⟨0, 0, .ro, 0⟩]⟩,
  ⟨0x9A0, 1, 0x4, [⟨23, 16, .ro, 0⟩, ⟨15, 8, .ro, 0⟩, ⟨7, 4, .ro, 0⟩, ⟨0, 0, .ro, 0⟩]⟩,
  ⟨0x9A8, 1, 0x4, [⟨31, 0, .ro, 0⟩]⟩,
  ⟨0x9AC, 1, 0x4, [⟨5, 1, .ro, 0⟩, ⟨0, 0, .ro, 0⟩]⟩,
  ⟨0x9B0, 1, 0x4, [⟨31, 0, .ro, 0⟩]⟩,
  ⟨0x9B4, 1, 0x4, [⟨31, 0, .ro, 0⟩]⟩,
  ⟨0x9B8, 1, 0x4, [⟨15, 8, .ro, 0⟩, ⟨7, 0, .ro, 0⟩]⟩,
  ⟨0x9C0, 6, 0x4, [⟨31, 0, .ro, 0⟩]⟩,
  ⟨0x9E0, 5, 0x4, [⟨31, 0, .ro, 0⟩]⟩,
  ⟨0xA00, 4, 0x8, [⟨31, 0, .ro, 0⟩]⟩,
  ⟨0xA04, 4, 0x8, [⟨31, 0, .ro, 0⟩]⟩,
  ⟨0xA20, 1, 0x8, [⟨31, 0, .ro, 0⟩]⟩,
  ⟨0xA24, 1, 0x8, [⟨31, 0, .ro, 0⟩]⟩,
  ⟨0xA28, 1, 0x8, [⟨31, 0, .ro, 0⟩]⟩,
  ⟨0xA2C, 1, 0x8, [⟨31, 0, .ro, 0⟩]⟩,
  ⟨0xA30, 1, 0x8, [⟨31, 0, .ro, 0⟩]⟩,
  ⟨0xA34, 1, 0x8, [⟨31, 0, .ro, 0⟩]⟩,
  ⟨0xA40, 4, 0x8, [⟨31, 0, .ro, 0⟩]⟩,
  ⟨0xA44, 4, 0x8, [⟨31, 0, .ro, 0⟩]⟩,
  ⟨0xA60, 1, 0x8, [⟨31, 0, .ro, 0⟩]⟩,
  ⟨0xA64, 1, 0x8, [⟨31, 0, .ro, 0⟩]⟩,
  ⟨0xA68, 1, 0x8, [⟨31, 0, .ro, 0⟩]⟩,
  ⟨0xA6C, 1, 0x8, [⟨31, 0, .ro, 0⟩]⟩,
  ⟨0xA70, 1, 0x8, [⟨31, 0, .ro, 0⟩]⟩,
  ⟨0xA74, 1, 0x8, [⟨31, 0, .ro, 0⟩]⟩,
  ⟨0xA78, 1, 0x8, [⟨31, 0, .ro, 0⟩]⟩,
  ⟨0xA7C, 1, 0x8, [⟨31, 0, .ro, 0⟩]⟩,
  ⟨0xA80, 1, 0x8, [⟨31, 0, .ro, 0⟩]⟩,
  ⟨0xA84, 1, 0x8, [⟨31, 0, .ro, 0⟩]⟩,
  ⟨0xA88, 1, 0x8, [⟨31, 0, .ro, 0⟩]⟩,
  ⟨0xA8C, 1, 0x8, [⟨31, 0, .ro, 0⟩]⟩,
  ⟨0xA90, 1, 0x8, [⟨31, 0, .ro, 0⟩]⟩,
  ⟨0xA94, 1, 0x8, [⟨31, 0, .ro, 0⟩]⟩,
  ⟨0xA98, 1, 0x8, [⟨31, 0, .ro, 0⟩]⟩,
  ⟨0xA9C, 1, 0x8, [⟨31, 0, .ro, 0⟩]⟩,
  ⟨0xAA0, 1, 0x8, [⟨31, 0, .ro, 0⟩]⟩,
  ⟨0xAA4, 1, 0x8, [⟨31, 0, .ro, 0⟩]⟩]

/-- Registers of block AVP, part 1. -/
def rowsAVP1 : List RegRow := [
  ⟨0xAA8, 1, 0x8, [⟨31, 0, .ro, 0⟩]⟩,
  ⟨0xAAC, 1, 0x8, [⟨31, 0, .ro, 0⟩]⟩,
  ⟨0xAB0, 1, 0x8, [⟨31, 0, .ro, 0⟩]⟩,
  ⟨0xAB4, 1, 0x8, [⟨31, 0, .ro, 0⟩]⟩,
  ⟨0xAB8, 1, 0x8, [⟨31, 0, .ro, 0⟩]⟩,
  ⟨0xABC, 1, 0x8, [⟨31, 0, .ro, 0⟩]⟩,
  ⟨0xAC0, 1, 0x8, [⟨31, 0, .ro, 0⟩]⟩,
  ⟨0xAC4, 1, 0x8, [⟨31, 0, .ro, 0⟩]⟩,
  ⟨0xAC8, 1, 0x8, [⟨31, 0, .ro, 0⟩]⟩,
  ⟨0xACC, 1, 0x8, [⟨31, 0, .ro, 0⟩]⟩,
  ⟨0xAD0, 1, 0x8, [⟨31, 0, .ro, 0⟩]⟩,
  ⟨0xAD4, 1, 0x8, [⟨31, 0, .ro, 0⟩]⟩,
  ⟨0xC00, 4, 0x8, [⟨31, 0, .snap, 0⟩]⟩,
  ⟨0xC04, 4, 0x8, [⟨31, 0, .snap, 0⟩]⟩,
  ⟨0xC20, 1, 0x8, [⟨31, 0, .snap, 0⟩]⟩,
  ⟨0xC24, 1, 0x8, [⟨31, 0, .snap, 0⟩]⟩,
  ⟨0xC28, 1, 0x8, [⟨31, 0, .snap, 0⟩]⟩,
  ⟨0xC2C, 1, 0x8, [⟨31, 0, .snap, 0⟩]⟩,
  ⟨0xC30, 1, 0x8, [⟨31, 0, .snap, 0⟩]⟩,
  ⟨0xC34, 1, 0x8, [⟨31, 0, .snap, 0⟩]⟩,
  ⟨0xC40, 4, 0x8, [⟨31, 0, .snap, 0⟩]⟩,
  ⟨0xC44, 4, 0x8, [⟨31, 0, .snap, 0⟩]⟩,
  ⟨0xC60, 1, 0x8, [⟨31, 0, .snap, 0⟩]⟩,
  ⟨0xC64, 1, 0x8, [⟨31, 0, .snap, 0⟩]⟩,
  ⟨0xC68, 1, 0x8, [⟨31, 0, .snap, 0⟩]⟩,
  ⟨0xC6C, 1, 0x8, [⟨31, 0, .snap, 0⟩]⟩,
  ⟨0xC70, 1, 0x8, [⟨31, 0, .snap, 0⟩]⟩,
  ⟨0xC74, 1, 0x8, [⟨31, 0, .snap, 0⟩]⟩,
  ⟨0xC78, 1, 0x8, [⟨31, 0, .snap, 0⟩]⟩,
  ⟨0xC7C, 1, 0x8, [⟨31, 0, .snap, 0⟩]⟩,
  ⟨0xC80, 1, 0x8, [⟨31, 0, .snap, 0⟩]⟩,
  ⟨0xC84, 1, 0x8, [⟨31, 0, .snap, 0⟩]⟩,
  ⟨0xC88, 1, 0x8, [⟨31, 0, .snap, 0⟩]⟩,
  ⟨0xC8C, 1, 0x8, [⟨31, 0, .snap, 0⟩]⟩,
  ⟨0xC90, 1, 0x8, [⟨31, 0, .snap, 0⟩]⟩,
  ⟨0xC94, 1, 0x8, [⟨31, 0, .snap, 0⟩]⟩,
  ⟨0xC98, 1, 0x8, [⟨31, 0, .snap, 0⟩]⟩,
  ⟨0xC9C, 1, 0x8, [⟨31, 0, .snap, 0⟩]⟩,
  ⟨0xCA0, 1, 0x8, [⟨31, 0, .snap, 0⟩]⟩,
  ⟨0xCA4, 1, 0x8, [⟨31, 0, .snap, 0⟩]⟩,
  ⟨0xCA8, 1, 0x8, [⟨31, 0, .snap, 0⟩]⟩,
  ⟨0xCAC, 1, 0x8, [⟨31, 0, .snap, 0⟩]⟩,
  ⟨0xCB0, 1, 0x8, [⟨31, 0, .snap, 0⟩]⟩,
  ⟨0xCB4, 1, 0x8, [⟨31, 0, .snap, 0⟩]⟩,
  ⟨0xCB8, 1, 0x8, [⟨31, 0, .snap, 0⟩]⟩,
  ⟨0xCBC, 1, 0x8, [⟨31, 0, .snap, 0⟩]⟩,
  ⟨0xCC0, 1, 0x8, [⟨31, 0, .snap, 0⟩]⟩,
  ⟨0xCC4, 1, 0x8, [⟨31, 0, .snap, 0⟩]⟩,
  ⟨0xCC8, 1, 0x8, [⟨31, 0, .snap, 0⟩]⟩,
  ⟨0xCCC, 1, 0x8, [⟨31, 0, .snap, 0⟩]⟩,
  ⟨0xCD0, 1, 0x8, [⟨31, 0, .snap, 0⟩]⟩,
  ⟨0xCD4, 1, 0x8, [⟨31, 0, .snap, 0⟩]⟩,
  ⟨0xE00, 128, 0x4, [⟨31, 0, .rw, 0⟩]⟩]

/-- Block AVP (R12, R44). -/
def blockAVP : BlockRow :=
  ⟨0x10, 0, 0x100000, 16, 16, rowsAVP0 ++ rowsAVP1⟩

/-- Registers of block LPH. -/
def rowsLPH : List RegRow := [
  ⟨0x100, 16, 0x4, [⟨31, 31, .rwl 0, 0⟩, ⟨4, 0, .rwl 0, 0⟩]⟩,
  ⟨0x900, 1, 0x4, [⟨5, 2, .ro, 0xf⟩, ⟨1, 1, .ro, 1⟩, ⟨0, 0, .ro, 1⟩]⟩]

/-- Block LPH (R12, R44). -/
def blockLPH : BlockRow :=
  ⟨0x20, 0, 0x200000, 16, 1, rowsLPH⟩

/-- Registers of block CHT. -/
def rowsCHT : List RegRow := [
  ⟨0x0, 1, 0x4, [⟨15, 0, .rw, 0⟩]⟩,
  ⟨0x4, 1, 0x4, [⟨15, 0, .w1s, 0⟩]⟩,
  ⟨0x40, 16, 0x4, [⟨31, 31, .rwl 5, 1⟩, ⟨5, 0, .rwl 5, 0x3f⟩]⟩,
  ⟨0x100, 16, 0x30, [⟨20, 20, .rw, 0⟩, ⟨17, 16, .rw, 0⟩, ⟨13, 8, .rw, 0x20⟩, ⟨1, 0, .rw, 0⟩]⟩,
  ⟨0x104, 16, 0x30, [⟨28, 24, .rw, 0⟩, ⟨23, 20, .rw, 0⟩, ⟨18, 16, .rw, 4⟩, ⟨15, 13, .rw, 4⟩, ⟨12, 12, .rw, 1⟩, ⟨11, 10, .rw, 0⟩, ⟨9, 8, .rw, 0⟩, ⟨5, 0, .rw, 0⟩]⟩,
  ⟨0x108, 16, 0x30, [⟨31, 6, .rw, 0⟩]⟩,
  ⟨0x10C, 16, 0x30, [⟨15, 0, .rw, 0⟩]⟩,
  ⟨0x110, 16, 0x30, [⟨30, 16, .rw, 0⟩, ⟨14, 0, .rw, 0⟩]⟩,
  ⟨0x114, 16, 0x30, [⟨30, 16, .rw, 0⟩, ⟨9, 1, .rw, 1⟩, ⟨0, 0, .rw, 0⟩]⟩,
  ⟨0x118, 16, 0x30, [⟨31, 6, .rw, 0⟩]⟩,
  ⟨0x11C, 16, 0x30, [⟨31, 16, .rw, 0⟩, ⟨15, 0, .rw, 0⟩]⟩,
  ⟨0x120, 16, 0x30, [⟨31, 16, .rw, 0xffff⟩, ⟨15, 0, .rw, 0x1000⟩]⟩,
  ⟨0x400, 16, 0x30, [⟨20, 20, .ro, 0⟩, ⟨17, 16, .ro, 0⟩, ⟨13, 8, .ro, 0x20⟩, ⟨1, 0, .ro, 0⟩]⟩,
  ⟨0x404, 16, 0x30, [⟨28, 24, .ro, 0⟩, ⟨23, 20, .ro, 0⟩, ⟨18, 16, .ro, 4⟩, ⟨15, 13, .ro, 4⟩, ⟨12, 12, .ro, 1⟩, ⟨11, 10, .ro, 0⟩, ⟨9, 8, .ro, 0⟩, ⟨5, 0, .ro, 0⟩]⟩,
  ⟨0x408, 16, 0x30, [⟨31, 6, .ro, 0⟩]⟩,
  ⟨0x40C, 16, 0x30, [⟨15, 0, .ro, 0⟩]⟩,
  ⟨0x410, 16, 0x30, [⟨30, 16, .ro, 0⟩, ⟨14, 0, .ro, 0⟩]⟩,
  ⟨0x414, 16, 0x30, [⟨30, 16, .ro, 0⟩, ⟨9, 1, .ro, 1⟩, ⟨0, 0, .ro, 0⟩]⟩,
  ⟨0x418, 16, 0x30, [⟨31, 6, .ro, 0⟩]⟩,
  ⟨0x41C, 16, 0x30, [⟨31, 16, .ro, 0⟩, ⟨15, 0, .ro, 0⟩]⟩,
  ⟨0x420, 16, 0x30, [⟨31, 16, .ro, 0xffff⟩, ⟨15, 0, .ro, 0x1000⟩]⟩,
  ⟨0x800, 1, 0x4, [⟨10, 10, .w1c, 0⟩, ⟨9, 9, .w1c, 0⟩, ⟨8, 8, .w1c, 0⟩, ⟨7, 7, .w1c, 0⟩, ⟨6, 6, .w1c, 0⟩, ⟨5, 5, .w1c, 0⟩, ⟨4, 4, .w1c, 0⟩, ⟨3, 3, .w1c, 0⟩, ⟨2, 2, .w1c, 0⟩, ⟨1, 1, .w1c, 0⟩, ⟨0, 0, .w1c, 0⟩]⟩,
  ⟨0x900, 16, 0x4, [⟨14, 11, .ro, 0⟩, ⟨10, 5, .ro, 0x20⟩, ⟨4, 4, .ro, 0⟩, ⟨3, 3, .ro, 0⟩, ⟨2, 2, .ro, 0⟩, ⟨1, 1, .ro, 0⟩, ⟨0, 0, .ro, 0⟩]⟩,
  ⟨0xA00, 1, 0x8, [⟨31, 0, .ro, 0⟩]⟩,
  ⟨0xA04, 1, 0x8, [⟨31, 0, .ro, 0⟩]⟩,
  ⟨0xA08, 1, 0x8, [⟨31, 0, .ro, 0⟩]⟩,
  ⟨0xA0C, 1, 0x8, [⟨31, 0, .ro, 0⟩]⟩,
  ⟨0xA10, 1, 0x8, [⟨31, 0, .ro, 0⟩]⟩,
  ⟨0xA14, 1, 0x8, [⟨31, 0, .ro, 0⟩]⟩,
  ⟨0xA18, 1, 0x8, [⟨31, 0, .ro, 0⟩]⟩,
  ⟨0xA1C, 1, 0x8, [⟨31, 0, .ro, 0⟩]⟩,
  ⟨0xA20, 1, 0x8, [⟨31, 0, .ro, 0⟩]⟩,
  ⟨0xA24, 1, 0x8, [⟨31, 0, .ro, 0⟩]⟩,
  ⟨0xA28, 1, 0x8, [⟨31, 0, .ro, 0⟩]⟩,
  ⟨0xA2C, 1, 0x8, [⟨31, 0, .ro, 0⟩]⟩,
  ⟨0xC00, 1, 0x8, [⟨31, 0, .snap, 0⟩]⟩,
  ⟨0xC04, 1, 0x8, [⟨31, 0, .snap, 0⟩]⟩,
  ⟨0xC08, 1, 0x8, [⟨31, 0, .snap, 0⟩]⟩,
  ⟨0xC0C, 1, 0x8, [⟨31, 0, .snap, 0⟩]⟩,
  ⟨0xC10, 1, 0x8, [⟨31, 0, .snap, 0⟩]⟩,
  ⟨0xC14, 1, 0x8, [⟨31, 0, .snap, 0⟩]⟩,
  ⟨0xC18, 1, 0x8, [⟨31, 0, .snap, 0⟩]⟩,
  ⟨0xC1C, 1, 0x8, [⟨31, 0, .snap, 0⟩]⟩,
  ⟨0xC20, 1, 0x8, [⟨31, 0, .snap, 0⟩]⟩,
  ⟨0xC24, 1, 0x8, [⟨31, 0, .snap, 0⟩]⟩,
  ⟨0xC28, 1, 0x8, [⟨31, 0, .snap, 0⟩]⟩,
  ⟨0xC2C, 1, 0x8, [⟨31, 0, .snap, 0⟩]⟩]

/-- Block CHT (R12, R44). -/
def blockCHT : BlockRow :=
  ⟨0x30, 0, 0x400000, 16, 1, rowsCHT⟩

/-- Registers of block CHT_T. -/
def rowsCHTT : List RegRow := [
  ⟨0x0, 1, 0x4, [⟨0, 0, .rwl 5, 0⟩]⟩,
  ⟨0x800, 1, 0x4, [⟨3, 3, .w1c, 0⟩, ⟨2, 2, .w1c, 0⟩, ⟨1, 1, .w1c, 0⟩, ⟨0, 0, .w1c, 0⟩]⟩,
  ⟨0x900, 1, 0x4, [⟨19, 16, .ro, 0⟩, ⟨15, 10, .ro, 0x3f⟩, ⟨4, 4, .ro, 0⟩, ⟨3, 3, .ro, 0⟩, ⟨2, 2, .ro, 0⟩, ⟨1, 1, .ro, 0⟩, ⟨0, 0, .ro, 0⟩]⟩,
  ⟨0x904, 1, 0x4, [⟨15, 8, .ro, 0⟩, ⟨5, 0, .ro, 0⟩]⟩,
  ⟨0x908, 1, 0x8, [⟨31, 0, .ro, 0xffffffff⟩]⟩,
  ⟨0x90C, 1, 0x8, [⟨31, 0, .ro, 0xffffffff⟩]⟩,
  ⟨0xA00, 1, 0x8, [⟨31, 0, .ro, 0⟩]⟩,
  ⟨0xA04, 1, 0x8, [⟨31, 0, .ro, 0⟩]⟩,
  ⟨0xA08, 1, 0x8, [⟨31, 0, .ro, 0⟩]⟩,
  ⟨0xA0C, 1, 0x8, [⟨31, 0, .ro, 0⟩]⟩,
  ⟨0xA10, 1, 0x8, [⟨31, 0, .ro, 0⟩]⟩,
  ⟨0xA14, 1, 0x8, [⟨31, 0, .ro, 0⟩]⟩,
  ⟨0xA18, 1, 0x8, [⟨31, 0, .ro, 0⟩]⟩,
  ⟨0xA1C, 1, 0x8, [⟨31, 0, .ro, 0⟩]⟩,
  ⟨0xA20, 1, 0x8, [⟨31, 0, .ro, 0⟩]⟩,
  ⟨0xA24, 1, 0x8, [⟨31, 0, .ro, 0⟩]⟩,
  ⟨0xA28, 1, 0x8, [⟨31, 0, .ro, 0⟩]⟩,
  ⟨0xA2C, 1, 0x8, [⟨31, 0, .ro, 0⟩]⟩,
  ⟨0xA30, 1, 0x8, [⟨31, 0, .ro, 0⟩]⟩,
  ⟨0xA34, 1, 0x8, [⟨31, 0, .ro, 0⟩]⟩,
  ⟨0xC00, 1, 0x8, [⟨31, 0, .snap, 0⟩]⟩,
  ⟨0xC04, 1, 0x8, [⟨31, 0, .snap, 0⟩]⟩,
  ⟨0xC08, 1, 0x8, [⟨31, 0, .snap, 0⟩]⟩,
  ⟨0xC0C, 1, 0x8, [⟨31, 0, .snap, 0⟩]⟩,
  ⟨0xC10, 1, 0x8, [⟨31, 0, .snap, 0⟩]⟩,
  ⟨0xC14, 1, 0x8, [⟨31, 0, .snap, 0⟩]⟩,
  ⟨0xC18, 1, 0x8, [⟨31, 0, .snap, 0⟩]⟩,
  ⟨0xC1C, 1, 0x8, [⟨31, 0, .snap, 0⟩]⟩,
  ⟨0xC20, 1, 0x8, [⟨31, 0, .snap, 0⟩]⟩,
  ⟨0xC24, 1, 0x8, [⟨31, 0, .snap, 0⟩]⟩,
  ⟨0xC28, 1, 0x8, [⟨31, 0, .snap, 0⟩]⟩,
  ⟨0xC2C, 1, 0x8, [⟨31, 0, .snap, 0⟩]⟩,
  ⟨0xC30, 1, 0x8, [⟨31, 0, .snap, 0⟩]⟩,
  ⟨0xC34, 1, 0x8, [⟨31, 0, .snap, 0⟩]⟩]

/-- Block CHT_T (R12, R44). -/
def blockCHTT : BlockRow :=
  ⟨0x30, 1, 0x500000, 12, 528, rowsCHTT⟩

/-- Registers of block CLR. -/
def rowsCLR : List RegRow := [
  ⟨0x100, 16, 0x4, [⟨10, 8, .rw, 3⟩, ⟨6, 4, .rw, 0⟩, ⟨1, 0, .rw, 1⟩]⟩,
  ⟨0x140, 16, 0x4, [⟨10, 8, .ro, 3⟩, ⟨6, 4, .ro, 0⟩, ⟨1, 0, .ro, 1⟩]⟩,
  ⟨0x800, 1, 0x4, [⟨3, 3, .w1c, 0⟩, ⟨2, 2, .w1c, 0⟩, ⟨1, 1, .w1c, 0⟩, ⟨0, 0, .w1c, 0⟩]⟩,
  ⟨0x900, 1, 0x4, [⟨8, 0, .ro, 0⟩]⟩,
  ⟨0x980, 16, 0x8, [⟨31, 0, .ro, 0⟩]⟩,
  ⟨0x984, 16, 0x8, [⟨15, 8, .ro, 0⟩, ⟨7, 0, .ro, 0⟩]⟩,
  ⟨0xA00, 1, 0x8, [⟨31, 0, .ro, 0⟩]⟩,
  ⟨0xA04, 1, 0x8, [⟨31, 0, .ro, 0⟩]⟩,
  ⟨0xA08, 1, 0x8, [⟨31, 0, .ro, 0⟩]⟩,
  ⟨0xA0C, 1, 0x8, [⟨31, 0, .ro, 0⟩]⟩,
  ⟨0xA10, 1, 0x8, [⟨31, 0, .ro, 0⟩]⟩,
  ⟨0xA14, 1, 0x8, [⟨31, 0, .ro, 0⟩]⟩,
  ⟨0xA18, 1, 0x8, [⟨31, 0, .ro, 0⟩]⟩,
  ⟨0xA1C, 1, 0x8, [⟨31, 0, .ro, 0⟩]⟩,
  ⟨0xA20, 1, 0x8, [⟨31, 0, .ro, 0⟩]⟩,
  ⟨0xA24, 1, 0x8, [⟨31, 0, .ro, 0⟩]⟩,
  ⟨0xA40, 12, 0x8, [⟨31, 0, .ro, 0⟩]⟩,
  ⟨0xA44, 12, 0x8, [⟨31, 0, .ro, 0⟩]⟩,
  ⟨0xC00, 1, 0x8, [⟨31, 0, .snap, 0⟩]⟩,
  ⟨0xC04, 1, 0x8, [⟨31, 0, .snap, 0⟩]⟩,
  ⟨0xC08, 1, 0x8, [⟨31, 0, .snap, 0⟩]⟩,
  ⟨0xC0C, 1, 0x8, [⟨31, 0, .snap, 0⟩]⟩,
  ⟨0xC10, 1, 0x8, [⟨31, 0, .snap, 0⟩]⟩,
  ⟨0xC14, 1, 0x8, [⟨31, 0, .snap, 0⟩]⟩,
  ⟨0xC18, 1, 0x8, [⟨31, 0, .snap, 0⟩]⟩,
  ⟨0xC1C, 1, 0x8, [⟨31, 0, .snap, 0⟩]⟩,
  ⟨0xC20, 1, 0x8, [⟨31, 0, .snap, 0⟩]⟩,
  ⟨0xC24, 1, 0x8, [⟨31, 0, .snap, 0⟩]⟩,
  ⟨0xC40, 12, 0x8, [⟨31, 0, .snap, 0⟩]⟩,
  ⟨0xC44, 12, 0x8, [⟨31, 0, .snap, 0⟩]⟩]

/-- Block CLR (R12, R44). -/
def blockCLR : BlockRow :=
  ⟨0x40, 0, 0x800000, 16, 1, rowsCLR⟩

/-- Registers of block VLT, part 0. -/
def rowsVLT0 : List RegRow := [
  ⟨0x0, 64, 0x10, [⟨16, 0, .rw, 0⟩]⟩,
  ⟨0x4, 64, 0x10, [⟨23, 20, .rw, 1⟩, ⟨16, 0, .rw, 0⟩]⟩,
  ⟨0x8, 64, 0x10, [⟨31, 31, .rw, 0⟩, ⟨30, 29, .rw, 0⟩, ⟨28, 28, .rw, 0⟩, ⟨27, 25, .rw, 0⟩, ⟨19, 0, .rw, 0⟩]⟩,
  ⟨0xC, 64, 0x10, [⟨31, 20, .rw, 0⟩, ⟨19, 0, .rw, 0⟩]⟩,
  ⟨0x400, 80, 0x4, [⟨31, 31, .rw, 0⟩, ⟨30, 30, .rw, 0⟩, ⟨13, 8, .rw, 0⟩, ⟨7, 7, .rw, 0⟩, ⟨5, 0, .rw, 0⟩]⟩,
  ⟨0x540, 16, 0x10, [⟨31, 31, .rw, 0⟩, ⟨9, 8, .rw, 0⟩, ⟨5, 0, .rw, 0⟩]⟩,
  ⟨0x544, 16, 0x10, [⟨31, 0, .rw, 0⟩]⟩,
  ⟨0x548, 16, 0x10, [⟨31, 0, .rw, 0⟩]⟩,
  ⟨0x54C, 16, 0x10, [⟨31, 0, .rw, 0⟩]⟩,
  ⟨0x640, 1, 0x4, [⟨31, 31, .rw, 0⟩, ⟨5, 0, .rw, 0⟩]⟩,
  ⟨0x644, 1, 0x4, [⟨7, 0, .w1s, 0⟩]⟩,
  ⟨0x648, 1, 0x4, [⟨31, 0, .w1s, 0⟩]⟩,
  ⟨0x64C, 1, 0x4, [⟨31, 0, .w1s, 0⟩]⟩,
  ⟨0x650, 1, 0x4, [⟨15, 0, .rw, 0x64⟩]⟩,
  ⟨0x654, 1, 0x4, [⟨1, 0, .rwl 1, 0⟩]⟩,
  ⟨0x658, 1, 0x4, [⟨31, 31, .w1s, 0⟩, ⟨16, 0, .rw, 0⟩]⟩,
  ⟨0x800, 1, 0x4, [⟨13, 13, .w1c, 0⟩, ⟨12, 12, .w1c, 0⟩, ⟨11, 11, .w1c, 0⟩, ⟨10, 10, .w1c, 0⟩, ⟨9, 9, .w1c, 0⟩, ⟨8, 8, .w1c, 0⟩, ⟨7, 7, .w1c, 0⟩, ⟨6, 6, .w1c, 0⟩, ⟨5, 5, .w1c, 0⟩, ⟨4, 4, .w1c, 0⟩, ⟨3, 3, .w1c, 0⟩, ⟨2, 2, .w1c, 0⟩, ⟨1, 1, .w1c, 0⟩, ⟨0, 0, .w1c, 0⟩]⟩,
  ⟨0x900, 1, 0x4, [⟨9, 9, .ro, 0⟩, ⟨8, 8, .ro, 0⟩, ⟨7, 0, .ro, 0⟩]⟩,
  ⟨0x904, 1, 0x4, [⟨5, 0, .rw, 0⟩]⟩,
  ⟨0x910, 1, 0x4, [⟨4, 4, .ro, 0⟩, ⟨3, 3, .ro, 0⟩, ⟨2, 0, .ro, 0⟩]⟩,
  ⟨0x914, 1, 0x4, [⟨31, 0, .ro, 0⟩]⟩,
  ⟨0x918, 1, 0x4, [⟨31, 0, .ro, 0⟩]⟩,
  ⟨0x91C, 1, 0x4, [⟨31, 0, .ro, 0⟩]⟩,
  ⟨0x920, 1, 0x4, [⟨31, 0, .ro, 0⟩]⟩,
  ⟨0x928, 1, 0x8, [⟨31, 0, .ro, 0⟩]⟩,
  ⟨0x92C, 1, 0x8, [⟨31, 0, .ro, 0⟩]⟩,
  ⟨0x930, 1, 0x8, [⟨31, 0, .ro, 0⟩]⟩,
  ⟨0x934, 1, 0x8, [⟨31, 0, .ro, 0⟩]⟩,
  ⟨0x938, 1, 0x8, [⟨31, 0, .ro, 0⟩]⟩,
  ⟨0x93C, 1, 0x8, [⟨31, 0, .ro, 0⟩]⟩,
  ⟨0x940, 1, 0x8, [⟨31, 0, .ro, 0⟩]⟩,
  ⟨0x944, 1, 0x8, [⟨31, 0, .ro, 0⟩]⟩,
  ⟨0x948, 1, 0x8, [⟨31, 0, .ro, 0xffffffff⟩]⟩,
  ⟨0x94C, 1, 0x8, [⟨31, 0, .ro, 0xffffffff⟩]⟩,
  ⟨0x950, 1, 0x8, [⟨31, 0, .ro, 0⟩]⟩,
  ⟨0x954, 1, 0x8, [⟨31, 0, .ro, 0⟩]⟩,
  ⟨0x958, 1, 0x4, [⟨31, 0, .ro, 0⟩]⟩,
  ⟨0x95C, 1, 0x4, [⟨31, 0, .ro, 0⟩]⟩,
  ⟨0x960, 1, 0x4, [⟨31, 0, .ro, 0⟩]⟩,
  ⟨0x964, 1, 0x4, [⟨31, 0, .ro, 0⟩]⟩,
  ⟨0xA00, 1, 0x8, [⟨31, 0, .ro, 0⟩]⟩,
  ⟨0xA04, 1, 0x8, [⟨31, 0, .ro, 0⟩]⟩,
  ⟨0xA08, 1, 0x8, [⟨31, 0, .ro, 0⟩]⟩,
  ⟨0xA0C, 1, 0x8, [⟨31, 0, .ro, 0⟩]⟩,
  ⟨0xA10, 1, 0x8, [⟨31, 0, .ro, 0⟩]⟩,
  ⟨0xA14, 1, 0x8, [⟨31, 0, .ro, 0⟩]⟩,
  ⟨0xA18, 1, 0x8, [⟨31, 0, .ro, 0⟩]⟩,
  ⟨0xA1C, 1, 0x8, [⟨31, 0, .ro, 0⟩]⟩,
  ⟨0xA20, 1, 0x8, [⟨31, 0, .ro, 0⟩]⟩,
  ⟨0xA24, 1, 0x8, [⟨31, 0, .ro, 0⟩]⟩,
  ⟨0xA28, 1, 0x8, [⟨31, 0, .ro, 0⟩]⟩,
  ⟨0xA2C, 1, 0x8, [⟨31, 0, .ro, 0⟩]⟩,
  ⟨0xA30, 1, 0x8, [⟨31, 0, .ro, 0⟩]⟩,
  ⟨0xA34, 1, 0x8, [⟨31, 0, .ro, 0⟩]⟩,
  ⟨0xA38, 1, 0x8, [⟨31, 0, .ro, 0⟩]⟩,
  ⟨0xA3C, 1, 0x8, [⟨31, 0, .ro, 0⟩]⟩,
  ⟨0xA40, 1, 0x8, [⟨31, 0, .ro, 0⟩]⟩,
  ⟨0xA44, 1, 0x8, [⟨31, 0, .ro, 0⟩]⟩,
  ⟨0xA48, 1, 0x8, [⟨31, 0, .ro, 0⟩]⟩,
  ⟨0xA4C, 1, 0x8, [⟨31, 0, .ro, 0⟩]⟩]

/-- Registers of block VLT, part 1. -/
def rowsVLT1 : List RegRow := [
  ⟨0xA50, 1, 0x8, [⟨31, 0, .ro, 0⟩]⟩,
  ⟨0xA54, 1, 0x8, [⟨31, 0, .ro, 0⟩]⟩,
  ⟨0xC00, 1, 0x8, [⟨31, 0, .snap, 0⟩]⟩,
  ⟨0xC04, 1, 0x8, [⟨31, 0, .snap, 0⟩]⟩,
  ⟨0xC08, 1, 0x8, [⟨31, 0, .snap, 0⟩]⟩,
  ⟨0xC0C, 1, 0x8, [⟨31, 0, .snap, 0⟩]⟩,
  ⟨0xC10, 1, 0x8, [⟨31, 0, .snap, 0⟩]⟩,
  ⟨0xC14, 1, 0x8, [⟨31, 0, .snap, 0⟩]⟩,
  ⟨0xC18, 1, 0x8, [⟨31, 0, .snap, 0⟩]⟩,
  ⟨0xC1C, 1, 0x8, [⟨31, 0, .snap, 0⟩]⟩,
  ⟨0xC20, 1, 0x8, [⟨31, 0, .snap, 0⟩]⟩,
  ⟨0xC24, 1, 0x8, [⟨31, 0, .snap, 0⟩]⟩,
  ⟨0xC28, 1, 0x8, [⟨31, 0, .snap, 0⟩]⟩,
  ⟨0xC2C, 1, 0x8, [⟨31, 0, .snap, 0⟩]⟩,
  ⟨0xC30, 1, 0x8, [⟨31, 0, .snap, 0⟩]⟩,
  ⟨0xC34, 1, 0x8, [⟨31, 0, .snap, 0⟩]⟩,
  ⟨0xC38, 1, 0x8, [⟨31, 0, .snap, 0⟩]⟩,
  ⟨0xC3C, 1, 0x8, [⟨31, 0, .snap, 0⟩]⟩,
  ⟨0xC40, 1, 0x8, [⟨31, 0, .snap, 0⟩]⟩,
  ⟨0xC44, 1, 0x8, [⟨31, 0, .snap, 0⟩]⟩,
  ⟨0xC48, 1, 0x8, [⟨31, 0, .snap, 0⟩]⟩,
  ⟨0xC4C, 1, 0x8, [⟨31, 0, .snap, 0⟩]⟩,
  ⟨0xC50, 1, 0x8, [⟨31, 0, .snap, 0⟩]⟩,
  ⟨0xC54, 1, 0x8, [⟨31, 0, .snap, 0⟩]⟩,
  ⟨0xE00, 128, 0x4, [⟨31, 31, .ro, 0⟩, ⟨16, 0, .ro, 0⟩]⟩]

/-- Block VLT (R12, R44). -/
def blockVLT : BlockRow :=
  ⟨0x50, 0, 0x900000, 16, 1, rowsVLT0 ++ rowsVLT1⟩

/-- Registers of block DMA. -/
def rowsDMA : List RegRow := [
  ⟨0x0, 1, 0x4, [⟨31, 0, .rw, 0xffffff⟩]⟩,
  ⟨0x800, 1, 0x4, [⟨0, 0, .w1c, 0⟩]⟩,
  ⟨0x900, 1, 0x4, [⟨31, 0, .ro, 0⟩]⟩,
  ⟨0x904, 1, 0x4, [⟨31, 0, .ro, 0⟩]⟩,
  ⟨0xA00, 1, 0x8, [⟨31, 0, .ro, 0⟩]⟩,
  ⟨0xA04, 1, 0x8, [⟨31, 0, .ro, 0⟩]⟩,
  ⟨0xA08, 1, 0x8, [⟨31, 0, .ro, 0⟩]⟩,
  ⟨0xA0C, 1, 0x8, [⟨31, 0, .ro, 0⟩]⟩,
  ⟨0xA10, 1, 0x8, [⟨31, 0, .ro, 0⟩]⟩,
  ⟨0xA14, 1, 0x8, [⟨31, 0, .ro, 0⟩]⟩,
  ⟨0xA18, 1, 0x8, [⟨31, 0, .ro, 0⟩]⟩,
  ⟨0xA1C, 1, 0x8, [⟨31, 0, .ro, 0⟩]⟩,
  ⟨0xA20, 1, 0x8, [⟨31, 0, .ro, 0⟩]⟩,
  ⟨0xA24, 1, 0x8, [⟨31, 0, .ro, 0⟩]⟩,
  ⟨0xA28, 1, 0x8, [⟨31, 0, .ro, 0⟩]⟩,
  ⟨0xA2C, 1, 0x8, [⟨31, 0, .ro, 0⟩]⟩,
  ⟨0xA30, 1, 0x8, [⟨31, 0, .ro, 0⟩]⟩,
  ⟨0xA34, 1, 0x8, [⟨31, 0, .ro, 0⟩]⟩,
  ⟨0xC00, 1, 0x8, [⟨31, 0, .snap, 0⟩]⟩,
  ⟨0xC04, 1, 0x8, [⟨31, 0, .snap, 0⟩]⟩,
  ⟨0xC08, 1, 0x8, [⟨31, 0, .snap, 0⟩]⟩,
  ⟨0xC0C, 1, 0x8, [⟨31, 0, .snap, 0⟩]⟩,
  ⟨0xC10, 1, 0x8, [⟨31, 0, .snap, 0⟩]⟩,
  ⟨0xC14, 1, 0x8, [⟨31, 0, .snap, 0⟩]⟩,
  ⟨0xC18, 1, 0x8, [⟨31, 0, .snap, 0⟩]⟩,
  ⟨0xC1C, 1, 0x8, [⟨31, 0, .snap, 0⟩]⟩,
  ⟨0xC20, 1, 0x8, [⟨31, 0, .snap, 0⟩]⟩,
  ⟨0xC24, 1, 0x8, [⟨31, 0, .snap, 0⟩]⟩,
  ⟨0xC28, 1, 0x8, [⟨31, 0, .snap, 0⟩]⟩,
  ⟨0xC2C, 1, 0x8, [⟨31, 0, .snap, 0⟩]⟩,
  ⟨0xC30, 1, 0x8, [⟨31, 0, .snap, 0⟩]⟩,
  ⟨0xC34, 1, 0x8, [⟨31, 0, .snap, 0⟩]⟩]

/-- Block DMA (R12, R44). -/
def blockDMA : BlockRow :=
  ⟨0x60, 0, 0xA00000, 16, 1, rowsDMA⟩

/-- Registers of block DMA_CH, part 0. -/
def rowsDMACH0 : List RegRow := [
  ⟨0x0, 1, 0x4, [⟨2, 2, .w1s, 0⟩, ⟨1, 1, .w1s, 0⟩, ⟨0, 0, .w1s, 0⟩]⟩,
  ⟨0x4, 1, 0x4, [⟨25, 20, .rw, 0⟩, ⟨19, 19, .rw, 0⟩, ⟨18, 18, .rw, 0⟩, ⟨15, 12, .rw, 3⟩, ⟨9, 8, .rw, 0⟩, ⟨5, 4, .rw, 1⟩, ⟨2, 2, .rw, 0⟩, ⟨0, 0, .rw, 0⟩]⟩,
  ⟨0x8, 1, 0x4, [⟨31, 12, .rw, 0⟩, ⟨0, 0, .rw, 0⟩]⟩,
  ⟨0xC, 1, 0x4, [⟨31, 0, .rw, 0⟩]⟩,
  ⟨0x10, 1, 0x4, [⟨4, 0, .rw, 2⟩]⟩,
  ⟨0x14, 1, 0x4, [⟨15, 0, .rw, 0⟩]⟩,
  ⟨0x18, 1, 0x4, [⟨15, 0, .rw, 0⟩]⟩,
  ⟨0x1C, 1, 0x4, [⟨21, 16, .rw, 0xc⟩, ⟨5, 0, .rw, 0xc⟩]⟩,
  ⟨0x20, 1, 0x4, [⟨30, 28, .rw, 2⟩, ⟨27, 24, .rw, 0⟩, ⟨23, 20, .rw, 0⟩, ⟨14, 0, .rw, 0⟩]⟩,
  ⟨0x24, 1, 0x4, [⟨27, 22, .rw, 8⟩, ⟨21, 12, .rw, 0⟩, ⟨4, 0, .rw, 0⟩]⟩,
  ⟨0x28, 1, 0x8, [⟨31, 0, .rw, 0⟩]⟩,
  ⟨0x2C, 1, 0x8, [⟨31, 0, .rw, 0⟩]⟩,
  ⟨0x30, 1, 0x8, [⟨31, 0, .rw, 0⟩]⟩,
  ⟨0x34, 1, 0x8, [⟨31, 0, .rw, 0⟩]⟩,
  ⟨0x80, 1, 0x8, [⟨31, 0, .rw, 0⟩]⟩,
  ⟨0x84, 1, 0x8, [⟨31, 0, .rw, 0⟩]⟩,
  ⟨0x88, 1, 0x8, [⟨31, 0, .rw, 0⟩]⟩,
  ⟨0x8C, 1, 0x8, [⟨31, 0, .rw, 0⟩]⟩,
  ⟨0x90, 1, 0x4, [⟨31, 0, .rw, 0⟩]⟩,
  ⟨0x94, 1, 0x4, [⟨31, 0, .rw, 0⟩]⟩,
  ⟨0x98, 1, 0x8, [⟨31, 0, .rw, 0⟩]⟩,
  ⟨0x9C, 1, 0x8, [⟨31, 0, .rw, 0⟩]⟩,
  ⟨0xA0, 1, 0x4, [⟨0, 0, .w1s, 0⟩]⟩,
  ⟨0x800, 1, 0x4, [⟨6, 6, .w1c, 0⟩, ⟨5, 5, .w1c, 0⟩, ⟨4, 4, .w1c, 0⟩, ⟨3, 3, .w1c, 0⟩, ⟨2, 2, .w1c, 0⟩, ⟨1, 1, .w1c, 0⟩, ⟨0, 0, .w1c, 0⟩]⟩,
  ⟨0x900, 1, 0x4, [⟨6, 6, .ro, 0⟩, ⟨5, 3, .ro, 0⟩, ⟨2, 0, .ro, 0⟩]⟩,
  ⟨0x908, 1, 0x8, [⟨31, 0, .ro, 0⟩]⟩,
  ⟨0x90C, 1, 0x8, [⟨31, 0, .ro, 0⟩]⟩,
  ⟨0x910, 1, 0x8, [⟨31, 0, .ro, 0⟩]⟩,
  ⟨0x914, 1, 0x8, [⟨31, 0, .ro, 0⟩]⟩,
  ⟨0x918, 1, 0x4, [⟨3, 1, .ro, 0⟩, ⟨0, 0, .ro, 0⟩]⟩,
  ⟨0x920, 1, 0x8, [⟨31, 0, .ro, 0⟩]⟩,
  ⟨0x924, 1, 0x8, [⟨31, 0, .ro, 0⟩]⟩,
  ⟨0x928, 1, 0x8, [⟨31, 0, .ro, 0⟩]⟩,
  ⟨0x92C, 1, 0x8, [⟨31, 0, .ro, 0⟩]⟩,
  ⟨0xA00, 1, 0x8, [⟨31, 0, .ro, 0⟩]⟩,
  ⟨0xA04, 1, 0x8, [⟨31, 0, .ro, 0⟩]⟩,
  ⟨0xA08, 1, 0x8, [⟨31, 0, .ro, 0⟩]⟩,
  ⟨0xA0C, 1, 0x8, [⟨31, 0, .ro, 0⟩]⟩,
  ⟨0xA10, 1, 0x8, [⟨31, 0, .ro, 0⟩]⟩,
  ⟨0xA14, 1, 0x8, [⟨31, 0, .ro, 0⟩]⟩,
  ⟨0xA18, 1, 0x8, [⟨31, 0, .ro, 0⟩]⟩,
  ⟨0xA1C, 1, 0x8, [⟨31, 0, .ro, 0⟩]⟩,
  ⟨0xA20, 1, 0x8, [⟨31, 0, .ro, 0⟩]⟩,
  ⟨0xA24, 1, 0x8, [⟨31, 0, .ro, 0⟩]⟩,
  ⟨0xA28, 1, 0x8, [⟨31, 0, .ro, 0⟩]⟩,
  ⟨0xA2C, 1, 0x8, [⟨31, 0, .ro, 0⟩]⟩,
  ⟨0xA30, 1, 0x8, [⟨31, 0, .ro, 0⟩]⟩,
  ⟨0xA34, 1, 0x8, [⟨31, 0, .ro, 0⟩]⟩,
  ⟨0xA38, 1, 0x8, [⟨31, 0, .ro, 0⟩]⟩,
  ⟨0xA3C, 1, 0x8, [⟨31, 0, .ro, 0⟩]⟩,
  ⟨0xA40, 1, 0x8, [⟨31, 0, .ro, 0⟩]⟩,
  ⟨0xA44, 1, 0x8, [⟨31, 0, .ro, 0⟩]⟩,
  ⟨0xC00, 1, 0x8, [⟨31, 0, .snap, 0⟩]⟩,
  ⟨0xC04, 1, 0x8, [⟨31, 0, .snap, 0⟩]⟩,
  ⟨0xC08, 1, 0x8, [⟨31, 0, .snap, 0⟩]⟩,
  ⟨0xC0C, 1, 0x8, [⟨31, 0, .snap, 0⟩]⟩,
  ⟨0xC10, 1, 0x8, [⟨31, 0, .snap, 0⟩]⟩,
  ⟨0xC14, 1, 0x8, [⟨31, 0, .snap, 0⟩]⟩,
  ⟨0xC18, 1, 0x8, [⟨31, 0, .snap, 0⟩]⟩,
  ⟨0xC1C, 1, 0x8, [⟨31, 0, .snap, 0⟩]⟩]

/-- Registers of block DMA_CH, part 1. -/
def rowsDMACH1 : List RegRow := [
  ⟨0xC20, 1, 0x8, [⟨31, 0, .snap, 0⟩]⟩,
  ⟨0xC24, 1, 0x8, [⟨31, 0, .snap, 0⟩]⟩,
  ⟨0xC28, 1, 0x8, [⟨31, 0, .snap, 0⟩]⟩,
  ⟨0xC2C, 1, 0x8, [⟨31, 0, .snap, 0⟩]⟩,
  ⟨0xC30, 1, 0x8, [⟨31, 0, .snap, 0⟩]⟩,
  ⟨0xC34, 1, 0x8, [⟨31, 0, .snap, 0⟩]⟩,
  ⟨0xC38, 1, 0x8, [⟨31, 0, .snap, 0⟩]⟩,
  ⟨0xC3C, 1, 0x8, [⟨31, 0, .snap, 0⟩]⟩,
  ⟨0xC40, 1, 0x8, [⟨31, 0, .snap, 0⟩]⟩,
  ⟨0xC44, 1, 0x8, [⟨31, 0, .snap, 0⟩]⟩]

/-- Block DMA_CH (R12, R44). -/
def blockDMACH : BlockRow :=
  ⟨0x60, 1, 0xA10000, 12, 32, rowsDMACH0 ++ rowsDMACH1⟩

/-- Registers of block NTQ. -/
def rowsNTQ : List RegRow := [
  ⟨0x0, 8, 0x4, [⟨31, 31, .rw, 1⟩, ⟨27, 24, .rw, 3⟩, ⟨21, 16, .rw, 0⟩, ⟨1, 1, .w1s, 1⟩, ⟨0, 0, .w1s, 0⟩]⟩,
  ⟨0x100, 256, 0x4, [⟨31, 24, .rw, 1⟩, ⟨23, 16, .rw, 1⟩, ⟨15, 8, .rw, 3⟩, ⟨7, 2, .rw, 0⟩, ⟨1, 1, .ro, 1⟩, ⟨0, 0, .rw, 1⟩]⟩,
  ⟨0x900, 8, 0x20, [⟨31, 0, .rc, 0⟩]⟩,
  ⟨0x904, 8, 0x20, [⟨31, 0, .ro, 0⟩]⟩,
  ⟨0x908, 8, 0x20, [⟨31, 0, .ro, 0⟩]⟩,
  ⟨0x90C, 8, 0x20, [⟨31, 0, .ro, 0⟩]⟩,
  ⟨0x910, 8, 0x20, [⟨31, 0, .ro, 0⟩]⟩,
  ⟨0x914, 8, 0x20, [⟨26, 16, .ro, 0⟩, ⟨10, 0, .ro, 0⟩]⟩,
  ⟨0x918, 8, 0x20, [⟨26, 16, .ro, 0⟩, ⟨10, 0, .ro, 0⟩]⟩,
  ⟨0xA00, 8, 0x8, [⟨31, 0, .ro, 0⟩]⟩,
  ⟨0xA04, 8, 0x8, [⟨31, 0, .ro, 0⟩]⟩,
  ⟨0xA40, 8, 0x8, [⟨31, 0, .ro, 0⟩]⟩,
  ⟨0xA44, 8, 0x8, [⟨31, 0, .ro, 0⟩]⟩,
  ⟨0xC00, 8, 0x8, [⟨31, 0, .snap, 0⟩]⟩,
  ⟨0xC04, 8, 0x8, [⟨31, 0, .snap, 0⟩]⟩,
  ⟨0xC40, 8, 0x8, [⟨31, 0, .snap, 0⟩]⟩,
  ⟨0xC44, 8, 0x8, [⟨31, 0, .snap, 0⟩]⟩]

/-- Block NTQ (R12, R44). -/
def blockNTQ : BlockRow :=
  ⟨0x70, 0, 0xB00000, 16, 1, rowsNTQ⟩

/-- Registers of block MGT. -/
def rowsMGT : List RegRow := [
  ⟨0x0, 2, 0x4, [⟨2, 2, .rw, 1⟩, ⟨1, 1, .w1s, 0⟩, ⟨0, 0, .w1s, 0⟩]⟩,
  ⟨0x8, 1, 0x4, [⟨5, 0, .rw, 0x28⟩]⟩,
  ⟨0x10, 1, 0x4, [⟨31, 0, .rw, 0⟩]⟩,
  ⟨0x20, 1, 0x4, [⟨31, 31, .w1s, 0⟩, ⟨25, 0, .rw, 0⟩]⟩,
  ⟨0x800, 1, 0x4, [⟨5, 5, .w1c, 0⟩, ⟨4, 4, .w1c, 0⟩, ⟨3, 3, .w1c, 0⟩, ⟨2, 2, .w1c, 0⟩, ⟨1, 1, .w1c, 0⟩, ⟨0, 0, .w1c, 0⟩]⟩,
  ⟨0x900, 2, 0x10, [⟨31, 0, .wo, 0⟩]⟩,
  ⟨0x904, 2, 0x10, [⟨31, 0, .rc, 0⟩]⟩,
  ⟨0x908, 2, 0x10, [⟨18, 18, .ro, 0⟩, ⟨17, 9, .ro, 0⟩, ⟨8, 0, .ro, 0⟩]⟩,
  ⟨0x930, 1, 0x4, [⟨6, 4, .ro, 0⟩, ⟨3, 3, .ro, 0⟩, ⟨2, 1, .ro, 0⟩, ⟨0, 0, .ro, 0⟩]⟩,
  ⟨0x940, 1, 0x4, [⟨5, 5, .ro, 0⟩, ⟨4, 2, .ro, 0⟩, ⟨1, 1, .ro, 0⟩, ⟨0, 0, .ro, 0⟩]⟩,
  ⟨0xA00, 1, 0x8, [⟨31, 0, .ro, 0⟩]⟩,
  ⟨0xA04, 1, 0x8, [⟨31, 0, .ro, 0⟩]⟩,
  ⟨0xA08, 1, 0x8, [⟨31, 0, .ro, 0⟩]⟩,
  ⟨0xA0C, 1, 0x8, [⟨31, 0, .ro, 0⟩]⟩,
  ⟨0xA10, 1, 0x8, [⟨31, 0, .ro, 0⟩]⟩,
  ⟨0xA14, 1, 0x8, [⟨31, 0, .ro, 0⟩]⟩,
  ⟨0xA18, 1, 0x8, [⟨31, 0, .ro, 0⟩]⟩,
  ⟨0xA1C, 1, 0x8, [⟨31, 0, .ro, 0⟩]⟩,
  ⟨0xA20, 1, 0x8, [⟨31, 0, .ro, 0⟩]⟩,
  ⟨0xA24, 1, 0x8, [⟨31, 0, .ro, 0⟩]⟩,
  ⟨0xA28, 1, 0x8, [⟨31, 0, .ro, 0⟩]⟩,
  ⟨0xA2C, 1, 0x8, [⟨31, 0, .ro, 0⟩]⟩,
  ⟨0xA30, 1, 0x8, [⟨31, 0, .ro, 0⟩]⟩,
  ⟨0xA34, 1, 0x8, [⟨31, 0, .ro, 0⟩]⟩,
  ⟨0xA38, 1, 0x8, [⟨31, 0, .ro, 0⟩]⟩,
  ⟨0xA3C, 1, 0x8, [⟨31, 0, .ro, 0⟩]⟩,
  ⟨0xC00, 1, 0x8, [⟨31, 0, .snap, 0⟩]⟩,
  ⟨0xC04, 1, 0x8, [⟨31, 0, .snap, 0⟩]⟩,
  ⟨0xC08, 1, 0x8, [⟨31, 0, .snap, 0⟩]⟩,
  ⟨0xC0C, 1, 0x8, [⟨31, 0, .snap, 0⟩]⟩,
  ⟨0xC10, 1, 0x8, [⟨31, 0, .snap, 0⟩]⟩,
  ⟨0xC14, 1, 0x8, [⟨31, 0, .snap, 0⟩]⟩,
  ⟨0xC18, 1, 0x8, [⟨31, 0, .snap, 0⟩]⟩,
  ⟨0xC1C, 1, 0x8, [⟨31, 0, .snap, 0⟩]⟩,
  ⟨0xC20, 1, 0x8, [⟨31, 0, .snap, 0⟩]⟩,
  ⟨0xC24, 1, 0x8, [⟨31, 0, .snap, 0⟩]⟩,
  ⟨0xC28, 1, 0x8, [⟨31, 0, .snap, 0⟩]⟩,
  ⟨0xC2C, 1, 0x8, [⟨31, 0, .snap, 0⟩]⟩,
  ⟨0xC30, 1, 0x8, [⟨31, 0, .snap, 0⟩]⟩,
  ⟨0xC34, 1, 0x8, [⟨31, 0, .snap, 0⟩]⟩,
  ⟨0xC38, 1, 0x8, [⟨31, 0, .snap, 0⟩]⟩,
  ⟨0xC3C, 1, 0x8, [⟨31, 0, .snap, 0⟩]⟩]

/-- Block MGT (R12, R44). -/
def blockMGT : BlockRow :=
  ⟨0x80, 0, 0xC00000, 16, 1, rowsMGT⟩

/-- Registers of block NET. -/
def rowsNET : List RegRow := [
  ⟨0x0, 2, 0x4, [⟨31, 31, .rw, 0⟩, ⟨2, 0, .rw, 5⟩]⟩,
  ⟨0x10, 2, 0x8, [⟨31, 0, .rw, 0⟩]⟩,
  ⟨0x14, 2, 0x8, [⟨15, 0, .rw, 0⟩]⟩,
  ⟨0x800, 1, 0x4, [⟨3, 3, .w1c, 0⟩, ⟨2, 2, .w1c, 0⟩, ⟨1, 1, .w1c, 0⟩, ⟨0, 0, .w1c, 0⟩]⟩,
  ⟨0x900, 2, 0x4, [⟨4, 2, .ro, 0⟩, ⟨1, 1, .ro, 0⟩, ⟨0, 0, .ro, 0⟩]⟩,
  ⟨0x910, 1, 0x4, [⟨3, 3, .ro, 0⟩, ⟨2, 0, .ro, 0⟩]⟩,
  ⟨0x918, 1, 0x8, [⟨31, 0, .ro, 0⟩]⟩,
  ⟨0x91C, 1, 0x8, [⟨31, 0, .ro, 0⟩]⟩,
  ⟨0x920, 1, 0x8, [⟨31, 0, .ro, 0⟩]⟩,
  ⟨0x924, 1, 0x8, [⟨31, 0, .ro, 0⟩]⟩,
  ⟨0x928, 1, 0x4, [⟨31, 0, .ro, 0⟩]⟩,
  ⟨0xA00, 2, 0x8, [⟨31, 0, .ro, 0⟩]⟩,
  ⟨0xA04, 2, 0x8, [⟨31, 0, .ro, 0⟩]⟩,
  ⟨0xA10, 2, 0x8, [⟨31, 0, .ro, 0⟩]⟩,
  ⟨0xA14, 2, 0x8, [⟨31, 0, .ro, 0⟩]⟩,
  ⟨0xA20, 2, 0x8, [⟨31, 0, .ro, 0⟩]⟩,
  ⟨0xA24, 2, 0x8, [⟨31, 0, .ro, 0⟩]⟩,
  ⟨0xA30, 2, 0x8, [⟨31, 0, .ro, 0⟩]⟩,
  ⟨0xA34, 2, 0x8, [⟨31, 0, .ro, 0⟩]⟩,
  ⟨0xA40, 1, 0x8, [⟨31, 0, .ro, 0⟩]⟩,
  ⟨0xA44, 1, 0x8, [⟨31, 0, .ro, 0⟩]⟩,
  ⟨0xA48, 1, 0x8, [⟨31, 0, .ro, 0⟩]⟩,
  ⟨0xA4C, 1, 0x8, [⟨31, 0, .ro, 0⟩]⟩,
  ⟨0xC00, 2, 0x8, [⟨31, 0, .snap, 0⟩]⟩,
  ⟨0xC04, 2, 0x8, [⟨31, 0, .snap, 0⟩]⟩,
  ⟨0xC10, 2, 0x8, [⟨31, 0, .snap, 0⟩]⟩,
  ⟨0xC14, 2, 0x8, [⟨31, 0, .snap, 0⟩]⟩,
  ⟨0xC20, 2, 0x8, [⟨31, 0, .snap, 0⟩]⟩,
  ⟨0xC24, 2, 0x8, [⟨31, 0, .snap, 0⟩]⟩,
  ⟨0xC30, 2, 0x8, [⟨31, 0, .snap, 0⟩]⟩,
  ⟨0xC34, 2, 0x8, [⟨31, 0, .snap, 0⟩]⟩,
  ⟨0xC40, 1, 0x8, [⟨31, 0, .snap, 0⟩]⟩,
  ⟨0xC44, 1, 0x8, [⟨31, 0, .snap, 0⟩]⟩,
  ⟨0xC48, 1, 0x8, [⟨31, 0, .snap, 0⟩]⟩,
  ⟨0xC4C, 1, 0x8, [⟨31, 0, .snap, 0⟩]⟩]

/-- Block NET (R12, R44). -/
def blockNET : BlockRow :=
  ⟨0x90, 0, 0xD00000, 16, 1, rowsNET⟩

/-- Registers of block AUD. -/
def rowsAUD : List RegRow := [
  ⟨0x0, 1, 0x4, [⟨0, 0, .w1s, 0⟩]⟩,
  ⟨0x900, 1, 0x4, [⟨1, 1, .ro, 0⟩, ⟨0, 0, .ro, 0⟩]⟩,
  ⟨0x904, 1, 0x4, [⟨31, 0, .ro, 0⟩]⟩,
  ⟨0xC00, 1, 0x8, [⟨31, 0, .snap, 0⟩]⟩,
  ⟨0xC04, 1, 0x8, [⟨31, 0, .snap, 0⟩]⟩]

/-- Block AUD (R12, R44). -/
def blockAUD : BlockRow :=
  ⟨0xA0, 0, 0xE00000, 16, 1, rowsAUD⟩

/-- Registers of block SEC. -/
def rowsSEC : List RegRow := [
  ⟨0x0, 1, 0x4, [⟨31, 16, .rwl 3, 0⟩, ⟨15, 0, .rwl 3, 0⟩]⟩,
  ⟨0x4, 1, 0x4, [⟨0, 0, .w1s, 0⟩]⟩,
  ⟨0x8, 1, 0x4, [⟨1, 0, .rwl 4, 0⟩]⟩,
  ⟨0x800, 1, 0x4, [⟨3, 3, .w1c, 0⟩, ⟨2, 2, .w1c, 0⟩, ⟨1, 1, .w1c, 0⟩, ⟨0, 0, .w1c, 0⟩]⟩,
  ⟨0x900, 1, 0x4, [⟨11, 5, .ro, 0⟩, ⟨4, 4, .ro, 0⟩, ⟨3, 3, .ro, 1⟩, ⟨2, 1, .ro, 0⟩, ⟨0, 0, .ro, 0⟩]⟩,
  ⟨0xA00, 1, 0x8, [⟨31, 0, .ro, 0⟩]⟩,
  ⟨0xA04, 1, 0x8, [⟨31, 0, .ro, 0⟩]⟩,
  ⟨0xA08, 1, 0x8, [⟨31, 0, .ro, 0⟩]⟩,
  ⟨0xA0C, 1, 0x8, [⟨31, 0, .ro, 0⟩]⟩,
  ⟨0xA10, 1, 0x8, [⟨31, 0, .ro, 0⟩]⟩,
  ⟨0xA14, 1, 0x8, [⟨31, 0, .ro, 0⟩]⟩,
  ⟨0xC00, 1, 0x8, [⟨31, 0, .snap, 0⟩]⟩,
  ⟨0xC04, 1, 0x8, [⟨31, 0, .snap, 0⟩]⟩,
  ⟨0xC08, 1, 0x8, [⟨31, 0, .snap, 0⟩]⟩,
  ⟨0xC0C, 1, 0x8, [⟨31, 0, .snap, 0⟩]⟩,
  ⟨0xC10, 1, 0x8, [⟨31, 0, .snap, 0⟩]⟩,
  ⟨0xC14, 1, 0x8, [⟨31, 0, .snap, 0⟩]⟩]

/-- Block SEC (R12, R44). -/
def blockSEC : BlockRow :=
  ⟨0xB0, 0, 0xF00000, 16, 1, rowsSEC⟩

/-- The 21 entries of the discovery table in ascending order of BAR0 offset (R43, R44). -/
def blocks : List BlockRow := [
  blockHDR, blockDCT, blockHEP, blockEVR, blockCAD, blockSTP, blockENC, blockFIO, blockAVP, blockLPH, blockCHT, blockCHTT, blockCLR, blockVLT, blockDMA, blockDMACH, blockNTQ, blockMGT, blockNET, blockAUD, blockSEC]

/-- The block whose pages hold a BAR0 offset (R13, R44). -/
def blockOf (off : Nat) : Option BlockRow :=
  blocks.find? fun b => b.base ≤ off && off < b.base + b.pages * 2 ^ b.log2

/-- The instance (page number) of a block that holds a BAR0 offset. -/
def BlockRow.inst (b : BlockRow) (off : Nat) : Nat := (off - b.base) / 2 ^ b.log2

/-- The page offset of a BAR0 offset inside its block. -/
def BlockRow.pageOff (b : BlockRow) (off : Nat) : Nat := (off - b.base) % 2 ^ b.log2

/-- The block ID of a page: `0x10 + n` for port n (R12). -/
def BlockRow.idOf (b : BlockRow) (off : Nat) : Nat := if b.id = 0x10 then 0x10 + b.inst off else b.id

/-- Whether a register row holds the register at a page offset. -/
def RegRow.holds (r : RegRow) (o : Nat) : Bool :=
  r.off ≤ o && (o - r.off) % r.stride = 0 && (o - r.off) / r.stride < r.count

/-- The register row at a BAR0 offset, none where the spec assigns no register there (R26). -/
def regRow (off : Nat) : Option RegRow :=
  (blockOf off).bind fun b => b.regs.find? (·.holds (b.pageOff off))

/-- The mask of a field's bits. -/
def Field.mask (f : Field) : Word := BitVec.ofNat 32 ((2 ^ (f.hi + 1 - f.lo) - 1) <<< f.lo)

/-- The mask of the fields of a register that a predicate on the access code selects. -/
def RegRow.mask (r : RegRow) (p : Access → Bool) : Word :=
  r.fields.foldl (fun m f => if p f.access then m ||| f.mask else m) 0

/-- The reset value the field table gives a register. -/
def RegRow.reset (r : RegRow) : Word :=
  r.fields.foldl (fun v f => v ||| BitVec.ofNat 32 (f.reset <<< f.lo)) 0

/-- The words of one discovery-table entry (R43). -/
def BlockRow.entry (b : BlockRow) (i : Nat) : Nat :=
  match i with
  | 0 => b.id + b.kind * 0x100 + 0x0100_0000
  | 1 => b.base
  | 2 => b.log2 + b.log2 * 0x100 + b.pages * 0x1_0000
  | _ => 0

/-- The read-only words of the HDR page (R43): header, entries, terminator, zeros. -/
def hdrWord (off : Nat) : Word :=
  let i := off / 4
  BitVec.ofNat 32 (match i with
    | 0 => 0x4448_445A
    | 1 => 0x0015_0100
    | 2 => 0x0000_1680
    | 3 => 0
    | _ =>
      match blocks[i / 4 - 1]? with
      | some b => b.entry (i % 4)
      | none => if i / 4 - 1 = blocks.length then 0xFFFF_FFFF else 0)

/-- The MAC addresses fused for the Ethernet ports: consecutive, neither a group address (R402). -/
def fusedMac (n : Nat) : Nat :=
  let m := Config.mac.toNat
  m / 2 ^ 41 * 2 ^ 41 + m % 2 ^ 40 % (2 ^ 40 - 1) + n

/-- The reset value of a register: the field table's, but for the registers whose reset depends on their index
(NTQ_CTL_q.VECTOR = q, DMA_CH_IRQ.VECTOR = 8 + c, the column and row of CHT_T_STAT), for the MAC addresses fused (R402, R404) and for HDR. -/
def regReset (off : Nat) : Word :=
  if off < 0x1_0000 then hdrWord off
  else if 0xB0_0000 ≤ off && off < 0xB0_0020 then
    (((regRow off).map RegRow.reset).getD 0) ||| BitVec.ofNat 32 (((off - 0xB0_0000) / 4) <<< 16)
  else if 0xA1_0000 ≤ off && off < 0xA3_0000 && off % 0x1000 = 0x24 then
    BitVec.ofNat 32 ((8 + (off - 0xA1_0000) / 0x1000) <<< 22)
  else if 0x50_0000 ≤ off && off < 0x71_0000 && off % 0x1000 = 0x900 then
    let t := (off - 0x50_0000) / 0x1000
    BitVec.ofNat 32 ((t / 33) <<< 16 + (if t % 33 < 32 then (t % 33) <<< 10 + 1 else 63 <<< 10))
  else if 0xD0_0010 ≤ off && off < 0xD0_0020 then
    let mac := fusedMac ((off - 0xD0_0010) / 8)
    BitVec.ofNat 32 (if off % 8 = 0 then mac else mac / 2 ^ 32)
  else ((regRow off).map RegRow.reset).getD 0

end Sys2Proof.Machine
end

