-- ==== Sys2Proof/Machine/RegNames.lean ====
section
/-! DEFINITION. Names of the registers and register fields the model uses: offsets and bit places as the register tables of the spec give them. -/

namespace Sys2Proof.Machine

def DCT_MODE.addr : Nat := 0x10010
def DCT_MODE.BASE : Bits := ⟨DCT_MODE.addr, 24, 4⟩
def DCT_MODE.PREV : Bits := ⟨DCT_MODE.addr, 20, 4⟩
def DCT_MODE.CUR : Bits := ⟨DCT_MODE.addr, 16, 4⟩
def DCT_MODE.NEXT : Bits := ⟨DCT_MODE.addr, 0, 4⟩
def DCT_DRAIN_LIMIT.addr : Nat := 0x10014
def DCT_DRAIN_LIMIT.LIMIT : Bits := ⟨DCT_DRAIN_LIMIT.addr, 0, 20⟩
def DCT_LOCK.addr : Nat := 0x10040
def DCT_LOCK.SEC_CFG : Bits := ⟨DCT_LOCK.addr, 4, 1⟩
def DCT_LOCK.FUSE_PROG : Bits := ⟨DCT_LOCK.addr, 3, 1⟩
def DCT_FLAGS.addr : Nat := 0x10800
def DCT_FLAGS.OVERTEMP : Bits := ⟨DCT_FLAGS.addr, 3, 1⟩
def DCT_FLAGS.BAD_VALUE : Bits := ⟨DCT_FLAGS.addr, 2, 1⟩
def DCT_FLAGS.GATED : Bits := ⟨DCT_FLAGS.addr, 1, 1⟩
def DCT_FLAGS.LOCK_VIOL : Bits := ⟨DCT_FLAGS.addr, 0, 1⟩
def DCT_GATE.addr : Nat := 0x10900
def DCT_GATE.NOKEY : Bits := ⟨DCT_GATE.addr, 4, 1⟩
def DCT_GATE.SESSION : Bits := ⟨DCT_GATE.addr, 1, 3⟩
def DCT_GATE.OPEN : Bits := ⟨DCT_GATE.addr, 0, 1⟩
def DCT_VIOL_ADDR.addr : Nat := 0x10904
def DCT_VIOL_ADDR.REQ : Bits := ⟨DCT_VIOL_ADDR.addr, 30, 2⟩
def DCT_VIOL_ADDR.ADDR : Bits := ⟨DCT_VIOL_ADDR.addr, 0, 25⟩
def DCT_TEMP.addr : Nat := 0x10908
def DCT_TEMP.THERM : Bits := ⟨DCT_TEMP.addr, 16, 1⟩
def DCT_TEMP.STACK : Bits := ⟨DCT_TEMP.addr, 8, 8⟩
def DCT_TEMP.DIE : Bits := ⟨DCT_TEMP.addr, 0, 8⟩
def DCT_LOCK_VIOL_CNT.addr : Nat := 0x10A00
def DCT_GATED_CNT.addr : Nat := 0x10A08
def HEP_CONTAIN.addr : Nat := 0x20000
def HEP_CONTAIN.RELEASE : Bits := ⟨HEP_CONTAIN.addr, 0, 1⟩
def HEP_CONTAIN_EN.addr : Nat := 0x20004
def HEP_CONTAIN_EN.ECRC : Bits := ⟨HEP_CONTAIN_EN.addr, 2, 1⟩
def HEP_CONTAIN_EN.POISON : Bits := ⟨HEP_CONTAIN_EN.addr, 1, 1⟩
def HEP_CONTAIN_EN.FETCH_TMO : Bits := ⟨HEP_CONTAIN_EN.addr, 0, 1⟩
def HEP_LTR_CTL.addr : Nat := 0x20008
def HEP_LTR_CTL.MAX_K : Bits := ⟨HEP_LTR_CTL.addr, 8, 6⟩
def HEP_LTR_CTL.FRAC : Bits := ⟨HEP_LTR_CTL.addr, 0, 4⟩
def HEP_INTX_MASK_LO.addr : Nat := 0x20010
def HEP_INTX_MASK_HI.addr : Nat := 0x20014
def HEP_WIN_CFG.addr (i : Nat) : Nat := 0x20100 + i * 0x10
def HEP_WIN_CFG.LOG2 (i : Nat) : Bits := ⟨HEP_WIN_CFG.addr i, 0, 6⟩
def HEP_WIN_BAR.addr (i : Nat) : Nat := 0x20104 + i * 0x10
def HEP_WIN_BAR.OFF (i : Nat) : Bits := ⟨HEP_WIN_BAR.addr i, 0, 17⟩
def HEP_WIN_TGT.addr (i : Nat) : Nat := 0x20108 + i * 0x10
def HEP_FLAGS.addr : Nat := 0x20800
def HEP_FLAGS.BLOCKED : Bits := ⟨HEP_FLAGS.addr, 9, 1⟩
def HEP_FLAGS.HOST_RESET : Bits := ⟨HEP_FLAGS.addr, 8, 1⟩
def HEP_FLAGS.BAD_VALUE : Bits := ⟨HEP_FLAGS.addr, 7, 1⟩
def HEP_FLAGS.BAD_STATE : Bits := ⟨HEP_FLAGS.addr, 6, 1⟩
def HEP_FLAGS.MULTIPLE : Bits := ⟨HEP_FLAGS.addr, 5, 1⟩
def HEP_FLAGS.LATE_CPL : Bits := ⟨HEP_FLAGS.addr, 4, 1⟩
def HEP_FLAGS.WIN_REFUSED : Bits := ⟨HEP_FLAGS.addr, 3, 1⟩
def HEP_FLAGS.UR_WINDOW : Bits := ⟨HEP_FLAGS.addr, 2, 1⟩
def HEP_FLAGS.RELEASED : Bits := ⟨HEP_FLAGS.addr, 1, 1⟩
def HEP_FLAGS.CONTAINED : Bits := ⟨HEP_FLAGS.addr, 0, 1⟩
def HEP_INTX_PEND_LO.addr : Nat := 0x20808
def HEP_INTX_PEND_HI.addr : Nat := 0x2080C
def HEP_LINK_STAT.addr : Nat := 0x20900
def HEP_LINK_STAT.D3HOT : Bits := ⟨HEP_LINK_STAT.addr, 12, 1⟩
def HEP_LINK_STAT.SRIS : Bits := ⟨HEP_LINK_STAT.addr, 11, 1⟩
def HEP_LINK_STAT.DL_UP : Bits := ⟨HEP_LINK_STAT.addr, 10, 1⟩
def HEP_LINK_STAT.FLIT : Bits := ⟨HEP_LINK_STAT.addr, 9, 1⟩
def HEP_LINK_STAT.WIDTH : Bits := ⟨HEP_LINK_STAT.addr, 4, 5⟩
def HEP_LINK_STAT.RATE : Bits := ⟨HEP_LINK_STAT.addr, 0, 4⟩
def HEP_CONTAIN_STAT.addr : Nat := 0x20904
def HEP_CONTAIN_STAT.CONTAINED : Bits := ⟨HEP_CONTAIN_STAT.addr, 0, 1⟩
def HEP_CONTAIN_TIME.addr : Nat := 0x20908
def HEP_UR_INFO.addr : Nat := 0x20910
def HEP_UR_INFO_HI.addr : Nat := 0x20914
def HEP_TAG_STAT.addr : Nat := 0x20918
def HEP_TAG_STAT.QUAR : Bits := ⟨HEP_TAG_STAT.addr, 16, 16⟩
def HEP_TAG_STAT.OUT : Bits := ⟨HEP_TAG_STAT.addr, 0, 16⟩
def HEP_LTR_NOW.addr : Nat := 0x2091C
def HEP_LTR_NOW.K : Bits := ⟨HEP_LTR_NOW.addr, 16, 6⟩
def HEP_LTR_NOW.SNOOP : Bits := ⟨HEP_LTR_NOW.addr, 0, 16⟩
def HEP_UR_CNT.addr : Nat := 0x20A00
def HEP_CA_CNT.addr : Nat := 0x20A08
def HEP_CTO_CNT.addr : Nat := 0x20A10
def HEP_LATE_CPL_CNT.addr : Nat := 0x20A18
def HEP_CONTAIN_CNT.addr : Nat := 0x20A20
def HEP_COR_CNT.addr : Nat := 0x20A28
def HEP_UNCOR_CNT.addr : Nat := 0x20A30
def HEP_LTR_MSG_CNT.addr : Nat := 0x20A38
def HEP_MSIX_CNT.addr : Nat := 0x20A40
def HEP_BLOCK_CNT.addr : Nat := 0x20A48
def HEP_FLR_CNT.addr : Nat := 0x20A50
def HEP_WIN_CUR_CFG.addr (i : Nat) : Nat := 0x20E00 + i * 0x10
def HEP_WIN_CUR_CFG.EN (i : Nat) : Bits := ⟨HEP_WIN_CUR_CFG.addr i, 31, 1⟩
def HEP_WIN_CUR_CFG.RD (i : Nat) : Bits := ⟨HEP_WIN_CUR_CFG.addr i, 30, 1⟩
def HEP_WIN_CUR_CFG.WR (i : Nat) : Bits := ⟨HEP_WIN_CUR_CFG.addr i, 29, 1⟩
def HEP_WIN_CUR_CFG.LOG2 (i : Nat) : Bits := ⟨HEP_WIN_CUR_CFG.addr i, 0, 6⟩
def HEP_WIN_CUR_BAR.addr (i : Nat) : Nat := 0x20E04 + i * 0x10
def HEP_WIN_CUR_BAR.OFF (i : Nat) : Bits := ⟨HEP_WIN_CUR_BAR.addr i, 0, 17⟩
def HEP_WIN_CUR_TGT.addr (i : Nat) : Nat := 0x20E08 + i * 0x10
def HEP_WIN_CUR_TGT.TGT (i : Nat) : Bits := ⟨HEP_WIN_CUR_TGT.addr i, 0, 27⟩
def EVR_FIRE.addr (i : Nat) : Nat := 0x30000 + i * 0x4
def EVR_FIRE.FIRE (i : Nat) : Bits := ⟨EVR_FIRE.addr i, 0, 32⟩
def EVR_DLY.addr (i : Nat) : Nat := 0x30040 + i * 0x4
def EVR_DLY.DELAY (i : Nat) : Bits := ⟨EVR_DLY.addr i, 0, 32⟩
def EVR_CH.addr (i : Nat) : Nat := 0x30100 + i * 0x4
def EVR_CH.EN (i : Nat) : Bits := ⟨EVR_CH.addr i, 31, 1⟩
def EVR_CH.SRC (i : Nat) : Bits := ⟨EVR_CH.addr i, 16, 8⟩
def EVR_CH.TASK (i : Nat) : Bits := ⟨EVR_CH.addr i, 0, 9⟩
def EVR_FLAGS.addr : Nat := 0x30800
def EVR_FLAGS.BAD_VALUE : Bits := ⟨EVR_FLAGS.addr, 2, 1⟩
def EVR_FLAGS.LOST : Bits := ⟨EVR_FLAGS.addr, 1, 1⟩
def EVR_FLAGS.LOOP_CUT : Bits := ⟨EVR_FLAGS.addr, 0, 1⟩
def EVR_LAST.addr : Nat := 0x30900
def EVR_LAST.CH : Bits := ⟨EVR_LAST.addr, 16, 7⟩
def EVR_LAST.TASK : Bits := ⟨EVR_LAST.addr, 0, 9⟩
def EVR_ROUTED_CNT.addr : Nat := 0x30A00
def EVR_SW_CNT.addr : Nat := 0x30A08
def EVR_LOOP_CUT_CNT.addr : Nat := 0x30A10
def EVR_LOST_CNT.addr : Nat := 0x30A18
def CAD_CTL.addr : Nat := 0x40000
def CAD_CTL.DEPTH : Bits := ⟨CAD_CTL.addr, 8, 4⟩
def CAD_CTL.BUS_ROLE : Bits := ⟨CAD_CTL.addr, 2, 2⟩
def CAD_CTL.SRC : Bits := ⟨CAD_CTL.addr, 0, 2⟩
def CAD_PERIOD.addr : Nat := 0x40004
def CAD_PERIOD.PERIOD : Bits := ⟨CAD_PERIOD.addr, 0, 32⟩
def CAD_SCHED_LEAD.addr : Nat := 0x40008
def CAD_SCHED_LEAD.LEAD : Bits := ⟨CAD_SCHED_LEAD.addr, 0, 32⟩
def CAD_START.addr : Nat := 0x4000C
def CAD_START.LO : Bits := ⟨CAD_START.addr, 0, 32⟩
def CAD_START_HI.addr : Nat := 0x40010
def CAD_START_HI.HI : Bits := ⟨CAD_START_HI.addr, 0, 32⟩
def CAD_APPLY.addr : Nat := 0x40014
def CAD_APPLY.PENDING : Bits := ⟨CAD_APPLY.addr, 1, 1⟩
def CAD_APPLY.GO : Bits := ⟨CAD_APPLY.addr, 0, 1⟩
def CAD_TIME_CTL.addr : Nat := 0x40020
def CAD_TIME_CTL.DISC : Bits := ⟨CAD_TIME_CTL.addr, 0, 2⟩
def CAD_TRIM.addr : Nat := 0x40024
def CAD_TRIM.RATE : Bits := ⟨CAD_TRIM.addr, 0, 32⟩
def CAD_DOMAIN_OFF.addr : Nat := 0x40028
def CAD_BUS_DELAY.addr : Nat := 0x40030
def CAD_BUS_DELAY.DELAY : Bits := ⟨CAD_BUS_DELAY.addr, 0, 16⟩
def CAD_BUS_LEAD.addr : Nat := 0x40034
def CAD_BUS_LEAD.LEAD : Bits := ⟨CAD_BUS_LEAD.addr, 0, 32⟩
def CAD_PORT.addr (i : Nat) : Nat := 0x40100 + i * 0x8
def CAD_PORT.SEL (i : Nat) : Bits := ⟨CAD_PORT.addr i, 16, 16⟩
def CAD_PORT.DIV (i : Nat) : Bits := ⟨CAD_PORT.addr i, 0, 16⟩
def CAD_PHASE.addr (i : Nat) : Nat := 0x40104 + i * 0x8
def CAD_PHASE.PHASE (i : Nat) : Bits := ⟨CAD_PHASE.addr i, 0, 32⟩
def CAD_FLAGS.addr : Nat := 0x40800
def CAD_FLAGS.BAD_VALUE : Bits := ⟨CAD_FLAGS.addr, 7, 1⟩
def CAD_FLAGS.GO_BUSY : Bits := ⟨CAD_FLAGS.addr, 6, 1⟩
def CAD_FLAGS.TRIM_LIMIT : Bits := ⟨CAD_FLAGS.addr, 5, 1⟩
def CAD_FLAGS.DISC_LOST : Bits := ⟨CAD_FLAGS.addr, 4, 1⟩
def CAD_FLAGS.BUS_BAD : Bits := ⟨CAD_FLAGS.addr, 3, 1⟩
def CAD_FLAGS.BUS_LOST : Bits := ⟨CAD_FLAGS.addr, 2, 1⟩
def CAD_FLAGS.SKIPPED : Bits := ⟨CAD_FLAGS.addr, 1, 1⟩
def CAD_FLAGS.OVERRUN : Bits := ⟨CAD_FLAGS.addr, 0, 1⟩
def CAD_TIME.addr : Nat := 0x40900
def CAD_TICK.addr : Nat := 0x40908
def CAD_STAT.addr : Nat := 0x40910
def CAD_STAT.BUS_STOPPED : Bits := ⟨CAD_STAT.addr, 5, 1⟩
def CAD_STAT.DISC_OK : Bits := ⟨CAD_STAT.addr, 4, 1⟩
def CAD_STAT.BUS_OK : Bits := ⟨CAD_STAT.addr, 3, 1⟩
def CAD_STAT.SRC : Bits := ⟨CAD_STAT.addr, 1, 2⟩
def CAD_STAT.RUNNING : Bits := ⟨CAD_STAT.addr, 0, 1⟩
def CAD_APPLY_TICK.addr : Nat := 0x40918
def CAD_APPLY_TIME.addr : Nat := 0x40920
def CAD_OVERRUN_CNT.addr (i : Nat) : Nat := 0x40A00 + i * 0x8
def CAD_SKIP_CNT.addr : Nat := 0x40A30
def CAD_BUS_BAD_CNT.addr : Nat := 0x40A38
def CAD_APPLY_CNT.addr : Nat := 0x40A40
def CAD_DOMAIN_SNAP.addr : Nat := 0x40DF8
def STP_SK_CTL.addr (i : Nat) : Nat := 0x50000 + i * 0x18
def STP_SK_CTL.KIND (i : Nat) : Bits := ⟨STP_SK_CTL.addr i, 30, 1⟩
def STP_SK_CTL.ENC (i : Nat) : Bits := ⟨STP_SK_CTL.addr i, 28, 2⟩
def STP_SK_CTL.DIR (i : Nat) : Bits := ⟨STP_SK_CTL.addr i, 26, 2⟩
def STP_SK_CTL.FIRE_LATE (i : Nat) : Bits := ⟨STP_SK_CTL.addr i, 25, 1⟩
def STP_SK_CTL.REPEAT (i : Nat) : Bits := ⟨STP_SK_CTL.addr i, 24, 1⟩
def STP_SK_CTL.TICK (i : Nat) : Bits := ⟨STP_SK_CTL.addr i, 16, 1⟩
def STP_SK_TGT_LO.addr (i : Nat) : Nat := 0x50004 + i * 0x18
def STP_SK_TGT_LO.TGT (i : Nat) : Bits := ⟨STP_SK_TGT_LO.addr i, 0, 32⟩
def STP_SK_TGT_HI.addr (i : Nat) : Nat := 0x50008 + i * 0x18
def STP_SK_TGT_HI.TGT (i : Nat) : Bits := ⟨STP_SK_TGT_HI.addr i, 0, 32⟩
def STP_SK_STEP.addr (i : Nat) : Nat := 0x5000C + i * 0x18
def STP_SK_STEP.STEP (i : Nat) : Bits := ⟨STP_SK_STEP.addr i, 0, 32⟩
def STP_SK_PARAM.addr (i : Nat) : Nat := 0x50010 + i * 0x18
def STP_SK_PARAM.TOL (i : Nat) : Bits := ⟨STP_SK_PARAM.addr i, 16, 16⟩
def STP_SK_PARAM.LEAD (i : Nat) : Bits := ⟨STP_SK_PARAM.addr i, 0, 10⟩
def STP_SK_COUNT.addr (i : Nat) : Nat := 0x50014 + i * 0x18
def STP_SK_COUNT.COUNT (i : Nat) : Bits := ⟨STP_SK_COUNT.addr i, 0, 32⟩
def STP_ARM_LO.addr : Nat := 0x50600
def STP_ARM_LO.B : Bits := ⟨STP_ARM_LO.addr, 0, 32⟩
def STP_ARM_HI.addr : Nat := 0x50604
def STP_ARM_HI.B : Bits := ⟨STP_ARM_HI.addr, 0, 32⟩
def STP_DISARM_LO.addr : Nat := 0x50608
def STP_DISARM_LO.B : Bits := ⟨STP_DISARM_LO.addr, 0, 32⟩
def STP_DISARM_HI.addr : Nat := 0x5060C
def STP_DISARM_HI.B : Bits := ⟨STP_DISARM_HI.addr, 0, 32⟩
def STP_FLAGS.addr : Nat := 0x50800
def STP_FLAGS.REFUSED : Bits := ⟨STP_FLAGS.addr, 5, 1⟩
def STP_FLAGS.BAD_VALUE : Bits := ⟨STP_FLAGS.addr, 4, 1⟩
def STP_FLAGS.BAD_STATE : Bits := ⟨STP_FLAGS.addr, 3, 1⟩
def STP_FLAGS.MISS : Bits := ⟨STP_FLAGS.addr, 2, 1⟩
def STP_FLAGS.LATE : Bits := ⟨STP_FLAGS.addr, 1, 1⟩
def STP_FLAGS.PASSED : Bits := ⟨STP_FLAGS.addr, 0, 1⟩
def STP_SK_STAT.addr (i : Nat) : Nat := 0x50900 + i * 0x4
def STP_SK_STAT.FIRED (i : Nat) : Bits := ⟨STP_SK_STAT.addr i, 8, 24⟩
def STP_SK_STAT.PASSED (i : Nat) : Bits := ⟨STP_SK_STAT.addr i, 2, 1⟩
def STP_SK_STAT.STATE (i : Nat) : Bits := ⟨STP_SK_STAT.addr i, 0, 2⟩
def STP_FIRE_CNT.addr : Nat := 0x50A00
def STP_LATE_CNT.addr : Nat := 0x50A08
def STP_MISS_CNT.addr : Nat := 0x50A10
def STP_PASSED_CNT.addr : Nat := 0x50A18
def STP_TICK_CNT.addr : Nat := 0x50A20
def STP_SK_LAST.addr (i : Nat) : Nat := 0x50E00 + i * 0x8
def STP_SK_LAST.LO (i : Nat) : Bits := ⟨STP_SK_LAST.addr i, 0, 32⟩
def STP_SK_LAST_HI.addr (i : Nat) : Nat := 0x50E04 + i * 0x8
def STP_SK_LAST_HI.HI (i : Nat) : Bits := ⟨STP_SK_LAST_HI.addr i, 0, 32⟩
def ENC_CH_CTL.addr (i : Nat) : Nat := 0x60000 + i * 0x20
def ENC_CH_CTL.EN (i : Nat) : Bits := ⟨ENC_CH_CTL.addr i, 31, 1⟩
def ENC_CH_CTL.DIR (i : Nat) : Bits := ⟨ENC_CH_CTL.addr i, 30, 1⟩
def ENC_CH_CTL.RES (i : Nat) : Bits := ⟨ENC_CH_CTL.addr i, 29, 1⟩
def ENC_CH_CTL.AUTO_CORR (i : Nat) : Bits := ⟨ENC_CH_CTL.addr i, 28, 1⟩
def ENC_CH_CTL.TERM (i : Nat) : Bits := ⟨ENC_CH_CTL.addr i, 27, 1⟩
def ENC_CH_CTL.BIAS (i : Nat) : Bits := ⟨ENC_CH_CTL.addr i, 26, 1⟩
def ENC_CH_CTL.IDX_EN (i : Nat) : Bits := ⟨ENC_CH_CTL.addr i, 25, 1⟩
def ENC_CH_CTL.ONE_WAY (i : Nat) : Bits := ⟨ENC_CH_CTL.addr i, 24, 1⟩
def ENC_CH_CTL.IDX_QUAD (i : Nat) : Bits := ⟨ENC_CH_CTL.addr i, 22, 2⟩
def ENC_CH_CTL.IDX_QCHK (i : Nat) : Bits := ⟨ENC_CH_CTL.addr i, 21, 1⟩
def ENC_CH_CTL.SPD_K (i : Nat) : Bits := ⟨ENC_CH_CTL.addr i, 16, 5⟩
def ENC_CH_CHK.addr (i : Nat) : Nat := 0x60004 + i * 0x20
def ENC_CH_CHK.TOL (i : Nat) : Bits := ⟨ENC_CH_CHK.addr i, 24, 8⟩
def ENC_CH_CHK.NOMINAL (i : Nat) : Bits := ⟨ENC_CH_CHK.addr i, 0, 24⟩
def ENC_CH_STILL.addr (i : Nat) : Nat := 0x60008 + i * 0x20
def ENC_CH_STILL.STILL (i : Nat) : Bits := ⟨ENC_CH_STILL.addr i, 0, 26⟩
def ENC_CH_RAD.addr (i : Nat) : Nat := 0x6000C + i * 0x20
def ENC_CH_RAD.RAD_MAX (i : Nat) : Bits := ⟨ENC_CH_RAD.addr i, 16, 16⟩
def ENC_CH_RAD.RAD_MIN (i : Nat) : Bits := ⟨ENC_CH_RAD.addr i, 0, 16⟩
def ENC_CH_CORR0.addr (i : Nat) : Nat := 0x60010 + i * 0x20
def ENC_CH_CORR0.OFF_B (i : Nat) : Bits := ⟨ENC_CH_CORR0.addr i, 16, 16⟩
def ENC_CH_CORR0.OFF_A (i : Nat) : Bits := ⟨ENC_CH_CORR0.addr i, 0, 16⟩
def ENC_CH_CORR1.addr (i : Nat) : Nat := 0x60014 + i * 0x20
def ENC_CH_CORR1.PHASE (i : Nat) : Bits := ⟨ENC_CH_CORR1.addr i, 16, 16⟩
def ENC_CH_CORR1.GAIN_B (i : Nat) : Bits := ⟨ENC_CH_CORR1.addr i, 0, 16⟩
def ENC_CH_CMD.addr (i : Nat) : Nat := 0x60018 + i * 0x20
def ENC_CH_CMD.CLR_DOUBT (i : Nat) : Bits := ⟨ENC_CH_CMD.addr i, 0, 1⟩
def ENC_FLAGS.addr (i : Nat) : Nat := 0x60800 + i * 0x4
def ENC_FLAGS.BAD_STATE (i : Nat) : Bits := ⟨ENC_FLAGS.addr i, 9, 1⟩
def ENC_FLAGS.BAD_VALUE (i : Nat) : Bits := ⟨ENC_FLAGS.addr i, 8, 1⟩
def ENC_FLAGS.SIGNAL (i : Nat) : Bits := ⟨ENC_FLAGS.addr i, 7, 1⟩
def ENC_FLAGS.INDEX_PHASE (i : Nat) : Bits := ⟨ENC_FLAGS.addr i, 6, 1⟩
def ENC_FLAGS.REVERSED (i : Nat) : Bits := ⟨ENC_FLAGS.addr i, 5, 1⟩
def ENC_FLAGS.SHORT_PAIR (i : Nat) : Bits := ⟨ENC_FLAGS.addr i, 4, 1⟩
def ENC_FLAGS.SHORT_RAIL (i : Nat) : Bits := ⟨ENC_FLAGS.addr i, 3, 1⟩
def ENC_FLAGS.OPEN (i : Nat) : Bits := ⟨ENC_FLAGS.addr i, 2, 1⟩
def ENC_FLAGS.OVERSPEED (i : Nat) : Bits := ⟨ENC_FLAGS.addr i, 1, 1⟩
def ENC_FLAGS.CABLE (i : Nat) : Bits := ⟨ENC_FLAGS.addr i, 0, 1⟩
def ENC_POS.addr (i : Nat) : Nat := 0x60900 + i * 0x20
def ENC_POS_HI.addr (i : Nat) : Nat := 0x60904 + i * 0x20
def ENC_POS_TIME.addr (i : Nat) : Nat := 0x60908 + i * 0x20
def ENC_SPEED.addr (i : Nat) : Nat := 0x60910 + i * 0x20
def ENC_SPEED_HI.addr (i : Nat) : Nat := 0x60914 + i * 0x20
def ENC_STAT.addr (i : Nat) : Nat := 0x60918 + i * 0x20
def ENC_IDX_LINES.addr (i : Nat) : Nat := 0x6091C + i * 0x20
def ENC_CHECK_FAIL_CNT.addr (i : Nat) : Nat := 0x60A00 + i * 0x8
def ENC_OVERSPEED_CNT.addr (i : Nat) : Nat := 0x60A20 + i * 0x8
def ENC_WIRE_CNT.addr (i : Nat) : Nat := 0x60A40 + i * 0x8
def ENC_INDEX_CNT.addr (i : Nat) : Nat := 0x60A60 + i * 0x8
def FIO_PIN_CTL.addr (i : Nat) : Nat := 0x70000 + i * 0x10
def FIO_PIN_CTL.MODE (i : Nat) : Bits := ⟨FIO_PIN_CTL.addr i, 30, 2⟩
def FIO_PIN_CTL.EDGE (i : Nat) : Bits := ⟨FIO_PIN_CTL.addr i, 28, 2⟩
def FIO_PIN_CTL.OUT (i : Nat) : Bits := ⟨FIO_PIN_CTL.addr i, 27, 1⟩
def FIO_PIN_CTL.FILT (i : Nat) : Bits := ⟨FIO_PIN_CTL.addr i, 16, 8⟩
def FIO_PIN_CTL.THR (i : Nat) : Bits := ⟨FIO_PIN_CTL.addr i, 0, 8⟩
def FIO_PIN_STUCK.addr (i : Nat) : Nat := 0x70004 + i * 0x10
def FIO_PIN_STUCK.STUCK_T (i : Nat) : Bits := ⟨FIO_PIN_STUCK.addr i, 0, 26⟩
def FIO_PIN_PULSE.addr (i : Nat) : Nat := 0x70008 + i * 0x10
def FIO_PIN_PULSE.PULSE_W (i : Nat) : Bits := ⟨FIO_PIN_PULSE.addr i, 0, 32⟩
def FIO_PIN_CMD.addr (i : Nat) : Nat := 0x7000C + i * 0x10
def FIO_PIN_CMD.REARM (i : Nat) : Bits := ⟨FIO_PIN_CMD.addr i, 0, 1⟩
def FIO_FLAGS_STUCK.addr : Nat := 0x70800
def FIO_FLAGS_FILT.addr : Nat := 0x70804
def FIO_FLAGS_OUT.addr : Nat := 0x70808
def FIO_FLAGS.addr : Nat := 0x7080C
def FIO_FLAGS.BAD_VALUE : Bits := ⟨FIO_FLAGS.addr, 1, 1⟩
def FIO_FLAGS.VFIELD_LOW : Bits := ⟨FIO_FLAGS.addr, 0, 1⟩
def FIO_LEVEL.addr : Nat := 0x70900
def FIO_OUT_STAT.addr : Nat := 0x70904
def FIO_OUT_STAT.VLOW : Bits := ⟨FIO_OUT_STAT.addr, 16, 1⟩
def FIO_STAT_STUCK.addr : Nat := 0x70908
def FIO_EDGE_TIME.addr (i : Nat) : Nat := 0x70980 + i * 0x8
def FIO_EDGE_CNT.addr (i : Nat) : Nat := 0x70A00 + i * 0x8
def FIO_FILT_CNT.addr (i : Nat) : Nat := 0x70A80 + i * 0x8
def FIO_SHORT_CNT.addr : Nat := 0x70B00
def FIO_STUCK_CNT.addr : Nat := 0x70B08
def AVP_PORT_CTL.addr (n : Nat) : Nat := 0x100000 + n * 0x10000
def AVP_PORT_CTL.RETRAIN (n : Nat) : Bits := ⟨AVP_PORT_CTL.addr n, 7, 1⟩
def AVP_PORT_CTL.QUAL (n : Nat) : Bits := ⟨AVP_PORT_CTL.addr n, 6, 1⟩
def AVP_PORT_CTL.SLIP_MODE (n : Nat) : Bits := ⟨AVP_PORT_CTL.addr n, 3, 1⟩
def AVP_PORT_CTL.EN (n : Nat) : Bits := ⟨AVP_PORT_CTL.addr n, 0, 1⟩
def AVP_PORT_CFG.addr (n : Nat) : Nat := 0x100004 + n * 0x10000
def AVP_PORT_CFG.VER_MAX (n : Nat) : Bits := ⟨AVP_PORT_CFG.addr n, 8, 2⟩
def AVP_PORT_CFG.LANES_MAX (n : Nat) : Bits := ⟨AVP_PORT_CFG.addr n, 4, 2⟩
def AVP_PORT_CFG.RATE_MAX (n : Nat) : Bits := ⟨AVP_PORT_CFG.addr n, 0, 2⟩
def AVP_QUAL_CTL.addr (n : Nat) : Nat := 0x100008 + n * 0x10000
def AVP_QUAL_CTL.DUR (n : Nat) : Bits := ⟨AVP_QUAL_CTL.addr n, 8, 6⟩
def AVP_QUAL_CTL.PATTERN (n : Nat) : Bits := ⟨AVP_QUAL_CTL.addr n, 0, 3⟩
def AVP_TX_CTL.addr (n : Nat) : Nat := 0x10000C + n * 0x10000
def AVP_TX_CTL.DLC_SWING (n : Nat) : Bits := ⟨AVP_TX_CTL.addr n, 8, 4⟩
def AVP_TX_CTL.DL_SWING (n : Nat) : Bits := ⟨AVP_TX_CTL.addr n, 0, 4⟩
def AVP_GEOM_W.addr (n : Nat) : Nat := 0x100010 + n * 0x10000
def AVP_GEOM_W.FORMAT (n : Nat) : Bits := ⟨AVP_GEOM_W.addr n, 16, 3⟩
def AVP_GEOM_W.WIDTH (n : Nat) : Bits := ⟨AVP_GEOM_W.addr n, 0, 16⟩
def AVP_GEOM_H.addr (n : Nat) : Nat := 0x100014 + n * 0x10000
def AVP_GEOM_H.HEIGHT (n : Nat) : Bits := ⟨AVP_GEOM_H.addr n, 0, 16⟩
def AVP_GANG_CFG.addr (n : Nat) : Nat := 0x100018 + n * 0x10000
def AVP_GANG_CFG.SIZE (n : Nat) : Bits := ⟨AVP_GANG_CFG.addr n, 0, 2⟩
def AVP_RANGE_CTL.addr (n : Nat) : Nat := 0x10001C + n * 0x10000
def AVP_RANGE_CTL.INTERVAL (n : Nat) : Bits := ⟨AVP_RANGE_CTL.addr n, 0, 14⟩
def AVP_RANGE_ASYM.addr (n : Nat) : Nat := 0x100020 + n * 0x10000
def AVP_RANGE_ASYM.ASYM (n : Nat) : Bits := ⟨AVP_RANGE_ASYM.addr n, 0, 32⟩
def AVP_FRAME_TMO.addr (n : Nat) : Nat := 0x100024 + n * 0x10000
def AVP_FRAME_TMO.TMO (n : Nat) : Bits := ⟨AVP_FRAME_TMO.addr n, 0, 20⟩
def AVP_CMD_ADDR.addr (n : Nat) : Nat := 0x100030 + n * 0x10000
def AVP_CMD_ADDR.ADDR (n : Nat) : Bits := ⟨AVP_CMD_ADDR.addr n, 0, 32⟩
def AVP_CMD_CTL.addr (n : Nat) : Nat := 0x100034 + n * 0x10000
def AVP_CMD_CTL.GO (n : Nat) : Bits := ⟨AVP_CMD_CTL.addr n, 31, 1⟩
def AVP_CMD_CTL.WRITE (n : Nat) : Bits := ⟨AVP_CMD_CTL.addr n, 30, 1⟩
def AVP_CMD_CTL.TMO (n : Nat) : Bits := ⟨AVP_CMD_CTL.addr n, 16, 8⟩
def AVP_CMD_CTL.COUNT (n : Nat) : Bits := ⟨AVP_CMD_CTL.addr n, 0, 8⟩
def AVP_URGENT.addr (n : Nat) : Nat := 0x100038 + n * 0x10000
def AVP_URGENT.FIRE (n : Nat) : Bits := ⟨AVP_URGENT.addr n, 0, 1⟩
def AVP_LANE_CTL.addr (n i : Nat) : Nat := 0x100040 + n * 0x10000 + i * 0x4
def AVP_LANE_CTL.BITSLIP (n i : Nat) : Bits := ⟨AVP_LANE_CTL.addr n i, 31, 1⟩
def AVP_LANE_CTL.PI_MAN (n i : Nat) : Bits := ⟨AVP_LANE_CTL.addr n i, 23, 1⟩
def AVP_LANE_CTL.PI_CODE (n i : Nat) : Bits := ⟨AVP_LANE_CTL.addr n i, 16, 6⟩
def AVP_LANE_CTL.ADAPT (n i : Nat) : Bits := ⟨AVP_LANE_CTL.addr n i, 8, 1⟩
def AVP_LANE_CTL.PEAK (n i : Nat) : Bits := ⟨AVP_LANE_CTL.addr n i, 0, 5⟩
def AVP_FLAGS.addr (n : Nat) : Nat := 0x100800 + n * 0x10000
def AVP_FLAGS.CTRL_BAD (n : Nat) : Bits := ⟨AVP_FLAGS.addr n, 9, 1⟩
def AVP_FLAGS.ULC_RATE_BAD (n : Nat) : Bits := ⟨AVP_FLAGS.addr n, 8, 1⟩
def AVP_FLAGS.QUAL_DONE (n : Nat) : Bits := ⟨AVP_FLAGS.addr n, 7, 1⟩
def AVP_FLAGS.BAD_STATE (n : Nat) : Bits := ⟨AVP_FLAGS.addr n, 6, 1⟩
def AVP_FLAGS.BAD_VALUE (n : Nat) : Bits := ⟨AVP_FLAGS.addr n, 5, 1⟩
def AVP_FLAGS.RATE_FALLBACK (n : Nat) : Bits := ⟨AVP_FLAGS.addr n, 4, 1⟩
def AVP_FLAGS.ATTEMPT_FAIL (n : Nat) : Bits := ⟨AVP_FLAGS.addr n, 3, 1⟩
def AVP_FLAGS.DEGRADED (n : Nat) : Bits := ⟨AVP_FLAGS.addr n, 2, 1⟩
def AVP_FLAGS.LOCK_LOST (n : Nat) : Bits := ⟨AVP_FLAGS.addr n, 1, 1⟩
def AVP_FLAGS.STATE_CHG (n : Nat) : Bits := ⟨AVP_FLAGS.addr n, 0, 1⟩
def AVP_PFLAGS.addr (n : Nat) : Nat := 0x100804 + n * 0x10000
def AVP_PFLAGS.CAM_FAULT (n : Nat) : Bits := ⟨AVP_PFLAGS.addr n, 11, 1⟩
def AVP_PFLAGS.STATUS_LOST (n : Nat) : Bits := ⟨AVP_PFLAGS.addr n, 10, 1⟩
def AVP_PFLAGS.SCHED_WITHHELD (n : Nat) : Bits := ⟨AVP_PFLAGS.addr n, 9, 1⟩
def AVP_PFLAGS.URGENT_REFUSED (n : Nat) : Bits := ⟨AVP_PFLAGS.addr n, 8, 1⟩
def AVP_PFLAGS.CREDIT_VIOL (n : Nat) : Bits := ⟨AVP_PFLAGS.addr n, 7, 1⟩
def AVP_PFLAGS.GANG_MISMATCH (n : Nat) : Bits := ⟨AVP_PFLAGS.addr n, 6, 1⟩
def AVP_PFLAGS.CMD_TIMEOUT (n : Nat) : Bits := ⟨AVP_PFLAGS.addr n, 5, 1⟩
def AVP_PFLAGS.RANGE_SHIFT (n : Nat) : Bits := ⟨AVP_PFLAGS.addr n, 4, 1⟩
def AVP_PFLAGS.CAM_DROP (n : Nat) : Bits := ⟨AVP_PFLAGS.addr n, 3, 1⟩
def AVP_PFLAGS.FRAME_LOST (n : Nat) : Bits := ⟨AVP_PFLAGS.addr n, 2, 1⟩
def AVP_PFLAGS.MALFORMED (n : Nat) : Bits := ⟨AVP_PFLAGS.addr n, 1, 1⟩
def AVP_PFLAGS.CRC_BAD (n : Nat) : Bits := ⟨AVP_PFLAGS.addr n, 0, 1⟩
def AVP_PORT_STAT.addr (n : Nat) : Nat := 0x100900 + n * 0x10000
def AVP_PORT_STAT.CEILING (n : Nat) : Bits := ⟨AVP_PORT_STAT.addr n, 16, 2⟩
def AVP_PORT_STAT.LANES (n : Nat) : Bits := ⟨AVP_PORT_STAT.addr n, 12, 4⟩
def AVP_PORT_STAT.MASK (n : Nat) : Bits := ⟨AVP_PORT_STAT.addr n, 8, 4⟩
def AVP_PORT_STAT.VERSION (n : Nat) : Bits := ⟨AVP_PORT_STAT.addr n, 6, 2⟩
def AVP_PORT_STAT.RATE (n : Nat) : Bits := ⟨AVP_PORT_STAT.addr n, 4, 2⟩
def AVP_PORT_STAT.STATE (n : Nat) : Bits := ⟨AVP_PORT_STAT.addr n, 0, 4⟩
def AVP_LANE_STAT.addr (n i : Nat) : Nat := 0x100910 + n * 0x10000 + i * 0x4
def AVP_LANE_STAT.SKEW (n i : Nat) : Bits := ⟨AVP_LANE_STAT.addr n i, 16, 7⟩
def AVP_LANE_STAT.PEAK_NOW (n i : Nat) : Bits := ⟨AVP_LANE_STAT.addr n i, 10, 5⟩
def AVP_LANE_STAT.PI_NOW (n i : Nat) : Bits := ⟨AVP_LANE_STAT.addr n i, 4, 6⟩
def AVP_LANE_STAT.EXCLUDED (n i : Nat) : Bits := ⟨AVP_LANE_STAT.addr n i, 3, 1⟩
def AVP_LANE_STAT.ALIGNED (n i : Nat) : Bits := ⟨AVP_LANE_STAT.addr n i, 2, 1⟩
def AVP_LANE_STAT.LOCK (n i : Nat) : Bits := ⟨AVP_LANE_STAT.addr n i, 1, 1⟩
def AVP_LANE_STAT.SIGNAL (n i : Nat) : Bits := ⟨AVP_LANE_STAT.addr n i, 0, 1⟩
def AVP_ATTEMPT.addr (n : Nat) : Nat := 0x100920 + n * 0x10000
def AVP_ATTEMPT.LAST_REASON (n : Nat) : Bits := ⟨AVP_ATTEMPT.addr n, 16, 4⟩
def AVP_ATTEMPT.FAILS (n : Nat) : Bits := ⟨AVP_ATTEMPT.addr n, 0, 16⟩
def AVP_QUAL_ERR.addr (n i : Nat) : Nat := 0x100940 + n * 0x10000 + i * 0x8
def AVP_QUAL_BITS.addr (n i : Nat) : Nat := 0x100960 + n * 0x10000 + i * 0x8
def AVP_QUAL_STAT.addr (n : Nat) : Nat := 0x100980 + n * 0x10000
def AVP_QUAL_STAT.SYNC (n : Nat) : Bits := ⟨AVP_QUAL_STAT.addr n, 4, 4⟩
def AVP_QUAL_STAT.RUN (n : Nat) : Bits := ⟨AVP_QUAL_STAT.addr n, 0, 1⟩
def AVP_CMD_STAT.addr (n : Nat) : Nat := 0x1009A0 + n * 0x10000
def AVP_CMD_STAT.COUNT (n : Nat) : Bits := ⟨AVP_CMD_STAT.addr n, 16, 8⟩
def AVP_CMD_STAT.CMD_ID (n : Nat) : Bits := ⟨AVP_CMD_STAT.addr n, 8, 8⟩
def AVP_CMD_STAT.RESULT (n : Nat) : Bits := ⟨AVP_CMD_STAT.addr n, 4, 4⟩
def AVP_CMD_STAT.BUSY (n : Nat) : Bits := ⟨AVP_CMD_STAT.addr n, 0, 1⟩
def AVP_RANGE_D.addr (n : Nat) : Nat := 0x1009A8 + n * 0x10000
def AVP_RANGE_D.D (n : Nat) : Bits := ⟨AVP_RANGE_D.addr n, 0, 32⟩
def AVP_RANGE_STAT.addr (n : Nat) : Nat := 0x1009AC + n * 0x10000
def AVP_RANGE_STAT.ACCEPTED (n : Nat) : Bits := ⟨AVP_RANGE_STAT.addr n, 1, 5⟩
def AVP_RANGE_STAT.RANGED (n : Nat) : Bits := ⟨AVP_RANGE_STAT.addr n, 0, 1⟩
def AVP_CREDIT_LIMIT.addr (n : Nat) : Nat := 0x1009B0 + n * 0x10000
def AVP_CREDIT_LIMIT.LIMIT (n : Nat) : Bits := ⟨AVP_CREDIT_LIMIT.addr n, 0, 32⟩
def AVP_CREDIT_USED.addr (n : Nat) : Nat := 0x1009B4 + n * 0x10000
def AVP_CREDIT_USED.USED (n : Nat) : Bits := ⟨AVP_CREDIT_USED.addr n, 0, 32⟩
def AVP_CREDIT_STAT.addr (n : Nat) : Nat := 0x1009B8 + n * 0x10000
def AVP_CREDIT_STAT.CAPACITY (n : Nat) : Bits := ⟨AVP_CREDIT_STAT.addr n, 8, 8⟩
def AVP_CREDIT_STAT.EPOCH (n : Nat) : Bits := ⟨AVP_CREDIT_STAT.addr n, 0, 8⟩
def AVP_CAM_CAPS.addr (n i : Nat) : Nat := 0x1009C0 + n * 0x10000 + i * 0x4
def AVP_CAM_STATUS.addr (n i : Nat) : Nat := 0x1009E0 + n * 0x10000 + i * 0x4
def AVP_HDR_ERR_CNT.addr (n i : Nat) : Nat := 0x100A00 + n * 0x10000 + i * 0x8
def AVP_LOCK_LOSS_CNT.addr (n : Nat) : Nat := 0x100A20 + n * 0x10000
def AVP_ATTEMPT_CNT.addr (n : Nat) : Nat := 0x100A28 + n * 0x10000
def AVP_DEGRADE_CNT.addr (n : Nat) : Nat := 0x100A30 + n * 0x10000
def AVP_BIP_ERR_CNT.addr (n i : Nat) : Nat := 0x100A40 + n * 0x10000 + i * 0x8
def AVP_CTRL_BAD_CNT.addr (n : Nat) : Nat := 0x100A60 + n * 0x10000
def AVP_PKT_CRC_CNT.addr (n : Nat) : Nat := 0x100A68 + n * 0x10000
def AVP_PKT_BAD_CNT.addr (n : Nat) : Nat := 0x100A70 + n * 0x10000
def AVP_SEQ_GAP_CNT.addr (n : Nat) : Nat := 0x100A78 + n * 0x10000
def AVP_LINE_FILL_CNT.addr (n : Nat) : Nat := 0x100A80 + n * 0x10000
def AVP_FRAME_CNT.addr (n : Nat) : Nat := 0x100A88 + n * 0x10000
def AVP_FRAME_LOST_CNT.addr (n : Nat) : Nat := 0x100A90 + n * 0x10000
def AVP_ORPHAN_CNT.addr (n : Nat) : Nat := 0x100A98 + n * 0x10000
def AVP_CAM_DROP_CNT.addr (n : Nat) : Nat := 0x100AA0 + n * 0x10000
def AVP_CREDIT_VIOL_CNT.addr (n : Nat) : Nat := 0x100AA8 + n * 0x10000
def AVP_RANGE_OUTLIER_CNT.addr (n : Nat) : Nat := 0x100AB0 + n * 0x10000
def AVP_CMD_RETRY_CNT.addr (n : Nat) : Nat := 0x100AB8 + n * 0x10000
def AVP_URGENT_CNT.addr (n : Nat) : Nat := 0x100AC0 + n * 0x10000
def AVP_URGENT_REFUSED_CNT.addr (n : Nat) : Nat := 0x100AC8 + n * 0x10000
def AVP_SCHED_CNT.addr (n : Nat) : Nat := 0x100AD0 + n * 0x10000
def AVP_CMD_BUF.addr (n i : Nat) : Nat := 0x100E00 + n * 0x10000 + i * 0x4
def LPH_EQ_OVR.addr (i : Nat) : Nat := 0x200100 + i * 0x4
def LPH_EQ_OVR.EN (i : Nat) : Bits := ⟨LPH_EQ_OVR.addr i, 31, 1⟩
def LPH_EQ_OVR.PEAK (i : Nat) : Bits := ⟨LPH_EQ_OVR.addr i, 0, 5⟩
def LPH_PLL_STAT.addr : Nat := 0x200900
def LPH_PLL_STAT.ULC_PLL : Bits := ⟨LPH_PLL_STAT.addr, 2, 4⟩
def LPH_PLL_STAT.ALL_ULC : Bits := ⟨LPH_PLL_STAT.addr, 1, 1⟩
def LPH_PLL_STAT.DL_PLL : Bits := ⟨LPH_PLL_STAT.addr, 0, 1⟩
def CHT_ARM.addr : Nat := 0x400000
def CHT_LOAD.addr : Nat := 0x400004
def CHT_LOAD.LOAD : Bits := ⟨CHT_LOAD.addr, 0, 16⟩
def CHT_SPARE.addr (i : Nat) : Nat := 0x400040 + i * 0x4
def CHT_SPARE.AUTO (i : Nat) : Bits := ⟨CHT_SPARE.addr i, 31, 1⟩
def CHT_SPARE.ROW (i : Nat) : Bits := ⟨CHT_SPARE.addr i, 0, 6⟩
def CHT_ASSIGN.addr (i : Nat) : Nat := 0x400100 + i * 0x30
def CHT_ASSIGN.LENDER (i : Nat) : Bits := ⟨CHT_ASSIGN.addr i, 20, 1⟩
def CHT_ASSIGN.BORROW (i : Nat) : Bits := ⟨CHT_ASSIGN.addr i, 16, 2⟩
def CHT_ASSIGN.NROW (i : Nat) : Bits := ⟨CHT_ASSIGN.addr i, 8, 6⟩
def CHT_ASSIGN.MODE (i : Nat) : Bits := ⟨CHT_ASSIGN.addr i, 0, 2⟩
def CHT_RECIPE.addr (i : Nat) : Nat := 0x400104 + i * 0x30
def CHT_RECIPE.WIN_SH (i : Nat) : Bits := ⟨CHT_RECIPE.addr i, 24, 5⟩
def CHT_RECIPE.STAT_SH (i : Nat) : Bits := ⟨CHT_RECIPE.addr i, 20, 4⟩
def CHT_RECIPE.B_FMT (i : Nat) : Bits := ⟨CHT_RECIPE.addr i, 16, 3⟩
def CHT_RECIPE.A_FMT (i : Nat) : Bits := ⟨CHT_RECIPE.addr i, 13, 3⟩
def CHT_RECIPE.CLR_FRAME (i : Nat) : Bits := ⟨CHT_RECIPE.addr i, 12, 1⟩
def CHT_RECIPE.CTXA (i : Nat) : Bits := ⟨CHT_RECIPE.addr i, 10, 2⟩
def CHT_RECIPE.CTXB (i : Nat) : Bits := ⟨CHT_RECIPE.addr i, 8, 2⟩
def CHT_RECIPE.ENTRY (i : Nat) : Bits := ⟨CHT_RECIPE.addr i, 0, 6⟩
def CHT_IMG_LO.addr (i : Nat) : Nat := 0x400108 + i * 0x30
def CHT_IMG_LO.ADDR (i : Nat) : Bits := ⟨CHT_IMG_LO.addr i, 6, 26⟩
def CHT_IMG_HI.addr (i : Nat) : Nat := 0x40010C + i * 0x30
def CHT_IMG_HI.ADDR (i : Nat) : Bits := ⟨CHT_IMG_HI.addr i, 0, 16⟩
def CHT_COEF.addr (i : Nat) : Nat := 0x400110 + i * 0x30
def CHT_COEF.HI (i : Nat) : Bits := ⟨CHT_COEF.addr i, 16, 15⟩
def CHT_COEF.LO (i : Nat) : Bits := ⟨CHT_COEF.addr i, 0, 15⟩
def CHT_STREAM.addr (i : Nat) : Nat := 0x400114 + i * 0x30
def CHT_STREAM.BASE (i : Nat) : Bits := ⟨CHT_STREAM.addr i, 16, 15⟩
def CHT_STREAM.SLEN (i : Nat) : Bits := ⟨CHT_STREAM.addr i, 1, 9⟩
def CHT_STREAM.EN (i : Nat) : Bits := ⟨CHT_STREAM.addr i, 0, 1⟩
def CHT_SSRC_LO.addr (i : Nat) : Nat := 0x400118 + i * 0x30
def CHT_SSRC_LO.ADDR (i : Nat) : Bits := ⟨CHT_SSRC_LO.addr i, 6, 26⟩
def CHT_SSRC_HI.addr (i : Nat) : Nat := 0x40011C + i * 0x30
def CHT_SSRC_HI.PITCH (i : Nat) : Bits := ⟨CHT_SSRC_HI.addr i, 16, 16⟩
def CHT_SSRC_HI.ADDR (i : Nat) : Bits := ⟨CHT_SSRC_HI.addr i, 0, 16⟩
def CHT_LIMIT.addr (i : Nat) : Nat := 0x400120 + i * 0x30
def CHT_LIMIT.SAT_LEVEL (i : Nat) : Bits := ⟨CHT_LIMIT.addr i, 16, 16⟩
def CHT_LIMIT.STEP_LIMIT (i : Nat) : Bits := ⟨CHT_LIMIT.addr i, 0, 16⟩
def CHT_FLAGS.addr : Nat := 0x400800
def CHT_FLAGS.BAD_STATE : Bits := ⟨CHT_FLAGS.addr, 10, 1⟩
def CHT_FLAGS.BAD_VALUE : Bits := ⟨CHT_FLAGS.addr, 9, 1⟩
def CHT_FLAGS.WRITE_REFUSED : Bits := ⟨CHT_FLAGS.addr, 8, 1⟩
def CHT_FLAGS.POOL_SHRUNK : Bits := ⟨CHT_FLAGS.addr, 7, 1⟩
def CHT_FLAGS.SPARE_SWAP : Bits := ⟨CHT_FLAGS.addr, 6, 1⟩
def CHT_FLAGS.SWITCHED : Bits := ⟨CHT_FLAGS.addr, 5, 1⟩
def CHT_FLAGS.RUNAWAY : Bits := ⟨CHT_FLAGS.addr, 4, 1⟩
def CHT_FLAGS.LOAD_ERR : Bits := ⟨CHT_FLAGS.addr, 3, 1⟩
def CHT_FLAGS.ARM_REFUSED : Bits := ⟨CHT_FLAGS.addr, 2, 1⟩
def CHT_FLAGS.FETCH_ERR : Bits := ⟨CHT_FLAGS.addr, 1, 1⟩
def CHT_FLAGS.ACC_SAT : Bits := ⟨CHT_FLAGS.addr, 0, 1⟩
def CHT_COL_STAT.addr (i : Nat) : Nat := 0x400900 + i * 0x4
def CHT_COL_STAT.REASON (i : Nat) : Bits := ⟨CHT_COL_STAT.addr i, 11, 4⟩
def CHT_COL_STAT.OLD_BUSY (i : Nat) : Bits := ⟨CHT_COL_STAT.addr i, 3, 1⟩
def CHT_COL_STAT.LOADED (i : Nat) : Bits := ⟨CHT_COL_STAT.addr i, 1, 1⟩
def CHT_COL_STAT.LOADING (i : Nat) : Bits := ⟨CHT_COL_STAT.addr i, 0, 1⟩
def CHT_SWITCH_CNT.addr : Nat := 0x400A00
def CHT_LOAD_CNT.addr : Nat := 0x400A08
def CHT_SWAP_CNT.addr : Nat := 0x400A10
def CHT_TRANSIENT_CNT.addr : Nat := 0x400A18
def CHT_RUNAWAY_CNT.addr : Nat := 0x400A20
def CHT_IDLE_DISCARD_CNT.addr : Nat := 0x400A28
def CHT_T_CTL.addr (n : Nat) : Nat := 0x500000 + n * 0x1000
def CHT_T_CTL.RETIRE (n : Nat) : Bits := ⟨CHT_T_CTL.addr n, 0, 1⟩
def CHT_T_FLAGS.addr (n : Nat) : Nat := 0x500800 + n * 0x1000
def CHT_T_FLAGS.FETCH_ERR (n : Nat) : Bits := ⟨CHT_T_FLAGS.addr n, 3, 1⟩
def CHT_T_FLAGS.RETRIED (n : Nat) : Bits := ⟨CHT_T_FLAGS.addr n, 2, 1⟩
def CHT_T_FLAGS.ACC_SAT (n : Nat) : Bits := ⟨CHT_T_FLAGS.addr n, 1, 1⟩
def CHT_T_FLAGS.RUNAWAY (n : Nat) : Bits := ⟨CHT_T_FLAGS.addr n, 0, 1⟩
def CHT_T_STAT.addr (n : Nat) : Nat := 0x500900 + n * 0x1000
def CHT_T_STAT.STALLED (n : Nat) : Bits := ⟨CHT_T_STAT.addr n, 4, 1⟩
def CHT_T_STAT.BANK (n : Nat) : Bits := ⟨CHT_T_STAT.addr n, 2, 1⟩
def CHT_T_PC.addr (n : Nat) : Nat := 0x500904 + n * 0x1000
def CHT_T_PC.LOOP (n : Nat) : Bits := ⟨CHT_T_PC.addr n, 8, 8⟩
def CHT_T_PC.PC (n : Nat) : Bits := ⟨CHT_T_PC.addr n, 0, 6⟩
def CHT_T_WORK.addr (n : Nat) : Nat := 0x500908 + n * 0x1000
def CHT_T_GROUP_CNT.addr (n : Nat) : Nat := 0x500A00 + n * 0x1000
def CHT_T_STEP_CNT.addr (n : Nat) : Nat := 0x500A08 + n * 0x1000
def CHT_T_STALL_IN_CNT.addr (n : Nat) : Nat := 0x500A10 + n * 0x1000
def CHT_T_STALL_OUT_CNT.addr (n : Nat) : Nat := 0x500A18 + n * 0x1000
def CHT_T_FETCH_WAIT_CNT.addr (n : Nat) : Nat := 0x500A20 + n * 0x1000
def CHT_T_RETRY_CNT.addr (n : Nat) : Nat := 0x500A28 + n * 0x1000
def CHT_T_RUNAWAY_CNT.addr (n : Nat) : Nat := 0x500A30 + n * 0x1000
def CLR_COL_CFG.addr (i : Nat) : Nat := 0x800100 + i * 0x4
def CLR_COL_CFG.KIND_B (i : Nat) : Bits := ⟨CLR_COL_CFG.addr i, 8, 3⟩
def CLR_COL_CFG.KIND_A (i : Nat) : Bits := ⟨CLR_COL_CFG.addr i, 4, 3⟩
def CLR_COL_CFG.FMT (i : Nat) : Bits := ⟨CLR_COL_CFG.addr i, 0, 2⟩
def CLR_FLAGS.addr : Nat := 0x800800
def CLR_FLAGS.TABLE_FULL : Bits := ⟨CLR_FLAGS.addr, 3, 1⟩
def CLR_FLAGS.ORPHAN : Bits := ⟨CLR_FLAGS.addr, 2, 1⟩
def CLR_FLAGS.BAD_VALUE : Bits := ⟨CLR_FLAGS.addr, 1, 1⟩
def CLR_FLAGS.ENTRY_FAULT : Bits := ⟨CLR_FLAGS.addr, 0, 1⟩
def CLR_STAT.addr : Nat := 0x800900
def CLR_STAT.OPEN : Bits := ⟨CLR_STAT.addr, 0, 9⟩
def CLR_SEQ.addr (i : Nat) : Nat := 0x800980 + i * 0x8
def CLR_SEQ_HI.addr (i : Nat) : Nat := 0x800984 + i * 0x8
def CLR_ENTRY_CNT.addr : Nat := 0x800A00
def CLR_TRANSIENT_CNT.addr : Nat := 0x800A08
def CLR_FAULT_CNT.addr : Nat := 0x800A10
def CLR_ORPHAN_CNT.addr : Nat := 0x800A18
def CLR_FULL_CNT.addr : Nat := 0x800A20
def CLR_FLAG_CNT.addr (i : Nat) : Nat := 0x800A40 + i * 0x8
def VLT_RING_BASE.addr (i : Nat) : Nat := 0x900000 + i * 0x10
def VLT_RING_BASE.BASE (i : Nat) : Bits := ⟨VLT_RING_BASE.addr i, 0, 17⟩
def VLT_RING_SIZE.addr (i : Nat) : Nat := 0x900004 + i * 0x10
def VLT_RING_SIZE.ENT (i : Nat) : Bits := ⟨VLT_RING_SIZE.addr i, 20, 4⟩
def VLT_RING_SIZE.SIZE (i : Nat) : Bits := ⟨VLT_RING_SIZE.addr i, 0, 17⟩
def VLT_RING_CFG.addr (i : Nat) : Nat := 0x900008 + i * 0x10
def VLT_RING_CFG.EN (i : Nat) : Bits := ⟨VLT_RING_CFG.addr i, 31, 1⟩
def VLT_RING_CFG.ROLE (i : Nat) : Bits := ⟨VLT_RING_CFG.addr i, 29, 2⟩
def VLT_RING_CFG.POLICY (i : Nat) : Bits := ⟨VLT_RING_CFG.addr i, 28, 1⟩
def VLT_RING_CFG.GROUP (i : Nat) : Bits := ⟨VLT_RING_CFG.addr i, 25, 3⟩
def VLT_RING_CFG.PRE (i : Nat) : Bits := ⟨VLT_RING_CFG.addr i, 0, 20⟩
def VLT_RING_TRIG.addr (i : Nat) : Nat := 0x90000C + i * 0x10
def VLT_RING_TRIG.RESERVE (i : Nat) : Bits := ⟨VLT_RING_TRIG.addr i, 20, 12⟩
def VLT_RING_TRIG.POST (i : Nat) : Bits := ⟨VLT_RING_TRIG.addr i, 0, 20⟩
def VLT_BIND.addr (i : Nat) : Nat := 0x900400 + i * 0x4
def VLT_BIND.STR_EN (i : Nat) : Bits := ⟨VLT_BIND.addr i, 31, 1⟩
def VLT_BIND.PREVIEW (i : Nat) : Bits := ⟨VLT_BIND.addr i, 30, 1⟩
def VLT_BIND.STR_RING (i : Nat) : Bits := ⟨VLT_BIND.addr i, 8, 6⟩
def VLT_BIND.REC_EN (i : Nat) : Bits := ⟨VLT_BIND.addr i, 7, 1⟩
def VLT_BIND.REC_RING (i : Nat) : Bits := ⟨VLT_BIND.addr i, 0, 6⟩
def VLT_RPL_CTL.addr (i : Nat) : Nat := 0x900540 + i * 0x10
def VLT_RPL_CTL.EN (i : Nat) : Bits := ⟨VLT_RPL_CTL.addr i, 31, 1⟩
def VLT_RPL_CTL.CTXB (i : Nat) : Bits := ⟨VLT_RPL_CTL.addr i, 8, 2⟩
def VLT_RPL_CTL.RING (i : Nat) : Bits := ⟨VLT_RPL_CTL.addr i, 0, 6⟩
def VLT_RPL_COUNT.addr (i : Nat) : Nat := 0x900544 + i * 0x10
def VLT_RPL_COUNT.COUNT (i : Nat) : Bits := ⟨VLT_RPL_COUNT.addr i, 0, 32⟩
def VLT_RPL_START_LO.addr (i : Nat) : Nat := 0x900548 + i * 0x10
def VLT_RPL_START_HI.addr (i : Nat) : Nat := 0x90054C + i * 0x10
def VLT_OVD.addr : Nat := 0x900640
def VLT_OVD.EN : Bits := ⟨VLT_OVD.addr, 31, 1⟩
def VLT_OVD.RING : Bits := ⟨VLT_OVD.addr, 0, 6⟩
def VLT_COMMIT.addr : Nat := 0x900644
def VLT_COMMIT.GRP : Bits := ⟨VLT_COMMIT.addr, 0, 8⟩
def VLT_ARM_LO.addr : Nat := 0x900648
def VLT_ARM_LO.ARM : Bits := ⟨VLT_ARM_LO.addr, 0, 32⟩
def VLT_ARM_HI.addr : Nat := 0x90064C
def VLT_ARM_HI.ARM : Bits := ⟨VLT_ARM_HI.addr, 0, 32⟩
def VLT_SCRUB.addr : Nat := 0x900650
def VLT_SCRUB.INTERVAL : Bits := ⟨VLT_SCRUB.addr, 0, 16⟩
def VLT_RETIRE_REQ.addr : Nat := 0x900658
def VLT_RETIRE_REQ.PAGE : Bits := ⟨VLT_RETIRE_REQ.addr, 0, 17⟩
def VLT_FLAGS.addr : Nat := 0x900800
def VLT_FLAGS.BAD_VALUE : Bits := ⟨VLT_FLAGS.addr, 13, 1⟩
def VLT_FLAGS.COMMIT_IGNORED : Bits := ⟨VLT_FLAGS.addr, 12, 1⟩
def VLT_FLAGS.REPLAY_SKIP : Bits := ⟨VLT_FLAGS.addr, 11, 1⟩
def VLT_FLAGS.REPLAY_END : Bits := ⟨VLT_FLAGS.addr, 10, 1⟩
def VLT_FLAGS.DATA_LOST : Bits := ⟨VLT_FLAGS.addr, 9, 1⟩
def VLT_FLAGS.POOL_EMPTY : Bits := ⟨VLT_FLAGS.addr, 8, 1⟩
def VLT_FLAGS.PAGE_RETIRED : Bits := ⟨VLT_FLAGS.addr, 7, 1⟩
def VLT_FLAGS.OVD_FULL : Bits := ⟨VLT_FLAGS.addr, 6, 1⟩
def VLT_FLAGS.TOO_SMALL : Bits := ⟨VLT_FLAGS.addr, 5, 1⟩
def VLT_FLAGS.DROPPED : Bits := ⟨VLT_FLAGS.addr, 4, 1⟩
def VLT_FLAGS.HELD : Bits := ⟨VLT_FLAGS.addr, 3, 1⟩
def VLT_FLAGS.SLID : Bits := ⟨VLT_FLAGS.addr, 2, 1⟩
def VLT_FLAGS.BIND_CONFLICT : Bits := ⟨VLT_FLAGS.addr, 1, 1⟩
def VLT_FLAGS.RING_REFUSED : Bits := ⟨VLT_FLAGS.addr, 0, 1⟩
def VLT_STAT.addr : Nat := 0x900900
def VLT_STAT.MOVER : Bits := ⟨VLT_STAT.addr, 9, 1⟩
def VLT_STAT.INIT_DONE : Bits := ⟨VLT_STAT.addr, 8, 1⟩
def VLT_STAT.POOL : Bits := ⟨VLT_STAT.addr, 0, 8⟩
def VLT_RSEL.addr : Nat := 0x900904
def VLT_RSEL.RING : Bits := ⟨VLT_RSEL.addr, 0, 6⟩
def VLT_RV_STAT.addr : Nat := 0x900910
def VLT_RV_BASE.addr : Nat := 0x900914
def VLT_RV_SIZE.addr : Nat := 0x900918
def VLT_RV_CFG.addr : Nat := 0x90091C
def VLT_RV_TRIG.addr : Nat := 0x900920
def VLT_RV_DATA_WR.addr : Nat := 0x900928
def VLT_RV_MARK_DATA.addr : Nat := 0x900930
def VLT_RV_ENT_WR.addr : Nat := 0x900938
def VLT_RV_MARK_ENT.addr : Nat := 0x900940
def VLT_RV_TRIG_ENT.addr : Nat := 0x900948
def VLT_RV_TRIG_TICK.addr : Nat := 0x900950
def VLT_RV_PRE_HELD.addr : Nat := 0x900958
def VLT_RV_POST_DONE.addr : Nat := 0x90095C
def VLT_RV_DROPS.addr : Nat := 0x900960
def VLT_RV_SLIDES.addr : Nat := 0x900964
def VLT_CE_CNT.addr : Nat := 0x900A00
def VLT_TRANSIENT_CNT.addr : Nat := 0x900A08
def VLT_UE_CNT.addr : Nat := 0x900A10
def VLT_RETIRE_CNT.addr : Nat := 0x900A18
def VLT_DROP_CNT.addr : Nat := 0x900A20
def VLT_SLIDE_CNT.addr : Nat := 0x900A28
def VLT_TOO_SMALL_CNT.addr : Nat := 0x900A30
def VLT_OVD_MOVE_CNT.addr : Nat := 0x900A38
def VLT_REPLAY_CNT.addr : Nat := 0x900A40
def VLT_REPLAY_SKIP_CNT.addr : Nat := 0x900A48
def VLT_SCRUB_CNT.addr : Nat := 0x900A50
def VLT_POOL.addr (i : Nat) : Nat := 0x900E00 + i * 0x4
def VLT_POOL.IN_USE (i : Nat) : Bits := ⟨VLT_POOL.addr i, 31, 1⟩
def VLT_POOL.PAGE (i : Nat) : Bits := ⟨VLT_POOL.addr i, 0, 17⟩
def DMA_OWNER.addr : Nat := 0xA00000
def DMA_OWNER.OWNER : Bits := ⟨DMA_OWNER.addr, 0, 32⟩
def DMA_FLAGS.addr : Nat := 0xA00800
def DMA_FLAGS.BAD_STATE : Bits := ⟨DMA_FLAGS.addr, 0, 1⟩
def DMA_RUN.addr : Nat := 0xA00900
def DMA_HALTED.addr : Nat := 0xA00904
def DMA_BUS_WR_CNT.addr : Nat := 0xA00A00
def DMA_BUS_RD_CNT.addr : Nat := 0xA00A08
def DMA_INT_WR_CNT.addr : Nat := 0xA00A10
def DMA_INT_RD_CNT.addr : Nat := 0xA00A18
def DMA_TRANSIENT_CNT.addr : Nat := 0xA00A20
def DMA_LASTING_CNT.addr : Nat := 0xA00A28
def DMA_ZLR_CNT.addr : Nat := 0xA00A30
def DMA_CH_CTL.addr (n : Nat) : Nat := 0xA10000 + n * 0x1000
def DMA_CH_CTL.ABORT (n : Nat) : Bits := ⟨DMA_CH_CTL.addr n, 2, 1⟩
def DMA_CH_CTL.STOP (n : Nat) : Bits := ⟨DMA_CH_CTL.addr n, 1, 1⟩
def DMA_CH_CTL.START (n : Nat) : Bits := ⟨DMA_CH_CTL.addr n, 0, 1⟩
def DMA_CH_CFG.addr (n : Nat) : Nat := 0xA10004 + n * 0x1000
def DMA_CH_CFG.RING (n : Nat) : Bits := ⟨DMA_CH_CFG.addr n, 20, 6⟩
def DMA_CH_CFG.LFLUSH (n : Nat) : Bits := ⟨DMA_CH_CFG.addr n, 19, 1⟩
def DMA_CH_CFG.FLOW (n : Nat) : Bits := ⟨DMA_CH_CFG.addr n, 18, 1⟩
def DMA_CH_CFG.RETRY (n : Nat) : Bits := ⟨DMA_CH_CFG.addr n, 12, 4⟩
def DMA_CH_CFG.FMT (n : Nat) : Bits := ⟨DMA_CH_CFG.addr n, 4, 2⟩
def DMA_CH_CFG.STREAM (n : Nat) : Bits := ⟨DMA_CH_CFG.addr n, 2, 1⟩
def DMA_CH_CFG.FEED (n : Nat) : Bits := ⟨DMA_CH_CFG.addr n, 0, 1⟩
def DMA_CH_DRING_LO.addr (n : Nat) : Nat := 0xA10008 + n * 0x1000
def DMA_CH_DRING_LO.ADDR (n : Nat) : Bits := ⟨DMA_CH_DRING_LO.addr n, 12, 20⟩
def DMA_CH_DRING_LO.SPACE (n : Nat) : Bits := ⟨DMA_CH_DRING_LO.addr n, 0, 1⟩
def DMA_CH_DRING_HI.addr (n : Nat) : Nat := 0xA1000C + n * 0x1000
def DMA_CH_DRING_HI.ADDR (n : Nat) : Bits := ⟨DMA_CH_DRING_HI.addr n, 0, 32⟩
def DMA_CH_DRING_SIZE.addr (n : Nat) : Nat := 0xA10010 + n * 0x1000
def DMA_CH_DRING_SIZE.LOG2 (n : Nat) : Bits := ⟨DMA_CH_DRING_SIZE.addr n, 0, 5⟩
def DMA_CH_DRING_TAIL.addr (n : Nat) : Nat := 0xA10014 + n * 0x1000
def DMA_CH_DRING_TAIL.TAIL (n : Nat) : Bits := ⟨DMA_CH_DRING_TAIL.addr n, 0, 16⟩
def DMA_CH_DRING_HEAD.addr (n : Nat) : Nat := 0xA10018 + n * 0x1000
def DMA_CH_DRING_HEAD.HEAD (n : Nat) : Bits := ⟨DMA_CH_DRING_HEAD.addr n, 0, 16⟩
def DMA_CH_CIRC.addr (n : Nat) : Nat := 0xA1001C + n * 0x1000
def DMA_CH_CIRC.LDST_LOG2 (n : Nat) : Bits := ⟨DMA_CH_CIRC.addr n, 16, 6⟩
def DMA_CH_CIRC.DST_LOG2 (n : Nat) : Bits := ⟨DMA_CH_CIRC.addr n, 0, 6⟩
def DMA_CH_SHUF.addr (n : Nat) : Nat := 0xA10020 + n * 0x1000
def DMA_CH_SHUF.IN_FMT (n : Nat) : Bits := ⟨DMA_CH_SHUF.addr n, 28, 3⟩
def DMA_CH_SHUF.FIRST (n : Nat) : Bits := ⟨DMA_CH_SHUF.addr n, 24, 4⟩
def DMA_CH_SHUF.NPL (n : Nat) : Bits := ⟨DMA_CH_SHUF.addr n, 20, 4⟩
def DMA_CH_SHUF.WIDTH (n : Nat) : Bits := ⟨DMA_CH_SHUF.addr n, 0, 15⟩
def DMA_CH_IRQ.addr (n : Nat) : Nat := 0xA10024 + n * 0x1000
def DMA_CH_IRQ.VECTOR (n : Nat) : Bits := ⟨DMA_CH_IRQ.addr n, 22, 6⟩
def DMA_CH_IRQ.HOLDOFF (n : Nat) : Bits := ⟨DMA_CH_IRQ.addr n, 12, 10⟩
def DMA_CH_IRQ.EN (n : Nat) : Bits := ⟨DMA_CH_IRQ.addr n, 0, 5⟩
def DMA_CH_PACK.addr (n : Nat) : Nat := 0xA10028 + n * 0x1000
def DMA_CH_LACK.addr (n : Nat) : Nat := 0xA10030 + n * 0x1000
def DMA_CH_SH_SRC.addr (n : Nat) : Nat := 0xA10080 + n * 0x1000
def DMA_CH_SH_DST.addr (n : Nat) : Nat := 0xA10088 + n * 0x1000
def DMA_CH_SH_LEN.addr (n : Nat) : Nat := 0xA10090 + n * 0x1000
def DMA_CH_SH_CTL.addr (n : Nat) : Nat := 0xA10094 + n * 0x1000
def DMA_CH_SH_LINK.addr (n : Nat) : Nat := 0xA10098 + n * 0x1000
def DMA_CH_SH_VALID.addr (n : Nat) : Nat := 0xA100A0 + n * 0x1000
def DMA_CH_SH_VALID.VALID (n : Nat) : Bits := ⟨DMA_CH_SH_VALID.addr n, 0, 1⟩
def DMA_CH_FLAGS.addr (n : Nat) : Nat := 0xA10800 + n * 0x1000
def DMA_CH_FLAGS.BAD_STATE (n : Nat) : Bits := ⟨DMA_CH_FLAGS.addr n, 6, 1⟩
def DMA_CH_FLAGS.SHADOW_LATE (n : Nat) : Bits := ⟨DMA_CH_FLAGS.addr n, 5, 1⟩
def DMA_CH_FLAGS.CUT (n : Nat) : Bits := ⟨DMA_CH_FLAGS.addr n, 4, 1⟩
def DMA_CH_FLAGS.HALTED (n : Nat) : Bits := ⟨DMA_CH_FLAGS.addr n, 3, 1⟩
def DMA_CH_FLAGS.STOPPED (n : Nat) : Bits := ⟨DMA_CH_FLAGS.addr n, 2, 1⟩
def DMA_CH_FLAGS.REC_DONE (n : Nat) : Bits := ⟨DMA_CH_FLAGS.addr n, 1, 1⟩
def DMA_CH_FLAGS.DESC_DONE (n : Nat) : Bits := ⟨DMA_CH_FLAGS.addr n, 0, 1⟩
def DMA_CH_STAT.addr (n : Nat) : Nat := 0xA10900 + n * 0x1000
def DMA_CH_STAT.WAIT_CAUSE (n : Nat) : Bits := ⟨DMA_CH_STAT.addr n, 3, 3⟩
def DMA_CH_STAT.STATE (n : Nat) : Bits := ⟨DMA_CH_STAT.addr n, 0, 3⟩
def DMA_CH_STATUS.addr (n : Nat) : Nat := 0xA10908 + n * 0x1000
def DMA_CH_ERR_ADDR.addr (n : Nat) : Nat := 0xA10910 + n * 0x1000
def DMA_CH_ERR_INFO.addr (n : Nat) : Nat := 0xA10918 + n * 0x1000
def DMA_CH_PPOS.addr (n : Nat) : Nat := 0xA10920 + n * 0x1000
def DMA_CH_LPOS.addr (n : Nat) : Nat := 0xA10928 + n * 0x1000
def DMA_CH_BYTES_CNT.addr (n : Nat) : Nat := 0xA10A00 + n * 0x1000
def DMA_CH_DESC_CNT.addr (n : Nat) : Nat := 0xA10A08 + n * 0x1000
def DMA_CH_REC_CNT.addr (n : Nat) : Nat := 0xA10A10 + n * 0x1000
def DMA_CH_RETRY_CNT.addr (n : Nat) : Nat := 0xA10A18 + n * 0x1000
def DMA_CH_WAIT_CNT.addr (n : Nat) : Nat := 0xA10A28 + n * 0x1000
def DMA_CH_CUT_CNT.addr (n : Nat) : Nat := 0xA10A30 + n * 0x1000
def DMA_CH_LATE_CNT.addr (n : Nat) : Nat := 0xA10A38 + n * 0x1000
def DMA_CH_SHUF_SKIP_CNT.addr (n : Nat) : Nat := 0xA10A40 + n * 0x1000
def NTQ_CTL.addr (i : Nat) : Nat := 0xB00000 + i * 0x4
def NTQ_CTL.EN (i : Nat) : Bits := ⟨NTQ_CTL.addr i, 31, 1⟩
def NTQ_CTL.IRQ_CLASS (i : Nat) : Bits := ⟨NTQ_CTL.addr i, 24, 4⟩
def NTQ_CTL.VECTOR (i : Nat) : Bits := ⟨NTQ_CTL.addr i, 16, 6⟩
def NTQ_CTL.ARM (i : Nat) : Bits := ⟨NTQ_CTL.addr i, 1, 1⟩
def NTQ_CTL.FLUSH (i : Nat) : Bits := ⟨NTQ_CTL.addr i, 0, 1⟩
def NTQ_ROUTE.addr (i : Nat) : Nat := 0xB00100 + i * 0x4
def NTQ_POP.addr (i : Nat) : Nat := 0xB00900 + i * 0x20
def NTQ_LAST2.addr (i : Nat) : Nat := 0xB00904 + i * 0x20
def NTQ_LAST0.addr (i : Nat) : Nat := 0xB00908 + i * 0x20
def NTQ_LAST1.addr (i : Nat) : Nat := 0xB0090C + i * 0x20
def NTQ_LAST3.addr (i : Nat) : Nat := 0xB00910 + i * 0x20
def NTQ_DEPTH01.addr (i : Nat) : Nat := 0xB00914 + i * 0x20
def NTQ_DEPTH23.addr (i : Nat) : Nat := 0xB00918 + i * 0x20
def NTQ_LOST.addr (i : Nat) : Nat := 0xB00A00 + i * 0x8
def NTQ_RESETS.addr (i : Nat) : Nat := 0xB00A40 + i * 0x8
def MGT_MBX_CTL.addr (i : Nat) : Nat := 0xC00000 + i * 0x4
def MGT_MBX_CTL.IRQ_EN (i : Nat) : Bits := ⟨MGT_MBX_CTL.addr i, 2, 1⟩
def MGT_MBX_CTL.RESET (i : Nat) : Bits := ⟨MGT_MBX_CTL.addr i, 1, 1⟩
def MGT_MBX_CTL.SEND (i : Nat) : Bits := ⟨MGT_MBX_CTL.addr i, 0, 1⟩
def MGT_MBX_IRQ.addr : Nat := 0xC00008
def MGT_MBX_IRQ.VECTOR : Bits := ⟨MGT_MBX_IRQ.addr, 0, 6⟩
def MGT_RCV_CTL.addr : Nat := 0xC00020
def MGT_RCV_CTL.LEN : Bits := ⟨MGT_RCV_CTL.addr, 0, 26⟩
def MGT_MBX_FLAGS.addr : Nat := 0xC00800
def MGT_MBX_FLAGS.BAD_STATE0 : Bits := ⟨MGT_MBX_FLAGS.addr, 4, 1⟩
def MGT_MBX_FLAGS.OVERFLOW0 : Bits := ⟨MGT_MBX_FLAGS.addr, 2, 1⟩
def MGT_MBX_FLAGS.RX_READY0 : Bits := ⟨MGT_MBX_FLAGS.addr, 0, 1⟩
def MGT_MBX_TX.addr (i : Nat) : Nat := 0xC00900 + i * 0x10
def MGT_MBX_RX.addr (i : Nat) : Nat := 0xC00904 + i * 0x10
def MGT_MBX_STAT.addr (i : Nat) : Nat := 0xC00908 + i * 0x10
def MGT_MBX_STAT.BUSY (i : Nat) : Bits := ⟨MGT_MBX_STAT.addr i, 18, 1⟩
def MGT_MBX_STAT.RX (i : Nat) : Bits := ⟨MGT_MBX_STAT.addr i, 9, 9⟩
def MGT_MBX_STAT.TX (i : Nat) : Bits := ⟨MGT_MBX_STAT.addr i, 0, 9⟩
def MGT_RCV_STAT.addr : Nat := 0xC00930
def MGT_RCV_STAT.RESULT : Bits := ⟨MGT_RCV_STAT.addr, 4, 3⟩
def MGT_RCV_STAT.VERIFYING : Bits := ⟨MGT_RCV_STAT.addr, 3, 1⟩
def MGT_RCV_STAT.CAUSE : Bits := ⟨MGT_RCV_STAT.addr, 1, 2⟩
def MGT_RCV_STAT.ACTIVE : Bits := ⟨MGT_RCV_STAT.addr, 0, 1⟩
def MGT_ROLE.addr : Nat := 0xC00940
def MGT_ROLE.OUT : Bits := ⟨MGT_ROLE.addr, 5, 1⟩
def MGT_ROLE.UPDATE : Bits := ⟨MGT_ROLE.addr, 2, 3⟩
def MGT_ROLE.STBY_OK : Bits := ⟨MGT_ROLE.addr, 1, 1⟩
def MGT_ROLE.ACTIVE : Bits := ⟨MGT_ROLE.addr, 0, 1⟩
def MGT_UMSAL_MSG_CNT.addr : Nat := 0xC00A00
def MGT_UMSAL_DISCARD_CNT.addr : Nat := 0xC00A08
def MGT_ESC_COMMIT_CNT.addr : Nat := 0xC00A10
def MGT_ESC_REJECT_CNT.addr : Nat := 0xC00A18
def MGT_ESC_ROLLBACK_CNT.addr : Nat := 0xC00A20
def MGT_KEY_CHANGE_CNT.addr : Nat := 0xC00A28
def MGT_FAILOVER_CNT.addr : Nat := 0xC00A30
def MGT_UPDATE_CNT.addr : Nat := 0xC00A38
def NET_PORT_CTL.addr (i : Nat) : Nat := 0xD00000 + i * 0x4
def NET_PORT_CTL.EN (i : Nat) : Bits := ⟨NET_PORT_CTL.addr i, 31, 1⟩
def NET_PORT_CTL.SPEED_MAX (i : Nat) : Bits := ⟨NET_PORT_CTL.addr i, 0, 3⟩
def NET_MAC_LO.addr (i : Nat) : Nat := 0xD00010 + i * 0x8
def NET_MAC_LO.MAC (i : Nat) : Bits := ⟨NET_MAC_LO.addr i, 0, 32⟩
def NET_MAC_HI.addr (i : Nat) : Nat := 0xD00014 + i * 0x8
def NET_MAC_HI.MAC (i : Nat) : Bits := ⟨NET_MAC_HI.addr i, 0, 16⟩
def NET_FLAGS.addr : Nat := 0xD00800
def NET_FLAGS.BAD_VALUE : Bits := ⟨NET_FLAGS.addr, 3, 1⟩
def NET_FLAGS.GM_CHANGE : Bits := ⟨NET_FLAGS.addr, 2, 1⟩
def NET_FLAGS.PTP_STATE : Bits := ⟨NET_FLAGS.addr, 1, 1⟩
def NET_FLAGS.LINK_CHG : Bits := ⟨NET_FLAGS.addr, 0, 1⟩
def NET_PORT_STAT.addr (i : Nat) : Nat := 0xD00900 + i * 0x4
def NET_PORT_STAT.RATE (i : Nat) : Bits := ⟨NET_PORT_STAT.addr i, 2, 3⟩
def NET_PORT_STAT.LINK (i : Nat) : Bits := ⟨NET_PORT_STAT.addr i, 1, 1⟩
def NET_PORT_STAT.LOCK (i : Nat) : Bits := ⟨NET_PORT_STAT.addr i, 0, 1⟩
def NET_PTP_STAT.addr : Nat := 0xD00910
def NET_PTP_STAT.PORT : Bits := ⟨NET_PTP_STAT.addr, 3, 1⟩
def NET_PTP_STAT.STATE : Bits := ⟨NET_PTP_STAT.addr, 0, 3⟩
def NET_PTP_OFFSET.addr : Nat := 0xD00918
def NET_PTP_GM.addr : Nat := 0xD00920
def NET_PTP_MPD.addr : Nat := 0xD00928
def NET_PTP_MPD.MPD : Bits := ⟨NET_PTP_MPD.addr, 0, 32⟩
def NET_RX_CNT.addr (i : Nat) : Nat := 0xD00A00 + i * 0x8
def NET_TX_CNT.addr (i : Nat) : Nat := 0xD00A10 + i * 0x8
def NET_RX_DROP_CNT.addr (i : Nat) : Nat := 0xD00A20 + i * 0x8
def NET_TX_DROP_CNT.addr (i : Nat) : Nat := 0xD00A30 + i * 0x8
def NET_PTP_SYNC_CNT.addr : Nat := 0xD00A40
def NET_PTP_DROP_CNT.addr : Nat := 0xD00A48
def AUD_CTL.addr : Nat := 0xE00000
def AUD_CTL.SNAP : Bits := ⟨AUD_CTL.addr, 0, 1⟩
def AUD_STAT.addr : Nat := 0xE00900
def AUD_STAT.HELD : Bits := ⟨AUD_STAT.addr, 1, 1⟩
def AUD_STAT.BUSY : Bits := ⟨AUD_STAT.addr, 0, 1⟩
def AUD_SEQ.addr : Nat := 0xE00904
def AUD_SEQ.SEQ : Bits := ⟨AUD_SEQ.addr, 0, 32⟩
def AUD_TIME.addr : Nat := 0xE00C00
def SEC_FUSE_DATA.addr : Nat := 0xF00000
def SEC_FUSE_CMD.addr : Nat := 0xF00004
def SEC_FUSE_CMD.BURN : Bits := ⟨SEC_FUSE_CMD.addr, 0, 1⟩
def SEC_CFG.addr : Nat := 0xF00008
def SEC_CFG.CAM_POLICY : Bits := ⟨SEC_CFG.addr, 0, 2⟩
def SEC_FLAGS.addr : Nat := 0xF00800
def SEC_FLAGS.BAD_VALUE : Bits := ⟨SEC_FLAGS.addr, 3, 1⟩
def SEC_FLAGS.VERIFY_FAIL : Bits := ⟨SEC_FLAGS.addr, 2, 1⟩
def SEC_FLAGS.BURN_REFUSED : Bits := ⟨SEC_FLAGS.addr, 1, 1⟩
def SEC_FLAGS.BURN_DONE : Bits := ⟨SEC_FLAGS.addr, 0, 1⟩
def SEC_STAT.addr : Nat := 0xF00900
def SEC_STAT.SVN : Bits := ⟨SEC_STAT.addr, 5, 7⟩
def SEC_STAT.BOARD : Bits := ⟨SEC_STAT.addr, 4, 1⟩
def SEC_STAT.KEY_SLOT : Bits := ⟨SEC_STAT.addr, 1, 2⟩
def SEC_STAT.SLOT : Bits := ⟨SEC_STAT.addr, 0, 1⟩
def SEC_VERIFY_CNT.addr : Nat := 0xF00A00
def SEC_VERIFY_FAIL_CNT.addr : Nat := 0xF00A08
def SEC_ATTEST_CNT.addr : Nat := 0xF00A10

end Sys2Proof.Machine
end

