-- ==== Sys2Proof/Machine/State.lean ====
section
/-! DEFINITION. The state of the block: plain data, everything the spec gives the device, and the queue of waiting commands. -/

namespace Sys2Proof.Machine

/-- Why a step could fault: nothing does. A command whose condition does not hold changes nothing (R13, R36), so no command of
this block faults; safe. -/
inductive Fault
  deriving DecidableEq, Repr

/-- Why a command could be refused. -/
inductive Refusal where
  /-- A command whose meaning is not modelled, by its mnemonic: raised by an arm of `exec`; safe. -/
  | notModelled (mnemonic : String)
  deriving DecidableEq, Repr

/-- The classes of notice items in the order of their codes and priorities (R46). -/
inductive Cls where
  | fault | alert | event | info
  deriving DecidableEq, Repr

/-- A notice item (R46); `time` is the device time of detection (R47). -/
structure Notice where
  cls : Cls
  block : Nat
  code : Nat
  arg : Word
  time : Nat
  deriving DecidableEq, Repr

/-- Instants the device keeps for its rates ("at most one per ...") and silences, one name each. -/
inductive Mark where
  | gated | busBad | trimLimit | adaptEdge (p l : Nat) | pktDiscard (p : Nat) | creditViol (p : Nat) | frameLost (p : Nat)
  | schedWithheld (p : Nat) | camDrops (p : Nat) | idleDiscard (k : Nat) | runaway (k : Nat) | accSat (k : Nat) | orphanResult
  | tableFull | ringDrop (r : Nat) | ringSlid (r : Nat) | replaySkip (p : Nat) | commitIgnored | lateCpl | urWindow | blocked | shadowLate (c : Nat) | busRetry (c : Nat)
  | scrub | ltrSent | ltrRise | ltrWindow | fioFilt (p : Nat) | strikeLate (s : Nat) | strikeMiss (s : Nat) | standstill (i : Nat)
  | loopCut | taskLost | umsalDiscard | drops (p : Nat) | overdraft | adaptSecond (p : Nat)
  deriving DecidableEq, Repr

/-- The attributes of a memory request: relaxed ordering, no snoop, ID-based ordering, and whether its packet carries an ECRC (R281,
R317). -/
structure Attr where
  ro : Bool
  ns : Bool
  ido : Bool
  ecrc : Bool
  deriving DecidableEq, Repr

/-- A transmission of the device: what it puts on a link, a bus or a pin, or answers to a request, oldest first in
`Dev.out`; `withEcrc` is a packet that carries an ECRC (R317), where its attributes do not say so. -/
inductive Out where
  | readData (off : Nat) (v : Word)
  | completerAbort
  | unsupportedRequest
  | requestRetry
  | windowData (bytes : List Byte)
  | poisonedData (bytes : List Byte)
  | msix (vector : Nat) (addr : Nat) (data : Word) (attr : Attr)
  | intx (level : Bool)
  | ltr (code : Nat)
  | aerMessage (severity : Nat)
  | memWrite (addr : Nat) (bytes : List Byte) (attr : Attr)
  | memRead (addr len : Nat) (attr : Attr)
  | packet (port : Nat) (bytes : List Byte)
  | block (port : Nat) (bytes : List Byte)
  | busFrame (at' : Nat) (bits : BitVec 240)
  | fioPin (pin : Nat) (level : Option Bool)
  | umsal (eth addr port : Nat) (bytes : List Byte)
  | ethernet (port : Nat) (kind : Nat) (bytes : List Byte)
  | therm (low : Bool)
  | withEcrc (o : Out)
  deriving DecidableEq, Repr

/-! ### Notice queues and audit (chapter 02) -/

/-- What has met registers in the present cycle, which is the present device time while `at'` is that time (R35): what counters held when
the cycle began, of those that have counted in it, the flag bits (register and bit) that hardware has set in it, and the RW registers that
software has written in it, with the bits written. -/
structure RegCycle where
  at' : Nat
  was : List (Nat × Nat)
  sets : List (Nat × Nat)
  wrote : List (Nat × Word)
  deriving DecidableEq, Repr

/-- The last push a queue took: its MGT cycle, counted from 1, the class of the ring that the item stands in (none where it was discarded)
and the item it overwrote (R47, R53). -/
structure Push where
  cycle : Nat
  cls : Option Nat
  lost : Option Notice
  deriving DecidableEq, Repr

/-- The state of NTQ beside its registers: the blocks' input queues (one list, oldest first), the class rings, keyed
`4 * queue + class`, the queues (as bits) that have stored a block's oldest item already, and the last push each queue took (R47). -/
structure NtqState where
  input : List Notice
  rings : List (Nat × List Notice)
  taken : List (Nat × Nat)
  pushed : List (Nat × Push)
  deriving DecidableEq, Repr

/-- The audit in progress: when it was requested, its instant once a cycle late enough has come, whether its copies are taken, and the
hop counts its AUD_DONE and that of the held request will carry (R55, R56, R378). -/
structure AudState where
  since : Option Nat
  instant : Option Nat
  captured : Bool
  hop : Nat
  heldHop : Nat
  deriving DecidableEq, Repr

/-! ### Cadence (chapter 03) -/

/-- A tick the source has fixed and that has not begun: number, nominal time, the instant it was fixed, whether its
SCHEDULEs are sent or withheld for good, and the lock of the strike that fixed it. -/
structure PlannedTick where
  num : Nat
  time : Nat
  fixedAt : Nat
  scheduled : Bool
  strike : Option Nat
  deriving DecidableEq, Repr

/-- A pending apply: the GO instant, the tick chosen for it once there is one, and whether it has become an apply in
STANDBY at a given instant (R76). -/
structure ApplyReq where
  goAt : Nat
  tick : Option Nat
  standbyAt : Option Nat
  deriving DecidableEq, Repr

/-- The encoder capture of an exposure (R225, R353). -/
structure EncCapture where
  pos : List Nat
  valid : Nat
  flags : Nat
  deriving DecidableEq, Repr

/-- An exposure commanded and not yet ended (R88): gang head, SOURCE and CMD_ID32 of its command, tick, commanded time, and its encoder
capture once ENC has made it (R225). -/
structure Exposure where
  head : Nat
  source : Nat
  id : Nat
  tick : Nat
  time : Nat
  enc : Option EncCapture
  deriving DecidableEq, Repr

/-- CAD beside its registers. `refused` tells whether the last apply refused its mode change (R414); `budget` lists the ticks whose deadline has
not been checked, with the depth D in force when each began (R69); `scheduledTo` is the first TIME tick whose schedule point has not been taken,
`sentTo` the gang heads to which a SCHEDULE of a tick to come has been sent (R78); `held` tells that a lost source's offset is restored through
the trim alone (R62). -/
structure CadState where
  startAt : Option Nat
  lastTick : Option Nat
  lastTime : Nat
  planned : List PlannedTick
  scheduledTo : Nat
  sentTo : List (Nat × Nat)
  apply : Option ApplyReq
  drainAt : Option Nat
  discAt : Nat
  exposures : List Exposure
  budget : List (Nat × Nat)
  busRxAt : Nat
  busRxTick : Nat
  busStopRx : Bool
  busEdge : Option Nat
  busSentTo : Nat
  busStopDue : Option (Nat × Nat)
  busLost : Bool
  discTold : Bool
  held : Bool
  refused : Bool
  deriving DecidableEq, Repr

/-! ### Avane ports (chapters 04 and 05) -/

/-- A downlink control block waiting for its boundary, other than URGENT (R105, R108). -/
inductive DlBlock where
  | degrade (mask count : Nat)
  | retrain
  | rateGo (rate : Nat)
  | qualStart (pattern dur : Nat)
  deriving DecidableEq, Repr

/-- Why a bring-up attempt runs: from SEEK, as a return from QUALIFY, or after a rate switch that NEGOTIATE must confirm
with the same version, lane count and rate (R114, R116). -/
inductive AttemptKind where
  | fresh
  | qualifyReturn
  | rateSwitch (version lanes rate : Nat)
  deriving DecidableEq, Repr

/-- A lane's alignment: the marker sequence number last seen and the block slot it stood in (R107, R111). -/
structure LaneMarker where
  seq : Nat
  slot : Nat
  deriving DecidableEq, Repr

/-- A degrade whose extra ALIGN is awaited (R121, R122): lane mask, count, the instant DEGRADE left the balls, lanes whose
extra ALIGN has come. -/
structure Degrade where
  mask : Nat
  count : Nat
  sentAt : Option Nat
  seen : List Nat
  deriving DecidableEq, Repr

/-- The link layer of one port beside its registers. `seekFrom` is the instant at which the last hold ended (R116), `fails` the consecutive
failures in full, `piAt` the instant each lane's phase tracker started from the phase in AVP_LANE_STAT (R98, R99), `qualAt` the instant
of the pattern's first bit once QUAL_START has left, `qualDur` the DUR it carried (R120), `skew` the skews that DESKEW measured, against
which an extra ALIGN is checked (R122). -/
structure Link where
  attempt : Option Nat
  kind : AttemptKind
  hold : Option Nat
  seekFrom : Nat
  fails : Nat
  piAt : List (Nat × Nat)
  slipAt : Nat
  deskewAt : Nat
  markers : List (Nat × LaneMarker)
  boundary : List (Nat × Nat)
  offers : Nat
  offerAt : Nat
  camLanes : Nat
  degrade : Option Degrade
  skew : List (Nat × Nat)
  qualAt : Option Nat
  qualDur : Nat
  blocks : List DlBlock
  urgents : List Nat
  running : Bool
  deriving DecidableEq, Repr

/-- A command sent to a gang head: SOURCE, CMD_ID32, commanded exposure time, tick, and the lock of a strike that fixed
that tick (R136, R155). -/
structure SentCommand where
  source : Nat
  id : Nat
  expose : Nat
  tick : Nat
  strike : Option Nat
  deriving DecidableEq, Repr

/-- The band of a frame open on a port, with the gang head it was accepted under (R136). -/
structure Band where
  frame : Option Nat
  head : Nat
  frameNo : Nat
  source : Nat
  cmd : Nat
  width : Nat
  height : Nat
  format : Nat
  first : Nat
  lines : Nat
  next : Nat
  crc : BitVec 32
  crcBad : Bool
  counted : Nat
  refused : List Nat
  lastAt : Nat
  expose : Nat
  tick : Nat
  dropped : Bool
  deriving DecidableEq, Repr

/-- A line in a port's line buffer: its frame (none where the column discards it), its frame line number, its bytes, how
many of them have left for the column bus, whether it was never received, whether it holds a credit, and whether it is a line of zeros
that fills a gap and takes no room (R136, R139). -/
structure BufLine where
  frame : Option Nat
  line : Nat
  data : List Byte
  gone : Nat
  missing : Bool
  credit : Bool
  filled : Bool
  deriving DecidableEq, Repr

/-- A downlink packet ready for the next packet boundary: type, TAG and body (R125, R130). -/
structure TxPacket where
  typ : Nat
  tag : Nat
  body : List Byte
  deriving DecidableEq, Repr

/-- What waits behind a FRAME_START that CLR holds back (R228): a frame packet, or the port's leaving of UP and DEGRADED after it. -/
inductive Held where
  | packet (k : RxPacket)
  | left
  deriving DecidableEq, Repr

/-- A TIME packet sent: its TIME_ID and its instant in 1/256 dt (R145). -/
structure TimeSent where
  id : Nat
  tx : Nat
  deriving DecidableEq, Repr

/-- Ranging of a gang head (R145-R149). `held` are the accepted values; `rejects` counts consecutive rejections. -/
structure Ranging where
  nextId : Nat
  sentSinceUp : Nat
  lastAt : Nat
  sent : List TimeSent
  held : List Int
  total : Nat
  rejects : Nat
  ref : Int
  deriving DecidableEq, Repr

/-- The packet layer of one port beside its registers. `ready` holds the downlink packets ready for the next packet boundary in their order
(R130); `rxLines` counts the LINE_DATA received in the epoch; `stray` is the band that is
not open to which late packets belong: FRAME_NO[15:0], and how many of its lines are counted as consumed, none for all of
them (R136, R139); `closed` lists the commands whose bands the port has closed as missing or discarded in a gang (R465); `gangTold` tells that
GANG_MISMATCH has been pushed since the entry to UP or DEGRADED (R132); `held` holds what waits, in order, for a place in the frame table
(R228); `accepted` is the command, SOURCE and CMD_ID32, of the last FRAME_START the port accepted (R465). -/
structure Packets where
  txSeq : Nat
  ready : List TxPacket
  rxSeq : Option Nat
  band : Option Band
  startLost : Bool
  closed : List (Nat × Nat)
  gangTold : Bool
  held : List Held
  accepted : Option (Nat × Nat)
  buffer : List BufLine
  freed : Nat
  sent : List SentCommand
  creditAt : Nat
  advanceAt : Option Nat
  statusAt : Nat
  statusLost : Bool
  drops : Option Nat
  dropsDelivered : Nat
  lastFrameNo : Option Nat
  cmdNext : Nat
  cmdAt : Nat
  cmdRetried : Bool
  cmdTag : Nat
  cmdBody : List Byte
  urgId : Nat
  discards : Nat
  stray : Option (Nat × Option Nat)
  rxLines : Nat
  deriving DecidableEq, Repr

/-- One Avane port. -/
structure Port where
  link : Link
  pk : Packets
  rng : Ranging
  deriving DecidableEq, Repr

/-! ### Tellers and columns (chapters 06 and 07) -/

/-- The output streams of a column (R169, R214). -/
inductive Stream where
  | a | mint | tally | b | stat
  deriving DecidableEq, Repr

/-- The parameters of a basic kernel set (R198). -/
structure KernelSet where
  outputs : Nat
  aBits : Nat
  aSrc : Nat
  roiX : Nat
  roiY : Nat
  roiW : Nat
  roiH : Nat
  calKind : Nat
  calAddr : Nat
  defect : Nat
  colDark : List Nat
  colGain : List Nat
  pedestal : Nat
  binX : Nat
  binY : Nat
  binOp : Nat
  statSrc : Nat
  statSh : Nat
  satLevel : Nat
  surSrc : Nat
  thumbSh : Nat
  tallyThresh : Nat
  tallyWin : Nat
  tallyMax : Nat
  deriving DecidableEq, Repr

/-- The column configuration a frame runs under: the fields in force when its tick began (R180, R182), the bank, the pool
in the order of R164 and the kernel set where the configuration is a basic one (R184). -/
structure ColConfig where
  mode : Nat
  ctxB : Nat
  ctxA : Nat
  entry : Nat
  clrFrame : Bool
  aFmt : Nat
  bFmt : Nat
  statSh : Nat
  winSh : Nat
  streamBase : Nat
  streamLen : Nat
  streamOn : Bool
  ssrc : Nat
  pitch : Nat
  satLevel : Nat
  stepLimit : Nat
  bank : Nat
  pool : List Nat
  kernel : Option KernelSet
  deriving DecidableEq, Repr

/-- Where an in-flight result of a teller goes (R176). -/
inductive Target where
  | x (i : Nat) | accAdd (i : Nat) | accClear (i : Nat) | flag | lsr | coef | lutr | winr
  deriving DecidableEq, Repr

/-- An in-flight result: microwords still to issue before it lands, where, the value of each lane, the lanes written. -/
structure Flight where
  left : Nat
  target : Target
  vals : List Int
  mask : List Bool
  deriving DecidableEq, Repr

/-- Statistics accumulated by a teller for the frame in work (R196). -/
structure Stats where
  sum : Nat
  min : Nat
  max : Nat
  sat : Nat
  found : Nat
  hist : List (Nat × Nat)
  deriving DecidableEq, Repr

/-- A piece of output waiting for the column merger: frame, stream, frame line, group, and its lane values (streams A and B) or its
bytes (tally records, a finished line record of the mint stream). -/
structure Piece where
  frame : Nat
  stream : Stream
  line : Nat
  group : Nat
  vals : List Nat
  bytes : List Byte
  deriving DecidableEq, Repr

/-- A line record in the mint unit (R203, R207): frame line, first column, coded values and up values not yet in a segment,
all its pixels, the segments, the group that may follow, and whether it is closed. -/
structure MintRec where
  line : Nat
  x0 : Nat
  vals : List Nat
  ups : List Nat
  pixels : Nat
  segs : List (List Byte)
  next : Nat
  closed : Bool
  deriving DecidableEq, Repr

/-- One teller beside its registers and its stores. `base` are the statistics of its frame as they stood at the start of the line in work
(R185, R215). -/
structure Teller where
  x : List (List Int)
  acc : List (List Int)
  f : List Bool
  lsr : List Int
  coef : List Int
  lutr : List Int
  winr : List Int
  loop : Nat
  flight : List Flight
  start : Option Nat
  frame : Option Nat
  line : Nat
  group : Nat
  stats : Stats
  base : Stats
  out : List Piece
  mint : List MintRec
  overlay : List (Nat × Nat)
  bytes : List Nat
  tallies : Nat
  faulted : Bool
  streamed : Nat
  deriving DecidableEq, Repr

/-- A line on a column bus: its frame line number, the bytes delivered so far, whether all are, whether the line was never
received. -/
structure ColLine where
  line : Nat
  data : List Byte
  full : Bool
  missing : Bool
  deriving DecidableEq, Repr

/-- The merger's place in one stream of a frame: lines taken, groups taken of the line in work, the values and, group by group, the tally
records taken of it, and whether the band's stream is complete. -/
structure MergePos where
  lines : Nat
  group : Nat
  vals : List Nat
  recs : List (Nat × List Byte)
  done : Bool
  deriving DecidableEq, Repr

/-- A frame a column works on: the frame with its gang, its band's geometry, its configuration, the streams that carry
output, the lines delivered, the tellers of the pool that have sent their results or are retired, the work positions lost
with retired tellers (pool index, from, to), the merger's places keyed by stream, and, in the head's column, the statistics
of the tellers that have ended, the tally records kept with the last one held back, and the line records of the mint
stream. -/
structure ColFrame where
  frame : Nat
  tick : Nat
  port : Nat
  head : Nat
  size : Nat
  frameNo : Nat
  width : Nat
  height : Nat
  format : Nat
  first : Nat
  lines : Nat
  config : ColConfig
  streams : List Stream
  delivered : List ColLine
  sent : List Nat
  lost : List (Nat × Nat × Nat)
  merge : List (Nat × MergePos)
  stats : Stats
  tallies : Nat
  held : List Byte
  mintRecs : Nat
  deriving DecidableEq, Repr

/-- The bytes of one stream of one frame on their way to the ring writers: all taken so far, whether the stream is complete,
and the rings that still take it. -/
structure StreamOut where
  frame : Nat
  tick : Nat
  head : Nat
  stream : Stream
  bytes : List Byte
  complete : Bool
  rings : List Nat
  deriving DecidableEq, Repr

/-- A teller's result for CLR (R170). -/
structure TellerResult where
  teller : Nat
  frame : Nat
  tick : Nat
  bytes : List Nat
  tallies : Nat
  stats : Stats
  faulted : Bool
  deriving DecidableEq, Repr

/-- One column beside its registers: frames in work, streams for the ring writers (in a head's column), results for CLR, the load in progress (image
address, LO, HI) with what R183 holds back and the reason of its last LOAD_ERR (0 none), kernel sets, the switch in progress (R182). -/
structure Column where
  frames : List ColFrame
  queue : List StreamOut
  results : List TellerResult
  load : Option (Nat × Nat × Nat)
  loadHeld : Bool
  loadDirty : Bool
  loadErr : Nat
  kernel : Option KernelSet
  oldKernel : Option KernelSet
  stagedKernel : Option KernelSet
  switchTick : Option Nat
  deriving DecidableEq, Repr

/-- A teller's store window: coefficient words, lookup entries and microword halves, keyed by window offset / 2 (R163). -/
abbrev TellerStore := List (Nat × BitVec 16)

/-- CHT beside its registers. `depth` is the length in beats of a column's result queue, which the spec does not give (R20). -/
structure ChtState where
  depth : Nat
  columns : List (Nat × Column)
  tellers : List (Nat × Teller)
  stores : List (Nat × TellerStore)
  deriving DecidableEq, Repr

/-! ### Clearing unit (chapter 08) -/

/-- A port's contribution to a frame (R225). -/
structure BandPart where
  port : Nat
  frameNo : Nat
  expose : Nat
  tick : Nat
  flags : Nat
  missing : Bool
  deriving DecidableEq, Repr



/-- An open frame record of CLR. `waiting` lists the ports whose FRAME_START it awaits, `expect` the tellers whose results it
awaits; `strike` names the lock of the strike that fixed its tick (R371); `faultAt` is when the first condition of FAULT_MARKED reached it
(R221); `replay` is the recorded entry of a frame fed in REPLAY, `fed` its source ring and entry number (R265, R266). -/
structure Frame where
  id : Nat
  head : Nat
  size : Nat
  source : Nat
  cmd : Nat
  openedAt : Nat
  frameNo : Nat
  expose : Nat
  tick : Nat
  parts : List BandPart
  waiting : List Nat
  enc : Option EncCapture
  strike : Option Nat
  expect : List Nat
  flags : Nat
  faultId : Nat
  faultAt : Nat
  cfg : Word
  mode : Nat
  streams : List Stream
  replay : Option (List Byte)
  fed : Option (Nat × Nat)
  failed : List ClrItem
  deriving DecidableEq, Repr

/-- A ledger entry queued for a ring writer (R226): everything the entry holds but BYTES and LOCATION, when the first condition of its
FAULT_MARKED reached it (R221), and whether the count of its bytes failed (R229). -/
structure Entry where
  frame : Nat
  stream : Stream
  format : Nat
  kind : Nat
  head : Nat
  size : Nat
  flags : Nat
  frameNo : Nat
  expose : Nat
  tick : Nat
  enc : List Nat
  mode : Nat
  faultAt : Nat
  bytesFailed : Bool
  deriving DecidableEq, Repr

/-- CLR beside its registers. `depth` is the length in entries of the ledger queue, which the spec does not give (R20). -/
structure ClrState where
  depth : Nat
  frames : List Frame
  queue : List Entry
  nextId : Nat
  deriving DecidableEq, Repr

/-! ### Vault and rings (chapter 09) -/

/-- A record of a ring: entry number, count at which its payload starts, bytes, tick, and whether a stage-6 overrun marks its copies (R71). -/
structure RingEntry where
  num : Nat
  start : Nat
  bytes : Nat
  tick : Nat
  overrun : Bool
  deriving DecidableEq, Repr

/-- The record a ring writer has in progress: frame, stream, tick, head, count at which it starts, bytes written, whether a
slide has moved the mark for it, whether it was cut. -/
structure RingRec where
  frame : Nat
  stream : Stream
  tick : Nat
  head : Nat
  start : Nat
  written : Nat
  slid : Bool
  cut : Bool
  dropped : Bool
  deriving DecidableEq, Repr

/-- The state of a ring (R257, R262). A replay source is a ring that VLT_RPL_CTL names while REPLAY is in force (R265). -/
inductive RingState where
  | off | stream | armed | post | held | overdraft
  deriving DecidableEq, Repr

/-- One ring: its state, the layout it was initialised with, its counts (R250), the records held, the record in progress, the commit (R256-R258),
whether it is orphaned and whether a reset did it (R262), what its notices count, the entry number up to which records fell due while orphaned
(R286), the overdraft ring's mark as it stood when a record of the ring last found no room there (R263), and the hop count of its commit.
`dropped` of the record in progress marks a frame dropped whole (R255). -/
structure Ring where
  state : RingState
  base : Nat
  size : Nat
  ent : Nat
  role : Nat
  dataWr : Nat
  markData : Nat
  entWr : Nat
  markEnt : Nat
  entries : List RingEntry
  work : Option RingRec
  commitWait : Bool
  orphaned : Bool
  byReset : Bool
  ovdTold : Bool
  trigEnt : Option Nat
  trigTick : Nat
  pre : Nat
  post : Nat
  preHeld : Nat
  postDone : Nat
  drops : Nat
  slides : Nat
  dropsTold : Nat
  slidesTold : Nat
  slidTold : Bool
  dueTo : Nat
  blockedAt : Option Nat
  hop : Nat
  deriving DecidableEq, Repr

/-- The replay reader of a gang head (R265, R266): its position, the records fed, the ENT_WR at which it ends, and whether
it feeds. -/
structure Replay where
  pos : Nat
  count : Nat
  stop : Nat
  active : Bool
  due : List Nat
  deriving DecidableEq, Repr

/-- A commit that has arrived (R256): its groups, T, and the hop count that came with it. -/
structure RingCommit where
  groups : Nat
  tick : Nat
  hop : Nat
  deriving DecidableEq, Repr

/-- VLT beside its registers. `commits` are the commits of the present cycle, which act behind its ARMs (R256); `copies` lists the pages
being copied to a pool page, `writes` the writes a step makes into the vault, carried out at its end. -/
structure VltState where
  writes : List (Nat × List Byte)
  rings : List (Nat × Ring)
  commits : List RingCommit
  replay : List (Nat × Replay)
  copies : List (Nat × Nat)
  poisoned : List Nat
  scrubAt : Nat
  scrubNext : Nat
  lastTurn : Option Nat
  deriving DecidableEq, Repr

/-! ### DMA engine (chapter 10) -/

/-- A descriptor (R273), with the slot it came from; none for the shadow set. -/
structure Desc where
  slot : Option Nat
  src : Nat
  dst : Nat
  len : Nat
  ctl : Nat
  link : Nat
  deriving DecidableEq, Repr

/-- What a channel's outstanding request is for. -/
inductive ReqKind where
  | fetch (slot : Nat) | read | flush
  deriving DecidableEq, Repr

/-- A request of a channel that awaits its response: its kind, space (1 bus), address, length, the attributes asked for it (`ecrc` is not), its
tag on the bus (none while it waits to be sent), how often it has been repeated and the kind of its last error (R294), whether its response
is only waited for, and the bytes of a response that came before that of an earlier request of its kind. -/
structure ChanReq where
  kind : ReqKind
  bus : Bool
  addr : Nat
  len : Nat
  attr : Attr
  tag : Option Nat
  tries : Nat
  err : Nat
  dead : Bool
  data : Option (List Byte)
  deriving DecidableEq, Repr

/-- An internal access of a channel that was answered with the error response: its address, length, whether it writes, whether it leaves
no bytes of the descriptor to issue (R295), and how often it has been repeated. -/
structure BadAccess where
  addr : Nat
  len : Nat
  write : Bool
  last : Bool
  tries : Nat
  deriving DecidableEq, Repr

/-- A status write-back not yet made (R276, R289): its address, the status word, the address a zero-length read must reach first, and whether
a signal of the channel goes behind it (R323). -/
structure WriteBack where
  addr : Nat
  word : Nat
  flushAt : Option Nat
  sig : Bool
  deriving DecidableEq, Repr

/-- The record a stream channel delivers (R286, R287): ring entry number, where it starts in the ring, output bytes written, the output and input
positions from which it is copied as bytes (none while it is reshuffled), the SHUF of the descriptor in which it began, the last 64-byte line
read of it, the address of its first output byte, the LINK of the descriptor in which it began, whether the entry copy is issued, and whether it
fell due while the ring was orphaned. -/
structure StreamRec where
  num : Nat
  start : Nat
  written : Nat
  raw : Option (Nat × Nat)
  shuf : Nat
  line : Option Nat
  first : Nat
  link : Nat
  issued : Bool
  contained : Bool
  deriving DecidableEq, Repr

/-- How a descriptor has ended before its completion is carried out: CODE and RESIDUE (R283). -/
structure DescEnd where
  code : Nat
  residue : Nat
  deriving DecidableEq, Repr

/-- A channel beside its registers: descriptors fetched and not begun, the next slot to fetch, requests awaiting responses,
the descriptor in progress with the source bytes requested, those in the staging buffer and the place of the first of them, the output bytes
written, the capacity used and the records delivered of a stream descriptor, the record in progress, an internal access that failed, whether
a STOP or an ABORT is pending, whether R321 holds it back, the state and wait cause a HELD channel left, the end of the descriptor, the bus
address of the last payload write that no zero-length read has followed, write-backs to be made, the retries of the last request that
failed, the ring it runs on, the holdoff, the hop count of its START, the most output bytes ever written of the descriptor in progress, also
before it started again (R293), whether it waits for a tag (R318); and for R300 the instants of its last START, of its last STOP that took
effect at once, with the descriptor then in progress, and at which it last consumed the shadow set. -/
structure Chan where
  fetched : List Desc
  nextFetch : Nat
  reqs : List ChanReq
  desc : Option Desc
  asked : Nat
  got : List Byte
  gotAt : Nat
  written : Nat
  used : Nat
  records : Nat
  recd : Option StreamRec
  failed : Option BadAccess
  stopping : Bool
  aborting : Bool
  blocked : Bool
  left : Nat
  leftCause : Nat
  ended : Option DescEnd
  dirty : Option Nat
  backs : List WriteBack
  retries : Nat
  ring : Option Nat
  irqDue : Option Nat
  hop : Nat
  reached : Nat
  tagless : Bool
  startAt : Option Nat
  stopped : Option (Nat × Option Desc)
  eatenAt : Option Nat
  deriving DecidableEq, Repr

/-! ### Host endpoint (chapter 11) -/

/-- A tag of an outstanding non-posted request: its channel and the instant it was sent. -/
structure Tag where
  tag : Nat
  chan : Nat
  sentAt : Nat
  deriving DecidableEq, Repr

/-- HEP beside its registers: configuration space, MSI-X table and PBA, tags outstanding and in quarantine (with the instant
they return), the next tag, the INTA level last sent, the release in progress, the AER bit the header log holds, a host
reset in progress (cause and instant), whether PERST_N is asserted, the LTR windows, for each vector, the HOST cycle of its last signal
(counted from 1), the instant of the last containment cause (R331), the registers of the current window sets as they stood before the
commits of the present cycle, which is the present device time while `winAt` is that time (R313), and the rate and width the link last trained
at (R335). -/
structure HepState where
  cfg : List (Nat × Word)
  msix : List (Nat × Word)
  pba : List Nat
  tags : List Tag
  quarantine : List (Nat × Nat)
  nextTag : Nat
  intx : Bool
  releaseAt : Option Nat
  logBit : Option Nat
  reset : Option (Nat × Nat)
  perst : Bool
  ltrCount : List (Nat × Nat)
  ltrLast : List (Nat × Nat)
  ltrWindowAt : Nat
  ltrRiseAt : Option Nat
  ltrDue : Bool
  ltrSentAt : Option Nat
  signalled : List (Nat × Nat)
  causeAt : Option Nat
  winAt : Nat
  winWas : List (Nat × Word)
  trained : Nat × Nat
  deriving DecidableEq, Repr

/-! ### Reset values of the indexed parts -/

def Link.reset : Link :=
  { attempt := none, kind := .fresh, hold := none, seekFrom := 0, fails := 0, piAt := [], slipAt := 0, deskewAt := 0, markers := [], boundary := [], offers := 0
    offerAt := 0, camLanes := 0, degrade := none, skew := [], qualAt := none, qualDur := 0, blocks := [], urgents := [], running := false }

def Packets.reset : Packets :=
  { txSeq := 0, ready := [], rxSeq := none, band := none, startLost := false, closed := [], gangTold := false, held := [], accepted := none
    buffer := [], freed := 0, sent := []
    creditAt := 0, advanceAt := none, statusAt := 0, statusLost := false, drops := none, dropsDelivered := 0
    lastFrameNo := none, cmdNext := 1, cmdAt := 0, cmdRetried := false, cmdTag := 0, cmdBody := [], urgId := 0, discards := 0
    stray := none, rxLines := 0 }

def Ranging.reset : Ranging :=
  { nextId := 0, sentSinceUp := 0, lastAt := 0, sent := [], held := [], total := 0, rejects := 0, ref := 0 }

def Port.reset : Port := ⟨Link.reset, Packets.reset, Ranging.reset⟩

def Stats.reset : Stats := ⟨0, 0xFFFF, 0, 0, 0, []⟩

def lanes32 (i : Int) : List Int := List.replicate 32 i

def Teller.reset : Teller :=
  { x := List.replicate 16 (lanes32 0), acc := List.replicate 4 (lanes32 0), f := List.replicate 32 false, lsr := lanes32 0
    coef := lanes32 0, lutr := lanes32 0, winr := lanes32 0, loop := 0, flight := [], start := none
    frame := none, line := 0, group := 0, stats := Stats.reset, base := Stats.reset, out := [], mint := [], overlay := []
    bytes := [0, 0, 0, 0], tallies := 0, faulted := false, streamed := 0 }

def MergePos.reset : MergePos := ⟨0, 0, [], [], false⟩

def Column.reset : Column :=
  { frames := [], queue := [], results := [], load := none, loadHeld := false, loadDirty := false, loadErr := 0, kernel := none
    oldKernel := none, stagedKernel := none, switchTick := none }


def Ring.reset : Ring :=
  { state := .off, base := 0, size := 0, ent := 1, role := 0, dataWr := 0, markData := 0, entWr := 0, markEnt := 0
    entries := [], work := none, commitWait := false, orphaned := false, byReset := false, ovdTold := false, trigEnt := none, trigTick := 0
    pre := 0, post := 0, preHeld := 0, postDone := 0, drops := 0, slides := 0, dropsTold := 0, slidesTold := 0
    slidTold := false, dueTo := 0, blockedAt := none, hop := 0 }

def Replay.reset : Replay := ⟨0, 0, 0, false, []⟩

def Chan.reset : Chan :=
  { fetched := [], nextFetch := 0, reqs := [], desc := none, asked := 0, got := [], gotAt := 0, written := 0, used := 0, records := 0
    recd := none, failed := none, stopping := false, aborting := false, blocked := false, left := 0, leftCause := 0, ended := none
    dirty := none, backs := [], retries := 0, ring := none, irqDue := none, hop := 0, reached := 0, tagless := false
    startAt := none, stopped := none, eatenAt := none }

def HepState.fresh : HepState :=
  { cfg := [], msix := [], pba := [], tags := [], quarantine := [], nextTag := 0, intx := false, releaseAt := none
    logBit := none, reset := none, perst := false, ltrCount := [], ltrLast := [], ltrWindowAt := 0,
    ltrRiseAt := none, ltrDue := false, ltrSentAt := none, signalled := [], causeAt := none, winAt := 0, winWas := []
    trained := (7, 16) }

/-! ### Encoders and field I/O (chapter 12) -/

/-- An encoder channel beside its registers: the 40-bit position, the extreme reached in the direction held, the direction
(true negative), the reference point with the instant its band was entered, standstill, settling with its end, FAULT and the
wiring conditions detected since it began (cause, input), whether the line frequency is above 2.0 MHz, the causes of doubt present (R352), the
previous index (position, direction) with whether direction and FAULT have been constant since, the instant of the last wiring fault
detected, and the causes that began last with the instant at which they did; the codes of its last sample with that sample's device time, its
angle (none before the first one counted), the consecutive samples up to it whose radius lies outside its limits (R350); and for R340 the
extremes of A, B, A + B and A - B, lowest and highest, over each of the last 64 lines of motion and over the line in progress, with the motion
in it. -/
structure EncChan where
  pos : Nat
  extreme : Nat
  negative : Bool
  ref : Nat
  refAt : Nat
  still : Bool
  settling : Bool
  settleEnd : Nat
  fault : Bool
  wires : List (Nat × Nat)
  fast : Bool
  causes : List Nat
  idxSeen : Bool
  index : Option (Nat × Bool)
  indexClean : Bool
  wireAt : Nat
  newAt : Nat
  newCauses : List Nat
  a : Int
  b : Int
  seenAt : Nat
  theta : Option Nat
  radBad : Nat
  lines : List (List (Int × Int))
  line : List (Int × Int)
  moved : Int
  deriving DecidableEq, Repr

/-- A channel as it stood before an instant (R353): enabled, FAULT, a cause of doubt present, SETTLING. -/
structure EncPast where
  chan : Nat
  before : Nat
  on : Bool
  fault : Bool
  doubt : Bool
  settling : Bool
  deriving DecidableEq, Repr

/-- ENC beside its registers: the channels, what they were before the changes of the last 2^20 samples, oldest first, the positions of each
channel with the device times of the samples from which they stood, newest first, over the same samples (R344, R353), the direction of the
bias current (true towards 5 V) with the instant it last reversed, and the inputs that stood outside 0.3 to 4.7 V then: channel, input, true
at the upper limit (R350). -/
structure EncState where
  chans : List (Nat × EncChan)
  past : List EncPast
  hist : List (Nat × List (Nat × Nat))
  biasUp : Bool
  biasAt : Nat
  rails : List (Nat × Nat × Bool)
  deriving DecidableEq, Repr

/-- What last wrote OUT of a pin (R360): the instant, its rank (0 software, then CLR, SET, TGL, PULSE), and OUT and the pulse before it. -/
structure FioAct where
  at' : Nat
  rank : Nat
  out : Nat
  pulse : Option (Nat × Nat)
  deriving DecidableEq, Repr

/-- A pin of FIO beside its registers: the last accepted active edge, the instant its level or its mode last changed, the pulse
in progress (its end, the level it restores), the instant its present drive began (R361), whether OPEN_LOAD was pushed for that drive, edges
filtered since the last FILTERED, and what last wrote OUT. -/
structure FioPin where
  edgeAt : Option Nat
  levelAt : Nat
  pulse : Option (Nat × Nat)
  driveAt : Nat
  openTold : Bool
  filtered : Nat
  acted : Option FioAct
  deriving DecidableEq, Repr

/-! ### Strikes and event routing (chapter 13) -/

/-- A strike beside its registers: the position at the sample last evaluated, Tf of its lock and the lock's number, the FIRED
count in full, the hop count of its arming, the device time of its last disarm (R372). -/
structure Strike where
  seen : Nat
  tf : Nat
  lock : Nat
  fired : Nat
  hop : Nat
  off : Option Nat
  deriving DecidableEq, Repr

/-- What STP gives CLR of a lock that fixed a tick (R371): late, and the miss result once there is one. -/
structure StrikeLock where
  id : Nat
  late : Bool
  miss : Option Bool
  deriving DecidableEq, Repr

/-- A miss check to come (R371): strike, lock, channel, target, tolerance, Tf. -/
structure MissCheck where
  strike : Nat
  lock : Nat
  chan : Nat
  tgt : Nat
  tol : Nat
  tf : Nat
  deriving DecidableEq, Repr

/-- STP beside its registers. -/
structure StpState where
  strikes : List (Nat × Strike)
  locks : List StrikeLock
  checks : List MissCheck
  nextLock : Nat
  deriving DecidableEq, Repr

/-- A source event that has reached EVR (R374, R378): its source, its hop count, and the channel and task of every enabled channel that
matched it then. -/
structure SourceEvent where
  src : Nat
  hop : Nat
  routes : List (Nat × Nat)
  deriving DecidableEq, Repr

/-- EVR beside its registers: source events that have reached it, the hop count that source events of the act in progress carry, pending
activations and the largest hop count by task, running delay timers (unit, end, hop count), activations lost since the last TASK_LOST; and of
the present cycle, which is the present device time while `cycle` is that time: the words that its first writes of EVR_CH_e replaced (R374),
and what has acted in it (a task's number, or 0x200 for a delay timer's expiry; R379, R382). -/
structure EvrState where
  input : List SourceEvent
  hop : Nat
  pending : List (Nat × (Nat × Nat))
  timers : List (Nat × (Nat × Nat))
  lost : Nat
  cycle : Nat
  before : List (Nat × Word)
  acted : List Nat
  deriving DecidableEq, Repr

def EncChan.reset : EncChan :=
  { pos := 0, extreme := 0, negative := false, ref := 0, refAt := 0, still := false, settling := false, settleEnd := 0
    fault := false, wires := [], fast := false, causes := [], idxSeen := false, index := none, indexClean := true
    wireAt := 0, newAt := 0, newCauses := [], a := 0, b := 0, seenAt := 0, theta := none, radBad := 0, lines := [], line := [], moved := 0 }

def FioPin.reset : FioPin := ⟨none, 0, none, 0, false, 0, none⟩

def Strike.reset : Strike := ⟨0, 0, 0, 0, 0, none⟩

/-! ### Sessions, key, escrow, mailbox, service and security (chapters 14-16) -/

/-- What the management cores run: the boot ROM, firmware, recovery (R454), or nothing any more (R424). -/
inductive Firmware where
  | boot | running | recovery | lost
  deriving DecidableEq, Repr

/-- Where the datagrams of a network session come from and go to (R390): Ethernet port, address, UDP port. -/
structure Peer where
  eth : Nat
  addr : Nat
  port : Nat
  deriving DecidableEq, Repr

/-- An open session (R390-R399): nonce, negotiated minor, source (none in a mailbox slot), the SEQ last answered with its response, the SEQ of a
request in progress, the instant of the last valid request, the instant it opened, whether it has received no request since OPEN, the queue
subscribed with the SEQ and instant of its NOTICEs, ADDR of area 0xE000, an escrow rolled back for idleness that it has not been told of, and the
port's own address that it was opened at (0 in a mailbox slot, R402). -/
structure Session where
  nonce : Nat
  minor : Nat
  peer : Option Peer
  lastSeq : Nat
  lastResp : List Byte
  busy : Option Nat
  lastAt : Nat
  openedAt : Nat
  unused : Bool
  queue : Option Nat
  noticeSeq : Nat
  noticeAt : Option Nat
  addr : Nat
  timedOut : Option Nat
  own : Nat
  deriving DecidableEq, Repr

/-- A claim of the key (R406, R407): session, priority, and the SEQ of its CLAIM while it awaits its answer. -/
structure Claim where
  session : Nat
  prio : Nat
  seq : Option Nat
  deriving DecidableEq, Repr

/-- The key: its holder and priority, the instant its silence is counted from, the claims, the start of the gathering window,
KEY_EPOCH (R406-R409). -/
structure Key where
  holder : Option Nat
  prio : Nat
  heardAt : Nat
  claims : List Claim
  gatherAt : Option Nat
  epoch : Nat
  deriving DecidableEq, Repr

/-- A staged write: index, subindex, ADDR for the passthrough, value (R389, R410). -/
structure StagedWrite where
  index : Nat
  sub : Nat
  addr : Nat
  data : List Byte
  deriving DecidableEq, Repr

/-- A commit under way: the session to answer (none for a restore) with its nonce and SEQ, since when it waits for an apply to land, the columns it
loads and arms, whether their loads have begun (step 2), whether the registers of the set are written (step 4), and CAD_APPLY_CNT at GO once GO
is written (R412). -/
structure Commit where
  session : Option Nat
  nonce : Nat
  seq : Nat
  waitAt : Option Nat
  armed : List Nat
  loading : Bool
  written : Bool
  applies : Option Nat
  deriving DecidableEq, Repr

/-- The escrow (R410-R412): state 0 NONE, 1 OPEN, 2 COMMITTING; the ID last given; its writes in staging order, the accepted
writes and bytes counted, the instant of its last message, the commit. -/
structure Escrow where
  state : Nat
  id : Nat
  writes : List StagedWrite
  count : Nat
  bytes : Nat
  lastAt : Nat
  commit : Option Commit
  deriving DecidableEq, Repr

/-- A mailbox slot: transmit and receive FIFO, the request taken and not yet answered (R400), and how many of the words in the receive
FIFO were put in at which device time, the last (R35). -/
structure Slot where
  tx : List Word
  rx : List Word
  request : Option (List Word)
  rxNew : Nat × Nat
  deriving DecidableEq, Repr

/-- What a header of a firmware image tells (R432): firmware version, SVN, journal version, key slot, digest D. -/
structure ImageInfo where
  version : Nat
  svn : Nat
  journal : Nat
  keySlot : Nat
  digest : List Byte
  deriving DecidableEq, Repr

/-- A live update (R427): where its image lies, what its header tells, the instant its present state began, the core that
ran before the takeover, and its state (R427), which MGT_ROLE shows unless a refused second update has put 5 there (R426). -/
structure Update where
  addr : Nat
  len : Nat
  image : ImageInfo
  since : Nat
  old : Nat
  phase : Nat
  deriving DecidableEq, Repr

/-- Attestation (R436): nonces waiting, the instant the first began, the report last produced, and the
dictionary values at the last commit landing, which M1 measures. -/
structure Attest where
  nonces : List (List Byte)
  since : Nat
  report : List Byte
  values : List (Nat × List Byte)
  deriving DecidableEq, Repr

/-- A fuse burn in progress: word and start; the word programmed, none while unprogrammed (R439); the key hashes of the four key slots and
whether each is revoked (R432, R433). -/
structure Fuses where
  burning : Option (Word × Nat)
  board : Option Word
  keys : List (List Byte)
  revoked : List Bool
  deriving DecidableEq, Repr

/-- A set as the parameter store holds it: its sequence number, what it stores, its CRC-32C (R429). -/
structure Stored (α : Type) where
  seq : Nat
  value : α
  crc : Word
  deriving DecidableEq, Repr

/-- The two copies of a set; none where nothing has been written (R428). -/
structure Copies (α : Type) where
  one : Option (Stored α)
  two : Option (Stored α)
  deriving DecidableEq, Repr

/-- The MRAM's regions that hold two copies (R428): the boot control, preferred flash slot and boot count, and the saved parameters, keyed
256 x index + subindex. -/
structure Mram where
  control : Copies (Nat × Nat)
  saved : Copies (List (Nat × List Byte))
  deriving DecidableEq, Repr

/-- MGT, SEC and the parameter store beside their registers. `dict` holds the RW and RWE values that differ from their
defaults, keyed 256 x index + subindex, the kernel sets' BLOB and STR values among them. `failed` counts self-test
failures by core; `rows` lists the queues whose spare row is in use (R419); `retired` and `lostTellers` are the retirement
records, `mram` the copies of the boot control and of the saved parameters, `bootCount` and `preferred` the boot control in use, `controlBad` whether
no valid copy of it was found at boot, `restore` the outcome of the restore (R428-R430); `again` is the cause for which the next SYS_RST_N enters
recovery again, 0 none (R456); `staging` the recovery staging area (R455), `verifyAt` and
`verifyLen` the start and LEN of its verification; `unreported` the failed boot checks still to be pushed, slot and check (R432). -/
structure MgtState where
  firmware : Firmware
  sessions : List (Nat × Session)
  key : Key
  escrow : Escrow
  slots : List (Nat × Slot)
  dict : List (Nat × List Byte)
  image : ImageInfo
  update : Option Update
  failed : List (Nat × Nat)
  rows : List Nat
  bootCount : Nat
  faultLog : List (List Byte)
  logCount : Nat
  lasting : List (Nat × Nat)
  hepTransient : Nat
  transients : List (Nat × Nat)
  safeCause : Nat
  retired : List Nat
  lostTellers : List Nat
  mram : Mram
  controlBad : Bool
  restore : Nat
  preferred : Nat
  again : Nat
  staging : List (Nat × Byte)
  verifyAt : Nat
  verifyLen : Nat
  unreported : List (Nat × Nat)
  discards : Nat
  attest : Attest
  fuses : Fuses
  cameras : List (Nat × Nat)
  deriving DecidableEq, Repr

def Session.fresh (nonce minor : Nat) (peer : Option Peer) (now : Nat) : Session :=
  { nonce := nonce, minor := minor, peer := peer, lastSeq := 0, lastResp := [], busy := none, lastAt := now, openedAt := now
    unused := true, queue := none, noticeSeq := 0, noticeAt := none, addr := 0, timedOut := none, own := 0 }

def Slot.reset : Slot := ⟨[], [], none, (0, 0)⟩

def Escrow.reset : Escrow := ⟨0, 0, [], 0, 0, 0, none⟩

def Key.reset : Key := ⟨none, 0, 0, [], none, 0⟩

def Fuses.reset : Fuses :=
  ⟨none, none, (List.range 4).map fun j => (List.range 32).map (Config.keyHash j), (List.range 4).map Config.revoked⟩

def ImageInfo.reset : ImageInfo := ⟨0, 0, 0, 0, List.replicate 32 0⟩

def MgtState.reset : MgtState :=
  { firmware := .boot, sessions := [], key := Key.reset, escrow := Escrow.reset, slots := [], dict := [], image := ImageInfo.reset
    update := none, failed := [], rows := [], bootCount := 0, faultLog := [], logCount := 0, lasting := [], hepTransient := 0, transients := []
    safeCause := 0, retired := [], lostTellers := [], mram := ⟨⟨none, none⟩, ⟨none, none⟩⟩, controlBad := false, restore := 0, preferred := 0, again := 0
    staging := [], verifyAt := 0, verifyLen := 0, unreported := [], discards := 0, attest := ⟨[], 0, [], []⟩, fuses := Fuses.reset, cameras := [] }

/-! ### The whole state -/

/-- The device but the vault and the queue of commands: device time and its fraction (R58), registers, in-force copies of the
staged ones and the copies each coming tick runs under (R74, R182), instants of rates, transmissions, the counter behind the
open values, low-word latches (R33), whether SYS_RST_N is low, and each block's state. -/
structure Dev where
  time : Nat
  frac : BitVec 40
  regs : List (Nat × Word)
  force : List (Nat × Word)
  history : List (Nat × List (Nat × Word))
  latch : List (Nat × Word)
  marks : List (Mark × Nat)
  out : List Out
  fresh : Nat
  low : Bool
  cyc : RegCycle
  ntq : NtqState
  aud : AudState
  cad : CadState
  ports : List (Nat × Port)
  cht : ChtState
  clr : ClrState
  vlt : VltState
  dma : List (Nat × Chan)
  hep : HepState
  evr : EvrState
  enc : EncState
  fio : List (Nat × FioPin)
  stp : StpState
  mgt : MgtState
  deriving DecidableEq, Repr

def CadState.reset : CadState :=
  { startAt := none, lastTick := none, lastTime := 0, planned := [], scheduledTo := 0, sentTo := [], apply := none, drainAt := none
    discAt := 0, exposures := [], budget := [], busRxAt := 0, busRxTick := 0, busStopRx := false, busEdge := none
    busSentTo := 0, busStopDue := none, busLost := false, discTold := false, held := false, refused := false }

def VltState.reset : VltState :=
  { writes := [], rings := [], commits := [], replay := [], copies := [], poisoned := [], scrubAt := 0, scrubNext := 0
    lastTurn := none }

/-- The device right after the release of SYS_RST_N (R6, R450): registers at their reset values, nothing in flight. -/
def Dev.reset : Dev :=
  { time := 0, frac := 0, regs := [], force := [], history := [], latch := [], marks := [], out := [], fresh := 0, low := false
    cyc := ⟨0, [], [], []⟩, ntq := ⟨[], [], [], []⟩, aud := ⟨none, none, false, 0, 0⟩, cad := CadState.reset, ports := [], cht := ⟨4096, [], [], []⟩, clr := ⟨64, [], [], 1⟩
    vlt := VltState.reset, dma := [], hep := HepState.fresh, evr := ⟨[], 0, [], [], 0, 0, [], []⟩, enc := ⟨[], [], [], false, 0, []⟩, fio := []
    stp := ⟨[], [], [], 0⟩, mgt := MgtState.reset }

/-- The state: the device, the vault (address and byte pairs in rising address order, none with byte 0), and the commands
waiting, first in first out. -/
structure State where
  dev : Dev
  vault : List Host.Cell
  pending : List Instr
  deriving DecidableEq, Repr

/-- The state right after reset: nothing in the vault, no command waiting. -/
def State.reset : State := ⟨Dev.reset, [], []⟩

end Sys2Proof.Machine
end

