-- ==== Sys2Proof/Machine/Ops.lean ====
section
/-! DEFINITION. The named operations every block shares: registers and their fields, counters, flags, notices, events,
rates, transmissions and device time. -/

namespace Sys2Proof.Machine

/-- Lengths of time in dt units of 0.25 ns (R6). -/
def ns (n : Nat) : Nat := n * 4
def us (n : Nat) : Nat := n * 4000
def ms (n : Nat) : Nat := n * 4000000

/-- Block IDs (R12). -/
def idDCT : Nat := 0x01
def idHEP : Nat := 0x02
def idEVR : Nat := 0x03
def idCAD : Nat := 0x04
def idSTP : Nat := 0x05
def idENC : Nat := 0x06
def idFIO : Nat := 0x07
def idAVP (p : Nat) : Nat := 0x10 + p
def idLPH : Nat := 0x20
def idCHT : Nat := 0x30
def idCLR : Nat := 0x40
def idVLT : Nat := 0x50
def idDMA : Nat := 0x60
def idNTQ : Nat := 0x70
def idMGT : Nat := 0x80
def idNET : Nat := 0x90
def idAUD : Nat := 0xA0
def idSEC : Nat := 0xB0

/-- The block IDs that exist (R12); no other appears in a notice item, a fault code or a ledger entry (R13). -/
def isBlock (b : Nat) : Bool :=
  b ≤ 7 || (0x10 ≤ b && b ≤ 0x20) || [idCHT, idCLR, idVLT, idDMA, idNTQ, idMGT, idNET, idAUD, idSEC].contains b

/-- The SNAP copies of a page, which a host reset leaves as they are until the next audit (R26, R57). -/
def isSnap (a : Nat) : Bool := 0xC00 ≤ a % 0x1000 && a % 0x1000 < 0xE00

/-- A 32-bit word of a number. -/
def word (n : Nat) : Word := BitVec.ofNat 32 n

/-- Bit `i` of a number. -/
def bit (n i : Nat) : Bool := n.testBit i

/-- Bits `lo + w - 1 : lo` of a number. -/
def slice (n lo w : Nat) : Nat := (n >>> lo) % 2 ^ w

/-- A number's bit as 0 or 1. -/
def ofBool (b : Bool) : Nat := if b then 1 else 0

/-- A signed reading of a `w`-bit number. -/
def signed (w n : Nat) : Int := if n % 2 ^ w < 2 ^ (w - 1) then (n % 2 ^ w : Nat) else ((n % 2 ^ w : Nat) : Int) - (2 ^ w : Nat)

/-- A `w`-bit number of a signed value, modulo 2^w. -/
def unsigned (w : Nat) (i : Int) : Nat := (i % ((2 ^ w : Nat) : Int)).toNat

end Sys2Proof.Machine

/-- The value of a field in a register's word. -/
def Sys2Proof.Bits.of (f : Sys2Proof.Bits) (w : Sys2Proof.Word) : Nat := Sys2Proof.Machine.slice w.toNat f.lo f.w

namespace Sys2Proof.Machine
namespace Dev

/-- Applying an operation where a condition holds. -/
def when (d : Dev) (c : Bool) (f : Dev → Dev) : Dev := if c then f d else d

/-- Applying an operation for every element of a list, in order. -/
def forEach {α : Type} (d : Dev) (l : List α) (f : α → Dev → Dev) : Dev := l.foldl (fun d a => f a d) d

/-! ### Registers -/

/-- The stored word of a register. -/
def reg (d : Dev) (a : Nat) : Word := Tab.get regReset d.regs a

/-- Storing a register's word. -/
def setReg (d : Dev) (a : Nat) (v : Word) : Dev := { d with regs := Tab.set regReset d.regs a v }

/-- Reading a field. -/
def get (d : Dev) (f : Bits) : Nat := slice (d.reg f.off).toNat f.lo f.w

/-- Writing a field, the other bits of its register unchanged. -/
def put (d : Dev) (f : Bits) (n : Nat) : Dev :=
  let old := (d.reg f.off).toNat
  let m := (2 ^ f.w - 1) <<< f.lo
  d.setReg f.off (word ((old - (old &&& m)) + ((n % 2 ^ f.w) <<< f.lo)))

/-- Whether a field is non-zero. -/
def is (d : Dev) (f : Bits) : Bool := d.get f != 0

/-- What has met registers in the present cycle: of an earlier cycle nothing is left (R35). -/
def cycNow (d : Dev) : RegCycle := if d.cyc.at' = d.time then d.cyc else ⟨d.time, [], [], []⟩

/-- Hardware sets a bit of a flag register, which stand at page offsets 0x800 to 0x8FF (R26, R35). -/
def noteSet (d : Dev) (f : Bits) : Dev :=
  { d with cyc := { d.cycNow with sets := if f.off % 0x1000 / 0x100 = 8 then (f.off, f.lo) :: d.cycNow.sets else d.cycNow.sets } }

/-- The bits of a register that hardware has set in the present cycle, as a word. -/
def setsOf (d : Dev) (a : Nat) : Word := d.cycNow.sets.foldl (fun w e => if e.1 = a then w ||| 1#32 <<< e.2 else w) 0

/-- Whether software has written bits of a field in the present cycle. -/
def softWrote (d : Dev) (f : Bits) : Bool := d.cycNow.wrote.any fun e => e.1 = f.off && f.of e.2 != 0

/-- An update by hardware of an RW field: a value that software has written in the same cycle is kept (R35). -/
def hwPut (d : Dev) (f : Bits) (n : Nat) : Dev := if d.softWrote f then d else d.put f n

/-- Setting and clearing a one-bit field. -/
def set1 (d : Dev) (f : Bits) : Dev := (d.noteSet f).put f 1
def unset (d : Dev) (f : Bits) : Dev := d.put f 0

/-- A 64-bit register pair: low word at `a`, high word at `a + 4`. -/
def get64 (d : Dev) (a : Nat) : Nat := (d.reg (a + 4) ++ d.reg a).toNat
def put64 (d : Dev) (a n : Nat) : Dev := (d.setReg a (word n)).setReg (a + 4) (BitVec.extractLsb' 32 32 (BitVec.ofNat 64 n))

/-- What a counter held when the present cycle began, kept where it counts (R35). -/
def counterWas (d : Dev) (a : Nat) : Nat := ((d.cycNow.was.find? (·.1 = a)).map (·.2)).getD (d.get64 a)
def noteWas (d : Dev) (a : Nat) : Dev :=
  { d with cyc := { d.cycNow with was := if d.cycNow.was.any (·.1 = a) then d.cycNow.was else (a, d.get64 a) :: d.cycNow.was } }

/-- A counter counts modulo 2^64 (R30). -/
def countBy (d : Dev) (a k : Nat) : Dev := (d.noteWas a).put64 a (d.get64 a + k)
def count (d : Dev) (a : Nat) : Dev := d.countBy a 1

/-- Setting a bit of a register of bits. -/
def setBit (d : Dev) (a i : Nat) : Dev := d.set1 ⟨a, i, 1⟩
def clrBit (d : Dev) (a i : Nat) : Dev := d.put ⟨a, i, 1⟩ 0
def bitOf (d : Dev) (a i : Nat) : Bool := (d.reg a).getLsbD i

/-! ### Rates, open values, transmissions -/

/-- The instant a mark was last set. -/
def markAt (d : Dev) (m : Mark) : Option Nat := (d.marks.find? (·.1 == m)).map (·.2)

/-- Setting a mark to now, and removing it. -/
def stamp (d : Dev) (m : Mark) : Dev := { d with marks := (m, d.time) :: d.marks.filter (·.1 != m) }
def unmark (d : Dev) (m : Mark) : Dev := { d with marks := d.marks.filter (·.1 != m) }

/-- Whether a period has passed since a mark was set; true where it never was. -/
def since (d : Dev) (m : Mark) (period : Nat) : Bool :=
  match d.markAt m with
  | none => true
  | some t => t + period ≤ d.time

/-- An operation done at most once per period. -/
def atMost (d : Dev) (m : Mark) (period : Nat) (f : Dev → Dev) : Dev :=
  d.when (d.since m period) fun d => (f d).stamp m

/-- A transmission (the last of `out`). -/
def emit (d : Dev) (o : Out) : Dev := { d with out := d.out ++ [o] }

/-- Drawing a fresh open value: the counter moves on. -/
def draw (d : Dev) : Dev := { d with fresh := d.fresh + 1 }

/-! ### Parts of the state, one update each -/

def setNtq (d : Dev) (f : NtqState → NtqState) : Dev := { d with ntq := f d.ntq }
def setAud (d : Dev) (f : AudState → AudState) : Dev := { d with aud := f d.aud }
def setCad (d : Dev) (f : CadState → CadState) : Dev := { d with cad := f d.cad }
def setClr (d : Dev) (f : ClrState → ClrState) : Dev := { d with clr := f d.clr }
def setVlt (d : Dev) (f : VltState → VltState) : Dev := { d with vlt := f d.vlt }
def setHep (d : Dev) (f : HepState → HepState) : Dev := { d with hep := f d.hep }
def setEvr (d : Dev) (f : EvrState → EvrState) : Dev := { d with evr := f d.evr }
def setEnc (d : Dev) (f : EncState → EncState) : Dev := { d with enc := f d.enc }
def setStp (d : Dev) (f : StpState → StpState) : Dev := { d with stp := f d.stp }
def setMgt (d : Dev) (f : MgtState → MgtState) : Dev := { d with mgt := f d.mgt }

/-! ### Notices and events -/

/-- A block pushes a notice item into its input queue with the device time of detection (R47). -/
def notice (d : Dev) (c : Cls) (block code arg : Nat) : Dev :=
  { d with ntq := { d.ntq with input := d.ntq.input ++ [⟨c, block, code, word arg, d.time⟩] } }

/-- EVR in the present cycle: what it keeps of an earlier one is gone (R374, R379). -/
def evrNow (d : Dev) : EvrState := if d.evr.cycle = d.time then d.evr else { d.evr with cycle := d.time, before := [], acted := [] }

/-- EVR_CH_e as it stood at the start of the present cycle (R374, R382). -/
def channelWord (d : Dev) (e : Nat) : Word := ((d.evrNow.before.find? (·.1 = e)).map (·.2)).getD (d.reg (EVR_CH.addr e))

/-- The enabled channels of a source in ascending order, each with its task (R374). -/
def routesOf (d : Dev) (src : Nat) : List (Nat × Nat) :=
  ((List.range 128).filter fun e =>
      (EVR_CH.EN e).of (d.channelWord e) = 1 && src != 0 && (EVR_CH.SRC e).of (d.channelWord e) = src).map
    fun e => (e, (EVR_CH.TASK e).of (d.channelWord e))

/-- A source event as it reaches EVR now; it enters with a hop count, `fire` with that of the action in progress (R377, R378). -/
def sourceEvent (d : Dev) (src hop : Nat) : SourceEvent := ⟨src, hop, d.routesOf src⟩
def fireHop (d : Dev) (src hop : Nat) : Dev := { d with evr := { d.evr with input := d.evr.input ++ [d.sourceEvent src hop] } }
def fire (d : Dev) (src : Nat) : Dev := d.fireHop src d.evr.hop

/-! ### Modes -/

/-- The mode in force (R85), and the mode whose behaviour applies: BASE in SAFE (R86). -/
def mode (d : Dev) : Nat := d.get (DCT_MODE.CUR)
def actMode (d : Dev) : Nat := if d.mode = 7 then d.get DCT_MODE.BASE else d.mode

/-- The modes in which exposures are commanded (R86). -/
def exposing (d : Dev) : Bool := 1 ≤ d.actMode && d.actMode ≤ 4

/-- The capture modes of R83 and R84. DESIGN CHOICE: the spec uses the term without defining it; here they are all the modes in which R86
has the cadence running, REPLAY and DRAIN among them (log entry 77). -/
def capturing (d : Dev) : Bool := 1 ≤ d.actMode && d.actMode ≤ 6

/-! ### Device time -/

/-- The audit instant: the first TIME-domain cycle at least 200 ns after the request (R55). -/
def auditInstant (d : Dev) : Option Nat :=
  match d.aud.since, d.aud.instant with
  | some t, none => if t + ns 200 ≤ d.time then some d.time else none
  | _, i => i

/-- One TIME-domain cycle (R58): the fraction accumulator takes CAD_TRIM.RATE x 2; a carry makes the advance 3, a borrow 1,
and 2 otherwise. An audit that waits for its instant finds it at the first cycle late enough (R55). -/
def tickTime (d : Dev) : Dev :=
  let a := (d.frac.toNat : Int) + 2 * signed 32 (d.reg CAD_TRIM.addr).toNat
  let step := if a < 0 then 1 else if (2 ^ 40 : Int) ≤ a then 3 else 2
  let d := { d with frac := BitVec.ofInt 40 a, time := d.time + step }
  { d with aud := { d.aud with instant := d.auditInstant } }

end Dev
end Sys2Proof.Machine
end

