-- ==== Sys2Proof/Machine/Operands.lean ====
section
/-! DEFINITION. Operand forms: bytes and fields of packets and entries, the two CRCs, and bit packing. -/

namespace Sys2Proof.Machine

/-- A number as `k` little-endian bytes (R4). -/
def le : Nat → Nat → List Byte
  | 0, _ => []
  | k + 1, n => BitVec.ofNat 8 n :: le k (n / 256)

/-- Bytes as a little-endian number. -/
def fromLe : List Byte → Nat
  | [] => 0
  | b :: t => b.toNat + 256 * fromLe t

/-- `k` bytes of a list from `i` as a little-endian number. -/
def field (l : List Byte) (i k : Nat) : Nat := fromLe ((l.drop i).take k)

/-- CRC-32C over bytes, from a running value (R126): reflected polynomial 0x82F6_3B78. -/
def crc32cRun (c : BitVec 32) (l : List Byte) : BitVec 32 :=
  l.foldl (fun c b => (List.range 8).foldl
    (fun c _ => if c.getLsbD 0 then (c >>> 1) ^^^ 0x82F63B78#32 else c >>> 1) (c ^^^ b.setWidth 32)) c

/-- The CRC-32C of a byte string: initial value and final XOR 0xFFFF_FFFF (R126). -/
def crc32c (l : List Byte) : BitVec 32 := crc32cRun 0xFFFFFFFF#32 l ^^^ 0xFFFFFFFF#32

/-- CRC-16/CCITT-FALSE over bits, most significant bit of each byte first, bytes little-endian (R79). -/
def crc16 (l : List Byte) : BitVec 16 :=
  l.foldl (fun c b => (List.range 8).foldl
    (fun c _ => if c.getLsbD 15 then (c <<< 1) ^^^ 0x1021#16 else c <<< 1) (c ^^^ BitVec.shiftLeft (b.setWidth 16) 8)) 0xFFFF#16

/-- Values packed least significant bit first into bytes, `w` bits each, with zero bits to a byte boundary (R133). -/
def packBits (w : Nat) (vals : List Nat) : List Byte :=
  let n := vals.foldr (fun v acc => v % 2 ^ w + acc * 2 ^ w) 0
  le ((vals.length * w + 7) / 8) n

/-- Value `i` of `w` bits of packed bytes. -/
def unpackAt (w : Nat) (l : List Byte) (i : Nat) : Nat :=
  slice (field l (i * w / 8) ((w + 14) / 8)) (i * w % 8) w

/-- Bits per pixel of a FORMAT code, and its largest WIDTH (R133). -/
def bitsOf (f : Nat) : Nat := match f with | 0 => 8 | 1 => 10 | 2 => 12 | 3 => 14 | _ => 16
def maxWidth (f : Nat) : Nat := match f with | 0 => 16384 | 1 => 13107 | 2 => 10922 | 3 => 9362 | _ => 8192

/-- The bytes of a line (R133). -/
def lineBytes (width format : Nat) : Nat := (width * bitsOf format + 7) / 8

/-- A packet of the downlink: header, body, CRC (R125). -/
def mkPacket (typ seq tag : Nat) (body : List Byte) : List Byte :=
  let h := le 1 typ ++ le 1 seq ++ le 2 (body.length + 12) ++ le 4 tag ++ body
  h ++ le 4 (crc32c h).toNat

/-- What a receiver does with an uplink packet (R127): it discards it and counts a CRC or block error, it discards it and
counts it malformed, or it takes it. -/
inductive RxVerdict where
  | crc | bad | taken
  deriving DecidableEq, Repr

end Sys2Proof.Machine

namespace Sys2Proof
open Machine

/-- The tests of R127 in their order; `lenOk` and `bodyOk` are the type's own length and body rules. -/
def RxPacket.verdict (k : RxPacket) (typ : Nat) (lenOk : Nat → Bool) (bodyOk : Bool) : RxVerdict :=
  let n := field k.bytes 2 2
  if !k.blocksOk then .crc
  else if n < 12 || 16396 < n || !k.termOk || k.bytes.length != n then .bad
  else if field k.bytes (n - 4) 4 != (crc32c (k.bytes.take (n - 4))).toNat then .crc
  else if field k.bytes 0 1 != typ || !lenOk n || !bodyOk then .bad
  else .taken

/-- The TAG, the SEQ and the body of a packet (R125). -/
def RxPacket.tag (k : RxPacket) : Nat := field k.bytes 4 4
def RxPacket.seq (k : RxPacket) : Nat := field k.bytes 1 1
def RxPacket.body (k : RxPacket) : List Byte := (k.bytes.drop 8).take (k.bytes.length - 12)

end Sys2Proof
end

