-- ==== Sys2Proof/Machine/Columns.lean ====
section
/-! DEFINITION. Values in force, gangs, pools of tellers, teller stores and the microword's fields (chapters 03, 05, 06). -/

namespace Sys2Proof.Machine

/-- Key of a column's active bank beside the staged registers' in-force values: above every BAR0 offset. -/
def bankKey (k : Nat) : Nat := 0x200_0000 + k

/-- Key of the logical rows that were served by no teller when column `k` last switched, of the column itself (0), its western (1) and its
eastern neighbour (2): a word with a bit per row. -/
def rowsKey (k j : Nat) : Nat := 0x200_0010 + 4 * k + j

/-! ### Values in force (R74, R76) -/

/-- The value in force of a staged register, by the staged register's offset. -/
def Dev.force1 (d : Dev) (a : Nat) : Word := Tab.get regReset d.force a

/-- A field of a value in force. -/
def Dev.forceGet (d : Dev) (f : Bits) : Nat := slice (d.force1 f.off).toNat f.lo f.w

/-- The table of values in force when tick `n` began. -/
def Dev.forceTab (d : Dev) (n : Nat) : Tab Word :=
  match d.history.find? (fun h => n < h.1) with
  | some h => h.2
  | none => Tab.set regReset d.force DCT_MODE.addr (word d.actMode)

/-- A field's value in force when tick `n` began. -/
def fieldIn (t : Tab Word) (f : Bits) : Nat := slice (Tab.get regReset t f.off).toNat f.lo f.w

/-- The mode in force when tick `n` began. -/
def Dev.modeAt (d : Dev) (n : Nat) : Nat := (Tab.get regReset (d.forceTab n) DCT_MODE.addr).toNat

/-- Recording what was in force before tick `n`. -/
def Dev.pushHistory (d : Dev) (n : Nat) : Dev :=
  { d with history := d.history ++ [(n, Tab.set regReset d.force DCT_MODE.addr (word d.actMode))] }

/-! ### Gangs (R157) -/

/-- The gang head of port `p` under the SIZE codes `sz`, settled in ascending port order. -/
def headBy (sz : Nat → Nat) (p : Nat) : Nat :=
  if sz (p - p % 4) = 2 then p - p % 4 else if sz (p - p % 2) = 1 then p - p % 2 else p

/-- The number of ports of the gang a head stands for. -/
def sizeBy (sz : Nat → Nat) (h : Nat) : Nat :=
  if sz h = 2 && h % 4 = 0 then 4 else if sz h = 1 && h % 2 = 0 then 2 else 1

/-- The gang in force of a port. -/
def Dev.headOf (d : Dev) (p : Nat) : Nat := headBy (fun q => d.forceGet (AVP_GANG_CFG.SIZE q)) p
def Dev.gangSize (d : Dev) (h : Nat) : Nat := sizeBy (fun q => d.forceGet (AVP_GANG_CFG.SIZE q)) h
def Dev.gang (d : Dev) (h : Nat) : List Nat := (List.range (d.gangSize h)).map (h + ·)

/-- The gang that the next apply will bring into force (R180, R181). -/
def Dev.stagedHead (d : Dev) (p : Nat) : Nat := headBy (fun q => d.get (AVP_GANG_CFG.SIZE q)) p
def Dev.stagedGang (d : Dev) (h : Nat) : List Nat :=
  (List.range (sizeBy (fun q => d.get (AVP_GANG_CFG.SIZE q)) h)).map (h + ·)

/-! ### Ports, columns, tellers -/

def Dev.port (d : Dev) (p : Nat) : Port := Tab.get (fun _ => Port.reset) d.ports p
def Dev.setPort (d : Dev) (p : Nat) (f : Port → Port) : Dev :=
  { d with ports := Tab.upd (fun _ => Port.reset) d.ports p f }
def Dev.setPk (d : Dev) (p : Nat) (f : Packets → Packets) : Dev := d.setPort p fun q => { q with pk := f q.pk }
def Dev.setLink (d : Dev) (p : Nat) (f : Link → Link) : Dev := d.setPort p fun q => { q with link := f q.link }
def Dev.setRng (d : Dev) (p : Nat) (f : Ranging → Ranging) : Dev := d.setPort p fun q => { q with rng := f q.rng }
def Dev.column (d : Dev) (k : Nat) : Column := Tab.get (fun _ => Column.reset) d.cht.columns k
def Dev.setColumn (d : Dev) (k : Nat) (f : Column → Column) : Dev :=
  { d with cht := { d.cht with columns := Tab.upd (fun _ => Column.reset) d.cht.columns k f } }
def Dev.teller (d : Dev) (t : Nat) : Teller := Tab.get (fun _ => Teller.reset) d.cht.tellers t
def Dev.setTeller (d : Dev) (t : Nat) (f : Teller → Teller) : Dev :=
  { d with cht := { d.cht with tellers := Tab.upd (fun _ => Teller.reset) d.cht.tellers t f } }

/-- The state of a port (R115). -/
def Dev.portState (d : Dev) (p : Nat) : Nat := d.get (AVP_PORT_STAT.STATE p)

/-- A port that is UP or DEGRADED. -/
def Dev.portUp (d : Dev) (p : Nat) : Bool := d.portState p = 5 || d.portState p = 7

/-- The teller that serves logical row `r` of column `k`: the spare where CHT_SPARE names the row, none where the row's teller or the spare
that serves it is retired (R185, R186). -/
def Dev.tellerAt (d : Dev) (k r : Nat) : Option Nat :=
  let t := if d.get (CHT_SPARE.ROW k) = r then 33 * k + 32 else 33 * k + r
  if d.is (CHT_T_CTL.RETIRE t) then none else some t

/-- The tellers of the first `n` rows of a column in logical row order, the rows of `left` left out of the order (R164, R186). -/
def Dev.rows (d : Dev) (k n left : Nat) : List Nat :=
  (((List.range 32).filter fun r => !bit left r).take n).filterMap (d.tellerAt k)

/-- The logical rows of a column that no teller serves, as bits. -/
def Dev.rowsLost (d : Dev) (k : Nat) : Nat := (((List.range 32).filter fun r => (d.tellerAt k r).isNone).map (2 ^ ·)).sum

/-- The tellers of a column in service (R180): logical rows 0 to 31 that a teller serves. -/
def Dev.inService (d : Dev) (k : Nat) : Nat := (d.rows k 32 0).length

/-- The rows left out of the order in columns k, k - 1 and k + 1, as a configuration armed now would find them. -/
def Dev.leftNow (d : Dev) (k j : Nat) : Nat := d.rowsLost (match j with | 0 => k | 1 => k - 1 | _ => k + 1)

/-- The pool of column `k` of a gang of `size` with the head's CHT_ASSIGN fields (R164, R167). A row retired before the switch is left out of
the order, so that NROW rows follow; a row retired since leaves the pool a teller short (R186, DEDUCED: log entry 87). DESIGN CHOICE: a
lender gives "the same rows" as R164 has it, the borrower's NROW rows, whatever NROW its own CHT_ASSIGN holds (log entry 101). -/
def Dev.poolOf (d : Dev) (k size nrow borrow : Nat) (left : Nat → Nat) : List Nat :=
  d.rows k nrow (left 0)
    ++ (if size = 1 && bit borrow 0 && 0 < k then d.rows (k - 1) nrow (left 1) else [])
    ++ (if size = 1 && bit borrow 1 && k < 15 then d.rows (k + 1) nrow (left 2) else [])

/-- The pool of column `k` under the values in force, and the column whose pool a teller serves: that of the neighbour which borrows it, else
its own (R167). -/
def Dev.poolNow (d : Dev) (k : Nat) : List Nat :=
  let h := d.headOf k
  d.poolOf k (d.gangSize h) (d.forceGet (CHT_ASSIGN.NROW h)) (d.forceGet (CHT_ASSIGN.BORROW h)) fun j => (d.force1 (rowsKey k j)).toNat
def Dev.servedColumn (d : Dev) (t : Nat) : Nat :=
  let c := t / 33
  if d.forceGet (CHT_ASSIGN.LENDER (d.headOf c)) = 1 then (([c - 1, c + 1].filter (· < 16)).find? fun k => (d.poolNow k).contains t).getD c else c

/-- A word of a teller's store by window offset / 2 (R163). -/
def Dev.storeAt (d : Dev) (t i : Nat) : Nat :=
  (Tab.get (fun _ => (0 : BitVec 16)) (Tab.get (fun _ => []) d.cht.stores t) i).toNat

/-- Writing a word of a teller's store. -/
def Dev.storeSet (d : Dev) (t i v : Nat) : Dev :=
  let s := Tab.get (fun _ => ([] : TellerStore)) d.cht.stores t
  let s := Tab.set (fun _ => (0 : BitVec 16)) s i (BitVec.ofNat 16 v)
  { d with cht := { d.cht with stores := Tab.set (fun _ => []) d.cht.stores t s } }

/-- Coefficient word `w`, lookup entry `i` of bank `b`, microword `k` of bank `b` of a teller (R163). -/
def Dev.coefWord (d : Dev) (t w : Nat) : Nat := d.storeAt t (0x6000 + w)
def Dev.lookup (d : Dev) (t b i : Nat) : Nat := d.storeAt t (0xA000 + b * 0x1000 + i)
def Dev.microword (d : Dev) (t b k : Nat) : Nat :=
  let a := 0xC000 + b * 0x200 + 8 * k
  (List.range 8).foldr (fun i acc => d.storeAt t (a + i) + acc * 2 ^ 16) 0

/-! ### The microword (R171) -/

namespace Mw
def ends (m : Nat) : Bool := bit m 127
def cond (m : Nat) : Nat := slice m 124 3
def jump (m : Nat) : Nat := slice m 118 6
def op (m : Nat) : Nat := slice m 112 6
def sa (m : Nat) : Nat := slice m 107 5
def sb (m : Nat) : Nat := slice m 102 5
def dst (m : Nat) : Nat := slice m 97 5
def sh (m : Nat) : Nat := slice m 92 5
def sat (m : Nat) : Bool := bit m 91
def pred (m : Nat) : Nat := slice m 89 2
def mac (m : Nat) : Nat := slice m 87 2
def acs (m : Nat) : Nat := slice m 85 2
def cmp (m : Nat) : Nat := slice m 82 3
def lut (m : Nat) : Nat := slice m 80 2
def ls (m : Nat) : Nat := slice m 77 3
def lslot (m : Nat) : Nat := slice m 74 3
def cf (m : Nat) : Nat := slice m 72 2
def win (m : Nat) : Nat := slice m 70 2
def stat (m : Nat) : Nat := slice m 68 2
def cen (m : Nat) : Nat := slice m 66 2
def mint (m : Nat) : Nat := slice m 64 2
def out (m : Nat) : Nat := slice m 62 2
def coff (m : Nat) : Nat := slice m 48 14
def imm (m : Nat) : Nat := slice m 32 16
def lcnt (m : Nat) : Nat := slice m 24 8
def lutSh (m : Nat) : Nat := slice m 20 4

/-- The words that may follow word `k`: the following word unless COND is "always", the JUMP target unless COND is "never";
after an END the target or ENTRY (R175, R180). -/
def succ (m k : Nat) : List Nat :=
  (if cond m = 0 then [] else [jump m]) ++ (if ends m || cond m = 1 then [] else [k + 1])

end Mw

/-- The microwords reachable from ENTRY (R180). -/
def reachable (word : Nat → Nat) (entry : Nat) : List Nat :=
  (List.range 64).foldl (fun seen _ =>
    seen.foldl (fun acc k => (Mw.succ (word k) k).foldl (fun acc j => if j < 64 && !acc.contains j then acc ++ [j] else acc) acc) seen)
    [entry]

/-- The streams a recipe's reachable words feed (R169, R214). -/
def recipeStreams (word : Nat → Nat) (entry : Nat) : List Stream :=
  let ms := (reachable word entry).map word
  (if ms.any (fun m => Mw.out m = 1) then [.a] else []) ++ (if ms.any (fun m => Mw.mint m = 1 || Mw.mint m = 2) then [.mint] else [])
    ++ (if ms.any (fun m => Mw.cen m = 1 || Mw.cen m = 2) then [.tally] else []) ++ (if ms.any (fun m => Mw.out m = 2) then [.b] else [])
    ++ (if ms.any (fun m => Mw.stat m = 1 || Mw.stat m = 2) then [.stat] else [])

/-- The streams of a basic kernel set (R198, R214). -/
def kernelStreams (s : KernelSet) : List Stream :=
  (if bit s.outputs 0 then [.a] else []) ++ (if bit s.outputs 1 then [.mint] else []) ++ (if bit s.outputs 2 then [.tally] else [])
    ++ (if bit s.outputs 3 then [.b] else []) ++ (if bit s.outputs 4 then [.stat] else [])

/-! ### Configurations (R180, R182, R227) -/

/-- The configuration of column `k`, of the gang headed by `h`, under the values in force of a table: the head's, in every field (R17, R180);
the bank and the tellers are the column's own. -/
def Dev.configIn (d : Dev) (t : Tab Word) (k h size : Nat) (ker : Option KernelSet) : ColConfig :=
  { mode := fieldIn t (CHT_ASSIGN.MODE h), ctxB := fieldIn t (CHT_RECIPE.CTXB h), ctxA := fieldIn t (CHT_RECIPE.CTXA h)
    entry := fieldIn t (CHT_RECIPE.ENTRY h), clrFrame := fieldIn t (CHT_RECIPE.CLR_FRAME h) = 1
    aFmt := fieldIn t (CHT_RECIPE.A_FMT h), bFmt := fieldIn t (CHT_RECIPE.B_FMT h)
    statSh := fieldIn t (CHT_RECIPE.STAT_SH h), winSh := fieldIn t (CHT_RECIPE.WIN_SH h)
    streamBase := fieldIn t (CHT_STREAM.BASE h), streamLen := fieldIn t (CHT_STREAM.SLEN h), streamOn := fieldIn t (CHT_STREAM.EN h) = 1
    ssrc := fieldIn t (CHT_SSRC_LO.ADDR h) * 64 + fieldIn t (CHT_SSRC_HI.ADDR h) * 2 ^ 32, pitch := fieldIn t (CHT_SSRC_HI.PITCH h) * 64
    satLevel := fieldIn t (CHT_LIMIT.SAT_LEVEL h), stepLimit := fieldIn t (CHT_LIMIT.STEP_LIMIT h)
    bank := (Tab.get (fun _ => (0 : Word)) t (bankKey k)).toNat
    pool := d.poolOf k size (fieldIn t (CHT_ASSIGN.NROW h)) (fieldIn t (CHT_ASSIGN.BORROW h))
      fun j => (Tab.get (fun _ => (0 : Word)) t (rowsKey k j)).toNat
    kernel := ker }

/-- The configuration of port `p`'s column for a frame of tick `n` (R182). -/
def Dev.configAt (d : Dev) (p n : Nat) : ColConfig :=
  let h := d.headOf p
  let c := d.column p
  let ker := match c.switchTick with
    | some a => if n < a then c.oldKernel else c.kernel
    | none => c.kernel
  d.configIn (d.forceTab n) p h (d.gangSize h) ker

/-- Whether a column is idle for a frame of tick `n`: MODE 0, or its rows lent (R161). -/
def Dev.idleColumn (d : Dev) (p n : Nat) : Bool :=
  let t := d.forceTab n
  fieldIn t (CHT_ASSIGN.MODE (d.headOf p)) = 0 || fieldIn t (CHT_ASSIGN.LENDER (d.headOf p)) = 1

/-- The streams a configuration yields for a frame (R214). -/
def Dev.streamsOf (d : Dev) (c : ColConfig) : List Stream :=
  match c.kernel with
  | some k => kernelStreams k
  | none =>
    match c.pool with
    | t :: _ => recipeStreams (d.microword t c.bank) c.entry
    | [] => []

/-! ### Rings and bindings (R253, R254, R260) -/

def Dev.ring (d : Dev) (r : Nat) : Ring := Tab.get (fun _ => Ring.reset) d.vlt.rings r
def Dev.setRing (d : Dev) (r : Nat) (f : Ring → Ring) : Dev :=
  { d with vlt := { d.vlt with rings := Tab.upd (fun _ => Ring.reset) d.vlt.rings r f } }

/-- The number of a stream (R253). -/
def Stream.num : Stream → Nat
  | .a => 0
  | .mint => 1
  | .tally => 2
  | .b => 3
  | .stat => 4

def Stream.all : List Stream := [.a, .mint, .tally, .b, .stat]

/-- A binding in force: head, stream number, whether it binds a stream ring, the ring, and PREVIEW. -/
structure Binding where
  head : Nat
  stream : Nat
  str : Bool
  ring : Nat
  preview : Bool
  deriving DecidableEq, Repr

/-- The bindings of the gang heads under a table of values in force, in address order (R253). -/
def bindings (t : Tab Word) : List Binding :=
  ((List.range 16).filter fun p => headBy (fun q => fieldIn t (AVP_GANG_CFG.SIZE q)) p = p).flatMap fun p =>
    (List.range 5).flatMap fun s =>
      let i := 5 * p + s
      let pre := fieldIn t (VLT_BIND.PREVIEW i) = 1
      (if fieldIn t (VLT_BIND.REC_EN i) = 1 then [⟨p, s, false, fieldIn t (VLT_BIND.REC_RING i), pre⟩] else [])
        ++ (if fieldIn t (VLT_BIND.STR_EN i) = 1 then [⟨p, s, true, fieldIn t (VLT_BIND.STR_RING i), pre⟩] else [])

/-- Whether a binding writes nothing (R253): its ring is OFF, the overdraft ring or of the other ROLE, or an earlier binding
names it. DEDUCED: each half of a register, REC and STR, is a binding of its own, judged and silenced alone (log entry 105). -/
def Dev.bindConflict (d : Dev) (l : List Binding) (b : Binding) : Bool :=
  let r := d.ring b.ring
  r.state = .off || r.state = .overdraft || r.role != ofBool b.str
    || (l.take (l.idxOf b)).any fun e => e.ring = b.ring && !(e.head = b.head && e.stream = b.stream)

/-- Whether a ring is a replay source: REPLAY is in force and a gang head replays from it (R265). -/
def Dev.isSource (d : Dev) (r : Nat) : Bool :=
  d.actMode = 5 && (List.range 16).any fun p =>
    d.headOf p = p && d.forceGet (VLT_RPL_CTL.EN p) = 1 && d.forceGet (VLT_RPL_CTL.RING p) = r

/-- The rings a stream of a frame is written into (R254), by the mode and the bindings in force when its tick began; in REPLAY into
no source (R265). -/
def Dev.targetRings (d : Dev) (head tick : Nat) (s : Stream) : List Nat :=
  let l := bindings (d.forceTab tick)
  let m := d.modeAt tick
  let allowed := fun (b : Binding) =>
    (if b.str then m = 1 || (m = 2 && b.preview) || m = 3 || (m = 4 && 2 ≤ b.stream) || m = 5 else 2 ≤ m && m ≤ 5)
      && !(m = 5 && d.isSource b.ring)
  (l.filter fun b => b.head = head && b.stream = s.num && allowed b && !d.bindConflict l b).map (·.ring)

/-- In SPARSE, streams A and mint carry output only for frames opened while their record ring is ARMED or in POST (R260). -/
def Dev.sparseKeeps (d : Dev) (head tick : Nat) (s : Stream) : Bool :=
  !(d.modeAt tick = 4 && s.num ≤ 1) || (d.targetRings head tick s).any fun r =>
    (d.ring r).state = .armed || (d.ring r).state = .post

end Sys2Proof.Machine
end

