-- ==== Sys2Proof/Machine/Window.lean ====
section
/-! DEFINITION. The frames the columns work on, and the tick window of R69 to R72: which stage holds unfinished work of a tick. -/

namespace Sys2Proof.Machine

namespace ColFrame

/-- Groups of a line, tellers of the pool, bits per pixel of the port. -/
def groups (f : ColFrame) : Nat := (f.width + 31) / 32
def pool (f : ColFrame) : List Nat := f.config.pool
def bits (f : ColFrame) : Nat := bitsOf f.format

/-- Whether line `y` is a top line of a band j > 0, processed after the rest of the band (R166). -/
def isTop (f : ColFrame) (y : Nat) : Bool := 0 < f.first && y < f.first + f.config.ctxB

/-- Frame lines in the order of R166: the top lines of a band j > 0 last. -/
def reorder (f : ColFrame) (l : List Nat) : List Nat := l.filter (!f.isTop ·) ++ l.filter f.isTop

/-- The lines of the band in stream order (R169). -/
def order (f : ColFrame) : List Nat := f.reorder ((List.range f.lines).map (f.first + ·))

/-- The lines teller `p` of the pool works on, in order (R164). -/
def workLines (f : ColFrame) (p : Nat) : List Nat :=
  let n := f.pool.length
  let i := match f.config.mode with
    | 1 => (List.range f.lines).filter fun i => i % n = p
    | 2 =>
      let s := (f.lines + n - 1) / n
      (List.range f.lines).filter fun i => p * s ≤ i && i < (p + 1) * s
    | _ => List.range f.lines
  f.reorder (i.map (f.first + ·))

/-- The groups of a line teller `p` runs (R164). -/
def workGroups (f : ColFrame) (p : Nat) : List Nat :=
  if f.config.mode = 3 then (List.range f.groups).filter fun g => g % f.pool.length = p else List.range f.groups

/-- The context lines the configuration needs around line `y`, inside the frame (R165). -/
def context (f : ColFrame) (y : Nat) : List Nat :=
  ((List.range (f.config.ctxB + f.config.ctxA + 1)).map fun i => y + i).filterMap fun z =>
    if f.config.ctxB ≤ z && z < f.height + f.config.ctxB then some (z - f.config.ctxB) else none

/-- Length and number of the slots of a teller's line store (R165). -/
def slotBytes (f : ColFrame) : Nat :=
  let w := if f.config.mode = 3 then 32 * ((f.groups + f.pool.length - 1) / f.pool.length) + 4 else f.width
  Nat.max 1 ((w + 31) / 32 * 64)
def slots (f : ColFrame) : Nat := Nat.min 16 (49152 / f.slotBytes)

/-- Whether work position `i` of teller `p` was lost with a retired teller (R185). -/
def isLost (f : ColFrame) (p i : Nat) : Bool := f.lost.any fun l => l.1 = p && l.2.1 ≤ i && i < l.2.2

/-- The first position of teller `p` that is not lost before it. -/
def startPos (f : ColFrame) (p : Nat) : Nat := f.lost.foldl (fun n l => if l.1 = p then Nat.max n l.2.2 else n) 0

/-- The merger's place in a stream. -/
def pos (f : ColFrame) (s : Stream) : MergePos := Tab.get (fun _ => MergePos.reset) f.merge s.num
def setPos (f : ColFrame) (s : Stream) (m : MergePos) : ColFrame :=
  { f with merge := Tab.set (fun _ => MergePos.reset) f.merge s.num m }

/-- Whether every stream the configuration yields has been taken. -/
def merged (f : ColFrame) : Bool := f.streams.all fun s => s = .stat || (f.pos s).done

/-- Whether every teller of the pool has ended its part. -/
def ended (f : ColFrame) : Bool := f.pool.all fun t => f.sent.contains t

end ColFrame

namespace Dev

/-! ### The frames of the columns -/

/-- The columns' parts of a frame, in column order. -/
def frameCols (d : Dev) (id : Nat) : List (Nat × ColFrame) :=
  (List.range 16).flatMap fun k => ((d.column k).frames.filter (·.frame = id)).map fun f => (k, f)

def setColFrame (d : Dev) (k id : Nat) (g : ColFrame → ColFrame) : Dev :=
  d.setColumn k fun c => { c with frames := c.frames.map fun f => if f.frame = id then g f else f }

/-- A line of a frame as its band's column holds it. -/
def frameLine (d : Dev) (id y : Nat) : Option ColLine :=
  ((d.frameCols id).flatMap fun e => e.2.delivered).find? (·.line = y)

/-- The work of teller `t`: the oldest frame of a column that has it in its pool and that it has not ended, its column and
the teller's place in the pool. -/
def job (d : Dev) (t : Nat) : Option (Nat × ColFrame × Nat) :=
  let c := t / 33
  let cands := ([c - 1, c, c + 1].dedup.filter (· < 16)).flatMap fun k =>
    ((d.column k).frames.filter fun f => f.pool.contains t && !f.sent.contains t).map fun f => (k, f, f.pool.idxOf t)
  cands.foldl (fun best e => match best with
    | none => some e
    | some b => if e.2.1.frame < b.2.1.frame then some e else best) none

/-- Where teller `t` stands in a frame it serves as teller `p`. -/
def workPos (d : Dev) (f : ColFrame) (p t : Nat) : Nat :=
  let s := d.teller t
  if s.frame = some f.frame then s.line else f.startPos p

/-- The lines a teller needs and has not used: those of its remaining work with their context. -/
def needs (d : Dev) (f : ColFrame) (p t y : Nat) : Bool :=
  (((f.workLines p).drop (d.workPos f p t)).zipIdx.any fun e =>
    !f.isLost p (d.workPos f p t + e.2) && (f.context e.1).contains y)

/-! ### The tick window (R69-R72) -/

/-- The columns' parts of the frames of a tick of gang head `h`. -/
def tickCols (d : Dev) (h n : Nat) : List ColFrame :=
  (List.range 16).flatMap fun k => (d.column k).frames.filter fun f => f.head = h && f.tick = n

/-- Whether the tellers hold work of their part of a frame: output the merger has not taken, a line record in the mint unit, an input
line that waits to be used, or a part that has ended with its result still to send. A teller that only waits for lines of an
earlier stage holds none (R70). -/
def tellersHold (d : Dev) (f : ColFrame) : Bool :=
  let lines := (d.frameCols f.frame).flatMap fun e => e.2.delivered
  f.pool.zipIdx.any fun q =>
    let s := d.teller q.1
    s.out.any (·.frame = f.frame)
      || (!f.sent.contains q.1 && ((s.frame = some f.frame && !s.mint.isEmpty) || (f.workLines q.2).length ≤ d.workPos f q.2 q.1
        || lines.any fun l => l.full && d.needs f q.2 q.1 l.line))

/-- The frames of a tick of a gang of which stage 1, 2 or 3 holds unfinished work (R69). -/
def earlyFrames (d : Dev) (s h n : Nat) : List Nat :=
  let cols := d.tickCols h n
  match s with
  | 1 => (List.range 16).flatMap fun p =>
      (match (d.port p).pk.band with | some b => if b.head = h && b.tick = n then b.frame.toList else [] | none => [])
        ++ (d.port p).pk.buffer.filterMap fun l => l.frame.bind fun id => if cols.any (·.frame = id) then some id else none
  | 2 => (cols.filter fun f => f.delivered.any (!·.full)).map (·.frame)
  | 3 => (cols.filter d.tellersHold).map (·.frame) ++ (List.range 16).flatMap fun k => ((d.column k).results.filter fun r =>
      r.tick = n && d.clr.frames.any fun e => e.id = r.frame && e.head = h).map (·.frame)
  | _ => []

/-- The frames of a tick of a gang of which a stage of 1 to 5 holds unfinished work (R69). A stage that holds none, because an earlier
stage still does, counts as finished (R70): the clearing unit holds a frame record only once stages 1 to 3 hold nothing of
its frame. -/
def stageFrames (d : Dev) (s h n : Nat) : List Nat :=
  match s with
  | 4 =>
    let before := d.earlyFrames 1 h n ++ d.earlyFrames 2 h n ++ d.earlyFrames 3 h n
    (d.clr.frames.filter fun r => r.head = h && r.tick = n && !before.contains r.id).map (·.id)
  | 5 => ((d.column h).queue.filter fun o => o.tick = n && (!o.bytes.isEmpty || o.complete)).map (·.frame)
      ++ (d.clr.queue.filter fun e => e.head = h && e.tick = n).map (·.frame)
  | s => d.earlyFrames s h n

/-- Whether a stage holds unfinished work of a tick of gang head `h` (R69): a frame of `stageFrames`, or, in stage 1, an open band whose
lines its idle column discards. -/
def stageHolds (d : Dev) (s h n : Nat) : Bool :=
  !(d.stageFrames s h n).isEmpty
    || (s = 1 && (List.range 16).any fun p => match (d.port p).pk.band with | some b => b.head = h && b.tick = n | none => false)

/-- The ticks of which some stage from 2 on may hold work. -/
def ticksHeld (d : Dev) : List Nat :=
  (((List.range 16).flatMap fun k => (d.column k).frames.map (·.tick) ++ (d.column k).queue.map (·.tick)) ++ d.clr.frames.map (·.tick)
    ++ d.clr.queue.map (·.tick)).dedup

/-- Whether a later stage of 2 to 5 still holds work of tick `m - D` or before, of whatever gang, so that stage `s` takes in nothing of
tick `m` (R72). -/
def windowHeld (d : Dev) (s m : Nat) : Bool :=
  let depth := Nat.max 1 (d.forceGet CAD_CTL.DEPTH)
  (d.ticksHeld.filter fun n => n + depth ≤ m).any fun n =>
    (List.range 16).any fun h => (List.range 6).any fun j => s < j && 2 ≤ j && d.stageHolds j h n

/-- Whether stage 1 of port `p` withholds line credits (R72): the window is closed for the tick whose data it takes in, that of its open
band, or of the gang's oldest exposure that has not ended. -/
def creditsHeld (d : Dev) (p : Nat) : Bool :=
  let h := d.headOf p
  let intake := match (d.port p).pk.band with
    | some b => some b.tick
    | none => (d.cad.exposures.find? (·.head = h)).map (·.tick)
  match intake with
  | some m => d.windowHeld 1 m
  | none => false

end Dev
end Sys2Proof.Machine
end

