-- ==== Sys2Proof/Machine/PortPackets.lean ====
section
/-! DEFINITION. The packet layer of the Avane ports (chapter 05): packet tests, frames and bands, credits, STATUS, camera
commands, ranging and URGENT, with the frame records CLR opens for them (R225, R465). -/

namespace Sys2Proof.Machine

/-- SOURCE codes of an exposure command (R134). -/
def srcSchedule : Nat := 0
def srcUrgent : Nat := 1

namespace Dev

/-! ### Packet tests and sequence numbers (R127, R128) -/

/-- A packet discarded: counted once, flagged, PKT_DISCARD at most once per 1 ms with the number discarded since the last. -/
def pktDiscard (d : Dev) (p : Nat) (bad : Bool) : Dev :=
  let d := d.count (if bad then AVP_PKT_BAD_CNT.addr p else AVP_PKT_CRC_CNT.addr p)
  let d := d.set1 (if bad then AVP_PFLAGS.MALFORMED p else AVP_PFLAGS.CRC_BAD p)
  let d := d.setPk p fun k => { k with discards := k.discards + 1 }
  d.atMost (.pktDiscard p) (ms 1) fun d =>
    (d.notice .alert (idAVP p) 0x020 (ofBool bad * 2 ^ 31 + Nat.min (d.port p).pk.discards 0xFFFF)).setPk p
      fun k => { k with discards := 0 }

/-- The receiver's sequence number after a packet it accepts (R128). -/
def takeSeq (d : Dev) (p seq : Nat) : Dev :=
  let d := match (d.port p).pk.rxSeq with
    | none => d
    | some last => d.countBy (AVP_SEQ_GAP_CNT.addr p) ((seq + 256 - last - 1) % 256)
  d.setPk p fun k => { k with rxSeq := some seq }

/-- Receiving a packet: nothing in a state before NEGOTIATE, nor while the extra ALIGN of a degrade is awaited, at which the 1680 resumes
(R122); the tests of R127; the SEQ of R128; then the packet's own
effect. -/
def receive (d : Dev) (p : Nat) (k : RxPacket) (typ : Nat) (lenOk : Nat → Bool) (bodyOk : Bool)
    (crcDiscard : Dev → Dev) (take : Dev → Dev) : Dev :=
  if !(d.portState p = 4 || d.portUp p) || (d.port p).link.degrade.isSome then d
  else match k.verdict typ lenOk bodyOk with
    | .crc => crcDiscard (d.pktDiscard p false)
    | .bad => d.pktDiscard p true
    | .taken => take (d.takeSeq p k.seq)

/-! ### Downlink packets -/

/-- The place of a packet type in the order SCHEDULE, CREDIT, CAPS, TIME, COMMAND (R130). -/
def txRank (typ : Nat) : Nat := match typ with | 0x82 => 0 | 0x84 => 1 | 0x87 => 2 | 0x83 => 3 | _ => 4

/-- A packet made ready takes its place behind those of its own rank and above (R130). -/
def insertTx (q : TxPacket) : List TxPacket → List TxPacket
  | [] => [q]
  | e :: l => if txRank e.typ ≤ txRank q.typ then e :: insertTx q l else q :: e :: l

/-- Making a downlink packet ready for the next packet boundary. -/
def sendPacket (d : Dev) (p typ tag : Nat) (body : List Byte) : Dev :=
  d.setPk p fun k => { k with ready := insertTx ⟨typ, tag, body⟩ k.ready }

/-- A ready packet leaves with the port's next SEQ (R125, R128). -/
def emitTx (d : Dev) (p : Nat) (q : TxPacket) : Dev :=
  (d.emit (.packet p (mkPacket q.typ (d.port p).pk.txSeq q.tag q.body))).setPk p fun k => { k with txSeq := (k.txSeq + 1) % 256 }

/-- A packet boundary of a port: the packets ready leave in their order (R130). DESIGN CHOICE: the spec does not say how long a packet
takes the line; all packets that become ready at one instant of device time meet at one boundary, at the end of that instant (log entry
25). -/
def boundary (d : Dev) (p : Nat) : Dev :=
  d.forEach (d.port p).pk.ready (fun q d => d.emitTx p q) |>.setPk p fun k => { k with ready := [] }

/-- The packet boundaries of all ports at the end of an instant. -/
def boundaries (d : Dev) : Dev :=
  d.forEach ((List.range 16).filter fun p => !(d.port p).pk.ready.isEmpty) fun p d => d.boundary p

/-! ### Line credits (R137-R139) -/

/-- The line capacity of a port from its gang head's geometry in force (R138). -/
def capacity (d : Dev) (p : Nat) : Nat :=
  let h := d.headOf p
  let f := d.forceGet (AVP_GEOM_W.FORMAT h)
  let w := d.forceGet (AVP_GEOM_W.WIDTH h)
  let l32 := (lineBytes (if w = 0 then maxWidth f else w) f + 31) / 32 * 32
  Nat.min 255 (65536 / Nat.max l32 1)

/-- LIMIT without the tick window: consumed lines plus the capacity, never below the LIMIT last sent (R138, R139). -/
def limitFree (d : Dev) (p : Nat) : Nat :=
  let want := (d.get (AVP_CREDIT_USED.USED p) + d.capacity p) % 2 ^ 32
  let last := d.get (AVP_CREDIT_LIMIT.LIMIT p)
  if 0 < signed 32 (want + 2 ^ 32 - last) then want else last

/-- LIMIT as it stands: the one last sent while stage 1 withholds credits (R72), or while a frame waits for a place in the frame table
(R228). -/
def limitNow (d : Dev) (p : Nat) : Nat :=
  if d.creditsHeld p || !(d.port p).pk.held.isEmpty then d.get (AVP_CREDIT_LIMIT.LIMIT p) else d.limitFree p

/-- Lines by which LIMIT has advanced since the last CREDIT. -/
def limitAdvance (d : Dev) (p : Nat) : Nat := (d.limitNow p + 2 ^ 32 - d.get (AVP_CREDIT_LIMIT.LIMIT p)) % 2 ^ 32

/-- Noting the first advance of LIMIT not yet reported; one that is withheld counts from when it arose. -/
def noteAdvance (d : Dev) (p : Nat) : Dev :=
  d.when (d.limitFree p != d.get (AVP_CREDIT_LIMIT.LIMIT p) && (d.port p).pk.advanceAt.isNone) fun d =>
    d.setPk p fun k => { k with advanceAt := some d.time }

/-- Counting lines as consumed (R139). -/
def consume (d : Dev) (p n : Nat) : Dev :=
  (d.put (AVP_CREDIT_USED.USED p) (d.get (AVP_CREDIT_USED.USED p) + n)).noteAdvance p

/-- Sending a CREDIT with a LIMIT (R137). DESIGN CHOICE: the register's CAPACITY becomes a new capacity with the first CREDIT that carries
it, not at the apply; the spec leaves the instant open (R138, log entry 79). -/
def sendLimit (d : Dev) (p lim : Nat) : Dev :=
  let d := (d.put (AVP_CREDIT_STAT.CAPACITY p) (d.capacity p)).put (AVP_CREDIT_LIMIT.LIMIT p) lim
  let d := d.sendPacket p 0x84 lim (le 1 (d.get (AVP_CREDIT_STAT.EPOCH p)) ++ le 1 (d.capacity p) ++ le 2 0)
  d.setPk p fun k => { k with creditAt := d.time, advanceAt := if lim = d.limitFree p then none else k.advanceAt }
def sendCredit (d : Dev) (p : Nat) : Dev := d.sendLimit p (d.limitNow p)

/-- CREDIT_SEND: LIMIT has advanced by 4 lines, or at all and 1 us has passed, or 100 us have passed since the last (R139). -/
def creditSend (d : Dev) (p : Nat) : Dev :=
  let k := (d.port p).pk
  let adv := d.limitAdvance p
  d.when (d.portUp p && (4 ≤ adv || (0 < adv && (match k.advanceAt with | some t => t + us 1 ≤ d.time | none => false))
      || k.creditAt + us 100 ≤ d.time)) (·.sendCredit p)

/-- LINE_CONSUMED: a line's buffer space is free (R139). -/
def lineConsumed (d : Dev) (p : Nat) : Dev :=
  d.when (0 < (d.port p).pk.freed) fun d => (d.setPk p fun k => { k with freed := k.freed - 1 }).consume p 1

/-! ### Frame records of CLR (R225, R465) -/

def setFrame (d : Dev) (id : Nat) (f : Frame → Frame) : Dev :=
  { d with clr := { d.clr with frames := d.clr.frames.map fun r => if r.id = id then f r else r } }

def frameOf (d : Dev) (id : Nat) : Option Frame := d.clr.frames.find? (·.id = id)

/-- An exposure that has ended no longer holds a drain (R88). -/
def endExposure (d : Dev) (head source id : Nat) : Dev :=
  (d.setCad fun x => { x with exposures := d.cad.exposures.filter fun e => !(e.head = head && e.source = source && e.id = id) })

/-- The place of a command among those sent to a head. -/
def cmdIndex (l : List SentCommand) (source id : Nat) : Nat := l.findIdx fun c => c.source = source && c.id = id

/-- Whether the last FRAME_START that a port accepted names a later command than the one given (R465). -/
def acceptedLater (d : Dev) (q h source id : Nat) : Bool :=
  match (d.port q).pk.accepted with
  | some (s, i) =>
    let l := (d.port h).pk.sent
    cmdIndex l source id < cmdIndex l s i && cmdIndex l s i < l.length
  | none => false

/-- The gang frame of a command is discarded only when no port of the gang accepts a FRAME_START for it (R465): its exposure then ends
(R88). -/
def discardEnds (d : Dev) (h source id : Nat) : Dev :=
  d.when ((d.gang h).all (fun q => !d.portUp q || (d.port q).pk.closed.contains (source, id))
    && !(d.clr.frames.any fun r => r.head = h && r.source = source && r.cmd = id)) (·.endExposure h source id)

/-- A port has no more to give for a command of its gang: its band is closed as missing, discarded, or ended in an idle column. -/
def closeCommand (d : Dev) (p source id : Nat) : Dev :=
  d.setPk p fun k => { k with closed := (source, id) :: k.closed.filter (· != (source, id)) }

/-- A port's contribution reaches the frame record; with the last band the exposure has ended. -/
def addPart (d : Dev) (id : Nat) (part : BandPart) : Dev :=
  let d := d.setFrame id fun r =>
    { r with parts := r.parts ++ [part], waiting := r.waiting.filter (· != part.port), flags := r.flags ||| part.flags }
  match d.frameOf id with
  | some r => d.when (r.waiting.isEmpty && r.size ≤ r.parts.length) (·.endExposure r.head r.source r.cmd)
  | none => d

/-- The work a band gives its column: geometry, configuration and no line delivered yet. -/
def openColumn (d : Dev) (p id tick width height format first lines : Nat) : Dev :=
  let c := d.configAt p tick
  let r := d.frameOf id
  d.setColumn p fun k => { k with frames := k.frames ++
    [{ frame := id, tick := tick, port := p, head := r.elim p (·.head), size := r.elim 1 (·.size), frameNo := r.elim 0 (·.frameNo)
       width := width, height := height, format := format, first := first, lines := lines, config := c
       streams := r.elim [] (·.streams), delivered := [], sent := [], lost := [], merge := [], stats := Stats.reset
       tallies := 0, held := [], mintRecs := 0 }] }

/-- The lines of a band from `a` to its end as lines never received (R215). -/
def missingLines (frame : Option Nat) (a e : Nat) : List BufLine :=
  (List.range (e - a)).map fun i => ⟨frame, a + i, [], 0, true, false, false⟩

/-- R465: port `q` closes its band of an open gang frame as missing whole, TRUNCATED and CRC_BAD. What the camera still sends for it is
discarded. -/
def closeMissing (d : Dev) (id q : Nat) : Dev :=
  match d.frameOf id with
  | none => d
  | some r =>
    if !r.waiting.contains q then d
    else
      let h := r.head
      let col := ((List.range 16).filterMap fun k => (d.column k).frames.find? (·.frame = id)).head?
      let height := col.elim 0 (·.height)
      let n := height / r.size
      let d := d.openColumn q id r.tick (col.elim 0 (·.width)) height (col.elim 0 (·.format)) ((q - h) * n) n
      let d := d.setPk q fun k => { k with buffer := k.buffer ++ missingLines (some id) ((q - h) * n) ((q - h + 1) * n) }
      let d := d.when (r.size != 1) (·.closeCommand q r.source r.cmd)
      d.addPart id ⟨q, 0, r.expose, r.tick, 0b11, true⟩

/-- The open frames of a gang that await port `q`. -/
def awaiting (d : Dev) (q : Nat) : List Nat :=
  (d.clr.frames.filter fun r => r.waiting.contains q).map (·.id)

/-- CLR opens a frame record when the first port of the gang opens a band (R225), with the encoder capture of its exposure where ENC has made it,
and each stream that carries output and has a ring to go to waits for the ring writers (R254); ports that are not UP or DEGRADED, or
that discarded their FRAME_START, close their bands as missing (R465). -/
def openFrame (d : Dev) (p frameNo : Nat) (cmd : SentCommand) : Dev × Nat :=
  let h := d.headOf p
  let id := d.clr.nextId
  let cols := d.gang h
  let streams := (d.streamsOf (d.configAt p cmd.tick)).filter (d.sparseKeeps h cmd.tick)
  let taken := (d.cad.exposures.find? fun e => e.head = h && e.source = cmd.source && e.id = cmd.id).bind (·.enc)
  let r : Frame :=
    { id := id, head := h, size := d.gangSize h, source := cmd.source, cmd := cmd.id, openedAt := d.time
      frameNo := frameNo, expose := cmd.expose, tick := cmd.tick, parts := [], waiting := cols, enc := taken, strike := cmd.strike
      expect := cols.foldl (fun l k => l ++ (d.configAt k cmd.tick).pool) []
      flags := ofBool (cols.any fun q => d.portState q = 7) * 2 ^ 11, faultId := 0, faultAt := 0
      cfg := Tab.get regReset (d.forceTab cmd.tick) (CLR_COL_CFG.addr h)
      mode := d.modeAt cmd.tick, streams := streams, replay := none, fed := none, failed := [] }
  let d := (d.setClr fun x => { x with frames := d.clr.frames ++ [r], nextId := id + 1 })
  let outs : List StreamOut := streams.filterMap fun s =>
    match d.targetRings h cmd.tick s with
    | [] => none
    | rings => some ⟨id, cmd.tick, h, s, [], false, rings⟩
  let d := d.setColumn h fun c => { c with queue := c.queue ++ outs }
  (d.put CLR_STAT.OPEN d.clr.frames.length, id)

/-! ### Frames and bands (R133-R136) -/

/-- A discarded frame (R136, R159): counted, flagged, FRAME_LOST at most once per 1 ms. -/
def frameLost (d : Dev) (p reason frameNo : Nat) : Dev :=
  let d := (d.count (AVP_FRAME_LOST_CNT.addr p)).set1 (AVP_PFLAGS.FRAME_LOST p)
  d.atMost (.frameLost p) (ms 1) fun d => d.notice .alert (idAVP p) 0x021 (reason * 2 ^ 28 + frameNo % 2 ^ 16)

/-- Closing the open band (R136): lines never received follow as missing, the credits of the lines not yet counted return
(`sent` is FRAME_END's LINES where there is one), and the contribution goes to CLR, with FRAME_END's FRAME_NO where there is one (R217).
DESIGN CHOICE: the counts that DROPPED_BEFORE compares with are those at the close of the port's last band that was not flagged and
discarded: a band that an idle column discards is no delivered frame, and leaves them as they are where drops came before it, so
that the next entry shows them (R21, R140, log entry 79). The exposure of a band in an idle column ends with the last band of its gang
(R88). -/
def closeBand (d : Dev) (p : Nat) (trunc crc : Bool) (sent : Option (Nat × Nat)) : Dev :=
  match (d.port p).pk.band with
  | none => d
  | some b =>
    let rest := if b.frame.isSome then missingLines b.frame b.next (b.first + b.lines) else []
    let stays := b.frame.isNone && b.dropped
    let d := d.setPk p fun k => { k with
      band := none, buffer := k.buffer ++ rest
      dropsDelivered := if stays then k.dropsDelivered else k.drops.getD 0
      lastFrameNo := if stays then k.lastFrameNo else some b.frameNo
      stray := some (b.frameNo % 2 ^ 16, none) }
    let d := d.consume p ((sent.map (·.1)).getD b.lines - b.counted)
    let d := d.count (AVP_FRAME_CNT.addr p)
    let flags := ofBool trunc + ofBool (b.crcBad || crc) * 2 + ofBool b.dropped * 2 ^ 8
    match b.frame with
    | some id => d.addPart id ⟨p, (sent.map (·.2)).getD b.frameNo, b.expose, b.tick, flags, false⟩
    | none =>
      if d.gangSize b.head = 1 then d.endExposure b.head b.source b.cmd
      else (d.closeCommand p b.source b.cmd).discardEnds b.head b.source b.cmd

/-- The band and the waiting bands of a port that leaves UP and DEGRADED, or degrades, close TRUNCATED (R136, R465). -/
def truncateOpen (d : Dev) (p : Nat) : Dev := d.closeBand p true false none

/-- A column that is idle discards its port's frames; each column's notice comes at most once per 1 ms (R161). -/
def idleDiscard (d : Dev) (p : Nat) : Dev :=
  (d.count CHT_IDLE_DISCARD_CNT.addr).atMost (.idleDiscard p) (ms 1) fun d => d.notice .alert idCHT 0x019 p

/-- Whether a port's camera declares another gang than the one in force (R132): the GANG byte of its last CAPS, whatever the port's state.
A port that has had no CAPS has no camera to disagree. -/
def gangMismatch (d : Dev) (p : Nat) : Bool :=
  let g := (d.reg (AVP_CAM_CAPS.addr p 0)).toNat / 2 ^ 24
  g != 0 && g != d.gangSize (d.headOf p) * 16 + (p - d.headOf p)

/-- GANG_MISMATCH of a port that is UP or DEGRADED, once per entry there (R132). -/
def checkGang (d : Dev) (p : Nat) : Dev :=
  d.when (d.portUp p && d.gangMismatch p && !(d.port p).pk.gangTold) fun d =>
    ((d.set1 (AVP_PFLAGS.GANG_MISMATCH p)).notice .alert (idAVP p) 0x026 ((d.reg (AVP_CAM_CAPS.addr p 0)).toNat / 2 ^ 24)).setPk p
      fun k => { k with gangTold := true }

/-- The FRAME_START of a band that the port has closed as missing, or discarded, is discarded with its lines and FRAME_END (R465).
DESIGN CHOICE: it is not counted under a reason of R136 again (log entry 80). -/
def lateStart (d : Dev) (p frameNo : Nat) : Dev := d.setPk p fun k => { k with stray := some (frameNo % 2 ^ 16, some 0), startLost := false }

/-- What a port makes of a FRAME_START (R136, R465): it belongs to a band closed or discarded before, it is discarded for a reason, or it opens
a band for a command. -/
inductive StartVerdict where
  | late
  | refused (reason : Nat)
  | band (c : SentCommand)
  deriving DecidableEq, Repr

/-- The tests of R136 on a FRAME_START, in the order of their rows. FORMAT is checked whatever its value: the spec calls WIDTH and HEIGHT
unchecked at 0, and 0 is a code of FORMAT (DEDUCED, log entry 80). DESIGN CHOICE: the byte of G and j and FIRST_LINE are not held against the
port's place in the gang; R136 names no such test (log entry 96). -/
def startVerdict (d : Dev) (p : Nat) (k : RxPacket) : StartVerdict :=
  let b := k.body
  let cmdId := field b 8 4
  let source := field b 20 1
  let h := d.headOf p
  let gw := d.forceGet (AVP_GEOM_W.WIDTH h)
  let gh := d.forceGet (AVP_GEOM_H.HEIGHT h)
  let cmd := (d.port h).pk.sent.find? fun c => c.source = source && c.id = cmdId
  if (d.port p).pk.closed.contains (source, cmdId) && !(cmd.any fun c => d.idleColumn p c.tick) then .late
  else if (gw != 0 && field b 12 2 != gw) || field b 16 1 != d.forceGet (AVP_GEOM_W.FORMAT h) || (gh != 0 && field b 14 2 != gh) then .refused 2
  else if (d.gang h).any d.gangMismatch then .refused 3
  else match cmd with
    | none => .refused 4
    | some c => .band c

/-- FRAME_START taken by the port (R136, R465): the band's first line follows from the port's place in the gang. DESIGN CHOICE: a band whose
FRAME_START the port discards closes at the discard where the gang frame is open, else when it opens (R465, log entry 80). -/
def takeFrameStart (d : Dev) (p : Nat) (k : RxPacket) : Dev :=
  let b := k.body
  let frameNo := field b 0 8
  let cmdId := field b 8 4
  let width := field b 12 2
  let height := field b 14 2
  let format := field b 16 1
  let source := field b 20 1
  let h := d.headOf p
  let size := d.gangSize h
  let d := d.closeBand p true true none
  let sent := (d.port h).pk.sent
  let refuse := fun (reason : Nat) (d : Dev) =>
    let d := d.frameLost p reason frameNo
    let d := (d.when (size != 1) (·.closeCommand p source cmdId)).setPk p fun k => { k with
      stray := some (frameNo % 2 ^ 16, some 0), startLost := false }
    let d := d.forEach ((d.clr.frames.filter fun r => r.head = h && r.source = source && r.cmd = cmdId).map (·.id))
      fun id d => d.closeMissing id p
    if size = 1 then d.endExposure h source cmdId else d.discardEnds h source cmdId
  match d.startVerdict p k with
    | .late => d.lateStart p frameNo
    | .refused reason => refuse reason d
    | .band cmd =>
      let n := height / size
      let first := (p - h) * n
      let dropped := (match (d.port p).pk.drops with | some x => (d.port p).pk.dropsDelivered != x | none => false)
        || (match (d.port p).pk.lastFrameNo with | some x => x + 1 < frameNo | none => false)
      let band : Option Nat → Band := fun f =>
        { frame := f, head := h, frameNo := frameNo, source := source, cmd := cmdId, width := width, height := height, format := format
          first := first, lines := n, next := first, crc := 0xFFFFFFFF#32, crcBad := false, counted := 0, refused := []
          lastAt := d.time, expose := cmd.expose, tick := cmd.tick, dropped := dropped }
      let d := (d.when (p = h) fun d => d.fireHop (0x80 + p) 0).setPk p fun k => { k with stray := none, accepted := some (source, cmdId) }
      let old := (d.clr.frames.filter fun r => r.head = h && r.waiting.contains p
        && !(r.source = source && r.cmd = cmdId)
        && (cmdIndex sent r.source r.cmd < cmdIndex sent source cmdId || cmdIndex sent r.source r.cmd = sent.length)).map (·.id)
      let d := d.forEach old fun id d => d.closeMissing id p
      if d.idleColumn p cmd.tick then
        (d.idleDiscard p).setPk p fun k => { k with band := some (band none), startLost := false }
      else
        let open? := d.clr.frames.find? fun r =>
          r.head = h && r.source = source && r.cmd = cmdId && r.waiting.contains p
        let start := fun (id : Nat) (d : Dev) =>
          let d := d.setFrame id fun r => { r with
            waiting := r.waiting.filter (· != p), frameNo := if p = h then frameNo else r.frameNo }
          let d := d.openColumn p id cmd.tick width height format first n
          d.setPk p fun k => { k with band := some (band (some id)), startLost := false }
        match open? with
        | some r => start r.id d
        | none =>
          let (d, id) := d.openFrame p frameNo cmd
          let d := start id d
          d.forEach ((d.gang h).filter fun q => q != p
              && (!d.portUp q || (d.port q).pk.closed.contains (source, cmdId) || d.acceptedLater q h source cmdId))
            fun q d => d.closeMissing id q

/-- Whether CLR holds back a FRAME_START: 256 frames open and none that the port's command joins, where it would open a frame (R228). -/
def tableHold (d : Dev) (p : Nat) (k : RxPacket) : Bool :=
  256 ≤ d.clr.frames.length && match d.startVerdict p k with
    | .band c => !d.idleColumn p c.tick
        && !(d.clr.frames.any fun r => r.head = d.headOf p && r.source = c.source && r.cmd = c.id && r.waiting.contains p)
    | _ => false

/-- A hold of the frame table (R228, R237). -/
def tableFull (d : Dev) : Dev :=
  (d.set1 CLR_FLAGS.TABLE_FULL).atMost .tableFull (ms 1) fun d => d.notice .alert idCLR 0x012 256



/-- A packet that belongs to no open frame (R136). -/
def orphan (d : Dev) (p : Nat) : Dev := d.count (AVP_ORPHAN_CNT.addr p)

/-- Bytes of the line buffer in use, lines in units of 32 bytes (R138); a filled line takes none (R139). -/
def bufferUsed (d : Dev) (p : Nat) : Nat :=
  (d.port p).pk.buffer.foldl (fun n l => n + if l.filled then 0 else (l.data.length + 31) / 32 * 32) 0

/-- A LINE_DATA beyond the LIMIT last sent, or one that finds no room (R138, R139). -/
def creditViol (d : Dev) (p line : Nat) : Dev :=
  let d := (d.count (AVP_CREDIT_VIOL_CNT.addr p)).set1 (AVP_PFLAGS.CREDIT_VIOL p)
  d.atMost (.creditViol p) (ms 1) fun d => d.notice .alert (idAVP p) 0x02A line

/-- A line of a band that is not open counts as consumed, once: a line of a closed frame was counted at its close (R136, R139). -/
def strayLine (d : Dev) (p f : Nat) : Dev :=
  match (d.port p).pk.stray with
  | some (g, c) =>
    if g = f then match c with
      | none => d
      | some n => (d.setPk p fun k => { k with stray := some (f, some (n + 1)) }).consume p 1
    else (d.setPk p fun k => { k with stray := some (f, some 1) }).consume p 1
  | none => (d.setPk p fun k => { k with stray := some (f, some 1) }).consume p 1

/-- The FRAME_END of a band that is not open counts the rest of its LINES as consumed (R139). -/
def strayEnd (d : Dev) (p f lines : Nat) : Dev :=
  let counted := match (d.port p).pk.stray with
    | some (g, c) => if g = f then c.getD lines else 0
    | none => 0
  (d.setPk p fun k => { k with stray := some (f, none) }).consume p (lines - counted)

/-- LINE_DATA taken by the port (R136, R139). -/
def takeLine (d : Dev) (p : Nat) (k : RxPacket) : Dev :=
  let line := slice k.tag 0 16
  let f := slice k.tag 16 16
  let covered := 0 < signed 32 (d.get (AVP_CREDIT_LIMIT.LIMIT p) + 2 ^ 32 - (d.port p).pk.rxLines % 2 ^ 32)
  let d := d.setPk p fun q => { q with rxLines := (q.rxLines + 1) % 2 ^ 32 }
  let stray := fun (d : Dev) => ((d.orphan p).when (!covered) (·.creditViol p line)).strayLine p f
  match (d.port p).pk.band with
  | none => stray d
  | some b =>
    if b.frameNo % 2 ^ 16 != f then stray d
    else if line < b.next || b.first + b.lines ≤ line then
      (((d.orphan p).when (!covered) (·.creditViol p line)).consume p 1).setPk p fun q => { q with
        band := some { b with lastAt := d.time, crcBad := b.crcBad || !covered } }
    else
      let room := d.bufferUsed p + (k.body.length + 31) / 32 * 32 ≤ 65536
      if !(covered && room) then
        let d := d.creditViol p line
        let b' := { b with crcBad := true, refused := line :: b.refused, counted := b.counted + 1, lastAt := d.time }
        let d := d.setPk p fun q => { q with band := some b' }
        d.consume p 1
      else
        let skipped := (List.range (line - b.next)).map (b.next + ·)
        let toCount := (skipped.filter fun i => !b.refused.contains i).length
        let zero := List.replicate (lineBytes b.width b.format) (0 : Byte)
        let fills := skipped.map fun i => (⟨b.frame, i, zero, 0, false, false, true⟩ : BufLine)
        let d := d.countBy (AVP_LINE_FILL_CNT.addr p) skipped.length
        let b' : Band := { b with
          next := line + 1, crc := crc32cRun b.crc k.body, crcBad := b.crcBad || !skipped.isEmpty
          counted := b.counted + toCount + 1, lastAt := d.time }
        let new : BufLine := ⟨b.frame, line, k.body, 0, false, true, false⟩
        let d := d.setPk p fun q => { q with buffer := q.buffer ++ fills ++ [new], band := some b' }
        d.consume p toCount

/-- The length a LINE_DATA must have: 12 bytes and the bytes of one line of the open frame (R129, R133). -/
def lineLenOk (d : Dev) (p : Nat) (k : RxPacket) (n : Nat) : Bool :=
  match (d.port p).pk.band with
  | some b => if b.frameNo % 2 ^ 16 = slice k.tag 16 16 then n = 12 + lineBytes b.width b.format else true
  | none => true



/-- FRAME_END taken by the port (R136, R139). -/
def takeFrameEnd (d : Dev) (p : Nat) (k : RxPacket) : Dev :=
  let b := k.body
  let frameNo := field b 0 8
  let lines := field b 12 2
  let lost := fun (d : Dev) => ((d.orphan p).strayEnd p (frameNo % 2 ^ 16) lines).when (d.port p).pk.startLost fun d =>
    (d.frameLost p 1 frameNo).setPk p fun q => { q with startLost := false }
  match (d.port p).pk.band with
  | none => lost d
  | some o =>
    if o.frameNo % 2 ^ 16 != frameNo % 2 ^ 16 then lost d
    else d.closeBand p false
      (lines != o.lines || o.next != o.first + o.lines || field b 14 1 != 0 || field b 8 4 != (o.crc ^^^ 0xFFFFFFFF#32).toNat)
      (some (lines, frameNo))

/-- The effect of a frame packet that has passed its tests, by its type. -/
def takeFramePacket (d : Dev) (p : Nat) (k : RxPacket) : Dev :=
  match field k.bytes 0 1 with
  | 0x01 => d.takeFrameStart p k
  | 0x02 => d.takeLine p k
  | _ => d.takeFrameEnd p k

/-- A frame packet that has passed its tests: a FRAME_START that CLR holds back closes the open band and waits, and the port's later frame
packets wait behind it (R228). -/
def orHold (d : Dev) (p : Nat) (k : RxPacket) : Dev :=
  let first := (d.port p).pk.held.isEmpty && field k.bytes 0 1 = 0x01 && d.tableHold p k
  if first || !(d.port p).pk.held.isEmpty then
    (d.when first fun d => (d.closeBand p true true none).tableFull).setPk p fun q => { q with held := q.held ++ [.packet k] }
  else d.takeFramePacket p k

/-- A frame packet of an epoch that has ended is taken: the credits of the present epoch stay as they are (R137). -/
def takeOld (d : Dev) (p : Nat) (k : RxPacket) : Dev :=
  let q := (d.port p).pk
  let used := d.get (AVP_CREDIT_USED.USED p)
  ((d.takeFramePacket p k).put (AVP_CREDIT_USED.USED p) used).setPk p fun x => { x with
    rxLines := q.rxLines, advanceAt := q.advanceAt, buffer := x.buffer.map fun l => { l with credit := false } }

/-- What a port's leaving of UP and DEGRADED closes (R136, R465): the open band TRUNCATED, and the bands awaited, as missing. -/
def closeLeft (d : Dev) (p : Nat) : Dev :=
  let d := d.truncateOpen p
  d.forEach (d.awaiting p) fun id d => d.closeMissing id p

/-- What waits for a place in the frame table goes on as far as the table allows (R228); `n` bounds the number of its items. -/
def releaseHeld (d : Dev) (p : Nat) : Nat → Dev
  | 0 => d
  | n + 1 =>
    match (d.port p).pk.held with
    | [] => d
    | .left :: rest => ((d.setPk p fun q => { q with held := rest }).closeLeft p).releaseHeld p n
    | .packet k :: rest =>
      if field k.bytes 0 1 = 0x01 && d.tableHold p k then d
      else
        let d := d.setPk p fun q => { q with held := rest }
        (if rest.contains .left then d.takeOld p k else d.takeFramePacket p k).releaseHeld p n

/-- The hold of every port ends where a frame has left the table (R228). -/
def releaseTable (d : Dev) : Dev :=
  d.forEach ((List.range 16).filter fun p => !(d.port p).pk.held.isEmpty) fun p d => d.releaseHeld p (d.port p).pk.held.length

/-- FRAME_START_RECEIVE (R127, R136). -/
def frameStart (d : Dev) (p : Nat) (k : RxPacket) : Dev :=
  d.receive p k 0x01 (· = 36) (field k.body 16 1 ≤ 4)
    (fun d => d.setPk p fun q => { q with startLost := true })
    (fun d => d.when (d.portUp p) (·.orHold p k))

/-- LINE_DATA_RECEIVE: in NEGOTIATE no frame is open (R136). -/
def lineData (d : Dev) (p : Nat) (k : RxPacket) : Dev :=
  d.receive p k 0x02 (d.lineLenOk p k) true id fun d => if d.portUp p then d.orHold p k else d.orphan p

/-- FRAME_END_RECEIVE: in NEGOTIATE no frame is open (R136). -/
def frameEnd (d : Dev) (p : Nat) (k : RxPacket) : Dev :=
  d.receive p k 0x03 (· = 28) true id fun d => if d.portUp p then d.orHold p k else d.orphan p

/-- AVP_FRAME_TMO of a port in dt. -/
def frameTmo (d : Dev) (p : Nat) : Nat := us (d.get (AVP_FRAME_TMO.TMO p))

/-- FRAME_TIMEOUT: no packet of the open frame for AVP_FRAME_TMO closes it TRUNCATED and CRC_BAD (R136). -/
def frameTimeout (d : Dev) (p : Nat) : Dev :=
  match (d.port p).pk.band with
  | some b => d.when (b.lastAt + d.frameTmo p ≤ d.time) (·.closeBand p true true none)
  | none => d

/-- GANG_BAND_TIMEOUT: AVP_FRAME_TMO of the head after a gang frame opened, a port that has not accepted its FRAME_START
closes that band (R465). -/
def gangBandTimeout (d : Dev) (p : Nat) : Dev :=
  d.forEach ((d.clr.frames.filter fun r =>
    r.waiting.contains p && r.openedAt + d.frameTmo r.head ≤ d.time).map (·.id)) fun id d => d.closeMissing id p

/-! ### STATUS (R140, R141) -/

/-- STATUS taken: the body is copied, drops and camera faults are evaluated. -/
def takeStatus (d : Dev) (p : Nat) (k : RxPacket) : Dev :=
  let b := k.body
  let drops := field b 0 4
  let flags := field b 6 2
  let before := slice (d.reg (AVP_CAM_STATUS.addr p 1)).toNat 17 2
  let d := d.forEach (List.range 5) fun i d => d.setReg (AVP_CAM_STATUS.addr p i) (word (field b (4 * i) 4))
  let d := d.when (before = 0 && slice flags 1 2 != 0) fun d =>
    (d.set1 (AVP_PFLAGS.CAM_FAULT p)).notice .alert (idAVP p) 0x028 flags
  let d := match (d.port p).pk.drops with
    | none => d.setPk p fun q => { q with dropsDelivered := drops }
    | some last =>
      let inc := (drops + 2 ^ 32 - last) % 2 ^ 32
      d.when (inc != 0) fun d =>
        let d := (d.countBy (AVP_CAM_DROP_CNT.addr p) inc).set1 (AVP_PFLAGS.CAM_DROP p)
        d.atMost (.camDrops p) (ms 1) fun d => d.notice .alert (idAVP p) 0x022 inc
  d.setPk p fun q => { q with drops := some drops, statusAt := d.time, statusLost := false }

/-- STATUS_RECEIVE. -/
def statusRx (d : Dev) (p : Nat) (k : RxPacket) : Dev :=
  d.receive p k 0x04 (· = 32) true id fun d => d.takeStatus p k

/-- STATUS_LOST: no STATUS for 100 ms in UP or DEGRADED, pushed once (R141). -/
def statusLost (d : Dev) (p : Nat) : Dev :=
  let q := (d.port p).pk
  d.when (d.portUp p && !q.statusLost && q.statusAt + ms 100 ≤ d.time) fun d =>
    ((d.set1 (AVP_PFLAGS.STATUS_LOST p)).notice .alert (idAVP p) 0x029 0).setPk p fun q => { q with statusLost := true }

/-! ### Camera commands (R142, R143) -/

/-- Sending the outstanding COMMAND with its CMD_ID. -/
def sendCommand (d : Dev) (p : Nat) : Dev :=
  let q := (d.port p).pk
  (d.sendPacket p 0x81 q.cmdTag q.cmdBody).setPk p fun q => { q with cmdAt := d.time }

/-- CAMERA_COMMAND_GO (R143): ignored with BAD_STATE while BUSY or off an UP gang head, with BAD_VALUE for a COUNT outside
1 to 128; with both flags where both hold. -/
def commandGo (d : Dev) (p : Nat) : Dev :=
  let n := d.get (AVP_CMD_CTL.COUNT p)
  let badCount : Bool := n = 0 || 128 < n
  let badState := d.is (AVP_CMD_STAT.BUSY p) || d.headOf p != p || !d.portUp p
  if badCount || badState then
    (d.when badState (·.set1 (AVP_FLAGS.BAD_STATE p))).when badCount (·.set1 (AVP_FLAGS.BAD_VALUE p))
  else
    let id := (d.port p).pk.cmdNext
    let wr := d.is (AVP_CMD_CTL.WRITE p)
    let data := (List.range n).flatMap fun i => le 4 (d.reg (AVP_CMD_BUF.addr p i)).toNat
    let d := d.setPk p fun q => { q with
      cmdNext := id % 255 + 1, cmdRetried := false, cmdTag := id + ofBool wr * 2 ^ 8 + n * 2 ^ 16
      cmdBody := le 4 (d.get (AVP_CMD_ADDR.ADDR p) / 4 * 4) ++ (if wr then data else []) }
    let d := ((d.put (AVP_CMD_STAT.CMD_ID p) id).set1 (AVP_CMD_STAT.BUSY p)).put (AVP_CMD_STAT.RESULT p) 0
    d.sendCommand p

/-- The end of a command with a RESULT and the count of words returned. -/
def endCommand (d : Dev) (p result count : Nat) : Dev :=
  ((d.unset (AVP_CMD_STAT.BUSY p)).put (AVP_CMD_STAT.RESULT p) result).put (AVP_CMD_STAT.COUNT p) count

/-- RESPONSE_RECEIVE (R142, R143): 16 bytes, or 16 + 4 x COUNT for a read with RESULT 0. DESIGN CHOICE: R142 has the camera repeat ADDRESS and
COUNT and gives the 1680 no test of them, so a RESPONSE with the outstanding CMD_ID is taken with the COUNT it carries (log entry 97). -/
def responseRx (d : Dev) (p : Nat) (k : RxPacket) : Dev :=
  let result := slice k.tag 8 8
  let count := slice k.tag 16 16
  let mine := d.is (AVP_CMD_STAT.BUSY p) && slice k.tag 0 8 = d.get (AVP_CMD_STAT.CMD_ID p)
  let read := !bit (d.port p).pk.cmdTag 8
  let lenOk := fun n => if mine then n = (if read && result = 0 then 16 + 4 * count else 16)
    else n = 16 || (result = 0 && n = 16 + 4 * count)
  d.receive p k 0x05 lenOk true id fun d =>
    if mine then
      let d := d.when (read && result = 0) fun d => d.forEach (List.range (Nat.min count 128)) fun i d =>
        d.setReg (AVP_CMD_BUF.addr p i) (word (field k.body (4 + 4 * i) 4))
      d.endCommand p result count
    else d.orphan p

/-- CAMERA_COMMAND_TIMEOUT: one resend, then RESULT 5 (R143). TMO 0 acts as 1. DESIGN CHOICE: a port that an apply has made no gang head
sends no COMMAND, so its outstanding one is not sent again and ends at the second timeout (log entry 81). -/
def commandTimeout (d : Dev) (p : Nat) : Dev :=
  let q := (d.port p).pk
  let tmo := us (100 * Nat.max 1 (d.get (AVP_CMD_CTL.TMO p)))
  if !d.is (AVP_CMD_STAT.BUSY p) || d.time < q.cmdAt + tmo then d
  else if !q.cmdRetried then
    let d := if d.headOf p = p then (d.count (AVP_CMD_RETRY_CNT.addr p)).sendCommand p
      else d.setPk p fun q => { q with cmdAt := d.time }
    d.setPk p fun q => { q with cmdRetried := true }
  else
    let d := (d.endCommand p 5 0).set1 (AVP_PFLAGS.CMD_TIMEOUT p)
    d.notice .alert (idAVP p) 0x024 (d.get (AVP_CMD_STAT.CMD_ID p))

/-! ### Time and ranging (R145-R149) -/

/-- TIME_SEND: the 16 TIMEs after entry go 10 us apart, later ones every INTERVAL; `frac` is TX_FRAC. -/
def timeSend (d : Dev) (p : Nat) (frac : Byte) : Dev :=
  let r := (d.port p).rng
  let gap := if r.sentSinceUp < 16 then us 10 else us (d.get (AVP_RANGE_CTL.INTERVAL p))
  if !(d.portUp p && d.headOf p = p) || (0 < r.sentSinceUp && d.time < r.lastAt + gap) then d
  else
    let dv := ofBool (d.is (AVP_RANGE_STAT.RANGED p))
    let body := le 8 d.time ++ [frac] ++ le 1 dv ++ le 2 0 ++ le 4 (d.get (AVP_RANGE_D.D p))
    let d := d.sendPacket p 0x83 r.nextId body
    let t : TimeSent := ⟨r.nextId, d.time * 256 + frac.toNat⟩
    d.setRng p fun r => { r with
      nextId := (r.nextId + 1) % 2 ^ 32, sentSinceUp := r.sentSinceUp + 1, lastAt := d.time
      sent := (r.sent ++ [t]).drop (r.sent.length - 3) }

/-- The mean of the accepted values, rounded to the nearest 1/256 dt with halves up (R148). -/
def meanOf (l : List Int) : Int := if l.isEmpty then 0 else (2 * l.sum + l.length) / (2 * l.length)

/-- A value of d_new accepted (R148, R149). -/
def acceptRange (d : Dev) (p : Nat) (v : Int) : Dev :=
  let d := d.setRng p fun r => { r with held := (r.held ++ [v]).drop (r.held.length - 15), total := r.total + 1, rejects := 0 }
  let r := (d.port p).rng
  let m := meanOf r.held
  let d := (d.put (AVP_RANGE_D.D p) (unsigned 32 m)).put (AVP_RANGE_STAT.ACCEPTED p) r.held.length
  if !d.is (AVP_RANGE_STAT.RANGED p) then
    d.when (16 ≤ r.total) fun d =>
      ((d.set1 (AVP_RANGE_STAT.RANGED p)).setRng p fun r => { r with ref := m }).notice .event (idAVP p) 0x027 (unsigned 32 m)
  else d.when (256 < (m - r.ref).natAbs) fun d =>
    (((d.notice .alert (idAVP p) 0x023 (unsigned 32 (m - r.ref))).set1 (AVP_PFLAGS.RANGE_SHIFT p)).setRng p
      fun r => { r with ref := m })

/-- TIME_ECHO taken (R147, R148): `rx` is the arrival in 1/256 dt. -/
def takeEcho (d : Dev) (p : Nat) (k : RxPacket) (rx : Nat) : Dev :=
  match (d.port p).rng.sent.find? (·.id = k.tag) with
  | none => d.orphan p
  | some t =>
    let rtt := (rx : Int) - t.tx - field k.body 0 4
    let v := (rtt + signed 32 (d.reg (AVP_RANGE_ASYM.addr p)).toNat + 1) / 2
    let r := (d.port p).rng
    let now := signed 32 (d.get (AVP_RANGE_D.D p))
    if r.held.length < 16 || (v - now).natAbs ≤ 1024 then d.acceptRange p v
    else
      let d := d.count (AVP_RANGE_OUTLIER_CNT.addr p)
      if r.rejects + 1 < 16 then d.setRng p fun r => { r with rejects := r.rejects + 1 }
      else (d.setRng p fun r => { r with held := [], rejects := 0 }).put (AVP_RANGE_STAT.ACCEPTED p) 0

/-- TIME_ECHO_RECEIVE. -/
def timeEcho (d : Dev) (p : Nat) (k : RxPacket) (rx : Nat) : Dev :=
  d.receive p k 0x06 (· = 20) true id fun d => d.takeEcho p k rx

/-! ### Exposure commands (R151-R155) -/

/-- Recording a command sent to a gang head: the last 64 stay, and its exposure holds a drain until it ends (R88, R136). An older command
with the same number is no longer the one that a band names. -/
def recordCommand (d : Dev) (h : Nat) (c : SentCommand) : Dev :=
  let d := d.forEach (d.gang h) fun p d => d.setPk p fun k => { k with
    closed := k.closed.filter (· != (c.source, c.id)), accepted := k.accepted.filter (· != (c.source, c.id)) }
  let d := d.setPk h fun k => { k with
    sent := ((k.sent.filter fun e => !(e.source = c.source && e.id = c.id)).drop (k.sent.length - 63)) ++ [c] }
  (d.setCad fun x => { x with exposures := d.cad.exposures ++ [⟨h, c.source, c.id, c.tick, c.expose, none⟩] })

/-- SCHEDULE to a gang head for a tick (R151): withheld where the port is not RANGED. -/
def sendSchedule (d : Dev) (h tick tickTime phase : Nat) (strike : Option Nat) : Dev :=
  if !d.portUp h || !d.is (AVP_RANGE_STAT.RANGED h) then
    (d.set1 (AVP_PFLAGS.SCHED_WITHHELD h)).atMost (.schedWithheld h) (ms 1) fun d =>
      d.notice .alert (idAVP h) 0x025 tick
  else
    let t := tickTime + phase
    let d := (d.sendPacket h 0x82 (tick % 2 ^ 32) (le 8 t ++ le 4 0)).count (AVP_SCHED_CNT.addr h)
    d.recordCommand h ⟨srcSchedule, tick % 2 ^ 32, t, tick, strike⟩

/-- URGENT_FIRE: an activation waits for a block boundary, or is refused (R154). -/
def urgentFire (d : Dev) (p : Nat) : Dev :=
  if d.headOf p = p && d.portUp p && d.is (AVP_RANGE_STAT.RANGED p) && d.exposing then
    d.setLink p fun l => { l with urgents := l.urgents ++ [d.time] }
  else (d.count (AVP_URGENT_REFUSED_CNT.addr p)).set1 (AVP_PFLAGS.URGENT_REFUSED p)

/-- URGENT_SEND: the oldest waiting URGENT leaves the DL balls `frac`/256 dt after now, or is refused where the mode or the port no longer
allows it, or the port is no gang head any more (R153-R157). -/
def urgentSend (d : Dev) (p : Nat) (frac : Byte) : Dev :=
  match (d.port p).link.urgents with
  | [] => d
  | _ :: rest =>
    let d := d.setLink p fun l => { l with urgents := rest }
    if d.headOf p = p && d.portUp p && d.is (AVP_RANGE_STAT.RANGED p) && d.exposing then
      let id := (d.port p).pk.urgId
      let lat := (d.reg (AVP_CAM_CAPS.addr p 2)).toNat
      let t256 := (d.time * 256 + frac.toNat : Int) + signed 32 (d.get (AVP_RANGE_D.D p)) + lat
      let d := (d.emit (.block p ([0x2D, BitVec.ofNat 8 id, 0x01] ++ le 5 0))).count (AVP_URGENT_CNT.addr p)
      let d := d.setPk p fun k => { k with urgId := (id + 1) % 256 }
      d.recordCommand p ⟨srcUrgent, id, ((2 * t256 + 256) / 512).toNat, d.get64 CAD_TICK.addr, none⟩
    else (d.count (AVP_URGENT_REFUSED_CNT.addr p)).set1 (AVP_PFLAGS.URGENT_REFUSED p)

end Dev
end Sys2Proof.Machine
end

