-- ==== Sys2Proof/Machine/Recipe.lean ====
section
/-! DEFINITION. The microcode of a teller: one pixel group run word by word (R171-R178), with the tally records of the
centroid unit (R210-R212). -/

namespace Sys2Proof.Machine

/-- What a group sees beside the teller's registers: frame geometry, the line and group, the pixel of a frame line at a
column, the stores, and the seed of its open values. -/
structure GroupEnv where
  width : Nat
  height : Nat
  bits : Nat
  line : Nat
  group : Nat
  firstGroup : Bool
  lastGroup : Bool
  ctxB : Nat
  ctxA : Nat
  statSh : Nat
  winSh : Nat
  satLevel : Nat
  pixel : Nat → Nat → Nat
  coef : Nat → Nat
  streamWord : Nat → Nat
  lookup : Nat → Nat
  seed : Nat

/-- A running group: the teller, the words issued, and the accumulators that saturated. -/
structure GroupRun where
  t : Teller
  pc : Nat
  steps : Nat
  saturated : Bool
  last : Nat := 0

/-- Clamps. -/
def clampInt (lo hi v : Int) : Int := if v < lo then lo else if hi < v then hi else v
def u16 (v : Int) : Int := v % 65536
def s16 (v : Int) : Int := if v % 65536 < 32768 then v % 65536 else v % 65536 - 65536

/-- Leading zeros of a 16-bit value (R173). -/
def clz16 (n : Nat) : Nat := ((List.range 16).find? fun i => n.testBit (15 - i)).getD 16

/-- The result of an ALU operation on one lane (R173): none where nothing is written. -/
def aluLane (op sh : Nat) (sat f : Bool) (a b : Int) : Option Int :=
  let uns := fun v => some (if sat then clampInt 0 65535 v else u16 v)
  let sgn := fun v => some (u16 (if sat then clampInt (-32768) 32767 v else v))
  let nat := fun (g : Nat → Nat → Nat) => some ((g a.toNat b.toNat : Nat) : Int)
  match op with
  | 0x01 => some a
  | 0x02 => uns (a + b)
  | 0x03 => uns (a - b)
  | 0x04 => uns (a - b).natAbs
  | 0x05 => uns (a * b / 2 ^ sh)
  | 0x06 => nat (· &&& ·)
  | 0x07 => nat (· ||| ·)
  | 0x08 => nat (· ^^^ ·)
  | 0x09 => some (65535 - a)
  | 0x0A => uns (a * 2 ^ sh)
  | 0x0B => some (a / 2 ^ sh)
  | 0x0C => some (u16 (s16 a / 2 ^ sh))
  | 0x0D => some (min a b)
  | 0x0E => some (max a b)
  | 0x0F => some (if f then a else b)
  | 0x10 => sgn (s16 a + s16 b)
  | 0x11 => sgn (s16 a - s16 b)
  | 0x12 => some (u16 (min (s16 a) (s16 b)))
  | 0x13 => some (u16 (max (s16 a) (s16 b)))
  | 0x14 => some (clz16 a.toNat)
  | 0x15 => some ((a + b + 1) / 2)
  | _ => none

/-- The comparison of CMP on one lane (R174). -/
def cmpLane (c : Nat) (a b : Int) : Bool :=
  match c with
  | 1 => b < a
  | 2 => b ≤ a
  | 3 => a = b
  | 4 => a < b
  | 5 => s16 b < s16 a
  | _ => false

namespace GroupEnv

/-- The column of a lane, and whether the lane is active (R177). -/
def col (e : GroupEnv) (l : Nat) : Nat := 32 * e.group + l
def active (e : GroupEnv) (l : Nat) : Bool := e.col l < e.width

/-- The frame line a window row or a context line reads: lines outside the frame read as the first or last one, lines the
teller does not hold as the nearest it holds toward line y (R165, R174). -/
def row (e : GroupEnv) (dy : Int) : Nat :=
  let y : Int := e.line
  let inFrame := clampInt 0 ((e.height : Int) - 1) (y + dy)
  (clampInt (y - e.ctxB) (y + e.ctxA) inFrame).toNat

/-- A pixel of a teller's line store at a column, with the edge rule of R174 and the teller's own LS writes. -/
def px (e : GroupEnv) (t : Teller) (y : Nat) (x : Int) : Int :=
  let c := (clampInt 0 ((e.width : Int) - 1) x).toNat
  match t.overlay.find? (·.1 = y * 2 ^ 16 + c) with
  | some v => v.2
  | none => e.pixel y c

/-- The line LSLOT names (R174): lines above or below the frame read as the first or last. DESIGN CHOICE: LS 4 writes where such a line is
read, into the first or last line; R165 and R174 state the clamp for reads only (log entry 88). -/
def slotLine (e : GroupEnv) (s : Nat) : Nat :=
  let dy : Int := match s with | 0 => 0 | 1 => -1 | 2 => -2 | 3 => -3 | 4 => 1 | _ => 2
  (clampInt 0 ((e.height : Int) - 1) ((e.line : Int) + dy)).toNat

/-- The window of a lane: offsets and pixel values, top row first. -/
def window (e : GroupEnv) (t : Teller) (l r : Nat) : List (Int × Int × Int) :=
  let n := 2 * r + 1
  (List.range (n * n)).map fun i =>
    let dx := ((i % n : Nat) : Int) - r
    let dy := ((i / n : Nat) : Int) - r
    (dx, dy, e.px t (e.row dy) ((e.col l : Int) + dx))

/-- A source of a microword on one lane (R172). What PIX gives an inactive lane, which has no pixel, the spec does not state: it is an open
value (R177, log entry 88). -/
def source (e : GroupEnv) (t : Teller) (m s l : Nat) : Int :=
  let acc := ((t.acc.getD (Mw.acs m) []).getD l 0) / 2 ^ Mw.sh m
  if s < 16 then (t.x.getD s []).getD l 0
  else match s with
    | 16 => if e.active l then e.px t e.line (e.col l) else ((Config.openValue e.seed (2 ^ 24 + l) % 65536 : Nat) : Int)
    | 17 => t.lsr.getD l 0
    | 18 => t.coef.getD l 0
    | 19 => t.lutr.getD l 0
    | 20 => t.winr.getD l 0
    | 21 => Mw.imm m
    | 22 => clampInt 0 65535 acc
    | 23 => u16 (clampInt (-32768) 32767 acc)
    | 24 => u16 (e.col l)
    | 25 => u16 e.line
    | 26 => l
    | _ => if t.f.getD l false then 1 else 0

end GroupEnv

/-- A tally record (R210-R212) of a window of `v` values around (xc, yc), with threshold and saturation level. -/
def tallyRecord (win : List (Int × Int × Int)) (xc yc width height thresh sat r : Nat) : List Byte :=
  let ws := win.map fun e => (e.1, e.2.1, max 0 (e.2.2 - (thresh : Int)))
  let s := (ws.map (·.2.2)).sum
  let sx := (ws.map fun e => e.1 * e.2.2).sum
  let sy := (ws.map fun e => e.2.1 * e.2.2).sum
  let mxx := (ws.map fun e => e.1 * e.1 * e.2.2).sum
  let myy := (ws.map fun e => e.2.1 * e.2.1 * e.2.2).sum
  let x := if s = 0 then (xc : Int) * 256 else xc * 256 + (512 * sx + s) / (2 * s)
  let y := if s = 0 then (yc : Int) * 256 else yc * 256 + (512 * sy + s) / (2 * s)
  let x := clampInt 0 (((width : Int) - 1) * 256) x
  let y := clampInt 0 (((height : Int) - 1) * 256) y
  let hi := max mxx myy
  let lo := min mxx myy
  let aspect := if s = 0 || 2 * hi < 3 * lo then 0 else if hi < 3 * lo then 1 else 2
  let area := (ws.filter fun e => 0 < e.2.2).length
  let peak := ((win.find? fun e => e.1 = 0 && e.2.1 = 0).map (·.2.2)).getD 0
  let anySat := win.any fun e => (sat : Int) ≤ e.2.2
  let edge := xc < r || yc < r || width ≤ xc + r || height ≤ yc + r
  let flags := aspect * 32 + ofBool (s = 0) * 16 + ofBool anySat * 8 + ofBool edge * 4 + ofBool (r = 1)
  le 3 x.toNat ++ le 3 y.toNat ++ le 4 s.toNat ++ le 2 area ++ le 2 peak.toNat ++ le 1 flags ++ le 1 0

/-- Adding a value to the statistics (R196). -/
def Stats.add (s : Stats) (v sh sat : Nat) : Stats :=
  { s with
    sum := s.sum + v, min := Nat.min s.min v, max := Nat.max s.max v, sat := s.sat + ofBool (sat ≤ v)
    hist := Tab.upd (fun _ => 0) s.hist (Nat.min 255 (v / 2 ^ sh)) (· + 1) }

/-- Detections counted (R209). -/
def Stats.addFound (s : Stats) (n : Nat) : Stats := { s with found := Nat.min (2 ^ 32 - 1) (s.found + n) }

/-- The sum of two statistics; counts saturate at 2^32 - 1. -/
def Stats.merge (a b : Stats) : Stats :=
  { sum := a.sum + b.sum, min := Nat.min a.min b.min, max := Nat.max a.max b.max, sat := Nat.min (2 ^ 32 - 1) (a.sat + b.sat)
    found := Nat.min (2 ^ 32 - 1) (a.found + b.found)
    hist := b.hist.foldl (fun h e => Tab.upd (fun _ => 0) h e.1 fun n => Nat.min (2 ^ 32 - 1) (n + e.2)) a.hist }

/-- The mint unit takes a group's values (R207): an open record of another line, or of this line that the group does not
follow, is closed; `close` is MINT 2. -/
def mintGroup (recs : List MintRec) (line group : Nat) (vals ups : List Nat) (close : Bool) : List MintRec :=
  let fits := match recs.getLast? with
    | some r => !r.closed && r.line = line && r.next = group
    | none => false
  if fits then
    (recs.dropLast) ++ (recs.getLast?.toList.map fun r => { r with
      vals := r.vals ++ vals, ups := r.ups ++ ups, pixels := r.pixels + vals.length, next := group + 1, closed := close })
  else
    (recs.map fun r => { r with closed := true })
      ++ [{ line := line, x0 := 32 * group, vals := vals, ups := ups, pixels := vals.length, segs := [], next := group + 1, closed := close }]

/-- Landing the results whose time has come (R176). Two results that land on one place together leave an open value there. -/
def landAll (e : GroupEnv) (steps : Nat) (t : Teller) (l : List Flight) : Teller × Bool :=
  let clash := fun (f : Flight) (i : Nat) =>
    1 < (l.filter fun g => g.target = f.target && g.mask.getD i false).length
  let put := fun (f : Flight) (old : List Int) => (List.range 32).map fun i =>
    if !f.mask.getD i false then old.getD i 0
    else if clash f i then ((Config.openValue e.seed (2 ^ 26 + steps * 32 + i) % 65536 : Nat) : Int) else f.vals.getD i 0
  l.foldl (fun (s : Teller × Bool) f =>
    let t := s.1
    match f.target with
    | .x i => ({ t with x := t.x.set i (put f (t.x.getD i [])) }, s.2)
    | .flag => ({ t with f := (put f (t.f.map fun b => if b then 1 else 0)).map (fun v => v % 2 != 0) }, s.2)
    | .lsr => ({ t with lsr := put f t.lsr }, s.2)
    | .coef => ({ t with coef := put f t.coef }, s.2)
    | .lutr => ({ t with lutr := put f t.lutr }, s.2)
    | .winr => ({ t with winr := put f t.winr }, s.2)
    | .accClear i => ({ t with acc := t.acc.set i (lanes32 0) }, s.2)
    | .accAdd i =>
      let raw := (List.range 32).map fun j => (t.acc.getD i []).getD j 0 + f.vals.getD j 0
      ({ t with acc := t.acc.set i (raw.map (clampInt (-(2 ^ 31)) (2 ^ 31 - 1))) },
        s.2 || raw.any fun v => v < -(2 ^ 31) || 2 ^ 31 - 1 < v)) (t, false)

/-- One microword (R171-R177): every unit reads before any writes, results land L words after issue. -/
def stepWord (e : GroupEnv) (m : Nat) (r : GroupRun) : GroupRun :=
  let t := r.t
  let lanes := List.range 32
  let a := lanes.map fun l => e.source t m (Mw.sa m) l
  let b := lanes.map fun l => e.source t m (Mw.sb m) l
  let f := fun l => t.f.getD l false
  let A := fun l => a.getD l 0
  let B := fun l => b.getD l 0
  let pred := fun l => match Mw.pred m with | 1 => f l | 2 => !f l | _ => true
  let all := lanes.map fun _ => true
  let fl := fun (n : Nat) (tg : Target) (v : Nat → Int) (k : List Bool) => (⟨n, tg, lanes.map v, k⟩ : Flight)
  -- ALU
  let alu := fun l => aluLane (Mw.op m) (Mw.sh m) (Mw.sat m) (f l) (A l) (B l)
  let f1 := if Mw.op m != 0 && Mw.dst m < 16 then
      [fl (if Mw.op m = 0x05 then 2 else 1) (.x (Mw.dst m)) (fun l => (alu l).getD 0) (lanes.map fun l => pred l && (alu l).isSome)] else []
  -- multiply-accumulate
  let f2 := match Mw.mac m with
    | 1 => [fl 3 (.accAdd (Mw.acs m)) (fun l => A l * B l) all]
    | 2 => [fl 3 (.accAdd (Mw.acs m)) (fun l => s16 (A l) * s16 (B l)) all]
    | 3 => [fl 3 (.accClear (Mw.acs m)) (fun _ => 0) all]
    | _ => []
  -- compare, lookup, line store, coefficients, window
  let f3 := if Mw.cmp m = 0 then [] else [fl 1 .flag (fun l => if cmpLane (Mw.cmp m) (A l) (B l) then 1 else 0) all]
  let idx := fun l => (A l).toNat / 2 ^ Mw.lutSh m
  let f4 := match Mw.lut m with
    | 1 => [fl 2 .lutr (fun l => e.lookup (idx l % 4096)) all]
    | 2 => [fl 2 .lutr (fun l => e.lookup (Nat.min (idx l) 4095)) all]
    | _ => []
  let sl := e.slotLine (Mw.lslot m)
  let ls := fun (dx : Int) => [fl 1 .lsr (fun l => e.px t sl ((e.col l : Int) + dx)) all]
  let f5 := match Mw.ls m with | 1 => ls 0 | 2 => ls (-1) | 3 => ls 1 | _ => []
  let wrote := if Mw.ls m = 4 then
      (lanes.filter fun l => e.active l && pred l).foldl (fun o l =>
        (sl * 2 ^ 16 + e.col l, (A l).toNat) :: o.filter (·.1 != sl * 2 ^ 16 + e.col l)) t.overlay else t.overlay
  let f6 := match Mw.cf m with
    | 1 => [fl 2 .coef (fun l => e.coef (Mw.coff m + e.col l)) all]
    | 2 => [fl 2 .coef (fun l => e.streamWord (e.col l)) all]
    | 3 => [fl 2 .coef (fun l => e.coef ((Mw.coff m + (A l).toNat) % 16384)) all]
    | _ => []
  let centre := fun l => e.px t e.line (e.col l)
  let f7 := match Mw.win m with
    | 1 => [fl 3 .winr (fun l => clampInt 0 65535
        ((((e.window t l 2).zipIdx.map fun p => s16 (e.coef (Mw.coff m + p.2)) * p.1.2.2).sum) / 2 ^ e.winSh)) all]
    | 2 => [fl 3 .flag (fun l => if (e.window t l 2).all (fun p => (p.1 = 0 && p.2.1 = 0) || p.2.2 < centre l)
          && (Mw.imm m : Int) ≤ centre l then 1 else 0) all, fl 3 .winr centre all]
    | 3 => [fl 3 .winr (fun l => clampInt 0 65535 (((e.window t l 1).map (·.2.2)).sum / 2 ^ e.winSh)) all]
    | _ => []
  -- outputs on active lanes
  let act := lanes.filter e.active
  let stats := match Mw.stat m with
    | 1 => act.foldl (fun (s : Stats) l => s.add (A l).toNat e.statSh e.satLevel) t.stats
    | 2 => (act.filter f).foldl (fun (s : Stats) l => s.add (A l).toNat e.statSh e.satLevel) t.stats
    | _ => t.stats
  let cenR := if Mw.cen m = 2 then 1 else 2
  let cens := if Mw.cen m = 1 || Mw.cen m = 2 then act.filter f else []
  let recs := cens.flatMap fun l =>
    tallyRecord (e.window t l cenR) (e.col l) e.line e.width e.height (Mw.imm m) e.satLevel cenR
  let vals := act.map fun l => (A l).toNat
  let outs := (if cens.isEmpty then [] else [(⟨t.frame.getD 0, .tally, e.line, e.group, [], recs⟩ : Piece)])
    ++ (match Mw.out m with
      | 1 => [⟨t.frame.getD 0, .a, e.line, e.group, vals, []⟩]
      | 2 => [⟨t.frame.getD 0, .b, e.line, e.group, vals, []⟩]
      | _ => [])
  let mint := if Mw.mint m = 1 || Mw.mint m = 2 then
      mintGroup t.mint e.line e.group (act.map fun l => (A l).toNat % 2 ^ e.bits)
        (act.map fun l => if e.line = 0 then 0 else (B l).toNat % 2 ^ e.bits) (Mw.mint m = 2)
    else t.mint
  -- sequencer
  let cond := match Mw.cond m with
    | 1 => true
    | 2 => e.firstGroup
    | 3 => e.lastGroup
    | 4 => act.any f
    | 5 => act.all f
    | 6 => t.loop != 0
    | _ => false
  let loop := if Mw.lcnt m != 0 then Mw.lcnt m else if Mw.cond m = 6 then t.loop - 1 else t.loop
  let flight := (t.flight ++ f1 ++ f2 ++ f3 ++ f4 ++ f5 ++ f6 ++ f7).map fun g => { g with left := g.left - 1 }
  let (t', sat) := landAll e r.steps t (flight.filter (·.left = 0))
  { t := { t' with
      flight := flight.filter (·.left != 0), overlay := wrote, loop := loop, mint := mint, out := t.out ++ outs
      stats := { stats with found := stats.found + cens.length }, tallies := t.tallies + cens.length
      start := if Mw.ends m && cond then some (Mw.jump m) else none }
    pc := if cond then Mw.jump m else r.pc + 1
    steps := r.steps + 1
    saturated := r.saturated || sat
    last := r.pc % 64 }

/-- Running a group from a word for at most `fuel` words; true where END was reached (R175, R178). -/
def runWords (e : GroupEnv) (mw : Nat → Nat) : Nat → GroupRun → GroupRun × Bool
  | 0, r => (r, false)
  | n + 1, r =>
    let m := mw (r.pc % 64)
    let r' := stepWord e m r
    if Mw.ends m then (r', true) else runWords e mw n r'

/-- A clear of the teller state (R175). -/
def Teller.clear (t : Teller) : Teller :=
  { t with
    x := List.replicate 16 (lanes32 0), acc := List.replicate 4 (lanes32 0), f := List.replicate 32 false, loop := 0
    flight := [], start := none }

end Sys2Proof.Machine
end

