-- ==== Sys2Proof/Machine/Kernel.lean ====
section
/-! DEFINITION. Suruek segments and line records (R201-R208) and the basic kernels (R189-R200): what a line of a frame gives
each stream under a kernel set. -/

namespace Sys2Proof.Machine

/-! ### Suruek coding -/

/-- Fields written least significant bit first, one after another, padded with zeros to a byte (R204). -/
def packFields (l : List (Nat × Nat)) : List Byte :=
  let n := l.foldr (fun f acc => f.1 % 2 ^ f.2 + acc * 2 ^ f.2) 0
  let w := (l.map (·.2)).sum
  le ((w + 7) / 8) n

/-- The prediction of a pixel (R205). -/
def predictPixel (pred : Nat) (a b c : Int) : Int :=
  match pred with
  | 0 => a
  | 1 => b
  | 2 => if max a b ≤ c then min a b else if c ≤ min a b then max a b else a + b - c
  | _ => (a + b) / 2

/-- The mapped residuals of a segment under a predictor (R205). -/
def mapped (bits pred : Nat) (vals ups : List Nat) : List Nat :=
  (List.range vals.length).map fun j =>
    let b : Int := ups.getD j 0
    let a : Int := if j = 0 then b else vals.getD (j - 1) 0
    let c : Int := if j = 0 then b else ups.getD (j - 1) 0
    let r := signed bits (unsigned bits ((vals.getD j 0 : Int) - predictPixel pred a b c))
    if 0 ≤ r then (2 * r).toNat else (-2 * r - 1).toNat

/-- The code of one mapped residual under Rice parameter `k` (R204). -/
def riceCode (bits k m : Nat) : List (Nat × Nat) :=
  let q := m / 2 ^ k
  if q < 32 then [(2 ^ q - 1, q + 1), (m, k)] else [(2 ^ 32 - 1, 32), (m, bits)]

/-- A segment coded as the mint unit chooses (R206). -/
def codeSegment (bits : Nat) (vals ups : List Nat) : List Byte :=
  let n := vals.length
  let cands := (List.range 4).map fun p => (p, mapped bits p vals ups)
  let best := cands.foldl (fun (b : Nat × List Nat) c => if c.2.sum < b.2.sum then c else b) (cands.headD (0, []))
  let k := ((List.range 15).find? fun k => best.2.sum ≤ n * 2 ^ k).getD 14
  let codes := best.2.flatMap (riceCode bits k)
  if n * bits ≤ (codes.map (·.2)).sum then packFields ([(0, 2), (15, 4)] ++ vals.map fun v => (v, bits))
  else packFields ([(best.1, 2), (k, 4)] ++ codes)

/-- Zero bytes up to an 8-byte boundary. -/
def pad8 (n : Nat) : List Byte := List.replicate ((8 - n % 8) % 8) 0

/-- A line record (R203). -/
def lineRecord (r : MintRec) : List Byte :=
  let h := le 2 r.line ++ le 2 r.x0 ++ le 2 r.pixels ++ le 2 r.segs.length ++ r.segs.flatMap fun s => le 2 s.length
  let body := r.segs.flatten
  h ++ pad8 h.length ++ body ++ pad8 body.length

/-- The frame header and the end record of a mint stream (R202). -/
def mintHeader (bits frameNo tick width height : Nat) : List Byte :=
  le 4 0x4B555253 ++ [1, BitVec.ofNat 8 bits, 8, 0] ++ le 8 frameNo ++ le 8 tick ++ le 2 width ++ le 2 height ++ le 4 0
def mintEnd (records : Nat) : List Byte := le 4 0xFFFF ++ le 4 records

/-- Coding the next segment of a record: 256 pixels, or what a closed record still holds (R207). -/
def MintRec.emit (r : MintRec) (bits : Nat) : MintRec :=
  { r with segs := r.segs ++ [codeSegment bits (r.vals.take 256) (r.ups.take 256)], vals := r.vals.drop 256, ups := r.ups.drop 256 }

/-- A record with all it holds coded (R207). -/
def MintRec.finish (r : MintRec) (bits : Nat) : MintRec := (List.range ((r.vals.length + 255) / 256)).foldl (fun r _ => r.emit bits) r

/-! ### Basic kernels -/

/-- The frame a kernel sees: geometry, raw pixels of received lines (0 for a line never received), the lines that a retired teller has
abandoned, the calibration word at a vault address, and the seed of open values. -/
structure KernelEnv where
  width : Nat
  height : Nat
  bits : Nat
  raw : Nat → Nat → Nat
  missing : Nat → Bool
  gone : Nat → Bool
  vaultWord : Nat → Nat
  seed : Nat

namespace KernelSet

def roiWidth (k : KernelSet) (e : KernelEnv) : Nat := if k.roiW = 0 then e.width - k.roiX else k.roiW
def roiHeight (k : KernelSet) (e : KernelEnv) : Nat := if k.roiH = 0 then e.height - k.roiY else k.roiH
def inRoiLine (k : KernelSet) (e : KernelEnv) (y : Nat) : Bool := k.roiY ≤ y && y < k.roiY + k.roiHeight e

/-- A raw pixel with the edge rule of R174. -/
def rawAt (_ : KernelSet) (e : KernelEnv) (x y : Int) : Nat :=
  e.raw (clampInt 0 ((e.width : Int) - 1) x).toNat (clampInt 0 ((e.height : Int) - 1) y).toNat

/-- The calibration word of a pixel (R193); beyond the columns a calibration frame holds it is open. -/
def calWord (k : KernelSet) (e : KernelEnv) (x y : Nat) : Nat :=
  let wend := k.roiX + k.roiWidth e
  if k.calKind = 0 then 0
  else if x < wend then e.vaultWord (k.calAddr + y * ((2 * wend + 63) / 64 * 64) + 2 * x)
  else Config.openValue e.seed (y * 65536 + x) % 65536

/-- Defect replacement (R191). -/
def replaced (k : KernelSet) (e : KernelEnv) (x y : Nat) : Nat :=
  let p := fun (dx dy : Int) => k.rawAt e ((x : Int) + dx) ((y : Int) + dy)
  if k.defect = 0 || !bit (k.calWord e x y) 15 then p 0 0
  else match k.defect with
    | 1 => (p (-1) 0 + p 1 0 + 1) / 2
    | 2 => (p 0 (-1) + p 0 1 + 1) / 2
    | _ => (p (-1) 0 + p 1 0 + p 0 (-1) + p 0 1 + 2) / 4

/-- The calibrated value of a pixel (R192); 0 where its line was never received. DESIGN CHOICE: COL_DARK and COL_GAIN count as 0 for columns at
or beyond Wend, which the windows at the right edge of the region reach and for which R193 gives the lines no word (log entry 102). -/
def value (k : KernelSet) (e : KernelEnv) (x y : Nat) : Nat :=
  if e.missing y then 0
  else
    let c := k.calWord e x y % 2 ^ 15
    let d := (if k.calKind = 1 then c else 0) + k.colDark.getD x 0
    let g := if k.calKind = 2 then c else if k.colGain.isEmpty then 4096 else k.colGain.getD x 0
    let t := clampInt 0 65535 ((k.replaced e x y : Int) + k.pedestal - d)
    Nat.min 65535 ((t.toNat * g + 2048) / 4096)

def valueAt (k : KernelSet) (e : KernelEnv) (x y : Int) : Int :=
  k.value e (clampInt 0 ((e.width : Int) - 1) x).toNat (clampInt 0 ((e.height : Int) - 1) y).toNat

/-- The pixel of stream A before binning. -/
def pixelA (k : KernelSet) (e : KernelEnv) (x y : Nat) : Nat := if k.aSrc = 0 then e.raw x y else k.value e x y

/-- The sum of a block of the region (R194, R195); a line abandoned by a retired teller gives zeros (R215). -/
def blockSum (k : KernelSet) (e : KernelEnv) (f : Nat → Nat → Nat) (bx w h row : Nat) : Nat :=
  ((List.range (w * h)).map fun i =>
    let y := k.roiY + row * h + i / w
    if e.gone y then 0 else f (k.roiX + bx * w + i % w) y).sum

/-- The line of stream A that frame line `y` completes (R194, R197): none where it completes none. -/
def lineA (k : KernelSet) (e : KernelEnv) (y : Nat) : List Nat :=
  let top := 2 ^ k.aBits - 1
  let i := y - k.roiY
  if !k.inRoiLine e y then []
  else if k.binX * k.binY ≤ 1 then
    (List.range (k.roiWidth e)).map fun x => if e.missing y then 0 else Nat.min top (k.pixelA e (k.roiX + x) y)
  else if (i + 1) % k.binY = 0 then
    let n := k.binX * k.binY
    (List.range (k.roiWidth e / k.binX)).map fun bx =>
      let s := k.blockSum e (k.pixelA e) bx k.binX k.binY (i / k.binY)
      Nat.min top (if k.binOp = 0 then (s + n / 2) / n else Nat.min 65535 s)
  else []

/-- The thumbnail line that frame line `y` completes (R195). -/
def lineB (k : KernelSet) (e : KernelEnv) (y : Nat) : List Nat :=
  let i := y - k.roiY
  let ts := if k.thumbSh = 0xFF then e.bits - 8 else k.thumbSh
  if k.inRoiLine e y && (i + 1) % 8 = 0 then
    (List.range (k.roiWidth e / 8)).map fun bx => Nat.min 255 (k.blockSum e (k.value e) bx 8 8 (i / 8) / 2 ^ (6 + ts))
  else []

/-- The value the mint stream codes (R201). -/
def coded (k : KernelSet) (e : KernelEnv) (x y : Nat) : Nat :=
  let p := e.raw x y
  if k.surSrc = 0 then p % 2 ^ e.bits
  else (clampInt 0 (2 ^ e.bits - 1) ((p : Int) + k.pedestal - k.colDark.getD x 0)).toNat

/-- The columns of the region that lie in group `g` (R164, R190), counted from the region's first. -/
def columns (k : KernelSet) (e : KernelEnv) (g : Nat) : List Nat := (List.range (k.roiWidth e)).filter fun x => (k.roiX + x) / 32 = g

/-- The part of an output line that leaves with group `g`: its values, each of a block of `w` columns, whose last column lies in the group. -/
def groupPart (k : KernelSet) (w g : Nat) (l : List Nat) : List Nat :=
  (l.zipIdx.filter fun e => (k.roiX + (e.2 + 1) * w - 1) / 32 = g).map (·.1)

/-- The mint unit's records after group `g` of a frame line: the group's coded values join the line's record, which the last group of the
region closes (R201, R207). -/
def mintPart (k : KernelSet) (e : KernelEnv) (y g : Nat) (recs : List MintRec) : List MintRec :=
  let c := k.columns e g
  if !k.inRoiLine e y || e.missing y || c.isEmpty then recs
  else
    let up := fun x => if y = k.roiY || e.missing (y - 1) then 0 else k.coded e (k.roiX + x) (y - 1)
    mintGroup recs y g (c.map fun x => k.coded e (k.roiX + x) y) (c.map up) (k.columns e (g + 1)).isEmpty

/-- The tally records of group `g` of a frame line (R209-R212). -/
def tallyPart (k : KernelSet) (e : KernelEnv) (y g : Nat) : List (List Byte) :=
  if !k.inRoiLine e y || e.missing y then []
  else
    let sat := if k.satLevel = 0 then 2 ^ e.bits - 1 else k.satLevel
    let win := fun (x r : Nat) => (List.range ((2 * r + 1) * (2 * r + 1))).map fun i =>
      let dx := ((i % (2 * r + 1) : Nat) : Int) - r
      let dy := ((i / (2 * r + 1) : Nat) : Int) - r
      (dx, dy, k.valueAt e ((x : Int) + dx) ((y : Int) + dy))
    let r := if k.tallyWin = 1 then 1 else 2
    ((k.columns e g).filter fun x =>
      let v := k.valueAt e (k.roiX + x : Nat) y
      (k.tallyThresh : Int) ≤ v && (win (k.roiX + x) 2).all fun p => (p.1 = 0 && p.2.1 = 0) || p.2.2 < v).map fun x =>
        tallyRecord (win (k.roiX + x) r) (k.roiX + x) y e.width e.height k.tallyThresh sat r

/-- The statistics with group `g` of a frame line (R196). -/
def statPart (k : KernelSet) (e : KernelEnv) (y g : Nat) (s : Stats) : Stats :=
  if !k.inRoiLine e y || e.missing y then s
  else
    let sh := if k.statSh = 0xFF then e.bits - 8 else k.statSh
    let sat := if k.satLevel = 0 then 2 ^ e.bits - 1 else k.satLevel
    (k.columns e g).foldl (fun (s : Stats) x =>
      s.add (if k.statSrc = 0 then e.raw (k.roiX + x) y else k.value e (k.roiX + x) y) sh sat) s

/-- Whether an enabled output uses the calibrated value v; defect replacement and calibration are left out of the recipe where none does
(R189). -/
def usesV (k : KernelSet) : Bool :=
  (bit k.outputs 0 && k.aSrc = 1) || bit k.outputs 2 || bit k.outputs 3 || (bit k.outputs 4 && k.statSrc = 1)

/-- The defect replacement that is part of the recipe. -/
def defectUsed (k : KernelSet) : Nat := if k.usesV then k.defect else 0

/-- The microwords per group of a set (R200). -/
def cost (k : KernelSet) : Nat :=
  let roi := k.roiX != 0 || k.roiY != 0 || k.roiW != 0 || k.roiH != 0
  let binned := 1 < k.binX * k.binY
  4 + (if bit k.outputs 0 && k.aSrc = 0 && !binned then 1 else 0) + (if roi then 2 else 0)
    + (match k.defectUsed with | 0 => 0 | 3 => 7 | _ => 5) + (if k.usesV then 7 else 0) + (if bit k.outputs 4 then 1 else 0)
    + (if bit k.outputs 0 && binned then 12 + k.binX * k.binY else 0) + (if bit k.outputs 3 then 30 else 0)
    + (if bit k.outputs 1 then (if k.surSrc = 0 then 3 else 6) else 0) + (if bit k.outputs 2 then 6 else 0)

/-- The context lines a set needs (R200). -/
def ctxB (k : KernelSet) : Nat :=
  if bit k.outputs 2 then 2 else if bit k.outputs 1 || 2 ≤ k.defectUsed then 1 else 0
def ctxA (k : KernelSet) : Nat := if bit k.outputs 2 then 2 else if 2 ≤ k.defectUsed then 1 else 0

/-- The block height that must not be split between tellers (R199, R200). -/
def blockLines (k : KernelSet) : Nat :=
  Nat.lcm (if bit k.outputs 0 && 1 < k.binX * k.binY then k.binY else 1) (if bit k.outputs 3 then 8 else 1)

end KernelSet
end Sys2Proof.Machine
end

