-- ==== Sys2Proof/Machine/PortLink.lean ====
section
/-! DEFINITION. The link layer of the Avane ports (chapter 04): block lock, slip, deskew, negotiation, port states,
qualification, lane degrade and the PLLs. -/

namespace Sys2Proof.Machine

/-- Port state codes (R115). -/
def stDown : Nat := 0
def stSeek : Nat := 1
def stSlip : Nat := 2
def stDeskew : Nat := 3
def stNegotiate : Nat := 4
def stUp : Nat := 5
def stQualify : Nat := 6
def stDegraded : Nat := 7
def stFault : Nat := 8

/-- The largest of 4, 2 or 1 that does not exceed `n`; 0 for none (R112). -/
def laneCount (n : Nat) : Nat := if 4 ≤ n then 4 else if 2 ≤ n then 2 else if n = 1 then 1 else 0

/-- The mask of lanes of a list. -/
def maskOf (l : List Nat) : Nat := l.foldl (fun m i => m ||| 2 ^ i) 0

/-- The lanes of a mask in ascending order. -/
def lanesOf (m : Nat) : List Nat := (List.range 4).filter (bit m)

namespace Dev

/-- A lasting fault is written to the fault log, 32,768 records long, and FAULT_LOGGED is pushed (R417, R428, R431). The spec lists no action code for some
lasting faults; theirs is an open value. -/
def faultLog (d : Dev) (block : Nat) (action : Option Nat) (unit arg : Nat) : Dev :=
  let a := action.getD (1 + Config.openValue d.fresh 0 % 8)
  let d := if action.isNone then d.draw else d
  let m := d.mgt
  let rec' := le 8 d.time ++ le 1 block ++ le 1 a ++ le 2 unit ++ le 4 arg ++ le 4 m.bootCount ++ le 12 0
  let d := d.setMgt fun m => { m with
    faultLog := (m.faultLog ++ [rec']).drop (m.faultLog.length - 32767), logCount := m.logCount + 1
    lasting := Tab.upd (fun _ => 0) m.lasting block fun n => n + 1 }
  d.notice .info idMGT 0x020 (block * 2 ^ 24 + a * 2 ^ 16 + unit)

/-- What leaving UP and DEGRADED ends: ranging, the camera command, the open band and the bands awaited (R136, R143, R148, R465); behind a
FRAME_START that waits for a place in the frame table the bands close after it (R228). -/
def portLeft (d : Dev) (p : Nat) : Dev :=
  let d := if (d.port p).pk.held.isEmpty then d.closeLeft p else d.setPk p fun k => { k with held := k.held ++ [.left] }
  let d := (d.unset (AVP_RANGE_STAT.RANGED p)).setRng p fun r => { r with sent := [], held := [], total := 0, rejects := 0 }
  d.when (d.is (AVP_CMD_STAT.BUSY p)) fun d => d.endCommand p 6 0

/-- A new epoch (R137, R138): EPOCH rises, the credit counts start again, LIMIT = CAPACITY is sent; ranging and STATUS
start afresh (R140, R148). -/
def newEpoch (d : Dev) (p : Nat) : Dev :=
  let d := d.put (AVP_CREDIT_STAT.EPOCH p) (d.get (AVP_CREDIT_STAT.EPOCH p) + 1)
  let d := (d.put (AVP_CREDIT_USED.USED p) 0).put (AVP_CREDIT_LIMIT.LIMIT p) 0
  let d := d.setPk p fun k => { k with
    freed := 0, stray := none, rxLines := 0, gangTold := false, advanceAt := none, buffer := k.buffer.map fun l => { l with credit := false }
    drops := none, statusAt := d.time, statusLost := false }
  let d := d.setRng p fun r => { r with sentSinceUp := 0, sent := [], held := [], total := 0, rejects := 0, ref := 0 }
  let d := ((d.put (AVP_RANGE_D.D p) 0).put (AVP_RANGE_STAT.ACCEPTED p) 0).unset (AVP_RANGE_STAT.RANGED p)
  d.sendLimit p (d.capacity p)

/-! ### Sampling phase (R98, R99) -/

/-- Where a tracker stands after its first `n` chances to move, from where it started: each moves it by a step down, by none or by a step
up. FREE VALUE: which of them is open (R98, log entry 82). -/
def phaseWalk (start lane : Nat) : Nat → Int
  | 0 => 0
  | n + 1 => phaseWalk start lane n + (Config.phase start lane n % 3 : Nat) - 1

/-- The phase in use on a lane: PI_CODE, or the tracker's, which has moved at most once per 16 blocks at the lane rate since it started
(R98, R99). -/
def phaseNow (d : Dev) (p l : Nat) : Nat :=
  let stored := d.get (AVP_LANE_STAT.PI_NOW p l)
  match (d.port p).link.piAt.find? (·.1 = l) with
  | none => stored
  | some e => unsigned 6 (stored + phaseWalk e.2 (4 * p + l) ((d.time - e.2) * (d.get (AVP_PORT_STAT.RATE p) + 1) / 528))

/-- The tracker of a lane starts from a phase, now; a lane under PI_MAN samples at PI_CODE. -/
def trackFrom (d : Dev) (p l phase : Nat) : Dev :=
  let d := d.setLink p fun k => { k with piAt := k.piAt.filter (·.1 != l) }
  if d.is (AVP_LANE_CTL.PI_MAN p l) then d.put (AVP_LANE_STAT.PI_NOW p l) (d.get (AVP_LANE_CTL.PI_CODE p l))
  else
    let d := d.put (AVP_LANE_STAT.PI_NOW p l) phase
    d.when (2 ≤ d.portState p && d.portState p ≤ 7) fun d => d.setLink p fun k => { k with piAt := (l, d.time) :: k.piAt }

/-- The trackers where a port changes state: they start in SLIP from code 32, and stand still outside SLIP to DEGRADED. DESIGN CHOICE: FAULT,
whose code lies above that of SLIP, is none of the states "from SLIP onward" of R98, so that PI_NOW stands still in it (log entry 98). -/
def trackState (d : Dev) (p s : Nat) : Dev :=
  if s = 2 then d.forEach (List.range 4) fun l d => d.trackFrom p l 32
  else if 2 < s && s < 8 then d
  else d.forEach (List.range 4) fun l d => d.trackFrom p l (d.phaseNow p l)

/-- A change of port state (R115): STATE_CHG and PORT_STATE, with what entering or leaving UP and DEGRADED brings. Packets that have not
left when the port falls back from NEGOTIATE do not leave. -/
def setState (d : Dev) (p s : Nat) : Dev :=
  let old := d.portState p
  if old = s then d
  else
    let was := d.portUp p
    let d := if s = 4 || s = 5 || s = 7 then d else d.setPk p fun k => { k with ready := [] }
    let d := (d.put (AVP_PORT_STAT.STATE p) s).trackState p s
    let d := d.set1 (AVP_FLAGS.STATE_CHG p)
    let d := d.notice .event (idAVP p) 0x010 (old * 16 + s)
    if was && !d.portUp p then d.portLeft p else if !was && d.portUp p then d.newEpoch p else d

/-- A downlink control block made ready; a later block of the same kind replaces a waiting one (R108). -/
def queueBlock (d : Dev) (p : Nat) (b : DlBlock) : Dev :=
  let kind : DlBlock → Nat := fun
    | .degrade _ _ => 0
    | .retrain => 1
    | .rateGo _ => 2
    | .qualStart _ _ => 3
  d.setLink p fun l => { l with blocks := l.blocks.filter (fun x => kind x != kind b) ++ [b] }

/-- The port's rate ceiling restored to 3 (R113). -/
def restoreCeiling (d : Dev) (p : Nat) : Dev := d.put (AVP_PORT_STAT.CEILING p) 3

/-- A failed attempt (R114, R116), begun at `t0`: back to SEEK with RETRAIN and a hold; a reason after a rate switch becomes 5
where `lockFailure` says the failure was one of lock or deskew. -/
def failAttempt (d : Dev) (p reason t0 : Nat) (lockFailure : Bool) : Dev :=
  let switch := match (d.port p).link.kind with | .rateSwitch _ _ _ => true | _ => false
  let reason := if lockFailure && switch then 5 else reason
  let n := (d.port p).link.fails + 1
  let fails := Nat.min 0xFFFF n
  let d := (d.put (AVP_ATTEMPT.FAILS p) fails).put (AVP_ATTEMPT.LAST_REASON p) reason
  let d := (d.setLink p fun l => { l with fails := n }).set1 (AVP_FLAGS.ATTEMPT_FAIL p)
  let d := d.when (n = 1 || n % 100 = 0) (·.notice .alert (idAVP p) 0x012 (reason * 2 ^ 16 + fails))
  let d := d.when (reason = 5) fun d =>
    let d := d.put (AVP_PORT_STAT.CEILING p) (d.get (AVP_PORT_STAT.CEILING p) - 1)
    (d.set1 (AVP_FLAGS.RATE_FALLBACK p)).notice .alert (idAVP p) 0x014 (d.get (AVP_PORT_STAT.CEILING p))
  let d := (d.queueBlock p .retrain).setLink p fun l => { l with
    attempt := none, kind := .fresh, hold := some (t0 + if 100 ≤ n then ms 1000 else ms 10), degrade := none }
  d.setState p stSeek

/-- The instant the attempt in progress began. -/
def attemptAt (d : Dev) (p : Nat) : Nat := (d.port p).link.attempt.getD d.time

/-! ### Enabling, disabling, retraining (R116) -/

def portEnable (d : Dev) (p : Nat) : Dev :=
  let d := d.set1 (AVP_PORT_CTL.EN p)
  d.when (d.portState p = stDown) fun d =>
    (d.setLink p fun l => { l with running := true, hold := none, seekFrom := 0, attempt := none, kind := .fresh }).setState p stSeek

def portDisable (d : Dev) (p : Nat) : Dev :=
  let d := ((d.unset (AVP_PORT_CTL.EN p)).unset (AVP_QUAL_STAT.RUN p)).setState p stDown
  d.setLink p fun l => { l with running := false, attempt := none, kind := .fresh, hold := none, degrade := none, blocks := [] }

def portRetrain (d : Dev) (p : Nat) : Dev :=
  if d.portState p = stDown || d.portState p = stFault then d.set1 (AVP_FLAGS.BAD_STATE p)
  else
    let d := (d.restoreCeiling p).queueBlock p .retrain
    let d := d.setLink p fun l => { l with
      attempt := none, kind := .fresh, hold := none, degrade := none, seekFrom := if l.hold.isSome then d.time else l.seekFrom }
    (d.unset (AVP_QUAL_STAT.RUN p)).setState p stSeek

/-- A lasting internal fault of a port (R116): DL and DLC idle; only EN written 0 leaves FAULT. It is logged as one (R417), except where it is
the PLL's, which is logged as LPH's. -/
def portFault (d : Dev) (p cause : Nat) : Dev :=
  if d.portState p = stDown || d.portState p = stFault then d
  else
    let d := (d.unset (AVP_QUAL_STAT.RUN p)).setState p stFault
    let d := d.setLink p fun l => { l with running := false, attempt := none, kind := .fresh, hold := none, degrade := none, blocks := [] }
    (d.notice .fault (idAVP p) 0x016 cause).when (cause != 2) (·.faultLog (idAVP p) none 0 0)

/-! ### ULC (R116) -/

/-- ULC_STABLE: 10 us after the end of the last hold at the earliest, the attempt begins at rate code 0; `signal` tells the lanes whose
signal detect is asserted. -/
def ulcStable (d : Dev) (p : Nat) (signal : Nat) : Dev :=
  let k := (d.port p).link
  d.when (d.portState p = stSeek && k.hold.isNone && (k.seekFrom = 0 || k.seekFrom + us 10 ≤ d.time)) fun d =>
    let d := d.count (AVP_ATTEMPT_CNT.addr p)
    let d := d.forEach (List.range 4) fun l d =>
      let d := d.put (AVP_LANE_STAT.SIGNAL p l) (ofBool (bit signal l))
      let d := (d.unset (AVP_LANE_STAT.LOCK p l)).unset (AVP_LANE_STAT.ALIGNED p l)
      d.put (AVP_LANE_STAT.EXCLUDED p l) (ofBool !(bit signal l))
    let d := d.put (AVP_PORT_STAT.RATE p) 0
    let d := d.setLink p fun l => { l with
      attempt := some d.time, kind := .fresh, slipAt := d.time, markers := [], boundary := [], degrade := none }
    d.setState p stSlip

def ulcWrongRate (d : Dev) (p : Nat) : Dev :=
  d.when (d.portState p = stSeek && (d.port p).link.hold.isNone) (·.set1 (AVP_FLAGS.ULC_RATE_BAD p))

/-- ULC_LOST: the ceiling is restored in every state (R113); an attempt in progress fails with reason 7, and a port in UP, DEGRADED or
QUALIFY returns to SEEK with a hold. -/
def ulcLost (d : Dev) (p : Nat) : Dev :=
  let s := d.portState p
  let d := d.restoreCeiling p
  if 2 ≤ s && s ≤ 4 then (d.failAttempt p 7 (d.attemptAt p) false).restoreCeiling p
  else d.when (5 ≤ s && s ≤ 7) fun d =>
    let d := d.setLink p fun l => { l with attempt := none, kind := .fresh, hold := some (d.time + ms 10), degrade := none }
    (d.unset (AVP_QUAL_STAT.RUN p)).setState p stSeek

def seekHoldEnd (d : Dev) (p : Nat) : Dev :=
  match (d.port p).link.hold with
  | some t => d.when (t ≤ d.time) fun d => d.setLink p fun l => { l with hold := none, seekFrom := t }
  | none => d

/-! ### Lanes (R109, R110) -/

def bitslip (d : Dev) (p l : Nat) : Dev :=
  if d.portState p = stSlip && d.is (AVP_PORT_CTL.SLIP_MODE p) then
    (d.unset (AVP_LANE_STAT.LOCK p l)).setLink p fun k => { k with
      boundary := Tab.upd (fun _ => 0) k.boundary l fun b => (b + 1) % 66 }
  else d.set1 (AVP_FLAGS.BAD_STATE p)

def laneSignalLoss (d : Dev) (p l : Nat) : Dev :=
  (d.unset (AVP_LANE_STAT.SIGNAL p l)).when (2 ≤ d.portState p && d.portState p ≤ 4) (·.set1 (AVP_LANE_STAT.EXCLUDED p l))

def blockLockGained (d : Dev) (p l : Nat) : Dev :=
  d.when (2 ≤ d.portState p && d.portState p ≤ 7 && d.portState p != stQualify) fun d =>
    (d.set1 (AVP_LANE_STAT.LOCK p l)).set1 (AVP_LANE_STAT.SIGNAL p l)

/-- LANE_DEGRADE (R121): the lanes still locked go on as 2 or 1. The lanes that are removed, the one that lost lock and any that the new
count leaves out, are excluded until the port next passes through SEEK (R123). -/
def laneDegrade (d : Dev) (p l : Nat) (left : List Nat) : Dev :=
  let before := d.get (AVP_PORT_STAT.MASK p)
  let n := Nat.min 2 (laneCount left.length)
  let mask := maskOf (left.take n)
  let d := d.forEach ((lanesOf before).filter fun i => !bit mask i) fun i d => d.set1 (AVP_LANE_STAT.EXCLUDED p i)
  let d := (d.put (AVP_PORT_STAT.MASK p) mask).put (AVP_PORT_STAT.LANES p) n
  let d := (d.queueBlock p (.degrade mask n)).setLink p fun k => { k with degrade := some ⟨mask, n, none, []⟩, markers := [] }
  let d := ((d.set1 (AVP_FLAGS.DEGRADED p)).count (AVP_DEGRADE_CNT.addr p)).notice .alert (idAVP p) 0x011 (before * 16 + mask)
  let d := d.faultLog (idAVP p) (some 5) (4 * p + l) 0
  (d.truncateOpen p).setState p stDegraded

def blockLockLost (d : Dev) (p l : Nat) : Dev :=
  d.when (d.is (AVP_LANE_STAT.LOCK p l) && d.portState p != stQualify) fun d =>
    let d := ((d.unset (AVP_LANE_STAT.LOCK p l)).count (AVP_LOCK_LOSS_CNT.addr p)).set1 (AVP_FLAGS.LOCK_LOST p)
    d.when (d.portUp p && bit (d.get (AVP_PORT_STAT.MASK p)) l) fun d =>
      let left := (lanesOf (d.get (AVP_PORT_STAT.MASK p))).filter fun i => d.is (AVP_LANE_STAT.LOCK p i)
      if left.isEmpty then
        (d.setLink p fun k => { k with hold := some (d.time + ms 10), degrade := none }).setState p stSeek
      else d.laneDegrade p l left

/-- A transient fault of a block counted in its object of area 0xB100 (R417). -/
def transient (d : Dev) (block : Nat) : Dev :=
  d.setMgt fun m => { m with transients := Tab.upd (fun _ => 0) m.transients block fun n => n + 1 }

/-- An invalid header on a locked lane: counted, and as a transient of the port's block (R109). DEDUCED: it counts as isolated when it
comes, while the lane is still locked; a later loss of lock takes no count back (log entry 83). -/
def headerError (d : Dev) (p l : Nat) : Dev :=
  d.when (d.is (AVP_LANE_STAT.LOCK p l) && d.portState p != stQualify) fun d => (d.count (AVP_HDR_ERR_CNT.addr p l)).transient (idAVP p)

/-- RESERVED_CONTROL_BLOCK (R105). -/
def badControl (d : Dev) (p : Nat) : Dev := (d.count (AVP_CTRL_BAD_CNT.addr p)).set1 (AVP_FLAGS.CTRL_BAD p)

/-! ### Slip, deskew, ALIGN (R107, R110, R111, R122) -/

/-- Lanes of the attempt that are not excluded and fulfil a bit of their status. -/
def goodLanes (d : Dev) (p : Nat) (f : Nat → Nat → Bits) : List Nat :=
  (List.range 4).filter fun l => !d.is (AVP_LANE_STAT.EXCLUDED p l) && d.is (f p l)

/-- A return to SLIP: lock and alignment start afresh, and a lane whose signal detect is deasserted is excluded at once (R110). -/
def toSlip (d : Dev) (p : Nat) (attempt : Option Nat) (kind : AttemptKind) : Dev :=
  let d := d.forEach (List.range 4) fun l d =>
    let d := (d.unset (AVP_LANE_STAT.LOCK p l)).unset (AVP_LANE_STAT.ALIGNED p l)
    d.when (!d.is (AVP_LANE_STAT.SIGNAL p l)) (·.set1 (AVP_LANE_STAT.EXCLUDED p l))
  (d.setLink p fun k => { k with attempt := attempt, kind := kind, slipAt := d.time, markers := [] }).setState p stSlip

/-- SLIP_END: every lane with signal is locked, or 1 ms has passed (R110, R116). -/
def slipEnd (d : Dev) (p : Nat) : Dev :=
  let live := (List.range 4).filter fun l => !d.is (AVP_LANE_STAT.EXCLUDED p l)
  let locked := d.goodLanes p AVP_LANE_STAT.LOCK
  d.when (d.portState p = stSlip && (locked.length = live.length || (d.port p).link.slipAt + ms 1 ≤ d.time)) fun d =>
    let d := d.forEach live fun l d => d.when (!locked.contains l) (·.set1 (AVP_LANE_STAT.EXCLUDED p l))
    if locked.isEmpty then d.failAttempt p 1 (d.attemptAt p) true
    else (d.setLink p fun k => { k with deskewAt := d.time, markers := [] }).setState p stDeskew

/-- A lane's place in block slots, freed of its marker number, against another lane's (R111). -/
def markerSkew (a b : LaneMarker) : Int := ((a.slot : Int) - b.slot) - 4096 * signed 16 (a.seq + 2 ^ 16 - b.seq % 2 ^ 16)

/-- The skew of every lane of a list from the earliest of them. -/
def skews (m : List (Nat × LaneMarker)) : List (Nat × Nat) :=
  match m with
  | [] => []
  | (_, a) :: _ =>
    let rel := m.map fun e => (e.1, markerSkew e.2 a)
    let low := rel.foldl (fun x e => if e.2 < x then e.2 else x) 0
    rel.map fun e => (e.1, (e.2 - low).toNat)

/-- Block length in dt x 4 at a rate code (R107): 66 bits at 8, 16, 24 or 32 Gb/s. -/
def blockQuarterDt (rate : Nat) : Nat := 132 / (rate + 1)

/-- A lane's markers freed of the skews measured before (R122). -/
def evened (m : List (Nat × LaneMarker)) (skew : List (Nat × Nat)) : List (Nat × LaneMarker) :=
  m.map fun e => (e.1, { e.2 with slot := e.2.slot + 128 - Nat.min 128 (((skew.find? (·.1 = e.1)).map (·.2)).getD 0) })

/-- ALIGN_RECEIVE (R105, R107, R122): `payload` is the block, `slot` the block slot of its lane, `bip` the parity the receiver
formed. DESIGN CHOICE: a lane count of 5 to 15, which R107 does not name, makes the block a reserved-type block as 0 and 3 do (log entry
84). The markers of an extra ALIGN, freed of the skews that DESKEW measured, lie within the 64 blocks of R111 (DEDUCED, log entry 84). -/
def alignReceive (d : Dev) (p l payload slot : Nat) (bip : Byte) : Dev :=
  let count := slice payload 16 4
  if !(count = 1 || count = 2 || count = 4) || slice payload 48 16 != 0xA5C3 then d.badControl p
  else
    let d := d.when (slice payload 40 8 != bip.toNat) (·.count (AVP_BIP_ERR_CNT.addr p l))
    let mark : LaneMarker := ⟨slice payload 24 16, slot⟩
    let put : Link → Link := fun k => { k with markers := (l, mark) :: k.markers.filter (·.1 != l) }
    if d.portState p = stDeskew && d.is (AVP_LANE_STAT.LOCK p l) then d.setLink p put
    else match (d.port p).link.degrade with
      | some g =>
        if bit payload 20 && count = g.count && bit g.mask l && g.sentAt.isSome
            && slice payload 12 4 = (lanesOf g.mask).findIdx (· = l) then
          let d := (d.setLink p put).setLink p fun k => { k with degrade := some { g with seen := l :: g.seen.filter (· != l) } }
          let m := (d.port p).link.markers.filter fun e => bit g.mask e.1
          let all := m.length = g.count
          let fits := (skews (evened m (d.port p).link.skew)).all fun e => e.2 ≤ 64
          d.when (all && fits) fun d => d.setLink p fun k => { k with degrade := none }
        else d
      | none => d

/-- Entering UP or DEGRADED with `n` lanes: success of the attempt (R116); GANG_MISMATCH once per entry (R132). -/
def linkUp (d : Dev) (p : Nat) (mask n : Nat) (full : Bool) : Dev :=
  let d := ((d.put (AVP_PORT_STAT.MASK p) mask).put (AVP_PORT_STAT.LANES p) n).put (AVP_ATTEMPT.FAILS p) 0
  let d := d.setLink p fun k => { k with attempt := none, kind := .fresh, hold := none, fails := 0 }
  (d.setState p (if full then stUp else stDegraded)).checkGang p

/-- The body of a CAPS offer, or of a result where `res` gives version, lanes and rate (R131, R132). -/
def capsBody (d : Dev) (p : Nat) (res : Option (Nat × Nat × Nat)) : List Byte :=
  let ver := if d.get (AVP_PORT_CFG.VER_MAX p) = 1 then 1 else 3
  let rate := Nat.min (d.get (AVP_PORT_CFG.RATE_MAX p)) (d.get (AVP_PORT_STAT.CEILING p))
  let (v, n, r) := res.getD (0, 0, 0)
  le 1 ver ++ le 1 (2 ^ d.get (AVP_PORT_CFG.LANES_MAX p)) ++ le 1 rate ++ le 1 (ofBool res.isSome) ++ le 1 v ++ le 1 n ++ le 1 r ++ le 1 p

/-- A CAPS packet made ready. -/
def sendCaps (d : Dev) (p : Nat) (res : Option (Nat × Nat × Nat)) : Dev := d.sendPacket p 0x87 0 (d.capsBody p res)

/-- CAPS_OFFER_SEND. -/
def offer (d : Dev) (p : Nat) : Dev :=
  (d.sendCaps p none).setLink p fun k => { k with offers := k.offers + 1, offerAt := d.time }

/-- DESKEW_END (R111, R112, R116, R117). DESIGN CHOICE: SKEW shows 127, the most it can hold, for a greater skew (R111, log entry 99); and a
return from QUALIFY with all the negotiated lanes usable enters DEGRADED, as the negotiation did, where they are fewer than the camera offers
(R117, log entry 100). -/
def deskewEnd (d : Dev) (p : Nat) : Dev :=
  let k := (d.port p).link
  let locked := d.goodLanes p AVP_LANE_STAT.LOCK
  let seen := k.markers.filter fun e => locked.contains e.1
  let wait := 2 * 4096 * blockQuarterDt (d.get (AVP_PORT_STAT.RATE p)) / 4
  d.when (d.portState p = stDeskew && (seen.length = locked.length || k.deskewAt + wait ≤ d.time)) fun d =>
    let sk := skews seen
    let ok := (sk.filter fun e => e.2 ≤ 64).map (·.1)
    let d := (d.forEach sk fun e d => d.put (AVP_LANE_STAT.SKEW p e.1) (Nat.min 127 e.2)).setLink p fun k => { k with skew := sk }
    let d := d.forEach (List.range 4) fun l d =>
      if ok.contains l then d.set1 (AVP_LANE_STAT.ALIGNED p l)
      else (d.unset (AVP_LANE_STAT.ALIGNED p l)).set1 (AVP_LANE_STAT.EXCLUDED p l)
    let lanes := (List.range 4).filter ok.contains
    let usable := lanes.take (laneCount lanes.length)
    if usable.isEmpty || (k.kind = .fresh && !usable.contains 0) then d.failAttempt p 2 (d.attemptAt p) true
    else if k.kind = .qualifyReturn then
      let n := laneCount (Nat.min usable.length (d.get (AVP_PORT_STAT.LANES p)))
      d.linkUp p (maskOf (usable.take n)) n (n = d.get (AVP_PORT_STAT.LANES p) && n = k.camLanes)
    else
      let d := (d.put (AVP_PORT_STAT.MASK p) (maskOf usable)).put (AVP_PORT_STAT.LANES p) usable.length
      let d := d.setPk p fun q => { q with rxSeq := none }
      ((d.setLink p fun k => { k with offers := 0 }).setState p stNegotiate).offer p

/-! ### Negotiation (R113, R114, R131, R132) -/

/-- Whether an uplink CAPS body is well formed (R131). -/
def capsOk (b : List Byte) : Bool :=
  let v := field b 0 1
  let n := field b 1 1
  let g := field b 3 1 / 16
  (v = 1 || v = 2 || v = 3) && (n = 1 || n = 2 || n = 4) && field b 2 1 ≤ 3 && (g = 1 || g = 2 || g = 4)
    && field b 3 1 % 16 < g && 8 ≤ field b 4 1 && field b 5 1 < 32 && 1 ≤ field b 6 2 && field b 6 2 ≤ 10000
    && field b 8 4 ≤ 10240000

/-- A CAPS answer taken in NEGOTIATE: the result of R113 is sent, and acted on once it has left (R114, R116, R132). A confirming NEGOTIATE with
any other result, no common version among them, fails with reason 5. DESIGN CHOICE: AVP_PORT_CFG, which is read at each NEGOTIATE, is taken as it
stands at the answer (log entry 85). -/
def takeCaps (d : Dev) (p : Nat) (b : List Byte) : Dev :=
  let mask := field b 0 1
  let cam := field b 1 1
  let d := d.forEach (List.range 6) fun i d => d.setReg (AVP_CAM_CAPS.addr p i) (word (field b (4 * i) 4))
  let d := d.checkGang p
  d.when (d.portState p = stNegotiate) fun d =>
    let switch := match (d.port p).link.kind with | .rateSwitch _ _ _ => true | _ => false
    let ver := if bit mask 1 && d.get (AVP_PORT_CFG.VER_MAX p) = 2 then 2 else if bit mask 0 then 1 else 0
    let usable := lanesOf (d.get (AVP_PORT_STAT.MASK p))
    let n := laneCount (Nat.min cam (Nat.min usable.length (2 ^ d.get (AVP_PORT_CFG.LANES_MAX p))))
    let cap := Nat.min (Nat.min (field b 2 1) (d.get (AVP_PORT_CFG.RATE_MAX p))) (d.get (AVP_PORT_STAT.CEILING p))
    let rate := if ver = 1 then Nat.min 1 cap else cap
    if ver = 0 then d.failAttempt p (if switch then 5 else 4) (d.attemptAt p) false
    else
      let d := (d.sendCaps p (some (ver, n, rate))).boundary p
      let d := (d.put (AVP_PORT_STAT.VERSION p) ver).setLink p fun k => { k with camLanes := cam }
      let up := fun (d : Dev) => d.linkUp p (maskOf (usable.take n)) n (n = cam)
      match (d.port p).link.kind with
      | .rateSwitch v m r => if v = ver && m = n && r = rate then up d else d.failAttempt p 5 (d.attemptAt p) true
      | _ =>
        if rate = d.get (AVP_PORT_STAT.RATE p) then up d
        else
          ((d.queueBlock p (.rateGo rate)).put (AVP_PORT_STAT.RATE p) rate).toSlip p (d.port p).link.attempt (.rateSwitch ver n rate)

/-- CAPS_RECEIVE. -/
def capsRx (d : Dev) (p : Nat) (k : RxPacket) : Dev :=
  d.receive p k 0x07 (· = 36) (capsOk k.body) id fun d => d.takeCaps p k.body

def capsOfferTimeout (d : Dev) (p : Nat) : Dev :=
  let k := (d.port p).link
  d.when (d.portState p = stNegotiate && k.offerAt + us 50 ≤ d.time) fun d =>
    if k.offers < 4 then d.offer p else d.failAttempt p 3 (d.attemptAt p) false

def attemptTimeout (d : Dev) (p : Nat) : Dev :=
  match (d.port p).link.attempt with
  | some t => d.when (2 ≤ d.portState p && d.portState p ≤ 4 && t + ms 5 ≤ d.time) fun d => d.failAttempt p 6 t false
  | none => d

/-- DEGRADE_ALIGN_TIMEOUT: the degrade counts as an attempt begun when its DEGRADE left the balls (R122). -/
def degradeAlignTimeout (d : Dev) (p : Nat) : Dev :=
  match (d.port p).link.degrade with
  | some ⟨_, _, some t, _⟩ => d.when (d.portUp p && t + us 20 ≤ d.time) fun d => d.failAttempt p 2 t false
  | _ => d

/-! ### Qualification (R119, R120) -/

def qualifyStart (d : Dev) (p : Nat) : Dev :=
  if !d.portUp p then d.set1 (AVP_FLAGS.BAD_STATE p)
  else
    let d := d.queueBlock p (.qualStart (d.get (AVP_QUAL_CTL.PATTERN p)) (d.get (AVP_QUAL_CTL.DUR p)))
    let d := d.forEach (List.range 4) fun l d => (d.put64 (AVP_QUAL_ERR.addr p l) 0).put64 (AVP_QUAL_BITS.addr p l) 0
    let d := (d.set1 (AVP_QUAL_STAT.RUN p)).put (AVP_QUAL_STAT.SYNC p) 0
    (d.setLink p fun k => { k with qualAt := none, qualDur := d.get (AVP_QUAL_CTL.DUR p), degrade := none }).setState p stQualify

/-- What the lanes' checkers have counted so far; the counts saturate at 2^48 - 1 and do not fall (R120). -/
def qualCounts (d : Dev) (p : Nat) (active : List (Nat × QualLane)) : Dev :=
  let sat := fun n old => Nat.max old (Nat.min n (2 ^ 48 - 1))
  let d := d.forEach active fun e d =>
    let b := AVP_QUAL_BITS.addr p e.1
    let r := AVP_QUAL_ERR.addr p e.1
    (d.put64 b (sat e.2.bits (d.get64 b))).put64 r (sat e.2.errors (d.get64 r))
  d.put (AVP_QUAL_STAT.SYNC p) (maskOf ((active.filter (·.2.sync)).map (·.1)))

/-- QUALIFY_END: the checkers of the active lanes as they stand. The pattern has ended where every one has counted 2^DUR - 64 bits, or
2^DUR bit times and 100 us have passed since the first bit; before that the registers follow the checkers. DESIGN CHOICE: the first bit
counts as come 1 us after QUAL_START left the balls, the earliest R119 allows (log entry 86). -/
def qualifyEnd (d : Dev) (p : Nat) (lanes : List QualLane) : Dev :=
  let dur := (d.port p).link.qualDur
  let active := (lanesOf (d.get (AVP_PORT_STAT.MASK p))).filterMap fun l => (lanes[l]?).map fun q => (l, q)
  let timed : Bool := match (d.port p).link.qualAt with
    | some t => t + 2 ^ dur / (2 * (d.get (AVP_PORT_STAT.RATE p) + 1)) + us 100 ≤ d.time
    | none => false
  let d := d.when (d.portState p = stQualify) (·.qualCounts p active)
  d.when (d.portState p = stQualify && (timed || active.all fun e => 2 ^ dur - 64 ≤ e.2.bits)) fun d =>
    let noSync := maskOf ((active.filter (!·.2.sync)).map (·.1))
    let errs := maskOf ((active.filter fun e => 0 < e.2.errors).map (·.1))
    let d := (d.unset (AVP_QUAL_STAT.RUN p)).set1 (AVP_FLAGS.QUAL_DONE p)
    (d.notice .event (idAVP p) 0x013 (noSync * 16 + errs)).toSlip p (some d.time) .qualifyReturn

/-! ### Downlink control blocks (R105, R108) -/

def blockBytes : DlBlock → List Byte
  | .degrade m n => [0x55, BitVec.ofNat 8 m, BitVec.ofNat 8 n] ++ le 5 0
  | .retrain => [0x99] ++ le 7 0
  | .rateGo r => [0x66, BitVec.ofNat 8 r] ++ le 6 0
  | .qualStart k n => [0x33, BitVec.ofNat 8 k, BitVec.ofNat 8 n] ++ le 5 0

/-- DOWNLINK_CONTROL_SEND: the block first in the precedence of R108 leaves; a waiting URGENT goes before all of them. -/
def controlSend (d : Dev) (p : Nat) : Dev :=
  let k := (d.port p).link
  let isDeg : DlBlock → Bool := fun | .degrade _ _ => true | _ => false
  let isRet : DlBlock → Bool := fun | .retrain => true | _ => false
  let isRate : DlBlock → Bool := fun | .rateGo _ => true | _ => false
  let pick := (k.blocks.find? isDeg).or ((k.blocks.find? isRet).or ((k.blocks.find? isRate).or k.blocks.head?))
  match pick with
  | none => d
  | some b => d.when (k.running && k.urgents.isEmpty) fun d =>
    let d := (d.emit (.block p (blockBytes b))).setLink p fun k => { k with blocks := k.blocks.filter (· != b) }
    let isQual : Bool := match b with | .qualStart _ _ => true | _ => false
    let d := d.when (isQual && d.portState p = stQualify) fun d => d.setLink p fun k => { k with qualAt := some (d.time + us 1) }
    d.when (isDeg b) fun d => d.setLink p fun k => { k with degrade := k.degrade.map fun g => { g with sentAt := some d.time } }

/-! ### PLLs (R124): PLL 0 is the downlink PLL, PLL 1 + m the ULC reference PLL m -/

def setPll (d : Dev) (pll : Nat) (locked : Bool) : Dev :=
  let d := if pll = 0 then d.put LPH_PLL_STAT.DL_PLL (ofBool locked) else d.put ⟨LPH_PLL_STAT.addr, 1 + pll, 1⟩ (ofBool locked)
  d.put LPH_PLL_STAT.ALL_ULC (ofBool (d.get LPH_PLL_STAT.ULC_PLL = 15))

def pllLocked (d : Dev) (pll : Nat) : Bool := d.bitOf LPH_PLL_STAT.addr (if pll = 0 then 0 else 1 + pll)

/-- A PLL that fails to relock is a lasting fault: every port it serves enters FAULT. -/
def pllLasting (d : Dev) (pll : Nat) : Dev :=
  let d := d.notice .fault idLPH 0x010 (d.reg LPH_PLL_STAT.addr).toNat
  let d := d.faultLog idLPH none 0 0
  d.forEach (if pll = 0 then List.range 16 else (List.range 4).map (4 * (pll - 1) + ·)) fun p d => d.portFault p 2

/-- PLL_LOCK_LOSS: the first loss starts the one retry; a loss while the retry runs is its failure. -/
def pllLoss (d : Dev) (pll : Nat) : Dev :=
  if d.pllLocked pll then d.setPll pll false else d.pllLasting pll

/-- PLL_RELOCK_DONE: a retry that succeeds makes the loss a transient fault (R417). -/
def pllRelock (d : Dev) (pll : Nat) (ok : Bool) : Dev :=
  d.when (!d.pllLocked pll) fun d => if ok then (d.setPll pll true).transient idLPH else d.pllLasting pll

/-! ### Equaliser adaptation (R98, R101) -/

/-- The peaking a lane uses with ADAPT 0 (R100, R102): the override where LPH_EQ_OVR is enabled, PEAK otherwise. -/
def peakBase (d : Dev) (p l : Nat) : Nat :=
  if d.is (LPH_EQ_OVR.EN p) then d.get (LPH_EQ_OVR.PEAK p) else d.get (AVP_LANE_CTL.PEAK p l)

/-- The peaking in use after a write of PEAK, a change of ADAPT or a change of the override: adaptation restarts from it (R100-R102). -/
def refreshPeak (d : Dev) (p l : Nat) : Dev := d.put (AVP_LANE_STAT.PEAK_NOW p l) (d.peakBase p l)

/-- EQUALISER_ADAPT: one step up or down inside PEAK - 2 to PEAK + 2 clipped to 0 to 31, unless a run of more than 4,096 IDLE
and ALIGN blocks holds it; the first edge in any second pushes ADAPT_EDGE. -/
def adapt (d : Dev) (p l : Nat) (up : Bool) (idleRun : Nat) : Dev :=
  let c := d.get (AVP_LANE_CTL.PEAK p l)
  let lo := c - 2
  let hi := Nat.min 31 (c + 2)
  let now := d.get (AVP_LANE_STAT.PEAK_NOW p l)
  d.when (d.is (AVP_LANE_CTL.ADAPT p l) && !d.is (LPH_EQ_OVR.EN p) && idleRun ≤ 4096) fun d =>
    let nxt := if up then Nat.min hi (now + 1) else Nat.max lo (now - 1)
    let d := d.put (AVP_LANE_STAT.PEAK_NOW p l) nxt
    d.when (nxt = if up then hi else lo) fun d =>
      d.atMost (.adaptEdge p l) (ms 1000) fun d => d.notice .info (idAVP p) 0x015 (l + ofBool up * 2 ^ 8)

end Dev
end Sys2Proof.Machine
end

