-- ==== Sys2Proof/Machine/Ticks.lean ====
section
/-! DEFINITION. The ticks to come (chapter 03): their numbers and times, the settings that govern each, and the modes an apply
leads to. -/

namespace Sys2Proof.Machine

/-- The least multiple of 4,000 at or above a time (R67, R76). -/
def ceil4000 (t : Nat) : Nat := (t + 3999) / 4000 * 4000

/-- The mode that an apply with NEXT `next` brings from a mode other than SAFE and other than `next`; none where R87 refuses. -/
def modeJudge (cur next : Nat) : Option Nat :=
  match cur with
  | 0 => if 1 ≤ next && next ≤ 5 then some next else none
  | 5 => if next = 0 || next = 6 then some 6 else none
  | 6 => none
  | _ => if 1 ≤ next && next ≤ 4 then some next else if next = 0 || next = 6 then some 6 else none

namespace Dev

def ticking (d : Dev) : Bool := d.is CAD_STAT.RUNNING

/-- The number of the next tick begun (R66). -/
def nextNum (d : Dev) : Nat := match d.cad.lastTick with | some n => n + 1 | none => 0

/-- Whether the staged settings govern tick `m`: an apply is pending whose tick is `m` or earlier (R76). -/
def stagedFor (d : Dev) (m : Nat) : Bool :=
  match d.cad.apply.bind (·.tick) with
  | some a => a ≤ m
  | none => false

/-- The staged CAD_CTL, or that in force where R77 refuses the staged one. -/
def ctlBad (d : Dev) : Bool :=
  let src := d.get CAD_CTL.SRC
  let role := d.get CAD_CTL.BUS_ROLE
  src = 3 || role = 3 || (role = 2 && src != 2) || (role = 1 && src = 2)
def ctlNext (d : Dev) (f : Bits) : Nat := if d.ctlBad then d.forceGet f else d.get f

/-- A CAD setting as it governs tick `m`. -/
def setting (d : Dev) (m : Nat) (f : Bits) : Nat := if d.stagedFor m then d.get f else d.forceGet f

/-- The source that provides tick `m`: the staged one only above the apply tick, whose own time the old source gives. -/
def sourceFor (d : Dev) (m : Nat) : Nat :=
  match d.cad.apply.bind (·.tick) with
  | some a => if a < m then d.ctlNext CAD_CTL.SRC else d.forceGet CAD_CTL.SRC
  | none => d.forceGet CAD_CTL.SRC

/-- The tick from which TIME tick `m` is counted: the last one planned at or below it, the first of a started cadence, or the last
begun. -/
def tickBase (d : Dev) (m : Nat) : Nat × Nat :=
  match (d.cad.planned.filter (·.num ≤ m)).getLast? with
  | some t => (t.num, t.time)
  | none =>
    match d.cad.startAt, d.cad.lastTick with
    | some s, _ => (d.nextNum, s)
    | none, some n => (n, d.cad.lastTime)
    | none, none => (0, d.cad.lastTime)

/-- The nominal time of TIME tick `m` at or above the base (R64): the period in force during each tick. -/
def timeOf (d : Dev) (m : Nat) : Nat :=
  let b := d.tickBase m
  let a := match d.cad.apply.bind (·.tick) with | some a => Nat.max a b.1 | none => m
  let old := Nat.min m a - b.1
  b.2 + old * d.forceGet CAD_PERIOD.PERIOD + (m - b.1 - old) * d.get CAD_PERIOD.PERIOD

/-- The next tick: that of the TIME source where it governs the next number, else the first planned one (R64). -/
def nextTick (d : Dev) : Option (Nat × Nat) :=
  if !d.ticking then none
  else if d.sourceFor d.nextNum = 0 then some (d.nextNum, d.timeOf d.nextNum)
  else d.cad.planned.head?.map fun t => (t.num, t.time)

/-- The number the next tick fixed by ANGLE or BUS will have: one above the last fixed; under TIME, the first that an apply gives to
another source (R76). -/
def plannedNum (d : Dev) : Nat :=
  match d.cad.planned.getLast? with
  | some q => q.num + 1
  | none => if d.sourceFor d.nextNum != 0 then d.nextNum else match d.cad.apply.bind (·.tick) with
    | some a => Nat.max d.nextNum (a + 1)
    | none => d.nextNum

/-- The first TIME tick whose schedule point has not been taken. -/
def nextSchedule (d : Dev) : Nat :=
  Nat.max d.cad.scheduledTo (if d.sourceFor d.nextNum = 0 then d.nextNum else d.plannedNum)

/-- Whether the schedule point of TIME tick `m` has come (R68). -/
def pointPassed (d : Dev) (m : Nat) : Bool := d.timeOf m ≤ d.time + d.setting m CAD_SCHED_LEAD.LEAD

/-- The mode's behaviour after an apply (R86, R87). -/
def modeAfter (d : Dev) : Nat :=
  let next := d.get DCT_MODE.NEXT
  if next = d.mode || next = d.actMode then d.actMode
  else (modeJudge d.actMode next).getD d.actMode

/-- Whether exposures are commanded for tick `m` (R86). -/
def exposesFor (d : Dev) (m : Nat) : Bool :=
  let q := if d.stagedFor m then d.modeAfter else d.actMode
  1 ≤ q && q ≤ 4

/-- Whether gang head `h` is due on tick `m` (R68). -/
def dueOn (d : Dev) (h m : Nat) : Bool :=
  let v := d.setting m (CAD_PORT.DIV h)
  m % (if v = 0 then 65536 else v) = d.setting m (CAD_PORT.SEL h)

/-- The gang heads under the settings of tick `m`. -/
def headsFor (d : Dev) (m : Nat) : List Nat :=
  (List.range 16).filter fun p => (if d.stagedFor m then d.stagedHead p else d.headOf p) = p

end Dev
end Sys2Proof.Machine
end

