-- ==== Sys2Proof/Machine/Modes.lean ====
section
/-! DEFINITION. Changes of the operating mode (R85-R87), entry into SAFE (R78, R87, R421) and fault marks on frames (R221). -/

namespace Sys2Proof.Machine
namespace Dev

/-- A change of CUR: PREV and BASE follow, NEXT becomes CUR, MODE_CHANGED is pushed (R85, R87). -/
def setMode (d : Dev) (m : Nat) : Dev :=
  let old := d.mode
  let base := if m = 7 then d.actMode else m
  let d := (d.put DCT_MODE.PREV old).put DCT_MODE.BASE base
  let d := (d.put DCT_MODE.CUR m).hwPut DCT_MODE.NEXT m
  let d := if m = 7 then d else (d.setMgt fun x => { x with safeCause := 0 })
  d.notice .event idDCT 0x010 (old * 16 + m)

/-- A mode change that R87 does not permit: NEXT becomes CUR and MODE_REFUSED is pushed. -/
def refuseMode (d : Dev) (next : Nat) : Dev :=
  let d := (d.setCad fun x => { x with refused := true })
  (d.hwPut DCT_MODE.NEXT d.mode).notice .alert idDCT 0x011 (d.mode * 16 + next)

/-- Entry into SAFE cancels a pending apply whole: the ticks that the staged source has fixed are none of the source in force. From then
on the settings in force govern, and a tick whose schedule point under them has passed gets no SCHEDULE any more; a head that has
one for a tick gets no second (R78, `sentTo`). -/
def cancelApply (d : Dev) : Dev :=
  if d.is CAD_APPLY.PENDING then
    let kept := d.cad.planned.filter fun q => d.sourceFor q.num = d.forceGet CAD_CTL.SRC
    let d := (d.setCad fun x => { x with apply := none, planned := kept }).unset CAD_APPLY.PENDING
    if d.ticking && d.forceGet CAD_CTL.SRC = 0 then
      let m := d.nextNum
      let late := (d.time + d.forceGet CAD_SCHED_LEAD.LEAD + 1 - d.timeOf m + d.forceGet CAD_PERIOD.PERIOD - 1)
        / Nat.max 1 (d.forceGet CAD_PERIOD.PERIOD)
      (d.setCad fun x => { x with scheduledTo := m + late })
    else d
  else d

/-- A fault beyond spare capacity: SAFE at once, BASE the mode in force (R87); a further cause in SAFE changes nothing (R421). -/
def safeEntry (d : Dev) (cause : Nat) : Dev :=
  if d.mode = 7 then d
  else
    let d := d.cancelApply.setMode 7
    (d.setMgt fun x => { x with safeCause := cause })

/-- FAULT_ID once a condition of a block reaches an entry that a condition has marked (`marked`) at an instant: the first block stays, of two
that come together the lower ID (R221). -/
def faultBlock (d : Dev) (marked : Bool) (since old block : Nat) : Nat :=
  if !marked then block else if since = d.time then Nat.min old block else old

/-- FAULT_MARKED of a frame, in its frame record and in its entries not yet written (R220, R221). -/
def markFault (d : Dev) (frame block : Nat) : Dev :=
  let d := d.setFrame frame fun r => { r with
    flags := r.flags ||| 0x20, faultId := d.faultBlock (bit r.flags 5) r.faultAt r.faultId block
    faultAt := if bit r.flags 5 then r.faultAt else d.time }
  d.setClr fun x => { x with queue := d.clr.queue.map fun e =>
    if e.frame != frame then e
    else
      let old := slice e.flags 16 8
      { e with
        flags := (e.flags ||| 0x20) - old * 2 ^ 16 + d.faultBlock (bit e.flags 5) e.faultAt old block * 2 ^ 16
        faultAt := if bit e.flags 5 then e.faultAt else d.time } }

end Dev
end Sys2Proof.Machine
end

