-- ==== Sys2Proof/Machine/Vault.lean ====
section
/-! DEFINITION. The internal address space (R14, R15) and the vault as memory (R238-R245): bytes in one canonical form, where an access
is answered with the error response of R16, and poisoned words. -/

namespace Sys2Proof.Machine

/-- The vault's bytes: sparse, an unlisted byte reads 0, as initialisation leaves it (R240). -/
abbrev Vault := List Host.Cell

/-- The vault's size, the bytes of a page, the first pool page and the first page of the basic images (R238, R239). -/
def vaultSize : Nat := 0x0030_0000_0000
def pageSize : Nat := 0x20_0000
def poolTop : Nat := 98271
def poolLow : Nat := 98144

/-- The regions of the internal address space; every other address is reserved (R14). -/
inductive Region where
  | vault | registers | stores | mram | management
  deriving DecidableEq, Repr

/-- The first address of a region and its bytes (R14). -/
def Region.base : Region → Nat
  | .vault => 0
  | .registers => 0x0100_0000_0000
  | .stores => 0x0140_0000_0000
  | .mram => 0x0180_0000_0000
  | .management => 0x01C0_0000_0000
def Region.size : Region → Nat
  | .vault => vaultSize
  | .registers => 0x200_0000
  | .stores => 0x420_0000
  | .mram => 0x80_0000
  | .management => 0x400_0000

/-- The region that holds `n` bytes from an internal address; none where one of them is reserved. -/
def regionOf (a n : Nat) : Option Region :=
  [Region.vault, .registers, .stores, .mram, .management].find? fun r => r.base ≤ a && a + n ≤ r.base + r.size

/-- The internal address of a register, and of a byte of a teller's store window (R14). -/
def registerAddr (off : Nat) : Nat := 0x0100_0000_0000 + off
def storeAddr (t off : Nat) : Nat := 0x0140_0000_0000 + t * 0x2_0000 + off

end Sys2Proof.Machine

namespace Sys2Proof
open Machine

/-- The regions an agent reads and those it writes (R15). -/
def Agent.reads (g : Agent) (r : Region) : Bool :=
  match g with
  | .ringWriter | .clearing => false
  | .teller | .dma | .window => r = .vault
  | .bar0 => r = .registers
  | .charter => r = .stores
  | .core => true
def Agent.writes (g : Agent) (r : Region) : Bool :=
  match g with
  | .teller => false
  | .ringWriter | .clearing => r = .vault
  | _ => g.reads r

end Sys2Proof

namespace Sys2Proof.Machine

namespace Vault

/-- A byte of the vault. -/
def byte (m : Vault) (a : Nat) : Byte := Tab.get (fun _ => (0 : Byte)) m a

/-- Bytes from an address. -/
def read (m : Vault) (a n : Nat) : List Byte := (List.range n).map fun i => byte m (a + i)

/-- A little-endian number at an address. -/
def num (m : Vault) (a k : Nat) : Nat := fromLe (read m a k)

/-- Storing bytes at ascending addresses. -/
def write (m : Vault) (a : Nat) : List Byte → Vault
  | [] => m
  | b :: t => write (Tab.set (fun _ => (0 : Byte)) m a b) (a + 1) t

/-- The canonical form of the vault. -/
def wf (m : Vault) : Bool := Tab.wf (fun _ => (0 : Byte)) m

end Vault

namespace Dev

/-- Whether a page is a pool page that has replaced a retired page (R239, R244). -/
def poolUsed (d : Dev) (page : Nat) : Bool :=
  poolLow ≤ page && page ≤ poolTop && d.is (VLT_POOL.IN_USE (poolTop - page))

/-- Whether `n` bytes from an address are vault that a requester other than VLT reaches: initialised, inside the vault, and
no pool page in use (R16, R239, R240). -/
def vaultReach (d : Dev) (a n : Nat) : Bool :=
  d.is VLT_STAT.INIT_DONE && a + n ≤ vaultSize
    && !((List.range ((a % pageSize + n + pageSize - 1) / pageSize)).any fun i => d.poolUsed (a / pageSize + i))

/-- Whether an agent's access of `n` bytes from an internal address reaches its region; any other access is answered with the error
response of R16. -/
def reaches (d : Dev) (g : Agent) (write : Bool) (a n : Nat) : Bool :=
  match regionOf a n with
  | none => false
  | some r => (if write then g.writes r else g.reads r) && (r != .vault || d.vaultReach a n)

/-- Whether `n` bytes from an address touch a poisoned word (R245). -/
def poisonIn (d : Dev) (a n : Nat) : Bool := d.vlt.poisoned.any fun w => a < w * 8 + 8 && w * 8 < a + n

/-- Whether an agent's read of the vault is answered with data: reached, and no poisoned word (R16, R245). -/
def readsAs (d : Dev) (g : Agent) (a n : Nat) : Bool := d.reaches g false a n && !d.poisonIn a n

/-- Whether a read of the vault is answered with data: reachable and no poisoned word. -/
def vaultReads (d : Dev) (a n : Nat) : Bool := d.vaultReach a n && !d.poisonIn a n

/-- Words written whole are no longer poisoned (R245). -/
def unpoison (d : Dev) (a n : Nat) : Dev :=
  (d.setVlt fun x => { x with poisoned := d.vlt.poisoned.filter fun w => !(a ≤ w * 8 && w * 8 + 8 ≤ a + n) })

end Dev
end Sys2Proof.Machine
end

