-- ==== Sys2Proof/Machine/HepBase.lean ====
section
/-! DEFINITION. What HEP gives the other blocks (chapter 11): configuration space, signals to vectors, errors, tags and
requests. The places of the bits of the configuration space are those of the PCI Express base specification (log entry 30). -/

namespace Sys2Proof.Machine

/-! ### Configuration space (R306-R308) -/

/-- The reset value of a dword of the header: the values of R306 and R309. -/
def cfgHeader (a : Nat) : Nat :=
  match a with
  | 0x00 => 0x16801F3A | 0x04 => 0x00100000 | 0x08 => 0x11800000 | 0x10 => 0x4 | 0x18 => 0xC | 0x20 => 0x4
  | 0x2C => 0x00001F3A | 0x34 => 0x40 | 0x3C => 0x100 | _ => 0

/-- The capability structures of R307, offset, ID and next pointer in one dword; the ID of the 128.0 GT/s structure is an open value. -/
def cfgList (a : Nat) : Nat :=
  match a with
  | 0x40 => 0x00034801 | 0x48 => 0x003F6011 | 0x60 => 0x80020010 | 0x100 => 0x18020001 | 0x180 => 0x19010003
  | 0x190 => 0x1C010019 | 0x1C0 => 0x1D010025 | 0x1D0 => 0x20010026 | 0x200 => 0x2401002A | 0x240 => 0x28010031
  | 0x280 => 0x2C010000 + Config.capability128.toNat | 0x2C0 => 0x31010027 | 0x310 => 0x3201002F | 0x320 => 0x33010018
  | 0x330 => 0x00010015 | _ => 0

/-- The fixed contents and reset values within the structures: MSI-X table and PBA in BAR4, the figures of R308, the serial number, the
exchange of the Data Link Feature, the sizes BAR2 may have (R307, R308, R310), and the base specification's defaults. -/
def cfgFigures (a : Nat) : Nat :=
  match a with
  | 0x4C => 0x00000004 | 0x50 => 0x00008004 | 0x64 => 0x10008022 | 0x68 => 0x00002810 | 0x6C => 0x00418907
  | 0x84 => 0x0003081F | 0x8C => 0x000000FE | 0x108 => 0x00400000 | 0x10C => 0x00462010 | 0x114 => 0x00006000
  | 0x118 => 0x000000A0 | 0x184 => Config.serial.toNat % 2 ^ 32 | 0x188 => Config.serial.toNat / 2 ^ 32
  | 0x1C4 => 0x80000001 | 0x314 => 0x00000006 | 0x334 => 0x007FC000 | 0x338 => 0x00000E22 | _ => 0

/-- The lane registers of the base specification (R307): equalisation control, a word of presets for each lane of an upstream port (two lanes
to a dword at 8.0 GT/s, four at 16.0 to 128.0 GT/s), and lane margining, a control and a status for each of 16 lanes. -/
def laneEq8 (a : Nat) : Bool := 0x19C ≤ a && a < 0x1BC
def laneEq (a : Nat) : Bool := (0x1F0 ≤ a && a < 0x200) || (0x220 ≤ a && a < 0x230) || (0x250 ≤ a && a < 0x260) || (0x290 ≤ a && a < 0x2A0)
def laneMargin (a : Nat) : Bool := 0x2C8 ≤ a && a < 0x308
def cfgLanes (a : Nat) : Nat := if laneEq8 a then 0x7F007F00 else if laneEq a then 0xF0F0F0F0 else if laneMargin a then 0x9C38 else 0

/-- The reset value of a configuration dword. -/
def cfgReset (a : Nat) : Word := BitVec.ofNat 32 (cfgHeader a + cfgList a + cfgFigures a + cfgLanes a)

/-- The fields a configuration write changes: plain ones, and those cleared by writing 1. -/
def cfgPlain (a : Nat) : Nat :=
  if a = 0x04 then 0x546 else if a = 0x0C then 0xFF else if a = 0x10 then 0xFE000000 else if a = 0x14 || a = 0x1C || a = 0x24 then 0xFFFFFFFF
  else if a = 0x20 then 0xFFFF0000 else if a = 0x3C then 0xFF else if a = 0x44 then 0x3 else if a = 0x48 then 0xC0000000
  else if a = 0x68 then 0x79FF else if a = 0x70 then 0xFFB else if a = 0x88 then 0x171F else if a = 0x90 then 0xFFF
  else if a = 0x108 || a = 0x10C then 0x005FF010 else if a = 0x114 then 0x000071C1 else if a = 0x118 then 0x140
  else if a = 0x194 then 0xFE00 else if a = 0x208 then 0x703 else if laneMargin a then 0xFF7F
  else if a = 0x318 then 0x4 else if a = 0x324 then 0x1FFF1FFF else if a = 0x338 then 0x3F00 else 0
def cfgClear (a : Nat) : Nat :=
  if a = 0x04 then 0xF9000000 else if a = 0x68 then 0x000F0000 else if a = 0x104 then 0x005FF010
  else if a = 0x110 then 0x000071C1 else if a = 0x198 || a = 0x1E0 || a = 0x1E4 || a = 0x1E8 then 0xFFFF
  else if a = 0x1DC || a = 0x20C || a = 0x24C || a = 0x28C then 0x10 else 0

/-- The uncorrectable and correctable errors the 1680 reports (R325). -/
def aerUncor : List Nat := [4, 12, 13, 14, 15, 16, 17, 18, 19, 20, 22]
def aerCor : List Nat := [0, 6, 7, 8, 12, 13, 14]

namespace Dev

def cfg (d : Dev) (a : Nat) : Word := Tab.get cfgReset d.hep.cfg a
def setCfg (d : Dev) (a : Nat) (w : Word) : Dev := { d with hep := { d.hep with cfg := Tab.set cfgReset d.hep.cfg a w } }
def cfgBit (d : Dev) (a i : Nat) : Bool := (d.cfg a).getLsbD i
def cfgField (d : Dev) (a lo w : Nat) : Nat := slice (d.cfg a).toNat lo w
def putCfgBit (d : Dev) (a i : Nat) (b : Bool) : Dev :=
  let n := (d.cfg a).toNat
  d.setCfg a (word (if n.testBit i then (if b then n else n - 2 ^ i) else if b then n + 2 ^ i else n))

/-- Enables of the function (R306, R310, R317-R321, R323, R332). -/
def memEnable (d : Dev) : Bool := d.cfgBit 0x04 1
def busMaster (d : Dev) : Bool := d.cfgBit 0x04 2
def d3hot (d : Dev) : Bool := d.cfgField 0x44 0 2 = 3
def msixEnable (d : Dev) : Bool := d.cfgBit 0x48 31
def maxPayload (d : Dev) : Nat := Nat.min 512 (128 * 2 ^ d.cfgField 0x68 5 3)
def maxRead (d : Dev) : Nat := Nat.min 4096 (128 * 2 ^ d.cfgField 0x68 12 3)
def ecrcCheck (d : Dev) : Bool := d.cfgBit 0x118 8

/-- The attributes of a request that carries none of RO, NS and IDO: an MSI-X message, a ledger copy, a status write-back, a zero-length
read, a descriptor fetch (R281, R317). -/
def plain (d : Dev) : Attr := ⟨false, false, false, d.cfgBit 0x118 6⟩

/-- The attributes of a payload request that asks for RO, NS and IDO: each is sent only where its use is enabled (R317). -/
def attrOf (d : Dev) (ro ns ido : Bool) : Attr := ⟨ro && d.cfgBit 0x68 4, ns && d.cfgBit 0x68 11, ido && d.cfgBit 0x88 8, d.cfgBit 0x118 6⟩
def ltrEnable (d : Dev) : Bool := d.cfgBit 0x88 10
def bar2Size (d : Dev) : Nat := 2 ^ (20 + d.cfgField 0x338 8 6)

/-- A packet the port sends: with an ECRC while ECRC Generation Enable is 1 (R317). -/
def sealed (d : Dev) (o : Out) : Out := if d.cfgBit 0x118 6 then .withEcrc o else o

/-- Whether the host port is contained; whether memory requests and messages are held by R321. -/
def contained (d : Dev) : Bool := d.is HEP_CONTAIN_STAT.CONTAINED
def busHeld (d : Dev) : Bool := !d.busMaster || d.d3hot

/-! ### Vectors (R322-R324) -/

/-- The INTA level, sent where it changes and containment does not hold it back (R324, R329). -/
def updateIntx (d : Dev) : Dev :=
  let pend := (d.reg HEP_INTX_PEND_LO.addr &&& d.reg HEP_INTX_MASK_LO.addr) != 0 || (d.reg HEP_INTX_PEND_HI.addr &&& d.reg HEP_INTX_MASK_HI.addr) != 0
  let before := pend && !d.msixEnable
  let d := d.putCfgBit 0x04 19 before
  let level := before && !d.cfgBit 0x04 10
  if level = d.hep.intx || d.contained || d.hep.perst then d
  else (d.setHep fun x => { x with intx := level }).emit (d.sealed (.intx level))

/-- A word of an MSI-X table entry: address low and high, data, vector control; vectors are masked after reset. -/
def msixWord (d : Dev) (v i : Nat) : Word := Tab.get (fun k => if k % 4 = 3 then 1#32 else 0#32) d.hep.msix (4 * v + i)

/-- Whether something holds a message of a vector back (R321, R323, R329). -/
def vectorHeld (d : Dev) (v : Nat) : Bool := d.cfgBit 0x48 30 || (d.msixWord v 3).getLsbD 0 || d.busHeld || d.contained

/-- Sending an MSI-X message. -/
def sendMsix (d : Dev) (v : Nat) : Dev :=
  (d.emit (.msix v ((d.msixWord v 0).toNat + (d.msixWord v 1).toNat * 2 ^ 32) (d.msixWord v 2) d.plain)).count HEP_MSIX_CNT.addr

/-- The HOST cycle of the device's instant, counted from 1, and whether a vector has a signal in it already. -/
def hostCycle (d : Dev) : Nat := d.time / 2 + 1
def signalled (d : Dev) (v : Nat) : Bool := Tab.get (fun _ => 0) d.hep.signalled v = d.hostCycle

/-- A signal to a vector; those of one HOST cycle make one (R322-R324). -/
def signal (d : Dev) (v : Nat) : Dev :=
  if d.signalled v then d
  else
  let d := d.setHep fun x => { x with signalled := Tab.set (fun _ => 0) x.signalled v d.hostCycle }
  if d.msixEnable then
    if d.vectorHeld v then (d.setHep fun x => { x with pba := if d.hep.pba.contains v then d.hep.pba else d.hep.pba ++ [v] })
    else d.sendMsix v
  else
    (if v < 32 then d.setBit HEP_INTX_PEND_LO.addr v else d.setBit HEP_INTX_PEND_HI.addr (v - 32)).updateIntx

/-- A pending message goes once nothing holds it back (R323). -/
def sendPending (d : Dev) (v : Nat) : Dev :=
  d.when (d.hep.pba.contains v && d.msixEnable && !d.vectorHeld v) fun d =>
    (d.setHep fun x => { x with pba := d.hep.pba.filter (· != v) }).sendMsix v

/-! ### Errors (R325-R327) -/

/-- An error message to the host where the base specification's enables let it go; one that SERR# Enable covers sets Signaled System Error. -/
def errMessage (d : Dev) (sev : Nat) : Dev :=
  d.when (d.cfgBit 0x68 sev || (0 < sev && d.cfgBit 0x04 8)) fun d =>
    (d.when (0 < sev && d.cfgBit 0x04 8) (·.putCfgBit 0x04 30 true)).emit (d.sealed (.aerMessage sev))

/-- What is known of the header of a memory request to BAR2, one (bits known, value) for each dword of the header log (R326): the format of
the base specification without Flit Mode, with requester ID, length and the address in BAR2 as the host has placed it; under Flit Mode, whose
header differs, nothing. -/
def requestHeader (d : Dev) (write : Bool) (off len reqId : Nat) : List (Nat × Nat) :=
  let base := (d.cfg 0x18).toNat / 16 * 16 + (d.cfg 0x1C).toNat * 2 ^ 32
  let a := (base + off) % 2 ^ 64
  let long := 2 ^ 32 ≤ a
  let dw := (off % 4 + len + 3) / 4 % 2 ^ 10
  if d.is HEP_LINK_STAT.FLIT then []
  else [(0xFF0003FF, ofBool long * 2 ^ 29 + ofBool write * 2 ^ 30 + dw), (0xFFFF0000, reqId % 2 ^ 16 * 2 ^ 16),
    (2 ^ 32 - 1, if long then a / 2 ^ 32 else a / 4 * 4 % 2 ^ 32)] ++ (if long then [(2 ^ 32 - 1, a / 4 * 4 % 2 ^ 32)] else [])

/-- The header log takes a header: what is not known of it are open values (R326). -/
def logHeader (d : Dev) (h : List (Nat × Nat)) : Dev :=
  (d.forEach (List.range 4) fun i d =>
    let (m, v) := h.getD i (0, 0)
    let a := 0x11C + 4 * i
    d.setCfg a (word (v ||| (Config.openValue d.fresh a &&& ((2 ^ 32 - 1) ^^^ m))))).draw

/-- An uncorrectable error: its status bit, the header log where it is free and the error not masked, MULTIPLE where the log is
occupied, the message and the notice; an advisory one is reported as correctable (R325-R327). -/
def aerErrorOf (d : Dev) (h : List (Nat × Nat)) (bit' : Nat) (advisory : Bool) : Dev :=
  let fatal := d.cfgBit 0x10C bit'
  let advisory := advisory && !fatal
  let masked := d.cfgBit 0x108 bit'
  let log := d.hep.logBit.isNone && !masked
  let d := d.when d.hep.logBit.isSome (·.set1 HEP_FLAGS.MULTIPLE)
  let d := (d.putCfgBit 0x104 bit' true).count HEP_UNCOR_CNT.addr
  let d := if log then
      let d := (d.setHep fun x => { x with logBit := some bit' })
      (d.setCfg 0x118 (word ((d.cfg 0x118).toNat / 32 * 32 + bit'))).logHeader h
    else d
  let d := d.putCfgBit 0x68 (if advisory then 16 else if fatal then 18 else 17) true
  if advisory then
    let d := d.putCfgBit 0x110 13 true
    let d := d.when (!d.cfgBit 0x114 13) (·.errMessage 0)
    d.notice .info idHEP 0x014 (13 + 2 ^ 9 + bit' * 2 ^ 16)
  else
    let d := d.when (!masked) (·.errMessage (if fatal then 2 else 1))
    if fatal then d.notice .fault idHEP 0x012 (bit' + ofBool log * 2 ^ 8)
    else d.notice .alert idHEP 0x013 (bit' + ofBool log * 2 ^ 8)

/-- An uncorrectable error of a packet of whose header nothing is known. -/
def aerError (d : Dev) (bit' : Nat) (advisory : Bool) : Dev := d.aerErrorOf [] bit' advisory

/-- A correctable error (R325, R327). -/
def aerCorrectable (d : Dev) (bit' : Nat) : Dev :=
  let d := ((d.putCfgBit 0x110 bit' true).putCfgBit 0x68 16 true).count HEP_COR_CNT.addr
  (d.when (!d.cfgBit 0x114 bit') (·.errMessage 0)).notice .info idHEP 0x014 bit'

/-- Completer Abort and Unsupported Request answers; a posted request has no completion, so its error is not advisory. They set Signaled
Target Abort, and Unsupported Request Detected. -/
def completerAbortOf (d : Dev) (h : List (Nat × Nat)) (posted : Bool) : Dev :=
  (((d.when (!posted) (·.emit (d.sealed .completerAbort))).count HEP_CA_CNT.addr).putCfgBit 0x04 27 true).aerErrorOf h 15 (!posted)
def unsupportedOf (d : Dev) (h : List (Nat × Nat)) (posted : Bool) : Dev :=
  (((d.when (!posted) (·.emit (d.sealed .unsupportedRequest))).count HEP_UR_CNT.addr).putCfgBit 0x68 19 true).aerErrorOf h 20 (!posted)
def completerAbort (d : Dev) (posted : Bool) : Dev := d.completerAbortOf [] posted
def unsupported (d : Dev) (posted : Bool) : Dev := d.unsupportedOf [] posted

/-- Poisoned data received: Detected Parity Error, and Master Data Parity Error on a completion while Parity Error Response is set (R306). -/
def poisonedTlp (d : Dev) (completion : Bool) : Dev :=
  ((d.putCfgBit 0x04 31 true).when (completion && d.cfgBit 0x04 6) (·.putCfgBit 0x04 24 true)).aerError 12 false

/-! ### Tags (R318-R320) -/

/-- Tag values the width in force permits, and how many requests may be outstanding (R318). -/
def tagValues (d : Dev) : Nat :=
  if d.cfgBit 0x318 2 then 2 ^ 14 else if d.cfgBit 0x88 12 then 2 ^ 10 else if d.cfgBit 0x68 8 then 2 ^ 8 else 2 ^ 5

/-- The next free tag, in rotation, skipping those in use or in quarantine; none while the limit is reached. -/
def freeTag (d : Dev) : Option Nat :=
  let n := d.tagValues
  if Nat.min 1024 n ≤ d.hep.tags.length then none
  else ((List.range n).map fun i => (d.hep.nextTag + i) % n).find? fun t =>
    !(d.hep.tags.any (·.tag = t)) && !(d.hep.quarantine.any (·.1 = t))

/-- HEP_TAG_STAT as the tags stand. -/
def tagStat (d : Dev) : Dev :=
  (d.put HEP_TAG_STAT.OUT d.hep.tags.length).put HEP_TAG_STAT.QUAR (Nat.min 0xFFFF d.hep.quarantine.length)

/-- A non-posted request leaves with a tag of its own. -/
def takeTag (d : Dev) (t chan : Nat) : Dev :=
  (d.setHep fun x => { x with tags := d.hep.tags ++ [(⟨t, chan, d.time⟩ : Tag)], nextTag := t + 1 }).tagStat

/-- A tag whose response has come. -/
def dropTag (d : Dev) (t : Nat) : Dev :=
  (d.setHep fun x => { x with tags := d.hep.tags.filter (·.tag != t) }).tagStat

/-- The completion timeout in force, in dt; none where it is disabled (R319). -/
def timeout (d : Dev) : Option Nat :=
  if d.cfgBit 0x88 4 then none
  else some (match d.cfgField 0x88 0 4 with
    | 1 => us 75 | 2 => ms 5 | 5 => ms 30 | 6 => ms 100 | 9 => ms 500 | 10 => ms 2000 | 13 => ms 8000 | 14 => ms 32000
    | _ => ms 30)

/-- A tag goes into quarantine (R320). -/
def quarantineTag (d : Dev) (t : Nat) : Dev :=
  let hold := match d.timeout with | some x => x + ms 1 | none => ms 1000
  let d := d.dropTag t
  (d.setHep fun x => { x with quarantine := d.hep.quarantine ++ [(t, d.time + hold)] }).tagStat

end Dev
end Sys2Proof.Machine
end

