-- ==== Sys2Proof/Machine/DmaBase.lean ====
section
/-! DEFINITION. The DMA engine's shared operations (chapter 10): descriptors, the funnel, reshuffles, requests, write-backs, completion and
halting of channels, cut records. -/

namespace Sys2Proof.Machine

/-! ### Descriptors (R273-R275) -/

namespace Desc
def ioc (x : Desc) : Bool := bit x.ctl 30
def ledger (x : Desc) : Bool := bit x.ctl 29
def circ (x : Desc) : Bool := bit x.ctl 28
def ro (x : Desc) : Bool := bit x.ctl 27
def ns (x : Desc) : Bool := bit x.ctl 26
def ido (x : Desc) : Bool := bit x.ctl 25
def fence (x : Desc) : Bool := bit x.ctl 24
def shuf (x : Desc) : Nat := slice x.ctl 21 3
def srcBus (x : Desc) : Bool := bit x.ctl 20
def dstBus (x : Desc) : Bool := bit x.ctl 19
def lflush (x : Desc) : Bool := bit x.ctl 18
def tag (x : Desc) : Nat := slice x.ctl 0 16

/-- A descriptor from its 32 bytes (R273). -/
def ofBytes (slot : Option Nat) (l : List Byte) : Desc :=
  { slot := slot, src := field l 0 8, dst := field l 8 8, len := field l 0x10 4, ctl := field l 0x14 4, link := field l 0x18 8 }
end Desc

/-! ### Reshuffles (R290, R291) -/

/-- The geometry of a reshuffle: its kind, bits per sample, pixels per line, first plane, planes less one. Kind 0 copies bytes: lines of one
8-bit sample. -/
structure Shuffle where
  kind : Nat
  bits : Nat
  width : Nat
  first : Nat
  npl : Nat
  deriving DecidableEq, Repr

namespace Shuffle

/-- Samples per pixel, bytes of an input line, bytes of an output sample. -/
def samples (g : Shuffle) : Nat := if g.kind = 3 then 3 else 1
def lineIn (g : Shuffle) : Nat := if g.kind = 0 then 1 else (g.samples * g.width * g.bits + 7) / 8
def sampleOut (g : Shuffle) : Nat := if g.bits = 8 then 1 else 2

/-- The lines of a number of input bytes. -/
def lines (g : Shuffle) (len : Nat) : Nat := len / Nat.max 1 g.lineIn

/-- Whether the geometry and a length obey R290. -/
def fits (g : Shuffle) (len : Nat) : Bool :=
  1 ≤ g.width && g.width ≤ 16384 && len % Nat.max 1 g.lineIn = 0
    && (g.kind != 2 || (g.width % 2 = 0 && g.lines len % 2 = 0)) && (g.kind != 4 || g.first + g.npl + 1 ≤ g.bits)

/-- Output planes. A channel writes in ascending order of output offset (R279), so it takes the source once for each plane (log entry 34). -/
def passes (g : Shuffle) : Nat := match g.kind with | 2 => 4 | 3 => 3 | 4 => g.npl + 1 | _ => 1

/-- Of `h` input lines, those a plane takes: every one, or under the mosaic split every second. -/
def rows (g : Shuffle) (h : Nat) : Nat := if g.kind = 2 then h / 2 else h

/-- Output bytes of a line in one plane. -/
def rowOut (g : Shuffle) : Nat :=
  match g.kind with
  | 0 => 1
  | 1 => 2 * g.samples * g.width
  | 2 => g.width / 2 * g.sampleOut
  | 3 => g.width * g.sampleOut
  | _ => (g.width + 7) / 8

/-- The output's length for `h` input lines (R291). -/
def lenOut (g : Shuffle) (h : Nat) : Nat := g.passes * (g.rows h * g.rowOut)

/-- The plane, the row of it and the byte of the row that an output byte is. -/
def place (g : Shuffle) (h o : Nat) : Nat × Nat × Nat :=
  let p := g.rows h * g.rowOut
  (o / Nat.max 1 p, o % Nat.max 1 p / Nat.max 1 g.rowOut, o % Nat.max 1 g.rowOut)

/-- The samples of its line that byte `j` of a row of plane `q` is made from: the first one and how many. -/
def samplesOf (g : Shuffle) (q j : Nat) : Nat × Nat :=
  match g.kind with
  | 0 => (0, 1)
  | 1 => (j / 2, 1)
  | 2 => (2 * (j / g.sampleOut) + q % 2, 1)
  | 3 => (3 * (j / g.sampleOut) + q, 1)
  | _ => (8 * j, Nat.min 8 (g.width - 8 * j))

/-- The source bytes in the order in which they are taken are numbered through all passes: those an output byte is made from. -/
def need (g : Shuffle) (h o : Nat) : Nat × Nat :=
  let (q, r, j) := g.place h o
  let (i, k) := g.samplesOf q j
  let line := (q * g.rows h + r) * g.lineIn
  (line + i * g.bits / 8, line + ((i + k) * g.bits + 7) / 8)

/-- Source bytes taken in all passes; the place in the source of one of them, and how many from it on stand together there. -/
def taken (g : Shuffle) (h : Nat) : Nat := g.passes * (g.rows h * g.lineIn)
def srcAt (g : Shuffle) (h v : Nat) : Nat :=
  let p := Nat.max 1 (g.rows h * g.lineIn)
  let l := Nat.max 1 g.lineIn
  if g.kind = 2 then (2 * (v % p / l) + v / p / 2) * l + v % l else v % p
def srcRun (g : Shuffle) (h v : Nat) : Nat :=
  let p := Nat.max 1 (if g.kind = 2 then g.lineIn else g.rows h * g.lineIn)
  p - v % p

/-- An output byte from the source bytes it is made of (R291). -/
def outByte (g : Shuffle) (h o : Nat) (l : List Byte) : Byte :=
  let (q, _, j) := g.place h o
  let (i, k) := g.samplesOf q j
  let sample := fun t => slice (fromLe l) (i * g.bits % 8 + t * g.bits) g.bits
  match g.kind with
  | 4 => BitVec.ofNat 8 ((List.range k).map fun t => slice (sample t) (g.first + q) 1 * 2 ^ t).sum
  | 0 => BitVec.ofNat 8 (sample 0)
  | 1 => BitVec.ofNat 8 (slice (sample 0) (8 * (j % 2)) 8)
  | _ => BitVec.ofNat 8 (slice (sample 0) (8 * (j % g.sampleOut)) 8)

/-- Output bytes, with the source bytes of a range as `read` gives them. -/
def outBytes (g : Shuffle) (h : Nat) (read : Nat → Nat → List Byte) (o n : Nat) : List Byte :=
  (List.range n).map fun k => let (a, e) := g.need h (o + k); g.outByte h (o + k) (read a (e - a))

/-- Output bytes that `k` whole lines of a source still growing give: rows of the first plane. -/
def early (g : Shuffle) (k : Nat) : Nat := (if g.kind = 2 then (k + 1) / 2 else k) * g.rowOut

/-- Input lines whose output is issued in full once `w` bytes are (R293). -/
def linesDone (g : Shuffle) (h w : Nat) : Nat :=
  let p := g.rows h * g.rowOut
  let upTo := fun q => Nat.min (g.rows h) ((w - q * p) / Nat.max 1 g.rowOut)
  if g.kind = 2 then upTo 1 + upTo 3 else upTo (g.passes - 1)

end Shuffle

/-- The 64-byte lines of a range of bytes. -/
def linesOf (a n : Nat) : Nat := (a + n + 63) / 64 - a / 64

namespace Dev

/-! ### Channels -/

def chan (d : Dev) (c : Nat) : Chan := Tab.get (fun _ => Chan.reset) d.dma c
def setChan (d : Dev) (c : Nat) (f : Chan → Chan) : Dev := { d with dma := Tab.upd (fun _ => Chan.reset) d.dma c f }

/-- Channel states (R299). A channel that goes on issues requests; one whose ABORT awaits responses does not (R293). -/
def chState (d : Dev) (c : Nat) : Nat := d.get (DMA_CH_STAT.STATE c)
def chIdle (d : Dev) (c : Nat) : Bool := d.chState c = 0 || d.chState c = 4 || d.chState c = 5
def chRuns (d : Dev) (c : Nat) : Bool := (d.chState c = 1 || d.chState c = 2 || d.chState c = 3) && !(d.chan c).aborting
def isStream (d : Dev) (c : Nat) : Bool := d.is (DMA_CH_CFG.STREAM c)
def fed (d : Dev) (c : Nat) : Bool := d.is (DMA_CH_CFG.FEED c)
def fmt2 (d : Dev) (c : Nat) : Bool := d.get (DMA_CH_CFG.FMT c) = 2

/-- Entering a state: DMA_RUN and DMA_HALTED follow, no wait cause. -/
def setChState (d : Dev) (c s : Nat) : Dev :=
  let d := (d.put (DMA_CH_STAT.STATE c) s).put (DMA_CH_STAT.WAIT_CAUSE c) 0
  let d := d.put ⟨DMA_RUN.addr, c, 1⟩ (ofBool (s = 1 || s = 2 || s = 3 || s = 6))
  d.put ⟨DMA_HALTED.addr, c, 1⟩ (ofBool (s = 5))

/-- RUN and WAIT with its cause (R299); STOPPING stays. -/
def waiting (d : Dev) (c cause : Nat) : Dev :=
  if d.chState c = 1 || d.chState c = 2 then (d.setChState c 2).put (DMA_CH_STAT.WAIT_CAUSE c) cause else d
def running (d : Dev) (c : Nat) : Dev := if d.chState c = 2 then d.setChState c 1 else d

/-- DMA_CH_STAT bit 6: the staging buffer holds data. -/
def markStage (d : Dev) (c : Nat) : Dev := d.put ⟨DMA_CH_STAT.addr c, 6, 1⟩ (ofBool !(d.chan c).got.isEmpty)

/-- The reshuffle of a descriptor of a channel (R290). -/
def shuffleOf (d : Dev) (c kind : Nat) : Shuffle :=
  if kind = 0 then ⟨0, 8, 1, 0, 0⟩
  else ⟨kind, bitsOf (d.get (DMA_CH_SHUF.IN_FMT c)), d.get (DMA_CH_SHUF.WIDTH c), d.get (DMA_CH_SHUF.FIRST c), d.get (DMA_CH_SHUF.NPL c)⟩

/-- Sizes of the circular payload and ledger buffers (R280, R287). -/
def circZ (d : Dev) (c : Nat) : Nat := 2 ^ d.get (DMA_CH_CIRC.DST_LOG2 c)
def circY (d : Dev) (c : Nat) : Nat := 2 ^ d.get (DMA_CH_CIRC.LDST_LOG2 c)

/-- Whether a descriptor obeys R275. -/
def descOk (d : Dev) (c : Nat) (x : Desc) : Bool :=
  let g := d.shuffleOf c x.shuf
  !bit x.ctl 31 && slice x.ctl 16 2 = 0 && x.shuf ≤ 4 && (d.fmt2 c || x.tag = 0) &&
    (if d.isStream c then
      x.src = 0 && !x.srcBus && x.ledger && x.link % 64 = 0 && (!x.circ || (x.dst % d.circZ c = 0 && x.link % d.circY c = 0))
    else
      !x.ledger && x.link = 0 && (x.shuf = 0 || g.fits x.len) && (!x.circ || g.lenOut (g.lines x.len) ≤ d.circZ c))

/-! ### Interrupts (R301) -/

/-- A signal of a channel: at once, or when the holdoff it starts expires. -/
def chSignal (d : Dev) (c : Nat) : Dev :=
  let h := d.get (DMA_CH_IRQ.HOLDOFF c)
  if h = 0 then d.signal (d.get (DMA_CH_IRQ.VECTOR c))
  else d.setChan c fun x => { x with irqDue := some (x.irqDue.getD (d.time + us h)) }

/-- An event of DMA_CH_IRQ.EN: 0 DESC, 1 REC, 2 STOP, 3 HALT, 4 CUT. -/
def chEvent (d : Dev) (c e : Nat) : Dev := d.when (bit (d.get (DMA_CH_IRQ.EN c)) e) (·.chSignal c)

/-- An event whose signal goes behind the write-backs of the channel that are still to be made (R323). -/
def signalBehind (d : Dev) (c : Nat) : Dev :=
  if (d.chan c).backs.isEmpty then d.chSignal c
  else d.setChan c fun x => { x with backs := x.backs.dropLast ++ x.backs.getLast?.toList.map fun b => { b with sig := true } }

/-- IRQ_HOLDOFF_EXPIRE: the merged signals are sent as one. -/
def holdoffExpire (d : Dev) (c : Nat) : Dev :=
  match (d.chan c).irqDue with
  | some t => d.when (t ≤ d.time) fun d => (d.setChan c fun x => { x with irqDue := none }).signal (d.get (DMA_CH_IRQ.VECTOR c))
  | none => d

/-! ### Writes (R279) -/

/-- A write of the engine, with the bytes it counts. -/
def engineWrite (d : Dev) (bus : Bool) (a : Nat) (l : List Byte) (attr : Attr) : Dev :=
  if bus then (d.emit (.memWrite a l attr)).countBy DMA_BUS_WR_CNT.addr l.length
  else
    let d := (d.setVlt fun x => { x with writes := d.vlt.writes ++ [(a, l)] })
    (d.unpoison a l.length).countBy DMA_INT_WR_CNT.addr l.length

/-- Whether the bus takes a request now (R296, R321). -/
def busOpen (d : Dev) : Bool := !d.contained && !d.busHeld

/-- R321 holds a request of a channel back. -/
def held (d : Dev) (c : Nat) : Dev := (d.setChan c fun y => { y with blocked := true }).set1 HEP_FLAGS.BLOCKED

/-- The next request of a range that starts at `a`, of which `left` bytes remain, `wrap` to a wrap boundary (R279). -/
def cutRequest (d : Dev) (bus : Bool) (a left wrap : Nat) : Nat :=
  let l := Nat.min left wrap
  if a % 64 != 0 then Nat.min (64 - a % 64) l
  else if l < 64 then l
  else Nat.min (Nat.min (l / 64 * 64) (if bus then d.maxPayload else 512)) (4096 - a % 4096)

/-! ### Requests (R276, R278, R294, R318) -/

/-- Sending a request that waits to be sent: on the bus with a tag, where one is free and nothing holds requests; with the attributes whose
use is enabled then (R317). What holds it back the channel knows: R321, or that no tag is free (R318). -/
def sendReq (d : Dev) (c : Nat) (r : ChanReq) : Dev × ChanReq :=
  if !r.bus || r.dead || r.tag.isSome || r.data.isSome || d.contained then (d, r)
  else if d.busHeld then (d.held c, r)
  else match d.freeTag with
    | none => (d.setChan c fun y => { y with tagless := true }, r)
    | some t => ((d.takeTag t c).emit (.memRead r.addr r.len (d.attrOf r.attr.ro r.attr.ns r.attr.ido)), { r with tag := some t })

/-- Issuing a non-posted request; one that can not go now is not issued. The Boolean says whether it was. -/
def issue (d : Dev) (c : Nat) (kind : ReqKind) (bus : Bool) (a n : Nat) (attr : Attr) : Dev × Bool :=
  let (d, r) := d.sendReq c ⟨kind, bus, a, n, attr, none, 0, 0, false, none⟩
  if bus && r.tag.isNone then (d, false)
  else (d.setChan c fun x => { x with reqs := x.reqs ++ [r] }, true)

/-- The requests of a channel that wait to be sent go where they can. -/
def resend (d : Dev) (c : Nat) : Dev :=
  let (d, l) := (d.chan c).reqs.foldl (fun (s : Dev × List ChanReq) r => let (d, r) := s.1.sendReq c r; (d, s.2 ++ [r])) (d, [])
  d.setChan c fun y => { y with reqs := l }

def isFetch (r : ChanReq) : Bool := match r.kind with | .fetch _ => true | _ => false
def isRead (r : ChanReq) : Bool := r.kind = .read
def isFlush (r : ChanReq) : Bool := r.kind = .flush

/-- Nothing is to be done with the data of a channel's requests any more: the responses of those sent on the bus are only waited for. -/
def dropReqs (d : Dev) (c : Nat) : Dev :=
  d.setChan c fun y => { y with reqs := (y.reqs.filter (·.tag.isSome)).map fun r => { r with dead := !isFlush r } }

/-- The descriptor ring of a channel: its slots, base and space (R276). -/
def slots (d : Dev) (c : Nat) : Nat := 2 ^ d.get (DMA_CH_DRING_SIZE.LOG2 c)
def ringBase (d : Dev) (c : Nat) : Nat := d.get (DMA_CH_DRING_LO.ADDR c) * 4096 + d.get (DMA_CH_DRING_HI.ADDR c) * 2 ^ 32
def ringBus (d : Dev) (c : Nat) : Bool := d.is (DMA_CH_DRING_LO.SPACE c)

/-- Whether the ring holds a slot that is not yet fetched. -/
def slotLeft (d : Dev) (c : Nat) : Bool := (d.chan c).nextFetch % d.slots c != d.get (DMA_CH_DRING_TAIL.TAIL c) % d.slots c

/-- Fetching ahead: up to four descriptors beyond the one in execution (R276). -/
def fetchAhead (d : Dev) (c : Nat) : Dev :=
  if d.fed c || !(d.chState c = 1 || d.chState c = 2) || (d.chan c).aborting then d
  else d.forEach (List.range 4) fun _ d =>
    let x := d.chan c
    let out := (x.reqs.filter fun r => isFetch r && !r.dead).length
    let slot := x.nextFetch % d.slots c
    if 4 ≤ x.fetched.length + out || !d.slotLeft c then d
    else
      let (d, ok) := d.issue c (.fetch slot) (d.ringBus c) (d.ringBase c + 32 * slot) 32 d.plain
      if ok then d.setChan c fun x => { x with nextFetch := (slot + 1) % d.slots c } else d

/-- A zero-length read to the address of the last payload write (R288); none while one is under way. -/
def flush (d : Dev) (c a : Nat) : Dev :=
  if (d.chan c).reqs.any isFlush then d
  else
    let (d, ok) := d.issue c .flush true a 0 d.plain
    if ok then d.count DMA_ZLR_CNT.addr else d

/-! ### Completion and halting (R282, R283) -/

/-- The status word (R283). -/
def statusWord (d : Dev) (c code residue : Nat) : Nat :=
  let tag := match (d.chan c).desc with | some x => if d.fmt2 c then x.tag else 0 | none => 0
  tag * 2 ^ 48 + (d.chan c).retries % 16 * 2 ^ 40 + code * 2 ^ 32 + residue % 2 ^ 32

/-- A lasting bus error's counter and registers (R294): its kind, space and address; and its place in the fault log (R417). -/
def lastingError (d : Dev) (c kind : Nat) (bus : Bool) (a : Nat) : Dev :=
  let d := (d.count DMA_LASTING_CNT.addr).put64 (DMA_CH_ERR_ADDR.addr c) a
  (d.setReg (DMA_CH_ERR_INFO.addr c) (word (kind * 2 + ofBool bus))).faultLog idDMA none 0 0

/-- The write-backs of a channel, oldest first: each waits for the zero-length read it needs and for the bus (R276, R289). One whose slot
no vault lies behind is a lasting bus error (R16, R295). -/
def pushBacks (d : Dev) (c : Nat) : Dev :=
  d.forEach (d.chan c).backs fun b d =>
    if (d.chan c).backs.head? != some b then d
    else match b.flushAt with
      | some a => d.flush c a
      | none =>
        let done := fun (f : Dev → Dev) (d : Dev) => (f (d.setChan c fun y => { y with backs := y.backs.tail })).when b.sig (·.chSignal c)
        if !d.ringBus c then
          done (fun d => if d.reaches .dma true b.addr 8 then d.engineWrite false b.addr (le 8 b.word) d.plain else d.lastingError c 1 false b.addr) d
        else if d.busOpen then done (·.engineWrite true b.addr (le 8 b.word) d.plain) d
        else if d.contained then d
        else d.held c

/-- The address of the status write-back of the descriptor in progress: over bytes 0x18 to 0x1F of its slot, under FORMAT 2 (R276). -/
def backAt (d : Dev) (c : Nat) : Option Nat :=
  if d.fmt2 c then ((d.chan c).desc.bind (·.slot)).map fun s => d.ringBase c + 32 * s + 0x18 else none

/-- The word into DMA_CH_STATUS, and under FORMAT 2 into the slot, behind the payload (R276, R288, R289); codes 5 and 7 stay in the
register. -/
def writeStatus (d : Dev) (c code residue : Nat) : Dev :=
  let w := d.statusWord c code residue
  let d := d.put64 (DMA_CH_STATUS.addr c) w
  match d.backAt c, (d.chan c).desc with
  | some a, some x => d.when (code != 5 && code != 7) fun d =>
      (d.setChan c fun y => { y with backs := y.backs ++ [⟨a, w, if x.lflush then y.dirty else none, false⟩] }).pushBacks c
  | _, _ => d

/-- A descriptor ends (R282): status, HEAD, count, flag, event source and IOC interrupt. -/
def endDesc (d : Dev) (c code residue : Nat) : Dev :=
  match (d.chan c).desc with
  | none => d
  | some x =>
    let d := d.writeStatus c code residue
    let d := match x.slot with
      | some s => d.hwPut (DMA_CH_DRING_HEAD.HEAD c) ((s + 1) % d.slots c)
      | none => d
    let d := (d.count (DMA_CH_DESC_CNT.addr c)).set1 (DMA_CH_FLAGS.DESC_DONE c)
    let d := d.when x.ioc (·.chEvent c 0)
    let d := d.fireHop (0xA0 + c) (d.chan c).hop
    (d.setChan c fun y => { y with
      desc := none, ended := none, asked := 0, got := [], gotAt := 0, written := 0, used := 0, records := 0, failed := none, reached := 0
      dirty := if y.recd.isSome then y.dirty else none }).markStage c

/-- A channel that ends needs no bus request but for its write-backs (R321). -/
def unblock (d : Dev) (c : Nat) : Dev := (d.setChan c fun x => { x with blocked := false, tagless := false }).pushBacks c

/-- A channel halts (R283, R299). -/
def haltCh (d : Dev) (c code residue : Nat) : Dev :=
  let d := ((d.dropReqs c).unblock c).writeStatus c code residue
  let d := d.setChan c fun x => { x with fetched := [], desc := none, got := [], recd := none, failed := none, ended := none, stopping := false }
  let d := ((d.setChState c 5).markStage c).set1 (DMA_CH_FLAGS.HALTED c)
  (d.notice .alert idDMA 0x010 (c * 2 ^ 24 + code)).when (bit (d.get (DMA_CH_IRQ.EN c)) 3) (·.signalBehind c)

/-- A channel stops at a boundary (R292): fetched descriptors not begun are discarded. -/
def stopCh (d : Dev) (c : Nat) : Dev :=
  let d := (d.dropReqs c).unblock c
  let d := d.setChan c fun x => { x with fetched := [], stopping := false, recd := none }
  let d := (d.setChState c 4).set1 (DMA_CH_FLAGS.STOPPED c)
  (d.notice .info idDMA 0x012 (c * 2 ^ 24)).when (bit (d.get (DMA_CH_IRQ.EN c)) 2) (·.signalBehind c)

/-- Bytes of output of the record in progress rounded up to 64. -/
def round64 (n : Nat) : Nat := (n + 63) / 64 * 64

/-- The record in progress is cut (R297): no entry copy; the descriptor that holds part of it is to complete with CUT, and a circular one
keeps the positions used. Causes: 1 slide, 2 containment, 3 reset or RING_BAD. -/
def cutRecord (d : Dev) (c cause : Nat) : Dev :=
  match (d.chan c).recd with
  | none => d
  | some r =>
    let circ := match (d.chan c).desc with | some x => x.circ | none => false
    let d := if circ then d.put64 (DMA_CH_PPOS.addr c) (d.get64 (DMA_CH_PPOS.addr c) + round64 r.written) else d
    let d := d.setChan c fun x => { x with
      recd := none, failed := none
      ended := if circ || x.desc.isNone then x.ended else some ⟨6, (x.desc.map (·.len)).getD 0 - x.used⟩ }
    let d := (d.count (DMA_CH_CUT_CNT.addr c)).set1 (DMA_CH_FLAGS.CUT c)
    (d.notice .alert idDMA 0x015 (c * 2 ^ 24 + cause * 2 ^ 22 + ((d.chan c).ring.getD 0) * 2 ^ 16)).chEvent c 4

/-- The stream channels that run on a ring. -/
def streamsOn (d : Dev) (r : Nat) : List Nat :=
  (List.range 32).filter fun c => d.isStream c && (d.chan c).ring = some r && !d.chIdle c

/-- A channel enters HELD, keeping the state it leaves (R296): a copy descriptor will start again on release, a record is cut, and a zero-length
read goes again (R300). -/
def holdCh (d : Dev) (c : Nat) : Dev :=
  if !d.chRuns c then d
  else
    let s := d.chState c
    let cause := d.get (DMA_CH_STAT.WAIT_CAUSE c)
    let d := d.cutRecord c 2
    let again := !d.isStream c && (d.chan c).desc.isSome
    let d := d.setChan c fun x => { x with
      left := s, leftCause := cause, got := [], failed := none, reqs := x.reqs.filter fun r => !isRead r || r.dead
      reached := Nat.max x.reached x.written, asked := if again then 0 else x.asked, gotAt := if again then 0 else x.gotAt
      written := if again then 0 else x.written }
    (d.setChState c 6).markStage c

end Dev
end Sys2Proof.Machine
end

