-- ==== Sys2Proof/Machine/Tellers.lean ====
section
/-! DEFINITION. Column flow (chapter 06): the beats of the column buses, the work of the pools, groups, segments, results,
stream buffers, and the column mergers with the streams they pass to the ring writers. -/

namespace Sys2Proof.Machine

/-- What a line record, a statistics record and a band's end add to a stream. -/
def statRecord (s : Stats) (found kept sh : Nat) : List Byte :=
  le 8 s.sum ++ le 2 s.min ++ le 2 s.max ++ le 4 s.sat ++ le 4 found ++ le 4 kept ++ le 1 sh ++ le 1 1 ++ le 6 0
    ++ (List.range 256).flatMap fun i => le 4 (Tab.get (fun _ => 0) s.hist i)

namespace Dev

/-- A pixel of a received line; 0 in a line never received. -/
def framePixel (d : Dev) (id bits y x : Nat) : Nat :=
  match d.frameLine id y with
  | some l => if l.missing then 0 else unpackAt bits l.data x
  | none => 0

/-- The bank a teller of a frame runs from: that of its own column when the frame's tick began (R182). -/
def bankFor (d : Dev) (f : ColFrame) (t : Nat) : Nat :=
  (Tab.get (fun _ => (0 : Word)) (d.forceTab f.tick) (bankKey (t / 33))).toNat % 2

/-! ### The column bus (R161, R166, R168) -/

/-- Whether every teller that takes line `y` of a frame has a free slot for it (R165, R168). -/
def slotsFree (d : Dev) (id y : Nat) : Bool :=
  (d.frameCols id).all fun e =>
    let f := e.2
    f.pool.zipIdx.all fun q =>
      f.sent.contains q.1 || !d.needs f q.2 q.1 y ||
        (((d.frameCols id).flatMap fun g => g.2.delivered).filter fun l => l.line != y && d.needs f q.2 q.1 l.line).length < f.slots

/-- The front line of a port's buffer has left it; a line under credit frees its space (R139). -/
def lineGone (d : Dev) (p : Nat) : Dev :=
  d.setPk p fun k => match k.buffer with
    | [] => k
    | l :: t => { k with buffer := t, freed := k.freed + ofBool l.credit }

/-- A record fed in REPLAY that has left its ring meanwhile is fed up to the point it left: what its lines still had to give is zero, and its
frame carries FAULT_MARKED with block ID 0x50 (R266). -/
def replaySlip (d : Dev) (p : Nat) : Dev :=
  match (d.port p).pk.buffer with
  | { frame := some id, .. } :: _ =>
    match d.clr.frames.find? fun r => r.id = id && r.fed.any fun e => !(d.ring e.1).entries.any (·.num = e.2) with
    | none => d
    | some _ =>
      let zero := fun (l : BufLine) => if l.frame != some id then l else
        { l with data := l.data.take l.gone ++ List.replicate (l.data.length - l.gone) 0 }
      (d.setPk p fun k => { k with buffer := k.buffer.map zero }).markFault id idVLT
  | _ => d

/-- LINE_BROADCAST: a beat of 32 bytes leaves the port's line buffer for the column bus (R161, R168, R72). A line that was
never received passes whole as missing. -/
def lineBroadcast (d : Dev) (p : Nat) : Dev :=
  let d := d.replaySlip p
  match (d.port p).pk.buffer with
  | [] => d
  | l :: _ =>
    let last := l.data.length ≤ l.gone + 32
    let step := fun (d : Dev) => if last then d.lineGone p else
      d.setPk p fun k => { k with buffer := match k.buffer with
        | [] => []
        | l :: t => { l with gone := l.gone + 32 } :: t }
    match l.frame with
    | none => step d
    | some id =>
      match (d.column p).frames.find? (·.frame = id) with
      | none => step d
      | some f =>
        if (l.gone = 0 && !d.slotsFree id l.line) || d.windowHeld 2 f.tick then d
        else
          let seen := l.data.take (l.gone + 32)
          step (d.setColFrame p id fun f => { f with
            delivered := f.delivered.filter (·.line != l.line) ++ [⟨l.line, seen, last, l.missing⟩] })

/-! ### Streams for the ring writers (R169, R254) -/

/-- Bytes of a stream of a frame reach the ring writers that take it; with no ring they go nowhere (R21, R254). -/
def streamOut (d : Dev) (f : ColFrame) (s : Stream) (bytes : List Byte) (complete : Bool) : Dev :=
  d.setColumn f.head fun c => { c with queue := c.queue.map fun o =>
    if o.frame = f.frame && o.stream = s then { o with bytes := o.bytes ++ bytes, complete := o.complete || complete } else o }

/-- A frame all of whose columns have ended and merged leaves them (R182). -/
def closeColumns (d : Dev) (id : Nat) : Dev :=
  let l := d.frameCols id
  d.when (l.all fun e => e.2.merged && e.2.ended && e.2.size ≤ l.length && (!e.2.streams.contains .stat || (e.2.pos .stat).done)) fun d =>
    d.forEach (l.map (·.1)) fun k d => d.setColumn k fun c => { c with frames := c.frames.filter (·.frame != id) }

/-! ### Groups (R168, R175, R178) -/

/-- Whether a line of a column's band was abandoned with a retired teller (R185). -/
def abandonedLine (f : ColFrame) (y : Nat) : Bool :=
  !f.lost.isEmpty && (List.range f.pool.length).any fun p => (f.workLines p).contains y && f.isLost p ((f.workLines p).idxOf y)

/-- The frame as a basic kernel sees it. -/
def kernelEnv (d : Dev) (m : Vault) (f : ColFrame) : KernelEnv :=
  { width := f.width, height := f.height, bits := f.bits, raw := fun x y => d.framePixel f.frame f.bits y x
    missing := fun y => match d.frameLine f.frame y with | some l => l.missing | none => false
    gone := abandonedLine f
    vaultWord := fun a => Vault.num m a 2, seed := d.fresh }

/-- The frame as a group of a recipe sees it; the first and the last group are those of the line (R174). -/
def groupEnv (d : Dev) (f : ColFrame) (t i y g : Nat) : GroupEnv :=
  let c := f.config
  let bank := d.bankFor f t
  let open' := fun (n : Nat) => Config.openValue d.fresh (65536 + n) % 65536
  { width := f.width, height := f.height, bits := f.bits, line := y, group := g, firstGroup := g = 0
    lastGroup := g + 1 = f.groups, ctxB := c.ctxB, ctxA := c.ctxA, statSh := c.statSh, winSh := c.winSh
    satLevel := c.satLevel, pixel := fun y x => d.framePixel f.frame f.bits y x
    coef := fun w => if w < 16384 then d.coefWord t w else open' w
    streamWord := fun x =>
      let w := c.streamBase + 32 * c.streamLen * (i % 2) + x
      if x < 32 * c.streamLen && w < 16384 then d.coefWord t w else open' x
    lookup := d.lookup t bank, seed := d.fresh }

/-- The start of a frame at a teller (R175, R182): position, bank, a clear of the state where CLR_FRAME is 1 or the bank
changes, and the counts of the frame. -/
def startFrame (d : Dev) (f : ColFrame) (p t : Nat) : Dev :=
  if (d.teller t).frame = some f.frame then d
  else
    let bank := d.bankFor f t
    let clear := f.config.clrFrame || d.get (CHT_T_STAT.BANK t) != bank
    let d := (d.put (CHT_T_STAT.BANK t) bank).put64 (CHT_T_WORK.addr t) f.tick
    d.setTeller t fun s =>
      let s := if clear then s.clear else s
      { s with
        frame := some f.frame, line := f.startPos p, group := 0, stats := Stats.reset, base := Stats.reset, mint := [], overlay := []
        bytes := [0, 0, 0, 0]
        tallies := 0, faulted := false, streamed := f.startPos p }

/-- Words a piece of A or B takes of the output FIFO, and the tally records waiting (R162). -/
def fifoUsed (l : List Piece) : Nat := ((l.filter fun e => e.stream = .a || e.stream = .b).map fun e => 2 * e.vals.length).sum
def tallyUsed (l : List Piece) : Nat := ((l.filter (·.stream = .tally)).map fun e => e.bytes.length / 16).sum

/-- Whether the output FIFO of 4 KiB or the queue of 128 tally records has no room for a group's pieces beside those that wait (R162, R168);
what one group gives always fits an empty one. -/
def outFull (old new : List Piece) : Bool :=
  (0 < fifoUsed old && 4096 < fifoUsed old + fifoUsed new) || (0 < tallyUsed old && 128 < tallyUsed old + tallyUsed new)

/-- The teller after a group: the next group, the next line at the end of its groups; at the end of its part the open line
record closes (R207). -/
def nextGroup (f : ColFrame) (p : Nat) (s : Teller) : Teller :=
  let n := (f.workGroups p).length
  let s := if s.group + 1 < n then { s with group := s.group + 1 } else { s with group := 0, line := s.line + 1, base := s.stats }
  if (f.workLines p).length ≤ s.line then { s with mint := s.mint.map fun r => { r with closed := true } } else s

/-- Bits of a value of stream A or B (R169, R197). -/
def outBits (f : ColFrame) (s : Stream) : Nat :=
  match f.config.kernel with
  | some ks => if s = .a then ks.aBits else 8
  | none => bitsOf (if s = .a then f.config.aFmt else f.config.bFmt)

/-- The counts of bits a teller has given each of the streams A, mint, tally and B, with those of more pieces (R170). -/
def addBits (f : ColFrame) (old : List Nat) (l : List Piece) : List Nat :=
  let sum := fun (s : Stream) => ((l.filter (·.stream = s)).map fun e => e.vals.length * outBits f s + 8 * e.bytes.length).sum
  [old.getD 0 0 + sum .a, old.getD 1 0 + sum .mint, old.getD 2 0 + sum .tally, old.getD 3 0 + sum .b]

/-- The bottom line of the block row, `h` lines high, that is complete once frame line `y` is worked in the order of R197: none where none
is. -/
def blockRow (f : ColFrame) (ks : KernelSet) (e : KernelEnv) (h y : Nat) : Option Nat :=
  if h ≤ 1 || !ks.inRoiLine e y then some y
  else
    let b := y - (y - ks.roiY) % h + (h - 1)
    let t := b + 1 - h
    if f.isTop y then (if f.isTop (y + 1) && y + 1 ≤ b then none else some b)
    else if y = b && !f.isTop t then some b else none

/-- The line of stream A or B that a teller gives with frame line `y` (R194-R197). -/
def kernelOut (f : ColFrame) (ks : KernelSet) (e : KernelEnv) (s : Stream) (y : Nat) : List Nat :=
  match s with
  | .a => if bit ks.outputs 0 then ((blockRow f ks e (if ks.binX * ks.binY ≤ 1 then 1 else ks.binY) y).elim [] (ks.lineA e)) else []
  | .b => if bit ks.outputs 3 then ((blockRow f ks e 8 y).elim [] (ks.lineB e)) else []
  | _ => []

/-- The teller after group `g` of a line under a kernel set: the group's part of each output (R162, R169). -/
def kernelGroup (d : Dev) (m : Vault) (f : ColFrame) (ks : KernelSet) (y g : Nat) (s : Teller) : Teller :=
  let e := d.kernelEnv m f
  let recs := if bit ks.outputs 2 then ks.tallyPart e y g else []
  let piece := fun (st : Stream) (w : Nat) =>
    let vals := KernelSet.groupPart ks w g (kernelOut f ks e st y)
    if vals.isEmpty then [] else [(⟨f.frame, st, y, g, vals, []⟩ : Piece)]
  { s with
    out := s.out ++ piece .a (Nat.max 1 ks.binX) ++ piece .b 8 ++ (if recs.isEmpty then [] else [⟨f.frame, .tally, y, g, [], recs.flatten⟩])
    mint := if bit ks.outputs 1 then ks.mintPart e y g s.mint else s.mint
    stats := (if bit ks.outputs 4 then ks.statPart e y g s.stats else s.stats).addFound recs.length
    tallies := s.tallies + recs.length }

/-- Whether a frame line has been delivered as far as a number of its pixels. -/
def lineHolds (d : Dev) (f : ColFrame) (y n : Nat) : Bool :=
  match d.frameLine f.frame y with
  | some l => l.full || n * f.bits ≤ 8 * l.data.length
  | none => false

/-- Whether a configuration reads a stream buffer: CF 2 in a word that its recipe may reach, or the calibration frame of a kernel set (R168,
R193). -/
def usesStream (d : Dev) (f : ColFrame) (t : Nat) : Bool :=
  match f.config.kernel with
  | some ks => ks.calKind != 0
  | none => (reachable (d.microword t (d.bankFor f t)) f.config.entry).any fun w => Mw.cf (d.microword t (d.bankFor f t) w) = 2

/-- Why a group may not start yet (R168): input, a stream buffer; none where it may. -/
inductive Stall where
  | input | fetch | output
  deriving DecidableEq, Repr

/-- Group `g` of line `y`, at work position `i` of teller `t`, waits for pixels up to 32g + 33 of the line and of its context lines, and for
the line's stream buffer where the configuration reads one. With CHT_STREAM.EN 0 no buffer ever fills (DEDUCED, log entry 89). -/
def stallOf (d : Dev) (f : ColFrame) (t i y g : Nat) : Option Stall :=
  if !((f.context y).all fun z => d.lineHolds f z (Nat.min f.width (32 * g + 34))) then some .input
  else if d.usesStream f t && (d.teller t).streamed ≤ i then some .fetch
  else none

/-- A stalled group: its cycle is counted (R168, R188). -/
def stalled (d : Dev) (t : Nat) (w : Stall) : Dev :=
  let d := d.set1 (CHT_T_STAT.STALLED t)
  match w with
  | .input => d.count (CHT_T_STALL_IN_CNT.addr t)
  | .fetch => d.count (CHT_T_FETCH_WAIT_CNT.addr t)
  | .output => d.count (CHT_T_STALL_OUT_CNT.addr t)

/-- A group of a recipe run from its entry word, and whether it reached END within STEP_LIMIT words. -/
def runGroup (d : Dev) (f : ColFrame) (t i y g : Nat) : GroupRun × Bool :=
  let s := d.teller t
  let e := d.groupEnv f t i y g
  let bank := d.bankFor f t
  runWords e (d.microword t bank) f.config.stepLimit ⟨s, s.start.getD f.config.entry, 0, false, 0⟩

/-- A group's effect on its teller: its pieces join the output where it has room, and the teller goes on to its next group. -/
def groupDone (d : Dev) (f : ColFrame) (p t steps : Nat) (s s' : Teller) : Dev :=
  let d := (d.count (CHT_T_GROUP_CNT.addr t)).countBy (CHT_T_STEP_CNT.addr t) steps
  (d.setTeller t fun _ => nextGroup f p { s' with bytes := addBits f s'.bytes (s'.out.drop s.out.length) }).draw

/-- An accumulator of a teller has saturated (R174, R188). -/
def accSat (d : Dev) (t : Nat) : Dev :=
  ((d.set1 (CHT_T_FLAGS.ACC_SAT t)).set1 CHT_FLAGS.ACC_SAT).atMost (.accSat (t / 33)) (ms 1) fun d => d.notice .info idCHT 0x018 t

/-- GROUP_RUN (R168, R175): the teller starts its frame where it has not, and runs the next group to END. A line never
received gives streams A and B zeros at full length and nothing else (R215). -/
def groupRun (d : Dev) (m : Vault) (t : Nat) : Dev :=
  match d.job t with
  | none => d
  | some (_, f, p) =>
    let d := d.startFrame f p t
    let s := d.teller t
    match (f.workLines p)[s.line]?, (f.workGroups p)[s.group]? with
    | some y, some g =>
      let missing := match d.frameLine f.frame y with | some l => l.missing && l.full | none => false
      match if d.windowHeld 3 f.tick then some Stall.input else d.stallOf f t s.line y g with
      | some w => d.stalled t w
      | none =>
        let d := d.unset (CHT_T_STAT.STALLED t)
        match f.config.kernel with
        | some ks =>
          let s' := d.kernelGroup m f ks y g s
          if outFull s.out (s'.out.drop s.out.length) then d.stalled t .output else d.groupDone f p t ks.cost s s'
        | none =>
          if missing then
            let zero := fun (st : Stream) => if f.streams.contains st then
              [(⟨f.frame, st, y, g, List.replicate (Nat.min 32 (f.width - 32 * g)) 0, []⟩ : Piece)] else []
            d.setTeller t fun s => nextGroup f p { s with
              out := s.out ++ zero .a ++ zero .b, bytes := addBits f s.bytes (zero .a ++ zero .b) }
          else
            let (r, done) := d.runGroup f t s.line y g
            let r := if f.config.mode = 3 then { r with t := { r.t with mint := s.mint } } else r
            if !done then d
            else if outFull s.out (r.t.out.drop s.out.length) then d.stalled t .output
            else
              let d := (d.put (CHT_T_PC.PC t) r.last).put (CHT_T_PC.LOOP t) r.t.loop
              (d.when r.saturated (·.accSat t)).groupDone f p t r.steps s r.t
    | _, _ => d

/-- RUNAWAY (R178): a group that issues STEP_LIMIT words without END is abandoned; it adds nothing to any stream, and the
next group starts at ENTRY. DESIGN CHOICE: of a lent teller, RUNAWAY's limit "per column" counts at the column whose pool it serves, where the
recipe runs; that of ACC_SAT counts at the teller's own column (R188, log entry 103). -/
def runaway (d : Dev) (t : Nat) : Dev :=
  match d.job t with
  | none => d
  | some (k, f, p) =>
    let d' := d.startFrame f p t
    let s := d'.teller t
    match (f.workLines p)[s.line]?, (f.workGroups p)[s.group]? with
    | some y, some g =>
      let missing := match d'.frameLine f.frame y with | some l => l.missing | none => false
      if f.config.kernel.isSome || missing || (d'.stallOf f t s.line y g).isSome then d
      else
        let (r, done) := d'.runGroup f t s.line y g
        if done then d
        else
          let d := ((d'.when r.saturated (·.accSat t)).count (CHT_T_RUNAWAY_CNT.addr t)).count CHT_RUNAWAY_CNT.addr
          let d := (d.set1 (CHT_T_FLAGS.RUNAWAY t)).set1 CHT_FLAGS.RUNAWAY
          let d := d.countBy (CHT_T_STEP_CNT.addr t) r.steps
          let d := (d.put (CHT_T_PC.PC t) r.last).put (CHT_T_PC.LOOP t) r.t.loop
          let d := d.atMost (.runaway k) (ms 1) fun d => d.notice .alert idCHT 0x014 (t * 2 ^ 22 + f.tick % 2 ^ 16)
          let s' : Teller := { r.t with
            out := s.out, mint := s.mint, stats := s.stats, tallies := s.tallies, start := none, faulted := true }
          (d.setTeller t fun _ => nextGroup f p s').draw
    | _, _ => d

/-- MINT_SEGMENT_EMIT (R206, R207): the mint unit codes the next segment, of 256 pixels or what a closed record still holds; a
closed record with all its segments is a line record for the merger. -/
def mintSegment (d : Dev) (t : Nat) : Dev :=
  match d.job t with
  | none => d
  | some (_, f, _) =>
    let s := d.teller t
    if s.frame != some f.frame then d
    else match s.mint.find? fun r => 256 ≤ r.vals.length || r.closed with
      | none => d
      | some r =>
        let r' := if r.vals.isEmpty then r else r.emit f.bits
        let rest := fun (l : List MintRec) => (s.mint.takeWhile (· != r)) ++ l ++ (s.mint.dropWhile (· != r)).drop 1
        if r'.closed && r'.vals.isEmpty then
          let piece : Piece := ⟨f.frame, .mint, r.line, r.x0 / 32, [], lineRecord r'⟩
          d.setTeller t fun s => { s with mint := rest [], out := s.out ++ [piece], bytes := addBits f s.bytes [piece] }
        else d.setTeller t fun s => { s with mint := rest [r'] }

/-- TELLER_RESULT_SEND (R170): at the end of its part of a frame a teller sends its result under the 32 credits of its
physical column. -/
def resultSend (d : Dev) (t : Nat) : Dev :=
  match d.job t with
  | none => d
  | some (k, f, p) =>
    let none' := (f.workLines p).isEmpty
    let d := d.when none' (·.startFrame f p t)
    let s := d.teller t
    if s.frame != some f.frame || s.line < (f.workLines p).length || !s.mint.isEmpty
        || 32 ≤ (d.column (t / 33)).results.length then d
    else
      let d := d.setColumn (t / 33) fun c => { c with
        results := c.results ++ [⟨t, f.frame, f.tick, s.bytes.map (fun b => (b + 7) / 8), s.tallies, s.stats, s.faulted⟩] }
      let d := d.setColFrame k f.frame fun g => { g with sent := g.sent ++ [t], stats := g.stats.merge s.stats }
      let d := d.put64 (CHT_T_WORK.addr t) (2 ^ 64 - 1)
      (d.setTeller t fun s => { s with frame := none }).closeColumns f.frame

/-! ### The column merger (R169, R213-R215) -/

/-- Whether the teller that owns work position `i` of pool index `p` has passed group `g`, or the position is lost. -/
def passed (d : Dev) (f : ColFrame) (p i g : Nat) : Bool :=
  f.isLost p i || i < f.startPos p || (match f.pool[p]? with
    | none => true
    | some t =>
      let s := d.teller t
      let at' := (f.workGroups p).idxOf g
      f.sent.contains t || (s.frame = some f.frame && (i < s.line || (i = s.line && at' < s.group))))

/-- A group's pieces taken from its owner: their values and bytes, and the teller without them. A line record goes at the group it begins
with, or later where it was still open then. -/
def takePieces (d : Dev) (f : ColFrame) (t : Nat) (s : Stream) (y g : Nat) : Dev × List Nat × List Byte :=
  let hit := fun (e : Piece) => e.frame = f.frame && e.stream = s && e.line = y && e.group ≤ g
  let l := (d.teller t).out.filter hit
  (d.setTeller t (fun q => { q with out := q.out.filter (!hit ·) }), l.flatMap (·.vals), l.flatMap (·.bytes))

/-- A group's place in stream A or B where its owner is lost: zeros at full length (R215). -/
def zeroGroup (d : Dev) (m : Vault) (f : ColFrame) (s : Stream) (y g : Nat) : List Nat :=
  match f.config.kernel with
  | none => List.replicate (Nat.min 32 (f.width - 32 * g)) 0
  | some ks => (KernelSet.groupPart ks (if s = .a then Nat.max 1 ks.binX else 8) g (kernelOut f ks (d.kernelEnv m f) s y)).map fun _ => 0

/-- The tally records of the merger: the first TALLY_MAX of the frame are kept; one is held back until it is known whether it
is the last kept (R213). At the expert level no TALLY_MAX applies. -/
def tallyTake (d : Dev) (f : ColFrame) (recs : List Byte) : Dev :=
  match (d.frameCols f.frame).head? with
  | none => d
  | some (hk, h) =>
    let limit := match f.config.kernel with | some ks => ks.tallyMax | none => 2 ^ 32
    let n := recs.length / 16
    if n = 0 then d
    else if limit ≤ h.tallies then
      -- records are discarded: the last one kept carries CUT
      let cut := if h.held.isEmpty then [] else
        (h.held.take 14) ++ [BitVec.ofNat 8 (field h.held 14 1 ||| 0x80)] ++ h.held.drop 15
      (d.streamOut h .tally cut false).setColFrame hk f.frame fun g => { g with held := [] }
    else
      let keep := Nat.min n (limit - h.tallies)
      let all := h.held ++ recs.take (16 * keep)
      let lastRec := all.drop (all.length - 16)
      let lastRec := if keep < n then lastRec.take 14 ++ [BitVec.ofNat 8 (field lastRec 14 1 ||| 0x80)] ++ lastRec.drop 15 else lastRec
      let d := d.setColFrame hk f.frame fun g => { g with tallies := g.tallies + keep, held := if keep < n then [] else lastRec }
      d.streamOut h .tally (all.take (all.length - 16) ++ (if keep < n then lastRec else [])) false

/-- Whether the earlier bands of the gang have given all of a stream, so that this band's may follow (R197, R208). -/
def bandTurn (d : Dev) (f : ColFrame) (s : Stream) : Bool :=
  let l := d.frameCols f.frame
  f.first = 0 || ((l.filter fun e => e.2.first < f.first).all (fun e => (e.2.pos s).done)
    && (l.filter fun e => e.2.first < f.first).length = f.port - f.head)

/-- The end of a band's stream; the last band of the gang completes it. -/
def bandDone (d : Dev) (k : Nat) (f : ColFrame) (s : Stream) : Dev :=
  let d := d.setColFrame k f.frame fun g => g.setPos s { g.pos s with done := true }
  let last := f.port + 1 = f.head + f.size
  let d := if !last then d else match s with
    | .mint =>
      let recs := ((d.frameCols f.frame).map (·.2.mintRecs)).sum
      d.streamOut f .mint (mintEnd recs) true
    | .tally =>
      match (d.frameCols f.frame).head? with
      | some (_, h) => d.streamOut f .tally h.held true
      | none => d
    | _ => d.streamOut f s [] true
  d.closeColumns f.frame

/-- The statistics record of a frame, once every teller of every column of the gang has ended and the tally list is complete
(R196). -/
def statTake (d : Dev) (k : Nat) (f : ColFrame) : Dev :=
  let l := d.frameCols f.frame
  if l.length < f.size || !(l.all fun e => e.2.ended && (!e.2.streams.contains .tally || (e.2.pos .tally).done)) then d
  else
    let s := l.foldl (fun (a : Stats) e => a.merge e.2.stats) Stats.reset
    let kept := (l.map (·.2.tallies)).sum
    let tally := f.streams.contains .tally
    let sh := match f.config.kernel with
      | some ks => if ks.statSh = 0xFF then f.bits - 8 else ks.statSh
      | none => f.config.statSh
    let d := d.streamOut f .stat (statRecord s (if tally then s.found else 0) (if tally then kept else 0) sh) true
    let d := d.forEach (l.map (·.1)) fun q d => d.setColFrame q f.frame fun g => g.setPos .stat { g.pos .stat with done := true }
    let _ := k
    d.closeColumns f.frame

/-- Whether the owner of group `g` of a line was lost with a retired teller. -/
def groupLost (f : ColFrame) (y g : Nat) : Bool :=
  (List.range f.pool.length).any fun p =>
    (f.workLines p).contains y && (f.workGroups p).contains g && f.isLost p ((f.workLines p).idxOf y)

/-- The merger takes the next group of a stream from the teller that owns it (R169); the tally records of a line go on once its last group is
taken, those of groups abandoned since left out (R215). -/
def mergeNext (d : Dev) (m : Vault) (k : Nat) (s : Stream) : Dev :=
  match (d.column k).frames.find? fun f => f.streams.contains s && !(f.pos s).done with
  | none => d
  | some f =>
    if s = .stat then d.statTake k f
    else if !d.bandTurn f s then d
    else
      let q := f.pos s
      match f.order[q.lines]? with
      | none => d.bandDone k f s
      | some y =>
        let n := f.groups
        let owners := (List.range f.pool.length).filter fun p =>
          (f.workLines p).contains y && (f.workGroups p).contains q.group
        let p := owners.headD 0
        let i := (f.workLines p).idxOf y
        let lost := owners.isEmpty || f.isLost p i
        let t := (f.pool[p]?).getD 0
        let mintOpen := s = .mint && (d.teller t).frame = some f.frame && (d.teller t).mint.any fun r => r.line = y && r.x0 / 32 ≤ q.group
        if !lost && (!d.passed f p i q.group || mintOpen) then d
        else
          let (d, vals, bytes) := if lost then (d, [], []) else d.takePieces f t s y q.group
          let d := if s = .mint && q.lines = 0 && q.group = 0 && f.first = 0 then
              d.streamOut f .mint (mintHeader f.bits f.frameNo f.tick f.width f.height) false else d
          let vals := q.vals ++ (if lost && (s = .a || s = .b) then d.zeroGroup m f s y q.group else vals)
          -- a line abandoned whole gives no value of its own
          let vals := if lost && f.config.mode != 3 then vals.map fun _ => 0 else vals
          let endLine := n ≤ q.group + 1
          let recs : List (Nat × List Byte) := q.recs ++ (if s = .tally && !bytes.isEmpty then [(q.group, bytes)] else [])
          let d := match s with
            | .a | .b =>
              if endLine && !vals.isEmpty then d.streamOut f s (packBits (outBits f s) vals) false else d
            | .tally => if endLine then d.tallyTake f ((recs.filter fun (e : Nat × List Byte) => !groupLost f y e.1).flatMap Prod.snd) else d
            | .mint => if bytes.isEmpty then d else
                (d.streamOut f .mint bytes false).setColFrame k f.frame fun g => { g with
                  mintRecs := g.mintRecs + 1 }
            | .stat => d
          let next : MergePos := if endLine then ⟨q.lines + 1, 0, [], [], false⟩ else ⟨q.lines, q.group + 1, vals, recs, false⟩
          let d := d.setColFrame k f.frame fun g => g.setPos s next
          if endLine && f.lines ≤ q.lines + 1 then
            match (d.column k).frames.find? (·.frame = f.frame) with
            | some g => d.bandDone k g s
            | none => d
          else d

/-- Beats of 32 bytes in the result queue of a head's column. -/
def beatsQueued (d : Dev) (h : Nat) : Nat := ((d.column h).queue.map fun o => (o.bytes.length + 31) / 32).sum

/-- MERGER_TAKE: the merger takes the next group as long as the result queue of the head's column has room for what it gives (R20). DESIGN
CHOICE: the spec gives no length of that queue (log entry 74). -/
def mergerTake (d : Dev) (m : Vault) (k : Nat) (s : Stream) : Dev :=
  let d' := d.mergeNext m k s
  if (List.range 16).all fun h => d'.beatsQueued h ≤ d.beatsQueued h || d'.beatsQueued h ≤ d.cht.depth then d' else d

/-! ### Faults of tellers and spares (R185-R187) -/

/-- The logical row a teller serves: 63 none. -/
def rowOf (d : Dev) (t : Nat) : Nat :=
  let r := t % 33
  if d.is (CHT_T_CTL.RETIRE t) then 63
  else if r = 32 then d.get (CHT_SPARE.ROW (t / 33))
  else if d.get (CHT_SPARE.ROW (t / 33)) = r then 63
  else r

/-- What a teller that leaves a frame has of the lines it has finished: the pieces that wait for the merger, and its line records, which the
mint unit still codes. The line in work gives nothing. -/
def finished (s : Teller) (f : ColFrame) (line : Option Nat) : List Piece :=
  s.out.filter (fun e => e.frame = f.frame && some e.line != line)
    ++ (if s.frame = some f.frame then
        (s.mint.filter fun r => some r.line != line).map fun r => ⟨f.frame, .mint, r.line, r.x0 / 32, [], lineRecord (r.finish f.bits)⟩
      else [])

/-- A teller leaves the frames it works on (R185, R226): the lines it holds unfinished are emitted empty, what it has finished stays, the
statistics of those lines among it (R196, R215); the spare, where one takes its row, begins at the first line whose context lines all reach it
after the swap. In every open frame that awaits its result the teller counts as having delivered one with no bytes. -/
def leaveFrames (d : Dev) (t : Nat) (spare : Option Nat) : Dev :=
  let c := t / 33
  let cols := ([c - 1, c, c + 1].dedup.filter (· < 16))
  let s := d.teller t
  let work' := cols.flatMap fun k => ((d.column k).frames.filter fun f => f.pool.contains t && !f.sent.contains t).map fun f =>
    (k, f, d.workPos f (f.pool.idxOf t) t)
  let d := d.forEach ((d.clr.frames.filter fun r => r.expect.contains t).map (·.id)) fun id d =>
    (d.setFrame id fun r => { r with expect := r.expect.filter (· != t) }).markFault id idCHT
  let d := d.setTeller t fun s => { s with frame := none, mint := [] }
  d.forEach work' fun e d =>
      let f := e.2.1
      let p := f.pool.idxOf t
      let work := f.workLines p
      let cp := e.2.2
      let fresh := fun (y : Nat) => (f.context y).all fun z => (d.frameLine f.frame z).isNone
      let b := match spare with
        | none => work.length
        | some _ => cp + ((work.drop cp).takeWhile (!fresh ·)).length
      let d := d.setColFrame e.1 f.frame fun g => { g with
        lost := g.lost ++ [(p, cp, b)]
        config := match spare with | some q => { g.config with pool := g.config.pool.set p q } | none => g.config
        sent := match spare with | some _ => g.sent | none => g.sent ++ [t]
        stats := if s.frame = some f.frame then g.stats.merge s.base else g.stats }
      let d := d.setTeller t fun s => { s with out := s.out.filter (·.frame != f.frame) }
      let d := d.setTeller (spare.getD t) fun q => { q with out := q.out ++ finished s f work[cp]? }
      (d.markFault f.frame idCHT).closeColumns f.frame

/-- Column `k`'s armed configuration is disarmed (R183). -/
def disarm (d : Dev) (k : Nat) : Dev := d.clrBit CHT_ARM.addr k

/-- A lasting fault of a teller (R185, R186): it is retired; the spare takes its row, or the pool shrinks and the device
enters SAFE. -/
def retireTeller (d : Dev) (t cause : Nat) : Dev :=
  if d.is (CHT_T_CTL.RETIRE t) then d
  else
    let k := t / 33
    let spare := 33 * k + 32
    let row := d.rowOf t
    let free := t != spare && d.get (CHT_SPARE.ROW k) = 63 && !d.is (CHT_T_CTL.RETIRE spare) && d.is (CHT_SPARE.AUTO k)
    let d := (d.set1 (CHT_T_CTL.RETIRE t)).notice .fault idCHT 0x015 (cause * 2 ^ 12 + t)
    let d := (d.setMgt fun x => { x with lostTellers := d.mgt.lostTellers ++ [t] })
    let d := d.put64 (CHT_T_WORK.addr t) (2 ^ 64 - 1)
    -- a teller that serves no row may still have work that it began before its row was given to the spare
    if 32 ≤ row then (d.leaveFrames t none).faultLog idCHT (some 1) t 0
    else if free then
      let d := d.put (CHT_SPARE.ROW k) row
      let d := d.leaveFrames t (some spare)
      let d := ((d.count CHT_SWAP_CNT.addr).set1 CHT_FLAGS.SPARE_SWAP).notice .alert idCHT 0x016 (spare * 2 ^ 16 + t)
      d.faultLog idCHT (some 2) t 0
    else
      let d := d.leaveFrames t none
      let d := (d.set1 CHT_FLAGS.POOL_SHRUNK).notice .fault idCHT 0x017 (k * 2 ^ 16 + d.inService k * 2 ^ 8)
      let safe := d.mode = 7
      let d := d.faultLog idCHT (some (if safe then 1 else 8)) t (if safe then 0 else 1)
      (d.disarm k).safeEntry 1

/-- TELLER_STEP_ERROR (R185): the step is repeated once; a single-bit error that SECDED corrects is counted as a transient one, and nothing is
repeated. A teller that serves no row runs steps only of a frame it began before. -/
def tellerStepError (d : Dev) (t : Nat) (o : StepError) : Dev :=
  let counted := fun (d : Dev) => (d.count (CHT_T_RETRY_CNT.addr t)).count CHT_TRANSIENT_CNT.addr
  if d.rowOf t = 63 && t % 33 != 32 && (d.job t).isNone then d
  else match o with
    | .corrected => counted d
    | .transient => (counted d).set1 (CHT_T_FLAGS.RETRIED t)
    | .lasting => (d.set1 (CHT_T_FLAGS.RETRIED t)).retireTeller t 1

/-- Whether a swap of column `k` is in progress: a frame still has lines to give that the spare's row left unfinished with the retired teller
(R185, R187, and the timeline of R420; DEDUCED: log entry 87). -/
def swapping (d : Dev) (k : Nat) : Bool :=
  ([k - 1, k, k + 1].dedup.filter (· < 16)).any fun c => (d.column c).frames.any fun f =>
    f.lost.any fun l => f.pool[l.1]? = some (33 * k + 32) && f.streams.any fun s => s != .stat && !(f.pos s).done
      && (((f.workLines l.1).take l.2.2).drop l.2.1).any fun y => (f.pos s).lines ≤ f.order.idxOf y

/-- STREAM_LINE_FETCH (R168, R181): the stream buffer of the next line, at most two lines ahead, is filled from ADDR + y x
PITCH; lines alternate between the buffers. A fetch error is a lasting fault (R185). -/
def streamFetch (d : Dev) (m : Vault) (t : Nat) (err : Bool) : Dev :=
  match d.job t with
  | none => d
  | some (_, f, p) =>
    if !f.config.streamOn then d
    else
      let d := d.startFrame f p t
      let s := d.teller t
      match (f.workLines p)[s.streamed]? with
      | none => d
      | some y =>
        if s.line + 2 ≤ s.streamed then d
        else
          let a := f.config.ssrc + y * f.config.pitch
          let n := 64 * f.config.streamLen
          if err || !d.readsAs .teller a n then
            ((d.set1 (CHT_T_FLAGS.FETCH_ERR t)).set1 CHT_FLAGS.FETCH_ERR).retireTeller t 2
          else
            let w0 := f.config.streamBase + 32 * f.config.streamLen * (s.streamed % 2)
            let d := d.forEach (List.range (n / 2)) fun i d =>
              if w0 + i < 16384 then d.storeSet t (0x6000 + w0 + i) (Vault.num m (a + 2 * i) 2) else d
            d.setTeller t fun s => { s with streamed := s.streamed + 1 }

end Dev
end Sys2Proof.Machine
end

