-- ==== Sys2Proof/Machine/Rings.lean ====
section
/-! DEFINITION. The vault's rings (chapter 09): admission, slides, commits, entries, the overdraft ring, the view, initialisation
at an apply, and the vault's errors with page retirement. -/

namespace Sys2Proof.Machine

namespace Ring

/-- Bytes of the data area, slots of the entry area (R249). -/
def dsize (g : Ring) : Nat := (g.size - g.ent) * pageSize
def nslots (g : Ring) : Nat := 32768 * g.ent

/-- The address of a byte at a count, and of an entry (R250). -/
def dataAddr (g : Ring) (c : Nat) : Nat := g.base * pageSize + c % Nat.max 1 g.dsize
def entryAddr (g : Ring) (n : Nat) : Nat := g.base * pageSize + g.dsize + n % Nat.max 1 g.nslots * 64

/-- Free bytes of the data area, and whether a slot is free (R250, R255). -/
def free (g : Ring) : Nat := g.dsize - (g.dataWr - g.markData)
def slotFree (g : Ring) : Bool := g.entWr - g.markEnt < g.nslots

/-- The mark moves to an entry number: what lies before it is released (R255, R258, R261). Where that leaves no record written, MARK_DATA is the
count at which the record in progress starts: its oldest record's start (R250). DEDUCED: at an ARM too, though the row of R257 has DATA_WR, which
may count bytes of that record already (log entry 106). -/
def markTo (g : Ring) (n : Nat) : Ring :=
  let l := g.entries.filter fun e => n ≤ e.num
  { g with
    entries := l, markEnt := n
    markData := match l with
      | e :: _ => e.start
      | [] => match g.work with
        | some w => w.start
        | none => g.dataWr }

/-- A range of counts as pieces that do not wrap: address and bytes. -/
def split (g : Ring) (c : Nat) (l : List Byte) : List (Nat × List Byte) :=
  let top := g.dsize - c % Nat.max 1 g.dsize
  if l.length ≤ top then [(g.dataAddr c, l)] else [(g.dataAddr c, l.take top), (g.dataAddr (c + top), l.drop top)]

/-- Bytes of a ring from a count. -/
def read (g : Ring) (m : Vault) (c n : Nat) : List Byte := (List.range n).map fun i => Vault.byte m (g.dataAddr (c + i))

/-- The code of VLT_RV_STAT (R267). -/
def code (g : Ring) : Nat :=
  match g.state with
  | .off => 0 | .stream => 1 | .armed => 2 | .post => 3 | .held => 4 | .overdraft => 5

/-- The trigger tick as a bound on ticks: any tick where none had begun. -/
def trigFrom (g : Ring) : Nat := if g.trigTick = 2 ^ 64 - 1 then 0 else g.trigTick

end Ring

/-- A ledger entry's 64 bytes (R217). -/
def entryBytes (e : Entry) (flags bytes location : Nat) : List Byte :=
  le 1 e.format ++ le 1 e.kind ++ le 1 e.head ++ le 1 e.size ++ le 4 flags ++ le 8 e.frameNo ++ le 8 e.expose ++ le 8 e.tick
    ++ (List.range 4).flatMap (fun i => le 5 (e.enc.getD i 0)) ++ le 4 bytes ++ le 8 location

namespace Dev

/-- Bytes of the vault as VLT's own reader gets them: a poisoned word is answered with the error response and gives no data (R16, R245), so that
its bytes are open values (log entry 93). -/
def openRead (d : Dev) (m : Vault) (a n : Nat) : List Byte :=
  (List.range n).map fun i =>
    if d.vlt.poisoned.contains ((a + i) / 8) then BitVec.ofNat 8 (Config.openValue d.fresh (2 ^ 40 + a + i)) else Vault.byte m (a + i)

/-- Bytes of a ring from a count, in the same way. -/
def ringRead (d : Dev) (m : Vault) (g : Ring) (c n : Nat) : List Byte := (List.range n).flatMap fun i => d.openRead m (g.dataAddr (c + i)) 1

/-- Writes of VLT into the vault. -/
def vaultWrites (d : Dev) (l : List (Nat × List Byte)) : Dev :=
  l.foldl (fun d w => (d.setVlt fun x => { x with writes := d.vlt.writes ++ [w] }).unpoison w.1 w.2.length) d

/-- The group of a record ring in force, its RESERVE in bytes. -/
def ringGroup (d : Dev) (r : Nat) : Nat := d.forceGet (VLT_RING_CFG.GROUP r)
def reserve (d : Dev) (r : Nat) : Nat := d.forceGet (VLT_RING_TRIG.RESERVE r) * 2 ^ 20

/-- Whether HOLD rules a ring (R255). -/
def holds (d : Dev) (r : Nat) : Bool :=
  match (d.ring r).state with
  | .post | .held | .overdraft => true
  | .stream => d.forceGet (VLT_RING_CFG.POLICY r) = 1
  | _ => false

/-! ### Orphaned rings (R262) -/

/-- The overdraft ring in force. -/
def overdraft (d : Dev) : Option Nat := (List.range 64).find? fun r => (d.ring r).state = .overdraft

/-- VLT_STAT.MOVER: the mover works while a ring is orphaned and an overdraft ring is in force. -/
def moverStat (d : Dev) : Dev :=
  d.put VLT_STAT.MOVER (ofBool (d.overdraft.isSome && (List.range 64).any fun r => (d.ring r).orphaned))

/-- A stream ring's host path goes down, by containment or by a reset. -/
def orphanRing (d : Dev) (r : Nat) (reset : Bool) : Dev :=
  d.when ((d.ring r).state = .stream) fun d =>
    let was := (d.ring r).orphaned
    let d := d.setRing r fun g => { g with byReset := g.byReset || reset }
    if was then d
    else ((d.setRing r fun g => { g with orphaned := true, ovdTold := false, blockedAt := none }).notice .alert idVLT 0x017 (r * 2 ^ 24)).moverStat

/-- The path comes back: the records written by then fell due while it was down (R220, R286). -/
def unorphanRing (d : Dev) (r : Nat) : Dev :=
  d.when (d.ring r).orphaned fun d =>
    (d.setRing r fun g => { g with orphaned := false, byReset := false, dueTo := g.entWr }).moverStat

/-! ### Slides and drops (R255) -/

/-- The mark advances one whole record; a channel delivering it loses it (R255, R261, R297). -/
def slideOne (d : Dev) (r : Nat) : Dev :=
  match (d.ring r).entries with
  | [] => d
  | e :: _ =>
    let d := d.setRing r fun g => { g.markTo (e.num + 1) with slides := (g.slides + 1) % 2 ^ 32, slidesTold := g.slidesTold + 1 }
    let d := (d.count VLT_SLIDE_CNT.addr).set1 VLT_FLAGS.SLID
    let tell := fun (d : Dev) =>
      (d.notice .alert idVLT 0x013 (r * 2 ^ 24 + Nat.min (2 ^ 24 - 1) (d.ring r).slidesTold)).setRing r
        fun g => { g with slidesTold := 0, slidTold := true }
    let d := if (d.ring r).role = 0 then d.when (!(d.ring r).slidTold) tell else d.atMost (.ringSlid r) (ms 1) tell
    d.forEach (d.streamsOn r) fun c d => d.when ((d.chan c).recd.any fun x => x.num = e.num) (·.cutRecord c 1)

/-- Sliding until a condition on the ring holds or no record is left; true where a record slid. -/
def slideUntil (d : Dev) (r : Nat) (ok : Ring → Bool) : Dev × Bool :=
  (List.range (d.ring r).entries.length).foldl (fun (s : Dev × Bool) _ =>
    if ok (s.1.ring r) then s else (s.1.slideOne r, true)) (d, false)

/-- A ring enters HELD (R257). -/
def ringHeld (d : Dev) (r : Nat) : Dev :=
  let g := d.ring r
  let d := (d.setRing r fun g => { g with state := .held }).set1 VLT_FLAGS.HELD
  (d.notice .event idVLT 0x011 (r * 2 ^ 24 + Nat.min (2 ^ 24 - 1) g.postDone)).fireHop (0x98 + d.ringGroup r) g.hop

/-- A frame dropped whole under HOLD (R255). -/
def ringDrop (d : Dev) (r : Nat) : Dev :=
  let d := d.setRing r fun g => { g with drops := (g.drops + 1) % 2 ^ 32, dropsTold := g.dropsTold + 1 }
  let d := (d.count VLT_DROP_CNT.addr).set1 VLT_FLAGS.DROPPED
  d.atMost (.ringDrop r) (ms 1) fun d =>
    (d.notice .alert idVLT 0x012 (r * 2 ^ 24 + Nat.min (2 ^ 24 - 1) (d.ring r).dropsTold)).setRing r fun g => { g with dropsTold := 0 }

/-- The frame of the record in progress is dropped, as in HELD: what was written of it is given back (R257, R258; DEDUCED: DATA_WR goes back
to its start, log entry 107). -/
def dropWork (d : Dev) (r : Nat) : Dev :=
  match (d.ring r).work with
  | none => d
  | some w => if w.dropped then d else
    (d.setRing r fun g => { g with dataWr := w.start, work := some { w with dropped := true } }).ringDrop r

/-! ### The trigger (R256-R258) -/

/-- The step of R258: entry `trig` is the trigger record; the mark moves to keep PRE records, and the ring enters POST, or
HELD where POST records are already written, which drops the frame of a record in progress. DEDUCED: with POST 0 a trigger record that is
wholly written at the commit stays in the ring (log entry 107). -/
def triggerMove (d : Dev) (r trig : Nat) : Dev :=
  let g := d.ring r
  let keep := Nat.max g.markEnt (trig - g.pre)
  let done := (g.entries.filter fun e => trig ≤ e.num).length
  let d := d.setRing r fun g => { g.markTo keep with
    state := .post, commitWait := false, trigEnt := some trig, preHeld := trig - keep, postDone := done }
  let d := d.notice .event idVLT 0x010 (r * 2 ^ 24 + Nat.min (2 ^ 24 - 1) (trig - keep))
  let d := d.when (0 < g.post) fun d => d.fireHop (0x90 + d.ringGroup r) g.hop
  d.when (g.post ≤ done) fun d => (d.ringHeld r).dropWork r

/-- A commit of groups arrives (R256): T is the last tick begun. The commits of a cycle act at its end, so that an ARM that reaches a ring in
the same cycle, and an apply that lands in it, act first (R256, R269). -/
def commitGroups (d : Dev) (groups : Nat) : Dev :=
  d.setVlt fun x => { x with commits := x.commits ++ [⟨groups, d.get64 CAD_TICK.addr, d.evr.hop⟩] }

/-- A commit acts (R256, R257): every armed record ring of its groups takes T, PRE and POST; a trigger record already begun, which a
frame that is being dropped has not, moves the mark at once. A ring already committed, in POST or HELD reports COMMIT_IGNORED. -/
def commitAct (d : Dev) (c : RingCommit) : Dev :=
  d.forEach (List.range 64) fun r d =>
    let g := d.ring r
    let reached := g.role = 0 && bit c.groups (d.ringGroup r)
    if !reached then d
    else if g.state = .armed && !g.commitWait then
      let d := d.setRing r fun g => { g with
        commitWait := true, trigTick := c.tick, pre := d.forceGet (VLT_RING_CFG.PRE r)
        post := d.forceGet (VLT_RING_TRIG.POST r), hop := c.hop }
      let g := d.ring r
      match g.entries.find? (fun e => g.trigFrom ≤ e.tick) with
      | some e => d.triggerMove r e.num
      | none => d.when (g.work.any fun w => !w.dropped && g.trigFrom ≤ w.tick) (·.triggerMove r g.entWr)
    else if g.state = .armed || g.state = .post || g.state = .held then
      (d.notice .info idVLT 0x01E (r * 2 ^ 24)).set1 VLT_FLAGS.COMMIT_IGNORED
    else d

/-- The commits of the present cycle act, in the order of their arrival. -/
def commitsDue (d : Dev) : Dev := (d.forEach d.vlt.commits fun c d => d.commitAct c).setVlt fun x => { x with commits := [] }

/-- RING_ARM of one ring (R257): only a record ring that is ARMED, in POST or HELD. -/
def armRing (d : Dev) (r : Nat) : Dev :=
  let g := d.ring r
  d.when (g.state = .armed || g.state = .post || g.state = .held) fun d =>
    d.setRing r fun g => { g.markTo g.entWr with state := .armed, commitWait := false, slidTold := false }

/-! ### Records (R251, R255, R232) -/

/-- The stream a ring writer takes next: that of the oldest frame that goes to the ring, once it has bytes or is complete; no later frame
overtakes it (R234). -/
def nextStream (d : Dev) (r : Nat) : Option StreamOut :=
  let l := (List.range 16).flatMap fun h => (d.column h).queue.filter fun o => o.rings.contains r
  (l.foldl (fun best o => match best with
    | none => some o
    | some b => if o.frame < b.frame then some o else best) none).filter fun o => !o.bytes.isEmpty || o.complete

/-- RECORD_BEGIN: the ring writer begins a record (R255, R257). -/
def recordBegin (d : Dev) (r : Nat) : Dev :=
  let g := d.ring r
  if g.work.isSome || g.state = .off || g.state = .overdraft then d
  else match d.nextStream r with
    | none => d
    | some o =>
      let begin' := fun (slid dropped : Bool) (d : Dev) => d.setRing r fun g => { g with
        work := some ⟨o.frame, o.stream, o.tick, o.head, g.dataWr, 0, slid, false, dropped⟩ }
      let d := d.when (g.state = .armed && g.commitWait && g.trigFrom ≤ o.tick) (·.triggerMove r g.entWr)
      let room := fun (g : Ring) => g.slotFree && ((o.complete && o.bytes.isEmpty) || d.reserve r ≤ g.free)
      let post := (d.ring r).state = .post
      if (d.ring r).state = .held then begin' false true (d.ringDrop r)
      else if d.holds r then
        if room (d.ring r) then begin' false false d
        else begin' false true ((d.ringDrop r).when post (·.ringHeld r))
      else
        let (d, slid) := d.slideUntil r room
        begin' slid false d

/-- The stream a ring's record in progress takes its bytes from. -/
def workStream (d : Dev) (w : RingRec) : Option StreamOut :=
  (d.column w.head).queue.find? fun o => o.frame = w.frame && o.stream = w.stream

/-- RING_PAYLOAD_WRITE: a burst of at most `n` bytes (R251, R255). Bytes beyond the room are not written. -/
def payloadWrite (d : Dev) (r n : Nat) : Dev :=
  match (d.ring r).work with
  | none => d
  | some w =>
    match d.workStream w with
    | none => d
    | some o =>
      let want := (o.bytes.drop w.written).take n
      if w.dropped || w.cut || want.isEmpty then d
      else
        let (d, slid) := if d.holds r then (d, false) else d.slideUntil r fun g => want.length ≤ g.free
        let g := d.ring r
        let l := want.take g.free
        let cut := l.length < want.length
        let d := d.vaultWrites (g.split g.dataWr l)
        let d := d.setRing r fun g => { g with
          dataWr := g.dataWr + l.length
          work := some { w with written := w.written + l.length, slid := w.slid || slid, cut := cut } }
        let d := (d.setHep fun x => { x with ltrCount := Tab.upd (fun _ => 0) d.hep.ltrCount r (· + l.length) })
        d.when cut fun d =>
          ((d.count VLT_TOO_SMALL_CNT.addr).set1 VLT_FLAGS.TOO_SMALL).notice .alert idVLT 0x016 (r * 2 ^ 24 + g.entWr % 2 ^ 24)

/-- A ring writer is done with a stream of a frame: with the last one the stream and its entry leave. -/
def streamTaken (d : Dev) (r : Nat) (frame head : Nat) (s : Stream) : Dev :=
  let hit := fun (o : StreamOut) => o.frame = frame && o.stream = s
  let taken := fun (o : StreamOut) => if hit o then { o with rings := o.rings.filter (· != r) } else o
  let d := d.setColumn head fun c => { c with queue := c.queue.map taken }
  let gone := (d.column head).queue.any fun o => hit o && o.rings.isEmpty
  d.when gone fun d =>
    let d := d.setColumn head fun c => { c with queue := c.queue.filter (!hit ·) }
    (d.setClr fun x => { x with queue := d.clr.queue.filter fun e => !(e.frame = frame && e.stream = s) })

/-- ENTRY_WRITE: once the record's payload is written and its entry queued, the entry goes into its slot and ENT_WR is published
(R224, R232, R251); in POST the POST-th record ends the recording (R257). -/
def entryWrite (d : Dev) (r : Nat) : Dev :=
  match (d.ring r).work with
  | none => d
  | some w =>
    match d.workStream w, d.clr.queue.find? fun e => e.frame = w.frame && e.stream = w.stream with
    | some o, some e =>
      if !o.complete || !(w.dropped || w.cut || o.bytes.length ≤ w.written) then d
      else
        let g := d.ring r
        let d := if w.dropped then d.setRing r fun g => { g with work := none }
          else
            let fl := e.flags ||| (if w.slid then 0x10 else 0)
            let old := slice fl 16 8
            let fl := if w.cut then (fl ||| 0x20) - old * 2 ^ 16 + d.faultBlock (bit fl 5) e.faultAt old idVLT * 2 ^ 16 else fl
            let d := d.vaultWrites [(g.entryAddr g.entWr, entryBytes e fl (if e.bytesFailed then 2 ^ 32 - 1 else w.written) (g.dataAddr w.start))]
            d.setRing r fun g => { g with
              work := none, entWr := g.entWr + 1, dataWr := round64 g.dataWr
              entries := g.entries ++ [⟨g.entWr, w.start, w.written, w.tick, false⟩]
              postDone := if g.state = .post then g.postDone + 1 else g.postDone }
        let d := d.streamTaken r w.frame w.head w.stream
        let g := d.ring r
        d.when (!w.dropped && g.state = .post && g.post ≤ g.postDone) (·.ringHeld r)
    | _, _ => d

/-! ### The overdraft mover (R262, R263) -/

/-- OVERDRAFT_MOVE: one written record of an orphaned ring goes into the overdraft ring. A record that found no room is tried again once the
overdraft ring's mark has changed; a replay source receives nothing (R265). A poisoned word stays poisoned at its new place, but
for LOCATION, which is written new (R245). -/
def overdraftMove (d : Dev) (m : Vault) : Dev :=
  match d.overdraft with
  | none => d
  | some q =>
    let cands := if d.isSource q then [] else (List.range 64).filter fun r =>
      (d.ring r).orphaned && !(d.ring r).entries.isEmpty && (d.ring r).blockedAt != some (d.ring q).markEnt
    match (cands.find? fun r => d.vlt.lastTurn.all (· < r)) <|> cands.head? with
    | none => d
    | some r =>
      match (d.ring r).entries.head? with
      | none => d
      | some e =>
        let o := d.ring q
        let src := d.ring r
        if !(o.slotFree && (e.bytes = 0 || Nat.max (d.reserve q) (round64 e.bytes) ≤ o.free)) then
          let d := (d.setRing r fun g => { g with blockedAt := some o.markEnt })
          let d := d.set1 VLT_FLAGS.OVD_FULL
          d.when (!src.ovdTold) fun d =>
            (d.notice .alert idVLT 0x018 (q * 2 ^ 24)).setRing r fun g => { g with ovdTold := true }
        else
          let payload := src.read m e.start e.bytes
          let bad := (List.range ((e.bytes + 7) / 8)).filter fun i => d.vlt.poisoned.contains (src.dataAddr (e.start + 8 * i) / 8)
          let badEntry := (List.range 7).filter fun i => d.vlt.poisoned.contains (src.entryAddr e.num / 8 + i)
          let old := Vault.read m (src.entryAddr e.num) 64
          let entry := old.take 4 ++ le 4 (field old 4 4 ||| 0x600) ++ (old.drop 8).take 48 ++ le 8 (o.dataAddr o.dataWr)
          let d := d.vaultWrites (o.split o.dataWr payload ++ [(o.entryAddr o.entWr, entry)])
          let d := d.setVlt fun x => { x with
            poisoned := x.poisoned ++ bad.map (fun i => o.dataAddr (o.dataWr + 8 * i) / 8) ++ badEntry.map (o.entryAddr o.entWr / 8 + ·)
            lastTurn := some r }
          let d := d.setHep fun x => { x with ltrCount := Tab.upd (fun _ => 0) x.ltrCount q (· + e.bytes) }
          let d := d.setRing q fun g => { g with
            entries := g.entries ++ [⟨g.entWr, g.dataWr, e.bytes, e.tick, e.overrun⟩], entWr := g.entWr + 1, dataWr := g.dataWr + round64 e.bytes }
          (d.setRing r fun g => g.markTo (e.num + 1)).count VLT_OVD_MOVE_CNT.addr

/-! ### The view (R267) -/

/-- RING_VIEW_LATCH: the whole state of the selected ring into the VLT_RV registers. -/
def ringView (d : Dev) (r : Nat) : Dev :=
  let g := d.ring r
  let d := d.put VLT_RSEL.RING r
  let d := d.setReg VLT_RV_STAT.addr (word ((if d.isSource r then 6 else g.code) + 8 * ofBool g.orphaned + 16 * ofBool g.commitWait))
  let d := d.setReg VLT_RV_BASE.addr (d.force1 (VLT_RING_BASE.addr r))
  let d := d.setReg VLT_RV_SIZE.addr (d.force1 (VLT_RING_SIZE.addr r))
  let d := d.setReg VLT_RV_CFG.addr (d.force1 (VLT_RING_CFG.addr r))
  let d := d.setReg VLT_RV_TRIG.addr (d.force1 (VLT_RING_TRIG.addr r))
  let d := ((d.put64 VLT_RV_DATA_WR.addr g.dataWr).put64 VLT_RV_MARK_DATA.addr g.markData).put64 VLT_RV_ENT_WR.addr g.entWr
  let d := (d.put64 VLT_RV_MARK_ENT.addr g.markEnt).put64 VLT_RV_TRIG_ENT.addr (g.trigEnt.getD (2 ^ 64 - 1))
  let d := (d.put64 VLT_RV_TRIG_TICK.addr g.trigTick).setReg VLT_RV_PRE_HELD.addr (word g.preHeld)
  let d := (d.setReg VLT_RV_POST_DONE.addr (word g.postDone)).setReg VLT_RV_DROPS.addr (word g.drops)
  d.setReg VLT_RV_SLIDES.addr (word g.slides)

/-! ### Rings at an apply (R252, R253, R257) -/

/-- Why a ring in force is refused (R252). -/
def ringRefusal (d : Dev) (r : Nat) : Option Nat :=
  let base := d.forceGet (VLT_RING_BASE.BASE r)
  let size := d.forceGet (VLT_RING_SIZE.SIZE r)
  let ent := d.forceGet (VLT_RING_SIZE.ENT r)
  if size < ent + 1 || ent = 0 then some 1
  else if 98144 < base + size then some 2
  else if (List.range r).any fun q =>
      (d.ring q).state != .off && base < (d.ring q).base + (d.ring q).size && (d.ring q).base < base + size then some 3
  else none

/-- What a ring that is initialised or disabled ends: its record in progress, and the channels that run on it (R257, R285). -/
def ringEnds (d : Dev) (r : Nat) : Dev :=
  let d := match (d.ring r).work with
    | some w => d.streamTaken r w.frame w.head w.stream
    | none => d
  d.forEach (d.streamsOn r) fun c d =>
    let d := d.cutRecord c 3
    let d := match (d.chan c).ended with
      | some e => d.endDesc c e.code e.residue
      | none => d
    d.haltCh c 7 0

/-- No stream goes to a ring any more. -/
def ringStreams (d : Dev) (r : Nat) : Dev :=
  let l := (List.range 16).flatMap fun h => (d.column h).queue.filter fun o => o.rings.contains r
  d.forEach l fun o d => d.streamTaken r o.frame o.head o.stream

/-- Turning a ring off. -/
def ringOff (d : Dev) (r : Nat) : Dev :=
  ((d.ringEnds r).ringStreams r).setRing r fun g => { g with state := .off, work := none, commitWait := false, orphaned := false, byReset := false }

/-- RING_INIT and RING_REFUSED of one ring at an apply. A running ring that becomes the overdraft ring, or ceases to be it, is not initialised:
it keeps its counts and records, and takes its new state; as a record ring it moves its mark by no delivery (R259), so that the channels that
run on it halt as on a ring that ends (R285) (R252, R262; DEDUCED, log entry 92). -/
def applyRing (d : Dev) (r : Nat) : Dev :=
  let g := d.ring r
  if d.forceGet (VLT_RING_CFG.EN r) = 0 then d.when (g.state != .off) (·.ringOff r)
  else match d.ringRefusal r with
    | some reason =>
      let d := d.when (g.state != .off) (·.ringOff r)
      (d.set1 VLT_FLAGS.RING_REFUSED).notice .alert idVLT 0x014 (r * 2 ^ 24 + reason)
    | none =>
      let base := d.forceGet (VLT_RING_BASE.BASE r)
      let size := d.forceGet (VLT_RING_SIZE.SIZE r)
      let ent := d.forceGet (VLT_RING_SIZE.ENT r)
      let role := d.forceGet (VLT_RING_CFG.ROLE r)
      let ovd := d.forceGet VLT_OVD.EN = 1 && d.forceGet VLT_OVD.RING = r
      let s : RingState := if ovd then .overdraft else if role = 0 then .armed else .stream
      if g.state != .off && g.base = base && g.size = size && g.ent = ent && g.role = role then
        d.when ((g.state = .overdraft) != ovd) fun d =>
          ((d.when (s = .armed) (·.ringEnds r)).ringStreams r).setRing r fun g => { g with
            state := s, work := none, commitWait := false, orphaned := false, byReset := false, dataWr := round64 g.dataWr }
      else
        let d := d.when (g.state != .off) (·.ringEnds r)
        d.setRing r fun _ => { Ring.reset with state := s, base := base, size := size, ent := ent, role := role }

/-- The rings and bindings of an apply, once its values are in force. -/
def applyRings (d : Dev) : Dev :=
  let d := d.forEach (List.range 64) fun r d => d.applyRing r
  let l := bindings d.force
  let d := d.forEach (l.filter (d.bindConflict l)) fun b d =>
    (d.set1 VLT_FLAGS.BIND_CONFLICT).notice .alert idVLT 0x015 (b.ring * 2 ^ 24 + b.head * 2 ^ 8 + b.stream * 2 ^ 4 + ofBool b.str)
  (d.forEach (List.range 64) fun r d => d.when (d.ring r).blockedAt.isSome (·.setRing r fun g => { g with blockedAt := none })).moverStat

/-! ### Vault errors and page retirement (R243-R248) -/

/-- Whether a page has been replaced, or is being copied. -/
def pageRetired (d : Dev) (u : Nat) : Bool :=
  d.vlt.copies.any (·.1 = u) || (List.range 128).any fun i => d.is (VLT_POOL.IN_USE i) && d.get (VLT_POOL.PAGE i) = u

/-- Retiring a page: the copy into the highest-numbered free pool page begins; with none free the page stays in service, and the device enters
SAFE (R244, R246). A page under copy is being retired already; a pool page that has itself been retired replaces none. Firmware records a
retirement in the parameter store (R248). The Boolean says whether SAFE was entered for it. -/
def retirePage (d : Dev) (u : Nat) : Dev × Bool :=
  if d.vlt.copies.any (·.1 = u) then (d, false)
  else match (List.range 128).find? fun i =>
      !d.is (VLT_POOL.IN_USE i) && !d.vlt.copies.any (·.2 = i) && poolTop - i != u && !d.pageRetired (poolTop - i) with
  | some i =>
    let d := (d.setMgt fun x => { x with retired := d.mgt.retired ++ [u] })
    ((d.setVlt fun x => { x with copies := d.vlt.copies ++ [(u, i)] }), false)
  | none =>
    let safe := d.mode != 7
    let d := (d.set1 VLT_FLAGS.POOL_EMPTY).notice .fault idVLT 0x01B u
    (d.safeEntry 2, safe)

/-- An ECC error of a vault word (R243, R245): words are numbered by address / 8. -/
def eccError (d : Dev) (w : Nat) (uncorrectable : Bool) (o : Retry) : Dev :=
  let u := w * 8 / pageSize
  let lasting := fun (action : Nat) (d : Dev) =>
    let (d, safe) := d.retirePage u
    d.faultLog idVLT (some (if safe then 8 else action)) 0 (if safe then 2 else u)
  if vaultSize ≤ w * 8 then d
  else match uncorrectable, o with
    | false, .transient => (d.count VLT_CE_CNT.addr).count VLT_TRANSIENT_CNT.addr
    | false, .lasting => lasting 3 (d.count VLT_CE_CNT.addr)
    | true, .transient => d.count VLT_TRANSIENT_CNT.addr
    | true, .lasting =>
      let d := (d.setVlt fun x => { x with poisoned := if d.vlt.poisoned.contains w then d.vlt.poisoned else d.vlt.poisoned ++ [w] })
      let d := (d.count VLT_UE_CNT.addr).set1 VLT_FLAGS.DATA_LOST
      let d := d.atMost .scrub (ms 1) fun d => d.notice .fault idVLT 0x01A u
      lasting 4 d

/-- PAGE_COPY_DONE: the page's addresses map to the pool page (R244). -/
def copyDone (d : Dev) : Dev :=
  match d.vlt.copies with
  | [] => d
  | (u, i) :: t =>
    let d := (d.setVlt fun x => { x with copies := t })
    let d := ((d.put (VLT_POOL.PAGE i) u).set1 (VLT_POOL.IN_USE i)).put VLT_STAT.POOL (d.get VLT_STAT.POOL + 1)
    ((d.count VLT_RETIRE_CNT.addr).set1 VLT_FLAGS.PAGE_RETIRED).notice .alert idVLT 0x019 (i * 2 ^ 17 + u)

/-- SCRUB_LINE: once every INTERVAL ns the next 64-byte line is read, and R243 applied to what it holds in error. -/
def scrubLine (d : Dev) (found : List (Fin 8 × Bool × Retry)) : Dev :=
  if !d.is VLT_STAT.INIT_DONE || d.time < d.vlt.scrubNext then d
  else
    let a := d.vlt.scrubAt
    let d := d.forEach found fun e d => d.eccError (a / 8 + e.1.val) e.2.1 e.2.2
    let next := a + 64
    let d := d.setVlt fun x => { x with
      scrubAt := if vaultSize ≤ next then 0 else next, scrubNext := d.time + ns (d.get VLT_SCRUB.INTERVAL) }
    d.when (vaultSize ≤ next) (·.count VLT_SCRUB_CNT.addr)

/-- RETIRE_REQUEST: no effect on a page already retired or on a pool page (R248). -/
def retireRequest (d : Dev) (u : Nat) : Dev :=
  let d := d.put VLT_RETIRE_REQ.PAGE u
  d.when (!d.pageRetired u && !(poolLow ≤ u && u ≤ poolTop) && u < 98304) fun d => (d.retirePage u).1

end Dev
end Sys2Proof.Machine
end

