-- ==== Sys2Proof/Machine/Clearing.lean ====
section
/-! DEFINITION. The clearing unit (chapter 08): teller results, ledger entries and errors of its items. -/

namespace Sys2Proof.Machine

/-- The contribution FRAME_NO, EXPOSE_TIME and TICK_NO come from: the head's, or that of the lowest-numbered port whose band was
accepted (R217, R465). -/
def Frame.lead (f : Frame) : Option BandPart :=
  (List.range 16).findSome? fun p => f.parts.find? fun e => e.port = p && !e.missing

/-- The KIND of pixel lines: 0, in REPLAY 5 in its place (R218). -/
def Frame.lines (f : Frame) (kind : Nat) : Nat := if kind = 0 && f.mode = 5 then 5 else kind

/-- The KIND of a stream (R218, R227). -/
def Frame.kind (f : Frame) (s : Stream) : Nat :=
  match s with
  | .a => f.lines (slice f.cfg.toNat 4 3)
  | .mint => 1
  | .tally => 2
  | .b => f.lines (slice f.cfg.toNat 8 3)
  | .stat => 4

/-- An item whose reading failed twice holds all ones (R229). -/
def Frame.item (f : Frame) (i : ClrItem) (w v : Nat) : Nat := if f.failed.contains i then 2 ^ w - 1 else v

/-- Whether the count of a stream's bytes has failed, and whether an item of its entry has (R229). -/
def Frame.failsBytes (f : Frame) (s : Stream) : Bool := f.failed.any fun i => match i with | .bytes k => k.val = s.num | _ => false
def Frame.failsEntry (f : Frame) (s : Stream) : Bool := f.failed.any fun i => match i with | .bytes k => k.val = s.num | _ => true

/-- The streams of a frame in ascending KIND, stream A before B (R226). -/
def Frame.ordered (f : Frame) : List Stream :=
  (List.range 8).flatMap fun k => f.streams.filter fun s => f.kind s = k

namespace Dev

/-- TELLER_RESULT_ACCEPT (R228, R231): a column input takes the oldest result of its column. A result that matches no open frame
is discarded, counted and reported. The result of a spare that has taken a row in the meantime matches its frame, which does not await it
(R226). -/
def resultAccept (d : Dev) (k : Nat) : Dev :=
  match (d.column k).results with
  | [] => d
  | r :: rest =>
    let take := fun (d : Dev) => d.setColumn k fun c => { c with results := rest }
    match d.frameOf r.frame with
    | some f =>
      if d.windowHeld 4 f.tick then d
      else
        let d := (take d).setFrame f.id fun g => { g with expect := g.expect.filter (· != r.teller) }
        d.when r.faulted (·.markFault f.id idCHT)
    | none =>
      let d := ((take d).count CLR_ORPHAN_CNT.addr).set1 CLR_FLAGS.ORPHAN
      d.atMost .orphanResult (ms 1) fun d => d.notice .alert idCLR 0x011 (r.teller * 2 ^ 16 + r.tick % 2 ^ 16)

/-- The lock of the strike that fixed a frame's tick. -/
def lockOf (d : Dev) (id : Nat) : Option StrikeLock := d.stp.locks.find? (·.id = id)

/-- Whether a frame holds all its contributions (R226, R371). -/
def complete (d : Dev) (f : Frame) : Bool :=
  f.waiting.isEmpty && f.size ≤ f.parts.length && f.enc.isSome && f.expect.isEmpty
    && (match f.strike with
      | none => true
      | some l => match d.lockOf l with | some k => k.miss.isSome | none => true)

/-- Whether the strike that fixed a frame's tick was late or missed (R371). -/
def lateStrike (d : Dev) (f : Frame) : Bool :=
  match f.strike.bind d.lockOf with
  | some k => k.late || k.miss.getD false
  | none => false

/-- FLAGS of a frame's entries before ENTRY_SEQ (R220, R221, R227, R230). -/
def frameFlags (d : Dev) (f : Frame) (format : Nat) : Nat :=
  let nos := (f.parts.filter (!·.missing)).map (·.frameNo)
  let differ := match nos with | n :: t => t.any (· != n) | [] => false
  let enc := f.enc.getD ⟨[], 0, 0⟩
  let own := (f.flags % 2 ^ 12) ||| (if differ then 2 else 0) ||| (if d.lateStrike f then 8 else 0) ||| enc.flags
  let old := match f.replay with | some l => field l 4 4 | none => 0
  let flags := own ||| (old &&& 0x9FF)
  let fault := if bit old 5 then slice old 16 8 else f.faultId
  flags + (if format = 2 then enc.valid * 2 ^ 12 else 0) + (if bit flags 5 then fault * 2 ^ 16 else 0)

/-- Whether a ring writer waits for a stream's entry of a frame. -/
def entryAwaited (d : Dev) (f : Frame) (s : Stream) : Bool := (d.column f.head).queue.any fun o => o.frame = f.id && o.stream = s

/-- The next ENTRY_SEQ of a head and KIND, and its step (R222). -/
def seqBits (h kind : Nat) : Bits :=
  ⟨if kind ≤ 3 then CLR_SEQ.addr h else CLR_SEQ_HI.addr h, 8 * (kind % 4), 8⟩

/-- An entry completed under a lasting error (R229). -/
def entryFault (d : Dev) (f : Frame) : Dev :=
  ((d.count CLR_FAULT_CNT.addr).set1 CLR_FLAGS.ENTRY_FAULT).notice .fault idCLR 0x010 (f.head * 2 ^ 16 + f.tick % 2 ^ 16)

/-- One entry queued: counted, its ENTRY_SEQ taken, and kept where a ring writer waits for it. -/
def queueEntry (d : Dev) (f : Frame) (s : Stream) : Dev :=
  let format := slice f.cfg.toNat 0 2
  let kind := f.kind s
  let base := d.frameFlags f format
  let seq := d.get (seqBits f.head kind)
  let d := ((d.put (seqBits f.head kind) (seq + 1)).count CLR_ENTRY_CNT.addr).when (f.failsEntry s) (·.entryFault f)
  let d := d.forEach ((List.range 12).filter fun b => bit base b && b != 4 && b != 9 && b != 10) fun b d => d.count (CLR_FLAG_CNT.addr b)
  let lead := f.lead.getD ⟨f.head, f.frameNo, f.expose, f.tick, 0, false⟩
  let recorded := fun (i k v : Nat) => match f.replay with | some l => field l i k | none => v
  let enc := f.enc.getD ⟨[], 0, 0⟩
  let e : Entry :=
    { frame := f.id, stream := s, format := format, kind := kind, head := recorded 2 1 f.head, size := recorded 3 1 f.size
      flags := base + (if format = 2 then seq * 2 ^ 24 else 0), frameNo := f.item .frameNo 64 (recorded 8 8 lead.frameNo)
      expose := f.item .exposeTime 64 (recorded 0x10 8 lead.expose), tick := f.item .tickNo 64 f.tick
      faultAt := f.faultAt, bytesFailed := f.failsBytes s
      enc := (List.finRange 4).map fun i => f.item (.position i) 40 (recorded (0x20 + 5 * i) 5 (enc.pos.getD i 0)), mode := f.mode }
  d.when (d.entryAwaited f s) fun d => (d.setClr fun x => { x with queue := d.clr.queue ++ [e] })

/-- LEDGER_ENTRY_QUEUE (R226): the oldest open frame of a gang head, once complete, gives one entry for each of its streams and
closes, as long as the ledger queue has room for them (R20; DESIGN CHOICE: its length, log entry 74); what CLR held back for want of room goes
on (R228). -/
def entryQueue (d : Dev) (h : Nat) : Dev :=
  match d.clr.frames.find? (·.head = h) with
  | none => d
  | some f =>
    if !d.complete f || d.clr.depth < d.clr.queue.length + (f.ordered.filter (d.entryAwaited f)).length then d
    else
      let d := d.forEach f.ordered fun s d => d.queueEntry f s
      let d := (d.setClr fun x => { x with frames := d.clr.frames.filter (·.id != f.id) })
      (d.put CLR_STAT.OPEN d.clr.frames.length).releaseTable

/-- CORE cycles, three to ten dt, from one instant to another: those in which CLR holds back a FRAME_START are counted (R228). -/
def coreCycles (d : Dev) (t0 : Nat) : Dev :=
  d.when ((List.range 16).any fun p => !(d.port p).pk.held.isEmpty) fun d => d.countBy CLR_FULL_CNT.addr (3 * d.time / 10 - 3 * t0 / 10)

/-- CLR_ITEM_ERROR (R229): an item of an open frame of a head, the `n`-th from the oldest, fails; it is read again once. A second failure
completes the entries with the item all ones. DEDUCED: where contributions of R226 are still to come, the entries are completed with the last
of them, and ENTRY_FAULT comes with each entry then (log entry 104). -/
def itemError (d : Dev) (h n : Nat) (i : ClrItem) (o : Retry) : Dev :=
  match (d.clr.frames.filter (·.head = h))[n]? with
  | none => d
  | some f =>
    match o with
    | .transient => d.count CLR_TRANSIENT_CNT.addr
    | .lasting =>
      let d := (d.setFrame f.id fun g => { g with failed := i :: g.failed }).markFault f.id idCLR
      (d.faultLog idCLR none 0 0).entryQueue h

end Dev
end Sys2Proof.Machine
end

