-- ==== Sys2Proof/Machine/Dma.lean ====
section
/-! DEFINITION. The DMA engine's commands (chapter 10): starting, stopping and aborting channels, descriptors, the copy path, the
stream path with its ledger copies, bus errors. -/

namespace Sys2Proof.Machine
namespace Dev

/-! ### The host path (R296, R321) -/

/-- A channel enters HELD; the ring of a stream channel is orphaned (R262, R296). -/
def holdPath (d : Dev) (c : Nat) : Dev :=
  let d := d.holdCh c
  match (d.chan c).ring with
  | some r => d.when (d.isStream c) (·.orphanRing r false)
  | none => d

/-- A step that needs a bus request: HELD while the port is contained, held back while R321 holds requests. -/
def withBus (d : Dev) (c : Nat) (bus : Bool) (f : Dev → Dev) : Dev :=
  if !bus then f d else if d.contained then d.holdPath c else if d.busHeld then d.held c else f d

/-! ### The copy path (R278-R282) -/

/-- The reshuffle of the copy descriptor in progress and its input lines. -/
def copyShape (d : Dev) (c : Nat) (x : Desc) : Shuffle × Nat :=
  let g := d.shuffleOf c x.shuf
  (g, g.lines x.len)

/-- Output bytes of a copy descriptor. -/
def copyLen (d : Dev) (c : Nat) (x : Desc) : Nat := let (g, h) := d.copyShape c x; g.lenOut h

/-- The place of an output byte, and the bytes from it to a wrap boundary (R280). -/
def copyPlace (d : Dev) (c : Nat) (x : Desc) (i : Nat) : Nat × Nat :=
  if x.circ then
    let z := d.circZ c
    let o := (x.dst % z + i) % z
    (x.dst - x.dst % z + o, z - o)
  else (x.dst + i, 2 ^ 64)

/-- The next write of a copy descriptor, address and bytes, once the staging buffer holds all of it (R279, R284). -/
def nextWrite (d : Dev) (c : Nat) (x : Desc) : Option (Nat × Nat) :=
  let y := d.chan c
  let (g, h) := d.copyShape c x
  let left := g.lenOut h - y.written
  if left = 0 || y.failed.isSome then none
  else
    let (a, wrap) := d.copyPlace c x y.written
    let n := d.cutRequest x.dstBus a left wrap
    if (g.need h (y.written + n - 1)).2 ≤ y.gotAt + y.got.length then some (a, n) else none

/-- The staging buffer gives up the source bytes that no output byte to come needs. -/
def trimStage (d : Dev) (c : Nat) (x : Desc) : Dev :=
  let (g, h) := d.copyShape c x
  d.setChan c fun y =>
    let first := if y.written < g.lenOut h then (g.need h y.written).1 else g.taken h
    let k := Nat.min (first - y.gotAt) y.got.length
    { y with got := y.got.drop k, gotAt := y.gotAt + k }

/-- Writing what is ready, request by request (R279). A write with no vault behind it awaits its error response. -/
def writeOut (d : Dev) (c : Nat) (x : Desc) : Dev :=
  d.forEach (List.range (2 * (d.chan c).got.length / 64 + 4)) fun _ d =>
    match d.chRuns c, d.nextWrite c x with
    | true, some (a, n) => d.withBus c x.dstBus fun d =>
      let y := d.chan c
      let (g, h) := d.copyShape c x
      if !x.dstBus && !d.reaches .dma true a n then d.setChan c fun y => { y with failed := some ⟨a, n, true, y.written + n = g.lenOut h, 0⟩ }
      else
        let l := g.outBytes h (fun v k => (y.got.drop (v - y.gotAt)).take k) y.written n
        let d := (d.engineWrite x.dstBus a l (d.attrOf x.ro x.ns x.ido)).countBy (DMA_CH_BYTES_CNT.addr c) n
        let d := d.setChan c fun y => { y with written := y.written + n, dirty := if x.dstBus then some a else y.dirty }
        d.trimStage c x
    | _, _ => d

/-- The next source read of a copy descriptor, address and bytes, while the staging buffer has room for its data (R278). -/
def nextRead (d : Dev) (c : Nat) (x : Desc) : Option (Nat × Nat) :=
  let y := d.chan c
  let (g, h) := d.copyShape c x
  let a := x.src + g.srcAt h y.asked
  let n := Nat.min (Nat.min (g.taken h - y.asked) (g.srcRun h y.asked)) (if x.srcBus then Nat.min d.maxRead (4096 - a % 4096) else 512 - a % 64)
  if n = 0 || 16384 < y.asked + n - y.gotAt then none else some (a, n)

/-- Source reads as far as the staging buffer has room. -/
def readAhead (d : Dev) (c : Nat) (x : Desc) : Dev :=
  d.forEach (List.range (Nat.min 160 (let (g, h) := d.copyShape c x; g.taken h - (d.chan c).asked))) fun _ d =>
    match d.chRuns c, d.nextRead c x with
    | true, some (a, n) => d.withBus c x.srcBus fun d =>
      let (d, ok) := d.issue c .read x.srcBus a n ⟨x.ro, false, x.ido, false⟩
      if ok then d.setChan c fun y => { y with asked := y.asked + n } else d
    | _, _ => d

/-- Once a descriptor has issued all its requests, a next one with FENCE set makes the channel wait for its completion (R274, R282, R299). -/
def fenceWait (d : Dev) (c : Nat) : Dev := d.when ((d.chan c).fetched.head?.any (·.fence)) (·.waiting c 4)

/-- The copy descriptor in progress goes on as far as it can. -/
def pump (d : Dev) (c : Nat) : Dev :=
  match (d.chan c).desc with
  | none => d
  | some x =>
    if d.isStream c || !d.chRuns c then d
    else
      let d := (d.writeOut c x).readAhead c x
      (d.markStage c).when (d.chRuns c && d.copyLen c x ≤ (d.chan c).written) (·.fenceWait c)

/-! ### Descriptor boundaries (R275, R277, R292) -/

/-- The descriptor of the shadow set (R277). -/
def shadowDesc (d : Dev) (c : Nat) : Desc :=
  { slot := none, src := d.get64 (DMA_CH_SH_SRC.addr c), dst := d.get64 (DMA_CH_SH_DST.addr c)
    len := (d.reg (DMA_CH_SH_LEN.addr c)).toNat, ctl := (d.reg (DMA_CH_SH_CTL.addr c)).toNat, link := d.get64 (DMA_CH_SH_LINK.addr c) }

/-- Beginning a descriptor: one that breaks R275 halts the channel; a circular stream descriptor starts its positions at 0
(R287). -/
def begin' (d : Dev) (c : Nat) (x : Desc) : Dev :=
  let ok := d.descOk c x
  let d := (d.setChan c fun y => { y with
    desc := some x, asked := 0, got := [], gotAt := 0, written := 0, used := 0, records := 0, ended := none, failed := none, reached := 0 }).running c
  if !ok then d.haltCh c 4 x.len
  else
    let d := d.when (d.isStream c && x.circ) fun d =>
      (((d.put64 (DMA_CH_PPOS.addr c) 0).put64 (DMA_CH_LPOS.addr c) 0).put64 (DMA_CH_PACK.addr c) 0).put64 (DMA_CH_LACK.addr c) 0
    (d.fetchAhead c).pump c

/-- At a descriptor boundary: the next descriptor begins, the shadow set is consumed, or the channel waits with cause 1. -/
def nextDesc (d : Dev) (c : Nat) : Dev :=
  if !d.chRuns c || (d.chan c).desc.isSome then d
  else if (d.chan c).stopping then d.stopCh c
  else if d.fed c then
    if d.is (DMA_CH_SH_VALID.VALID c) then
      let x := d.shadowDesc c
      ((d.unset (DMA_CH_SH_VALID.VALID c)).setChan c fun y => { y with eatenAt := some d.time }).begin' c x
    else d.waiting c 1
  else
    match (d.chan c).fetched with
    | x :: t => (d.setChan c fun y => { y with fetched := t }).begin' c x
    | [] =>
      let fetching := (d.chan c).reqs.any fun r => isFetch r && !r.dead
      d.withBus c (d.ringBus c && d.slotLeft c && !fetching) fun d => (d.fetchAhead c).waiting c 1

/-- What a channel does at a boundary without being told: a copy channel, or one fed by registers, takes its next descriptor; a stream
channel fed by a ring takes one when a record needs it, and fetches ahead. -/
def atBoundary (d : Dev) (c : Nat) : Dev := if d.isStream c && !d.fed c && !(d.chan c).stopping then d.fetchAhead c else d.nextDesc c

/-! ### Completion (R282, R288, R289) -/

/-- A descriptor's end is carried out: after the zero-length read its status write-back needs, behind older write-backs, and once the bus takes
the write-back; then STOP takes effect or the next descriptor begins. A write-back with no vault behind it awaits its error response (R295). -/
def finish (d : Dev) (c : Nat) (e : DescEnd) : Dev :=
  let d := d.pushBacks c
  let back := d.backAt c
  let flushAt := if back.isSome && (d.chan c).desc.any (·.lflush) then (d.chan c).dirty else none
  if (d.chan c).failed.isSome || (back.isSome && !(d.chan c).backs.isEmpty) then d
  else match flushAt with
    | some a => d.withBus c true fun d => d.flush c a
    | none =>
      if back.any fun a => !d.ringBus c && !d.reaches .dma true a 8 then
        d.setChan c fun y => { y with failed := some ⟨back.getD 0, 8, true, true, 0⟩ }
      else d.withBus c (back.isSome && d.ringBus c) fun d => ((d.endDesc c e.code e.residue).running c).atBoundary c

/-- DESCRIPTOR_COMPLETE (R282): a descriptor all of whose requests have their responses completes. -/
def descComplete (d : Dev) (c : Nat) : Dev :=
  if !d.chRuns c then d
  else
    let d := d.pump c
    let y := d.chan c
    if !d.chRuns c then d
    else match y.desc, y.ended with
      | none, _ => d.atBoundary c
      | some _, some e => d.finish c e
      | some x, none =>
        let all := d.copyLen c x ≤ y.written && y.reqs.all fun r => !isRead r || r.dead
        if !d.isStream c && all then d.finish c ⟨0, 0⟩ else d

/-! ### START, STOP, ABORT (R285, R292, R293, R299) -/

/-- Whether a stream channel may start on its ring (R285): a ring in state STREAM, which a replay source is not (R267), on which no other
one runs, or the overdraft ring, unless a lower-numbered channel has started on it in this cycle (R300). -/
def ringStarts (d : Dev) (c r : Nat) : Bool :=
  match (d.ring r).state with
  | .overdraft => !(d.streamsOn r).any fun k => k < c && (d.chan k).startAt = some d.time
  | .stream => !d.isSource r && !(d.streamsOn r).any (· != c)
  | _ => false

/-- Of two stream channels started on one ring in one cycle the lower-numbered one runs: one of higher number that has started in this cycle
halts (R300). -/
def startFirst (d : Dev) (c r : Nat) : Dev :=
  d.forEach ((d.streamsOn r).filter fun k => c < k && (d.chan k).startAt = some d.time) fun k d => d.haltCh k 7 0

/-- DMA_START. Responses still waited for and write-backs not yet made stay with the channel. -/
def dmaStart (d : Dev) (c : Nat) : Dev :=
  if !d.chIdle c then d.set1 (DMA_CH_FLAGS.BAD_STATE c)
  else
    let hop := d.evr.hop
    let head := d.get (DMA_CH_DRING_HEAD.HEAD c)
    let fresh := fun (ring : Option Nat) (d : Dev) => d.setChan c fun y => { Chan.reset with
      nextFetch := head, ring := ring, irqDue := y.irqDue, reqs := y.reqs, backs := y.backs, hop := hop, startAt := some d.time, eatenAt := y.eatenAt }
    if d.isStream c then
      let r := d.get (DMA_CH_CFG.RING c)
      let d := d.startFirst c r
      if d.ringStarts c r then (((fresh (some r) d).setChState c 1).unorphanRing r).atBoundary c
      else (fresh none d).haltCh c 7 0
    else ((fresh none d).setChState c 1).nextDesc c

/-- Residue of a stream descriptor: capacity left unused, or records not delivered where LEN is not 0 (R283). -/
def streamResidue (d : Dev) (c : Nat) (x : Desc) : Nat :=
  if x.circ then (if x.len = 0 then 0 else x.len - (d.chan c).records) else x.len - (d.chan c).used

/-- DMA_STOP: at once at a boundary, else at the next one (R292); a circular stream descriptor is to complete with DONE between two
records; a HELD channel leaves its descriptor where it is. -/
def dmaStop (d : Dev) (c : Nat) : Dev :=
  let s := d.chState c
  let atOnce := fun (d : Dev) => (d.setChan c fun y => { y with desc := none, ended := none, stopped := some (d.time, y.desc) }).stopCh c
  let stopping := fun (d : Dev) => (d.setChan c fun y => { y with stopping := true }).setChState c 3
  if s = 6 then atOnce d
  else if (s = 1 || s = 2) && !(d.chan c).aborting then
    match (d.chan c).desc with
    | none => atOnce d
    | some x =>
      if d.isStream c && x.circ && (d.chan c).recd.isNone && (d.chan c).ended.isNone then
        (stopping d).setChan c fun y => { y with ended := some ⟨0, d.streamResidue c x⟩ }
      else stopping d
  else d

/-- Bytes of LEN whose writes were never issued; under a reshuffle, those of lines whose output was not fully issued (R293). -/
def abortResidue (d : Dev) (c : Nat) : Nat :=
  match (d.chan c).desc with
  | none => 0
  | some x =>
    if d.isStream c then d.streamResidue c x
    else let (g, h) := d.copyShape c x; x.len - g.linesDone h (Nat.max (d.chan c).reached (d.chan c).written) * g.lineIn

/-- An ABORT whose last response has come takes effect: the staging buffer goes, the status is written, the channel stops (R293). -/
def abortDone (d : Dev) (c : Nat) : Dev :=
  if !(d.chan c).aborting || !(d.chan c).reqs.isEmpty then d
  else
    let residue := d.abortResidue c
    let d := if (d.chan c).desc.isSome then d.endDesc c 1 residue else d.writeStatus c 1 residue
    let d := d.setChan c fun y => { y with
      fetched := [], recd := none, stopping := false, aborting := false, ended := none, got := [], failed := none, dirty := none }
    let d := ((d.setChState c 4).markStage c).set1 (DMA_CH_FLAGS.STOPPED c)
    (d.notice .event idDMA 0x011 (c * 2 ^ 24 + Nat.min (2 ^ 24 - 1) residue)).signalBehind c

/-- The descriptor of a channel that a STOP of the present cycle stopped at once. -/
def stoppedNow (d : Dev) (c : Nat) : Option (Option Desc) :=
  if d.chState c = 4 then ((d.chan c).stopped.filter (·.1 = d.time)).map (·.2) else none

/-- DMA_ABORT (R293, R299): no new request is issued, and the responses of those sent are waited for. A STOP that took effect in the same cycle
gives way to it (R300). -/
def dmaAbort (d : Dev) (c : Nat) : Dev :=
  let go := fun (d : Dev) => (((d.setChan c fun y => { y with aborting := true }).dropReqs c).unblock c).abortDone c
  match d.stoppedNow c with
  | some x =>
    let d := d.setNtq fun n => { n with input := n.input.filter (· != ⟨.info, idDMA, 0x012, word (c * 2 ^ 24), d.time⟩) }
    go ((d.setChan c fun y => { y with desc := x, stopped := none }).setChState c 3)
  | none => if d.chRuns c || d.chState c = 6 then go d else d

/-- DMA_OWNER_WRITE: the bits of channels not in IDLE, STOPPED or HALTED stay (R271). -/
def ownerWrite (d : Dev) (v : Word) : Dev :=
  let old := d.reg DMA_OWNER.addr
  let busy := (List.range 32).filter fun c => !d.chIdle c && v.getLsbD c != old.getLsbD c
  let d := d.when (!busy.isEmpty) (·.set1 DMA_FLAGS.BAD_STATE)
  d.setReg DMA_OWNER.addr (busy.foldl (fun (w : Word) c => w ^^^ (1#32 <<< c)) v)

/-- A refused write to the shadow set (R277). -/
def shadowLate (d : Dev) (c : Nat) : Dev :=
  ((d.set1 (DMA_CH_FLAGS.SHADOW_LATE c)).count (DMA_CH_LATE_CNT.addr c)).atMost (.shadowLate c) (ms 1)
    fun d => d.notice .alert idDMA 0x014 (c * 2 ^ 24)

/-- Whether the shadow set is write-locked: while VALID is 1, and in the cycle in which it is consumed (R277, R300). -/
def shadowLocked (d : Dev) (c : Nat) : Bool := d.is (DMA_CH_SH_VALID.VALID c) || (d.chan c).eatenAt = some d.time

/-- SHADOW_VALID_WRITE of 1 (R277): a channel that waits at a boundary consumes the set. -/
def shadowValid (d : Dev) (c : Nat) : Dev :=
  if d.shadowLocked c then d.shadowLate c
  else
    let d := d.set1 (DMA_CH_SH_VALID.VALID c)
    d.when (d.fed c && (d.chan c).desc.isNone && !(d.chan c).stopping) (·.nextDesc c)

/-- DRING_TAIL_WRITE: new descriptors are taken (R276, R300). -/
def tailWrite (d : Dev) (c : Nat) : Dev :=
  d.when (d.chState c = 1 || d.chState c = 2) fun d => if (d.chan c).desc.isSome then d.fetchAhead c else d.atBoundary c

/-! ### Going on (R296, R318, R321) -/

/-- A channel goes on as far as it can, once what held it back has ended. -/
def kick (d : Dev) (c : Nat) : Dev :=
  let d := ((d.setChan c fun y => { y with blocked := false, tagless := false }).pushBacks c).resend c
  if !d.chRuns c then d
  else if (d.chan c).desc.isNone then d.atBoundary c
  else (d.fetchAhead c).pump c

/-- Tags are free again: the channels whose requests wait for one go on (R318). -/
def tagsFreed (d : Dev) : Dev := d.forEach ((List.range 32).filter fun c => (d.chan c).tagless) fun c d => d.when (d.freeTag.isSome) (·.kick c)

/-! ### Responses (R276, R278, R282, R294) -/

/-- The oldest request of a kind that awaits a response, and whether its response, with `data` from the bus, can come: an internal read
needs the vault behind the whole 64-byte lines of its range and no poisoned word there (R16, R245, R278). -/
def awaited (d : Dev) (c : Nat) (p : ChanReq → Bool) : Option ChanReq :=
  (d.chan c).reqs.find? fun r => p r && r.data.isNone && (!r.bus || r.tag.isSome)
def answers (d : Dev) (r : ChanReq) (data : List Byte) : Bool :=
  if r.bus then data.length = r.len else d.readsAs .dma (r.addr / 64 * 64) (64 * linesOf r.addr r.len)
def responseBytes (m : Vault) (r : ChanReq) (data : List Byte) : List Byte := if r.bus then data else Vault.read m r.addr r.len

/-- An outstanding request is answered: its tag is free, its bytes are there. A repeated one that has succeeded was a transient error (R294). -/
def answered (d : Dev) (c : Nat) (r : ChanReq) (l : List Byte) : Dev :=
  let d := match r.tag with | some t => d.dropTag t | none => d
  let d := d.setChan c fun y => { y with
    reqs := if r.dead then y.reqs.erase r else y.reqs.map fun q => if q = r then { q with tag := none, data := some l } else q }
  let d := d.when (0 < r.tries && !r.dead) fun d =>
    ((d.count (DMA_CH_RETRY_CNT.addr c)).count DMA_TRANSIENT_CNT.addr).atMost (.busRetry c) (ms 1)
      fun d => d.notice .info idDMA 0x013 (c * 2 ^ 24 + r.err)
  d.when r.tag.isSome (·.tagsFreed)

/-- The requests of a kind whose bytes are taken now: they leave in the order in which they were made, each behind all before it. -/
def takeReady (d : Dev) (c : Nat) (p : ChanReq → Bool) : Dev × List ChanReq :=
  let l := ((d.chan c).reqs.filter fun r => p r && !r.dead).takeWhile (·.data.isSome)
  (d.setChan c fun y => { y with reqs := y.reqs.filter fun r => !l.contains r }, l)

/-- Bytes a response has brought, by the space they came from. -/
def countRead (d : Dev) (r : ChanReq) : Dev :=
  if r.bus then d.countBy DMA_BUS_RD_CNT.addr r.len else d.countBy DMA_INT_RD_CNT.addr (64 * linesOf r.addr r.len)

/-- DESCRIPTOR_FETCH: the oldest fetch is answered, from the vault or with the host's bytes (R276); a channel that waits for a descriptor goes
on (R299). -/
def descFetch (d : Dev) (m : Vault) (c : Nat) (data : List Byte) : Dev :=
  match d.awaited c isFetch with
  | none => d
  | some r =>
    if !d.answers r data then d
    else
      let d := (d.answered c r (responseBytes m r data)).countRead r
      if r.dead then d.abortDone c
      else
        let (d, l) := d.takeReady c isFetch
        let slot := fun (r : ChanReq) => match r.kind with | .fetch s => some s | _ => none
        let d := d.setChan c fun y => { y with fetched := y.fetched ++ l.map fun r => Desc.ofBytes (slot r) (r.data.getD []) }
        if l.isEmpty then d
        else if d.isStream c then d.when (d.get (DMA_CH_STAT.WAIT_CAUSE c) = 1) (·.running c)
        else d.when (d.chan c).desc.isNone (·.nextDesc c)

/-- BUS_READ_COMPLETION: the oldest source read is answered; the data goes into the staging buffer and out as it can (R278). -/
def readDone (d : Dev) (m : Vault) (c : Nat) (data : List Byte) : Dev :=
  match d.awaited c isRead with
  | none => d
  | some r =>
    if !d.answers r data then d
    else
      let d := (d.answered c r (responseBytes m r data)).countRead r
      if r.dead then d.abortDone c
      else
        let (d, l) := d.takeReady c isRead
        (d.setChan c fun y => { y with got := y.got ++ l.flatMap fun r => r.data.getD [] }).pump c

/-- ZERO_LENGTH_READ_DONE (R288): the payload up to its address is there. -/
def zlrDone (d : Dev) (c : Nat) : Dev :=
  match d.awaited c isFlush with
  | none => d
  | some r =>
    let d := ((d.answered c r []).takeReady c isFlush).1.setChan c fun y => { y with
      dirty := if y.dirty = some r.addr then none else y.dirty
      backs := y.backs.map fun b => if b.flushAt = some r.addr then { b with flushAt := none } else b }
    (d.pushBacks c).abortDone c

/-- The requests a channel has sent on the bus are abandoned (R296, R329): fetches are to be made again, source reads belong to a descriptor
that starts again, a zero-length read goes again. An ABORT waits for them no longer. -/
def abandonReqs (d : Dev) (c : Nat) : Dev :=
  let y := d.chan c
  let lost := y.reqs.filter fun r => r.bus && !r.dead
  let again := lost.findSome? fun r => match r.kind with | .fetch s => some s | _ => none
  let d := d.setChan c fun y => { y with
    nextFetch := again.getD y.nextFetch
    reqs := (y.reqs.filter fun r => !r.bus || isFlush r).map fun r => { r with tag := none } }
  if y.aborting then d.abortDone c
  else if lost.any (!isFetch ·) then d.holdPath c
  else d.kick c

/-! ### Bus errors (R294, R295) -/

/-- A lasting error of a request or an access: a fetch halts with FETCH_ERR, one that leaves no bytes to issue with ERR_TAIL, any other
with BUSERR (R276, R283, R295). -/
def lasting (d : Dev) (c kind : Nat) (bus : Bool) (a code residue : Nat) : Dev := (d.lastingError c kind bus a).haltCh c code residue

/-- One failed attempt of a request (R294): it is issued again with a new tag while retries are left; a response that was only waited for
is there. A tag that becomes free goes to a request that waits for one (R318). -/
def reqFailed (d : Dev) (c kind : Nat) (r : ChanReq) : Dev :=
  let d := match r.tag with | some t => d.dropTag t | none => d
  let d := if r.dead then (d.setChan c fun y => { y with reqs := y.reqs.erase r }).abortDone c
  else if r.tries < d.get (DMA_CH_CFG.RETRY c) then
    let again := { r with tag := none, tries := r.tries + 1, err := kind }
    (d.setChan c fun y => { y with reqs := y.reqs.map fun q => if q = r then again else q, retries := r.tries + 1 }).resend c
  else
    let gone := fun (b : WriteBack) => isFlush r && b.flushAt = some r.addr
    let told := (d.chan c).backs.any fun b => gone b && b.sig
    let d := (d.setChan c fun y => { y with reqs := y.reqs.erase r, retries := r.tries, backs := y.backs.filter (!gone ·) }).when told (·.chSignal c)
    let x := (d.chan c).desc
    if d.chIdle c || (d.chan c).aborting then (d.lastingError c kind r.bus r.addr).abortDone c
    else if isFetch r then d.lasting c kind r.bus r.addr 5 0
    else if isFlush r then d.lasting c kind r.bus r.addr 3 0
    else d.lasting c kind r.bus r.addr 2 ((x.map (·.len)).getD 0 - (r.addr - (x.map (·.src)).getD 0))
  d.tagsFreed

/-- One failed attempt of an internal access; repeated where the vault answers by then, it was transient. -/
def accessFailed (d : Dev) (c : Nat) (b : BadAccess) : Dev :=
  if b.tries < d.get (DMA_CH_CFG.RETRY c) then
    let d := d.setChan c fun y => { y with retries := b.tries + 1, failed := some { b with tries := b.tries + 1 } }
    if if b.write then d.reaches .dma true b.addr b.len else d.readsAs .dma b.addr b.len then
      let d := d.setChan c fun y => { y with failed := none }
      let d := (d.count (DMA_CH_RETRY_CNT.addr c)).count DMA_TRANSIENT_CNT.addr
      (d.atMost (.busRetry c) (ms 1) fun d => d.notice .info idDMA 0x013 (c * 2 ^ 24 + 1)).kick c
    else d
  else
    let residue := if b.last then 0 else d.abortResidue c
    (d.setChan c fun y => { y with retries := b.tries }).lasting c 1 false b.addr (if b.last then 3 else 2) residue

/-- BUS_ERROR of kind 1 error response, 2 UR, 3 CA, 5 zero-length read (R294): one failed attempt of the access that awaits it, or of the
request of that class that it names, counted from the oldest. A read timeout, kind 4, comes as COMPLETION_TIMEOUT. -/
def busError (d : Dev) (c kind : Nat) (fetch : Bool) (nth : Nat) : Dev :=
  let named := fun (p : ChanReq → Bool) => ((d.chan c).reqs.filter p)[nth]?
  match kind with
  | 1 =>
    match if fetch then none else (d.chan c).failed with
    | some b => d.accessFailed c b
    | none =>
      match named fun r => !r.bus && (if fetch then isFetch r else isRead r) with
      | some r => d.when (!d.answers r []) (·.reqFailed c 1 r)
      | none => d
  | 5 => match named fun r => isFlush r && r.tag.isSome with
    | some r => d.reqFailed c 5 r
    | none => d
  | _ =>
    if kind = 2 || kind = 3 then
      match named fun r => r.tag.isSome && (if fetch then isFetch r else isRead r) with
      -- Received Master Abort and Received Target Abort of the Status register (R306)
      | some r => (d.putCfgBit 0x04 (if kind = 2 then 29 else 28) true).reqFailed c kind r
      | none => d
    else d

/-! ### The stream path (R285-R288) -/

/-- The record a stream channel is to deliver: the one at the ring's mark, once it is written or begun. -/
def nextRecord (d : Dev) (r : Nat) : Option StreamRec :=
  let g := d.ring r
  let mk : Nat → StreamRec := fun start =>
    ⟨g.markEnt, start, 0, none, 0, none, 0, 0, false, g.state = .stream && g.markEnt < g.dueTo⟩
  match g.entries.head? with
  | some e => some (mk e.start)
  | none => match g.work with
    | some w => if w.dropped then none else some (mk w.start)
    | none => none

/-- What the ring has published of a record (R24, R286): bytes, and whether its entry is written, so that they are all. -/
def published (d : Dev) (c : Nat) (rec' : StreamRec) : Nat × Bool :=
  let g := d.ring ((d.chan c).ring.getD 0)
  match g.entries.find? (·.num = rec'.num) with
  | some e => (e.bytes, true)
  | none => match g.work with
    | some w => if g.entWr = rec'.num then (w.written, false) else (0, false)
    | none => (0, false)

/-- The KIND of a record: its entry's, or that the entry will have. -/
def recordKind (d : Dev) (m : Vault) (c : Nat) (rec' : StreamRec) : Nat :=
  let g := d.ring ((d.chan c).ring.getD 0)
  if g.entries.any (·.num = rec'.num) then (Vault.byte m (g.entryAddr rec'.num + 1)).toNat
  else match g.work with
    | none => 0
    | some w => match d.frameOf w.frame with
      | some f => f.kind w.stream
      | none => ((d.clr.queue.find? fun e => e.frame = w.frame && e.stream = w.stream).map (·.kind)).getD 0

/-- The reshuffle of a record and the lines of it: as many as its bytes give, without bound while they are not all there. -/
def recordShape (d : Dev) (c : Nat) (z : StreamRec) : Shuffle × Nat :=
  let g := d.shuffleOf c z.shuf
  let (bytes, whole) := d.published c z
  (g, if whole then g.lines bytes else 2 ^ 40)

/-- A record that is not, or no longer, to be reshuffled (R290): one of another KIND from its first byte on; one whose length breaks the
geometry, which its entry shows, is copied as bytes from its first byte where the descriptor in which it began still holds all of it,
otherwise from the first line not yet delivered (DESIGN CHOICE, log entry 34). Each is counted. -/
def takeRaw (d : Dev) (m : Vault) (c : Nat) (x : Desc) : Dev :=
  match (d.chan c).recd with
  | none => d
  | some z =>
    let (bytes, whole) := d.published c z
    let g := (d.recordShape c z).1
    let skip := fun (d : Dev) => d.count (DMA_CH_SHUF_SKIP_CNT.addr c)
    let set := fun (w : Nat) (raw : Nat × Nat) (used : Nat) (d : Dev) =>
      d.setChan c fun y => { y with recd := some { z with written := w, raw := some raw }, used := used }
    let k := d.recordKind m c z
    let y := d.chan c
    if z.raw.isSome then d
    else if z.shuf = 0 then set 0 (0, 0) y.used d
    else if z.written = 0 && !(k = 0 || k = 5) then skip (set 0 (0, 0) y.used d)
    else if whole && !g.fits bytes then
      if x.circ || y.used = z.written then skip (set 0 (0, 0) 0 d)
      else
        let n := (z.written + g.rowOut - 1) / Nat.max 1 g.rowOut
        skip (set z.written (n * g.rowOut, n * g.lineIn) y.used d)
    else d

/-- Output bytes of a record that can be delivered now, and all of them once they are known (R286). -/
def recordReady (d : Dev) (c : Nat) (z : StreamRec) : Nat × Option Nat :=
  let (bytes, whole) := d.published c z
  let (g, h) := d.recordShape c z
  match z.raw with
  | some (o, i) => (o + (bytes - i), if whole then some (o + (bytes - i)) else none)
  | none => if whole then (g.lenOut h, some (g.lenOut h)) else (g.early (g.lines bytes), none)

/-- The places in a record of the source bytes from the first to the last that `n` output bytes from `o` are made of. -/
def recordSource (d : Dev) (c : Nat) (z : StreamRec) (o n : Nat) : List Nat :=
  let (g, h) := d.recordShape c z
  match z.raw with
  | some (o0, i0) => (List.range n).map fun k => i0 + (o + k - o0)
  | none =>
    let a := (g.need h o).1
    (List.range ((g.need h (o + n - 1)).2 - a)).map fun k => g.srcAt h (a + k)

/-- `n` output bytes of a record from `o`. -/
def recordBytes (d : Dev) (m : Vault) (c : Nat) (z : StreamRec) (o n : Nat) : List Byte :=
  let r := d.ring ((d.chan c).ring.getD 0)
  let (g, h) := d.recordShape c z
  match z.raw with
  | some (o0, i0) => r.read m (z.start + i0 + (o - o0)) n
  | none => g.outBytes h (fun v k => (List.range k).map fun i => Vault.byte m (r.dataAddr (z.start + g.srcAt h (v + i)))) o n

/-- The place of output byte `i` of a record, the bytes up to a wrap or the end of the descriptor, and, under FLOW, of the room
the host has left (R287). -/
def streamPlace (d : Dev) (c : Nat) (x : Desc) (i : Nat) : Nat × Nat × Nat :=
  if x.circ then
    let z := d.circZ c
    let p := d.get64 (DMA_CH_PPOS.addr c) + i
    (x.dst + p % z, z - p % z, if d.is (DMA_CH_CFG.FLOW c) then d.get64 (DMA_CH_PACK.addr c) + z - p else z)
  else (x.dst + (d.chan c).used, x.len - (d.chan c).used, 2 ^ 64)

/-- The next write of a record's payload, once the ring has published all of it and the host has left the room (R279, R284, R286, R287). A
descriptor that is full is done once the record is known to go on beyond it. -/
def payloadWriteNext (d : Dev) (m : Vault) (c : Nat) (x : Desc) (z : StreamRec) : Dev :=
  let (ready, total) := d.recordReady c z
  let (a, wrap, room) := d.streamPlace c x z.written
  let left := total.getD (2 ^ 62) - z.written
  if left = 0 then d.running c
  else if wrap = 0 && total.isNone && ready ≤ z.written then d.waiting c 2
  else if wrap = 0 then (d.setChan c fun y => { y with ended := some ⟨0, 0⟩ }).fenceWait c
  else
    let n := d.cutRequest x.dstBus a left wrap
    if ready < z.written + n then d.waiting c 2
    else if room < n then d.waiting c 3
    else d.withBus c x.dstBus fun d =>
      let g := d.ring ((d.chan c).ring.getD 0)
      let lines := ((d.recordSource c z z.written n).map (· / 64)).eraseDups
      let last := total = some (z.written + n) || (!x.circ && n = wrap)
      match lines.find? fun l => !d.readsAs .dma (g.dataAddr (z.start + 64 * l)) 64 with
      | some l => d.setChan c fun y => { y with failed := some ⟨g.dataAddr (z.start + 64 * l), 64, false, false, 0⟩ }
      | none =>
        if !x.dstBus && !d.reaches .dma true a n then d.setChan c fun y => { y with failed := some ⟨a, n, true, last, 0⟩ }
        else
          let d := (d.engineWrite x.dstBus a (d.recordBytes m c z z.written n) (d.attrOf x.ro x.ns x.ido)).countBy (DMA_CH_BYTES_CNT.addr c) n
          let d := (d.countBy DMA_INT_RD_CNT.addr (64 * (lines.filter fun l => some l != z.line).length)).running c
          let full := !x.circ && n = wrap && (total.any (z.written + n < ·) || z.written + n < ready)
          let d := d.setChan c fun y => { y with
            recd := some { z with written := z.written + n, first := if z.written = 0 then a else z.first, line := lines.getLast? <|> z.line }
            dirty := if x.dstBus then some a else y.dirty
            used := if x.circ then y.used else y.used + n
            ended := if full then some ⟨0, 0⟩ else y.ended }
          d.when full (·.fenceWait c)

/-- STREAM_PAYLOAD_MOVE: a stream channel takes the record at its ring's mark and a descriptor where it needs them, and writes the
next request of payload that the ring has published (R286, R287). -/
def payloadMove (d : Dev) (m : Vault) (c : Nat) : Dev :=
  match d.isStream c && d.chRuns c, (d.chan c).ring with
  | true, some r =>
    let y := d.chan c
    if y.ended.isSome || y.failed.isSome then d
    else if y.recd.isNone && y.stopping && y.desc.all (·.circ) then (match y.desc with
      | some x => (d.setChan c fun y => { y with ended := some ⟨0, d.streamResidue c x⟩ }).descComplete c
      | none => d.stopCh c)
    else if y.desc.isNone && d.fed c then d.nextDesc c
    else match y.recd <|> d.nextRecord r with
      | none => d.waiting c 2
      | some z =>
        let d := d.when y.desc.isNone (·.nextDesc c)
        match d.chRuns c, (d.chan c).desc with
        | true, some x =>
          if y.recd.isNone && x.dstBus && d.contained then d.holdPath c
          else
          let d := d.when y.recd.isNone fun d =>
            d.setChan c fun y => { y with recd := some { z with first := (d.streamPlace c x 0).1, link := x.link, shuf := x.shuf } }
          let entry := (d.ring r).entryAddr z.num
          if ((d.chan c).recd.getD z).shuf != 0 && (d.published c z).2 && !d.readsAs .dma entry 64 then
            d.setChan c fun y => { y with failed := some ⟨entry, 64, false, false, 0⟩ }
          else
            let d := d.takeRaw m c x
            match (d.chan c).recd with
            | some z => d.payloadWriteNext m c x z
            | none => d
        | _, _ => d
  | _, _ => d

/-- LEDGER_COPY_ISSUE: behind the last payload write, and a zero-length read where LFLUSH asks for one, the entry copy is issued
with LOCATION, TICK_OVERRUN and CONTAINED in their places (R233, R286-R288). -/
def ledgerIssue (d : Dev) (m : Vault) (c : Nat) : Dev :=
  let y := d.chan c
  match d.isStream c && d.chRuns c, y.ring, y.recd, y.desc with
  | true, some r, some z, some x =>
    let g := d.ring r
    if (d.recordReady c z).2 != some z.written || z.raw.isNone && !(d.shuffleOf c z.shuf).fits (d.published c z).1 || z.issued || y.ended.isSome || y.failed.isSome then d
    else match g.entries.find? (·.num = z.num) with
      | none => d
      | some e =>
        let l := d.get64 (DMA_CH_LPOS.addr c)
        let slots := d.circY c / 64
        if x.circ && d.is (DMA_CH_CFG.FLOW c) && d.get64 (DMA_CH_LACK.addr c) + slots ≤ l then d.waiting c 3
        else if !d.readsAs .dma (g.entryAddr e.num) 64 then
          d.setChan c fun y => { y with failed := some ⟨g.entryAddr e.num, 64, false, true, 0⟩ }
        else match if d.is (DMA_CH_CFG.LFLUSH c) then y.dirty else none with
          | some p => d.withBus c true fun d => d.flush c p
          | none => d.withBus c x.dstBus fun d =>
            let a := if x.circ then x.link + l % slots * 64 else z.link
            let old := Vault.read m (g.entryAddr e.num) 64
            let fl := field old 4 4 ||| (if e.overrun then 4 else 0) ||| (if z.contained then 0x400 else 0)
            let copy := old.take 4 ++ le 4 fl ++ (old.drop 8).take 48 ++ le 8 z.first
            if !x.dstBus && !d.reaches .dma true a 64 then d.setChan c fun y => { y with failed := some ⟨a, 64, true, true, 0⟩ }
            else
              let d := (d.engineWrite x.dstBus a copy d.plain).countBy DMA_INT_RD_CNT.addr 64
              let d := d.when x.circ fun d => d.put64 (DMA_CH_LPOS.addr c) (l + 1)
              (d.setChan c fun y => { y with recd := some { z with issued := true } }).running c
  | _, _, _, _ => d

/-- LEDGER_COPY_ACCEPTED: the mark of the ring, a stream ring or the overdraft ring (R259), moves past the record, and the descriptor in which it
ends is done (R261, R286, R287). -/
def ledgerAccepted (d : Dev) (c : Nat) : Dev :=
  let y := d.chan c
  match y.ring, y.recd, y.desc with
  | some r, some z, some x =>
    if !z.issued then d
    else
      let d := d.setRing r fun g => if g.markEnt = z.num && (g.state = .stream || g.state = .overdraft) then g.markTo (z.num + 1) else g
      let d := d.when x.circ fun d => d.put64 (DMA_CH_PPOS.addr c) (d.get64 (DMA_CH_PPOS.addr c) + round64 z.written)
      let d := d.setChan c fun y => { y with recd := none, records := y.records + 1 }
      let d := ((d.count (DMA_CH_REC_CNT.addr c)).set1 (DMA_CH_FLAGS.REC_DONE c)).chEvent c 1
      let fin := !x.circ || (d.chan c).stopping || (x.len != 0 && x.len ≤ (d.chan c).records)
      d.when fin fun d => (d.setChan c fun y => { y with ended := some ⟨0, d.streamResidue c x⟩ }).fenceWait c
  | _, _, _ => d

/-- FLOW_ACK_WRITE: PACK or LACK moves up, never below its value nor above PPOS or LPOS (R287). -/
def flowAck (d : Dev) (c : Nat) (lack : Bool) (v : Nat) : Dev :=
  let a := if lack then DMA_CH_LACK.addr c else DMA_CH_PACK.addr c
  let top := d.get64 (if lack then DMA_CH_LPOS.addr c else DMA_CH_PPOS.addr c)
  if v < d.get64 a || top < v then d.set1 (DMA_CH_FLAGS.BAD_STATE c)
  else
    let d := d.put64 a v
    d.when (d.chState c = 2 && d.get (DMA_CH_STAT.WAIT_CAUSE c) = 3) (·.running c)

/-- HOST cycles, two to a nanosecond, from one instant to another: those a channel waits for destination room and those in which R321 holds
requests back are counted (R287, R321). -/
def hostCycles (d : Dev) (t0 : Nat) : Dev :=
  let n := d.time / 2 - t0 / 2
  let d := d.forEach ((List.range 32).filter fun c => d.chState c = 2 && d.get (DMA_CH_STAT.WAIT_CAUSE c) = 3) fun c d =>
    d.countBy (DMA_CH_WAIT_CNT.addr c) n
  d.when (d.busHeld && (List.range 32).any fun c => (d.chan c).blocked) fun d => d.countBy HEP_BLOCK_CNT.addr n

/-! ### Release and reset (R296, R298) -/

/-- A HELD channel goes on as R296 says once the port is released, in the state it left. -/
def releaseCh (d : Dev) (c : Nat) : Dev :=
  let y := d.chan c
  let d := d.when (d.chState c = 6) fun d => (d.setChState c y.left).put (DMA_CH_STAT.WAIT_CAUSE c) y.leftCause
  d.kick c

/-- A reset that reaches a channel: the ring of a stream channel is orphaned, its record cut, its registers and counters go to their reset
values (R262, R298). -/
def resetCh (d : Dev) (c : Nat) : Dev :=
  let d := d.when (d.isStream c) fun d =>
    (d.cutRecord c 3).orphanRing (d.get (DMA_CH_CFG.RING c)) true
  let d := d.forEach ((d.chan c).reqs.filterMap (·.tag)) fun t d => d.dropTag t
  let d := d.setChan c fun _ => Chan.reset
  let base := DMA_CH_CTL.addr c
  let d := { d with regs := d.regs.filter fun e => !(base ≤ e.1 && e.1 < base + 0x1000 && !isSnap e.1) }
  (d.put ⟨DMA_RUN.addr, c, 1⟩ 0).put ⟨DMA_HALTED.addr, c, 1⟩ 0

end Dev
end Sys2Proof.Machine
end

