-- ==== Sys2Proof/Machine/Notices.lean ====
section
/-! DEFINITION. The notice queues and the audit (chapter 02). -/

namespace Sys2Proof.Machine

/-- The code of a class, and the word [127:96] of an item (R46). -/
def Cls.code : Cls → Nat
  | .fault => 0 | .alert => 1 | .event => 2 | .info => 3
def Notice.head (n : Notice) : Word := word (n.cls.code * 2 ^ 30 + 2 ^ 29 + n.block % 256 * 2 ^ 12 + n.code % 2 ^ 12)

namespace Dev

/-! ### Notice queues (R46-R54) -/

/-- A class ring of a queue, and its room (R46). -/
def classRing (d : Dev) (q c : Nat) : List Notice := Tab.get (fun _ => []) d.ntq.rings (4 * q + c)
def setClassRing (d : Dev) (q c : Nat) (l : List Notice) : Dev :=
  { d with ntq := { d.ntq with rings := Tab.set (fun _ => []) d.ntq.rings (4 * q + c) l } }
def ringRoom (q : Nat) : Nat := if q = 0 then 1024 else 64

/-- The items a queue holds. -/
def queueItems (d : Dev) (q : Nat) : Nat := ((List.range 4).map fun c => (d.classRing q c).length).sum

/-- The depth registers follow the rings (R51). -/
def depths (d : Dev) (q : Nat) : Dev :=
  let n := fun c => (d.classRing q c).length
  (d.setReg (NTQ_DEPTH01.addr q) (word (n 1 * 2 ^ 16 + n 0))).setReg (NTQ_DEPTH23.addr q) (word (n 3 * 2 ^ 16 + n 2))

/-- The MGT cycle of the device's instant, counted from 1; a cycle of 800 MHz is 5 dt. -/
def mgtCycle (d : Dev) : Nat := d.time / 5 + 1

/-- The last push a queue took. -/
def lastPush (d : Dev) (q : Nat) : Push := Tab.get (fun _ => ⟨0, none, none⟩) d.ntq.pushed q
def setPush (d : Dev) (q : Nat) (p : Push) : Dev :=
  { d with ntq := { d.ntq with pushed := Tab.set (fun _ => ⟨0, none, none⟩) d.ntq.pushed q p } }

/-- The push a queue has taken in the present cycle into the ring of a class; none where there is none. -/
def pushNow (d : Dev) (q c : Nat) : Option Push :=
  let p := d.lastPush q
  if p.cycle = d.mgtCycle && p.cls = some c then some p else none

/-- A class ring as it stood at the start of the cycle, less what has been popped since (R52, R53): the item pushed in this cycle is not
seen, and the item it overwrote still stands. -/
def startRing (d : Dev) (q c : Nat) : List Notice :=
  match d.pushNow q c with
  | some p => p.lost.toList ++ (d.classRing q c).dropLast
  | none => d.classRing q c

/-- Emptying all class rings of a queue. -/
def emptyQueue (d : Dev) (q : Nat) : Dev :=
  ((d.forEach (List.range 4) fun c d => d.setClassRing q c []).setPush q ⟨(d.lastPush q).cycle, none, none⟩).depths q

/-- A mismatch of the pointer copies (R54): the queue empties, everything discarded counts as lost, QUEUE_RESET is pushed. It is a lasting
fault, as it has no retry (R417). -/
def queueReset (d : Dev) (q extra : Nat) : Dev :=
  let n := d.queueItems q + extra
  let d := ((d.emptyQueue q).countBy (NTQ_LOST.addr q) n).count (NTQ_RESETS.addr q)
  (d.notice .fault idNTQ 0x003 (q * 2 ^ 24 + Nat.min 0xFFFFFF n)).faultLog idNTQ none q 0

/-- A signal of a queue while armed (R50). -/
def queueSignal (d : Dev) (q : Nat) : Dev := (d.unset (NTQ_CTL.ARM q)).signal (d.get (NTQ_CTL.VECTOR q))

/-- A push into a queue (R49, R50, R53, R54). -/
def queuePush (d : Dev) (q : Nat) (n : Notice) (bad : Bool) : Dev :=
  let d := d.setPush q ⟨d.mgtCycle, none, none⟩
  if !d.is (NTQ_CTL.EN q) then d.count (NTQ_LOST.addr q)
  else if bad then d.queueReset q 1
  else
    let c := n.cls.code
    let l := d.classRing q c
    let full := ringRoom q ≤ l.length
    let d := d.when full (·.count (NTQ_LOST.addr q))
    let d := d.setPush q ⟨d.mgtCycle, some c, if full then l.head? else none⟩
    let d := (d.setClassRing q c ((if full then l.drop 1 else l) ++ [n])).depths q
    d.when (d.is (NTQ_CTL.ARM q) && bit (d.get (NTQ_CTL.IRQ_CLASS q)) c) (·.queueSignal q)

/-- The queues of an item (R48, R54): QUEUE_RESET goes to NQ1 for NQ0, and to NQ0 for every other queue. -/
def routeMask (d : Dev) (n : Notice) : Nat :=
  if n.block = idNTQ && n.code = 3 then (if n.arg.toNat / 2 ^ 24 = 0 then 2 else 1)
  else slice (d.reg (NTQ_ROUTE.addr (n.block % 256))).toNat (8 * n.cls.code) 8

/-- The queues, as bits, that have stored the oldest item of a block. -/
def takenOf (d : Dev) (block : Nat) : Nat := Tab.get (fun _ => 0) d.ntq.taken block
def setTaken (d : Dev) (block mask : Nat) : Dev :=
  { d with ntq := { d.ntq with taken := Tab.set (fun _ => 0) d.ntq.taken block mask } }

/-- Whether an item is pending for a queue: it is the oldest of its block, the queue is in its mask, and has not stored it (R47). -/
def pendsFor (d : Dev) (n : Notice) (q : Nat) : Bool :=
  d.ntq.input.find? (·.block = n.block) = some n && bit (d.routeMask n) q && !bit (d.takenOf n.block) q

/-- Whether a queue takes an item now: it is pending for the queue, which has taken no push in this MGT cycle, and no item of a block of
lower ID is pending for it (R47). -/
def takesNow (d : Dev) (n : Notice) (q : Nat) : Bool :=
  d.pendsFor n q && (d.lastPush q).cycle != d.mgtCycle && !(d.ntq.input.any fun m => m.block < n.block && d.pendsFor m q)

/-- NOTICE_STORE: the oldest item of a block goes into every queue of its mask that takes it now, and leaves its block's input queue once
all have it (R47, R48); `bad` marks the queues whose pointer copies differ. -/
def noticeStore (d : Dev) (block bad : Nat) : Dev :=
  match d.ntq.input.find? (·.block = block) with
  | none => d
  | some n =>
    let mask := d.routeMask n
    let now := (List.range 8).filter (d.takesNow n)
    let done := d.takenOf block ||| (now.map (2 ^ ·)).sum
    let d := if mask &&& done = mask
      then (d.setNtq fun x => { x with input := d.ntq.input.eraseP (·.block = block) }).setTaken block 0
      else d.setTaken block done
    d.forEach now fun q d => d.queuePush q n (bit bad q)

/-- The LAST registers of a queue take the 128 bits of an item (R51). -/
def setLast (d : Dev) (q : Nat) (w3 w2 : Word) (time : Nat) : Dev :=
  let d := (d.setReg (NTQ_LAST3.addr q) w3).setReg (NTQ_LAST2.addr q) w2
  (d.setReg (NTQ_LAST0.addr q) (word time)).setReg (NTQ_LAST1.addr q) (word (time / 2 ^ 32))

/-- The class a pop serves: the highest that held an item at the start of the cycle (R46, R52). -/
def topClass (d : Dev) (q : Nat) : Option Nat := (List.range 4).find? fun c => !(d.startRing q c).isEmpty

/-- The items that pops could take of a queue now. -/
def popItems (d : Dev) (q : Nat) : Nat := ((List.range 4).map fun c => (d.startRing q c).length).sum

/-- Removing the oldest item of a class ring: of a full ring that has taken a push in this cycle, the item overwritten, which is then not
lost (R53). -/
def dropOldest (d : Dev) (q c : Nat) : Dev :=
  match d.pushNow q c with
  | some ⟨_, _, some _⟩ => (d.setPush q ⟨d.mgtCycle, some c, none⟩).countBy (NTQ_LOST.addr q) (2 ^ 64 - 1)
  | _ => (d.setClassRing q c ((d.classRing q c).drop 1)).depths q

/-- The answer of an empty queue (R52). -/
def emptyWord (q : Nat) : Word := if q = 0 then 0 else 0xE00FFFFF#32

/-- NOTICE_POP (R52, R54). -/
def noticePop (d : Dev) (q : Nat) (bad : Bool) : Dev :=
  if bad then ((d.queueReset q 0).setLast q (emptyWord q) 0 0).emit (.readData (NTQ_POP.addr q) (emptyWord q))
  else match d.topClass q with
    | none => (d.setLast q (emptyWord q) 0 0).emit (.readData (NTQ_POP.addr q) (emptyWord q))
    | some c =>
      match d.startRing q c with
      | [] => d
      | n :: _ =>
        let d := (d.dropOldest q c).setLast q n.head n.arg n.time
        d.emit (.readData (NTQ_POP.addr q) n.head)

/-- NOTICE_PEEK (R33, R52). -/
def noticePeek (d : Dev) (q : Nat) : Dev :=
  let w := match (d.topClass q).map fun c => d.startRing q c with
    | some (n :: _) => n.head
    | _ => emptyWord q
  d.emit (.readData (NTQ_POP.addr q) w)

/-- NOTICE_ARM: re-arming signals at once where an item of an enabled class is held (R50). -/
def noticeArm (d : Dev) (q : Nat) : Dev :=
  let held := (List.range 4).any fun c => bit (d.get (NTQ_CTL.IRQ_CLASS q)) c && !(d.classRing q c).isEmpty
  let d := d.set1 (NTQ_CTL.ARM q)
  d.when held (·.queueSignal q)

/-! ### The audit (R55-R57) -/

/-- AUDIT_REQUEST: it starts an audit, or is held and merged while one is busy; the AUD_DONE carries the largest hop count of its
requests (R378). -/
def auditRequest (d : Dev) : Dev :=
  if d.is AUD_STAT.BUSY then
    let d := d.set1 AUD_STAT.HELD
    (d.setAud fun x => { x with heldHop := Nat.max d.aud.heldHop d.evr.hop })
  else
    let d := d.set1 AUD_STAT.BUSY
    d.setAud fun _ => { since := some d.time, instant := none, captured := false, hop := d.evr.hop, heldHop := 0 }

/-- The page offset of a register: every stored register lies in the first 4 KiB of its page. -/
def pageOff (a : Nat) : Nat := a % 0x1000

/-- Every live counter into its SNAP copy (R30, R55), and CAD_DOMAIN_OFF into CAD_DOMAIN_SNAP (R61). -/
def snapAll (d : Dev) : Dev :=
  let live := d.regs.filter fun e => 0xA00 ≤ pageOff e.1 && pageOff e.1 < 0xC00
  let snaps := d.regs.filter fun e => 0xC00 ≤ pageOff e.1 && pageOff e.1 < 0xE00 && e.1 < 0x200_0000
  let d := d.forEach snaps fun e d => d.setReg e.1 (d.reg (e.1 - 0x200))
  let d := d.forEach live fun e d => d.setReg (e.1 + 0x200) (d.reg e.1)
  (d.put64 CAD_DOMAIN_SNAP.addr (d.get64 CAD_DOMAIN_OFF.addr))

/-- AUDIT_CAPTURE: AUD_TIME takes the audit instant, once it has come, and every counter is copied (R55). -/
def auditCapture (d : Dev) : Dev :=
  match d.auditInstant with
  | some t =>
    d.when (d.aud.since.isSome && !d.aud.captured) fun d =>
      let d := d.snapAll.put64 AUD_TIME.addr t
      (d.setAud fun x => { x with captured := true })
  | none => d

/-- AUDIT_DONE (R56): a held request starts the next audit. -/
def auditDone (d : Dev) : Dev :=
  d.when (d.is AUD_STAT.BUSY && d.aud.captured) fun d =>
    let d := d.put AUD_SEQ.SEQ (d.get AUD_SEQ.SEQ + 1)
    let d := (d.notice .info idAUD 0x004 (d.get AUD_SEQ.SEQ)).fireHop 0x29 d.aud.hop
    if d.is AUD_STAT.HELD then
      let d := d.unset AUD_STAT.HELD
      d.setAud fun x => { since := some d.time, instant := none, captured := false, hop := x.heldHop, heldHop := 0 }
    else
      let d := d.unset AUD_STAT.BUSY
      d.setAud fun _ => { since := none, instant := none, captured := false, hop := 0, heldHop := 0 }

/-- SNAP_PAIR_READ: both words of a pair in one (R57). -/
def snapPairRead (d : Dev) (a : Nat) : Dev :=
  (d.emit (.readData a (d.reg a))).emit (.readData (a + 4) (d.reg (a + 4)))

end Dev
end Sys2Proof.Machine
end

