-- ==== Sys2Proof/Machine/Charter.lean ====
section
/-! DEFINITION. The charter (chapter 06): loads, arming with its checks, the switch of columns at an apply, and the spare row. -/

namespace Sys2Proof.Machine

/-! ### Checks of the staged configuration (R180) -/

namespace Mw

/-- Reserved encodings and non-zero reserved bits of a microword (R171-R174), with lines outside the context (R174). -/
def reserved (m ctxB ctxA : Nat) : Bool :=
  cond m = 7 || 0x15 < op m || 27 < sa m || 27 < sb m || 16 < dst m || pred m = 3 || cmp m = 7 || lut m = 3 || 4 < ls m
    || 5 < lslot m || stat m = 3 || cen m = 3 || mint m = 3 || out m = 3 || m % 2 ^ 20 != 0
    || (1 ≤ ls m && ls m ≤ 4 && ((1 ≤ lslot m && lslot m ≤ 3 && ctxB < lslot m) || (4 ≤ lslot m && ctxA < lslot m - 3)))

/-- Coefficient words of a microword outside LO to HI - 1 (R180, reason 5). -/
def coefOutside (m lo hi width : Nat) : Bool :=
  let c := coff m
  (win m = 1 && (c < lo || hi < c + 25)) || (cf m = 1 && (c < lo || hi < c + width)) || (cf m = 3 && (c < lo || hi ≤ c))

end Mw

namespace Dev

/-- The active and the staged bank of a column. -/
def activeBank (d : Dev) (k : Nat) : Nat := (d.force1 (bankKey k)).toNat % 2
def stagedBank (d : Dev) (k : Nat) : Nat := 1 - d.activeBank k

/-- The tellers of a column that are not retired, the spare included (R181). -/
def liveTellers (d : Dev) (k : Nat) : List Nat := ((List.range 33).map (33 * k + ·)).filter fun t => !d.is (CHT_T_CTL.RETIRE t)

/-- Whether the staged pool of a column breaks R167: gangs neither lend nor borrow, a lender lends to one adjacent column and
borrows nothing, a borrower borrows from lenders. -/
def poolBroken (d : Dev) (k : Nat) : Bool :=
  let h := d.stagedHead k
  let size := (d.stagedGang h).length
  let lends := fun (c : Nat) => d.is (CHT_ASSIGN.LENDER c)
  let borrow := fun (c : Nat) => d.get (CHT_ASSIGN.BORROW c)
  let single := fun (c : Nat) => (d.stagedGang (d.stagedHead c)).length = 1
  let bad := fun (c other b : Nat) => !lends c || !(single c) || (other < 16 && bit (borrow other) b)
  if 1 < size then lends h || borrow h != 0
  else
    (lends k && borrow k != 0) || (lends k && 0 < k && k < 15 && bit (borrow (k - 1)) 1 && bit (borrow (k + 1)) 0)
      || (bit (borrow k) 0 && (k = 0 || bad (k - 1) (if 2 ≤ k then k - 2 else 16) 1))
      || (bit (borrow k) 1 && (15 ≤ k || bad (k + 1) (k + 2) 0))

/-- Why a column's staged configuration is refused: the lowest reason of R180, with bits 6:0 of the argument (R188). -/
def armReason (d : Dev) (k : Nat) : Option (Nat × Nat) :=
  let h := d.stagedHead k
  let size := (d.stagedGang h).length
  let ctxB := d.get (CHT_RECIPE.CTXB h)
  let ctxA := d.get (CHT_RECIPE.CTXA h)
  let nrow := d.get (CHT_ASSIGN.NROW h)
  let lo := d.get (CHT_COEF.LO h)
  let hi := d.get (CHT_COEF.HI h)
  let base := d.get (CHT_STREAM.BASE h)
  let slen := d.get (CHT_STREAM.SLEN h)
  let g := d.get (AVP_GEOM_W.WIDTH h)
  let width := if g = 0 then maxWidth (d.get (AVP_GEOM_W.FORMAT h)) else g
  let bank := d.stagedBank k
  let basic := (d.column k).stagedKernel.isSome
  let words := if basic then [] else (d.liveTellers k).flatMap fun t =>
    (reachable (d.microword t bank) (d.get (CHT_RECIPE.ENTRY h))).map fun w => (w, d.microword t bank w)
  let lowest := fun (l : List (Nat × Nat)) => l.foldl (fun n e => Nat.min n e.1) 63
  let res := words.filter fun e => Mw.reserved e.2 ctxB ctxA
  let fall := words.filter fun e => e.1 = 63 && !Mw.ends e.2 && Mw.cond e.2 != 1
  let n := (d.poolOf k size nrow (d.get (CHT_ASSIGN.BORROW h)) (d.leftNow k)).length
  let groups := (width + 31) / 32
  let wt := if d.get (CHT_ASSIGN.MODE h) = 3 then 32 * ((groups + n - 1) / Nat.max 1 n) + 4 else width
  let slots := Nat.min 16 (49152 / Nat.max 1 ((wt + 31) / 32 * 64))
  let need := if h < k then 2 * (ctxB + ctxA) + 1 else ctxB + ctxA + 1
  if !d.is (CHT_COL_STAT.LOADED k) || d.is (CHT_COL_STAT.LOADING k) then some (1, 0)
  else if !res.isEmpty then some (2, lowest res)
  else if ctxA = 3 || 4 < d.get (CHT_RECIPE.A_FMT h) || 4 < d.get (CHT_RECIPE.B_FMT h) || nrow = 0 || 32 < nrow then some (2, 0x40)
  else if !fall.isEmpty then some (3, 63)
  else if slots < need then some (4, 0)
  else if hi < lo || 16384 < hi || slen = 0 || 256 < slen
      || (d.is (CHT_STREAM.EN h) && (base < lo || hi < base + 64 * slen))
      || words.any (fun e => Mw.coefOutside e.2 lo hi width) then some (5, 0)
  else if d.poolBroken k || d.inService k < nrow then some (6, 0)
  else if d.get (CHT_LIMIT.STEP_LIMIT h) < 64 then some (7, 0)
  else none

/-- A write of 1 to a column's ARM bit: it acts on the whole gang; the staged configuration of each of its columns is checked,
and the gang is armed or refused (R180, R181). -/
def charterArm (d : Dev) (k : Nat) : Dev :=
  let gang := d.stagedGang (d.stagedHead k)
  let bad := gang.filterMap fun c => (d.armReason c).map fun r => (c, r)
  match bad with
  | [] => d.forEach gang fun c d => d.setBit CHT_ARM.addr c
  | b :: t =>
    let worst := t.foldl (fun (w : Nat × Nat × Nat) e => if e.2.1 < w.2.1 then e else w) b
    let d := d.forEach gang fun c d => (d.clrBit CHT_ARM.addr c).put (CHT_COL_STAT.REASON c) worst.2.1
    (d.set1 CHT_FLAGS.ARM_REFUSED).notice .alert idCHT 0x012 (worst.2.1 * 2 ^ 28 + worst.1 * 2 ^ 16 + worst.2.2)

/-- A write of 0 to a column's ARM bit disarms its gang (R181, R183). -/
def charterDisarm (d : Dev) (k : Nat) : Dev := d.forEach (d.stagedGang (d.stagedHead k)) fun c d => d.disarm c

/-- A staged register of a column written: ARM clears, and a load in progress will not set LOADED (R183). What a gang's head
holds, its whole gang holds. -/
def chartTouched (d : Dev) (k : Nat) : Dev :=
  let cols := if d.stagedHead k = k then d.stagedGang k else [k]
  d.forEach cols fun c d => (d.disarm c).setColumn c fun q => { q with loadDirty := q.loadDirty || q.load.isSome }

/-! ### Loads (R181, R183) -/

/-- A load begins: the staged image address and coefficient range as they stand; a range in active use is refused. -/
def beginLoad (d : Dev) (k : Nat) : Dev :=
  let h := d.stagedHead k
  let img := d.get (CHT_IMG_LO.ADDR h) * 64 + d.get (CHT_IMG_HI.ADDR h) * 2 ^ 32
  let lo := d.get (CHT_COEF.LO h)
  let hi := d.get (CHT_COEF.HI h)
  let a := d.headOf k
  let busy := d.forceGet (CHT_ASSIGN.MODE a) != 0 && Nat.max lo (d.forceGet (CHT_COEF.LO a)) < Nat.min hi (d.forceGet (CHT_COEF.HI a))
  if busy then
    ((d.set1 CHT_FLAGS.LOAD_ERR).setColumn k fun c => { c with loadErr := 2 }).notice .alert idCHT 0x011 (2 * 2 ^ 28 + k * 2 ^ 16 + 0x3FF)
  else
    let d := (d.set1 (CHT_COL_STAT.LOADING k)).unset (CHT_COL_STAT.LOADED k)
    d.setColumn k fun c => { c with load := some (img, lo, hi), loadDirty := false, loadErr := 0, stagedKernel := none }

/-- CHARTER_LOAD of one column: held while OLD_BUSY or LOADING, ignored with BAD_STATE where armed with an apply pending,
otherwise ARM clears and the load proceeds (R183). -/
def loadColumn (d : Dev) (k : Nat) : Dev :=
  if d.is (CHT_COL_STAT.OLD_BUSY k) || d.is (CHT_COL_STAT.LOADING k) then d.setColumn k fun c => { c with loadHeld := true }
  else if d.bitOf CHT_ARM.addr k && d.is CAD_APPLY.PENDING then d.set1 CHT_FLAGS.BAD_STATE
  else (d.disarm k).beginLoad k

/-- CHARTER_LOAD of the columns of a mask, each with its gang. -/
def charterLoad (d : Dev) (cols : Nat) : Dev :=
  let l := ((List.range 16).filter (bit cols)).flatMap fun k => d.stagedGang (d.stagedHead k)
  d.forEach ((List.range 16).filter fun k => l.contains k) fun k d => d.loadColumn k

/-- A held load starts once the load in progress has ended and OLD_BUSY is clear. -/
def heldLoad (d : Dev) (k : Nat) : Dev :=
  if (d.column k).loadHeld && !d.is (CHT_COL_STAT.OLD_BUSY k) && !d.is (CHT_COL_STAT.LOADING k) then
    (d.setColumn k fun c => { c with loadHeld := false }).loadColumn k
  else d

/-- Whether a teller's fetches of an image are all answered with data: the recipe and lookup table, and the coefficient words LO to HI - 1
(R16, R181). -/
def imageReads (d : Dev) (img lo hi : Nat) : Bool :=
  d.readsAs .teller img 0x2400 && (hi ≤ lo || d.readsAs .teller (img + 0x2400 + 2 * lo) (2 * (Nat.min hi 16384 - lo)))

/-- A teller takes a loaded image into its staged banks and its coefficient words LO to HI - 1 (R163, R181). -/
def takeImage (d : Dev) (m : Vault) (t bank img lo hi : Nat) : Dev :=
  let part := fun (d : Dev) (to' from' n : Nat) => d.forEach (List.range n) fun i d => d.storeSet t (to' + i) (Vault.num m (img + from' + 2 * i) 2)
  let d := part d (0xC000 + bank * 0x200) 0 0x200
  let d := part d (0xA000 + bank * 0x1000) 0x400 0x1000
  part d (0x6000 + lo) (0x2400 + 2 * lo) (Nat.min hi 16384 - lo)

/-- LOAD_COMPLETE: the load ends with LOAD_DONE, or with LOAD_ERR after a fetch error (`err` names the teller) or a staged
register written during it (R181, R183). -/
def loadComplete (d : Dev) (m : Vault) (k : Nat) (err : Option Nat) : Dev :=
  match (d.column k).load with
  | none => d
  | some (img, lo, hi) =>
    let dirty := (d.column k).loadDirty
    let tellers := d.liveTellers k
    let err := if err.isSome || d.imageReads img lo hi then err else tellers.head?
    let d := (d.unset (CHT_COL_STAT.LOADING k)).setColumn k fun c => { c with
      load := none, loadDirty := false, loadErr := if err.isSome then 1 else if dirty then 3 else 0 }
    let d := match err with
      | some t =>
        let d := ((d.set1 (CHT_T_FLAGS.FETCH_ERR t)).set1 CHT_FLAGS.FETCH_ERR).set1 CHT_FLAGS.LOAD_ERR
        d.notice .alert idCHT 0x011 (1 * 2 ^ 28 + k * 2 ^ 16 + t)
      | none =>
        let bank := d.stagedBank k
        let d := d.forEach tellers fun t d => d.takeImage m t bank img lo hi
        if dirty then (d.set1 CHT_FLAGS.LOAD_ERR).notice .alert idCHT 0x011 (3 * 2 ^ 28 + k * 2 ^ 16 + 0x3FF)
        else ((d.set1 (CHT_COL_STAT.LOADED k)).count CHT_LOAD_CNT.addr).notice .event idCHT 0x010 (2 ^ k)
    d.heldLoad k

/-! ### The switch (R182) -/

/-- The staged registers of column `k` that an apply moves into force: offsets of the block at 0x0100 + k x 0x30. -/
def chartRegs (k : Nat) : List Nat :=
  [CHT_ASSIGN.addr k, CHT_RECIPE.addr k, CHT_IMG_LO.addr k, CHT_IMG_HI.addr k, CHT_COEF.addr k, CHT_STREAM.addr k
   , CHT_SSRC_LO.addr k, CHT_SSRC_HI.addr k, CHT_LIMIT.addr k]

/-- Moving a staged register into force. -/
def toForce (d : Dev) (a : Nat) : Dev := { d with force := Tab.set regReset d.force a (d.reg a) }

/-- Every armed column that is not OLD_BUSY switches at an apply whose tick is `a`: its staged set comes into force and the
banks change places (R182). -/
def charterSwitch (d : Dev) (a : Nat) : Dev :=
  d.forEach ((List.range 16).filter fun k => d.bitOf CHT_ARM.addr k && !d.is (CHT_COL_STAT.OLD_BUSY k)) fun k d =>
    let bank := d.stagedBank k
    let left := d.leftNow k
    let d := d.forEach (chartRegs k) fun r d => d.toForce r
    let d := { d with force := Tab.set regReset d.force (bankKey k) (word bank) }
    let d := d.forEach (List.range 3) fun j d => { d with force := Tab.set regReset d.force (rowsKey k j) (word (left j)) }
    let d := (d.unset (CHT_COL_STAT.LOADED k)).set1 (CHT_COL_STAT.OLD_BUSY k)
    d.setColumn k fun c => { c with oldKernel := c.kernel, kernel := c.stagedKernel, stagedKernel := none, switchTick := some a }

/-- Whether a teller of column `k` has, or may still get, work of a tick before `a`: an unfinished frame whose pool holds it,
or an exposure commanded for a column that it serves. -/
def oldWork (d : Dev) (k a : Nat) : Bool :=
  let near := ([k - 1, k, k + 1].dedup.filter (· < 16))
  near.any (fun c => (d.column c).frames.any fun f => f.tick < a && f.pool.any fun t => t / 33 = k && !f.sent.contains t)
    || d.cad.exposures.any fun e => e.tick < a && near.any fun c => d.headOf c = e.head
        && (c = k || bit (fieldIn (d.forceTab e.tick) (CHT_ASSIGN.BORROW c)) (if k < c then 0 else 1))

/-- SWITCH_COMPLETE: every teller has left the old bank; a teller with no work of the old configuration leaves it with its state
cleared (R175, R182). -/
def switchComplete (d : Dev) (k : Nat) : Dev :=
  match (d.column k).switchTick with
  | none => d
  | some a =>
    if !d.is (CHT_COL_STAT.OLD_BUSY k) || d.oldWork k a then d
    else
      let bank := d.activeBank k
      let d := d.forEach ((d.liveTellers k).filter fun t => d.get (CHT_T_STAT.BANK t) != bank) fun t d =>
        (d.put (CHT_T_STAT.BANK t) bank).setTeller t Teller.clear
      let d := ((d.unset (CHT_COL_STAT.OLD_BUSY k)).disarm k).setColumn k fun c => { c with switchTick := none, oldKernel := none }
      let d := ((d.count CHT_SWITCH_CNT.addr).set1 CHT_FLAGS.SWITCHED).notice .event idCHT 0x013 (a % 2 ^ 16 * 2 ^ 16 + 2 ^ k)
      d.heldLoad k

/-! ### Software and self-checks (R163, R185, R187) -/

/-- A failed self-check is a lasting fault (R185). -/
def selfCheckFail (d : Dev) (t : Nat) : Dev := d.retireTeller t 3

/-- TELLER_SOFT_RETIRE (R187). -/
def softRetire (d : Dev) (t : Nat) : Dev := d.retireTeller t 4

/-- Whether a write into a word of a teller's store falls into storage that the active configuration uses, or into the line store (R163); a
lender's active bank runs the borrower's lines. `w` is the window offset / 2. -/
def storeInUse (d : Dev) (t w : Nat) : Bool :=
  let k := t / 33
  let h := d.headOf k
  let active := d.forceGet (CHT_ASSIGN.MODE h) != 0
  let lends := d.forceGet (CHT_ASSIGN.LENDER h) = 1
  let busyBank := fun (b : Nat) => ((active || lends) && b = d.activeBank k) || (d.is (CHT_COL_STAT.OLD_BUSY k) && b = d.stagedBank k)
  if w < 0x6000 then true
  else if w < 0xA000 then active && d.forceGet (CHT_COEF.LO h) ≤ w - 0x6000 && w - 0x6000 < d.forceGet (CHT_COEF.HI h)
  else if w < 0xC000 then busyBank ((w - 0xA000) / 0x1000)
  else if w < 0xC400 then busyBank ((w - 0xC000) / 0x200)
  else false

/-- Whether a word of a teller's store lies in the staged recipe or lookup bank, which is part of the staged configuration (R163, R180). -/
def storeStaged (d : Dev) (t w : Nat) : Bool :=
  let b := d.stagedBank (t / 33)
  (0xA000 ≤ w && w < 0xC000 && (w - 0xA000) / 0x1000 = b) || (0xC000 ≤ w && w < 0xC400 && (w - 0xC000) / 0x200 = b)

/-- A write of one 16-bit word of a teller's store, `be` its byte enables: refused in storage in use (R163), ignored in a staged bank while an
apply is pending (R75), else stored; in a staged bank it disarms the column, and a load in progress will not set LOADED (R183). DESIGN
CHOICE: a write into the histogram or statistics area is ignored without WRITE_REFUSED; R163 names only banks, coefficient words and the line
store as refused (log entry 90). -/
def storeHalf (d : Dev) (t w v be : Nat) : Dev :=
  if be % 4 = 0 || 0xC400 ≤ w then d
  else if d.storeInUse t w then d.set1 CHT_FLAGS.WRITE_REFUSED
  else if d.storeStaged t w && d.is CAD_APPLY.PENDING then d.set1 CAD_FLAGS.GO_BUSY
  else
    let old := d.storeAt t w
    let d := d.storeSet t w ((if bit be 0 then v % 2 ^ 8 else old % 2 ^ 8) + (if bit be 1 then v / 2 ^ 8 % 2 ^ 8 else old / 2 ^ 8) * 2 ^ 8)
    d.when (d.storeStaged t w) fun d => (d.disarm (t / 33)).setColumn (t / 33) fun q => { q with loadDirty := q.loadDirty || q.load.isSome }

/-- TELLER_STORE_WRITE: each of the two 16-bit words as its enabled bytes say (R163). -/
def tellerStoreWrite (d : Dev) (t off data be : Nat) : Dev :=
  (d.storeHalf t (off / 4 * 2) (data % 2 ^ 16) be).storeHalf t (off / 4 * 2 + 1) (data / 2 ^ 16) (be / 4)

/-- The lines a teller holds in its line store, slot by slot. Which line takes which slot the spec does not state: DESIGN CHOICE, the order in
which they came (log entry 90). -/
def slotLines (d : Dev) (t : Nat) : List (ColFrame × ColLine) :=
  match d.job t with
  | none => []
  | some (_, f, p) => (((d.frameCols f.frame).flatMap fun e => e.2.delivered).filter fun l => d.needs f p t l.line).map fun l => (f, l)

/-- The column of a frame that stands at a place of a slot (R165): in pixel interleave the teller's groups stand one after another. DESIGN
CHOICE: the spec gives no place of the pixels on each side of a group; the four places past the groups hold the two columns on either side of
the first group (log entry 90). -/
def slotColumn (f : ColFrame) (p i : Nat) : Option Nat :=
  if f.config.mode != 3 then some i
  else
    let l := f.workGroups p
    let n := 32 * ((f.groups + f.pool.length - 1) / Nat.max 1 f.pool.length)
    if i < n then (l[i / 32]?).map fun g => 32 * g + i % 32
    else if i < n + 4 then
      l.head?.bind fun g => if i < n + 2 then (if 32 * g + (i - n) < 2 then none else some (32 * g + (i - n) - 2)) else some (32 * g + 30 + (i - n))
    else none

/-- A byte of a teller's store window as a read finds it: the live contents, slots of L16 bytes in the line store (R163, R165). -/
def storeByte (d : Dev) (t off : Nat) : Nat :=
  let s := (d.teller t).stats
  let stats := le 8 s.sum ++ le 2 s.min ++ le 2 s.max ++ le 4 s.sat
  if off < 0xC000 then
    match (d.slotLines t).head? with
    | none => 0
    | some (f, _) =>
      let len := f.slotBytes
      match (d.slotLines t)[off / len]?, (if off / len < f.slots then slotColumn f (f.pool.idxOf t) (off % len / 2) else none) with
      | some (f, l), some x =>
        let v := match (d.teller t).overlay.find? (·.1 = l.line * 2 ^ 16 + x) with
          | some e => e.2
          | none => if x < f.width && (x + 1) * f.bits ≤ 8 * l.data.length then unpackAt f.bits l.data x else 0
        slice v (8 * (off % 2)) 8
      | _, _ => 0
  else if off < 0x18800 then slice (d.storeAt t (off / 2)) (8 * (off % 2)) 8
  else if off < 0x18C00 then slice (Tab.get (fun _ => 0) s.hist ((off - 0x18800) / 4)) (8 * (off % 4)) 8
  else if off < 0x18C18 then ((stats[off - 0x18C00]?).getD 0).toNat
  else 0

/-- A 32-bit word of a teller's store window. -/
def tellerStoreRead (d : Dev) (t off : Nat) : Nat :=
  ((List.range 4).map fun i => d.storeByte t (off / 4 * 4 + i) * 2 ^ (8 * i)).sum

end Dev
end Sys2Proof.Machine
end

