-- ==== Sys2Proof/Machine/Cadence.lean ====
section
/-! DEFINITION. The cadence (chapter 03): applies, ticks with their schedule points and budgets, the tick bus, the disciplining of
device time, drains, and the replay reader (R265, R266). -/

namespace Sys2Proof.Machine
namespace Dev


/-! ### Starting and stopping -/

/-- The cadence starts at a mode apply (R67). -/
def startCadence (d : Dev) : Dev :=
  let s := Nat.max ((d.force1 CAD_START.addr).toNat + (d.force1 CAD_START_HI.addr).toNat * 2 ^ 32)
    (ceil4000 (d.time + d.forceGet CAD_SCHED_LEAD.LEAD))
  (d.set1 CAD_STAT.RUNNING).setCad fun c => { c with
    startAt := some s, planned := [], scheduledTo := d.nextNum, sentTo := [], busSentTo := d.nextNum, busRxAt := d.time
    busLost := false }

/-- The bytes a bus frame's CRC covers (R79). -/
def busBytes (tick tickTime edge flags : Nat) : List Byte := le 8 tick ++ le 8 tickTime ++ le 8 edge ++ le 2 flags

/-- The 240 bits of a bus frame, bit 0 first on the line: sync, tick number, its time, the edge's time, flags, CRC (R79). -/
def busWord (tick tickTime edge flags : Nat) : BitVec 240 :=
  let body := busBytes tick tickTime edge flags
  BitVec.ofNat 240 (0xA5C3 + fromLe body * 2 ^ 16 + (crc16 body).toNat * 2 ^ 224)

/-- A frame on the bus, its reference edge now. -/
def busEmit (d : Dev) (num time : Nat) (stop : Bool) : Dev :=
  (d.emit (.busFrame d.time (busWord num time d.time (ofBool stop)))).setCad fun c => { c with busEdge := some d.time }

/-- Putting a STOP frame on the bus, or keeping it for the 1 us spacing (R80). -/
def busStop (d : Dev) (num time : Nat) : Dev :=
  match d.cad.busEdge with
  | some e =>
    if d.time < e + us 1 then d.setCad fun c => { c with busStopDue := some (num, time) }
    else (d.busEmit num time true).setCad fun c => { c with busStopDue := none }
  | none => (d.busEmit num time true).setCad fun c => { c with busStopDue := none }

/-- The cadence stops after the tick in progress (R87): the leader tells the followers, and a pending apply will land as in
STANDBY (R76, R80). With ANGLE the time that the next tick would have had is open. -/
def stopCadence (d : Dev) : Dev :=
  let leader := d.forceGet CAD_CTL.BUS_ROLE = 1
  let next := (d.nextTick).getD (d.nextNum, Config.openValue d.fresh 0 % 2 ^ 64)
  let d := if leader && d.nextTick.isNone then d.draw else d
  let d := d.when leader fun d => d.busStop next.1 next.2
  let d := d.pushHistory d.nextNum
  (d.unset CAD_STAT.RUNNING).setCad fun c => { c with
    startAt := none, planned := [], drainAt := none
    apply := c.apply.map fun a => { a with tick := none, standbyAt := some (ceil4000 (Nat.max (a.goAt + us 2) d.time)) } }

/-! ### The replay reader (R265, R266) -/

def replay (d : Dev) (h : Nat) : Replay := Tab.get (fun _ => Replay.reset) d.vlt.replay h
def setReplay (d : Dev) (h : Nat) (f : Replay → Replay) : Dev :=
  { d with vlt := { d.vlt with replay := Tab.upd (fun _ => Replay.reset) d.vlt.replay h f } }

/-- A record skipped, with its reason. -/
def replaySkip (d : Dev) (h reason : Nat) : Dev :=
  let d := (d.count VLT_REPLAY_SKIP_CNT.addr).set1 VLT_FLAGS.REPLAY_SKIP
  d.atMost (.replaySkip h) (ms 1) fun d => d.notice .alert idVLT 0x01D (reason * 2 ^ 28 + h)

/-- Entering REPLAY: every enabled gang head starts at START, or at the mark where START lies below it. -/
def replayStart (d : Dev) : Dev :=
  d.forEach ((List.range 16).filter fun h => d.headOf h = h && d.forceGet (VLT_RPL_CTL.EN h) = 1) fun h d =>
    let g := d.ring (d.forceGet (VLT_RPL_CTL.RING h))
    let start := (d.force1 (VLT_RPL_START_LO.addr h)).toNat + (d.force1 (VLT_RPL_START_HI.addr h)).toNat * 2 ^ 32
    let d := d.when (start < g.markEnt) fun d =>
      ((d.set1 VLT_FLAGS.REPLAY_SKIP).notice .alert idVLT 0x01D (4 * 2 ^ 28 + h)).stamp (.replaySkip h)
    d.setReplay h fun _ => ⟨Nat.max start g.markEnt, 0, g.entWr, true, []⟩

/-- Replay of a gang head ends after COUNT records, or at the ENT_WR taken at entry with COUNT 0. -/
def replayEnd (d : Dev) (h : Nat) : Dev :=
  let r := d.replay h
  let n := d.forceGet (VLT_RPL_COUNT.COUNT h)
  if r.active && (if n = 0 then r.stop ≤ r.pos else n ≤ r.count) then
    ((d.set1 VLT_FLAGS.REPLAY_END).notice .event idVLT 0x01C h).setReplay h fun r => { r with active := false, due := [] }
  else d

/-- The place of line `i` of band `j` of `n` lines in the recorded band: the first CTXB lines of a band j > 0 come last (R197). -/
def recordedLine (j n ctxB i : Nat) : Nat :=
  let c := Nat.min ctxB n
  if j = 0 then i else if i < c then n - c + i else i - c

/-- Feeding a record: the frame record with the recorded entry, and every band's lines to its column; of the ports' present state nothing
enters its FLAGS (R227, R265). -/
def replayFeed (d : Dev) (m : Vault) (h tick : Nat) (entry : List Byte) (g : Ring) (e : RingEntry) : Dev :=
  let format := d.forceGet (AVP_GEOM_W.FORMAT h)
  let width := d.forceGet (AVP_GEOM_W.WIDTH h)
  let height := d.forceGet (AVP_GEOM_H.HEIGHT h)
  let ports := d.gang h
  if d.idleColumn h tick then d.forEach ports fun p d => d.idleDiscard p
  else
    let frameNo := field entry 8 8
    let expose := field entry 0x10 8
    let (d, id) := d.openFrame h frameNo ⟨255, tick % 2 ^ 32, expose, tick, none⟩
    let old := field entry 4 4
    let d := d.setFrame id fun r => { r with
      flags := 0, replay := some entry, fed := some (d.forceGet (VLT_RPL_CTL.RING h), e.num)
      enc := some ⟨(List.range 4).map fun i => field entry (0x20 + 5 * i) 5, if field entry 0 1 = 2 then slice old 12 4 else 0, 0⟩ }
    let n := height / ports.length
    let lb := lineBytes width format
    let ctxB := d.forceGet (VLT_RPL_CTL.CTXB h)
    d.forEach ports fun p d =>
      let j := p - h
      let d := d.openColumn p id tick width height format (j * n) n
      let lines := (List.range n).map fun i =>
        (⟨some id, j * n + i, d.ringRead m g (e.start + (j * n + recordedLine j n ctxB i) * lb) lb, 0, false, false, false⟩ : BufLine)
      (d.setPk p fun k => { k with buffer := k.buffer ++ lines }).addPart id ⟨p, frameNo, expose, tick, 0, false⟩

/-- The replay reader of a gang head takes the next record for the oldest due tick, once the one before has been fed. -/
def replayPump (d : Dev) (m : Vault) (h : Nat) : Dev :=
  let d := d.replayEnd h
  let r := d.replay h
  match r.due with
  | [] => d
  | tick :: rest =>
    if d.actMode != 5 || !r.active || (d.gang h).any (fun p => !(d.port p).pk.buffer.isEmpty) then d
    else
      let g := d.ring (d.forceGet (VLT_RPL_CTL.RING h))
      let d := d.when (r.pos < g.markEnt) fun d => d.replaySkip h 1
      let pos := Nat.max r.pos g.markEnt
      let d := d.setReplay h fun r => { r with due := rest, pos := pos }
      match g.entries.find? (·.num = pos) with
      | none => d
      | some e =>
        let entry := d.openRead m (g.entryAddr pos) 64
        let kind := field entry 1 1
        let need := d.forceGet (AVP_GEOM_H.HEIGHT h) * lineBytes (d.forceGet (AVP_GEOM_W.WIDTH h)) (d.forceGet (AVP_GEOM_W.FORMAT h))
        let d := d.setReplay h fun r => { r with pos := pos + 1 }
        if kind != 0 && kind != 5 then (d.replaySkip h 3).replayEnd h
        else if field entry 0x34 4 != need then (d.replaySkip h 2).replayEnd h
        else
          let d := (d.replayFeed m h tick entry g e).count VLT_REPLAY_CNT.addr
          (d.setReplay h fun r => { r with count := r.count + 1 }).replayEnd h

/-- Every gang head that would expose on a tick in REPLAY has a record due (R265). -/
def replayTick (d : Dev) (m : Vault) (n : Nat) : Dev :=
  if d.actMode != 5 then d
  else d.forEach ((List.range 16).filter fun h => d.headOf h = h && d.forceGet (VLT_RPL_CTL.EN h) = 1 && (d.replay h).active && d.dueOn h n)
    fun h d => (d.setReplay h fun r => { r with due := r.due ++ [n] }).replayPump m h

/-! ### Applies (R74-R78) -/

/-- APPLY_REQUEST: a GO while one is pending is ignored with GO_BUSY; otherwise the boundary is chosen (R75, R76). With ANGLE or
BUS it is chosen when the source provides it. -/
def applyRequest (d : Dev) : Dev :=
  if d.is CAD_APPLY.PENDING then d.set1 CAD_FLAGS.GO_BUSY
  else
    let d := d.set1 CAD_APPLY.PENDING
    let at' := d.time + us 2
    let req : ApplyReq :=
      if !d.ticking then ⟨d.time, none, some (ceil4000 at')⟩
      else if d.forceGet CAD_CTL.SRC = 0 then
        let n := Nat.max d.nextSchedule d.nextNum
        let p := Nat.max 1 (d.forceGet CAD_PERIOD.PERIOD)
        ⟨d.time, some (n + (at' + d.forceGet CAD_SCHED_LEAD.LEAD - d.timeOf n + p - 1) / p), none⟩
      else ⟨d.time, none, none⟩
    d.setCad fun c => { c with apply := some req }

/-- The registers every apply moves into force (R74): CAD's but CAD_CTL, the gangs and geometries, CLR's and the vault's. -/
def stagedRegs : List Nat :=
  [CAD_PERIOD.addr, CAD_SCHED_LEAD.addr, CAD_START.addr, CAD_START_HI.addr, CAD_BUS_LEAD.addr, VLT_OVD.addr]
    ++ (List.range 16).flatMap (fun p => [CAD_PORT.addr p, CAD_PHASE.addr p, AVP_GANG_CFG.addr p, AVP_GEOM_W.addr p, AVP_GEOM_H.addr p
      , CLR_COL_CFG.addr p, VLT_RPL_CTL.addr p, VLT_RPL_COUNT.addr p, VLT_RPL_START_LO.addr p, VLT_RPL_START_HI.addr p])
    ++ (List.range 64).flatMap (fun r => [VLT_RING_BASE.addr r, VLT_RING_SIZE.addr r, VLT_RING_CFG.addr r, VLT_RING_TRIG.addr r])
    ++ (List.range 80).map VLT_BIND.addr

/-- The mode change of an apply (R87). -/
def applyMode (d : Dev) : Dev :=
  let next := d.get DCT_MODE.NEXT
  let base := d.actMode
  if next = d.mode then d
  else if d.mode = 7 && next = base then d.setMode base
  else match modeJudge base next with
    | none => d.refuseMode next
    | some q =>
      let d := d.setMode q
      let d := d.when (base = 0) (·.startCadence)
      let d := d.when (q = 5) (·.replayStart)
      d.when (q = 6) fun d => d.setCad fun c => { c with drainAt := some d.time }

/-- The due apply: its tick, none in STANDBY. -/
def dueApply (d : Dev) : Option (Option Nat) :=
  match d.cad.apply with
  | none => none
  | some r =>
    match r.standbyAt, r.tick with
    | some t, _ => if t ≤ d.time then some none else none
    | none, some a =>
      match d.nextTick with
      | some (n, t) => if n = a && t ≤ d.time then some (some a) else none
      | none => none
    | none, none => none

/-- Everything staged moves into force together, and the apply is recorded and reported (R76, R77). A board that becomes a follower counts the
silence of the bus from then on (R83). -/
def landApply (d : Dev) (tick : Option Nat) : Dev :=
  let a := tick.getD d.nextNum
  let d := (d.setCad fun c => { c with refused := false }).pushHistory a
  let role := d.forceGet CAD_CTL.BUS_ROLE
  let d := if d.ctlBad then d.set1 CAD_FLAGS.BAD_VALUE else d.toForce CAD_CTL.addr
  let d := d.when (role != 2 && d.forceGet CAD_CTL.BUS_ROLE = 2) fun d =>
    d.setCad fun c => { c with busRxAt := d.time, busStopRx := false, busLost := false }
  let d := d.forEach stagedRegs fun r d => d.toForce r
  let d := d.charterSwitch a
  let d := d.put CAD_STAT.SRC (d.forceGet CAD_CTL.SRC)
  let d := d.applyRings.applyMode
  let d := d.forEach (List.range 16) fun p d => (d.noteAdvance p).checkGang p
  let d := (d.unset CAD_APPLY.PENDING).setCad fun c => { c with apply := none }
  let d := d.put64 CAD_APPLY_TICK.addr (tick.getD (2 ^ 64 - 1))
  let d := (d.put64 CAD_APPLY_TIME.addr d.time).count CAD_APPLY_CNT.addr
  d.notice .info idCAD 0x015 (match tick with | some n => n % 2 ^ 32 | none => 2 ^ 32 - 1)

/-- APPLY_LAND. -/
def applyLand (d : Dev) : Dev :=
  match d.dueApply with
  | some t => d.landApply t
  | none => d

/-! ### Planning and schedule points (R65, R68) -/

/-- A tick skipped (R65, R80, R82). -/
def tickSkipped (d : Dev) (reason n : Nat) : Dev := d.notice .alert idCAD 0x011 (reason * 2 ^ 28 + n % 2 ^ 16)

/-- The source fixes tick `num` at a time (R64, R65, R67): before the first time of a started cadence it provides none; closer than
400 dt to the tick before it is skipped. The first one fixed 2 us or more after GO is the apply tick (R76). Under a pending apply away
from TIME the tick before may be a TIME tick still to come. -/
def fixTick (d : Dev) (num t : Nat) (strike : Option Nat) (send : Bool) : Dev :=
  let prev := match d.cad.planned.getLast? with
    | some q => some q.time
    | none => if d.sourceFor d.nextNum = 0 && d.nextNum < num then some (d.timeOf (num - 1)) else d.cad.lastTick.map fun _ => d.cad.lastTime
  let early : Bool := match d.cad.startAt with | some s => d.cad.planned.isEmpty && t < s | none => false
  let close : Bool := match prev with | some q => t < q + 400 | none => false
  if early then d
  else if close then
    ((d.count CAD_SKIP_CNT.addr).set1 CAD_FLAGS.SKIPPED).tickSkipped 1 num
  else
    let d := d.setCad fun c => { c with planned := c.planned ++ [⟨num, t, d.time, !send, strike⟩] }
    match d.cad.apply with
    | some r =>
      d.when (r.standbyAt.isNone && r.tick.isNone && r.goAt + us 2 ≤ d.time) fun d =>
        d.setCad fun c => { c with apply := some { r with tick := some num } }
    | none => d

/-- The gang heads that get a SCHEDULE for a tick: those due on it that have none for it yet (R68, R78). -/
def dueHeads (d : Dev) (n : Nat) : List Nat :=
  if !d.exposesFor n then [] else (d.headsFor n).filter fun h => d.dueOn h n && !d.cad.sentTo.contains (h, n)

/-- SCHEDULEs of one tick to the heads that get one. -/
def sendTick (d : Dev) (n t : Nat) (strike : Option Nat) : Dev :=
  d.forEach (d.dueHeads n) fun h d =>
    (d.sendSchedule h n t (d.setting n (CAD_PHASE.PHASE h)) strike).setCad fun c => { c with sentTo := c.sentTo ++ [(h, n)] }

/-- SCHEDULE_POINT: the earliest tick whose schedule point has come and whose SCHEDULEs are not sent. -/
def schedulePoint (d : Dev) : Dev :=
  if !d.ticking then d
  else match d.cad.planned.find? (!·.scheduled) with
    | some q =>
      (d.setCad fun c => { c with
        planned := c.planned.map fun e => if e.num = q.num then { e with scheduled := true } else e }).sendTick q.num q.time q.strike
    | none =>
      let m := d.nextSchedule
      if d.sourceFor m = 0 && d.pointPassed m then
        let t := d.timeOf m
        (d.setCad fun c => { c with scheduledTo := m + 1 }).sendTick m t none
      else d

/-! ### The tick budget (R69-R72) -/

/-- The rings of a gang whose stream channel, running or HELD, has not delivered a written record of a tick (stage 6). -/
def stage6Rings (d : Dev) (h n : Nat) : List Nat :=
  let l := (bindings (d.forceTab n)).filter fun b => b.str && b.head = h
  (l.map (·.ring)).filter fun r => (d.ring r).entries.any (·.tick = n)
    && (List.range 32).any fun c => (d.chRuns c || d.chState c = 6) && (d.chan c).ring = some r

/-- The check of one tick (R70, R71): TICK_OVERRUN in the entries of every frame a stage has not finished, one count and one notice
for each stage and gang; a gang is known by the head its frames were opened under. -/
def checkTick (d : Dev) (n : Nat) : Dev :=
  d.forEach (List.range 16) fun h d =>
    let found := (List.range 5).map fun i => (i + 1, d.stageFrames (i + 1) h n, d.stageHolds (i + 1) h n)
    let rings := d.stage6Rings h n
    let report := fun (s : Nat) (d : Dev) =>
      ((d.count (CAD_OVERRUN_CNT.addr (s - 1))).set1 CAD_FLAGS.OVERRUN).notice .alert idCAD 0x010
        (s * 2 ^ 28 + h * 2 ^ 16 + n % 2 ^ 16)
    let d := d.forEach found fun e d => d.when (e.2.2 || !e.2.1.isEmpty) fun d =>
      report e.1 (d.setClr fun c => { c with
        frames := c.frames.map (fun f => if e.2.1.contains f.id then { f with flags := f.flags ||| 4 } else f)
        queue := c.queue.map (fun q => if e.2.1.contains q.frame then { q with flags := q.flags ||| 4 } else q) })
    d.when (!rings.isEmpty) fun d =>
      report 6 (d.forEach rings fun r d => d.setRing r fun g => { g with
        entries := g.entries.map fun e => if e.tick = n then { e with overrun := true } else e })

/-- TICK_BEGIN: at its nominal time the tick begins; an apply that chose it lands first; the ticks whose deadline it is are
checked (R64, R69, R70, R76). -/
def tickBegin (d : Dev) (m : Vault) : Dev :=
  match d.nextTick with
  | none => d
  | some (n, t) =>
    if d.time < t then d
    else
      let d := d.applyLand
      let late := d.cad.budget.filter fun e => e.1 + e.2 ≤ n
      let d := d.forEach late fun e d => d.checkTick e.1
      let depth := d.forceGet CAD_CTL.DEPTH
      let d := d.setCad fun c => { c with
        startAt := none, lastTick := some n, lastTime := t, planned := c.planned.filter (·.num != n)
        sentTo := c.sentTo.filter (n < ·.2)
        budget := c.budget.filter (fun e => n < e.1 + e.2) ++ [(n, depth)]
        scheduledTo := Nat.max c.scheduledTo (n + 1) }
      let d := (d.put64 CAD_TICK.addr n).fireHop 0x28 0
      d.replayTick m n

/-! ### Disciplining device time (R58-R63) -/

/-- A trim the servo requests, held at the limit (R59). -/
def servoTrim (d : Dev) (req : Int) : Dev :=
  if 219902326 < req.natAbs then
    let d := (d.hwPut CAD_TRIM.RATE (unsigned 32 (if req < 0 then -219902326 else 219902326))).set1 CAD_FLAGS.TRIM_LIMIT
    d.atMost .trimLimit (ms 1000) fun d => d.notice .alert idCAD 0x016 (unsigned 32 req)
  else d.hwPut CAD_TRIM.RATE (unsigned 32 req)

/-- A valid update of the discipline source: what the servo makes of it is its trim (R62). -/
def discUpdate (d : Dev) (trim : Int) : Dev :=
  (d.servoTrim trim).set1 CAD_STAT.DISC_OK |>.setCad fun c => { c with discAt := d.time, discTold := false }

/-- The discipline source is lost: the trim and the offset are held (R62). -/
def discLost (d : Dev) : Dev :=
  let s := d.get CAD_TIME_CTL.DISC
  let d := (d.unset CAD_STAT.DISC_OK).set1 CAD_FLAGS.DISC_LOST
  (d.notice .alert idCAD 0x014 s).setCad fun c => { c with discTold := true, held := c.held || s = 1 || s = 2 }

/-- CAD_DOMAIN_OFF as hardware updates it: a value that software has written in the same cycle is kept (R35). -/
def domainOff (d : Dev) (off : Nat) : Dev :=
  if d.softWrote ⟨CAD_DOMAIN_OFF.addr, 0, 32⟩ || d.softWrote ⟨CAD_DOMAIN_OFF.addr + 4, 0, 32⟩ then d else d.put64 CAD_DOMAIN_OFF.addr off

/-- The offset that an update of the source under DISC 1 or 2 measures: it replaces CAD_DOMAIN_OFF, but after a loss the held offset
stays until the trim has brought the two together (R60, R62). DESIGN CHOICE: the spec does not say when the restoring through the
trim ends; here it ends when the measured offset equals the held one (log entry 78). -/
def discOffset (d : Dev) (off : Nat) : Dev :=
  if d.cad.held then d.setCad fun c => { c with held := d.get64 CAD_DOMAIN_OFF.addr != off % 2 ^ 64 }
  else d.domainOff off

/-- DISC_WRITE: what a change of DISC does beside the write. -/
def discChanged (d : Dev) : Dev :=
  (d.unset CAD_STAT.DISC_OK).setCad fun c => { c with discAt := d.time, discTold := false, held := false }

/-- DISC_TIMEOUT: 4 s without a valid update (R62). -/
def discTimeout (d : Dev) : Dev :=
  let s := d.get CAD_TIME_CTL.DISC
  d.when ((s = 1 || s = 2 || (s = 3 && !d.is CAD_STAT.DISC_OK)) && !d.cad.discTold && d.cad.discAt + ms 4000 ≤ d.time) (·.discLost)

/-- REF10M_LOSS and REF10M_RESTORED: they act under DISC 3 alone (R62). A good reference gives the servo a trim again and again; each is
such a command, and the first one after a loss sets DISC_OK (R60). -/
def ref10mLoss (d : Dev) : Dev := d.when (d.get CAD_TIME_CTL.DISC = 3 && d.is CAD_STAT.DISC_OK) (·.discLost)
def ref10mRestored (d : Dev) (trim : Int) : Dev := d.when (d.get CAD_TIME_CTL.DISC = 3) (·.discUpdate trim)

/-! ### The tick bus (R79-R84) -/

/-- BUS_FRAME_SEND: the leader's frame of the next tick not yet on the bus, or a STOP frame that waits for the spacing (R80). -/
def busFrameSend (d : Dev) : Dev :=
  match d.cad.busStopDue with
  | some (n, t) => d.busStop n t
  | none =>
    let first := Nat.max d.cad.busSentTo d.nextNum
    let cand : Option (Nat × Nat) :=
      match d.cad.planned.find? (first ≤ ·.num) with
      | some q => some (q.num, q.time)
      | none => if d.sourceFor first = 0 && d.timeOf first ≤ d.time + d.setting first CAD_BUS_LEAD.LEAD then some (first, d.timeOf first) else none
    if d.forceGet CAD_CTL.BUS_ROLE != 1 || !d.ticking then d
    else match cand with
      | none => d
      | some (n, t) =>
        let close : Bool := match d.cad.busEdge with | some e => d.time < e + us 1 | none => false
        let d := d.setCad fun c => { c with busSentTo := n + 1 }
        if close then (d.set1 CAD_FLAGS.SKIPPED).tickSkipped 3 n
        else d.busEmit n t false

/-- The ticks that the bus has fixed from a number on are taken back; an apply that had chosen one of them chooses again (R83, R84). -/
def busTakeBack (d : Dev) (n : Nat) : Dev := d.setCad fun c => { c with
  planned := c.planned.filter (·.num < n), sentTo := c.sentTo.filter (·.2 < n)
  apply := c.apply.map fun r => if c.planned.any (fun q => n ≤ q.num && r.tick = some q.num) then { r with tick := none } else r }

/-- BUS_FRAME_RECEIVE (R81-R84): `f` is the edge's own device time, `trim` what the servo requests under DISC 2. A valid frame sets
CAD_DOMAIN_OFF under every DISC. DEDUCED: R81 gives no condition on DISC, although R60 leaves the offset to software or PTP there (log
entry 78). A STOP frame takes back a tick of its number or above that an earlier frame fixed (R84); an apply that had chosen such a
tick chooses again. -/
def busFrameReceive (d : Dev) (tick tickTime edge flags crc f : Nat) (trim : Int) : Dev :=
  if d.forceGet CAD_CTL.BUS_ROLE != 2 then d
  else
    let bad := fun (r : Nat) => ((d.count CAD_BUS_BAD_CNT.addr).set1 CAD_FLAGS.BUS_BAD).atMost .busBad (ms 1)
      fun d => d.notice .alert idCAD 0x013 r
    if crc != (crc16 (busBytes tick tickTime edge flags)).toNat then bad 1
    else if tick < d.nextNum then bad 2
    else
      let stop := bit flags 0
      let off := (edge + d.get CAD_BUS_DELAY.DELAY + (2 ^ 64 - f % 2 ^ 64)) % 2 ^ 64
      let d := (d.discOffset off).emit (.busFrame (f + 160) (busWord tick tickTime edge flags))
      let d := (d.set1 CAD_STAT.BUS_OK).setCad fun c => { c with
        busRxAt := d.time, busRxTick := tick, busStopRx := stop, busLost := false }
      let d := d.when (d.get CAD_TIME_CTL.DISC = 2) (·.discUpdate trim)
      if stop then
        let d := d.when (d.sourceFor tick = 2) (·.busTakeBack tick)
        (d.set1 CAD_STAT.BUS_STOPPED).notice .info idCAD 0x017 tick
      else
        let d := d.unset CAD_STAT.BUS_STOPPED
        let t := (tickTime + (2 ^ 64 - off)) % 2 ^ 64
        if !d.ticking || d.sourceFor tick != 2 || tick < d.plannedNum then d
        else
          let late := t < d.time + d.forceGet CAD_SCHED_LEAD.LEAD + us 2
          let n := d.cad.planned.length
          let d := d.fixTick tick t none (!late)
          d.when (late && n < d.cad.planned.length) fun d => (d.count CAD_SKIP_CNT.addr).tickSkipped 2 tick

/-- BUS_SILENCE_TIMEOUT: no valid frame for 10 ms in a capture mode, with no STOP since: the follower produces no ticks until the next valid
frame, those that the bus has fixed already among them (R83). -/
def busSilence (d : Dev) : Dev :=
  d.when (d.forceGet CAD_CTL.BUS_ROLE = 2 && d.capturing && !d.cad.busStopRx && !d.cad.busLost && d.cad.busRxAt + ms 10 ≤ d.time) fun d =>
    ((d.unset CAD_STAT.BUS_OK).set1 CAD_FLAGS.BUS_LOST).notice .alert idCAD 0x012 d.cad.busRxTick
      |>.setCad (fun c => { c with busLost := true })
      |> fun d => match d.cad.planned.find? fun q => d.sourceFor q.num = 2 with
        | some q => d.busTakeBack q.num
        | none => d

/-! ### Drains (R87, R88) -/

/-- Whether an exposure has not ended (R88): its port is up, and its frame is open or may still come. -/
def exposureHolds (d : Dev) (e : Exposure) : Bool :=
  d.portUp e.head && (d.time < e.time + d.frameTmo e.head
    || d.clr.frames.any (fun r => r.head = e.head && r.source = e.source && r.cmd = e.id)
    || (d.gang e.head).any fun p => match (d.port p).pk.band with | some b => b.source = e.source && b.cmd = e.id | none => false)

/-- Whether stages 1 to 5 hold no work and the channels bound to rings have moved what lies below the write pointers. -/
def drained (d : Dev) : Bool :=
  !(d.cad.exposures.any d.exposureHolds) && d.clr.frames.isEmpty && d.clr.queue.isEmpty
    && (List.range 16).all (fun p => (d.port p).pk.band.isNone && (d.port p).pk.buffer.isEmpty && (d.column p).frames.isEmpty
      && (d.column p).results.isEmpty && (d.column p).queue.isEmpty)
    && (List.range 64).all (fun r => (d.ring r).work.isNone)
    && (List.range 32).all fun c => !d.chRuns c || (match (d.chan c).ring with
      | some r => (d.ring r).entries.isEmpty || (d.ring r).orphaned
      | none => true)

/-- DRAIN ends in STANDBY, from SAFE as well (R87). -/
def drainEnd (d : Dev) : Dev :=
  (d.stopCadence.setMode 0).setCad fun c => { c with exposures := [] }

/-- DRAIN_COMPLETE. -/
def drainComplete (d : Dev) : Dev := d.when (d.actMode = 6 && d.drained) (·.drainEnd)

/-- A frame that a DRAIN timeout finds incomplete, completed with what is present (R230): TRUNCATED, bands not begun and teller results count as
having come with nothing, the strike's late cause as it stands, a missing capture as positions 0. -/
def cutOff (d : Dev) (f : Frame) : Frame :=
  if d.complete f then f
  else
    let absent := ((List.range f.size).map (f.head + ·)).filter fun p => !f.parts.any (·.port = p)
    { f with
      flags := f.flags ||| (if d.lateStrike f then 9 else 1), waiting := [], expect := [], strike := none
      parts := f.parts ++ absent.map fun p => ⟨p, 0, f.expose, f.tick, 1, true⟩
      enc := some (f.enc.getD ⟨[0, 0, 0, 0], 0, 0⟩) }

/-- The stages abandon the work that remains; every frame left unfinished is closed TRUNCATED (R87). -/
def abandon (d : Dev) : Dev :=
  let d := d.forEach (List.range 16) fun p d =>
    (d.truncateOpen p).setPk p fun k => { k with freed := k.freed + (k.buffer.filter (·.credit)).length, buffer := [] }
  let d := d.forEach (d.cht.tellers.filter (·.2.frame.isSome)) fun e d =>
    (d.put64 (CHT_T_WORK.addr e.1) (2 ^ 64 - 1)).setTeller e.1 fun s => { s with frame := none, out := [], mint := [] }
  let d := d.forEach (List.range 16) fun k d => d.setColumn k fun c => { c with
    frames := [], results := [], queue := c.queue.map fun o => { o with complete := true } }
  (d.setClr fun x => { x with frames := d.clr.frames.map d.cutOff })

/-- DRAIN_TIMEOUT, also after a write of DCT_DRAIN_LIMIT (R85, R87). -/
def drainTimeout (d : Dev) : Dev :=
  match d.cad.drainAt with
  | none => d
  | some t =>
    d.when (d.actMode = 6 && t + ms (d.get DCT_DRAIN_LIMIT.LIMIT) ≤ d.time) fun d =>
      (d.abandon.notice .alert idDCT 0x012 ((d.time - t) / ms 1)).drainEnd

end Dev
end Sys2Proof.Machine
end

