-- ==== Sys2Proof/Machine/Encoders.lean ====
section
/-! DEFINITION. Encoder channels and field I/O (chapter 12). Each command that concerns a channel's samples carries those it has taken since the
last one (log entry 20). -/

namespace Sys2Proof.Machine

/-- The signed 40-bit difference of two positions (R7, R219). -/
def diff40 (a b : Nat) : Int := signed 40 (a % 2 ^ 40 + 2 ^ 40 - b % 2 ^ 40)

/-- Linear interpolation between two positions, `part` of 100 of the way, rounded to the nearest count with halves up (R225). -/
def interpolate (a b part : Nat) : Nat := unsigned 40 (a + (2 * diff40 b a * part + 100) / 200)

/-! ### Angles (R339-R341) -/

/-- The angles whose tangents are 1, 1/2, 1/4 ..., in 2^-32 line. -/
def atanTable : List Int :=
  [536870912, 316933406, 167458907, 85004756, 42667331, 21354465, 10679838, 5340245, 2670163, 1335087, 667544, 333772, 166886, 83443, 41722
  , 20861, 10430, 5215, 2608, 1304, 652, 326, 163, 81]

/-- atan2(y, x) in 2^-32 line, by rotations through those angles (R341). -/
def lineAngle (x y : Int) : Nat :=
  let (x, y, z) : Int × Int × Int := if x < 0 then (-x, -y, 2 ^ 31) else (x, y, 0)
  let r := (atanTable.zipIdx).foldl (fun (v : Int × Int × Int) e =>
    let (x, y, z) := v
    if 0 ≤ y then (x + y / 2 ^ e.2, y - x / 2 ^ e.2, z + e.1) else (x - y / 2 ^ e.2, y + x / 2 ^ e.2, z - e.1)) (x * 2 ^ 24, y * 2 ^ 24, z)
  (r.2.2 % 2 ^ 32).toNat

/-- The angle of a corrected sample in counts of a line of `n`, to the nearest. -/
def angleCount (n : Nat) (x y : Int) : Nat := (lineAngle x y * n + 2 ^ 31) / 2 ^ 32 % n

/-- The change from one angle to another, taken in -1/2 to +1/2 line (R341). -/
def angleStep (n new old : Nat) : Int := ((new : Int) - old + n / 2) % n - n / 2

/-- The corrections of R340 applied to a sample: offsets taken off, track B divided by its gain relative to track A and turned back by the phase
error. Both tracks come out multiplied by one positive factor. DESIGN CHOICE: R340 names the four corrections without their arithmetic (log
entry 109). -/
def corrected (c0 c1 : Word) (a b : Int) : Int × Int :=
  let gain := slice c1.toNat 0 16
  let x := (a - signed 16 c0.toNat) * gain
  (x * 2 ^ 16, (b - signed 16 (c0.toNat / 2 ^ 16)) * 2 ^ 30 - x * signed 16 (c1.toNat / 2 ^ 16))

/-- The whole root of a number below 2^32. -/
def root (n : Nat) : Nat :=
  (List.range 16).foldl (fun r k => if (r + 2 ^ (15 - k)) * (r + 2 ^ (15 - k)) ≤ n then r + 2 ^ (15 - k) else r) 0

/-- The extremes of A, B, A + B and A - B with a sample among them, and over two spans. -/
def widen (l : List (Int × Int)) (a b : Int) : List (Int × Int) :=
  let v := [a, b, a + b, a - b]
  if l.isEmpty then v.map fun n => (n, n) else List.zipWith (fun (r : Int × Int) n => (min r.1 n, max r.2 n)) l v
def joinSpans (l k : List (Int × Int)) : List (Int × Int) :=
  if l.isEmpty then k else List.zipWith (fun (r s : Int × Int) => (min r.1 s.1, max r.2 s.2)) l k

namespace Dev

def encChan (d : Dev) (i : Nat) : EncChan := Tab.get (fun _ => EncChan.reset) d.enc.chans i

/-- Samples that ENC keeps the past of: as many as the longest window of R344 has. -/
def encSpan : Nat := ns 25 * 2 ^ 20

/-- A channel as it stands, `on` telling whether it is enabled, as what it was before an instant. -/
def encView (d : Dev) (i t : Nat) (on : Bool) : EncPast :=
  let x := d.encChan i
  ⟨i, t, on, x.fault, !x.causes.isEmpty, x.settling⟩

/-- An operation at an instant on a channel that was enabled before it or not: what a capture at an earlier instant still needs of it is kept
(R225, R353). -/
def stepEncChan (d : Dev) (i t : Nat) (on : Bool) (f : EncChan → EncChan) : Dev :=
  { d with enc := { d.enc with
      chans := Tab.upd (fun _ => EncChan.reset) d.enc.chans i f
      past := (d.enc.past.filter fun v => d.time ≤ v.before + encSpan) ++ [d.encView i t on] } }
def setEncChan (d : Dev) (i : Nat) (f : EncChan → EncChan) : Dev := d.stepEncChan i d.time (d.is (ENC_CH_CTL.EN i)) f

/-- A channel as it stood at an instant. -/
def encAt (d : Dev) (i t : Nat) : EncPast :=
  (d.enc.past.find? fun v => v.chan = i && t < v.before).getD (d.encView i t (d.is (ENC_CH_CTL.EN i)))

/-- The positions of a channel, newest first, and the position at an instant: that of the last sample at or before it; 0 before the first. -/
def positions (d : Dev) (i : Nat) : List (Nat × Nat) := Tab.get (fun _ => []) d.enc.hist i
def posAt (d : Dev) (i t : Nat) : Nat := (((d.positions i).find? fun e => e.1 ≤ t).map (·.2)).getD 0

/-- A position from a sample on; of the older ones the window still needs one. -/
def notePos (d : Dev) (i t p : Nat) : Dev :=
  d.setEnc fun x => { x with hist := Tab.upd (fun _ => []) x.hist i fun l =>
    let (new, old) := l.span fun e => t < e.1 + encSpan
    (t, p) :: new ++ old.take 1 }

/-- Counts per line, and counts in 1/64 line (R341, R345). -/
def encLine (d : Dev) (i : Nat) : Nat := if d.is (ENC_CH_CTL.RES i) then 16384 else 4096
def encBand (d : Dev) (i : Nat) : Nat := d.encLine i / 64

/-! ### Motion (R340, R341, R345-R347, R350) -/

/-- STANDSTILL, at most once per 1 ms per channel (R346). -/
def standstillNotice (d : Dev) (i : Nat) (entered : Bool) : Dev :=
  d.atMost (.standstill i) (ms 1) fun d => d.notice .info idENC 0x012 (i * 2 ^ 24 + ofBool entered)

/-- DIR_NOW and the extreme after the position has moved: it turns when the position has moved 1/64 line back (R347). -/
def turned (band : Nat) (x : EncChan) : EncChan :=
  let off := diff40 x.pos x.extreme
  let off := if x.negative then -off else off
  if 0 < off then { x with extreme := x.pos }
  else if (band : Int) ≤ -off then { x with negative := !x.negative, extreme := x.pos, indexClean := false }
  else x

/-- The channel's angle has changed by a signed number of counts at the sample of an instant: the position follows under DIR, DIR_NOW and
standstill follow the position (R341, R345-R347). -/
def encMove (d : Dev) (i t : Nat) (move : Int) : Dev :=
  let x := d.encChan i
  let m := if d.is (ENC_CH_CTL.DIR i) then -move else move
  let x := turned (d.encBand i) { x with pos := unsigned 40 (x.pos + m) }
  let out := (d.encBand i : Int) < (diff40 x.pos x.ref).natAbs
  let leaves := x.still && out
  let x := if out then { x with ref := x.pos, refAt := t } else x
  let x := if leaves then
      { x with still := false, settling := true, settleEnd := t + ns 25 * 2 ^ d.get (ENC_CH_CTL.SPD_K i) } else x
  let d := (d.stepEncChan i t true fun _ => x).notePos i t x.pos
  d.when leaves (·.standstillNotice i false)

/-- The estimates of R340 from the extremes of the lines kept: offsets the middles of the tracks, gain the ratio of their swings, phase from
the swings of their sum and difference. DESIGN CHOICE: R340 names the estimates without their arithmetic (log entry 109). A value that
software has written in the same cycle is kept (R35). -/
def encEstimate (d : Dev) (i : Nat) : Dev :=
  let l := (d.encChan i).lines.foldl joinSpans []
  let mid := fun k => let (lo, hi) := l.getD k (0, 0); (lo + hi) / 2
  let swing := fun k => let (lo, hi) := l.getD k (0, 0); hi - lo
  let d := d.hwPut (ENC_CH_CORR0.OFF_A i) (unsigned 16 (mid 0))
  let d := d.hwPut (ENC_CH_CORR0.OFF_B i) (unsigned 16 (mid 1))
  let d := d.hwPut (ENC_CH_CORR1.GAIN_B i) (Nat.min 0xFFFF (swing 1 * 2 ^ 14 / max 1 (swing 0)).toNat)
  d.hwPut (ENC_CH_CORR1.PHASE i) (unsigned 16 ((swing 2 * swing 2 - swing 3 * swing 3) * 2 ^ 14 / max 1 (swing 0 * swing 1)))

/-- A sample adds to the extremes of the line in progress; with the line complete, the estimates follow under AUTO_CORR (R340). -/
def encExtremes (d : Dev) (i : Nat) (a b step : Int) : Dev :=
  let x := d.encChan i
  let l := widen x.line a b
  let m := x.moved + step
  let full := d.encLine i ≤ m.natAbs
  let y := if full then { x with lines := (l :: x.lines).take 64, line := [], moved := 0 } else { x with line := l, moved := m }
  let d := d.setEnc fun e => { e with chans := Tab.upd (fun _ => EncChan.reset) e.chans i fun _ => y }
  d.when (full && d.is (ENC_CH_CTL.AUTO_CORR i)) (·.encEstimate i)

/-- Whether the track radius of a sample, before correction, lies outside RAD_MIN to RAD_MAX (R350). -/
def radiusBad (d : Dev) (i : Nat) (a b : Int) : Bool :=
  let r := (a * a + b * b).toNat
  let lo := d.get (ENC_CH_RAD.RAD_MIN i)
  let hi := d.get (ENC_CH_RAD.RAD_MAX i)
  r < lo * lo || hi * hi < r

/-- Samples that are alike, the first at an instant (R339-R341): the radius is tested, the angle is counted, the estimates take their part.
Under FAULT the position and the angle are held (R351); without a signal there is no angle. -/
def encRun (d : Dev) (i t : Nat) (r : EncRun) : Dev :=
  let x := d.encChan i
  let a := r.a.toInt
  let b := r.b.toInt
  let bad := if d.radiusBad i a b then x.radBad + r.more + 1 else 0
  let (u, v) := corrected (d.reg (ENC_CH_CORR0.addr i)) (d.reg (ENC_CH_CORR1.addr i)) a b
  let n := d.encLine i
  let angle := if u = 0 && v = 0 then x.theta else some (angleCount n u v)
  let step := match x.theta, angle with | some old, some new => angleStep n new old | _, _ => 0
  let last := t + ns 25 * r.more
  let d := d.setEnc fun e => { e with chans := Tab.upd (fun _ => EncChan.reset) e.chans i fun x => { x with
    a := a, b := b, seenAt := last, radBad := bad, theta := if x.fault then x.theta else angle
    wires := if bad = 0 then x.wires.filter (·.1 != 6) else x.wires, wireAt := if x.fault && 1000 ≤ bad then last else x.wireAt } }
  if x.fault then d
  else (d.when (step != 0) (·.encMove i t step)).encExtremes i a b step

/-- The last `n` samples of a list. -/
def lastSamples (n : Nat) : List EncRun → List EncRun
  | [] => []
  | r :: l =>
    let rest := (l.map fun s => s.more + 1).sum
    if n ≤ rest then lastSamples n l
    else { r with more := Nat.min r.more (n - rest - 1) } :: l

/-- What an enabled channel has sampled since its last sample (R339). Of more samples than the time has had, 25 ns apart, the last count;
before fewer the signal stood still. -/
def encSamples (d : Dev) (i : Nat) (m : EncMotion) : Dev :=
  let x := d.encChan i
  let last := d.time - m.age
  let n := (last - x.seenAt + ns 25 / 2) / ns 25
  let l := lastSamples n m.runs
  let given := (l.map fun r => r.more + 1).sum
  if !d.is (ENC_CH_CTL.EN i) || n = 0 then d
  else
    let d := d.setEnc fun e => { e with chans := Tab.upd (fun _ => EncChan.reset) e.chans i fun x => { x with
      seenAt := last - ns 25 * given, radBad := if x.radBad = 0 then 0 else x.radBad + (n - given) } }
    d.forEach l fun r d => d.encRun i ((d.encChan i).seenAt + ns 25) r

/-- D: the difference of the positions at the last sample and `n` samples before it (R344, R352). -/
def encDelta (d : Dev) (i n : Nat) : Int := diff40 (d.encChan i).pos (d.posAt i ((d.encChan i).seenAt - ns 25 * n))

/-- The speed the channel reports, in 1/256 count per second (R344, R345, R347, R351). -/
def encSpeed (d : Dev) (i : Nat) : Int :=
  let x := d.encChan i
  let k := d.get (ENC_CH_CTL.SPD_K i)
  let diff := d.encDelta i (2 ^ k)
  if x.still || x.fault || (diff < 0) != x.negative then 0
  else (diff * 256 * 40000000).tdiv (2 ^ k)

/-- ENABLE and DISABLE of a channel (R341, R345, R354); strikes armed on it go on from the restarted count (R372). -/
def encEnable (d : Dev) (i : Nat) : Dev :=
  let d := (d.stepEncChan i d.time false fun _ => { EncChan.reset with still := true, refAt := d.time, seenAt := d.time }).notePos i d.time 0
  let armed := (List.range 64).filter fun s => d.is (STP_SK_CTL.KIND s) && d.get (STP_SK_CTL.ENC s) = i
  d.forEach armed fun s d => d.setStp fun x => { x with
    strikes := Tab.upd (fun _ => Strike.reset) d.stp.strikes s fun k => { k with seen := 0 } }
def encDisable (d : Dev) (i : Nat) : Dev :=
  let d := (d.stepEncChan i d.time true fun _ => EncChan.reset).notePos i d.time 0
  d.forEach [ENC_POS.addr i, ENC_POS_HI.addr i, ENC_SPEED.addr i, ENC_SPEED_HI.addr i, ENC_STAT.addr i] fun a d => d.setReg a 0

/-- POSITION_READ: the low word of ENC_POS is read; position, time, speed and status of the last sample are latched (R339, R343). -/
def positionRead (d : Dev) (i : Nat) (m : EncMotion) : Dev :=
  let d := d.encSamples i m
  let x := d.encChan i
  let en := d.is (ENC_CH_CTL.EN i)
  let v := unsigned 64 (if en then d.encSpeed i else 0)
  let atEnd := fun (n : Int) => n = -8192 || n = 8191
  let stat := if en then
      1 + ofBool (!x.causes.isEmpty) * 2 + ofBool x.still * 4 + ofBool x.settling * 8 + ofBool x.negative * 16
        + ofBool x.fault * 32 + ofBool x.idxSeen * 64 + ofBool (atEnd x.a || atEnd x.b) * 128 + root (x.a * x.a + x.b * x.b).toNat * 256
    else 0
  let d := (d.put64 (ENC_POS.addr i) x.pos).put64 (ENC_POS_TIME.addr i) (if en then x.seenAt else d.time - m.age)
  let d := (d.put64 (ENC_SPEED.addr i) v).setReg (ENC_STAT.addr i) (word stat)
  d.emit (.readData (ENC_POS.addr i) (word x.pos))

/-- STANDSTILL_ENTER: the position has stayed in its band for STILL us (R345). -/
def standstillEnter (d : Dev) (i : Nat) (m : EncMotion) : Dev :=
  let d := d.encSamples i m
  let x := d.encChan i
  d.when (d.is (ENC_CH_CTL.EN i) && !x.still && x.refAt + us (d.get (ENC_CH_STILL.STILL i)) ≤ x.seenAt) fun d =>
    (d.setEncChan i fun x => { x with still := true }).standstillNotice i true

/-- SETTLING_END: 2^k samples after standstill was left (R346). -/
def settlingEnd (d : Dev) (i : Nat) : Dev :=
  let x := d.encChan i
  d.when (x.settling && x.settleEnd ≤ d.time) fun d => d.stepEncChan i x.settleEnd true fun x => { x with settling := false }

/-! ### Doubt (R348-R352) -/

/-- The flag of a cause of doubt. -/
def doubtFlag (i cause : Nat) : Bits :=
  match cause with
  | 1 => ENC_FLAGS.CABLE i | 2 => ENC_FLAGS.OVERSPEED i | 3 => ENC_FLAGS.OPEN i | 4 => ENC_FLAGS.SHORT_RAIL i
  | 5 => ENC_FLAGS.SHORT_PAIR i | 6 => ENC_FLAGS.SIGNAL i | 7 => ENC_FLAGS.REVERSED i | _ => ENC_FLAGS.INDEX_PHASE i

/-- Samples come every 25 ns (R339): whether an instant lies in the sample of the present one. -/
def sameSample (d : Dev) (t : Nat) : Bool := t / ns 25 = d.time / ns 25

/-- POS_DOUBT (R363): before those of higher causes of the channel that began in the same sample (R354). -/
def doubtNotice (d : Dev) (i cause arg : Nat) : Dev :=
  let later := fun (n : Notice) => n.block = idENC && n.code = 0x010 && d.sameSample n.time
    && slice n.arg.toNat 24 2 = i && cause < slice n.arg.toNat 28 4
  let n : Notice := ⟨.alert, idENC, 0x010, word (cause * 2 ^ 28 + i * 2 ^ 24 + arg % 2 ^ 24), d.time⟩
  d.setNtq fun x =>
    let (l, r) := x.input.span fun m => !later m
    { x with input := l ++ n :: r }

/-- A cause of doubt: its flag, and POS_DOUBT with the cause's argument (R352, R363). -/
def doubt (d : Dev) (i cause arg : Nat) : Dev :=
  let d := d.setEncChan i fun x => { x with
    causes := if x.causes.contains cause then x.causes else x.causes ++ [cause]
    newAt := d.time, newCauses := (if d.sameSample x.newAt then x.newCauses else []) ++ [cause] }
  (d.set1 (doubtFlag i cause)).doubtNotice i cause arg

/-- A cause found again while it is present adds no notice. -/
def doubtOnce (d : Dev) (i cause : Nat) : Dev :=
  if (d.encChan i).causes.contains cause then d.set1 (doubtFlag i cause) else d.doubt i cause 0

/-- Causes cleared; DOUBT_CLEARED once none is left. -/
def clearDoubts (d : Dev) (i : Nat) (p : Nat → Bool) : Dev :=
  let old := (d.encChan i).causes
  let left := old.filter (!p ·)
  let d := d.setEncChan i fun x => { x with causes := left }
  d.when (!old.isEmpty && left.isEmpty) fun d => d.notice .event idENC 0x011 (i * 2 ^ 24)

/-- Whole lines of a signed number of counts; a half line between two may go either way. -/
def roundLines (line : Nat) (n : Int) (open' : Nat) : Int :=
  if (2 * n) % (2 * line) = line then n / line + (open' % 2 : Nat) else (2 * n + line) / (2 * line)

/-- The quadrant of a corrected sample (R348). -/
def quadrant (u v : Int) : Nat := if 0 ≤ v then (if 0 ≤ u then 0 else 3) else if 0 ≤ u then 1 else 2

/-- The sample of a list of samples `n` before its last one, as a run of its own. -/
def sampleBack (n : Nat) (l : List EncRun) : Option EncRun := (lastSamples (n + 1) l).head?

/-- The run of samples with an active index comparator with which a list ends: how many. -/
def indexRun (l : List EncRun) : Nat := ((l.reverse.takeWhile (·.idx)).map fun r => r.more + 1).sum

/-- INDEX_PULSE (R348, R349, R352, R354): the samples end with the run of the pulse, whose instant is its middle sample. It is counted, fired,
its quadrant and its interval checked; the first index after a cause's condition has gone clears it. -/
def indexPulse (d : Dev) (i : Nat) (m : EncMotion) : Dev :=
  let d := d.encSamples i m
  let run := indexRun m.runs
  match sampleBack (run / 2) m.runs with
  | none => d
  | some r =>
  if !d.is (ENC_CH_CTL.EN i) || !d.is (ENC_CH_CTL.IDX_EN i) || run = 0 then d
  else
    let x := d.encChan i
    let pos := d.posAt i (x.seenAt - ns 25 * (run / 2))
    let d := (d.count (ENC_INDEX_CNT.addr i)).fireHop (0x20 + i) 0
    -- clearing
    let d := d.when (!x.fault) fun d => d.clearDoubts i fun c => (c = 2 && !x.fast) || (3 ≤ c && c ≤ 6)
    -- the interval
    let line := d.encLine i
    let d := match x.index with
      | none => d
      | some (p, neg) =>
        let lines := roundLines line (diff40 pos p) (Config.openValue d.fresh 0)
        let d := (d.setReg (ENC_IDX_LINES.addr i) (word (unsigned 25 lines))).draw
        let nominal := d.get (ENC_CH_CHK.NOMINAL i)
        let tol := d.get (ENC_CH_CHK.TOL i)
        let d := if nominal = 0 || neg != x.negative || !x.indexClean || x.fault then d
          else if nominal ≤ lines.natAbs + tol && lines.natAbs ≤ nominal + tol then d.clearDoubts i (· = 1)
          else (d.count (ENC_CHECK_FAIL_CNT.addr i)).doubt i 1 (unsigned 24 lines)
        d.when (d.is (ENC_CH_CTL.ONE_WAY i) && neg && x.negative) (·.doubtOnce i 7)
    -- the quadrant
    let d := d.when (d.is (ENC_CH_CTL.IDX_QCHK i)) fun d =>
      let (u, v) := corrected (d.reg (ENC_CH_CORR0.addr i)) (d.reg (ENC_CH_CORR1.addr i)) r.a.toInt r.b.toInt
      match (quadrant u v + 4 - d.get (ENC_CH_CTL.IDX_QUAD i)) % 4 with
      | 0 => d
      | 2 => d.doubtOnce i 8
      | _ => d.doubtOnce i 7
    d.setEncChan i fun y => { y with idxSeen := true, index := some (pos, x.negative), indexClean := !x.fault }

/-- OVERSPEED (R352): the line frequency over the last 16 samples against 2.0 MHz, which is 0.8 line in them; inside its tolerance of 1 % the
command tells on which side it was found. -/
def overspeed (d : Dev) (i : Nat) (above : Bool) (m : EncMotion) : Dev :=
  let d := d.encSamples i m
  let n := 500 * (d.encDelta i 16).natAbs
  let line := d.encLine i
  let above := 404 * line < n || (above && 396 * line ≤ n)
  if !d.is (ENC_CH_CTL.EN i) || above = (d.encChan i).fast then d
  else
    let d := d.setEncChan i fun x => { x with fast := above }
    d.when above fun d => (d.count (ENC_OVERSPEED_CNT.addr i)).doubt i 2 0

/-- The condition that an input shows (R350): outside 0.3 to 4.7 V at the limit `rail` (true the upper one) it is OPEN, 3, at the limit of the
bias current after it stood at the opposite one before the last reversal, SHORT_RAIL, 4, where it stayed; inside, with the difference of its
pair below 15 mV (`close`) and the radius below RAD_MIN, SHORT_PAIR, 5; where none of these is there, SIGNAL, 6, once 1,000 samples have had
their radius outside its limits. 0 is no condition. -/
def wiringCause (d : Dev) (i input : Nat) (rail : Option Bool) (close : Bool) : Nat :=
  let x := d.encChan i
  let biased := d.is (ENC_CH_CTL.BIAS i)
  let stood := fun (v : Bool) => d.enc.rails.contains (i, input, v)
  let low := d.get (ENC_CH_RAD.RAD_MIN i)
  if biased && rail = some d.enc.biasUp && stood (!d.enc.biasUp) then 3
  else if biased && rail.any stood then 4
  else if close && rail.isNone && x.a * x.a + x.b * x.b < low * low then 5
  else if 1000 ≤ x.radBad && !(x.wires.any (·.1 ≤ 5)) then 6
  else 0

/-- WIRING_FAULT: a condition of R350 is detected (R351). -/
def wiringFault (d : Dev) (i input : Nat) (rail : Option Bool) (close : Bool) (m : EncMotion) : Dev :=
  let d := d.encSamples i m
  let cause := d.wiringCause i input rail close
  let input := if cause ≤ 5 then input else 0
  let x := d.encChan i
  if !d.is (ENC_CH_CTL.EN i) || cause = 0 || (x.wires.contains (cause, input) && (cause = 6 || x.wireAt = d.time)) then d
  else
    let d := d.setEncChan i fun x => { x with
      fault := true, wires := if x.wires.contains (cause, input) then x.wires else x.wires ++ [(cause, input)], indexClean := false, wireAt := d.time }
    (d.count (ENC_WIRE_CNT.addr i)).doubt i cause input

/-- WIRING_FAULT_CLEAR: all four conditions have been absent for 1 ms; counting goes on from the held position and angle (R351). -/
def wiringClear (d : Dev) (i : Nat) (m : EncMotion) : Dev :=
  let d := d.encSamples i m
  d.when ((d.encChan i).fault && (d.encChan i).radBad < 1000 && (d.encChan i).wireAt + ms 1 ≤ d.time) fun d =>
    d.setEncChan i fun x => { x with fault := false, wires := [] }

/-- BIAS_REVERSAL: the bias current of the inputs turns every 100 us; `rails` are the inputs outside 0.3 to 4.7 V by then (R350). -/
def biasReversal (d : Dev) (rails : List (Nat × Nat × Bool)) : Dev :=
  d.when (d.enc.biasAt + us 100 ≤ d.time) fun d =>
    (d.setEnc fun x => { x with biasUp := !d.enc.biasUp, biasAt := d.time, rails := rails })

/-- CLEAR_DOUBT: every cause whose condition is not present; one that begins in the same sample stands (R352, R354). -/
def clearDoubt (d : Dev) (i : Nat) : Dev :=
  let x := d.encChan i
  let d := d.clearDoubts i fun c =>
    if d.sameSample x.newAt && x.newCauses.contains c then false
    else if c = 2 then !x.fast else if 3 ≤ c && c ≤ 6 then !x.fault else true
  d.when x.fault (·.set1 (ENC_FLAGS.BAD_STATE i))

/-- The samples that bracket an instant, by the grid of the samples of a motion: the device time of the one at or before it. -/
def sampleBefore (d : Dev) (m : EncMotion) (t : Nat) : Nat := t - (t + ns 25 - (d.time - m.age) % ns 25) % ns 25

/-- Whether both samples that bracket an instant are there. -/
def bracketed (d : Dev) (m : EncMotion) (t : Nat) : Bool := d.sampleBefore m t + ns 25 ≤ d.time - m.age

/-- Whether a channel was enabled at both samples that bracket an instant, and its position there, interpolated between them (R225, R353). -/
def encOnAt (d : Dev) (i t : Nat) (m : EncMotion) : Bool :=
  let s := d.sampleBefore m t
  (d.encAt i s).on && (d.encAt i (s + ns 25)).on
def encPosAt (d : Dev) (i t : Nat) (m : EncMotion) : Nat :=
  let s := d.sampleBefore m t
  interpolate (d.posAt i s) (d.posAt i (s + ns 25)) (t - s)

/-- The capture of the four channels at an instant from the samples that bracket it (R225, R353). -/
def captureAt (d : Dev) (t : Nat) (l : List EncMotion) : EncCapture :=
  let m := fun (i : Nat) => l.getD i ⟨0, []⟩
  let on := (List.range 4).filter fun i => d.encOnAt i t (m i)
  let pos := (List.range 4).map fun i => if on.contains i then d.encPosAt i t (m i) else 0
  let flag := fun (p : EncPast → Bool) (n : Nat) =>
    if on.any fun i => let s := d.sampleBefore (m i) t; p (d.encAt i s) || p (d.encAt i (s + ns 25)) then n else 0
  ⟨pos, (on.map (2 ^ ·)).sum, flag (·.doubt) 0x40 + flag (·.settling) 0x80⟩

/-- ENC_CAPTURE (R225, R353): the capture of the oldest commanded exposure that has none, once every channel has the sample after its
EXPOSE_TIME, whether its frame is open or not; then that of an open frame that has none. -/
def encCapture (d : Dev) (l : List EncMotion) : Dev :=
  let d := d.forEach (List.range 4) fun i d => d.encSamples i (l.getD i ⟨0, []⟩)
  let there := fun (t : Nat) => (List.range 4).all fun i => d.bracketed (l.getD i ⟨0, []⟩) t
  match d.cad.exposures.find? fun e => e.enc.isNone && there e.time with
  | some e =>
    let c := d.captureAt e.time l
    let d := d.setCad fun x => { x with exposures := x.exposures.map fun g => if g = e then { g with enc := some c } else g }
    d.forEach ((d.clr.frames.filter fun f => f.enc.isNone && f.head = e.head && f.source = e.source && f.cmd = e.id).map (·.id)) fun id d =>
      d.setFrame id fun g => { g with enc := some c }
  | none =>
    match d.clr.frames.find? fun f => f.enc.isNone && there f.expose with
    | none => d
    | some f => d.setFrame f.id fun g => { g with enc := some (d.captureAt f.expose l) }

/-! ### Field I/O (R355-R361) -/

def pin (d : Dev) (p : Nat) : FioPin := Tab.get (fun _ => FioPin.reset) d.fio p
def setPin (d : Dev) (p : Nat) (f : FioPin → FioPin) : Dev := { d with fio := Tab.upd (fun _ => FioPin.reset) d.fio p f }

/-- What a pin drives: OUT in mode 2, unless it is off after a short or VFIELD is low (R355, R361). -/
def pinDrive (d : Dev) (p : Nat) : Option Bool :=
  if d.get (FIO_PIN_CTL.MODE p) = 2 && !d.bitOf FIO_OUT_STAT.addr p && !d.is FIO_OUT_STAT.VLOW then some (d.is (FIO_PIN_CTL.OUT p))
  else none

/-- An operation that may change what a pin drives. -/
def withDrive (d : Dev) (p : Nat) (f : Dev → Dev) : Dev :=
  let e := f d
  if e.pinDrive p = d.pinDrive p then e
  else (e.setPin p fun x => { x with driveAt := d.time, openTold := false }).emit (.fioPin p (e.pinDrive p))

/-- FIO_EDGE (R356-R358): a pin's level has changed, `age` dt units ago at the ball, which counts once it has held for FILT times 5 ns. In
mode 1 an active edge fires, unless it comes less than 40 ns after the last accepted one. -/
def fioEdge (d : Dev) (p : Nat) (level : Bool) (age : Nat) : Dev :=
  if d.bitOf FIO_LEVEL.addr p = level || age < d.get (FIO_PIN_CTL.FILT p) * ns 5 then d
  else
    let d := d.put ⟨FIO_LEVEL.addr, p, 1⟩ (ofBool level)
    let d := d.setPin p fun x => { x with levelAt := d.time - age }
    let edge := d.get (FIO_PIN_CTL.EDGE p)
    let high := edge != 1
    let d := d.when (level != high) (·.clrBit FIO_STAT_STUCK.addr p)
    if d.get (FIO_PIN_CTL.MODE p) != 1 || !(edge = 2 || level = high) then d
    else
      let t := d.time - age
      let near : Bool := match (d.pin p).edgeAt with | some e => t < e + ns 40 | none => false
      if near then
        let d := (d.count (FIO_FILT_CNT.addr p)).setBit FIO_FLAGS_FILT.addr p
        let d := d.setPin p fun x => { x with filtered := x.filtered + 1 }
        d.atMost (.fioFilt p) (ms 1) fun d =>
          (d.notice .alert idFIO 0x011 (Nat.min 0xFFFF (d.pin p).filtered * 2 ^ 16 + p)).setPin p fun x => { x with filtered := 0 }
      else
        let d := (d.count (FIO_EDGE_CNT.addr p)).put64 (FIO_EDGE_TIME.addr p) t
        (d.setPin p fun x => { x with edgeAt := some t }).fireHop (0x10 + p) 0

/-- FIO_STUCK: an input held at its active level for STUCK_T us, reported once (R358). -/
def fioStuck (d : Dev) (p : Nat) : Dev :=
  let t := d.get (FIO_PIN_STUCK.STUCK_T p)
  d.when (d.get (FIO_PIN_CTL.MODE p) = 1 && t != 0 && d.bitOf FIO_LEVEL.addr p = (d.get (FIO_PIN_CTL.EDGE p) != 1)
      && !d.bitOf FIO_STAT_STUCK.addr p && (d.pin p).levelAt + us t ≤ d.time) fun d =>
    (((d.setBit FIO_FLAGS_STUCK.addr p).setBit FIO_STAT_STUCK.addr p).count FIO_STUCK_CNT.addr).notice .alert idFIO 0x010 p

/-- STUCK_INPUT_RETURN: a stuck input has gone to its inactive level, and held it as long as FILT asks (R357, R358). -/
def stuckReturn (d : Dev) (p : Nat) : Dev :=
  d.when (d.bitOf FIO_STAT_STUCK.addr p) fun d =>
    (d.fioEdge p (d.get (FIO_PIN_CTL.EDGE p) = 1) (d.get (FIO_PIN_CTL.FILT p) * ns 5)).clrBit FIO_STAT_STUCK.addr p

/-- A task of a pin acts (R360). Of those that act in one cycle only the first in the order CLR, SET, TGL, PULSE, by rank from 1, acts: one
of a later rank is ignored, one of an earlier rank acts on OUT and the pulse as they stood before. A software write of OUT in the cycle,
rank 0, is kept (R35). -/
def fioTask (d : Dev) (p rank : Nat) (act : Dev → Dev) : Dev :=
  let now : FioAct := ⟨d.time, rank, d.get (FIO_PIN_CTL.OUT p), (d.pin p).pulse⟩
  match (d.pin p).acted.filter (·.at' = d.time) with
  | none => d.withDrive p fun d => act (d.setPin p fun x => { x with acted := some now })
  | some a =>
    if a.rank ≤ rank then d
    else d.withDrive p fun d =>
      act ((d.setPin p fun x => { x with pulse := a.pulse, acted := some { a with rank := rank } }).put (FIO_PIN_CTL.OUT p) a.out)

/-- The tasks of a pin: CLR, SET and TGL end a pulse and write OUT; PULSE inverts OUT for PULSE_W, or restarts the width (R360). -/
def fioWrite (d : Dev) (p rank : Nat) (f : Nat → Nat) : Dev :=
  d.fioTask p rank fun d => (d.setPin p fun x => { x with pulse := none }).put (FIO_PIN_CTL.OUT p) (f (d.get (FIO_PIN_CTL.OUT p)))
def fioClr (d : Dev) (p : Nat) : Dev := d.fioWrite p 1 fun _ => 0
def fioSet (d : Dev) (p : Nat) : Dev := d.fioWrite p 2 fun _ => 1
def fioTgl (d : Dev) (p : Nat) : Dev := d.fioWrite p 3 fun v => 1 - v
def fioPulse (d : Dev) (p : Nat) : Dev :=
  d.fioTask p 4 fun d =>
    let e := d.time + d.get (FIO_PIN_PULSE.PULSE_W p)
    match (d.pin p).pulse with
    | some (_, v) => d.setPin p fun x => { x with pulse := some (e, v) }
    | none =>
      let v := d.get (FIO_PIN_CTL.OUT p)
      (d.setPin p fun x => { x with pulse := some (e, v) }).put (FIO_PIN_CTL.OUT p) (1 - v)

/-- FIO_PULSE_END: OUT is restored at the end of the width (R360). -/
def fioPulseEnd (d : Dev) (p : Nat) : Dev :=
  match (d.pin p).pulse with
  | some (e, v) => d.when (e ≤ d.time) fun d =>
      d.withDrive p fun d => (d.setPin p fun x => { x with pulse := none }).put (FIO_PIN_CTL.OUT p) v
  | none => d

/-- OUTPUT_SHORT, after 10 us of drive at the current limit, and OUTPUT_REARM (R361). -/
def outputShort (d : Dev) (p : Nat) : Dev :=
  d.when ((d.pinDrive p).isSome && (d.pin p).driveAt + us 10 ≤ d.time) fun d =>
    let d := d.withDrive p (·.setBit FIO_OUT_STAT.addr p)
    ((d.setBit FIO_FLAGS_OUT.addr p).count FIO_SHORT_CNT.addr).notice .alert idFIO 0x012 p
def outputRearm (d : Dev) (p : Nat) : Dev := d.withDrive p (·.clrBit FIO_OUT_STAT.addr p)

/-- OPEN_LOAD: an output has driven high with too little current for 100 us; pushed once per drive (R361). -/
def openLoad (d : Dev) (p : Nat) : Dev :=
  d.when (d.pinDrive p = some true && (d.pin p).driveAt + us 100 ≤ d.time) fun d =>
    let d := d.setBit FIO_FLAGS_OUT.addr (16 + p)
    d.when (!(d.pin p).openTold) fun d =>
      (d.setPin p fun x => { x with openTold := true }).notice .alert idFIO 0x013 p

/-- VFIELD below 10 V, and at or above 11 V again (R361). -/
def vfield (d : Dev) (low : Bool) : Dev :=
  if d.is FIO_OUT_STAT.VLOW = low then d
  else
    let before := (List.range 16).map d.pinDrive
    let d := d.put FIO_OUT_STAT.VLOW (ofBool low)
    let d := d.when low (·.set1 FIO_FLAGS.VFIELD_LOW)
    let d := d.forEach (List.range 16) fun p d =>
      if before[p]? = some (d.pinDrive p) then d
      else (d.setPin p fun x => { x with driveAt := d.time, openTold := false }).emit (.fioPin p (d.pinDrive p))
    d.notice .alert idFIO 0x014 (ofBool low)

end Dev
end Sys2Proof.Machine
end

