-- ==== Sys2Proof/Machine/Strikes.lean ====
section
/-! DEFINITION. The strike planner (chapter 13): arming, passage tests, locks, firings and miss checks. -/

namespace Sys2Proof.Machine
namespace Dev

def strike (d : Dev) (s : Nat) : Strike := Tab.get (fun _ => Strike.reset) d.stp.strikes s
def setStrike (d : Dev) (s : Nat) (f : Strike → Strike) : Dev :=
  { d with stp := { d.stp with strikes := Tab.upd (fun _ => Strike.reset) d.stp.strikes s f } }

/-- The state of a strike: 0 IDLE, 1 ARMED, 2 LOCKED (R365). -/
def strikeState (d : Dev) (s : Nat) : Nat := d.get (STP_SK_STAT.STATE s)

/-- KIND, channel, target, LEAD and L0 of a strike (R364). -/
def skPos (d : Dev) (s : Nat) : Bool := d.is (STP_SK_CTL.KIND s)
def skChan (d : Dev) (s : Nat) : Nat := d.get (STP_SK_CTL.ENC s)
def skTarget (d : Dev) (s : Nat) : Nat :=
  let t := d.get (STP_SK_TGT_LO.TGT s) + d.get (STP_SK_TGT_HI.TGT s) * 2 ^ 32
  if d.skPos s then t % 2 ^ 40 else t
def skLead (d : Dev) (s : Nat) : Nat := us (d.get (STP_SK_PARAM.LEAD s))
def skL0 (d : Dev) (s : Nat) : Nat := if d.is (STP_SK_CTL.TICK s) then d.skLead s / 2 else 0
def skStep (d : Dev) (s : Nat) : Int :=
  let v := d.get (STP_SK_STEP.STEP s)
  if d.skPos s then signed 32 v else v

/-- A new target, modulo 2^64 or 2^40 (R369). -/
def skRetarget (d : Dev) (s : Nat) (t : Int) : Dev :=
  let v := unsigned (if d.skPos s then 40 else 64) t
  if d.softWrote (STP_SK_TGT_LO.TGT s) || d.softWrote (STP_SK_TGT_HI.TGT s) then d
  else (d.put (STP_SK_TGT_LO.TGT s) (v % 2 ^ 32)).put (STP_SK_TGT_HI.TGT s) (v / 2 ^ 32)

/-- Whether DIR accepts a direction of motion. -/
def skAccepts (d : Dev) (s : Nat) (negative : Bool) : Bool :=
  match d.get (STP_SK_CTL.DIR s) with
  | 0 => !negative
  | 1 => negative
  | _ => true

/-- The lock of a strike gives CLR its first part (R371). Locks that no frame, tick or strike names any more are dropped. -/
def newLock (d : Dev) (s : Nat) (late : Bool) : Dev :=
  let id := d.stp.nextLock
  let used := fun (k : StrikeLock) =>
    d.cad.planned.any (·.strike = some k.id) || d.clr.frames.any (·.strike = some k.id) || d.stp.checks.any (·.lock = k.id)
      || d.stp.strikes.any (·.2.lock = k.id)
      || (List.range 16).any fun h => (d.port h).pk.sent.any (·.strike = some k.id)
  let d := (d.setStp fun x => { x with nextLock := id + 1, locks := d.stp.locks.filter used ++ [(⟨id, late, none⟩ : StrikeLock)] })
  d.setStrike s fun k => { k with lock := id }

/-- The second part of a lock (R371). -/
def lockResult (d : Dev) (lock : Nat) (miss : Bool) : Dev :=
  (d.setStp fun x => { x with locks := d.stp.locks.map fun k => if k.id = lock then { k with miss := some miss } else k })

/-- A strike locks with Tf; `late` is the cause of R371, 0 for none. The tick goes to CAD when TICK is 1 (R370). -/
def strikeLock (d : Dev) (s tf late : Nat) : Dev :=
  let d := d.newLock s (late != 0)
  let lock := (d.strike s).lock
  let d := (d.setStrike s fun k => { k with tf := tf }).put (STP_SK_STAT.STATE s) 2
  let d := (d.put (STP_SK_LAST.LO s) (tf % 2 ^ 32)).put (STP_SK_LAST_HI.HI s) (tf / 2 ^ 32)
  let d := if late = 0 then d else
    ((d.count STP_LATE_CNT.addr).set1 STP_FLAGS.LATE).atMost (.strikeLate s) (ms 1) fun d =>
      d.notice .alert idSTP 0x011 (late * 2 ^ 28 + s)
  let d := if !d.skPos s then d else
    let check : MissCheck := ⟨s, lock, d.skChan s, d.skTarget s, d.get (STP_SK_PARAM.TOL s), tf⟩
    (d.setStp fun x => { x with checks := d.stp.checks ++ [check] })
  if !d.is (STP_SK_CTL.TICK s) then d
  else
    let d := d.count STP_TICK_CNT.addr
    d.when (d.forceGet CAD_CTL.SRC = 1 && d.ticking) fun d => d.fixTick d.plannedNum tf (some lock) true

/-- A strike that has ended. -/
def strikeDone (d : Dev) (s : Nat) : Dev := (d.put (STP_SK_STAT.STATE s) 0).notice .event idSTP 0x013 s

/-- The FIRED count, and its low 24 bits in the status. -/
def addFired (d : Dev) (s n : Nat) : Dev :=
  let d := d.setStrike s fun k => { k with fired := k.fired + n }
  d.put (STP_SK_STAT.FIRED s) (d.strike s).fired

/-- Whether a strike is passed (R368). -/
def strikePassed (d : Dev) (s : Nat) : Bool :=
  if d.skPos s then
    let i := d.skChan s
    let x := d.encChan i
    let e := diff40 x.pos (d.skTarget s)
    d.is (ENC_CH_CTL.EN i) && !x.still && !x.fault && d.skAccepts s x.negative && (if x.negative then e ≤ 0 else 0 ≤ e)
  else d.skTarget s < d.time

/-- The passage test of an armed strike (R368). Skipped repetitions that use up COUNT end the strike. -/
def passageTest (d : Dev) (s : Nat) : Dev :=
  if !d.strikePassed s then d
  else
    let late := d.is (STP_SK_CTL.FIRE_LATE s)
    let d := d.when (!late) fun d =>
      (((d.set1 STP_FLAGS.PASSED).set1 (STP_SK_STAT.PASSED s)).count STP_PASSED_CNT.addr).notice .alert idSTP 0x010 s
    if late then d.strikeLock s (d.time + d.skL0 s) 1
    else if d.skPos s then d
    else if !d.is (STP_SK_CTL.REPEAT s) then d.put (STP_SK_STAT.STATE s) 0
    else
      let step := Nat.max 1 (d.skStep s).toNat
      let n := (d.time - d.skTarget s + step - 1) / step
      let count := d.get (STP_SK_COUNT.COUNT s)
      let n := if count = 0 then n else Nat.min n (count - (d.strike s).fired)
      let d := (d.skRetarget s (d.skTarget s + n * step)).addFired s n
      d.when (count != 0 && count ≤ (d.strike s).fired) (·.strikeDone s)

/-- An arm (R365): refused where a repetition could not go on; nothing while the strike is not IDLE, nor in the cycle of a disarm (R372). -/
def strikeArm (d : Dev) (s : Nat) : Dev :=
  let step := d.skStep s
  let dir := d.get (STP_SK_CTL.DIR s)
  let bad := d.is (STP_SK_CTL.REPEAT s) && (if d.skPos s then step = 0 || (dir = 0 && step < 0) || (dir = 1 && 0 < step) else step < 400)
  if d.strikeState s != 0 || (d.strike s).off = some d.time then d
  else if bad then (d.set1 STP_FLAGS.REFUSED).notice .alert idSTP 0x014 s
  else
    let d := (d.setStrike s fun k => { k with seen := (d.encChan (d.skChan s)).pos, fired := 0, hop := d.evr.hop })
    let d := (d.put (STP_SK_STAT.STATE s) 1).unset (STP_SK_STAT.PASSED s)
    (d.put (STP_SK_STAT.FIRED s) 0).passageTest s

/-- A disarm (R365, R372): a tick already fixed stays fixed; no firing and no miss check. -/
def strikeDisarm (d : Dev) (s : Nat) : Dev :=
  let lock := (d.strike s).lock
  let d := d.when (d.strikeState s = 2) fun d =>
    ((d.setStp fun x => { x with checks := d.stp.checks.filter (·.lock != lock) })).lockResult lock false
  (d.setStrike s fun k => { k with off := some d.time }).put (STP_SK_STAT.STATE s) 0

/-- TIME_STRIKE_LOCK (R366). -/
def timeStrikeLock (d : Dev) (s : Nat) : Dev :=
  let t := d.skTarget s
  d.when (d.strikeState s = 1 && !d.skPos s && t ≤ d.time + d.skLead s) fun d =>
    let tf := Nat.max t (d.time + d.skL0 s)
    d.strikeLock s tf (if t < tf then 3 else 0)

/-- Whether the target lies in the motion between two differences (R367). -/
def crossed (dir : Nat) (before after : Int) : Bool :=
  (dir != 1 && decide (before < 0) && decide (0 ≤ after)) || (dir != 0 && decide (0 < before) && decide (after ≤ 0))

/-- POSITION_STRIKE_LOCK (R367): the last sample of a motion is evaluated. A lock by prediction stands against a crossing in its sample
(R372). -/
def positionStrikeLock (d : Dev) (s : Nat) (m : EncMotion) : Dev :=
  let i := d.skChan s
  if d.strikeState s != 1 || !d.skPos s then d
  else
    let d := d.encSamples i m
    let x := d.encChan i
    let ts := x.seenAt
    let t := d.skTarget s
    let e := diff40 x.pos t
    let before := diff40 (d.strike s).seen t
    let d := d.setStrike s fun k => { k with seen := x.pos }
    let sp := d.encSpeed i
    let predicts := d.is (ENC_CH_CTL.EN i) && !x.fault && !x.still && sp != 0 && d.skAccepts s (decide (sp < 0))
    let dist := (if 0 < sp then -e else e)
    let tc := ts + ((2 * dist * 1024000000000 + sp.natAbs) / (2 * Nat.max 1 sp.natAbs : Nat)).toNat
    if predicts && 0 < dist && tc ≤ ts + d.skLead s then
      let tf := Nat.max tc (ts + d.skL0 s)
      d.strikeLock s tf (if tc < tf then 3 else 0)
    else if d.is (ENC_CH_CTL.EN i) && crossed (d.get (STP_SK_CTL.DIR s)) before e then d.strikeLock s (ts + d.skL0 s) 2
    else d

/-- STRIKE_FIRE (R369): the source fires; a repetition re-arms the strike on its next target, or it ends. -/
def strikeFire (d : Dev) (s : Nat) : Dev :=
  let k := d.strike s
  if d.strikeState s != 2 || d.time < k.tf then d
  else
    let d := ((d.fireHop (0x40 + s) k.hop).count STP_FIRE_CNT.addr).addFired s 1
    let d := d.when (!d.skPos s) fun d => d.lockResult k.lock false
    let count := d.get (STP_SK_COUNT.COUNT s)
    if d.is (STP_SK_CTL.REPEAT s) && (count = 0 || (d.strike s).fired < count) then
      let d := d.skRetarget s (d.skTarget s + d.skStep s)
      let d := (d.setStrike s fun k => { k with seen := (d.encChan (d.skChan s)).pos }).put (STP_SK_STAT.STATE s) 1
      d.passageTest s
    else d.strikeDone s

/-- STRIKE_MISS_CHECK (R371): the channel as it was at Tf, interpolated as R225 does once it has the sample after Tf, against the target. -/
def strikeMissCheck (d : Dev) (s : Nat) (q : EncMotion) : Dev :=
  match d.stp.checks.find? fun c => c.strike = s && d.bracketed q c.tf with
  | none => d
  | some c =>
    let d := (d.encSamples c.chan q).setStp fun x => { x with checks := x.checks.filter (·.lock != c.lock) }
    let on := d.encOnAt c.chan c.tf q
    let err := diff40 (d.encPosAt c.chan c.tf q) c.tgt
    let miss := !on || c.tol < err.natAbs
    let d := d.lockResult c.lock miss
    d.when miss fun d =>
      let size := if on then Nat.min 0xFFFFFF err.natAbs else 0xFFFFFF
      ((d.count STP_MISS_CNT.addr).set1 STP_FLAGS.MISS).atMost (.strikeMiss s) (ms 1) fun d =>
        d.notice .alert idSTP 0x012 (size * 2 ^ 8 + ofBool (on && err < 0) * 2 ^ 7 + s)

end Dev
end Sys2Proof.Machine
end

