-- ==== Sys2Proof/Machine/Events.lean ====
section
/-! DEFINITION. Event routing (chapter 13): channels, task inputs with their pending counters, and delay units. -/

namespace Sys2Proof.Machine
namespace Dev


/-- The pending activations of a task and their largest hop count (R379). -/
def taskPending (d : Dev) (t : Nat) : Nat × Nat := Tab.get (fun _ => ((0 : Nat), (0 : Nat))) d.evr.pending t

/-- An activation that is lost (R379, R381). -/
def taskLost (d : Dev) (t : Nat) : Dev :=
  let d := ((d.count EVR_LOST_CNT.addr).set1 EVR_FLAGS.LOST).put EVR_LAST.TASK t
  let d := d.setEvr fun e => { e with lost := e.lost + 1 }
  d.atMost .taskLost (ms 1) fun d =>
    (d.notice .alert idEVR 0x011 (Nat.min 0xFFFF d.evr.lost * 2 ^ 16 + t)).setEvr fun e => { e with lost := 0 }

/-- One activation for a task (R377-R379). -/
def activate (d : Dev) (t hop : Nat) : Dev :=
  let p := d.taskPending t
  if 4 ≤ p.1 then d.taskLost t
  else d.setEvr fun e => { e with pending := Tab.set (fun _ => (0, 0)) e.pending t (p.1 + 1, Nat.max p.2 hop) }

/-- The first write of EVR_CH_e in a cycle: the word it replaces still routes what arrives in that cycle (R374, R382). -/
def channelWritten (d : Dev) (e : Nat) (old : Word) : Dev :=
  d.setEvr fun _ =>
    let v := d.evrNow
    { v with before := if v.before.any (·.1 = e) then v.before else v.before ++ [(e, old)] }

/-- One act of a task or of the delay timers in a cycle (R379, R382). -/
def actedNow (d : Dev) (n : Nat) : Bool := d.evrNow.acted.contains n
def noteAct (d : Dev) (n : Nat) : Dev := d.setEvr fun _ => { d.evrNow with acted := d.evrNow.acted ++ [n] }

/-- EVENT_ROUTE: the oldest source event, by the channels that matched it on its arrival (R374, R377, R378, R382). -/
def eventRoute (d : Dev) : Dev :=
  match d.evr.input with
  | [] => d
  | ev :: rest =>
    let d := d.setEvr fun e => { e with input := rest }
    if 8 < ev.hop then
      match ev.routes with
      | [] => d
      | (ch, _) :: _ =>
        let d := ((d.count EVR_LOOP_CUT_CNT.addr).set1 EVR_FLAGS.LOOP_CUT).put EVR_LAST.CH ch
        d.atMost .loopCut (ms 1) fun d => d.notice .alert idEVR 0x010 (ch * 2 ^ 16 + ev.src)
    else d.forEach ev.routes fun r d => (d.count EVR_ROUTED_CNT.addr).activate r.2 ev.hop

/-- SOFTWARE_FIRE (R380). -/
def softwareFire (d : Dev) (ch : Nat) : Dev :=
  d.when (d.is (EVR_CH.EN ch)) fun d => (d.count EVR_SW_CNT.addr).activate (d.get (EVR_CH.TASK ch)) 0

/-- An act of a delay unit's task: a free timer starts, or the activation is lost (R381). -/
def delayStart (d : Dev) (k : Nat) : Dev :=
  if 4 ≤ (d.evr.timers.filter (·.1 = k)).length then d.taskLost (0x78 + k)
  else d.setEvr fun e => { e with timers := e.timers ++ [(k, (d.time + d.get (EVR_DLY.DELAY k), e.hop))] }

/-- DELAY_EXPIRE: the first timer of the unit that is due fires its source (R381); timers that expire in one cycle fire in consecutive
cycles (R382). -/
def delayExpire (d : Dev) (k : Nat) : Dev :=
  match d.evr.timers.find? fun t => t.1 = k && t.2.1 ≤ d.time with
  | none => d
  | some t =>
    d.when (!d.actedNow 0x200) fun d =>
      ((d.noteAct 0x200).setEvr fun e => { e with timers := e.timers.erase t }).fireHop (0x30 + k) t.2.2

/-- What a task input does (R376). -/
def runTask (d : Dev) (t : Nat) : Dev :=
  let i := t % 16
  if t < 0x010 then d
  else if t < 0x020 then d.fioSet i
  else if t < 0x030 then d.fioClr i
  else if t < 0x040 then d.fioTgl i
  else if t < 0x050 then d.fioPulse i
  else if t < 0x060 then d.urgentFire i
  else if t < 0x068 then d.commitGroups (2 ^ (t - 0x060))
  else if t < 0x070 then d.forEach ((List.range 64).filter fun r => d.ringGroup r = t - 0x068) fun r d => d.armRing r
  else if t = 0x070 then d.auditRequest
  else if t < 0x078 then d
  else if t < 0x080 then d.delayStart (t - 0x078)
  else if t < 0x0A0 then d.dmaStart (t - 0x080)
  else if t < 0x0C0 then d.dmaStop (t - 0x0A0)
  else if t < 0x100 then d.strikeArm (t - 0x0C0)
  else if t < 0x140 then d.strikeDisarm (t - 0x100)
  else if 0x140 + 41 ≤ t && t < 0x140 + 64 then d.signal (t - 0x140)
  else d

/-- TASK_ACT: one act of a task, whose source events carry its hop count plus 1 (R378); a task acts once in a cycle (R379). An URGENT task
whose port has an URGENT that waits for its block boundary keeps its activations pending (R154). -/
def taskAct (d : Dev) (t : Nat) : Dev :=
  let p := d.taskPending t
  let waits := 0x050 ≤ t && t < 0x060 && !(d.port (t % 16)).link.urgents.isEmpty
  if p.1 = 0 || waits || d.actedNow t then d
  else
    let d := (d.noteAct t).setEvr fun e => { e with
      pending := Tab.set (fun _ => (0, 0)) e.pending t (if p.1 = 1 then (0, 0) else (p.1 - 1, p.2)), hop := p.2 + 1 }
    (d.runTask t).setEvr fun e => { e with hop := 0 }

/-- An activation that comes as a command of its own: it is pending at its task, which acts as far as it may (R377-R379). -/
def activated (d : Dev) (t : Nat) : Dev := (d.activate t 0).taskAct t

end Dev
end Sys2Proof.Machine
end

