-- ==== Sys2Proof/Machine/Hep.lean ====
section
/-! DEFINITION. The host endpoint's commands (chapter 11): containment and its release, inbound windows, tags and timeouts, the
MSI-X table, latency tolerance, configuration writes and the resets that reach HEP. -/

namespace Sys2Proof.Machine
namespace Dev

/-! ### Containment (R328-R331) -/

/-- Whether a stream channel's host path crosses the bus: its descriptor ring, its descriptor in progress or its next one lies there (R262). -/
def usesBus (d : Dev) (c : Nat) : Bool :=
  d.isStream c && d.chRuns c && ((!d.fed c && d.ringBus c) || (d.chan c).desc.any (·.dstBus) || (d.chan c).fetched.any (·.dstBus))

/-- A containment cause (R328): 1 fetch timeout, 2 poisoned completion, 3 ECRC, 4 internal. One met while contained adds its
bit, and stops a release that has not completed (R331). The records in delivery to the orphaned rings are cut (R297). -/
def contain (d : Dev) (cause : Nat) : Dev :=
  let d := d.setHep fun x => { x with causeAt := some d.time }
  if d.contained then
    (d.setBit HEP_CONTAIN_STAT.addr cause).setHep fun x => { x with releaseAt := none }
  else
    let d := d.setReg HEP_CONTAIN_STAT.addr (word (1 + 2 ^ cause + cause * 2 ^ 8))
    let d := ((d.put64 HEP_CONTAIN_TIME.addr d.time).count HEP_CONTAIN_CNT.addr).set1 HEP_FLAGS.CONTAINED
    let d := d.notice .fault idHEP 0x010 (2 ^ (cause - 1) + cause * 2 ^ 8)
    let d := d.forEach (d.hep.tags.map (·.tag)) fun t d => d.quarantineTag t
    let d := (d.setHep fun x => { x with releaseAt := none })
    let d := d.forEach ((List.range 32).filter d.usesBus) fun c d => (d.cutRecord c 2).orphanRing ((d.chan c).ring.getD 64) false
    d.forEach (List.range 32) fun c d => d.abandonReqs c

/-- CONTAIN_RELEASE (R330); in the cycle in which a cause is detected the port stays contained (R331). -/
def containRelease (d : Dev) : Dev :=
  if !d.contained then d.set1 HEP_FLAGS.BAD_STATE
  else if d.hep.causeAt = some d.time then d
  else (d.setHep fun x => { x with releaseAt := some (d.hep.releaseAt.getD d.time) })

/-! ### Latency tolerance (R332, R333) -/

/-- The level of the tolerance from the rings of the running stream channels; 63 is No Requirement (R332). -/
def ltrCompute (d : Dev) : Nat :=
  let l := (List.range 32).filterMap fun c =>
    match (d.chan c).ring with
    | some r =>
      let w := Tab.get (fun _ => 0) d.hep.ltrLast r
      if d.isStream c && (d.chState c = 1 || d.chState c = 2) && 0 < w then
        some (((d.ring r).free - d.reserve r) * 1000000 * d.get HEP_LTR_CTL.FRAC / (16 * w))
      else none
    | none => none
  match l with
  | [] => 63
  | t :: ts => Nat.max 10 (Nat.min (d.get HEP_LTR_CTL.MAX_K) (Nat.log2 (ts.foldl Nat.min t)))

/-- The message code of a level: value, scale and the requirement bit of the base specification. -/
def ltrCode (k : Nat) : Nat :=
  if k = 63 then 0
  else
    let s := (k - 9 + 4) / 5
    2 ^ (k - 5 * s) + s * 2 ^ 10 + 2 ^ 15

/-- Sending an LTR message with the value now current. -/
def ltrMessage (d : Dev) : Dev :=
  let k := d.ltrCompute
  let d := (d.emit (d.sealed (.ltr (ltrCode k)))).count HEP_LTR_MSG_CNT.addr
  let d := (d.put HEP_LTR_NOW.SNOOP (ltrCode k)).put HEP_LTR_NOW.K k
  (d.setHep fun x => { x with ltrSentAt := some d.time, ltrDue := false, ltrRiseAt := none })

/-- LTR_WINDOW: a 1 ms window ends; the level is computed, and a fall or a change to or from No Requirement is due at once. Nothing is due while
the mechanism is disabled. -/
def ltrWindow (d : Dev) : Dev :=
  if d.time < d.hep.ltrWindowAt + ms 1 then d
  else
    let d := (d.setHep fun x => { x with ltrLast := d.hep.ltrCount, ltrCount := [], ltrWindowAt := d.time })
    if !d.ltrEnable then (d.setHep fun x => { x with ltrDue := false, ltrRiseAt := none })
    else
      let k := d.ltrCompute
      let sent := d.get HEP_LTR_NOW.K
      let rises := sent < k && k != 63
      let due := k != sent && !rises || (sent = 63) != (k = 63)
      d.setHep fun x => { x with
        ltrDue := due, ltrRiseAt := if rises && !due then some (x.ltrRiseAt.getD d.time) else none }

/-- Whether an LTR message may follow the last one now (R333). -/
def ltrSpaced (d : Dev) : Bool := d.hep.ltrSentAt.all fun t => t + us 10 ≤ d.time

/-- LTR_SEND (R333). -/
def ltrSend (d : Dev) : Dev :=
  let risen := match d.hep.ltrRiseAt with | some t => t + ms 1 ≤ d.time | none => false
  d.when (d.ltrEnable && !d.contained && !d.d3hot && d.ltrSpaced && (d.hep.ltrDue || risen)) (·.ltrMessage)

/-- The host path is back after containment: the channels' requests resume, then the rings it orphaned return (R262, R296, R330). -/
def hostPathBack (d : Dev) : Dev :=
  let d := d.forEach (List.range 32) fun c d => d.releaseCh c
  d.forEach ((List.range 64).filter fun r => !(d.ring r).byReset) fun r d => d.unorphanRing r

/-- RELEASE_COMPLETE (R330): CONTAINED clears; messages and INTx, LTR (at the end of the 10 µs where one has just gone, R333), DMA requests and
orphaned rings resume in this order. -/
def releaseComplete (d : Dev) : Dev :=
  match d.hep.releaseAt with
  | none => d
  | some _ =>
    if !d.contained then d
    else
      let held := (d.time - d.get64 HEP_CONTAIN_TIME.addr) / us 1
      let d := (d.setHep fun x => { x with releaseAt := none })
      let d := (d.unset HEP_CONTAIN_STAT.CONTAINED).set1 HEP_FLAGS.RELEASED
      let d := d.notice .event idHEP 0x011 (Nat.min (2 ^ 32 - 1) held)
      let d := (d.forEach (List.range 64) fun v d => d.sendPending v).updateIntx
      let d := d.when (d.ltrEnable && !d.d3hot) fun d => if d.ltrSpaced then d.ltrMessage else d.setHep fun x => { x with ltrDue := true }
      d.hostPathBack

/-! ### Inbound windows (R312-R316) -/

/-- A register of a window's current set as it stood at the start of the present cycle, and a field of it (R313). -/
def winReg (d : Dev) (a : Nat) : Word :=
  (if d.hep.winAt = d.time then (d.hep.winWas.find? (·.1 = a)).map (·.2) else none).getD (d.reg a)
def winGet (d : Dev) (f : Bits) : Nat := f.of (d.winReg f.off)

/-- WINDOW_COMMIT: the shadow set of a window becomes its current set, or is refused (R314). -/
def windowCommit (d : Dev) (n : Nat) : Dev :=
  let l := d.get (HEP_WIN_CFG.LOG2 n)
  let refuse := fun (reason : Nat) (d : Dev) =>
    (d.set1 HEP_FLAGS.WIN_REFUSED).notice .alert idHEP 0x019 (n + reason * 2 ^ 8)
  if l < 21 || 38 < l then refuse 1 d
  else if d.get (HEP_WIN_BAR.OFF n) * 2 ^ 21 % 2 ^ l != 0 then refuse 2 d
  else
    let old := [HEP_WIN_CUR_CFG.addr n, HEP_WIN_CUR_BAR.addr n, HEP_WIN_CUR_TGT.addr n].map fun a => (a, d.winReg a)
    let d := d.setHep fun x => { x with winAt := d.time, winWas := (if x.winAt = d.time then x.winWas else []) ++ old }
    let d := d.setReg (HEP_WIN_CUR_CFG.addr n) (d.reg (HEP_WIN_CFG.addr n))
    let d := d.setReg (HEP_WIN_CUR_BAR.addr n) (d.reg (HEP_WIN_BAR.addr n))
    d.setReg (HEP_WIN_CUR_TGT.addr n) (d.reg (HEP_WIN_TGT.addr n))

/-- The window a BAR2 offset hits, the lowest-numbered one (R313). -/
def windowOf (d : Dev) (off : Nat) : Option Nat :=
  (List.range 32).find? fun n =>
    let l := d.winGet (HEP_WIN_CUR_CFG.LOG2 n)
    d.winGet (HEP_WIN_CUR_CFG.EN n) = 1 && off / 2 ^ l = d.winGet (HEP_WIN_CUR_BAR.OFF n) * 2 ^ 21 / 2 ^ l

/-- The internal address of a BAR2 offset through a window. -/
def windowAddr (d : Dev) (n off : Nat) : Nat := d.winGet (HEP_WIN_CUR_TGT.TGT n) * 2 ^ 21 + off % 2 ^ d.winGet (HEP_WIN_CUR_CFG.LOG2 n)

/-- An inbound request refused under R315: reason 0 no window or permission, 1 outside the vault. -/
def urWindow (d : Dev) (h : List (Nat × Nat)) (off reqId reason : Nat) (posted : Bool) : Dev :=
  let d := d.setReg HEP_UR_INFO.addr (word off)
  let d := d.setReg HEP_UR_INFO_HI.addr (word (off / 2 ^ 32 % 2 ^ 6 + ofBool posted * 2 ^ 8 + reason * 2 ^ 9 + reqId % 2 ^ 16 * 2 ^ 16))
  let d := (d.set1 HEP_FLAGS.UR_WINDOW).unsupportedOf h posted
  d.atMost .urWindow (ms 1) fun d => d.notice .alert idHEP 0x015 (off / 2 ^ 6)

/-- Whether the host reaches the function: no fundamental reset in force. -/
def hostUp (d : Dev) : Bool := !d.hep.perst

/-- INBOUND_READ: `len` bytes from a BAR2 offset; a request beyond the BAR never arrives (R310). -/
def inboundRead (d : Dev) (m : Vault) (off len reqId : Nat) : Dev :=
  let h := d.requestHeader false off len reqId
  if !d.hostUp || d.bar2Size < off + len then d
  else if !d.memEnable then d.unsupportedOf h false
  else if d.contained then d.completerAbortOf h false
  else match d.windowOf off with
    | none => d.urWindow h off reqId 0 false
    | some n =>
      let a := d.windowAddr n off
      if d.winGet (HEP_WIN_CUR_CFG.RD n) = 0 then d.urWindow h off reqId 0 false
      else if !d.reaches .window false a len then d.urWindow h off reqId 1 false
      else d.emit (d.sealed (if d.poisonIn a len then .poisonedData (Vault.read m a len) else .windowData (Vault.read m a len)))

/-- INBOUND_WRITE: bytes at a BAR2 offset, none where the byte enable is 0. -/
def inboundWrite (d : Dev) (off : Nat) (data : List (Option Byte)) (reqId : Nat) : Dev :=
  let h := d.requestHeader true off data.length reqId
  if !d.hostUp || d.bar2Size < off + data.length then d
  else if !d.memEnable then d.unsupportedOf h true
  else if d.contained then d.completerAbortOf h true
  else match d.windowOf off with
    | none => d.urWindow h off reqId 0 true
    | some n =>
      let a := d.windowAddr n off
      if d.winGet (HEP_WIN_CUR_CFG.WR n) = 0 then d.urWindow h off reqId 0 true
      else if !d.reaches .window true a data.length then d.urWindow h off reqId 1 true
      else
        let bytes := data.zipIdx.filterMap fun e => e.1.map fun b => (a + e.2, [b])
        let d := d.vaultWrites bytes
        let whole := (List.range (data.length / 8 + 1)).filter fun i =>
          let w := (a + 7) / 8 + i
          w * 8 + 8 ≤ a + data.length && (List.range 8).all fun j => ((data[w * 8 + j - a]?).getD none).isSome
        d.forEach whole fun i d => d.unpoison (((a + 7) / 8 + i) * 8) 8

/-- POISONED_WRITE to any BAR (R311). -/
def poisonedWrite (d : Dev) : Dev :=
  if !d.hostUp then d else if !d.memEnable then d.unsupported true else d.poisonedTlp false

/-- A word of BAR4: the MSI-X table, the PBA, 0 elsewhere (R309). -/
def bar4Word (d : Dev) (i : Nat) : Nat :=
  if i < 256 then (d.msixWord (i / 4) (i % 4)).toNat
  else if i = 0x2000 || i = 0x2001 then
    (((List.range 32).filter fun v => d.hep.pba.contains ((i - 0x2000) * 32 + v)).map (2 ^ ·)).sum
  else 0

/-- MSIX_TABLE_ACCESS: one aligned DWORD or QWORD; anything else is a Completer Abort (R311). -/
def msixAccess (d : Dev) (off len : Nat) (data : Option Nat) : Dev :=
  if !d.hostUp then d
  else if !d.memEnable then d.unsupported data.isSome
  else if !((len = 4 || len = 8) && off % len = 0) then d.completerAbort data.isSome
  else match data with
    | none => d.emit (d.sealed (.windowData ((List.range (len / 4)).flatMap fun j => le 4 (d.bar4Word (off / 4 + j)))))
    | some v =>
      let d := d.forEach (List.range (len / 4)) fun j d =>
        let i := off / 4 + j
        if 256 ≤ i then d
        else
          let w := word (v / 2 ^ (32 * j))
          let w := if i % 4 = 3 then w &&& 1#32 else w
          (d.setHep fun x => { x with msix := Tab.set (fun k => if k % 4 = 3 then 1#32 else 0#32) d.hep.msix i w })
      d.when (off < 1024) (·.sendPending (off / 16))

/-! ### Tags (R319, R320, R325, R328) -/

/-- The outstanding request of a tag: its channel and itself. -/
def tagged (d : Dev) (t : Nat) : Option (Nat × ChanReq) :=
  (d.hep.tags.find? (·.tag = t)).bind fun g => ((d.chan g.chan).reqs.find? (·.tag = some t)).map fun r => (g.chan, r)

/-- Issuing a request again with a fresh tag, its former tag in quarantine; one whose response was only waited for is waited for no more. -/
def reissue (d : Dev) (c t : Nat) (r : ChanReq) : Dev :=
  let d := d.quarantineTag t
  let d := if r.dead then (d.setChan c fun y => { y with reqs := y.reqs.erase r }).abortDone c
    else (d.setChan c fun y => { y with reqs := y.reqs.map fun q => if q = r then { q with tag := none } else q }).resend c
  d.tagsFreed

/-- COMPLETION_TIMEOUT (R319, R320, R328): a data read or a zero-length read is retried under R294. -/
def completionTimeout (d : Dev) (t : Nat) : Dev :=
  match d.timeout, d.hep.tags.find? (·.tag = t) with
  | some x, some g =>
    if d.time < g.sentAt + x then d
    else
      let d := d.count HEP_CTO_CNT.addr
      match d.tagged t with
      | none => (d.aerError 14 true).quarantineTag t
      | some (c, r) =>
        let d := d.aerError 14 (!isFetch r)
        let d := d.quarantineTag t
        if isFetch r && d.is HEP_CONTAIN_EN.FETCH_TMO then d.contain 1 else d.reqFailed c (if isFlush r then 5 else 4) r
  | _, _ => d

/-- BUS_ERROR (R294): a read timeout, kind 4, is the completion timeout of the request of its class that it names. -/
def busErrorAt (d : Dev) (c kind : Nat) (fetch : Bool) (nth : Nat) : Dev :=
  if kind != 4 then d.busError c kind fetch nth
  else match ((d.chan c).reqs.filterMap fun r => if isFetch r == fetch then r.tag else none)[nth]? with
    | some t => d.completionTimeout t
    | none => d

/-- LATE_COMPLETION: a completion for a quarantined tag; for any other tag not outstanding it is an Unexpected Completion. -/
def lateCompletion (d : Dev) (t : Nat) : Dev :=
  if d.hep.quarantine.any (·.1 = t) then
    let d := ((d.aerError 16 true).count HEP_LATE_CPL_CNT.addr).set1 HEP_FLAGS.LATE_CPL
    d.atMost .lateCpl (ms 1) fun d => d.notice .alert idHEP 0x016 t
  else if d.hep.tags.any (·.tag = t) then d
  else d.aerError 16 true

/-- TAG_QUARANTINE_END (R318, R320). -/
def quarantineEnd (d : Dev) (t : Nat) : Dev :=
  ((d.setHep fun x => { x with quarantine := d.hep.quarantine.filter fun q => !(q.1 = t && q.2 ≤ d.time) }).tagStat).tagsFreed

/-- POISONED_COMPLETION (R320, R325, R328): the data is discarded; where the cause is disabled the request is issued again. For a tag that is
not outstanding it is an Unexpected Completion. -/
def poisonedCompletion (d : Dev) (t : Nat) : Dev :=
  match d.hep.tags.find? (·.tag = t) with
    | none => d.lateCompletion t
    | some _ =>
      let d := d.poisonedTlp true
      if d.is HEP_CONTAIN_EN.POISON then d.contain 2
      else match d.tagged t with
        | some (c, r) => d.reissue c t r
        | none => d.dropTag t

/-- ECRC_ERROR (R325, R328). -/
def ecrcError (d : Dev) : Dev :=
  d.when d.ecrcCheck fun d =>
    let d := d.aerError 19 false
    d.when (d.is HEP_CONTAIN_EN.ECRC) (·.contain 3)

/-- HEP_INTERNAL_ERROR (R325, R417). -/
def hepInternal (d : Dev) (o : Retry) : Dev :=
  match o with
  | .transient => (d.setMgt fun x => { x with hepTransient := d.mgt.hepTransient + 1 }).aerCorrectable 14
  | .lasting => ((d.aerError 22 false).contain 4).faultLog idHEP none 0 0

/-- UNSUPPORTED_INBOUND_REQUEST (R305, R311). -/
def unsupportedInbound (d : Dev) (posted : Bool) : Dev := if d.hostUp then d.unsupported posted else d

/-- PCIE_LINK_ERROR: an error of the base specification by its AER bit (R325). -/
def linkError (d : Dev) (bit' : Nat) (correctable : Bool) : Dev :=
  if correctable then d.when ([0, 6, 7, 8, 12].contains bit') (·.aerCorrectable bit')
  else d.when ([4, 13, 16, 17, 18].contains bit') (·.aerError bit' (bit' = 16))

/-! ### Resets (R298, R331, R334) -/

/-- The sticky AER registers, and the register that holds the fused identity. -/
def cfgSticky : List Nat := [0x104, 0x108, 0x10C, 0x110, 0x114, 0x118, 0x11C, 0x120, 0x124, 0x128, 0x2C]

/-- NQ0 discards its items, its counters are cleared and NTQ_CTL_0 returns to its reset value; SNAP copies stay (R30, R57, R334). -/
def resetNq0 (d : Dev) : Dev :=
  let d := (d.emptyQueue 0).setReg (NTQ_CTL.addr 0) (regReset (NTQ_CTL.addr 0))
  (d.put64 (NTQ_LOST.addr 0) 0).put64 (NTQ_RESETS.addr 0) 0



/-- Registers of a range go to their reset values, but for SNAP copies and for some. -/
def resetRegs (d : Dev) (a e : Nat) (keep : Nat → Bool) : Dev :=
  { d with regs := d.regs.filter fun r => !(a ≤ r.1 && r.1 < e && !keep r.1 && !isSnap r.1) }

/-- A fundamental or hot reset of HEP and the DMA engine; `hot` keeps the sticky AER fields and HEP_CONTAIN_STAT (R334), which a containment that
the reset ends does not outlast (R331). -/
def hostReset (d : Dev) (cause : Nat) (hot : Bool) : Dev :=
  let d := d.forEach (List.range 32) fun c d => d.resetCh c
  let d := d.resetRegs DMA_OWNER.addr (DMA_OWNER.addr + 0x10000) (· = DMA_OWNER.addr)
  let sris := d.get HEP_LINK_STAT.SRIS
  let d := d.resetRegs HEP_CONTAIN.addr (HEP_CONTAIN.addr + 0x10000) fun a => hot && !d.contained && a = HEP_CONTAIN_STAT.addr
  let d := d.put HEP_LINK_STAT.SRIS sris
  let keep := d.hep.cfg.filter fun e => e.1 = 0x2C || (hot && cfgSticky.contains e.1)
  let d := d.setHep fun x => { HepState.fresh with
    cfg := keep, logBit := if hot then x.logBit else none, reset := some (cause, d.time), perst := x.perst
    ltrCount := x.ltrCount, ltrLast := x.ltrLast, ltrWindowAt := x.ltrWindowAt, trained := x.trained }
  d.resetNq0

/-- The Subsystem IDs from the board identity fuses (R306). -/
def loadIdentity (d : Dev) : Dev :=
  match d.mgt.fuses.board with
  | some w => d.setCfg 0x2C w
  | none => d

/-- PERST_ASSERT, PERST_RELEASE, HOT_RESET. Chunks of a recovery transfer not yet answered are lost (R457), and the board identity
burned since takes effect in the Subsystem IDs (R306, R439). -/
def perstAssert (d : Dev) : Dev :=
  if d.hep.perst then d
  else
    let d := d.hostReset 1 false
    let d := d.when (d.mgt.firmware = .recovery) fun d =>
      (d.setMgt fun x => { x with slots := Tab.set (fun _ => Slot.reset) d.mgt.slots 0 Slot.reset }).setReg (MGT_MBX_STAT.addr 0) 0
    (d.setHep fun x => { x with perst := true })
def perstRelease (d : Dev) (sris : Bool) : Dev :=
  d.when d.hep.perst fun d => ((d.setHep fun x => { x with perst := false }).put HEP_LINK_STAT.SRIS (ofBool sris)).loadIdentity
def hotReset (d : Dev) (linkDown : Bool) : Dev := if d.hep.perst then d else d.hostReset (if linkDown then 3 else 2) true

/-- The configuration that the base specification keeps over a function-level reset: Link Control and Status, Link Control and Status 2, the
structures of the physical layer and of lane margining; and BAR sizes and sticky AER fields (R334). -/
def cfgFunctionKeeps (a : Nat) : Bool := a = 0x70 || a = 0x90 || a = 0x338 || (0x190 ≤ a && a < 0x310) || cfgSticky.contains a

/-- A function-level reset, cause 4, or D3hot to D0, cause 5 (R334): the function's configuration but what the base specification keeps, with
Max_Payload_Size, window tables, MSI-X, INTx pending bits, host-owned channels and NQ0. -/
def functionReset (d : Dev) (cause : Nat) : Dev :=
  let d := d.forEach ((List.range 32).filter fun c => d.bitOf DMA_OWNER.addr c) fun c d => d.resetCh c
  let d := d.resetRegs (HEP_WIN_CFG.addr 0) (HEP_WIN_CFG.addr 32) fun _ => false
  let d := d.resetRegs (HEP_WIN_CUR_CFG.addr 0) (HEP_WIN_CUR_CFG.addr 32) fun _ => false
  let d := (d.setReg HEP_INTX_PEND_LO.addr 0).setReg HEP_INTX_PEND_HI.addr 0
  let keep := d.hep.cfg.filter fun e => cfgFunctionKeeps e.1
  let mps := 0xE0#32 &&& d.cfg 0x68 ||| ~~~ 0xE0#32 &&& cfgReset 0x68
  let d := d.setHep fun x => { x with
    cfg := Tab.set cfgReset keep 0x68 mps, msix := [], pba := [], reset := some (cause, d.time), ltrDue := false, ltrRiseAt := none, winWas := [] }
  ((((d.unset HEP_LINK_STAT.D3HOT).count HEP_FLR_CNT.addr).updateIntx).resetNq0).tagsFreed

/-- FUNCTION_LEVEL_RESET. -/
def flr (d : Dev) (d3 : Bool) : Dev :=
  if d.hep.perst || (d3 && !d.d3hot) then d else d.functionReset (if d3 then 5 else 4)

/-- HOST_RESET_COMPLETE: HOST_RESET carries the device time at which the reset began; containment ends with a function-level
reset (R331, R334). -/
def hostResetComplete (d : Dev) : Dev :=
  match d.hep.reset with
  | none => d
  | some (cause, at') =>
    if d.hep.perst then d
    else
      let d := d.when (4 ≤ cause && d.contained) fun d =>
        let d := (d.unset HEP_CONTAIN_STAT.CONTAINED).setHep fun x => { x with releaseAt := none }
        ((d.forEach (List.range 64) fun v d => d.sendPending v).updateIntx).hostPathBack
      let d := (d.setHep fun x => { x with reset := none }).set1 HEP_FLAGS.HOST_RESET
      (d.setNtq fun x => { x with input := d.ntq.input ++ [⟨.alert, idHEP, 0x017, word cause, at'⟩] })

/-- The rates and widths the port trains at; 64.0 and 128.0 GT/s run in Flit Mode (R303). -/
def linkTrains (rate width : Nat) (flit : Bool) : Bool := 1 ≤ rate && rate ≤ 7 && [1, 2, 4, 8, 16].contains width && (flit || rate ≤ 5)

/-- LINK_CHANGE: the link has trained at a rate and width; at a lower rate or width it is reported (R335). DESIGN CHOICE: lower than at its last
training, the first time than 128.0 GT/s and x16 (log entry 108). The loss of the link is HOT_RESET with link down. -/
def linkChange (d : Dev) (rate width : Nat) (flit : Bool) : Dev :=
  if d.hep.perst || !linkTrains rate width flit then d
  else
  let lower := rate < d.hep.trained.1 || width < d.hep.trained.2
  let d := (d.setHep fun x => { x with trained := (rate, width) })
  let d := (d.put HEP_LINK_STAT.RATE rate).put HEP_LINK_STAT.WIDTH width
  let d := (d.put HEP_LINK_STAT.FLIT (ofBool flit)).put HEP_LINK_STAT.DL_UP 1
  -- Link Status and Link Status 2 of the base specification show the same
  let d := d.setCfg 0x70 (word ((d.cfg 0x70).toNat % 2 ^ 16 + (rate + 16 * width) * 2 ^ 16))
  let d := d.putCfgBit 0x90 26 flit
  d.when lower fun d => d.notice .event idHEP 0x018 (rate % 16 + width % 32 * 2 ^ 4 + ofBool flit * 2 ^ 9)

/-! ### Configuration writes (R306-R310, R321, R326) -/

/-- The bits of a configuration dword that a write changes: those of BAR2 follow its size (R310). -/
def cfgWritable (d : Dev) (a : Nat) : Nat :=
  let s := d.bar2Size
  if a = 0x18 then (2 ^ 32 - s % 2 ^ 32) % 2 ^ 32 * ofBool (s < 2 ^ 32)
  else if a = 0x1C then (if s ≤ 2 ^ 32 then 2 ^ 32 - 1 else 2 ^ 32 - s / 2 ^ 32)
  else if a = 0x338 && d.memEnable then 0
  else cfgPlain a

/-- The bytes a set of byte enables selects. -/
def beMask (be : Nat) : Nat := ((List.range 4).filter (bit be)).foldl (fun m i => m + 0xFF * 2 ^ (8 * i)) 0

/-- CONFIG_WRITE. While a reset that reaches the port is not complete it is answered with Request Retry Status (R335). -/
def configWrite (d : Dev) (a data be : Nat) : Dev :=
  if !d.hostUp || a % 4 != 0 then d
  else if d.hep.reset.isSome then d.emit (d.sealed .requestRetry)
  else
    let old := (d.cfg a).toNat
    let w := d.cfgWritable a &&& beMask be
    let v := (old - (old &&& w)) + (data &&& w)
    let clr := cfgClear a &&& beMask be &&& data
    let v := v - (v &&& clr)
    let size := slice v 8 6
    let power := slice v 0 2
    if (a = 0x338 && (size < 10 || 18 < size)) || (a = 0x44 && (power = 1 || power = 2)) then d
    else
      let wasD3 := d.d3hot
      let wasHeld := d.busHeld
      let d := d.setCfg a (word v)
      let d := match d.hep.logBit with
        | some b => d.when (a = 0x104 && bit clr b) fun d => (d.setHep fun x => { x with logBit := none })
        | none => d
      let d := d.put HEP_LINK_STAT.D3HOT (ofBool d.d3hot)
      if a = 0x68 && bit (data &&& beMask be) 15 then d.functionReset 4
      else if wasD3 && !d.d3hot then d.functionReset 5
      else
        let d := (d.updateIntx).when (!d.ltrEnable) (·.setHep fun x => { x with ltrDue := false, ltrRiseAt := none })
        d.when (wasHeld && !d.busHeld) fun d => d.forEach (List.range 32) fun c d => d.kick c

end Dev
end Sys2Proof.Machine
end

