-- ==== Sys2Proof/Machine/Mailbox.lean ====
section
/-! DEFINITION. MGT's registers that act at once: the mailbox slots (R400), the start of a recovery verification (R456), the start of
a fuse burn (R439), and low-word latches (R33). -/

namespace Sys2Proof.Machine.Dev


/-- A word the device puts a byte list in: 32-bit words, little-endian, the last one padded with zeros. -/
def wordsOf (l : List Byte) : List Word :=
  (List.range ((l.length + 3) / 4)).map fun i => word (fromLe ((l.drop (4 * i)).take 4))

/-- The bytes of words. -/
def bytesOf (l : List Word) : List Byte := l.flatMap fun w => le 4 w.toNat

/-! ### Mailbox slots (R400) -/

def slot (d : Dev) (m : Nat) : Slot := Tab.get (fun _ => Slot.reset) d.mgt.slots m

/-- A change of a slot, with MGT_MBX_STAT_m following it. -/
def setSlot (d : Dev) (m : Nat) (f : Slot → Slot) : Dev :=
  let d := d.setMgt fun g => { g with slots := Tab.upd (fun _ => Slot.reset) g.slots m f }
  let s := d.slot m
  ((d.put (MGT_MBX_STAT.TX m) s.tx.length).put (MGT_MBX_STAT.RX m) s.rx.length).put (MGT_MBX_STAT.BUSY m) (ofBool s.request.isSome)

/-- The bit of a slot in a field of MGT_MBX_FLAGS. -/
def slotFlag (f : Bits) (m : Nat) : Bits := { f with lo := f.lo + m }

/-- A push of one word into the transmit FIFO of 360 words. -/
def mailboxPush (d : Dev) (m : Nat) (w : Word) : Dev :=
  if 360 ≤ (d.slot m).tx.length then d.set1 (slotFlag MGT_MBX_FLAGS.OVERFLOW0 m) else d.setSlot m fun s => { s with tx := s.tx ++ [w] }

/-- SEND: the request is handed to firmware, or in recovery to the boot ROM, which serves slot 0 alone (R454). Where neither
runs, nobody takes it. -/
def mailboxSend (d : Dev) (m : Nat) : Dev :=
  if (d.slot m).request.isSome then d.set1 (slotFlag MGT_MBX_FLAGS.BAD_STATE0 m)
  else
    let served := d.mgt.firmware = .running || (d.mgt.firmware = .recovery && m = 0)
    d.when served fun d => d.setSlot m fun s => { s with request := some s.tx, tx := [] }

/-- RESET: both FIFOs are emptied; a request taken stays in progress. -/
def mailboxReset (d : Dev) (m : Nat) : Dev := d.setSlot m fun s => { s with tx := [], rx := [] }

/-- The words of a receive FIFO at the start of the cycle, less those popped since: words put in within the cycle are not seen (R35). -/
def rxSeen (d : Dev) (m : Nat) : List Word :=
  let s := d.slot m
  if s.rxNew.1 = d.time then s.rx.take (s.rx.length - s.rxNew.2) else s.rx

/-- A read of MGT_MBX_RX_m pops one word; an empty FIFO returns 0. -/
def mailboxRead (d : Dev) (m : Nat) : Dev :=
  match d.rxSeen m with
  | [] => d.emit (.readData (MGT_MBX_RX.addr m) 0)
  | w :: _ => (d.setSlot m fun s => { s with rx := s.rx.tail }).emit (.readData (MGT_MBX_RX.addr m) w)

/-- A response: it goes into the receive FIFO, RX_READY is set and the vector signalled where IRQ_EN is 1. -/
def mailboxAnswer (d : Dev) (m : Nat) (l : List Word) : Dev :=
  let old := (d.rxSeen m).length
  let d := d.setSlot m fun s =>
    let rx := (s.rx ++ l).take 360
    { s with rx := rx, request := none, rxNew := (d.time, rx.length - old) }
  let d := d.set1 (slotFlag MGT_MBX_FLAGS.RX_READY0 m)
  d.when (d.is (MGT_MBX_CTL.IRQ_EN m)) (·.signal (d.get MGT_MBX_IRQ.VECTOR))

/-! ### Recovery and fuses -/

/-- RECOVERY_VERIFY: GO written outside recovery, or while a verification runs, is ignored (R456). -/
def recoveryGo (d : Dev) : Dev :=
  d.when (d.mgt.firmware = .recovery && !d.is MGT_RCV_STAT.VERIFYING) fun d =>
    (d.set1 MGT_RCV_STAT.VERIFYING).setMgt fun g => { g with verifyAt := d.time, verifyLen := d.get MGT_RCV_CTL.LEN }

/-- FUSE_BURN: ignored while FUSE_PROG is locked; refused for a word already programmed (R439). -/
def fuseBurn (d : Dev) : Dev :=
  if d.is DCT_LOCK.FUSE_PROG then d
  else if d.is SEC_STAT.BOARD then d.set1 SEC_FLAGS.BURN_REFUSED
  else d.when d.mgt.fuses.burning.isNone fun d =>
    d.setMgt fun g => { g with fuses := { g.fuses with burning := some (d.reg SEC_FUSE_DATA.addr, d.time) } }

/-! ### Reads (R33, R74, R180, R188, R299) -/

/-- The registers whose low word, when read, latches the high word a later read returns. -/
def latchLows : List Nat :=
  [CAD_TIME.addr, CAD_TICK.addr, HEP_CONTAIN_TIME.addr, NET_PTP_OFFSET.addr] ++ (List.range 32).map DMA_CH_STATUS.addr
    ++ (List.range 16).map FIO_EDGE_TIME.addr ++ (List.range 64).map STP_SK_LAST.addr ++ (List.range 528).map CHT_T_WORK.addr

/-- The status of a teller (R186, R188): what it serves and where it stands. -/
def tellerStat (d : Dev) (t : Nat) : Word :=
  let row := d.rowOf t
  let k := t / 33
  word (d.servedColumn t * 2 ^ 16 + row * 2 ^ 10 + d.get (CHT_T_STAT.STALLED t) * 2 ^ 4
    + ofBool (d.is (CHT_COL_STAT.OLD_BUSY k) && d.get (CHT_T_STAT.BANK t) != d.activeBank k) * 2 ^ 3
    + d.get (CHT_T_STAT.BANK t) * 2 ^ 2 + ofBool (d.is (CHT_T_CTL.RETIRE t)) * 2 + ofBool (row != 63))

/-- The status of a column (R180-R187): the stored bits, and what follows from CHT_ARM and the tellers. -/
def columnStat (d : Dev) (k : Nat) : Word :=
  word ((d.get (CHT_COL_STAT.REASON k)) * 2 ^ 11 + d.inService k * 2 ^ 5
    + ofBool (d.get (CHT_SPARE.ROW k) != 63 && !d.is (CHT_T_CTL.RETIRE (33 * k + 32))) * 2 ^ 4
    + d.get (CHT_COL_STAT.OLD_BUSY k) * 2 ^ 3 + ofBool (d.bitOf CHT_ARM.addr k) * 2 ^ 2
    + d.get (CHT_COL_STAT.LOADED k) * 2 + d.get (CHT_COL_STAT.LOADING k))

/-- Whether a channel's staging buffer holds data. -/
def staging (d : Dev) (c : Nat) : Bool :=
  let x := d.chan c
  !x.got.isEmpty && (match x.desc with | some y => y.shuf != 0 || x.written < x.got.length | none => false)

/-- What a read of a register returns (R36), without any side effect: the values in force beside the staged ones, device time, counters
as they stood at the start of the cycle (R35), the
status registers that follow from other state, and the high words as last latched. -/
def regRead (d : Dev) (a : Nat) : Word :=
  if 0x4_0E00 ≤ a && a < 0x4_0FFC then d.force1 (a - 0xE00)
  else if 0x40_0400 ≤ a && a < 0x40_0700 then d.force1 (a - 0x300)
  else if 0x80_0140 ≤ a && a < 0x80_0180 then d.force1 (a - 0x40)
  else if a = CAD_TIME.addr then word d.time
  else if 0xA00 ≤ pageOff a && pageOff a < 0xC00 then
    let n := d.counterWas (a / 8 * 8)
    if a % 8 = 0 then word n else word (n / 2 ^ 32)
  else if 4 ≤ a && latchLows.contains (a - 4) then Tab.get (fun k => regReset (k + 4)) d.latch (a - 4)
  else if 0x50_0000 ≤ a && a < 0x71_0000 && a % 0x1000 = 0x900 then d.tellerStat ((a - 0x50_0000) / 0x1000)
  else if 0x40_0900 ≤ a && a < 0x40_0940 && a % 4 = 0 then d.columnStat ((a - 0x40_0900) / 4)
  else if 0x10_0000 ≤ a && a < 0x20_0000 && 0x910 ≤ a % 0x1_0000 && a % 0x1_0000 < 0x920 && a % 4 = 0 then
    let p := (a - 0x10_0000) / 0x1_0000
    let l := (a % 0x1_0000 - 0x910) / 4
    (d.put (AVP_LANE_STAT.PI_NOW p l) (d.phaseNow p l)).reg a
  else if 0xA1_0000 ≤ a && a < 0xA3_0000 && a % 0x1000 = 0x900 then
    let c := (a - 0xA1_0000) / 0x1000
    d.reg a ||| word (ofBool (d.staging c) * 2 ^ 6)
  else if a = MGT_MBX_TX.addr 0 || a = MGT_MBX_TX.addr 1 then 0
  else d.reg a

/-- LOW_WORD_LATCH_READ: the low word is returned and the high word latched. -/
def latchRead (d : Dev) (a : Nat) : Dev :=
  d.when (latchLows.contains a) fun d =>
    let hi := if a = CAD_TIME.addr then word (d.time / 2 ^ 32) else d.reg (a + 4)
    ({ d with latch := Tab.set (fun k => regReset (k + 4)) d.latch a hi }).emit (.readData a (d.regRead a))

end Sys2Proof.Machine.Dev
end

