-- ==== Sys2Proof/Machine/RegWrite.lean ====
section
/-! DEFINITION. Writes of registers (R26-R42): aliases, byte enables, access codes, lock bits, the write gate, the checks each block's
chapter makes of a value, and what a write does beside storing it. -/

namespace Sys2Proof
open Machine

/-- The code of a requester in DCT_VIOL_ADDR (R40). -/
def Requester.code : Requester → Nat
  | .host => 0 | .mca => 1 | .mcb => 2 | .passthrough => 3



/-- A word with a field replaced. -/
def Bits.into (f : Bits) (w : Word) (v : Nat) : Word :=
  let m := (2 ^ f.w - 1) <<< f.lo
  word ((w.toNat - (w.toNat &&& m)) + ((v % 2 ^ f.w) <<< f.lo))

/-- The bits of a field. -/
def Bits.mask (f : Bits) : Word := word ((2 ^ f.w - 1) <<< f.lo)

end Sys2Proof

namespace Sys2Proof.Machine

/-- How an offset names a register (R26-R28). -/
inductive Alias where
  | plain | set | clear | toggle | bit (b : Nat)
  deriving DecidableEq, Repr

/-- The register an offset names: pages of 64 KiB have aliases, pages of 4 KiB none (R29), and the HDR page is a table throughout (R43). -/
def aliasOf (off : Nat) : Option (Alias × Nat) :=
  (blockOf off).bind fun b =>
    let o := b.pageOff off / 4 * 4
    let p := off - b.pageOff off
    if o < 0x1000 || off < 0x1_0000 then some (.plain, p + o)
    else if o < 0x1800 then some (.set, p + o - 0x1000)
    else if 0x2000 ≤ o && o < 0x2800 then some (.clear, p + o - 0x2000)
    else if 0x3000 ≤ o && o < 0x3800 then some (.toggle, p + o - 0x3000)
    else if 0x4000 ≤ o && o < 0x6000 then some (.bit ((o - 0x4000) / 4 % 32), p + 0x800 + (o - 0x4000) / 128 * 4)
    else none

/-- A check of one field: the values a write may store, and the flag set where it stores none of them. -/
structure Check where
  field : Bits
  ok : Nat → Bool
  flag : Bits

/-- The event sources and the tasks that exist (R375, R376). -/
def sourceOk (s : Nat) : Bool :=
  s = 0 || (0x10 ≤ s && s < 0x24) || s = 0x28 || s = 0x29 || (0x30 ≤ s && s < 0x38) || (0x40 ≤ s && s < 0xC0)
def taskOk (t : Nat) : Bool :=
  t = 0 || (0x10 ≤ t && t < 0x71) || (0x78 ≤ t && t < 0x140) || (0x140 + 41 ≤ t && t < 0x180)

def between (a b n : Nat) : Bool := decide (a ≤ n) && decide (n ≤ b)

namespace Dev

/-- The write gate of R41 as DCT_GATE shows it (R42, R409). -/
def gateOpen (d : Dev) : Bool := d.is DCT_GATE.OPEN

/-- The registers a host may write with the gate closed (R41). -/
def ungated (d : Dev) (a : Nat) : Bool :=
  (0x2_0000 ≤ a && a < 0x3_0000)
    || (0xA1_0000 ≤ a && a < 0xA3_0000 && d.bitOf DMA_OWNER.addr ((a - 0xA1_0000) / 0x1000))
    || [NTQ_CTL.addr 0, 0xB0_0A00, 0xB0_0A04, 0xB0_0A40, 0xB0_0A44, 0xB0_0C00, 0xB0_0C04, 0xB0_0C40, 0xB0_0C44].contains a
    || (0xB0_0900 ≤ a && a < 0xB0_0920)
    || [MGT_MBX_CTL.addr 0, MGT_MBX_CTL.addr 1, MGT_MBX_IRQ.addr, MGT_MBX_FLAGS.addr, MGT_RCV_CTL.addr].contains a
    || (List.range 2).any fun m => [MGT_MBX_TX.addr m, MGT_MBX_RX.addr m, MGT_MBX_STAT.addr m].contains a

/-- A write stopped by the gate. -/
def gatedWrite (d : Dev) (off : Nat) : Dev :=
  let d := (d.count DCT_GATED_CNT.addr).set1 DCT_FLAGS.GATED
  let id := ((blockOf off).map fun b => b.idOf off).getD 0
  d.atMost .gated (ms 1) fun d => d.notice .alert id 0x002 off

/-- A protected write (R40). -/
def lockViolation (d : Dev) (r : Requester) (off : Nat) : Dev :=
  let d := d.when (!d.is DCT_FLAGS.LOCK_VIOL) fun d => (d.put DCT_VIOL_ADDR.ADDR off).put DCT_VIOL_ADDR.REQ r.code
  let id := ((blockOf off).map fun b => b.idOf off).getD 0
  ((d.set1 DCT_FLAGS.LOCK_VIOL).count DCT_LOCK_VIOL_CNT.addr).notice .alert id 0x001 off

/-! ### Checks of values -/

/-- The checks of single fields: a value outside them leaves the field as it was. The registers of configuration and command stand below page
offset 0x800 (R26). -/
def fieldChecks (d : Dev) (a : Nat) : List Check :=
  let p := (a - 0x10_0000) / 0x1_0000
  let i := a % 0x1000
  if 0x800 ≤ i then []
  else if a < 0x2_0000 then
    [⟨DCT_MODE.NEXT, (· < 8), DCT_FLAGS.BAD_VALUE⟩, ⟨DCT_DRAIN_LIMIT.LIMIT, between 1 600000, DCT_FLAGS.BAD_VALUE⟩]
  else if a < 0x3_0000 then
    [⟨HEP_LTR_CTL.MAX_K, between 10 34, HEP_FLAGS.BAD_VALUE⟩, ⟨HEP_LTR_CTL.FRAC, between 1 15, HEP_FLAGS.BAD_VALUE⟩]
  else if a < 0x4_0000 then
    (List.range 8).map fun k => ⟨EVR_DLY.DELAY k, (8 ≤ ·), EVR_FLAGS.BAD_VALUE⟩
  else if a < 0x5_0000 then
    [⟨CAD_CTL.DEPTH, between 1 8, CAD_FLAGS.BAD_VALUE⟩, ⟨CAD_PERIOD.PERIOD, (400 ≤ ·), CAD_FLAGS.BAD_VALUE⟩
    , ⟨CAD_SCHED_LEAD.LEAD, between 8000 4000000, CAD_FLAGS.BAD_VALUE⟩, ⟨CAD_BUS_LEAD.LEAD, between 8000 4000000, CAD_FLAGS.BAD_VALUE⟩
    , ⟨CAD_TRIM.RATE, fun v => (signed 32 v).natAbs ≤ 219902326, CAD_FLAGS.BAD_VALUE⟩]
  else if a < 0x6_0000 then
    let s := i / 0x18
    [⟨STP_SK_CTL.DIR s, (· < 3), STP_FLAGS.BAD_VALUE⟩, ⟨STP_SK_PARAM.LEAD s, between 1 1000, STP_FLAGS.BAD_VALUE⟩]
  else if a < 0x7_0000 then
    let c := i / 0x20
    let on := d.is (ENC_CH_CTL.EN c)
    let locked := fun (f : Bits) => Check.mk f (fun _ => !on) (ENC_FLAGS.BAD_STATE c)
    [locked (ENC_CH_CTL.DIR c), locked (ENC_CH_CTL.RES c), locked (ENC_CH_CTL.SPD_K c)
    , ⟨ENC_CH_CTL.SPD_K c, between 4 20, ENC_FLAGS.BAD_VALUE c⟩, ⟨ENC_CH_STILL.STILL c, between 1 60000000, ENC_FLAGS.BAD_VALUE c⟩]
  else if a < 0x8_0000 then
    let q := i / 0x10
    [⟨FIO_PIN_CTL.MODE q, (· < 3), FIO_FLAGS.BAD_VALUE⟩, ⟨FIO_PIN_CTL.EDGE q, (· < 3), FIO_FLAGS.BAD_VALUE⟩
    , ⟨FIO_PIN_CTL.THR q, between 10 150, FIO_FLAGS.BAD_VALUE⟩, ⟨FIO_PIN_STUCK.STUCK_T q, (· ≤ 60000000), FIO_FLAGS.BAD_VALUE⟩
    , ⟨FIO_PIN_PULSE.PULSE_W q, (80 ≤ ·), FIO_FLAGS.BAD_VALUE⟩]
  else if 0xD0_0000 ≤ a && a < 0xD1_0000 then
    (List.range 2).map fun n => ⟨NET_PORT_CTL.SPEED_MAX n, between 1 5, NET_FLAGS.BAD_VALUE⟩
  else if 0xF0_0000 ≤ a && a < 0xF1_0000 then [⟨SEC_CFG.CAM_POLICY, (· < 3), SEC_FLAGS.BAD_VALUE⟩]
  else if 0x10_0000 ≤ a && a < 0x20_0000 then
    [⟨AVP_QUAL_CTL.DUR p, between 20 44, AVP_FLAGS.BAD_VALUE p⟩, ⟨AVP_QUAL_CTL.PATTERN p, (· < 4), AVP_FLAGS.BAD_VALUE p⟩
    , ⟨AVP_GEOM_W.FORMAT p, (· < 5), AVP_FLAGS.BAD_VALUE p⟩, ⟨AVP_RANGE_CTL.INTERVAL p, between 10 10000, AVP_FLAGS.BAD_VALUE p⟩
    , ⟨AVP_FRAME_TMO.TMO p, between 1 1000000, AVP_FLAGS.BAD_VALUE p⟩]
  else if 0x40_0000 ≤ a && a < 0x41_0000 then
    (List.range 16).map fun k => ⟨CHT_SPARE.ROW k, fun v => v < 32 || v = 63, CHT_FLAGS.BAD_VALUE⟩
  else if 0x90_0000 ≤ a && a < 0x91_0000 then
    if i < 0x400 then [⟨VLT_RING_CFG.ROLE (i / 0x10), (· < 2), VLT_FLAGS.BAD_VALUE⟩] else [⟨VLT_SCRUB.INTERVAL, (10 ≤ ·), VLT_FLAGS.BAD_VALUE⟩]
  else if 0xA1_0000 ≤ a && a < 0xA3_0000 then
    let c := (a - 0xA1_0000) / 0x1000
    [⟨DMA_CH_CFG.FMT c, between 1 2, DMA_CH_FLAGS.BAD_STATE c⟩, ⟨DMA_CH_DRING_SIZE.LOG2 c, between 2 16, DMA_CH_FLAGS.BAD_STATE c⟩
    , ⟨DMA_CH_SHUF.IN_FMT c, (· < 5), DMA_CH_FLAGS.BAD_STATE c⟩, ⟨DMA_CH_CIRC.DST_LOG2 c, between 12 40, DMA_CH_FLAGS.BAD_STATE c⟩
    , ⟨DMA_CH_CIRC.LDST_LOG2 c, between 12 40, DMA_CH_FLAGS.BAD_STATE c⟩]
  else []

/-- A word with every checked field that would take a value outside its check left as it was, and the flags that this sets. -/
def checked (d : Dev) (a : Nat) (old new : Word) : Dev × Word :=
  (d.fieldChecks a).foldl (fun (d, w) c =>
    if c.field.off = a && c.field.of w != c.field.of old && !c.ok (c.field.of w) then (d.set1 c.flag, c.field.into w (c.field.of old)) else (d, w))
    (d, new)

/-- The checks that refuse a write whole: the flag set. -/
def wholeRefused (d : Dev) (a : Nat) (new : Word) : Option Bits :=
  if 0x3_0100 ≤ a && a < 0x3_0300 then
    let e := (a - 0x3_0100) / 4
    let task := (EVR_CH.TASK e).of new
    if sourceOk ((EVR_CH.SRC e).of new) && taskOk task && !((EVR_CH.EN e).of new = 1 && task = 0) then none else some EVR_FLAGS.BAD_VALUE
  else if 0x5_0000 ≤ a && a < 0x5_0600 then
    if d.strikeState ((a - 0x5_0000) / 0x18) = 0 then none else some STP_FLAGS.BAD_STATE
  else if 0x10_0000 ≤ a && a < 0x20_0000 then
    let p := (a - 0x10_0000) / 0x1_0000
    if a = AVP_PORT_CFG.addr p then
      if between 1 2 ((AVP_PORT_CFG.VER_MAX p).of new) && (AVP_PORT_CFG.LANES_MAX p).of new < 3 then none else some (AVP_FLAGS.BAD_VALUE p)
    else if a = AVP_GANG_CFG.addr p then
      let s := (AVP_GANG_CFG.SIZE p).of new
      if s < 3 && p % 2 ^ s = 0 then none else some (AVP_FLAGS.BAD_VALUE p)
    else none
  else if 0x40_0040 ≤ a && a < 0x40_0080 then
    if d.swapping ((a - 0x40_0040) / 4) then some CHT_FLAGS.WRITE_REFUSED else none
  else if 0x80_0100 ≤ a && a < 0x80_0140 then
    let k := (a - 0x80_0100) / 4
    let kind := fun (n : Nat) => n = 0 || n = 3
    if kind ((CLR_COL_CFG.KIND_A k).of new) && kind ((CLR_COL_CFG.KIND_B k).of new) && between 1 2 ((CLR_COL_CFG.FMT k).of new) then none
    else some CLR_FLAGS.BAD_VALUE
  else if 0xA1_0000 ≤ a && a < 0xA3_0000 then
    let c := (a - 0xA1_0000) / 0x1000
    if [0x004, 0x008, 0x00C, 0x010, 0x018, 0x01C, 0x020].contains (a % 0x1000) && !d.chIdle c then some (DMA_CH_FLAGS.BAD_STATE c) else none
  else none

/-- The staged registers (R74): those every apply moves, CAD_CTL, DCT_MODE, CHT_ARM and the columns' own. -/
def isStaged (a : Nat) : Bool :=
  stagedRegs.contains a || a = CAD_CTL.addr || a = DCT_MODE.addr || a = CHT_ARM.addr || (0x40_0100 ≤ a && a < 0x40_0400)

/-! ### What a write does beside storing its value -/

/-- A write of AVP_LANE_CTL: `touch` holds the bits it writes. PI_MAN set samples at PI_CODE; PI_MAN cleared starts the tracker from the
phase in force (R99, R101). -/
def laneWritten (d : Dev) (p l : Nat) (old new touch : Word) : Dev :=
  let man := (AVP_LANE_CTL.PI_MAN p l).of
  let ad := (AVP_LANE_CTL.ADAPT p l).of
  let d := d.when (touch &&& (AVP_LANE_CTL.PEAK p l).mask != 0 || ad old != ad new) (·.refreshPeak p l)
  d.when (old != new && (man new = 1 || man old = 1)) fun d => d.trackFrom p l (if man old = 1 then d.get (AVP_LANE_STAT.PI_NOW p l) else d.phaseNow p l)

/-- The lanes of ports whose peaking or phase a write of PHY overrides or of lane controls concerns: an override acts as EN changes, and
through PEAK while EN is 1 (R102). -/
def laneHook (d : Dev) (a : Nat) (old new touch : Word) : Dev :=
  if 0x20_0100 ≤ a && a < 0x20_0140 then
    let p := (a - 0x20_0100) / 4
    let en := (LPH_EQ_OVR.EN p).of
    d.when (en old != en new || (en new = 1 && touch &&& (LPH_EQ_OVR.PEAK p).mask != 0)) fun d =>
      d.forEach (List.range 4) fun l d => d.refreshPeak p l
  else if 0x10_0000 ≤ a && a < 0x20_0000 && 0x40 ≤ a % 0x1_0000 && a % 0x1_0000 < 0x50 then
    d.laneWritten ((a - 0x10_0000) / 0x1_0000) ((a % 0x1_0000 - 0x40) / 4) old new touch
  else d

/-- A write of AVP_URGENT.FIRE: an activation; while an URGENT waits for its block boundary it waits in the pending counter of the port's
task, whose bound R154 gives to all that wait. -/
def urgentWrite (d : Dev) (p : Nat) : Dev :=
  if (d.port p).link.urgents.isEmpty then d.urgentFire p else d.activate (0x50 + p) 0

/-- A write of a port's page: enable and disable, RETRAIN, QUAL, BITSLIP, GO, FIRE. DESIGN CHOICE: EN written 0 together with RETRAIN 1
takes the port to DOWN, where the RETRAIN is ignored and sets BAD_STATE; R123 says that EN wins and leaves the flag open (log entry 84). A
staged write of geometry or gang disarms every column of the gang as it was staged before and of the gang as it is staged now (R183). -/
def portHook (d : Dev) (a : Nat) (old new cmd : Word) : Dev :=
  let p := (a - 0x10_0000) / 0x1_0000
  if a = AVP_PORT_CTL.addr p then
    let en := (AVP_PORT_CTL.EN p).of
    let d := d.when (en old = 0 && en new = 1) (·.portEnable p)
    let d := d.when (en old = 1 && en new = 0) (·.portDisable p)
    let d := d.when (cmd.getLsbD 7) (·.portRetrain p)
    d.when (cmd.getLsbD 6) (·.qualifyStart p)
  else if a = AVP_CMD_CTL.addr p then d.when (cmd.getLsbD 31) (·.commandGo p)
  else if a = AVP_URGENT.addr p then d.when (cmd.getLsbD 0) (·.urgentWrite p)
  else if a = AVP_GEOM_W.addr p || a = AVP_GEOM_H.addr p || a = AVP_GANG_CFG.addr p then
    let before := d.setReg a old
    d.forEach (before.stagedGang (before.stagedHead p) ++ d.stagedGang (d.stagedHead p)) fun k d => d.disarm k
  else
    let l := (a % 0x1_0000 - 0x40) / 4
    d.when (0x40 ≤ a % 0x1_0000 && a % 0x1_0000 < 0x50 && cmd.getLsbD 31) (·.bitslip p l)

/-- A write of a DMA channel's page. -/
def chanHook (d : Dev) (a : Nat) (cmd : Word) : Dev :=
  let c := (a - 0xA1_0000) / 0x1000
  if a = DMA_CH_CTL.addr c then
    if cmd.getLsbD 2 then d.dmaAbort c
    else (d.when (cmd.getLsbD 0) (·.dmaStart c)).when (cmd.getLsbD 1) (·.dmaStop c)
  else if a = DMA_CH_SH_VALID.addr c then d.when (cmd.getLsbD 0) (·.shadowValid c)
  else if a = DMA_CH_DRING_TAIL.addr c then d.tailWrite c
  else d

/-- A write of an encoder channel's or a pin's registers. -/
def fieldHook (d : Dev) (a : Nat) (old new cmd touch : Word) : Dev :=
  if a < 0x7_0000 then
    let i := (a - 0x6_0000) / 0x20
    let en := (ENC_CH_CTL.EN i).of
    if a = ENC_CH_CTL.addr i then
      if en old = 0 && en new = 1 then d.encEnable i else if en old = 1 && en new = 0 then d.encDisable i else d
    else if a = ENC_CH_CMD.addr i then d.when (cmd.getLsbD 0) (·.clearDoubt i)
    else d
  else
    let p := (a - 0x7_0000) / 0x10
    let watched := [FIO_PIN_CTL.MODE p, FIO_PIN_CTL.EDGE p].any fun f => a = f.off && f.of old != f.of new
    let gains := a = FIO_PIN_STUCK.addr p && old = 0 && new != 0
    let d := d.when (watched || gains) (·.setPin p fun x => { x with levelAt := d.time })
    -- a write of OUT is kept against the tasks of its cycle (R35, R360)
    let d := d.when (a = FIO_PIN_CTL.addr p && touch &&& (FIO_PIN_CTL.OUT p).mask != 0) fun d =>
      d.setPin p fun x => { x with acted := some ⟨d.time, 0, (FIO_PIN_CTL.OUT p).of old, x.pulse⟩ }
    d.when (a = FIO_PIN_CMD.addr p && cmd.getLsbD 0) (·.outputRearm p)

/-- The bits of a command word as a list of bit numbers. -/
def ones (w : Word) : List Nat := (List.range 32).filter w.getLsbD

/-- What a write of a stored register does beside storing it, block by block; `cmd` holds the 1 bits written to W1S fields, `touch` the bits
of stored fields that the write reaches. DESIGN CHOICE: a write of FLUSH and ARM of a queue together flushes first, so that the items flushed
signal nothing; R49 gives no order (log entry 95). -/
def writeHook (d : Dev) (a : Nat) (old new cmd touch : Word) : Dev :=
  if a < 0x2_0000 then d.when (a = DCT_DRAIN_LIMIT.addr) (·.drainTimeout)
  else if a < 0x3_0000 then
    if a = HEP_CONTAIN.addr then d.when (cmd.getLsbD 0) (·.containRelease)
    else if a = HEP_INTX_MASK_LO.addr || a = HEP_INTX_MASK_HI.addr || a = HEP_INTX_PEND_LO.addr || a = HEP_INTX_PEND_HI.addr then d.updateIntx
    else d.when (0x2_0100 ≤ a && a < 0x2_0300 && a % 0x10 = 0 && cmd.getLsbD 16) (·.windowCommit ((a - 0x2_0100) / 0x10))
  else if a < 0x4_0000 then
    if a < 0x3_0010 then d.forEach (ones cmd) fun i d => d.softwareFire ((a - 0x3_0000) / 4 * 32 + i)
    else d.when (0x3_0100 ≤ a && a < 0x3_0300) fun d => d.channelWritten ((a - 0x3_0100) / 4) old
  else if a < 0x5_0000 then
    if a = CAD_APPLY.addr then d.when (cmd.getLsbD 0) (·.applyRequest)
    else d.when (a = CAD_TIME_CTL.addr && old != new) (·.discChanged)
  else if a < 0x6_0000 then
    if a = STP_ARM_LO.addr || a = STP_ARM_HI.addr then d.forEach (ones cmd) fun i d => d.strikeArm ((a - STP_ARM_LO.addr) / 4 * 32 + i)
    else d.when (a = STP_DISARM_LO.addr || a = STP_DISARM_HI.addr) fun d =>
      d.forEach (ones cmd) fun i d => d.strikeDisarm ((a - STP_DISARM_LO.addr) / 4 * 32 + i)
  else if a < 0x8_0000 then d.when (a % 0x1000 < 0x800) (·.fieldHook a old new cmd touch)
  else if a < 0x20_0000 then (d.laneHook a old new touch).portHook a old new cmd
  else if a < 0x30_0000 then d.laneHook a old new touch
  else if 0x40_0000 ≤ a && a < 0x41_0000 then
    if a = CHT_LOAD.addr then d.charterLoad cmd.toNat
    else d.when (0x40_0100 ≤ a && a < 0x40_0400) (·.chartTouched ((a - 0x40_0100) / 0x30))
  else if 0x90_0000 ≤ a && a < 0x91_0000 then
    if a = VLT_COMMIT.addr then d.commitGroups cmd.toNat
    else if a = VLT_ARM_LO.addr || a = VLT_ARM_HI.addr then d.forEach (ones cmd) fun i d => d.armRing ((a - VLT_ARM_LO.addr) / 4 * 32 + i)
    else if a = VLT_RETIRE_REQ.addr then d.when (cmd.getLsbD 31) (·.retireRequest (VLT_RETIRE_REQ.PAGE.of new))
    else d.when (a = VLT_RSEL.addr) (·.ringView (VLT_RSEL.RING.of new))
  else if 0xA1_0000 ≤ a && a < 0xA3_0000 then d.chanHook a cmd
  else if 0xB0_0000 ≤ a && a < 0xB0_0020 then
    let q := (a - 0xB0_0000) / 4
    (d.when (cmd.getLsbD 0) (·.emptyQueue q)).when (cmd.getLsbD 1) (·.noticeArm q)
  else if 0xC0_0000 ≤ a && a < 0xC0_0008 then
    let m := (a - 0xC0_0000) / 4
    (d.when (cmd.getLsbD 1) (·.mailboxReset m)).when (cmd.getLsbD 0) (·.mailboxSend m)
  else if a = MGT_RCV_CTL.addr then d.when (cmd.getLsbD 31) (·.recoveryGo)
  else if a = AUD_CTL.addr then d.when (cmd.getLsbD 0) (·.auditRequest)
  else if a = SEC_FUSE_CMD.addr then d.when (cmd.getLsbD 0) (·.fuseBurn)
  else d

/-- Columns named by bits, one for each gang that the next apply will bring into force. -/
def gangsOf (d : Dev) (w : Word) : List Nat := ((ones w).map d.stagedHead).dedup

/-- A value for a register that keeps its own rules instead of a plain store: CHT_ARM (each bit written 0 disarms, each written 1 validates,
whatever it was, R180, R183), DMA_OWNER, the shadow set, PACK and LACK,
RETIRE of a teller, a push into a transmit FIFO. `none` where the register is an ordinary one. -/
def specialWrite (d : Dev) (a : Nat) (old new cmd touch : Word) : Option Dev :=
  if a = CHT_ARM.addr then
    let d := d.forEach (d.gangsOf (old &&& ~~~new)) fun k d => d.charterDisarm k
    some (d.forEach (d.gangsOf (new &&& touch)) fun k d => d.charterArm k)
  else if a = DMA_OWNER.addr then some (d.ownerWrite new)
  else if 0xA1_0000 ≤ a && a < 0xA3_0000 then
    let c := (a - 0xA1_0000) / 0x1000
    let o := a % 0x1000
    if 0x80 ≤ o && o < 0xA4 && d.shadowLocked c && (o != 0xA0 || cmd != 0) then some (d.shadowLate c)
    else if 0x28 ≤ o && o < 0x38 then
      let lo := a / 8 * 8
      let v := if a = lo then new.toNat + (d.reg (lo + 4)).toNat * 2 ^ 32 else (d.reg lo).toNat + new.toNat * 2 ^ 32
      some (d.flowAck c (0x30 ≤ o) v)
    else none
  else if 0x50_0000 ≤ a && a < 0x71_0000 && a % 0x1000 = 0 then
    some (d.when (new.getLsbD 0 && !old.getLsbD 0) (·.softRetire ((a - 0x50_0000) / 0x1000)))
  else if a = MGT_MBX_TX.addr 0 || a = MGT_MBX_TX.addr 1 then
    some (d.when (touch != 0) (·.mailboxPush ((a - MGT_MBX_TX.addr 0) / 0x10) new))
  else none

/-- The RW registers that hardware also updates, and whose update gives way to a write of the same cycle: NEXT, the servo's fields, HEAD of
a descriptor ring, TGT of a strike, the corrections of an encoder channel (R35, R87, R276, R340, R369; OUT of a pin stands in `fieldHook`). -/
def shared (a : Nat) : Bool :=
  [DCT_MODE.addr, CAD_TRIM.addr, CAD_DOMAIN_OFF.addr, CAD_DOMAIN_OFF.addr + 4].contains a
    || (0x5_0000 ≤ a && a < 0x5_0600 && (a % 0x1000 % 0x18 = 4 || a % 0x1000 % 0x18 = 8))
    || (0x6_0000 ≤ a && a < 0x6_0080 && (List.range 4).any fun i => a = ENC_CH_CORR0.addr i || a = ENC_CH_CORR1.addr i)
    || (0xA1_0000 ≤ a && a < 0xA3_0000 && a % 0x1000 = 0x18)

/-- Software has written bits of such a register in the present cycle. -/
def noteWrite (d : Dev) (a : Nat) (touch : Word) : Dev :=
  { d with cyc := { d.cycNow with wrote := if shared a then (a, touch) :: d.cycNow.wrote else d.cycNow.wrote } }

/-- A write that has passed gate and locks: refused while an apply is pending (R75), checked, stored, acted on. -/
def landWrite (d : Dev) (a : Nat) (old new cmd touch : Word) : Dev :=
  if isStaged a && d.is CAD_APPLY.PENDING then d.set1 CAD_FLAGS.GO_BUSY
  else match d.wholeRefused a new with
    | some f => d.set1 f
    | none => match d.specialWrite a old new cmd touch with
      | some d => d
      | none =>
        let (d, new) := (d.noteWrite a touch).checked a old new
        let store := fun (d : Dev) => d.setReg a new
        let d := if 0x7_0000 ≤ a && a < 0x7_0100 then d.withDrive ((a - 0x7_0000) / 0x10) store else store d
        d.writeHook a old new cmd touch

/-- The access codes whose fields are locked now, and those whose fields a write stores in (R10, R37). -/
def locks (d : Dev) : Access → Bool
  | .rwl n => d.bitOf DCT_LOCK.addr n
  | _ => false
def stores (d : Dev) : Access → Bool
  | .rw | .wo => true
  | .rwl n => !d.bitOf DCT_LOCK.addr n
  | _ => false

/-- A write of a register by access code: `val` is the value for its RW bits, `touch` the bits written, `ones'` those written 1
to W1C and W1S fields. A locked RWL field that the write touches stays and makes the write a protected one. -/
def regWrite (d : Dev) (r : Requester) (off a : Nat) (val touch ones' : Word) : Dev :=
  match regRow a with
  | none => d
  | some row =>
    let rw := row.mask d.stores
    let d := d.when (touch &&& row.mask d.locks != 0) (·.lockViolation r off)
    let old := d.reg a
    let cmd := ones' &&& row.mask (· = .w1s)
    let new := (old &&& ~~~rw) ||| (val &&& rw)
    -- a flag that hardware has set in this cycle stays set (R35)
    let new := new &&& ~~~(ones' &&& row.mask (· = .w1c) &&& ~~~d.setsOf a)
    let new := if a = DCT_LOCK.addr then new ||| cmd else new
    d.landWrite a old new cmd (touch &&& (rw ||| row.mask fun x => x = .w1c || x = .w1s))

/-- A write as it reaches a register, past the gate (R32, R36). -/
def gatePassed (d : Dev) (r : Requester) (off a : Nat) (val touch ones' : Word) : Dev :=
  if r != .host then d.regWrite r off a val touch ones'
  else if !d.hostUp then d
  else if !d.memEnable then d.unsupported true
  else if !d.gateOpen && !d.ungated a then d.gatedWrite off
  else d.regWrite r off a val touch ones'

/-- A write of one 32-bit word at a BAR0 offset, aliases included (R26-R28, R32). An offset outside every block, or one no
register or alias has, is only subject to the gate (R13, R26, R41); any write of the host's is an Unsupported Request while Memory Space
Enable is 0 (R311). -/
def busWrite (d : Dev) (r : Requester) (off : Nat) (data : Word) (be : Nat) : Dev :=
  let em := word (beMask be)
  if r = .host && d.hostUp && !d.memEnable then d.unsupported true
  else if em = 0 || (blockOf off).isNone then d
  else
    match aliasOf off with
    | none => d.gatePassed r off (off / 4 * 4) 0 em 0
    | some (k, a) =>
      let old := d.reg a
      let x := data &&& em
      match k with
      | .plain => d.gatePassed r off a ((old &&& ~~~em) ||| x) em x
      | .set => d.gatePassed r off a (old ||| x) x 0
      | .clear => d.gatePassed r off a (old &&& ~~~x) x 0
      | .toggle => d.gatePassed r off a (old ^^^ x) x 0
      | .bit b =>
        let m := 1#32 <<< b
        let m := if em.getLsbD 0 then m else 0
        if data.getLsbD 0 then d.gatePassed r off a (old ||| m) m m else d.gatePassed r off a (old &&& ~~~m) m 0

/-- A write of one field of a register, and of a one-bit command. -/
def fieldWrite (d : Dev) (r : Requester) (f : Bits) (v : Nat) : Dev :=
  let w := f.into (d.reg f.off) v
  d.gatePassed r f.off f.off w f.mask (f.mask &&& w)

end Dev
end Sys2Proof.Machine
end

