-- ==== Sys2Proof/Machine/Sha3.lean ====
section
/-! DEFINITION. SHA3-256 (FIPS 202), which the measurements and the image digest use (R432, R436). -/

namespace Sys2Proof.Machine

namespace Sha3

/-- A lane of the Keccak state. -/
abbrev Lane := BitVec 64

/-- The rotation of each lane, index x + 5 y. -/
def rho : List Nat :=
  [0, 1, 62, 28, 27, 36, 44, 6, 55, 20, 3, 10, 43, 25, 39, 41, 45, 15, 21, 8, 18, 2, 61, 56, 14]

/-- The round constants. -/
def iota : List Lane :=
  [0x0000000000000001, 0x0000000000008082, 0x800000000000808A, 0x8000000080008000, 0x000000000000808B, 0x0000000080000001
  , 0x8000000080008081, 0x8000000000008009, 0x000000000000008A, 0x0000000000000088, 0x0000000080008009, 0x000000008000000A]
  ++ [0x000000008000808B, 0x800000000000008B, 0x8000000000008089, 0x8000000000008003, 0x8000000000008002, 0x8000000000000080
  , 0x000000000000800A, 0x800000008000000A, 0x8000000080008081, 0x8000000000008080, 0x0000000080000001, 0x8000000080008008]

/-- One round of Keccak-f[1600]. -/
def round (a : List Lane) (rc : Lane) : List Lane :=
  let at' := fun (l : List Lane) (i : Nat) => l.getD i 0
  let c := (List.range 5).map fun x => at' a x ^^^ at' a (x + 5) ^^^ at' a (x + 10) ^^^ at' a (x + 15) ^^^ at' a (x + 20)
  let t := (List.range 25).map fun i => at' a i ^^^ at' c ((i + 4) % 5) ^^^ (at' c ((i + 1) % 5)).rotateLeft 1
  let b := (List.range 25).map fun i =>
    let x := i % 5
    let y := i / 5
    let j := (x + 3 * y) % 5 + 5 * x
    (at' t j).rotateLeft (rho.getD j 0)
  (List.range 25).map fun i =>
    let y := i / 5 * 5
    let v := at' b i ^^^ (~~~(at' b (y + (i + 1) % 5)) &&& at' b (y + (i + 2) % 5))
    if i = 0 then v ^^^ rc else v

/-- Taking a block of 136 bytes into the state. -/
def absorb (a : List Lane) (l : List Byte) : List Lane :=
  let a := (List.range 25).map fun i => if i < 17 then a.getD i 0 ^^^ BitVec.ofNat 64 (field l (8 * i) 8) else a.getD i 0
  iota.foldl round a

/-- The padded message: domain bits 01, then 10*1. -/
def pad (l : List Byte) : List Byte :=
  let n := 136 - l.length % 136
  l ++ (if n = 1 then [0x86] else 0x06 :: (List.replicate (n - 2) 0 ++ [0x80]))

end Sha3

/-- SHA3-256 of bytes. -/
def sha3 (l : List Byte) : List Byte :=
  let p := Sha3.pad l
  let a := (List.range (p.length / 136)).foldl (fun a i => Sha3.absorb a ((p.drop (136 * i)).take 136)) (List.replicate 25 0)
  (a.take 4).flatMap fun x => le 8 x.toNat

end Sys2Proof.Machine
end

