-- ==== Sys2Proof/Machine/Dictionary.lean ====
section
/-! DEFINITION. The object dictionary (R384-R389, R198, R402, R403, chapter 15): the objects with their types, rights, defaults and limits,
their values, and the registers they map to. -/

namespace Sys2Proof.Machine

/-- An object: name, type code (R385), access code (R386), default, limits (a range, further values, a step), maximum length of a STR
or BLOB, and whether its level is expert. -/
structure Obj where
  name : String
  typ : Nat
  acc : Nat
  dflt : Int := 0
  lo : Int := 0
  hi : Int := 0
  also : List Int := []
  step : Int := 1
  maxLen : Nat := 0
  expert : Bool := false

/-- Type codes (R385). -/
def tBool : Nat := 1
def tU8 : Nat := 2
def tU16 : Nat := 3
def tU32 : Nat := 4
def tU64 : Nat := 5
def tI32 : Nat := 8
def tI64 : Nat := 9
def tStr : Nat := 0xC
def tBlob : Nat := 0xD
def tTime : Nat := 0xE

/-- Access codes (R386). -/
def aConst : Nat := 0
def aRO : Nat := 1
def aRW : Nat := 2
def aWO : Nat := 3
def aRWE : Nat := 4

/-- Bytes of a type; 0 for STR and BLOB. -/
def typeSize (t : Nat) : Nat :=
  match t with
  | 1 => 1 | 2 => 1 | 6 => 1 | 3 => 2 | 7 => 2 | 4 => 4 | 8 => 4 | 10 => 4 | 5 => 8 | 9 => 8 | 11 => 8 | 14 => 8 | _ => 0

/-- Whether a type is a signed integer. -/
def typeSigned (t : Nat) : Bool := 6 ≤ t && t ≤ 9

namespace Obj

/-- A number with a range; one with the whole range of its type; one that is only read; a flag. -/
def num (name : String) (typ acc : Nat) (dflt lo hi : Int) : Obj := { name := name, typ := typ, acc := acc, dflt := dflt, lo := lo, hi := hi }
def full (name : String) (typ acc : Nat) (dflt : Int) : Obj :=
  let n := 8 * typeSize typ
  if typeSigned typ then num name typ acc dflt (-(2 ^ (n - 1))) (2 ^ (n - 1) - 1) else num name typ acc dflt 0 (2 ^ n - 1)
def read (name : String) (typ : Nat) : Obj := { name := name, typ := typ, acc := aRO }
def flag (name : String) (acc : Nat) (dflt : Int) : Obj := num name tBool acc dflt 0 1

/-- A STR or BLOB. -/
def bytes (name : String) (typ acc maxLen : Nat) : Obj := { name := name, typ := typ, acc := acc, maxLen := maxLen }

def isBytes (o : Obj) : Bool := o.typ = tStr || o.typ = tBlob

/-- The number a value of the object stands for. -/
def toInt (o : Obj) (l : List Byte) : Int :=
  if typeSigned o.typ then signed (8 * typeSize o.typ) (fromLe l) else fromLe l

/-- A number as the object's value. -/
def ofInt (o : Obj) (v : Int) : List Byte := le (typeSize o.typ) (unsigned (8 * Nat.max 1 (typeSize o.typ)) v)

/-- Whether a number lies within the object's own limits. -/
def within (o : Obj) (v : Int) : Bool := (o.lo ≤ v && v ≤ o.hi && v % o.step = 0) || o.also.contains v

end Obj

/-- Objects of one shape at `count` indexes from `base`, `stride` apart, by subindex. -/
structure Family where
  base : Nat
  count : Nat
  stride : Nat
  objs : List (Nat × Obj)

/-- A ring number or 0xFF for none. -/
def ringObj (name : String) : Obj := { Obj.num name tU8 aRWE 0xFF 0 63 with also := [0xFF] }

/-- Device, sessions, modes and cadence. -/
def familiesDevice : List Family :=
  [ ⟨0x1000, 1, 1, [(1, .bytes "VENDOR" tStr aConst 255), (2, .bytes "PRODUCT" tStr aConst 255), (3, .bytes "PART" tStr aConst 255)
    , (4, { Obj.read "SERIAL" tU64 with acc := aConst })]⟩
  , ⟨0x1001, 1, 1, [(1, .read "FIRMWARE" tU32), (2, { Obj.num "UMSAL" tU16 aConst 0x0101 0x0101 0x0101 with dflt := 0x0101 })]⟩
  , ⟨0x1010, 1, 1, [(1, .num "SAVE" tU32 aWO 0 0x65766173 0x65766173)]⟩
  , ⟨0x1020, 1, 1, [(1, .read "KEYHOLDER" tU8), (2, .read "KEY_PRIO" tU8), (3, .read "KEY_EPOCH" tU32), (4, .read "SESSIONS" tU16)
    , (5, .read "CLAIMS" tU16)]⟩
  , ⟨0x2000, 1, 1, [(1, .num "NEXT_MODE" tU8 aRWE 0 0 6), (2, .read "MODE" tU8), (3, .read "BASE" tU8)
    , (4, .num "DRAIN_LIMIT" tU32 aRW 10000 1 600000)]⟩
  , ⟨0x2001, 1, 1, [(1, .num "SRC" tU8 aRWE 0 0 2), (2, .num "PERIOD" tU32 aRWE 4000000 400 (2 ^ 32 - 1)), (3, .num "DEPTH" tU8 aRWE 2 1 8)
    , (4, .num "SCHED_LEAD" tU32 aRWE 200000 8000 4000000), (5, .full "START" tTime aRWE 0)]⟩
  , ⟨0x2002, 1, 1, [(1, .num "DISC" tU8 aRW 0 0 3), (2, .num "TRIM" tI32 aRW 0 (-219902326) 219902326), (3, .read "DOMAIN_OFF" tU64)
    , (4, .read "TIME" tTime), (5, .read "TICK" tU64)]⟩
  , ⟨0x2003, 1, 1, [(1, .num "BUS_ROLE" tU8 aRWE 0 0 2), (2, .full "BUS_DELAY" tU16 aRW 0), (3, .num "BUS_LEAD" tU32 aRWE 400000 8000 4000000)]⟩ ]

/-- Ports, encoders, strikes, field pins, events. -/
def familiesPorts : List Family :=
  [ ⟨0x3000, 16, 0x100, [(1, .flag "EN" aRW 0), (2, .num "VER_MAX" tU8 aRW 2 1 2), (3, .num "LANES_MAX" tU8 aRW 2 0 2), (4, .num "RATE_MAX" tU8 aRW 3 0 3)
    , (5, .num "PEAK" tU8 aRW 12 0 31), (6, .num "DL_SWING" tU8 aRW 8 0 15), (7, .num "DLC_SWING" tU8 aRW 8 0 15)]⟩
  , ⟨0x3001, 16, 0x100, [(1, .full "WIDTH" tU16 aRWE 0), (2, .full "HEIGHT" tU16 aRWE 0), (3, .num "FORMAT" tU8 aRWE 2 0 4)
    , (4, { Obj.num "GANG" tU8 aRWE 1 1 2 with also := [4] })]⟩
  , ⟨0x3002, 16, 0x100, [(1, .num "INTERVAL" tU16 aRW 100 10 10000), (2, .full "ASYM" tI32 aRW 0), (3, .read "D" tU32), (4, .read "RANGED" tBool)]⟩
  , ⟨0x3003, 16, 0x100, [(1, .bytes "CAPS" tBlob aRO 24), (2, .bytes "STATUS" tBlob aRO 20), (3, .read "STATE" tU8)]⟩
  , ⟨0x3004, 16, 0x100, [(1, .num "DIV" tU32 aRWE 1 1 65536), (2, .full "SEL" tU16 aRWE 0), (3, .full "PHASE" tU32 aRWE 0)]⟩
  , ⟨0x4000, 4, 1, [(1, .flag "EN" aRW 0), (2, .flag "DIR" aRW 0), (3, .flag "AUTO_CORR" aRW 1), (4, .flag "TERM" aRW 1), (5, .flag "BIAS" aRW 1)
    , (6, .flag "IDX_EN" aRW 0), (7, .num "NOMINAL" tU32 aRW 0 0 0xFFFFFF), (8, .full "TOL" tU8 aRW 0), (9, .num "SPD_K" tU8 aRW 12 4 20)
    , (10, .num "STILL" tU32 aRW 10000 1 60000000)]⟩
  , ⟨0x5000, 64, 1, [(1, .num "KIND" tU8 aRW 0 0 1), (2, .num "ENC" tU8 aRW 0 0 3), (3, .num "DIR" tU8 aRW 0 0 2), (4, .flag "FIRE_LATE" aRW 0)
    , (5, .flag "REPEAT" aRW 0), (6, .flag "TICK" aRW 0), (7, .full "TGT" tU64 aRW 0), (8, .num "STEP" tI64 aRW 0 (-2147483648) 4294967295)
    , (9, .full "PARAM" tU32 aRW 100), (10, .full "COUNT" tU32 aRW 0)]⟩
  , ⟨0x5040, 16, 1, [(1, .num "MODE" tU8 aRW 0 0 2), (2, .num "EDGE" tU8 aRW 0 0 2), (3, .num "THR" tU8 aRW 25 10 150), (4, .full "FILT" tU8 aRW 0)
    , (5, .num "STUCK_T" tU32 aRW 0 0 60000000), (6, .num "PULSE_W" tU32 aRW 4000 80 (2 ^ 32 - 1))]⟩
  , ⟨0x5080, 128, 1, [(1, .flag "EN" aRW 0), (2, .full "SRC" tU8 aRW 0), (3, .num "TASK" tU16 aRW 0 0 0x1FF)]⟩
  , ⟨0x5100, 8, 1, [(1, .num "DELAY" tU32 aRW 4000 8 (2 ^ 32 - 1))]⟩
  , ⟨0x5110, 1, 1, [(1, .full "ARM" tU64 aWO 0), (2, .full "DISARM" tU64 aWO 0)]⟩ ]

/-- The kernel sets (R198). -/
def kernelObjs : List (Nat × Obj) :=
  [ (1, .num "OUTPUTS" tU8 aRWE 1 0 31), (2, { Obj.num "A_BITS" tU8 aRWE 16 8 16 with step := 2 }), (3, .num "A_SRC" tU8 aRWE 0 0 1)
  , (4, { Obj.num "ROI_X" tU16 aRWE 0 0 65535 with step := 32 }), (5, .num "ROI_Y" tU16 aRWE 0 0 65534), (6, .num "ROI_W" tU16 aRWE 0 0 16384)
  , (7, .full "ROI_H" tU16 aRWE 0), (8, .num "CAL_KIND" tU8 aRWE 0 0 2), (9, { Obj.num "CAL_ADDR" tU64 aRWE 0 0 0x2F_FFFF_FFFF with step := 64 })
  , (10, .num "DEFECT" tU8 aRWE 0 0 3), (11, .bytes "COL_DARK" tBlob aRWE 32768), (12, .bytes "COL_GAIN" tBlob aRWE 32768) ]
  ++ [ (13, .num "PEDESTAL" tU16 aRWE 0 0 4095), (14, .num "BIN_X" tU8 aRWE 1 1 8), (15, .num "BIN_Y" tU8 aRWE 1 1 8), (16, .num "BIN_OP" tU8 aRWE 0 0 1)
  , (17, .num "STAT_SRC" tU8 aRWE 0 0 1), (18, { Obj.num "STAT_SH" tU8 aRWE 0xFF 0 15 with also := [0xFF] }), (19, .full "SAT_LEVEL" tU16 aRWE 0)
  , (20, .num "SUR_SRC" tU8 aRWE 0 0 1), (21, { Obj.num "THUMB_SH" tU8 aRWE 0xFF 0 8 with also := [0xFF] }), (22, .full "TALLY_THRESH" tU16 aRWE 256)
  , (23, .num "TALLY_WIN" tU8 aRWE 0 0 1), (24, .num "TALLY_MAX" tU32 aRWE 1048576 1 16777215), (25, .read "COST" tU16), (26, .read "POOL" tU16) ]

/-- Kernel sets, rings, DMA and network. -/
def familiesData : List Family :=
  [ ⟨0x6000, 1, 1, [(1, .read "LIBRARY" tU32)]⟩
  , ⟨0x6100, 16, 1, kernelObjs⟩
  , ⟨0x7000, 64, 1, [(1, .flag "EN" aRWE 0), (2, .num "BASE" tU32 aRWE 0 0 131071), (3, .num "SIZE" tU32 aRWE 0 0 131071), (4, .num "ENT" tU8 aRWE 1 0 15)
    , (5, .num "ROLE" tU8 aRWE 0 0 1), (6, .num "POLICY" tU8 aRWE 0 0 1), (7, .num "GROUP" tU8 aRWE 0 0 7), (8, .num "PRE" tU32 aRWE 0 0 1048575)
    , (9, .num "POST" tU32 aRWE 0 0 1048575), (10, .read "RESERVE" tU16), (11, .read "STATE" tU8)]⟩
  , ⟨0x7100, 16, 1, (List.range 5).map (fun s => (s + 1, ringObj "REC_RING")) ++ (List.range 5).map (fun s => (s + 6, ringObj "STR_RING"))
    ++ [(11, .num "PREVIEW" tU8 aRWE 0 0 31)]⟩
  , ⟨0x7200, 1, 1, [(1, ringObj "OVD_RING")]⟩
  , ⟨0x7300, 1, 1, [(1, .full "COMMIT_GROUPS" tU8 aWO 0), (2, .full "ARM_RINGS" tU64 aWO 0)]⟩
  , ⟨0x8000, 1, 1, [(1, .full "DMA_OWNER" tU32 aRW 0x00FFFFFF), (2, .num "LTR_FRAC" tU8 aRW 8 1 15), (3, .num "LTR_MAX_K" tU8 aRW 30 10 34)]⟩
  , ⟨0x8010, 16, 1, [(1, .num "LEDGER_FORMAT" tU8 aRWE 1 1 2)]⟩
  , ⟨0x9000, 2, 1, [(1, .flag "EN" aRW 0), (2, .num "MAC" tU64 aRW 0 0 (2 ^ 48 - 1)), (3, .full "IPV4" tU32 aRW 0), (4, .num "PREFIX4" tU8 aRW 24 1 32)
    , (5, .bytes "IPV6" tBlob aRW 16), (6, .num "PREFIX6" tU8 aRW 64 1 128), (7, .full "GATEWAY4" tU32 aRW 0), (8, .bytes "GATEWAY6" tBlob aRW 16)
    , (9, .read "LINK" tU8)]⟩
  , ⟨0x9010, 1, 1, [(1, .num "SESSION_TMO" tU16 aRW 30 5 3600)]⟩
  , ⟨0x9020, 1, 1, [(1, .num "PROFILE" tU8 aRW 0 0 1), (2, .num "DOMAIN" tU8 aRW 0 0 127), (3, .num "PORT" tU8 aRW 0 0 1), (4, .num "TRANSPORT" tU8 aRW 0 0 2)]⟩ ]

/-- Security, faults, statistics and the expert area. -/
def familiesService : List Family :=
  [ ⟨0xA010, 1, 1, [(1, .full "IMAGE_ADDR" tU64 aRW 0), (2, .full "IMAGE_LEN" tU32 aRW 0), (3, .num "UPDATE" tU32 aWO 0 0x74647075 0x74647075)
    , (4, .read "UPDATE_STATE" tU8)]⟩
  , ⟨0xA020, 1, 1, [(1, .bytes "NONCE" tBlob aWO 32), (2, .bytes "REPORT" tBlob aRO 5461), (3, .bytes "IDENTITY_KEY" tBlob aRO 1952)
    , (4, .bytes "CERTIFICATE" tBlob aRO 5269)]⟩
  , ⟨0xA030, 1, 1, [(1, .num "CAM_POLICY" tU8 aRW 0 0 2)]⟩
  , ⟨0xA031, 8, 1, [(1, .full "MAKER_ID" tU32 aRW 0), (2, .bytes "MAKER_KEY" tBlob aRW 1312)]⟩
  , ⟨0xA040, 16, 1, [(1, .read "CAM_ID_RESULT" tU8)]⟩
  , ⟨0xB000, 1, 1, [(1, .bytes "FAULT_LOG" tBlob aRO 65536), (2, .read "LOG_COUNT" tU32)]⟩
  , ⟨0xB010, 1, 1, [(1, .read "SAFE_CAUSE" tU8)]⟩
  , ⟨0xB020, 1, 1, [(1, .flag "RESTORE_MODE" aRW 0), (2, .read "RESTORE_RESULT" tU8)]⟩ ]
  ++ [ ⟨0xB101, 7, 1, [(1, .read "TRANSIENT" tU64), (2, .read "LASTING" tU64)]⟩
  , ⟨0xB110, 16, 1, [(1, .read "TRANSIENT" tU64), (2, .read "LASTING" tU64)]⟩
  , ⟨0xB120, 10, 0x10, [(1, .read "TRANSIENT" tU64), (2, .read "LASTING" tU64)]⟩
  , ⟨0xE000, 1, 1, [(1, { Obj.num "ADDR" tU32 aRW 0 0 0x1FFFFFF with step := 4, expert := true }), (2, { Obj.full "DATA" tU32 aRW 0 with expert := true })]⟩
  , ⟨0xE010, 4, 1, [(1, { Obj.num "ENC_RES" tU8 aRW 0 0 1 with expert := true })]⟩ ]

def families : List Family := familiesDevice ++ familiesPorts ++ familiesData ++ familiesService

/-- The family of an index and the index's place in it. -/
def familyOf (i : Nat) : Option (Family × Nat) :=
  (families.find? fun f => f.base ≤ i && (i - f.base) % f.stride = 0 && (i - f.base) / f.stride < f.count).map
    fun f => (f, (i - f.base) / f.stride)

/-- The highest subindex of a family (R384). -/
def Family.top (f : Family) : Nat := f.objs.foldl (fun n o => Nat.max n o.1) 0

/-- An object by index and subindex; none where it is absent (R384, R388). -/
def objAt (i s : Nat) : Option Obj :=
  (familyOf i).bind fun f => if s = 0 then some { Obj.read "" tU8 with acc := aConst } else (f.1.objs.find? (·.1 = s)).map (·.2)

/-- The key of an object in the table of values. -/
def objKey (i s : Nat) : Nat := 256 * i + s

/-- Every object's key, ascending. -/
def allKeys : List Nat :=
  (families.flatMap fun f => (List.range f.count).flatMap fun k => f.objs.map fun o => objKey (f.base + k * f.stride) o.1).mergeSort (· ≤ ·)

/-- The default of an object by key (R388, R402). -/
def dictReset (k : Nat) : List Byte :=
  match objAt (k / 256) (k % 256) with
  | none => []
  | some o =>
    if o.isBytes then []
    else if k = objKey 0x9000 2 || k = objKey 0x9001 2 then le 8 (fusedMac (k / 256 - 0x9000))
    else o.ofInt o.dflt

/-- Limits that a range does not give (R376, R364, R402): event sources and tasks that exist, the layout of PARAM, no group address. -/
def extraOk (i s v : Nat) : Bool :=
  if 0x5080 ≤ i && i < 0x5100 then (if s = 2 then sourceOk v else if s = 3 then taskOk v else true)
  else if 0x5000 ≤ i && i < 0x5040 && s = 9 then between 1 1000 (v % 1024) && slice v 10 6 = 0
  else if (i = 0x9000 || i = 0x9001) && s = 2 then !bit v 40
  else true

/-- The lengths that a STR or BLOB may have beside its maximum: an address 0 or 16 bytes, a maker key 0 or 1,312 (R402, R438). -/
def lengthOk (i s len : Nat) : Bool :=
  if (i = 0x9000 || i = 0x9001) && (s = 5 || s = 8) then len = 0 || len = 16
  else if 0xA031 ≤ i && i < 0xA039 && s = 2 then len = 0 || len = 1312
  else true

/-- ASCII bytes. -/
def ascii (s : String) : List Byte := s.toList.map fun c => BitVec.ofNat 8 c.toNat

namespace Dev

/-! ### Values -/

/-- The value the dictionary last applied for an RW or RWE object (R387). -/
def applied (d : Dev) (i s : Nat) : List Byte := Tab.get dictReset d.mgt.dict (objKey i s)
def appliedNum (d : Dev) (i s : Nat) : Nat := fromLe (d.applied i s)
def setApplied (d : Dev) (i s : Nat) (l : List Byte) : Dev :=
  d.setMgt fun m => { m with dict := Tab.set dictReset m.dict (objKey i s) l }

/-- The management core that is active, as a requester (R40, R422). -/
def manager (d : Dev) : Requester := if d.is MGT_ROLE.ACTIVE then .mcb else .mca

/-- Transient faults counted for a block (R417, 0xB100 + b). -/
def transientCount (d : Dev) (b : Nat) : Nat :=
  if b = idCHT then d.get64 CHT_TRANSIENT_CNT.addr
  else if b = idVLT then d.get64 VLT_TRANSIENT_CNT.addr
  else if b = idCLR then d.get64 CLR_TRANSIENT_CNT.addr
  else if b = idDMA then d.get64 DMA_TRANSIENT_CNT.addr
  else if b = idHEP then d.mgt.hepTransient
  else Tab.get (fun _ => 0) d.mgt.transients b

/-- The live value of a CONST or RO object. -/
def live (d : Dev) (i s : Nat) : List Byte :=
  let m := d.mgt
  let p := (i - 0x3000) / 0x100
  if s = 0 then le 1 (((familyOf i).map fun f => f.1.top).getD 0)
  else if i = 0x1000 then
    match s with | 1 => ascii "Zianda" | 2 => ascii "Dweyth 1680" | 3 => ascii "ZD-DWY-1680" | _ => le 8 Config.serial.toNat
  else if i = 0x1001 then if s = 1 then le 4 m.image.version else le 2 0x0101
  else if i = 0x1020 then
    match s with
    | 1 => le 1 (m.key.holder.getD 0xFF)
    | 2 => le 1 m.key.prio
    | 3 => le 4 m.key.epoch
    | 4 => le 2 (m.sessions.foldl (fun n e => n ||| 2 ^ e.1) 0)
    | _ => le 2 (m.key.claims.foldl (fun n c => n ||| 2 ^ c.session) 0)
  else if i = 0x2000 then le 1 (if s = 2 then d.mode else d.get DCT_MODE.BASE)
  else if i = 0x2002 then
    match s with | 3 => le 8 (d.get64 CAD_DOMAIN_OFF.addr) | 4 => le 8 d.time | _ => le 8 (d.get64 CAD_TICK.addr)
  else if 0x3000 ≤ i && i < 0x4000 then
    if i % 0x100 = 2 then (if s = 3 then le 4 (d.get (AVP_RANGE_D.D p)) else le 1 (d.get (AVP_RANGE_STAT.RANGED p)))
    else match s with
      | 1 => (List.range 6).flatMap fun w => le 4 (d.reg (AVP_CAM_CAPS.addr p w)).toNat
      | 2 => (List.range 5).flatMap fun w => le 4 (d.reg (AVP_CAM_STATUS.addr p w)).toNat
      | _ => le 1 (d.portState p)
  else if i = 0x6000 then le 4 (Config.libraryVersion m.image.version).toNat
  else if 0x6100 ≤ i && i < 0x6110 then
    let k := i - 0x6100
    match (d.column k).kernel with
    | none => le 2 (Config.openValue d.fresh 0)
    | some ks =>
      if s = 25 then le 2 ks.cost
      else le 2 (d.forceGet (CHT_ASSIGN.NROW k) + d.forceGet (CHT_ASSIGN.MODE k) * 2 ^ 8 + d.forceGet (CHT_RECIPE.CTXB k) * 2 ^ 10
        + d.forceGet (CHT_RECIPE.CTXA k) * 2 ^ 13)
  else if 0x7000 ≤ i && i < 0x7040 then
    let r := i - 0x7000
    if s = 10 then le 2 (d.forceGet (VLT_RING_TRIG.RESERVE r)) else le 1 (d.ring r).code
  else if i = 0x9000 || i = 0x9001 then le 1 (d.get (NET_PORT_STAT.RATE (i - 0x9000)))
  else if i = 0xA010 then le 1 (d.get MGT_ROLE.UPDATE)
  else if i = 0xA020 then
    match s with
    | 2 => m.attest.report
    | 3 => (List.range 1952).map Config.identityKey
    | _ => (List.range 5269).map fun j => if j < 8 then (le 8 Config.serial.toNat).getD j 0
        else if j < 1960 then Config.identityKey (j - 8) else Config.certificate (j - 1960)
  else if 0xA040 ≤ i && i < 0xA050 then le 1 (Tab.get (fun _ => 0) m.cameras (i - 0xA040))
  else if i = 0xB000 then if s = 1 then (m.faultLog.drop (m.faultLog.length - 2048)).flatten else le 4 m.logCount
  else if i = 0xB010 then le 1 m.safeCause
  else if i = 0xB020 then le 1 m.restore
  else if s = 1 then le 8 (d.transientCount (i - 0xB100)) else le 8 (Tab.get (fun _ => 0) m.lasting (i - 0xB100))

/-- The fields of registers an RW or RWE object maps to, with their values (R388); `v` is its value as an unsigned number. The
encoder, strike, pin and event areas, then the staged ones. -/
def objFieldsIo (i s v : Nat) : List (Bits × Nat) :=
  if i < 0x5000 then
    let c := i - 0x4000
    match s with
    | 1 => [(ENC_CH_CTL.EN c, v)] | 2 => [(ENC_CH_CTL.DIR c, v)] | 3 => [(ENC_CH_CTL.AUTO_CORR c, v)] | 4 => [(ENC_CH_CTL.TERM c, v)]
    | 5 => [(ENC_CH_CTL.BIAS c, v)] | 6 => [(ENC_CH_CTL.IDX_EN c, v)] | 7 => [(ENC_CH_CHK.NOMINAL c, v)] | 8 => [(ENC_CH_CHK.TOL c, v)]
    | 9 => [(ENC_CH_CTL.SPD_K c, v)] | _ => [(ENC_CH_STILL.STILL c, v)]
  else if i < 0x5040 then
    let k := i - 0x5000
    match s with
    | 1 => [(STP_SK_CTL.KIND k, v)] | 2 => [(STP_SK_CTL.ENC k, v)] | 3 => [(STP_SK_CTL.DIR k, v)] | 4 => [(STP_SK_CTL.FIRE_LATE k, v)]
    | 5 => [(STP_SK_CTL.REPEAT k, v)] | 6 => [(STP_SK_CTL.TICK k, v)] | 7 => [(STP_SK_TGT_LO.TGT k, v), (STP_SK_TGT_HI.TGT k, v / 2 ^ 32)]
    | 8 => [(STP_SK_STEP.STEP k, v)] | 9 => [(STP_SK_PARAM.TOL k, v / 2 ^ 16), (STP_SK_PARAM.LEAD k, v)] | _ => [(STP_SK_COUNT.COUNT k, v)]
  else if i < 0x5080 then
    let p := i - 0x5040
    match s with
    | 1 => [(FIO_PIN_CTL.MODE p, v)] | 2 => [(FIO_PIN_CTL.EDGE p, v)] | 3 => [(FIO_PIN_CTL.THR p, v)] | 4 => [(FIO_PIN_CTL.FILT p, v)]
    | 5 => [(FIO_PIN_STUCK.STUCK_T p, v)] | _ => [(FIO_PIN_PULSE.PULSE_W p, v)]
  else if i < 0x5100 then
    let e := i - 0x5080
    match s with | 1 => [(EVR_CH.EN e, v)] | 2 => [(EVR_CH.SRC e, v)] | _ => [(EVR_CH.TASK e, v)]
  else if i < 0x5110 then [(EVR_DLY.DELAY (i - 0x5100), v)]
  else []

/-- Fields of ports (R388); LANES_MAX and the rest map field for field, GANG 1, 2, 4 onto SIZE 0, 1, 2, PEAK onto all four lanes, DIV
65,536 onto 0. -/
def objFieldsPort (i s v : Nat) : List (Bits × Nat) :=
  let p := (i - 0x3000) / 0x100
  match i % 0x100 with
  | 0 =>
    match s with
    | 1 => [(AVP_PORT_CTL.EN p, v)] | 2 => [(AVP_PORT_CFG.VER_MAX p, v)] | 3 => [(AVP_PORT_CFG.LANES_MAX p, v)]
    | 4 => [(AVP_PORT_CFG.RATE_MAX p, v)] | 5 => (List.range 4).map fun l => (AVP_LANE_CTL.PEAK p l, v)
    | 6 => [(AVP_TX_CTL.DL_SWING p, v)] | _ => [(AVP_TX_CTL.DLC_SWING p, v)]
  | 1 =>
    match s with
    | 1 => [(AVP_GEOM_W.WIDTH p, v)] | 2 => [(AVP_GEOM_H.HEIGHT p, v)] | 3 => [(AVP_GEOM_W.FORMAT p, v)] | _ => [(AVP_GANG_CFG.SIZE p, v / 2)]
  | 2 => if s = 1 then [(AVP_RANGE_CTL.INTERVAL p, v)] else [(AVP_RANGE_ASYM.ASYM p, v)]
  | _ =>
    match s with | 1 => [(CAD_PORT.DIV p, v)] | 2 => [(CAD_PORT.SEL p, v)] | _ => [(CAD_PHASE.PHASE p, v)]

/-- Fields of rings and bindings (R388): a ring number sets its enable, 0xFF clears it. -/
def objFieldsRing (i s v : Nat) : List (Bits × Nat) :=
  if i < 0x7040 then
    let r := i - 0x7000
    match s with
    | 1 => [(VLT_RING_CFG.EN r, v)] | 2 => [(VLT_RING_BASE.BASE r, v)] | 3 => [(VLT_RING_SIZE.SIZE r, v)] | 4 => [(VLT_RING_SIZE.ENT r, v)]
    | 5 => [(VLT_RING_CFG.ROLE r, v)] | 6 => [(VLT_RING_CFG.POLICY r, v)] | 7 => [(VLT_RING_CFG.GROUP r, v)] | 8 => [(VLT_RING_CFG.PRE r, v)]
    | _ => [(VLT_RING_TRIG.POST r, v)]
  else if i < 0x7110 then
    let b := 5 * (i - 0x7100)
    if s ≤ 5 then
      if v = 0xFF then [(VLT_BIND.REC_EN (b + (s - 1)), 0)] else [(VLT_BIND.REC_RING (b + (s - 1)), v), (VLT_BIND.REC_EN (b + (s - 1)), 1)]
    else if s ≤ 10 then
      if v = 0xFF then [(VLT_BIND.STR_EN (b + (s - 6)), 0)] else [(VLT_BIND.STR_RING (b + (s - 6)), v), (VLT_BIND.STR_EN (b + (s - 6)), 1)]
    else (List.range 5).map fun j => (VLT_BIND.PREVIEW (b + j), ofBool (bit v j))
  else if i = 0x7200 then (if v = 0xFF then [(VLT_OVD.EN, 0)] else [(VLT_OVD.RING, v), (VLT_OVD.EN, 1)])
  else []

def objFields (i s v : Nat) : List (Bits × Nat) :=
  if i = 0x2000 then (if s = 1 then [(DCT_MODE.NEXT, v)] else [(DCT_DRAIN_LIMIT.LIMIT, v)])
  else if i = 0x2001 then
    match s with
    | 1 => [(CAD_CTL.SRC, v)] | 2 => [(CAD_PERIOD.PERIOD, v)] | 3 => [(CAD_CTL.DEPTH, v)] | 4 => [(CAD_SCHED_LEAD.LEAD, v)]
    | _ => [(CAD_START.LO, v), (CAD_START_HI.HI, v / 2 ^ 32)]
  else if i = 0x2002 then (if s = 1 then [(CAD_TIME_CTL.DISC, v)] else [(CAD_TRIM.RATE, v)])
  else if i = 0x2003 then
    match s with | 1 => [(CAD_CTL.BUS_ROLE, v)] | 2 => [(CAD_BUS_DELAY.DELAY, v)] | _ => [(CAD_BUS_LEAD.LEAD, v)]
  else if 0x3000 ≤ i && i < 0x4000 then objFieldsPort i s v
  else if 0x4000 ≤ i && i < 0x5110 then objFieldsIo i s v
  else if 0x7000 ≤ i && i < 0x7300 then objFieldsRing i s v
  else if i = 0x8000 then
    match s with | 1 => [(DMA_OWNER.OWNER, v)] | 2 => [(HEP_LTR_CTL.FRAC, v)] | _ => [(HEP_LTR_CTL.MAX_K, v)]
  else if 0x8010 ≤ i && i < 0x8020 then [(CLR_COL_CFG.FMT (i - 0x8010), v)]
  else if i = 0x9000 || i = 0x9001 then
    let n := i - 0x9000
    match s with | 1 => [(NET_PORT_CTL.EN n, v)] | 2 => [(NET_MAC_LO.MAC n, v), (NET_MAC_HI.MAC n, v / 2 ^ 32)] | _ => []
  else if i = 0xA030 then [(SEC_CFG.CAM_POLICY, v)]
  else if 0xE010 ≤ i && i < 0xE014 then [(ENC_CH_CTL.RES (i - 0xE010), v)]
  else []

/-- Writing the registers an object maps to, as the active core. -/
def mapObject (d : Dev) (i s v : Nat) : Dev := d.forEach (objFields i s v) fun f d => d.fieldWrite d.manager f.1 f.2

end Dev
end Sys2Proof.Machine
end

