-- ==== Sys2Proof/Machine/Security.lean ====
section
/-! DEFINITION. Image verification, live update, attestation, fuses, camera identity, the parameter store and temperature (chapters 15,
16): what a write of an object starts and how it ends. -/

namespace Sys2Proof.Machine

/-- The number of bytes of an image header (R432). -/
def headerSize : Nat := 0x2000

/-- What an image's header tells (R432). -/
def ImageInfo.ofHeader (l : List Byte) : ImageInfo :=
  { version := field l 8 4, svn := field l 6 2, journal := field l 16 2, keySlot := field l 18 1 % 4, digest := (l.drop 32).take 32 }

/-- The length of an image's body by its header, the body, and the vendor's public key (R432). -/
def bodyLength (l : List Byte) : Nat := field l 12 4
def imageBody (l : List Byte) : List Byte := (l.drop headerSize).take (bodyLength l)
def imageKey (l : List Byte) : List Byte := (l.drop 64).take 1952

/-! ### The sets of the parameter store (R428, R429) -/

namespace Stored

/-- The CRC-32C of a set over its sequence number and its bytes. DESIGN CHOICE: the spec gives no layout of a set (log entry 110). -/
def crcOf {α : Type} (bytes : α → List Byte) (seq : Nat) (v : α) : Word := crc32c (le 8 seq ++ bytes v)
def valid {α : Type} (bytes : α → List Byte) (c : Stored α) : Bool := c.crc = crcOf bytes c.seq c.value

end Stored

/-- The valid copy with the higher sequence number. -/
def newest {α : Type} (bytes : α → List Byte) (l : Copies α) : Option (Stored α) :=
  match l.one.filter (·.valid bytes), l.two.filter (·.valid bytes) with
  | some a, some b => some (if a.seq < b.seq then b else a)
  | some a, none => some a
  | none, o => o

/-- Writing a set over the older copy; one that is not valid is the older. -/
def writeCopy {α : Type} (bytes : α → List Byte) (l : Copies α) (v : α) : Copies α :=
  let seq := match newest bytes l with | some c => (c.seq + 1) % 2 ^ 64 | none => 0
  let c : Stored α := ⟨seq, v, Stored.crcOf bytes seq v⟩
  match l.one.filter (·.valid bytes), l.two.filter (·.valid bytes) with
  | none, _ => ⟨some c, l.two⟩
  | some a, some b => if a.seq < b.seq then ⟨some c, l.two⟩ else ⟨l.one, some c⟩
  | some _, none => ⟨l.one, some c⟩

/-- What a read of the copies finds at boot: `ok` tells of each whether the MRAM still holds what was written; the CRC of one that it does not
hold no longer matches. -/
def readCopies {α : Type} (ok : Bool × Bool) (l : Copies α) : Copies α :=
  let spoil := fun (b : Bool) (o : Option (Stored α)) => o.map fun c => if b then c else { c with crc := ~~~c.crc }
  ⟨spoil ok.1 l.one, spoil ok.2 l.two⟩

/-- The bytes of the boot control, and of the saved parameters. -/
def controlBytes (v : Nat × Nat) : List Byte := le 1 v.1 ++ le 4 v.2
def savedBytes (l : List (Nat × List Byte)) : List Byte := l.flatMap fun e => le 3 e.1 ++ le 4 e.2.length ++ e.2

/-- The saved values that are valid. -/
def MgtState.savedSet (m : MgtState) : Option (List (Nat × List Byte)) := (newest savedBytes m.mram.saved).map (·.value)

namespace Dev

/-! ### Image verification (R432, R433) -/

/-- The fused SVN. -/
def fusedSvn (d : Dev) : Nat := d.get SEC_STAT.SVN

/-- What a verification of an image's bytes finds (R432): 1 digest, 2 key hash, 3 revoked, 4 signature, 5 an SVN below the fused counter, 0
that all checks hold. `sigOk` tells whether the ML-DSA-65 signature verifies. DEDUCED: D cannot match where the bytes do not hold the whole body
(log entry 111). -/
def imageCheck (d : Dev) (l : List Byte) (sigOk : Bool) : Nat :=
  let img := ImageInfo.ofHeader l
  if l.length < headerSize + bodyLength l || sha3 (l.take 32 ++ imageBody l) != img.digest then 1
  else if some (sha3 (imageKey l)) != d.mgt.fuses.keys[img.keySlot]? then 2
  else if d.mgt.fuses.revoked[img.keySlot]? != some false then 3
  else if !sigOk then 4
  else if img.svn < d.fusedSvn then 5
  else 0

/-- A new boot control, preferred slot and boot count, in use and in the MRAM (R428, R429). -/
def setControl (d : Dev) (slot count : Nat) : Dev :=
  d.setMgt fun m => { m with
    preferred := slot, bootCount := count, mram := { m.mram with control := writeCopy controlBytes m.mram.control (slot, count) } }

/-- Counting a verification; a failure is counted, flagged and pushed with its slot and check (R432, R441). -/
def verified (d : Dev) (slot check : Nat) : Dev :=
  let d := d.count SEC_VERIFY_CNT.addr
  d.when (check != 0) fun d =>
    ((d.count SEC_VERIFY_FAIL_CNT.addr).set1 SEC_FLAGS.VERIFY_FAIL).notice .alert idSEC 0x010 (check * 16 + slot)

/-- Raising the fused SVN, a thermometer of 64 fuse bits: it never falls, and each raise pushes SVN_RAISED (R433). An image whose SVN
is above 64 blows all 64 (log entry 41). -/
def raiseSvn (d : Dev) (svn : Nat) : Dev :=
  let n := Nat.min 64 svn
  d.when (d.fusedSvn < n) fun d => (d.put SEC_STAT.SVN n).notice .event idSEC 0x011 n

/-! ### Live update (R426, R427) -/

/-- A refused or failed update: state 5 and UPDATE_FAILED. -/
def updateFailed (d : Dev) (reason : Nat) : Dev := (d.put MGT_ROLE.UPDATE 5).notice .alert idMGT 0x026 reason

/-- A state of the update in progress. -/
def updatePhase (d : Dev) (n : Nat) : Dev :=
  (d.put MGT_ROLE.UPDATE n).setMgt fun m => { m with update := m.update.map fun u => { u with phase := n, since := d.time } }

/-- The update in progress fails. -/
def updateEnds (d : Dev) (reason : Nat) : Dev := (d.setMgt fun m => { m with update := none }).updateFailed reason

/-- The running image and the other one change places (R427): at the takeover, and where the old core resumes. -/
def swapImages (d : Dev) : Dev :=
  d.setMgt fun m => match m.update with
    | some u => { m with image := u.image, update := some { u with image := m.image } }
    | none => m

/-- The other core becomes active. -/
def switchCore (d : Dev) : Dev := d.put MGT_ROLE.ACTIVE (1 - d.get MGT_ROLE.ACTIVE)

/-- FIRMWARE_UPDATE: a write of 0xA010:03, refused for the reasons that can be seen at once (R426). -/
def updateStart (d : Dev) : Dev :=
  let addr := d.appliedNum 0xA010 1
  let len := d.appliedNum 0xA010 2
  if 32 * 2 ^ 20 < len || vaultSize < addr + len then d.updateFailed 4
  else if d.mgt.update.isSome then d.updateFailed 7
  else if !d.is MGT_ROLE.STBY_OK then d.updateFailed 6
  else
    (d.put MGT_ROLE.UPDATE 1).setMgt fun m => { m with
      update := some { addr := addr, len := len, image := ImageInfo.reset, since := d.time, old := d.get MGT_ROLE.ACTIVE, phase := 1 } }

/-- Whether an update is in a state. -/
def inPhase (d : Dev) (n : Nat) : Bool := (d.mgt.update.map (·.phase)) = some n

/-- UPDATE_VERIFY_DONE: the checks of R426 on the image in the vault; the standby core is then reset and boots it. What
VERIFY_FAILED says as the slot of an image that lies in none is open. Where the core's reads of the image are answered with an error (R16, R245)
its digest cannot match (log entry 111). -/
def updateVerified (d : Dev) (m : Vault) (sigOk : Bool) : Dev :=
  match d.mgt.update with
  | none => d
  | some u =>
    d.when (u.phase = 1) fun d =>
      let l := Vault.read m u.addr u.len
      let img := ImageInfo.ofHeader l
      let check := if d.readsAs .core u.addr u.len then d.imageCheck l sigOk else 1
      let d := if check = 0 then d.verified 0 0 else (d.verified (Config.openValue d.fresh 0 % 4) check).draw
      if check = 5 then d.updateEnds 2
      else if check != 0 then d.updateEnds 1
      else if img.journal / 256 != d.mgt.image.journal / 256 then d.updateEnds 3
      else
        let d := (d.setMgt fun m => { m with update := m.update.map fun u => { u with image := img } }).updatePhase 2
        (d.unset MGT_ROLE.STBY_OK).notice .event idMGT 0x024 img.version

/-- Whether this is the cycle of a boundary at which a core takes over: a tick's edge while the cadence runs, a multiple of 1 us in STANDBY
(R427). -/
def coreBoundary (d : Dev) : Bool :=
  if d.ticking then d.cad.lastTick.isSome && d.cad.lastTime ≤ d.time && d.time < d.cad.lastTime + 4 else d.time % us 1 < 4

/-- UPDATE_TAKEOVER: not while an escrow is COMMITTING; the old core stops and keeps its image in memory. -/
def updateTakeover (d : Dev) : Dev :=
  d.when (d.inPhase 2 && d.mgt.escrow.state != 2 && d.coreBoundary) fun d => (d.switchCore.swapImages.updatePhase 3).set1 MGT_ROLE.STBY_OK

/-- PROBATION_HEALTHY: within 5 s of the takeover, after 1 s of service; the old core begins to reboot, so there is no standby. -/
def probationHealthy (d : Dev) : Dev :=
  match d.mgt.update with
  | none => d
  | some u =>
    d.when (u.phase = 3 && u.since + ms 1000 ≤ d.time && d.time ≤ u.since + ms 5000) fun d => (d.updatePhase 4).unset MGT_ROLE.STBY_OK

/-- PROBATION_TIMEOUT: the old core resumes from the journal, at a boundary. -/
def probationTimeout (d : Dev) : Dev :=
  match d.mgt.update with
  | none => d
  | some u =>
    d.when (u.phase = 3 && u.since + ms 5000 ≤ d.time && d.coreBoundary) fun d => (d.switchCore.swapImages.updateEnds 5).unset MGT_ROLE.STBY_OK

/-- The slot that holds the running image: the boot slot, or after an update the preferred one. -/
def runningSlot (d : Dev) : Nat := if d.get64 MGT_UPDATE_CNT.addr = 0 then d.get SEC_STAT.SLOT else d.mgt.preferred

/-- FLASH_COMMIT_DONE: the inactive slot is written and verified, or the write failed. -/
def flashCommitDone (d : Dev) (ok : Bool) : Dev :=
  d.when (d.inPhase 4) fun d =>
    let img := d.mgt.image
    let d := d.when ok fun d =>
      ((d.setControl (1 - d.runningSlot) d.mgt.bootCount).raiseSvn img.svn).count MGT_UPDATE_CNT.addr
    let d := (d.put MGT_ROLE.UPDATE 0).setMgt fun m => { m with update := none }
    d.notice .event idMGT 0x025 ((if ok then 0 else 2 ^ 31) + img.svn)

/-! ### Attestation (R436) -/

/-- The measurements (R436): M1 over the values at the last commit landing. -/
def measure1 (d : Dev) : List Byte :=
  let l := allKeys.filter fun k => match objAt (k / 256) (k % 256) with
    | some o => o.acc = aRW || o.acc = aRWE
    | none => false
  sha3 (l.flatMap fun k => Tab.get dictReset d.mgt.attest.values k)
def boardWord (d : Dev) : Nat := (d.mgt.fuses.board.getD 0).toNat
def measure2 (d : Dev) : List Byte := sha3 (le 4 (d.reg DCT_LOCK.addr).toNat ++ le 4 (d.reg SEC_STAT.addr).toNat ++ le 4 d.boardWord)
def measure3 (d : Dev) : List Byte := sha3 ((List.range 16).flatMap fun p => le 1 (Tab.get (fun _ => 0) d.mgt.cameras p))

/-- The report (R436). -/
def attestReport (d : Dev) (nonce : List Byte) : List Byte :=
  let head := ascii "ZDAT" ++ le 2 1 ++ le 2 5461 ++ le 8 Config.serial.toNat ++ le 8 d.time ++ nonce ++ le 2 d.fusedSvn
    ++ le 2 d.mgt.image.svn ++ le 4 d.mgt.image.version ++ le 1 ((d.reg DCT_LOCK.addr).toNat % 64) ++ le 1 1
    ++ le 1 (d.get SEC_STAT.KEY_SLOT) ++ le 1 d.mode ++ le 4 0
    ++ d.mgt.image.digest ++ d.measure1 ++ d.measure2 ++ d.measure3
  let body := head ++ (List.range 1952).map Config.identityKey
  body ++ (List.range 3309).map (Config.signature body)

def setAttest (d : Dev) (f : Attest → Attest) : Dev := d.setMgt fun m => { m with attest := f m.attest }

/-- ATTEST_REQUEST: a nonce of 32 bytes waits for its report; a later one is served after it (R440). -/
def attestRequest (d : Dev) (nonce : List Byte) : Dev :=
  d.when (nonce.length = 32) fun d => d.setAttest fun a => { a with
    nonces := a.nonces ++ [nonce], since := if a.nonces.isEmpty then d.time else a.since }

/-- ATTEST_REPORT_DONE. -/
def attestDone (d : Dev) : Dev :=
  match d.mgt.attest.nonces with
  | [] => d
  | n :: rest =>
    let r := d.attestReport n
    let d := d.setAttest fun a => { a with nonces := rest, report := r, since := d.time }
    (d.count SEC_ATTEST_CNT.addr).notice .info idSEC 0x012 0

/-! ### Fuses (R439) -/

/-- FUSE_BURN_DONE: the word is programmed; it takes effect in the Subsystem IDs at the next PERST_N. -/
def fuseBurnDone (d : Dev) : Dev :=
  match d.mgt.fuses.burning with
  | none => d
  | some (w, _) =>
    let d := (d.setMgt fun m => { m with fuses := { m.fuses with burning := none, board := some w } }).set1 SEC_STAT.BOARD
    (d.set1 SEC_FLAGS.BURN_DONE).notice .event idSEC 0x014 w.toNat

/-! ### Camera identity (R437, R438) -/

/-- What a reading of a camera's identity gives (R437, R438): 1 passed, 2 no blob, 3 field mismatch, 4 signature or key, 5 read failed.
`blob` is what COMMAND read, with ID_LEN; bit j of `sigOk` whether its signature verifies under the key of 0xA031 + j. -/
def cameraVerdict (d : Dev) (p idLen : Nat) (blob : Option (List Byte)) (sigOk : Nat) : Nat :=
  match blob with
  | none => 5
  | some l =>
    if idLen = 0 then 2
    else
      let maker := field l 8 4
      let caps := d.live (0x3003 + 0x100 * p) 1
      if idLen != 2484 || field l 4 2 != 1 || maker != field caps 12 4 || field l 16 8 != field caps 16 8 then 3
      else if (List.range 8).any fun j =>
          (d.applied (0xA031 + j) 2).length = 1312 && d.appliedNum (0xA031 + j) 1 = maker && bit sigOk j then 1
      else 4

/-- CAMERA_ID_CHECK of a gang head that has come UP or DEGRADED (R438). -/
def cameraCheck (d : Dev) (p idLen : Nat) (blob : Option (List Byte)) (sigOk : Nat) : Dev :=
  let policy := d.get SEC_CFG.CAM_POLICY
  d.when ((policy = 1 || policy = 2) && d.headOf p = p && d.portUp p) fun d =>
    let r := d.cameraVerdict p idLen blob sigOk
    let d := d.setMgt fun m => { m with cameras := Tab.set (fun _ => 0) m.cameras p r }
    d.when (r != 1) fun d =>
      let d := d.notice .alert idSEC 0x013 (r * 16 + p)
      d.when (policy = 2) fun d => d.forEach (d.gang p) fun q d => d.fieldWrite d.manager (AVP_PORT_CTL.EN q) 0

/-- PARAMETER_SAVE (R430): every RW and RWE value in force, as the dictionary holds those that differ from their defaults; EN of the ports
whatever it is, since firmware sets one that is not restored (R388). -/
def parameterSave (d : Dev) : Dev :=
  let ports := (List.range 16).map fun p => 0x3000 + 0x100 * p
  let en := fun (e : Nat × List Byte) => ports.any fun i => e.1 = objKey i 1
  let l := d.mgt.dict.filter fun e => !en e && match objAt (e.1 / 256) (e.1 % 256) with
    | some o => o.acc = aRW || o.acc = aRWE
    | none => false
  d.setMgt fun m => { m with mram := { m.mram with
    saved := writeCopy savedBytes m.mram.saved (l ++ ports.map fun i => (objKey i 1, d.applied i 1)) } }

/-! ### Faults of internal queues (R419) -/

/-- The bytes of a list with those of 32-byte beat `n` set to zero. -/
def zeroAt (n : Nat) (l : List Byte) : List Byte := l.mapIdx fun i b => if 32 * n ≤ i && i < 32 * n + 32 then 0 else b

/-- The streams by the places that operands give them. -/
def streamAt (s : Nat) : Stream := [Stream.a, .mint, .tally, .b, .stat].getD s .a

/-- A result and a ledger entry whose data are zero. DESIGN CHOICE: each is one beat of its queue; what tells where it belongs is no data of it
(log entry 52). -/
def zeroResult (r : TellerResult) : TellerResult :=
  { r with bytes := r.bytes.map fun _ => 0, tallies := 0, stats := ⟨0, 0, 0, 0, 0, []⟩, faulted := false }
def zeroEntry (e : Entry) : Entry :=
  { e with kind := 0, flags := 0, frameNo := 0, expose := 0, tick := 0, enc := e.enc.map fun _ => 0, mode := 0, bytesFailed := false }

/-- A beat passed on with its data bytes zero, of a frame where it lies in a queue of frames (R419). -/
def zeroBeat (d : Dev) (frame : Option Nat) (b : BeatPlace) : Dev :=
  match b with
  | .stream s n =>
    d.forEach (List.range 16) fun k d => d.setColumn k fun c => { c with
      queue := c.queue.map fun o => if frame = some o.frame && o.stream = streamAt s then { o with bytes := zeroAt n o.bytes } else o }
  | .line p line n =>
    d.setPk p fun k => { k with
      buffer := k.buffer.map fun l => if l.frame = frame && frame.isSome && l.line = line then { l with data := zeroAt n l.data } else l }
  | .result t =>
    d.forEach (List.range 16) fun k d => d.setColumn k fun c => { c with
      results := c.results.map fun r => if frame = some r.frame && r.teller = t then zeroResult r else r }
  | .entry s =>
    d.setClr fun x => { x with queue := x.queue.map fun e => if frame = some e.frame && e.stream = streamAt s then zeroEntry e else e }
  | .notice i =>
    d.setNtq fun x => { x with input := x.input.mapIdx fun j n => if j = i then { n with code := 0, arg := 0, time := 0 } else n }
  | .packet p i n =>
    d.setPk p fun k => { k with ready := k.ready.mapIdx fun j x => if j = i then { x with body := zeroAt n x.body } else x }

/-- QUEUE_BEAT_PARITY (R417, R419): a beat whose second read is right was a transient fault. Of lasting rows of a queue the first is mapped to
the spare row, a second one is beyond spare capacity (R421). The queue's owner is a block of R12 (R13). -/
def queueParity (d : Dev) (queue block : Nat) (hit : FailedBeat) (o : Retry) : Dev :=
  if !isBlock block then d
  else if o = .transient then d.transient block
  else
  let d := match hit.beat with | some b => d.zeroBeat hit.frame b | none => d
  let d := match hit.frame with | some f => d.markFault f block | none => d
  if d.mgt.rows.contains queue then
    let safe := d.mode = 7
    (d.faultLog block (some (if safe then 7 else 8)) queue (if safe then 0 else 3)).safeEntry 3
  else (d.setMgt fun m => { m with rows := m.rows ++ [queue] }).faultLog block (some 7) queue 0

/-! ### Temperature (R446) -/

/-- The sensors as DCT_TEMP shows them; a die below 0 °C reads 0. -/
def temperatures (d : Dev) (die stack : Int) : Dev := (d.put DCT_TEMP.DIE die.toNat).put DCT_TEMP.STACK stack.toNat

/-- OVERTEMP_ASSERT: the die above 105 °C or a stack above 95 °C. -/
def overtemp (d : Dev) (die stack : Int) : Dev :=
  let d := d.temperatures die stack
  d.when ((105 < die || 95 < stack) && !d.is DCT_TEMP.THERM) fun d =>
    ((d.set1 DCT_TEMP.THERM).set1 DCT_FLAGS.OVERTEMP).emit (.therm true)

/-- OVERTEMP_RELEASE: every sensor 5 °C below its limit. -/
def overtempEnd (d : Dev) (die stack : Int) : Dev :=
  let d := d.temperatures die stack
  d.when (die ≤ 100 && stack ≤ 90 && d.is DCT_TEMP.THERM) fun d => (d.unset DCT_TEMP.THERM).emit (.therm false)

end Dev
end Sys2Proof.Machine
end

