-- ==== Sys2Proof/Machine/Net.lean ====
section
/-! DEFINITION. The Ethernet ports and the PTP port (R63, R401-R405). -/

namespace Sys2Proof.Machine

/-- Bytes as a big-endian number (network order). -/
def fromBe (l : List Byte) : Nat := l.foldl (fun n b => n * 256 + b.toNat) 0

/-- A number as `k` bytes in network order. -/
def be (k n : Nat) : List Byte := (le k n).reverse

namespace Dev

/-! ### Addresses (R401, R402) -/

def netMac (d : Dev) (n : Nat) : Nat := d.get (NET_MAC_LO.MAC n) + d.get (NET_MAC_HI.MAC n) * 2 ^ 32

/-- The IPv4 address of a port; 0 off. -/
def netIp4 (d : Dev) (n : Nat) : Nat := d.appliedNum (0x9000 + n) 3

/-- The global IPv6 address of a port. -/
def netIp6 (d : Dev) (n : Nat) : Option Nat :=
  let l := d.applied (0x9000 + n) 5
  if l.length = 16 then some (fromBe l) else none

/-- The IPv6 link-local address: a modified EUI-64 identifier formed from the MAC address (R401). -/
def netLinkLocal (d : Dev) (n : Nat) : Nat :=
  let m := d.netMac n
  0xFE80 * 2 ^ 112 + ((m / 2 ^ 24) ^^^ 0x020000) * 2 ^ 40 + 0xFFFE * 2 ^ 24 + m % 2 ^ 24

/-- Whether an address is IPv4 (below 2^32, as this model writes addresses) or IPv6 link-local. -/
def isIp4 (a : Nat) : Bool := a < 2 ^ 32
def isLinkLocal (a : Nat) : Bool := a / 2 ^ 118 = 0x3FA

/-- Whether an address is one of a port's own. -/
def netOwn (d : Dev) (n a : Nat) : Bool :=
  if isIp4 a then a != 0 && a = d.netIp4 n else a = d.netLinkLocal n || d.netIp6 n = some a

/-- The port's own address that answers a source address: of its family, and link-local for link-local; 0 where the port has none (R401,
R402). -/
def ownFor (d : Dev) (n a : Nat) : Nat := if isIp4 a then d.netIp4 n else if isLinkLocal a then d.netLinkLocal n else (d.netIp6 n).getD 0

def netOn (d : Dev) (n : Nat) : Bool := d.is (NET_PORT_CTL.EN n)

/-- Sending a datagram from a port: straight inside its prefix, else to the gateway of the family, else it is discarded and
counted. With IPv4 off on the port, nothing of that family goes (R402). -/
def netSend (d : Dev) (n a : Nat) (o : Out) : Dev :=
  let i := 0x9000 + n
  let send := fun (d : Dev) => (d.count (NET_TX_CNT.addr n)).emit o
  let drop := fun (d : Dev) => d.count (NET_TX_DROP_CNT.addr n)
  if !d.netOn n then d
  else if isIp4 a then
    let own := d.netIp4 n
    let k := 32 - d.appliedNum i 4
    if own = 0 then d else if a / 2 ^ k = own / 2 ^ k || d.appliedNum i 7 != 0 then send d else drop d
  else if isLinkLocal a then send d
  else
    let k := 128 - d.appliedNum i 6
    let near := (d.netIp6 n).any fun own => a / 2 ^ k = own / 2 ^ k
    if near || (d.applied i 8).length = 16 then send d else drop d

/-- A frame received at a MAC that is up. -/
def netRx (d : Dev) (n : Nat) (f : Dev → Dev) : Dev := d.when (d.netOn n) fun d => f (d.count (NET_RX_CNT.addr n))

/-- A received frame discarded (R401). -/
def netDrop (d : Dev) (n : Nat) : Dev := d.count (NET_RX_DROP_CNT.addr n)

/-- Firmware takes a received frame; without firmware nobody does. -/
def netTake (d : Dev) (n : Nat) (f : Dev → Dev) : Dev := d.netRx n fun d => if d.mgt.firmware = .running then f d else d.netDrop n

/-- ARP_REQUEST_RECEIVE: the answer carries the port's MAC and IPv4 address and those of the asker. -/
def arpRequest (d : Dev) (n mac ip target : Nat) : Dev :=
  d.netTake n fun d =>
    if isIp4 target && d.netOwn n target then
      (d.count (NET_TX_CNT.addr n)).emit (.ethernet n 1 (be 6 (d.netMac n) ++ be 4 target ++ be 6 mac ++ be 4 ip))
    else d.netDrop n

/-- NEIGHBOR_SOLICITATION_RECEIVE: the answer carries the solicited address and the port's MAC. -/
def neighborSolicit (d : Dev) (n source target : Nat) : Dev :=
  d.netTake n fun d =>
    if !isIp4 target && d.netOwn n target then
      (d.count (NET_TX_CNT.addr n)).emit (.ethernet n 2 (be 16 target ++ be 6 (d.netMac n) ++ be 16 source))
    else d.netDrop n

/-- ECHO_REQUEST_RECEIVE: the answer returns the identifier, sequence number and data of the request. -/
def echoRequest (d : Dev) (n source dest : Nat) (data : List Byte) : Dev :=
  d.netTake n fun d => if d.netOwn n dest then d.netSend n source (.ethernet n 3 data) else d.netDrop n

/-- NET_FRAME_DROP. -/
def frameDrop (d : Dev) (n : Nat) : Dev := d.netRx n (·.netDrop n)

/-- ETH_LINK_CHANGE: a change of the link, up only where the port is enabled and not above SPEED_MAX (R402, R404, R405). -/
def ethLink (d : Dev) (n code : Nat) (lock : Bool) : Dev :=
  if 5 < code || (code != 0 && (!d.netOn n || d.get (NET_PORT_CTL.SPEED_MAX n) < code)) then d
  else
    let changed := d.get (NET_PORT_STAT.RATE n) != code
    let d := (d.put (NET_PORT_STAT.LOCK n) (ofBool lock)).put (NET_PORT_STAT.RATE n) code
    let d := d.put (NET_PORT_STAT.LINK n) (ofBool (code != 0))
    d.when changed fun d => (d.set1 NET_FLAGS.LINK_CHG).notice .event idNET 0x010 (code * 16 + n)

/-! ### The PTP port (R63, R403-R405) -/

def ptpState (d : Dev) : Nat := d.get NET_PTP_STAT.STATE

/-- A change of the PTP port's state. -/
def setPtp (d : Dev) (s : Nat) : Dev :=
  if d.ptpState = s then d
  else ((d.put NET_PTP_STAT.STATE s).set1 NET_FLAGS.PTP_STATE).notice .event idNET 0x011 s

/-- Whether the PTP port has no address of its transport (R403). -/
def ptpFaulty (d : Dev) : Bool :=
  let n := d.appliedNum 0x9020 3
  match d.appliedNum 0x9020 4 with
  | 0 => d.netIp4 n = 0
  | 1 => (d.netIp6 n).isNone
  | _ => false

/-- The PTP port restarts in LISTENING, or stays FAULTY (R403). -/
def ptpRestart (d : Dev) : Dev := (d.put NET_PTP_STAT.PORT (d.appliedNum 0x9020 3)).setPtp (if d.ptpFaulty then 4 else 1)

/-- An address has changed: FAULTY begins or ends. -/
def ptpRecheck (d : Dev) : Dev := if d.ptpFaulty then d.setPtp 4 else d.when (d.ptpState = 4) (·.setPtp 1)

/-- Whether the PTP port runs on Ethernet port `n`. -/
def ptpOn (d : Dev) (n : Nat) : Bool := d.get NET_PTP_STAT.PORT = n && 1 ≤ d.ptpState && d.ptpState ≤ 3



/-- A message the PTP port sends of its own: its kind, domain and transport (R63, R403). -/
def ptpSend (d : Dev) (n kind : Nat) : Dev :=
  (d.count (NET_TX_CNT.addr n)).emit (.ethernet n kind (le 1 (d.appliedNum 0x9020 2) ++ le 1 (d.appliedNum 0x9020 4)))

/-- The end of a message interval: under PROFILE 1 the port sends a Pdelay_Req, under PROFILE 0 a Delay_Req to the master it has (R63,
R403). -/
def ptpInterval (d : Dev) (n : Nat) : Dev :=
  if d.appliedNum 0x9020 1 = 1 then d.ptpSend n 7 else d.when (d.ptpState = 2 || d.ptpState = 3) (·.ptpSend n 6)

/-- PTP_MESSAGE_RECEIVE on Ethernet port `n`, with the domain and the transport the message came in: one of another transport is no frame
for the PTP port, one of another domain comes from a master not selected (R63, R401, R404). -/
def ptpMessage (d : Dev) (n dom transport : Nat) (k : PtpMsg) : Dev :=
  match k with
  | .announceTimeout => d.when (d.mgt.firmware = .running && d.ptpOn n) (·.setPtp 1)
  | .interval => d.when (d.mgt.firmware = .running && d.ptpOn n) (·.ptpInterval n)
  | k => d.netTake n fun d =>
   if !d.ptpOn n || transport != d.appliedNum 0x9020 4 then d.netDrop n
   else if dom != d.appliedNum 0x9020 2 then d.count NET_PTP_DROP_CNT.addr
   else
    match k with
      | .announce gm =>
        let d := d.when (d.get64 NET_PTP_GM.addr != gm.toNat) fun d =>
          ((d.put64 NET_PTP_GM.addr gm.toNat).set1 NET_FLAGS.GM_CHANGE).notice .alert idNET 0x012 (gm.toNat % 2 ^ 32)
        d.when (d.ptpState = 1) (·.setPtp 2)
      | .announceTimeout => d
      | .interval => d
      | .part => d
      | .sync offset domain trim =>
        if d.ptpState != 2 && d.ptpState != 3 then d.count NET_PTP_DROP_CNT.addr
        else
          let d := ((d.count NET_PTP_SYNC_CNT.addr).put64 NET_PTP_OFFSET.addr offset.toNat).setPtp 3
          d.when (d.get CAD_TIME_CTL.DISC = 1) fun d => (d.discOffset domain.toNat).discUpdate trim.toInt
      | .delay mpd => d.put NET_PTP_MPD.MPD (Nat.min (2 ^ 32 - 1) mpd)
      | .pdelayReq =>
        d.when (d.appliedNum 0x9020 1 = 1) fun d => (d.ptpSend n 4).ptpSend n 5
      | .dropped => d.count NET_PTP_DROP_CNT.addr

end Dev
end Sys2Proof.Machine
end

