-- ==== Sys2Proof/Machine/Escrow.lean ====
section
/-! DEFINITION. What the dictionary's writes do (R386-R389) and the commit of an escrow (R412-R414), with the charter of the basic
level (R184, R199, R200). -/

namespace Sys2Proof.Machine

/-- Why a set fails: index, subindex, reason, sub-reason (R413). -/
structure Failure where
  index : Nat
  sub : Nat
  reason : Nat
  detail : Nat
  deriving DecidableEq, Repr

/-- Whether one failure is named before another: ascending index and subindex, then reason. -/
def Failure.before (a b : Failure) : Bool :=
  a.index < b.index || (a.index = b.index && (a.sub < b.sub || (a.sub = b.sub && a.reason < b.reason)))

/-- The failure to report. -/
def Failure.first (l : List Failure) : Option Failure :=
  l.foldl (fun o f => match o with
    | some g => some (if f.before g then f else g)
    | none => some f) none

namespace Dev

/-! ### Writes that act at once (R386) -/

/-- The bits of a number, ascending. -/
def bitsIn (n w : Nat) : List Nat := (List.range w).filter (bit n)

/-- An RW or WO object takes a value: the registers it maps to are written, or its action is carried out. -/
def actObject (d : Dev) (i s : Nat) (l : List Byte) : Dev :=
  let v := fromLe l
  let acc := ((objAt i s).map (·.acc)).getD aConst
  let d := d.when (acc = aRW) (·.setApplied i s l)
  if i = 0x1010 then d.parameterSave
  else if i = 0x5110 then
    d.forEach (bitsIn v 64) fun k d => if s = 1 then d.strikeArm k else d.strikeDisarm k
  else if i = 0x7300 then (if s = 1 then d.commitGroups v else d.forEach (bitsIn v 64) fun r d => d.armRing r)
  else if i = 0x9020 then d.ptpRestart
  else if (i = 0x9000 || i = 0x9001) && (s = 3 || s = 5) then d.ptpRecheck
  else if i = 0xA010 && s = 3 then d.updateStart
  else if i = 0xA020 then
    if l.length = 32 then (d.setApplied i s []).attestRequest l else d.setApplied i s l
  else d.mapObject i s v

/-- A write of DATA of the register passthrough (R389): every byte enable set, requester code 3. -/
def passWrite (d : Dev) (addr : Nat) (l : List Byte) : Dev := d.busWrite .passthrough addr (word (fromLe l)) 15

/-! ### The staged set over the values in force -/

/-- Whether an object lands at an apply. -/
def isRWE (i s : Nat) : Bool := ((objAt i s).map (·.acc)) = some aRWE

/-- A value as the set leaves it: staged, else applied. -/
def valueIn (d : Dev) (ws : List StagedWrite) (i s : Nat) : List Byte :=
  match ws.find? fun w => w.index = i && w.sub = s with
  | some w => w.data
  | none => d.applied i s
def numIn (d : Dev) (ws : List StagedWrite) (i s : Nat) : Nat := fromLe (d.valueIn ws i s)

/-- The registers in force after the apply: those in force now, with the fields the set maps to. -/
def tableIn (d : Dev) (ws : List StagedWrite) : Tab Word :=
  (ws.filter fun w => isRWE w.index w.sub).foldl (fun t w =>
    (objFields w.index w.sub (fromLe w.data)).foldl (fun t f =>
      Tab.set regReset t f.1.off (f.1.into (Tab.get regReset t f.1.off) f.2)) t) d.force

/-- The gangs of a table: the head of a port, the size of a head's gang. -/
def headIn (t : Tab Word) (p : Nat) : Nat := headBy (fun q => fieldIn t (AVP_GANG_CFG.SIZE q)) p
def sizeIn (t : Tab Word) (h : Nat) : Nat := sizeBy (fun q => fieldIn t (AVP_GANG_CFG.SIZE q)) h
def gangIn (t : Tab Word) (h : Nat) : List Nat := (List.range (sizeIn t h)).map (h + ·)
def headsIn (t : Tab Word) : List Nat := (List.range 16).filter fun p => headIn t p = p

/-- The kernel set of column `k` as the set leaves it (R198). -/
def kernelIn (d : Dev) (ws : List StagedWrite) (k : Nat) : KernelSet :=
  let n := fun s => d.numIn ws (0x6100 + k) s
  let col := fun s =>
    let l := d.valueIn ws (0x6100 + k) s
    (List.range (l.length / 2)).map fun i => field l (2 * i) 2
  { outputs := n 1, aBits := n 2, aSrc := n 3, roiX := n 4, roiY := n 5, roiW := n 6, roiH := n 7, calKind := n 8, calAddr := n 9
    defect := n 10, colDark := col 11, colGain := col 12, pedestal := n 13, binX := n 14, binY := n 15, binOp := n 16, statSrc := n 17
    statSh := n 18, satLevel := n 19, surSrc := n 20, thumbSh := n 21, tallyThresh := n 22, tallyWin := n 23, tallyMax := n 24 }

/-- Whether binning or thumbnails split lines into blocks (R199, R200). -/
def blocked (ks : KernelSet) : Bool := (bit ks.outputs 0 && 1 < ks.binX * ks.binY) || bit ks.outputs 3

/-- The pool N of a gang of `size` whose bands are `band` lines high (R200). -/
def poolCount (d : Dev) (h size band : Nat) (ks : KernelSet) : Nat :=
  let n := ((List.range size).map fun j => d.inService (h + j)).foldl Nat.min 32
  if !blocked ks then n
  else
    let ok := fun c => (band + c - 1) / c % ks.blockLines = 0
    (((List.range n).reverse.map (· + 1)).find? ok).getD 1

/-- The geometry of a head under a table. -/
def widthIn (t : Tab Word) (h : Nat) : Nat := fieldIn t (AVP_GEOM_W.WIDTH h)
def heightIn (t : Tab Word) (h : Nat) : Nat := fieldIn t (AVP_GEOM_H.HEIGHT h)
def formatIn (t : Tab Word) (h : Nat) : Nat := fieldIn t (AVP_GEOM_W.FORMAT h)

/-- Whether the geometry or the gang of a head changes against the values in force. -/
def shapeChanges (d : Dev) (t : Tab Word) (h : Nat) : Bool :=
  (gangIn t h).any fun q =>
    Tab.get regReset t (AVP_GEOM_W.addr q) != d.force1 (AVP_GEOM_W.addr q) || heightIn t q != d.forceGet (AVP_GEOM_H.HEIGHT q)
      || d.headOf q != h || d.gangSize h != sizeIn t h

/-- Whether the set writes the kernel set of a head. -/
def kernelChanges (ws : List StagedWrite) (h : Nat) : Bool := ws.any fun w => w.index = 0x6100 + h

/-- The heads whose teller images are built anew (R412, step 2): those whose kernel set, geometry or gang changes and whose
geometry is set. -/
def rebuilt (d : Dev) (ws : List StagedWrite) : List Nat :=
  let t := d.tableIn ws
  (headsIn t).filter fun h => (kernelChanges ws h || d.shapeChanges t h) && widthIn t h != 0 && heightIn t h != 0

/-- Columns the calibration covers, and the coefficient words that a set needs (R193). -/
def wend (ks : KernelSet) (w : Nat) : Nat := ks.roiX + (if ks.roiW = 0 then w - ks.roiX else ks.roiW)
def calLines (ks : KernelSet) : Nat := ofBool (!ks.colDark.isEmpty) + ofBool (!ks.colGain.isEmpty)
def calBlocks (ks : KernelSet) (w : Nat) : Nat := if ks.calKind = 0 then 0 else (2 * wend ks w + 63) / 64
def coefWords (ks : KernelSet) (w : Nat) : Nat := 64 * calBlocks ks w + wend ks w * calLines ks

/-- The pace bound of R179 at a port's negotiated lane count and rate; a port not up has negotiated none. -/
def keepsPace (d : Dev) (t : Tab Word) (h : Nat) (ks : KernelSet) : Bool :=
  let g := sizeIn t h
  let n := d.poolCount h g (heightIn t h / g) ks
  (gangIn t h).all fun q => !d.portUp q
    || ks.cost * ((widthIn t h + 31) / 32) * d.get (AVP_PORT_STAT.LANES q) * (d.get (AVP_PORT_STAT.RATE q) + 1) * 100
      ≤ n * lineBytes (widthIn t h) (formatIn t h) * 128

/-- The conditions of R199 that a kernel set breaks, with their place in its list. -/
def kernelFailures (d : Dev) (ws : List StagedWrite) (t : Tab Word) (h : Nat) : List Failure :=
  let ks := d.kernelIn ws h
  let w := widthIn t h
  let hh := heightIn t h
  let g := sizeIn t h
  let at' := fun (c : Bool) (s n : Nat) => if c then [Failure.mk (0x6100 + h) s 1 n] else []
  if w = 0 || hh = 0 then (if kernelChanges ws h then [⟨0x3001 + 0x100 * h, if w = 0 then 1 else 2, 1, 1⟩] else [])
  else if !(kernelChanges ws h || d.shapeChanges t h) then []
  else
    let wroi := wend ks w - ks.roiX
    let lb := ks.blockLines
    at' (ks.roiX % 32 != 0 || w ≤ ks.roiX) 4 2
      ++ at' (hh ≤ ks.roiY) 5 2
      ++ at' (w < wend ks w || (wroi % 32 != 0 && wend ks w != w)) 6 2
      ++ at' (ks.roiH != 0 && hh < ks.roiY + ks.roiH) 7 2
      ++ at' (ks.defect != 0 && ks.calKind = 0) 10 3
      ++ at' (ks.calKind = 2 && !ks.colGain.isEmpty) 8 4
      ++ at' (ks.calKind != 0 && 8192 < wend ks w) 8 5
      ++ at' (ks.calKind != 0 && vaultSize < ks.calAddr + hh * ((2 * wend ks w + 63) / 64 * 64)) 9 5
      ++ at' (16384 < coefWords ks w || !([0, 2 * wend ks w].contains (d.valueIn ws (0x6100 + h) 11).length)) 11 5
      ++ at' (!([0, 2 * wend ks w].contains (d.valueIn ws (0x6100 + h) 12).length)) 12 5
      ++ at' (blocked ks && ks.roiY % lb != 0) 5 6
      ++ (if blocked ks && 1 < g && hh / g % lb != 0 then [Failure.mk (0x3001 + 0x100 * h) 4 1 6] else [])
      ++ at' (!d.keepsPace t h ks) 1 7

/-- The rings of a table that break R252. -/
def ringFailures (t : Tab Word) : List Failure :=
  let on := fun r => fieldIn t (VLT_RING_CFG.EN r) = 1
  let base := fun r => fieldIn t (VLT_RING_BASE.BASE r)
  let size := fun r => fieldIn t (VLT_RING_SIZE.SIZE r)
  ((List.range 64).filter on).flatMap fun r =>
    let ent := fieldIn t (VLT_RING_SIZE.ENT r)
    if size r < ent + 1 || ent = 0 then [⟨0x7000 + r, 3, 3, 1⟩]
    else if 98144 < base r + size r then [⟨0x7000 + r, 2, 3, 2⟩]
    else if (List.range r).any fun q => on q && base r < base q + size q && base q < base r + size r then [⟨0x7000 + r, 2, 3, 3⟩]
    else []

/-- The bindings of a table that break R253. -/
def bindFailures (t : Tab Word) : List Failure :=
  let l := bindings t
  l.flatMap fun b =>
    let sub := b.stream + (if b.str then 6 else 1)
    let off := fieldIn t (VLT_RING_CFG.EN b.ring) = 0 || (fieldIn t VLT_OVD.EN = 1 && fieldIn t VLT_OVD.RING = b.ring)
    let role := fieldIn t (VLT_RING_CFG.ROLE b.ring) != ofBool b.str
    let twice := (l.take (l.idxOf b)).any fun e => e.ring = b.ring && !(e.head = b.head && e.stream = b.stream)
    if off then [⟨0x7100 + b.head, sub, 4, 1⟩] else if role then [⟨0x7100 + b.head, sub, 4, 2⟩]
    else if twice then [⟨0x7100 + b.head, sub, 4, 3⟩] else []

/-- The geometry of a table (R18, R133, R157). -/
def shapeFailures (t : Tab Word) : List Failure :=
  (List.range 16).flatMap fun p =>
    let i := 0x3001 + 0x100 * p
    (if maxWidth (formatIn t p) < widthIn t p then [Failure.mk i 1 7 2] else [])
      ++ (if headIn t p = p && heightIn t p % sizeIn t p != 0 then [Failure.mk i 2 7 1] else [])
      ++ (if p % 2 ^ fieldIn t (AVP_GANG_CFG.SIZE p) != 0 then [Failure.mk i 4 7 3] else [])

/-- Strikes: the ranges that depend on KIND, and writes while a strike is not IDLE (R364). -/
def strikeFailures (d : Dev) (ws : List StagedWrite) : List Failure :=
  (ws.filter fun w => 0x5000 ≤ w.index && w.index < 0x5040).flatMap fun w =>
    let s := w.index - 0x5000
    let step := signed 64 (d.numIn ws w.index 8)
    let bad := if d.numIn ws w.index 1 = 1
      then (if 2 ^ 40 ≤ d.numIn ws w.index 7 then [7] else []) ++ (if step < -2147483648 || 2147483647 < step then [8] else [])
      else (if step < 0 || 4294967295 < step then [8] else [])
    bad.map (fun sub => Failure.mk w.index sub 6 2) ++ (if d.strikeState s != 0 then [Failure.mk w.index w.sub 8 s] else [])

/-- The channel that a ring initialised or disabled at the apply is bound to, while it is not stopped (R252). -/
def busyChannel (d : Dev) (t : Tab Word) (r : Nat) : Option Nat :=
  let g := d.ring r
  let on := fieldIn t (VLT_RING_CFG.EN r) = 1
  let moves := if on then g.state = .off || g.base != fieldIn t (VLT_RING_BASE.BASE r) || g.size != fieldIn t (VLT_RING_SIZE.SIZE r)
      || g.ent != fieldIn t (VLT_RING_SIZE.ENT r) || g.role != fieldIn t (VLT_RING_CFG.ROLE r) else g.state != .off
  if moves then (List.range 32).find? fun c => d.isStream c && d.get (DMA_CH_CFG.RING c) = r && !d.chIdle c else none

/-- Step 1 of R412: every failure of the whole set against what will be in force, and against the mode in force. -/
def failures (d : Dev) (ws : List StagedWrite) : List Failure :=
  let t := d.tableIn ws
  let src := fieldIn t CAD_CTL.SRC
  let role := fieldIn t CAD_CTL.BUS_ROLE
  let mode := (ws.filter fun w => w.index = 0x2000 && w.sub = 1).flatMap fun w =>
    let next := fromLe w.data
    if next = d.mode || (d.mode = 7 && next = d.actMode) || (modeJudge d.actMode next).isSome then [] else [Failure.mk 0x2000 1 5 next]
  let combo := if (role = 2 && src != 2) || (role = 1 && src = 2) then [Failure.mk 0x2001 1 6 1] else []
  let chans := (List.range 64).filterMap fun r => (d.busyChannel t r).map fun c => Failure.mk (0x7000 + r) 1 11 c
  mode ++ combo ++ shapeFailures t ++ d.strikeFailures ws ++ (headsIn t).flatMap (d.kernelFailures ws t) ++ ringFailures t
    ++ bindFailures t ++ chans

/-! ### Building a column (R184, R193, R198, R200) -/

/-- A write of a field by firmware. -/
def wr (d : Dev) (f : Bits) (v : Nat) : Dev := d.fieldWrite d.manager f v

/-- The code of stream A's pixel width. -/
def widthCode (b : Nat) : Nat := (b - 8) / 2

/-- The bytes of a basic image: the column lines stand in the coefficient words after the stream buffers, dark before gain (R193; the places are
a DESIGN CHOICE, log entry 91); every other byte is open. -/
def imageBytes (ks : KernelSet) (first : Nat) (v : Nat → Nat) : List Byte :=
  let words := ks.colDark ++ ks.colGain
  (List.range 0xA400).map fun i =>
    let w := (i - 0x2400) / 2
    if 0x2400 ≤ i && first ≤ w && w < first + words.length then BitVec.ofNat 8 (words.getD (w - first) 0 / 2 ^ (8 * (i % 2)))
    else BitVec.ofNat 8 (v (16 + i))

/-- The teller image of a gang with head `h`, the staged configuration, and the load of the gang's columns (R181, R184, step 2 of R412). What
of a basic image the spec does not state (its place in the top 64 MiB, its bytes, its entry word, its step limit) is open. The core's write reaches
the vault only where R16 lets it. -/
def buildColumn (d : Dev) (h : Nat) (ks : KernelSet) : Dev :=
  let gang := d.stagedGang h
  let w := d.get (AVP_GEOM_W.WIDTH h)
  let n := d.poolCount h gang.length (d.get (AVP_GEOM_H.HEIGHT h) / gang.length) ks
  let v := fun i => Config.openValue d.fresh i
  let d := d.draw
  let need := coefWords ks w
  let lo := v 1 % (16385 - need)
  let img := 0x2F_FC00_0000 + v 0 % ((2 ^ 26 - 0xA400) / 64) * 64

  let bits := bitsOf (d.get (AVP_GEOM_W.FORMAT h))
  let cal := ofBool (ks.calKind != 0)
  let d := d.when (d.reaches .core true img 0xA400) (·.vaultWrites [(img, imageBytes ks (lo + 64 * calBlocks ks w) v)])
  let d := (((d.wr (CHT_ASSIGN.LENDER h) 0).wr (CHT_ASSIGN.BORROW h) 0).wr (CHT_ASSIGN.NROW h) n).wr (CHT_ASSIGN.MODE h) (if blocked ks then 2 else 1)
  let d := (((d.wr (CHT_RECIPE.CTXB h) ks.ctxB).wr (CHT_RECIPE.CTXA h) ks.ctxA).wr (CHT_RECIPE.A_FMT h) (widthCode ks.aBits)).wr (CHT_RECIPE.B_FMT h) 0
  let d := ((d.wr (CHT_RECIPE.STAT_SH h) (if ks.statSh = 0xFF then bits - 8 else ks.statSh)).wr (CHT_RECIPE.WIN_SH h) (v 2)).wr (CHT_RECIPE.ENTRY h) (v 3)
  let d := ((d.wr (CHT_RECIPE.CLR_FRAME h) (v 4)).wr (CHT_IMG_LO.ADDR h) (img / 64)).wr (CHT_IMG_HI.ADDR h) (img / 2 ^ 32)
  let d := (d.wr (CHT_COEF.LO h) lo).wr (CHT_COEF.HI h) (lo + need)
  let d := d.forEach gang fun k d =>
    let d := ((d.wr (CHT_STREAM.EN k) cal).wr (CHT_STREAM.BASE k) lo).wr (CHT_STREAM.SLEN k) (Nat.max 1 (calBlocks ks w))
    let d := ((d.wr (CHT_SSRC_LO.ADDR k) (ks.calAddr / 64)).wr (CHT_SSRC_HI.ADDR k) (ks.calAddr / 2 ^ 32)).wr (CHT_SSRC_HI.PITCH k) (calBlocks ks w)
    (d.wr (CHT_LIMIT.SAT_LEVEL k) (if ks.satLevel = 0 then 2 ^ bits - 1 else ks.satLevel)).wr (CHT_LIMIT.STEP_LIMIT k) (64 + v 5 % 65472)
  (d.wr CHT_LOAD.LOAD (2 ^ h)).forEach gang fun k d => d.setColumn k fun c => { c with stagedKernel := some ks }

/-- The largest payload of a stream of a frame (R197, R202-R204, R209, R255). -/
def largest (ks : KernelSet) (w hh fmt : Nat) (s : Nat) : Nat :=
  let wr := wend ks w - ks.roiX
  let hr := if ks.roiH = 0 then hh - ks.roiY else ks.roiH
  let round8 := fun n => (n + 7) / 8 * 8
  match s with
  | 0 => hr / ks.binY * ((wr / ks.binX * ks.aBits + 7) / 8)
  | 1 =>
    let segs := (wr + 255) / 256
    let full := wr / 256 * ((6 + 256 * bitsOf fmt + 7) / 8)
    let part := if wr % 256 = 0 then 0 else (6 + wr % 256 * bitsOf fmt + 7) / 8
    40 + hr * (round8 (8 + 2 * segs) + round8 (full + part))
  | 2 => 16 * ks.tallyMax
  | 3 => wr / 8 * (hr / 8)
  | _ => 1056

/-- The bindings that a basic column feeds. -/
def basicBindings (d : Dev) (ws : List StagedWrite) (heads : List Nat) : List Binding :=
  (bindings (d.tableIn ws)).filter fun b => heads.contains b.head || (d.column b.head).kernel.isSome

/-- RESERVE of every ring that a basic column feeds, in MiB (R255). -/
def setReserves (d : Dev) (ws : List StagedWrite) (heads : List Nat) : Dev :=
  let t := d.tableIn ws
  d.forEach (d.basicBindings ws heads) fun b d =>
    let bytes := largest (d.kernelIn ws b.head) (widthIn t b.head) (heightIn t b.head) (formatIn t b.head) b.stream
    d.wr (VLT_RING_TRIG.RESERVE b.ring) (Nat.min 4095 ((bytes + 2 ^ 20 - 1) / 2 ^ 20))

/-! ### The commit (R411, R412, R414) -/

def setEscrow (d : Dev) (f : Escrow → Escrow) : Dev := d.setMgt fun m => { m with escrow := f m.escrow }

/-- The escrow ID as messages and notices give it: 0 for a restore (R430). -/
def escrowId (d : Dev) : Nat :=
  match d.mgt.escrow.commit with
  | some c => if c.session.isNone then 0 else d.mgt.escrow.id
  | none => d.mgt.escrow.id

/-- The escrow ends. -/
def escrowGone (d : Dev) : Dev := d.setEscrow fun e => { e with state := 0, writes := [], count := 0, bytes := 0, commit := none }

/-- Whether a write of the set is one of geometry or gang (R388). The loads and ARM of step 2 need those staged (R180, R181), and ARM would clear
with a later write of them (R183), so step 2 writes them where it builds columns; the other registers wait for step 4. -/
def isShape (w : StagedWrite) : Bool := 0x3000 ≤ w.index && w.index < 0x4000 && w.index % 0x100 = 1

/-- The writes of a set that map to staged registers, of geometry and gang or the others. -/
def mappedWrites (ws : List StagedWrite) (shape : Bool) : List StagedWrite := ws.filter fun w => isRWE w.index w.sub && isShape w = shape

/-- The staged registers that a commit has written: with its loads begun those of geometry and gang and those of its columns, with step 4 begun
those that the rest of the set maps to, the RESERVEs and those that its passthrough writes name. -/
def touchedRegs (d : Dev) (ws : List StagedWrite) (c : Commit) : List Nat :=
  let offs := fun (l : List StagedWrite) => l.flatMap fun w => (objFields w.index w.sub (fromLe w.data)).map fun f => f.1.off
  (if c.armed.isEmpty && !c.written then [] else offs (mappedWrites ws true)) ++ c.armed.flatMap chartRegs
    ++ (if !c.written then [] else offs (mappedWrites ws false)
      ++ (d.basicBindings ws (d.rebuilt ws)).map (fun b => VLT_RING_TRIG.addr b.ring)
      ++ (ws.filter fun w => w.index = 0xE000).filterMap fun w => match aliasOf w.addr with
        | some (_, a) => if isStaged a && a != CHT_ARM.addr then some a else none
        | none => none)

/-- The staged registers a failed commit has written take their values in force again, and its columns are disarmed (R412). -/
def rollBackRegs (d : Dev) : Dev :=
  match d.mgt.escrow.commit with
  | none => d
  | some c =>
    let d := d.forEach (d.touchedRegs d.mgt.escrow.writes c) fun a d =>
      if a = DCT_MODE.addr then d.put DCT_MODE.NEXT d.mode else d.setReg a (d.force1 a)
    d.forEach c.armed fun k d => d.disarm k

/-- Step 2 of R412 to its loads: the columns' images and their loads, after the registers that give the loads their gangs (R181). A load that
finds its column OLD_BUSY or LOADING is held (R183). -/
def commitBuild (d : Dev) : Dev :=
  let ws := d.mgt.escrow.writes
  let heads := d.rebuilt ws
  let d := if heads.isEmpty then d else d.forEach (mappedWrites ws true) fun w d => d.mapObject w.index w.sub (fromLe w.data)
  let d := d.setEscrow fun e => { e with commit := e.commit.map fun c => { c with
    armed := heads.flatMap fun h => d.stagedGang h, loading := true } }
  d.forEach heads fun h d => d.buildColumn h (d.kernelIn ws h)

/-- Whether the loads of a commit's columns have ended. -/
def commitLoaded (d : Dev) (c : Commit) : Bool := c.armed.all fun k => !d.is (CHT_COL_STAT.LOADING k) && !(d.column k).loadHeld

/-- The end of step 2 and step 4 of R412 before GO: the columns loaded are armed, then the registers and the passthrough writes of the set
made; the failure of a load, refused ones among them, or of an ARM is returned (R413). -/
def commitArm (d : Dev) (c : Commit) : Dev × Option Failure :=
  let ws := d.mgt.escrow.writes
  let heads := c.armed.filter fun k => d.stagedHead k = k
  let load := (c.armed.find? fun k => !d.is (CHT_COL_STAT.LOADED k) || (d.column k).loadErr != 0).map fun k => 0x10 + (d.column k).loadErr
  let arm := (heads.findSome? fun h => (d.stagedGang h).findSome? d.armReason).map (·.1)
  match load with
  | some r => (d, some ⟨0xFFFF, 0, 2, r⟩)
  | none =>
    let d := d.forEach heads fun h d => d.charterArm h
    match arm with
    | some r => (d, some ⟨0xFFFF, 0, 2, r⟩)
    | none =>
      let d := d.when c.armed.isEmpty fun d => d.forEach (mappedWrites ws true) fun w d => d.mapObject w.index w.sub (fromLe w.data)
      let d := d.forEach (mappedWrites ws false) fun w d => d.mapObject w.index w.sub (fromLe w.data)
      let d := d.setReserves ws (d.rebuilt ws)
      let d := d.forEach (ws.filter fun w => w.index = 0xE000) fun w d => d.passWrite w.addr w.data
      (d.setEscrow fun e => { e with commit := e.commit.map fun c => { c with written := true } }, none)

/-- Step 6 of R412: the values that landed are applied, the RW and WO writes carried out in staging order. -/
def commitLands (d : Dev) : Dev :=
  let ws := d.mgt.escrow.writes
  let d := d.forEach ws fun w d =>
    if isRWE w.index w.sub then d.setApplied w.index w.sub w.data
    else if w.index = 0xE000 then d
    else d.actObject w.index w.sub w.data
  let d := d.setAttest fun a => { a with values := d.mgt.dict }
  d.count MGT_ESC_COMMIT_CNT.addr

end Dev
end Sys2Proof.Machine
end

