-- ==== Sys2Proof/Machine/Umsal.lean ====
section
/-! DEFINITION. Umsal messages, sessions and the key (R390-R396, R406-R409, R415, R416). -/

namespace Sys2Proof.Machine

/-- A well-formed request (R391, R392). -/
structure Msg where
  major : Nat
  minor : Nat
  typ : Nat
  staged : Bool
  session : Nat
  seq : Nat
  nonce : Nat
  body : List Byte
  deriving DecidableEq, Repr

/-- Whether every byte is zero. -/
def zeros (l : List Byte) : Bool := l.all (· = 0)

/-- Whether a request body has the length and the zero bytes of its TYPE (R391, R392); false for a reserved TYPE. -/
def bodyOk (typ : Nat) (b : List Byte) : Bool :=
  match typ with
  | 0x01 | 0x02 | 0x03 | 0x22 | 0x30 | 0x31 | 0x32 | 0x33 => b.isEmpty
  | 0x08 => b.length = 4 && zeros (b.drop 3)
  | 0x10 => b.length = 12 && zeros ((b.drop 3).take 1) && zeros (b.drop 10)
  | 0x11 =>
    let n := field b 8 2
    12 ≤ b.length && b.length = 12 + (n + 3) / 4 * 4 && zeros ((b.drop 10).take 2) && zeros (b.drop (12 + n))
  | 0x20 | 0x21 | 0x40 => b.length = 4 && zeros (b.drop 1)
  | _ => false

/-- Reading a message of exactly LEN bytes; none where it is malformed. -/
def Msg.parse (l : List Byte) : Option Msg :=
  let n := field l 6 2
  let typ := field l 4 1
  let flags := field l 5 1
  let open' := typ = 0x01
  if l.length = n && 16 ≤ n && n ≤ 1440 && n % 4 = 0 && field l 0 2 = 0x4D55 && field l 9 1 = 0
      && flags ≤ (if typ = 0x10 then 1 else 0) && bodyOk typ (l.drop 16)
      && (!open' || (field l 8 1 = 0xFF && field l 12 4 = 0)) then
    some ⟨field l 2 1, field l 3 1, typ, flags = 1, field l 8 1, field l 10 2, field l 12 4, l.drop 16⟩
  else none

/-- A message of the device (R391), its body padded. -/
def message (minor typ session seq nonce : Nat) (body : List Byte) : List Byte :=
  let pad := List.replicate ((4 - body.length % 4) % 4) 0
  le 2 0x4D55 ++ le 1 1 ++ le 1 minor ++ le 1 typ ++ le 1 0 ++ le 2 (16 + (body ++ pad).length) ++ le 1 session ++ le 1 0
    ++ le 2 seq ++ le 4 nonce ++ body ++ pad

namespace Dev

/-! ### Messages -/

/-- The bytes of a message: a datagram, or the LEN / 4 words that firmware reads of a request in a slot (R400). -/
def messageOf (d : Dev) : UmsalFrom → List Byte
  | .net _ _ _ l => l
  | .slot m =>
    let l := bytesOf ((d.slot m).request.getD [])
    l.take (field l 6 2)

/-- The peer of a source; none for a slot. -/
def peerOf : UmsalFrom → Option Peer
  | .net e a p _ => some ⟨e, a.toNat, p.toNat⟩
  | .slot _ => none

/-- The port's own address that a source reaches; 0 for a slot. -/
def ownOf (d : Dev) : UmsalFrom → Nat
  | .net e a _ _ => d.ownFor e a.toNat
  | .slot _ => 0

/-- Sending a message back where a request came from. -/
def reply (d : Dev) (f : UmsalFrom) (l : List Byte) : Dev :=
  match f with
  | .net e a p _ => d.netSend e a.toNat (.umsal e a.toNat p.toNat l)
  | .slot m => d.mailboxAnswer m (wordsOf l)

/-- A request discarded without a response (R395, R416); firmware is done with a slot's request. -/
def discard (d : Dev) (f : UmsalFrom) : Dev :=
  let d := (d.count MGT_UMSAL_DISCARD_CNT.addr).setMgt fun m => { m with discards := m.discards + 1 }
  let d := d.atMost .umsalDiscard (ms 1) fun d =>
    (d.notice .alert idMGT 0x016 (Nat.min 0xFFFF d.mgt.discards)).setMgt fun m => { m with discards := 0 }
  match f with
  | .net _ _ _ _ => d
  | .slot m => d.setSlot m fun s => { s with request := none }

/-- A malformed message (R395): in a slot it is answered with TYPE 0x80; SESSION and NONCE of that answer are open. -/
def malformed (d : Dev) (f : UmsalFrom) : Dev :=
  match f with
  | .net _ _ _ _ => d.discard f
  | .slot m =>
    let v := fun i => Config.openValue d.fresh i
    (d.mailboxAnswer m (wordsOf (message 1 0x80 (v 0) (field (d.messageOf f) 10 2) (v 1) (le 2 1 ++ le 2 0)))).draw

/-! ### Sessions -/

def session (d : Dev) (n : Nat) : Option Session := (d.mgt.sessions.find? (·.1 = n)).map (·.2)

def setSession (d : Dev) (n : Nat) (f : Session → Session) : Dev :=
  d.setMgt fun m => { m with sessions := m.sessions.map fun e => if e.1 = n then (n, f e.2) else e }

def setKey (d : Dev) (f : Key → Key) : Dev := d.setMgt fun m => { m with key := f m.key }
def holder (d : Dev) : Option Nat := d.mgt.key.holder

/-- Sending a message of session `n`; those of the mailbox slots are 8 and 9 (R394). -/
def sendTo (d : Dev) (n : Nat) (l : List Byte) : Dev :=
  if 8 ≤ n then d.when (n < 10) (·.mailboxAnswer (n - 8) (wordsOf l))
  else match d.session n with
    | some s => match s.peer with
      | some p => d.when (s.own = d.ownFor p.eth p.addr) fun d => d.netSend p.eth p.addr (.umsal p.eth p.addr p.port l)
      | none => d
    | none => d

/-- Answering the request of session `n` with a SEQ: the response is kept for repetitions (R395). -/
def answerWith (d : Dev) (n typ seq status detail : Nat) (rest : List Byte) : Dev :=
  match d.session n with
  | none => d
  | some s =>
    let l := message s.minor (typ + 0x80) n seq s.nonce (le 2 status ++ le 2 detail ++ rest)
    (d.setSession n fun s => { s with lastSeq := seq, lastResp := l, busy := none }).sendTo n l

/-- Answering a request, with no body beyond STATUS and DETAIL. -/
def answer (d : Dev) (k : Msg) (status : Nat) (detail : Nat := 0) (rest : List Byte := []) : Dev :=
  d.answerWith k.session k.typ k.seq status detail rest

/-- A valid request of session `n`: its time, and the keyholder's silence, begin anew (R396, R406). -/
def touch (d : Dev) (n : Nat) : Dev :=
  let now := d.time
  let d := d.setSession n fun s => { s with lastAt := now, unused := false }
  d.when (d.holder = some n) fun d => d.setKey fun k => { k with heardAt := now }

/-! ### The key (R406-R409) -/

/-- A change of keyholder. -/
def changeKey (d : Dev) (new : Option Nat) (prio cause : Nat) : Dev :=
  let old := d.holder.getD 0xFF
  let n := new.getD 0xFF
  let now := d.time
  let d := d.setKey fun k => { k with
    holder := new, prio := prio, heardAt := now, claims := k.claims.filter (some ·.session != new), epoch := (k.epoch + 1) % 2 ^ 32 }
  let d := (d.count MGT_KEY_CHANGE_CNT.addr).notice .event idMGT 0x012 (cause * 2 ^ 16 + old * 2 ^ 8 + n)
  let d := (d.put DCT_GATE.NOKEY (ofBool new.isNone)).put DCT_GATE.OPEN (ofBool (new.isSome && 8 ≤ n))
  d.put DCT_GATE.SESSION (if new.isSome then n % 8 else 0)

/-- The claim an election takes: the highest priority, then the lowest session (R407). -/
def bestClaim (l : List Claim) : Option Claim :=
  l.foldl (fun o c => match o with
    | some b => some (if b.prio < c.prio || (b.prio = c.prio && c.session < b.session) then c else b)
    | none => some c) none

/-- An election; the claims that await it are answered in session order. -/
def elect (d : Dev) : Dev :=
  match bestClaim d.mgt.key.claims with
  | none => d.setKey fun k => { k with gatherAt := none }
  | some w =>
    let waiting := d.mgt.key.claims.insertionSort fun a b => a.session ≤ b.session
    let d := d.setKey fun k => { k with gatherAt := none }
    let d := d.changeKey (some w.session) w.prio 1
    let d := d.setKey fun k => { k with claims := k.claims.map fun c => { c with seq := none } }
    d.forEach waiting fun c d =>
      match c.seq with
      | some q => if c.session = w.session then d.answerWith c.session 0x20 q 0 0 [] else d.answerWith c.session 0x20 q 13 w.session []
      | none => d

/-- Rolling an OPEN escrow back (R411). -/
def rollBack (d : Dev) (cause : Nat) : Dev :=
  let d := d.notice .info idMGT 0x015 (d.mgt.escrow.id % 2 ^ 16 * 2 ^ 16 + cause)
  (d.count MGT_ESC_ROLLBACK_CNT.addr).escrowGone

/-- A vacancy (R406): an OPEN escrow is rolled back; with claims pending the election is at once, and is the change reported. The
priority shown while nobody holds the key is open. -/
def vacate (d : Dev) (cause : Nat) : Dev :=
  let d := d.when (d.mgt.escrow.state = 1) (·.rollBack 3)
  if d.mgt.key.claims.isEmpty then (d.changeKey none (Config.openValue d.fresh 0 % 256) cause).draw else d.elect

/-- Removing a claim; GATHERING ends where none is left. -/
def dropClaim (d : Dev) (n : Nat) : Dev :=
  d.setKey fun k =>
    let l := k.claims.filter (·.session != n)
    { k with claims := l, gatherAt := if l.isEmpty then none else k.gatherAt }

/-- A session closes (R396). -/
def closeSession (d : Dev) (n cause : Nat) : Dev :=
  let d := d.setMgt fun m => { m with sessions := m.sessions.filter (·.1 != n) }
  let d := (d.notice .info idMGT 0x011 (cause * 2 ^ 8 + n)).dropClaim n
  d.when (d.holder = some n) (·.vacate 5)

/-! ### Opening a session (R394, R395) -/

/-- An OPEN refused: header 1.1, SESSION 0xFF, NONCE 0. -/
def refuseOpen (d : Dev) (f : UmsalFrom) (k : Msg) (status : Nat) : Dev :=
  d.reply f (message 1 0x81 0xFF k.seq 0 (le 2 status ++ le 2 0))

/-- Opening session `n`. -/
def openSession (d : Dev) (f : UmsalFrom) (k : Msg) (n : Nat) : Dev :=
  let nonce := (Config.nonce d.fresh).toNat
  let minor := Nat.min k.minor 1
  let body := le 2 0 ++ le 2 0 ++ le 1 (d.holder.getD 0xFF) ++ le 1 0 ++ le 2 0x0002 ++ le 4 2000
  let l := message minor 0x81 n k.seq nonce body
  let s := { Session.fresh nonce minor (peerOf f) d.time with lastResp := l, own := d.ownOf f }
  let d := d.draw.setMgt fun m => { m with sessions := (m.sessions.filter (·.1 != n)) ++ [(n, s)] }
  (d.notice .info idMGT 0x010 n).reply f l

/-- An OPEN: one repeated within 1 s, before its session has received any other request, gets the same response. -/
def umsalOpen (d : Dev) (f : UmsalFrom) (k : Msg) : Dev :=
  let d := d.count MGT_UMSAL_MSG_CNT.addr
  if k.major != 1 then d.refuseOpen f k 2
  else match f with
    | .slot m =>
      let n := 8 + m.val
      let d := d.when (d.session n).isSome (·.closeSession n 3)
      d.openSession f k n
    | .net _ _ _ _ =>
      match d.mgt.sessions.find? fun e => e.2.peer = peerOf f && e.2.unused && d.time < e.2.openedAt + ms 1000 with
      | some e => d.reply f e.2.lastResp
      | none =>
        match (List.range 8).find? fun n => (d.session n).isNone with
        | some n => d.openSession f k n
        | none => d.refuseOpen f k 3

/-! ### Taking a request (R390, R395) -/

/-- Whether a session is that of a source. -/
def fromSession (f : UmsalFrom) (n : Nat) (s : Session) : Bool :=
  match f with
  | .net _ _ _ _ => n < 8 && s.peer = peerOf f
  | .slot m => n = 8 + m.val

/-- A well-formed request of an open session. -/
def takeRequest (d : Dev) (f : UmsalFrom) (k : Msg) (act : Dev → Msg → Dev) : Dev :=
  match d.session k.session with
  | none => d.discard f
  | some s =>
    if !fromSession f k.session s || s.nonce != k.nonce then d.discard f
    else if k.seq = s.lastSeq then (d.touch k.session).reply f s.lastResp
    else if k.seq != (s.lastSeq + 1) % 2 ^ 16 || s.busy.isSome then d.discard f
    else
      let d := (d.count MGT_UMSAL_MSG_CNT.addr).touch k.session
      if k.major != 1 || k.minor != s.minor then d.answer k 2 else act d k

/-- Whether a datagram reaches the port: the port has an address of its family, and one that names a session is sent to the address the
session was opened at, which the port must still have (R401, R402). -/
def umsalReaches (d : Dev) (f : UmsalFrom) : Bool :=
  match f with
  | .slot _ => true
  | .net _ _ _ _ => d.ownOf f != 0 && match Msg.parse (d.messageOf f) with
    | none => true
    | some k => match d.session k.session with
      | none => true
      | some s => k.typ = 1 || !fromSession f k.session s || s.own = d.ownOf f

/-- A message as firmware takes it: a datagram is a frame of its port, a slot's request waits in its slot. -/
def umsalArrive (d : Dev) (f : UmsalFrom) (act : Dev → Dev) : Dev :=
  match f with
  | .net e _ _ _ => d.netTake e fun d => if d.umsalReaches f then act d else d.netDrop e
  | .slot m => d.when (d.mgt.firmware = .running && (d.slot m).request.isSome) act

/-- A message of TYPE `typ`: `act` is what its request does. A well-formed message of another TYPE is another command. -/
def umsal (d : Dev) (f : UmsalFrom) (typ : Nat) (act : Dev → Msg → Dev) : Dev :=
  match Msg.parse (d.messageOf f) with
  | none => d.umsalArrive f (·.malformed f)
  | some k =>
    d.when (k.typ = typ) (·.umsalArrive f fun d => if typ = 1 then act d k else d.takeRequest f k act)

/-! ### Session and key requests -/

/-- CLOSE. -/
def umsalClose (d : Dev) (k : Msg) : Dev := (d.answer k 0).closeSession k.session 1

/-- HEARTBEAT. -/
def umsalHeartbeat (d : Dev) (k : Msg) : Dev := d.answer k 0

/-- CLAIM (R406, R407): while the key is VACANT or GATHERING it is answered at the election. -/
def umsalClaim (d : Dev) (k : Msg) : Dev :=
  let n := k.session
  let b := field k.body 0 1
  let put := fun (d : Dev) (seq : Option Nat) =>
    d.setKey fun y => { y with claims := y.claims.filter (·.session != n) ++ [⟨n, b % 16, seq⟩] }
  if bit b 7 then (d.dropClaim n).answer k 0
  else match d.holder with
    | some h => if h = n then d.answer k 0 else (put d none).answer k 13 h
    | none =>
      let d := (put d (some k.seq)).setSession n fun s => { s with busy := some k.seq }
      let now := d.time
      d.setKey fun y => { y with gatherAt := some (y.gatherAt.getD now) }

/-- HANDOVER (R408). The successor's priority is that of its pending claim; without one it is open. -/
def umsalHandover (d : Dev) (k : Msg) : Dev :=
  let n := field k.body 0 1
  if d.holder != some k.session then d.answer k 4
  else if d.mgt.escrow.state = 1 then d.answer k 10
  else if d.mgt.escrow.state = 2 then d.answer k 15
  else if (d.session n).isNone || n = k.session then d.answer k 8
  else
    let prio := match d.mgt.key.claims.find? (·.session = n) with
      | some c => c.prio
      | none => Config.openValue d.fresh 0 % 16
    (d.draw.changeKey (some n) prio 2).answer k 0

/-- RESIGN. -/
def umsalResign (d : Dev) (k : Msg) : Dev :=
  if d.holder != some k.session then d.answer k 4 else (d.answer k 0).vacate 3

/-- SUBSCRIBE (R398). -/
def umsalSubscribe (d : Dev) (k : Msg) : Dev :=
  let q := field k.body 0 1
  match d.session k.session with
  | none => d
  | some s =>
    if s.peer.isNone || s.minor = 0 then d.answer k 16
    else if q = 0xFF then (d.setSession k.session fun s => { s with queue := none }).answer k 0
    else if q < 2 || 7 < q || d.mgt.sessions.any (fun e => e.1 != k.session && e.2.queue = some q) then d.answer k 8
    else (d.setSession k.session fun s => { s with queue := some q }).answer k 0

/-! ### Times (R396, R406) -/

/-- CLAIM_WINDOW_END: 100 ms after the first claim. -/
def claimWindowEnd (d : Dev) : Dev :=
  match d.mgt.key.gatherAt with
  | some t => d.when (t + ms 100 ≤ d.time) (·.elect)
  | none => d

/-- KEY_SILENCE: 2 s without a valid request of the keyholder. -/
def keySilence (d : Dev) : Dev := d.when (d.holder.isSome && d.mgt.key.heardAt + ms 2000 ≤ d.time) (·.vacate 4)

/-- SESSION_TIMEOUT of a network session. -/
def sessionTimeout (d : Dev) (n : Nat) : Dev :=
  match d.session n with
  | some s => d.when (n < 8 && s.lastAt + ms 1000 * d.appliedNum 0x9010 1 ≤ d.time) (·.closeSession n 2)
  | none => d

/-! ### Notices to a session (R399) -/

/-- Popping a queue as firmware does: nothing is returned to the host. -/
def popFor (d : Dev) (q : Nat) : Dev × List Byte :=
  let out := d.out
  let d := { d.noticePop q false with out := out }
  (d, le 4 (d.reg (NTQ_LAST0.addr q)).toNat ++ le 4 (d.reg (NTQ_LAST1.addr q)).toNat ++ le 4 (d.reg (NTQ_LAST2.addr q)).toNat
    ++ le 4 (d.reg (NTQ_LAST3.addr q)).toNat)

/-- The idle item of R52. -/
def idleItem : List Byte := le 12 0 ++ le 4 0xE00FFFFF

/-- NOTICE_SEND: up to 16 items of the session's queue, at most one message per 10 ms. -/
def noticeSend (d : Dev) (n : Nat) : Dev :=
  match d.session n with
  | none => d
  | some s =>
    match s.queue with
    | none => d
    | some q =>
      let due := match s.noticeAt with | some t => t + ms 10 ≤ d.time | none => true
      d.when (due && 0 < d.popItems q && d.mgt.firmware = .running) fun d =>
        let valid := Nat.min 16 (d.popItems q)
        let (d, items) := (List.range valid).foldl (fun (d, l) _ => let (d, i) := Dev.popFor d q; (d, l ++ i)) (d, [])
        let idle := (List.replicate (16 - valid) idleItem).flatten
        let body := le 1 q ++ le 1 valid ++ le 2 0 ++ le 4 (d.reg (NTQ_LOST.addr q)).toNat ++ items ++ idle
        let l := message s.minor 0x41 n s.noticeSeq s.nonce body
        let now := d.time
        (d.setSession n fun s => { s with noticeSeq := (s.noticeSeq + 1) % 2 ^ 16, noticeAt := some now }).sendTo n l

end Dev
end Sys2Proof.Machine
end

