-- ==== Sys2Proof/Machine/Control.lean ====
section
/-! DEFINITION. Dictionary and escrow requests (R387, R389, R392, R397, R410-R414) and the course of a commit. -/

namespace Sys2Proof.Machine
namespace Dev

/-! ### DESCRIBE -/

/-- Eight bytes of a limit or default, sign-extended. -/
def wide (v : Int) : List Byte := le 8 (unsigned 64 v)

/-- CLASS of an access right: acts at once, lands at an apply, read-only. -/
def accessClass (acc : Nat) : Nat := if acc = aRW || acc = aWO then 0 else if acc = aRWE then 1 else 2

/-- What DESCRIBE tells of an object; a default, limit or name that the spec does not state is open. -/
def describeBody (d : Dev) (i s : Nat) (o : Obj) : List Byte :=
  let v := fun j => le 8 (Config.openValue d.fresh j)
  let len := if o.isBytes then o.maxLen else typeSize o.typ
  let settable := o.acc = aRW || o.acc = aRWE
  let dflt := if o.isBytes then v 0
    else if settable then wide (o.toInt (dictReset (objKey i s)))
    else if o.acc = aConst then le 8 (fromLe (d.live i s)) else v 0
  let ranged := !o.isBytes && (settable || o.acc = aWO) && o.also.isEmpty
  let name := if o.name = "" then (List.range 4).flatMap fun j => v (3 + j) else (ascii o.name ++ List.replicate 32 0).take 32
  le 1 o.typ ++ le 1 o.acc ++ le 1 (accessClass o.acc) ++ le 1 (ofBool o.expert) ++ le 4 len ++ dflt
    ++ (if ranged then wide o.lo else v 1) ++ (if ranged then wide o.hi else v 2) ++ name

/-- DESCRIBE. -/
def umsalDescribe (d : Dev) (k : Msg) : Dev :=
  let i := field k.body 0 2
  let s := field k.body 2 1
  match objAt i s with
  | none => d.answer k 5
  | some o => (d.answer k 0 0 (d.describeBody i s o)).draw

/-! ### The escrow as requests see it -/

/-- An escrow message restarts the idle time while the escrow is OPEN (R411). -/
def escrowHeard (d : Dev) : Dev :=
  let now := d.time
  d.when (d.mgt.escrow.state = 1) (·.setEscrow fun e => { e with lastAt := now })

/-- The value staged for an object; of DATA of the passthrough, the last one staged with an ADDR (R389, R410). -/
def stagedValue (d : Dev) (i s : Nat) : Option (List Byte) :=
  (d.mgt.escrow.writes.find? fun w => w.index = i && w.sub = s && i != 0xE000).map (·.data)
def stagedData (d : Dev) (addr : Nat) : Option (List Byte) :=
  ((d.mgt.escrow.writes.filter fun w => w.index = 0xE000 && w.addr = addr).getLast?).map (·.data)

/-- Whether a session is to be told that its escrow was rolled back for idleness; it is told once. -/
def lateEscrow (d : Dev) (k : Msg) (act : Dev → Dev) : Dev :=
  match (d.session k.session).bind (·.timedOut) with
  | some id => (d.setSession k.session fun s => { s with timedOut := none }).answer k 14 (id % 2 ^ 16)
  | none => act d

/-! ### READ (R387, R389, R397) -/

/-- Reading an offset through an alias: the register's current value, or the bit of a flag register, without any side effect (R27,
R28); an offset that names no register reads 0 (R13, R26). -/
def aliasRead (d : Dev) (off : Nat) : Word :=
  match aliasOf off with
  | some (.bit b, a) => word (ofBool ((d.regRead a).getLsbD b))
  | some (_, a) => d.regRead a
  | none => d.regRead off

/-- Reading a register with its read side effect (R33, R52, R343, R400), for the device itself: nothing is returned to the host. The
sample of an encoder channel that such a read latches is open, as the request does not carry it (log entry 20). -/
def readWith (d : Dev) (a : Nat) : Dev × Word :=
  let out := d.out
  let queue := (List.range 8).find? fun q => NTQ_POP.addr q = a
  let box := (List.range 2).find? fun m => MGT_MBX_RX.addr m = a
  let chan := (List.range 4).find? fun i => ENC_POS.addr i = a
  let e := match queue, box, chan with
    | some q, _, _ => d.noticePop q false
    | _, some m, _ => d.mailboxRead m
    | _, _, some i =>
      let v := Config.openValue d.fresh
      d.draw.positionRead i ⟨Fin.ofNat 100 (v 0), [⟨BitVec.ofNat 14 (v 1), BitVec.ofNat 14 (v 2), bit (v 3) 0, 0⟩]⟩
    | none, none, none => d.latchRead a
  match e.out.drop out.length with
  | .readData _ v :: _ => ({ e with out := out }, v)
  | _ => (d, d.aliasRead a)

/-- The bytes a READ draws from. -/
def readValue (d : Dev) (k : Msg) (i s : Nat) (o : Obj) : Dev × List Byte :=
  if i = 0xE000 && s != 0 then
    let addr := ((d.session k.session).map (·.addr)).getD 0
    if s = 1 then (d, le 4 addr)
    else match (if k.staged then d.stagedData addr else none) with
      | some l => (d, l)
      | none =>
        let (d, v) := d.readWith addr
        (d, le 4 v.toNat)
  else match (if k.staged then d.stagedValue i s else none) with
    | some l => (d, l)
    | none => (d, if o.acc = aRW || o.acc = aRWE then d.applied i s else d.live i s)

/-- READ. Of a value of fixed size, at most MAX_LENGTH bytes are returned too. -/
def umsalRead (d : Dev) (k : Msg) : Dev :=
  let i := field k.body 0 2
  let s := field k.body 2 1
  let off := field k.body 4 4
  let max := field k.body 8 2
  let mine := d.holder = some k.session
  if ((k.staged && d.mgt.escrow.state = 1) || i / 0x1000 = 0xE) && !mine then d.answer k 4
  else
    let d := d.when k.staged (·.escrowHeard)
    match objAt i s with
    | none => d.answer k 5
    | some o =>
      if o.acc = aWO then d.answer k 6
      else if !o.isBytes && off != 0 then d.answer k 8
      else
        let (d, l) := d.readValue k i s o
        if l.length < off then d.answer k 8
        else
          let seg := (l.drop off).take (Nat.min 1408 max)
          d.answer k 0 0 (le 1 o.typ ++ le 3 0 ++ le 4 l.length ++ le 2 seg.length ++ le 2 0 ++ seg)

/-! ### WRITE (R387, R389, R397, R410) -/

/-- The check of a write on its own: the STATUS of its refusal, or the value it makes. -/
def checkWrite (d : Dev) (k : Msg) : Except Nat (List Byte) :=
  let i := field k.body 0 2
  let s := field k.body 2 1
  let off := field k.body 4 4
  let len := field k.body 8 2
  let data := (k.body.drop 12).take len
  let isOpen := d.mgt.escrow.state = 1
  match objAt i s with
  | none => .error 5
  | some o =>
    if o.acc = aConst || o.acc = aRO || (o.acc = aRWE && !isOpen) then .error 6
    else if field k.body 3 1 != o.typ || (!o.isBytes && len != typeSize o.typ) then .error 7
    else if o.isBytes then
      let before := if off = 0 then [] else ((if isOpen then d.stagedValue i s else some (d.applied i s))).getD []
      if off != before.length || o.maxLen < off + len || !lengthOk i s (off + len) then .error 8 else .ok (before ++ data)
    else if off != 0 || !o.within (o.toInt data) || !extraOk i s (fromLe data) then .error 8
    else .ok data

/-- Staging a write in the OPEN escrow: a later write to an object takes the place of an earlier one; writes of the passthrough are
all kept, each with its ADDR. -/
def stage (d : Dev) (k : Msg) (i s : Nat) (l : List Byte) : Dev :=
  let len := field k.body 8 2
  let e := d.mgt.escrow
  if 1024 ≤ e.count || 65536 < e.bytes + len then d.answer k 11
  else
    let addr := ((d.session k.session).map (·.addr)).getD 0
    let kept := if i = 0xE000 then e.writes else e.writes.filter fun w => !(w.index = i && w.sub = s)
    (d.setEscrow fun e => { e with writes := kept ++ [⟨i, s, addr, l⟩], count := e.count + 1, bytes := e.bytes + len }).answer k 0

/-- WRITE. -/
def umsalWrite (d : Dev) (k : Msg) : Dev :=
  let i := field k.body 0 2
  let s := field k.body 2 1
  if d.holder != some k.session then d.answer k 4
  else if d.mgt.escrow.state = 2 then d.answer k 15
  else
    let d := d.escrowHeard
    match d.checkWrite k with
    | .error n => d.answer k n
    | .ok l =>
      if i = 0xE000 && s = 1 then (d.setSession k.session fun e => { e with addr := fromLe l }).answer k 0
      else if i = 0x1010 && s = 1 then (d.actObject i s l).answer k 0
      else if d.mgt.escrow.state = 1 then d.stage k i s l
      else if i = 0xE000 then (d.passWrite (((d.session k.session).map (·.addr)).getD 0) l).answer k 0
      else (d.actObject i s l).answer k 0

/-- Whether a message is a WRITE of one object. -/
def isWriteOf (d : Dev) (f : UmsalFrom) (i s : Nat) : Bool :=
  match Msg.parse (d.messageOf f) with
  | some k => k.typ = 0x11 && field k.body 0 2 = i && field k.body 2 1 = s
  | none => false

/-! ### Escrow requests (R410, R411) -/

/-- ESC_BEGIN. -/
def escBegin (d : Dev) (k : Msg) : Dev :=
  d.lateEscrow k fun d =>
    if d.holder != some k.session then d.answer k 4
    else if d.mgt.escrow.state = 1 then d.escrowHeard.answer k 10
    else if d.mgt.escrow.state = 2 then d.answer k 15
    else
      let id := (d.mgt.escrow.id + 1) % 2 ^ 32
      (d.setEscrow fun _ => { Escrow.reset with state := 1, id := id, lastAt := d.time }).answer k 0 0 (le 4 id)

/-- ESC_ROLLBACK. -/
def escRollback (d : Dev) (k : Msg) : Dev :=
  if d.holder != some k.session then d.answer k 4
  else if d.mgt.escrow.state = 0 then d.answer k 9
  else if d.mgt.escrow.state = 2 then d.answer k 15
  else (d.rollBack 1).answer k 0

/-- ESC_STATUS; with no escrow in the device the ID and the time are open. -/
def escStatus (d : Dev) (k : Msg) : Dev :=
  d.lateEscrow k fun d =>
    let e := d.mgt.escrow
    let none' := e.state = 0
    let id := if none' then Config.openValue d.fresh 0 else e.id
    let idle := if none' then Config.openValue d.fresh 1 else Nat.min (2 ^ 32 - 1) ((d.time - e.lastAt) / ms 1)
    let body := le 1 e.state ++ le 3 0 ++ le 4 id ++ le 2 e.count ++ le 2 0 ++ le 4 e.bytes ++ le 4 idle
    (d.draw.escrowHeard).answer k (if e.state = 2 then 15 else 0) 0 body

/-- ESCROW_IDLE_TIMEOUT: more than 10 s without an escrow message; a commit at exactly 10 s still goes (R415). -/
def escrowIdle (d : Dev) : Dev :=
  let e := d.mgt.escrow
  d.when (e.state = 1 && e.lastAt + ms 10000 < d.time) fun d =>
    let d := match d.holder with
      | some n => d.setSession n fun s => { s with timedOut := some e.id }
      | none => d
    d.rollBack 2

/-! ### The commit (R412-R414) -/

/-- Answering ESC_COMMIT to the session that sent it, while that is open. -/
def answerCommit (d : Dev) (c : Commit) (status detail : Nat) (rest : List Byte) : Dev :=
  match c.session with
  | none => d
  | some n =>
    match d.session n with
    | some s => if s.nonce = c.nonce then d.answerWith n 0x31 c.seq status detail rest else d
    | none => d

/-- Whether the restore at boot has given an object a value (R430). -/
def restored (d : Dev) (i s : Nat) : Bool := d.mgt.restore = 1 && (d.mgt.savedSet.any fun l => l.any fun e => e.1 = objKey i s)

/-- The end of boot: firmware enables the ports, each as its restored value of EN says, and each that has none (R388, R452); it sets the lock
bits (R439). -/
def bootEnd (d : Dev) : Dev :=
  let d := d.forEach (List.range 16) fun p d => if d.restored (0x3000 + 0x100 * p) 1 then d else d.actObject (0x3000 + 0x100 * p) 1 [1]
  let d := d.set1 DCT_LOCK.SEC_CFG
  d.when (d.is SEC_STAT.BOARD) (·.set1 DCT_LOCK.FUSE_PROG)

/-- A rejected commit: nothing of the set lands, and what has been `written` is taken back. Tick and time of its answer are open. -/
def rejectCommit (d : Dev) (f : Failure) (written : Bool) : Dev :=
  match d.mgt.escrow.commit with
  | none => d
  | some c =>
    let id := d.escrowId
    let d := ((d.when written (·.rollBackRegs)).count MGT_ESC_REJECT_CNT.addr).escrowGone
    let d := d.notice .alert idMGT 0x014 (id % 2 ^ 16 * 2 ^ 16 + f.detail * 2 ^ 8 + f.reason)
    let v := fun i => Config.openValue d.fresh i
    let body := le 4 id ++ le 2 f.index ++ le 1 f.sub ++ le 1 0 ++ le 2 0 ++ le 2 0 ++ le 8 (v 0) ++ le 8 (v 1)
    let d := d.answerCommit c 12 (f.detail * 2 ^ 8 + f.reason) body
    d.draw.when c.session.isNone fun d => (d.setMgt fun m => { m with restore := 2 }).notice .alert idMGT 0x028 (f.detail * 2 ^ 8 + f.reason) |>.bootEnd

/-- A commit that has landed. -/
def finishCommit (d : Dev) : Dev :=
  match d.mgt.escrow.commit with
  | none => d
  | some c =>
    let id := d.escrowId
    let d := d.commitLands.escrowGone
    let tick := d.get64 CAD_APPLY_TICK.addr
    let flags := ofBool d.cad.refused + 2 * ofBool (tick = 2 ^ 64 - 1)
    let body := le 4 id ++ le 2 0xFFFF ++ le 1 0 ++ le 1 0 ++ le 2 flags ++ le 2 0 ++ le 8 tick ++ le 8 (d.get64 CAD_APPLY_TIME.addr)
    let d := (d.notice .event idMGT 0x013 id).answerCommit c 0 0 body
    d.when c.session.isNone fun d => (d.setMgt fun m => { m with restore := 1 }).notice .info idMGT 0x027 0 |>.bootEnd

/-- GO of a commit, once no apply is pending: one that a passthrough write of the set has requested lands first (R415). -/
def commitGo (d : Dev) : Dev :=
  d.when (!d.is CAD_APPLY.PENDING) fun d =>
    let n := d.get64 CAD_APPLY_CNT.addr
    (d.applyRequest).setEscrow fun e => { e with commit := e.commit.map fun c => { c with applies := some n } }

/-- Waiting for a pending apply to land (R412, step 3): no staged register takes a write before (R75), so every part of a commit that writes one
waits. `go` is what follows. -/
def commitWaits (d : Dev) (go : Dev → Dev) : Dev :=
  let now := d.time
  let pending := d.is CAD_APPLY.PENDING
  let d := d.setEscrow fun e => { e with commit := e.commit.map fun c => { c with waitAt := if pending then some (c.waitAt.getD now) else none } }
  if pending then d else go d

/-- The end of a commit's loads: ARM and the writes of the set, once no apply is pending, then GO (R412, steps 2 to 4). -/
def commitWrites (d : Dev) : Dev :=
  match d.mgt.escrow.commit with
  | none => d
  | some c => d.when (d.commitLoaded c) (·.commitWaits fun d =>
    match d.commitArm c with
    | (d, some f) => d.rejectCommit f true
    | (d, none) => d.commitGo)

/-- What the commit does next by itself: its loads, ARM, writes and GO, step 6 once the apply has landed, a rejection where the apply was
cancelled. -/
def settle (d : Dev) : Dev :=
  match d.mgt.escrow.commit with
  | none => d
  | some c =>
    d.when (d.mgt.firmware = .running) fun d =>
      match c.applies with
      | none =>
        if c.written then d.commitGo else if c.loading then d.commitWrites
        else d.commitWaits fun d => d.commitBuild.commitWrites
      | some n =>
        d.when (!d.is CAD_APPLY.PENDING) fun d =>
          if d.get64 CAD_APPLY_CNT.addr = n then d.rejectCommit ⟨0xFFFF, 0, 9, 0⟩ true else d.finishCommit

/-- Starting a commit of the staged writes: validation first. One that starts anew (R425) may have written registers already. -/
def startCommit (d : Dev) (c : Commit) : Dev :=
  let d := d.setEscrow fun e => { e with state := 2, commit := some c }
  match Failure.first (d.failures d.mgt.escrow.writes) with
  | some f => d.rejectCommit f c.loading
  | none => (d.setEscrow fun e => { e with commit := some { c with waitAt := none, armed := [], loading := false, written := false } }).settle

/-- ESC_COMMIT. -/
def escCommit (d : Dev) (k : Msg) : Dev :=
  d.lateEscrow k fun d =>
    if d.holder != some k.session then d.answer k 4
    else if d.mgt.escrow.state = 0 then d.answer k 9
    else if d.mgt.escrow.state = 2 then d.answer k 15
    else
      let d := d.setSession k.session fun s => { s with busy := some k.seq }
      d.startCommit { session := some k.session, nonce := k.nonce, seq := k.seq, waitAt := none, armed := [], loading := false, written := false, applies := none }

/-- APPLY_PENDING_TIMEOUT: an apply pending for 1 s when the commit wants to write. -/
def applyPendingTimeout (d : Dev) : Dev :=
  match d.mgt.escrow.commit with
  | none => d
  | some c =>
    d.when (c.applies.isNone && d.is CAD_APPLY.PENDING && (c.waitAt.any fun t => t + ms 1000 ≤ d.time)) (·.rejectCommit ⟨0xFFFF, 0, 10, 0⟩ c.loading)

end Dev
end Sys2Proof.Machine
end

