-- ==== Sys2Proof/Machine/Service.lean ====
section
/-! DEFINITION. The management cores (R422-R425), system reset, boot and recovery (R428-R432, R450-R457). -/

namespace Sys2Proof.Machine
namespace Dev

/-! ### The management cores (R423-R425) -/

/-- The update in progress is abandoned by a failover (R425); in PROBATION the old core, with its image, runs again. -/
def updateAbandoned (d : Dev) : Dev :=
  if d.inPhase 3 then d.swapImages.updateEnds 6 else d.when d.mgt.update.isSome (·.updateEnds 6)

/-- The slip search that firmware drives starts again, on the lanes not locked of each port in SLIP (R110, R425). -/
def searchAgain (d : Dev) : Dev :=
  d.forEach ((List.range 16).filter fun p => d.portState p = stSlip && !d.is (AVP_PORT_CTL.SLIP_MODE p)) fun p d =>
    d.setLink p fun k => { k with slipAt := d.time, boundary := k.boundary.filter fun e => d.is (AVP_LANE_STAT.LOCK p e.1) }

/-- The active core fails (R424): failover to a healthy standby, or SAFE; an update in progress is abandoned (R425, R440). A commit whose GO is
not written starts anew, as does a slip search (R425). -/
def coreFail (d : Dev) : Dev :=
  let core := d.get MGT_ROLE.ACTIVE
  d.when (d.mgt.firmware = .running) fun d =>
    if d.is MGT_ROLE.STBY_OK then
      let d := (d.switchCore.unset MGT_ROLE.STBY_OK).count MGT_FAILOVER_CNT.addr
      let d := (d.notice .fault idMGT 0x021 (1 - core)).faultLog idMGT (some 6) core 0
      let d := d.updateAbandoned.searchAgain
      match d.mgt.escrow.commit with
      | some c => if c.applies.isNone then d.startCommit c else d
      | none => d
    else
      let safe := d.mode = 7
      let d := d.updateAbandoned.notice .fault idMGT 0x022 core
      let d := (d.setMgt fun m => { m with firmware := .lost }).safeEntry 4
      d.faultLog idMGT (some (if safe then 6 else 8)) core (if safe then 0 else 4)

/-- CORE_LASTING_ERROR: an error in the active core's memory or execution; gone at the second read it was transient (R417, R424). -/
def coreError (d : Dev) (o : Retry) : Dev :=
  match o with
  | .transient => d.when (d.mgt.firmware = .running) (·.transient idMGT)
  | .lasting => d.coreFail

/-- STANDBY_HEARTBEAT_MISS: the standby core is unhealthy and is rebooted. -/
def standbyMiss (d : Dev) : Dev :=
  d.when (d.is MGT_ROLE.STBY_OK) fun d =>
    (d.unset MGT_ROLE.STBY_OK).notice .alert idMGT 0x023 (1 - d.get MGT_ROLE.ACTIVE)

/-- STANDBY_REBOOT_DONE: the rebooted core returns to standby, or has failed its self-test; after two failures it stays out of
service. A core that boots an update does not come back this way. -/
def standbyReboot (d : Dev) (passed : Bool) : Dev :=
  let core := 1 - d.get MGT_ROLE.ACTIVE
  let fails := Tab.get (fun _ => 0) d.mgt.failed core
  d.when (d.mgt.firmware = .running && !d.is MGT_ROLE.STBY_OK && !d.is MGT_ROLE.OUT && !d.inPhase 2 && !d.inPhase 3) fun d =>
    if passed then d.set1 MGT_ROLE.STBY_OK
    else
      let d := d.setMgt fun m => { m with failed := Tab.set (fun _ => 0) m.failed core (fails + 1) }
      d.when (2 ≤ fails + 1) (·.set1 MGT_ROLE.OUT)

/-! ### System reset (R450) -/

/-- What SYS_RST_N low does to the outputs: every field pin that drives goes to mode 0, and THERM_N is released (R450). -/
def outputsOff (d : Dev) : Dev :=
  let d := d.forEach ((List.range 16).filter fun p => (d.pinDrive p).isSome) fun p d => d.emit (.fioPin p none)
  d.when (d.is DCT_TEMP.THERM) fun d => d.emit (.therm false)

/-- SYS_RST_ASSERT: everything but the parameter store, the fuses and what has been transmitted goes; the fused SVN and the board word stay, and
so do the level of PERST_N and the value of PCIE_SRIS sampled at its last release (R304, R451). -/
def systemReset (d : Dev) : Dev :=
  let m := d.mgt
  let kept := { MgtState.reset with
    bootCount := m.bootCount, faultLog := m.faultLog, logCount := m.logCount, retired := m.retired, lostTellers := m.lostTellers
    mram := m.mram, preferred := m.preferred, again := m.again, fuses := { m.fuses with burning := none } }
  let svn := d.fusedSvn
  let board := d.get SEC_STAT.BOARD
  let sris := d.get HEP_LINK_STAT.SRIS
  let e := { Dev.reset with out := d.outputsOff.out, fresh := d.fresh, low := true, mgt := kept }.setHep fun x => { x with perst := d.hep.perst }
  (((e.put SEC_STAT.SVN svn).put SEC_STAT.BOARD board).put HEP_LINK_STAT.SRIS sris).loadIdentity

/-- PERST_N moves while SYS_RST_N is low: its level is kept, and PCIE_SRIS sampled at its release (R304, R451, R457). -/
def perstPin (d : Dev) (low : Bool) (sris : Option Bool) : Dev :=
  let d := d.setHep fun x => { x with perst := low }
  match sris with
  | some v => d.put HEP_LINK_STAT.SRIS (ofBool v)
  | none => d

/-- The boot ROM enters recovery (R454). -/
def enterRecovery (d : Dev) (cause : Nat) : Dev :=
  ((d.set1 MGT_RCV_STAT.ACTIVE).put MGT_RCV_STAT.CAUSE cause).setMgt fun m => { m with firmware := .recovery }

/-- SYS_RST_RELEASE: the boot ROM starts, reads the boot control, counts the boot and samples RCV_FORCE (R452); where no copy is valid it has the
defaults, slot A and a count of 0 (R429). A recovery whose flash write failed begins again (R456). -/
def systemStart (d : Dev) (rcvForce : Bool) (control : Bool × Bool) : Dev :=
  d.when d.low fun d =>
    let copies := readCopies control d.mgt.mram.control
    let found := newest controlBytes copies
    let (slot, count) := (found.map (·.value)).getD (0, 0)
    let d := { d with low := false }.setMgt fun m => { m with mram := { m.mram with control := copies }, controlBad := found.isNone }
    let d := d.setControl slot ((count + 1) % 2 ^ 32)
    if rcvForce then d.enterRecovery 2 else d.when (d.mgt.again != 0) fun d => d.enterRecovery d.mgt.again

/-! ### Boot (R432, R452) -/

/-- MCA starts on an image: failed boot checks are pushed now, as is a boot control of which no copy is valid, and the PTP port runs (R403,
R429, R432). -/
def startFirmware (d : Dev) (img : ImageInfo) : Dev :=
  let l := d.mgt.unreported
  let d := d.setMgt fun m => { m with firmware := .running, image := img, unreported := [] }
  let d := d.put SEC_STAT.KEY_SLOT img.keySlot
  let d := d.forEach l fun e d => d.notice .alert idSEC 0x010 (e.2 * 16 + e.1)
  (d.when d.mgt.controlBad fun d => (d.notice .alert idMGT 0x029 0).setMgt fun m => { m with controlBad := false }).ptpRestart

/-- A verification of a slot by the boot ROM; its notice waits for firmware. -/
def bootCheck (d : Dev) (slot check : Nat) : Dev :=
  let d := d.count SEC_VERIFY_CNT.addr
  d.when (check != 0) fun d =>
    ((d.count SEC_VERIFY_FAIL_CNT.addr).set1 SEC_FLAGS.VERIFY_FAIL).setMgt fun m => { m with unreported := m.unreported ++ [(slot, check)] }

/-- BOOT_VERIFY_DONE: the preferred slot is tried, then the other (R452). -/
def bootDone (d : Dev) (a b : SlotImage) : Dev :=
  d.when (d.mgt.firmware = .boot) fun d =>
    let first := d.mgt.preferred % 2
    let slot := fun s => if s = 0 then a else b
    let img := fun s => ImageInfo.ofHeader (slot s).bytes
    let check := fun s => d.imageCheck (slot s).bytes (slot s).sigOk
    let start := fun (d : Dev) s => (d.put SEC_STAT.SLOT s).startFirmware (img s)
    let c := check first
    let d := d.bootCheck first c
    if c = 0 then start d first
    else
      let o := 1 - first
      let e := check o
      let d := d.bootCheck o e
      if e = 0 then start d o else d.enterRecovery 1

/-- The saved values as staged writes (R430): NEXT_MODE is 0 unless the saved RESTORE_MODE is 1. The enables come last, since some registers
take no values while they are enabled and some no enable before them (R341, R374; log entry 48). -/
def savedWrites (l : List (Nat × List Byte)) : List StagedWrite :=
  let mode := fromLe (Tab.get dictReset l (objKey 0xB020 1)) = 1
  let l := l.filter fun e => e.1 != objKey 0x2000 1 || mode
  let enables := fun (e : Nat × List Byte) => ((objAt (e.1 / 256) (e.1 % 256)).map (·.name)) = some "EN"
  (l.filter (!enables ·) ++ l.filter enables).map fun e => ⟨e.1 / 256, e.1 % 256, 0, e.2⟩

/-- The restore at boot (R430), as escrow ID 0 of no session. DEDUCED: a store that has never been written gives nothing to restore, result 0, and
is not invalid (log entry 110). -/
def restore (d : Dev) : Dev :=
  let m := d.mgt
  match m.savedSet with
    | none => d.when (m.mram.saved.one.isSome || m.mram.saved.two.isSome) fun d =>
      (d.setMgt fun m => { m with restore := 3 }).notice .alert idMGT 0x029 0x10_0000
    | some l =>
      d.when (m.escrow.state = 0) fun d =>
        let d := d.setEscrow fun e => { e with writes := savedWrites l }
        d.startCommit { session := none, nonce := 0, seq := 0, waitAt := none, armed := [], loading := false, written := false, applies := none }

/-- VAULT_INIT_DONE (R240, R430): the recorded pages and tellers are retired, then the saved values committed; `store` tells which of their copies
the MRAM still holds. The vault is initialised after MCA has started. -/
def vaultInit (d : Dev) (store : Bool × Bool) : Dev :=
  d.when (!d.is VLT_STAT.INIT_DONE && (d.mgt.firmware = .running || d.mgt.firmware = .lost)) fun d =>
    let d := (d.set1 VLT_STAT.INIT_DONE).notice .info idVLT 0x01F 0
    d.when (d.mgt.firmware = .running) fun d =>
      let pages := d.mgt.retired
      let tellers := d.mgt.lostTellers
      let d := d.setMgt fun m => { m with
        retired := [], lostTellers := [], mram := { m.mram with saved := readCopies store m.mram.saved } }
      let d := d.forEach pages fun u d => d.retireRequest u
      let d := d.forEach tellers fun t d => d.softRetire t
      let d := d.restore
      d.when d.mgt.escrow.commit.isNone (·.bootEnd)

/-! ### Recovery (R454-R456) -/

/-- The size of the staging area. -/
def stagingSize : Nat := 32 * 2 ^ 20

/-- RECOVERY_CHUNK: the boot ROM takes the words handed over in slot 0, stores their data and answers one word. Of a SEND with no word
at all the answer is open. -/
def recoveryChunk (d : Dev) : Dev :=
  match d.mgt.firmware, (d.slot 0).request with
  | .recovery, some [] => (d.mailboxAnswer 0 [word (Config.openValue d.fresh 0)]).draw
  | .recovery, some [_] => d.mailboxAnswer 0 [2]
  | .recovery, some (off :: data) =>
    if stagingSize < off.toNat + 4 * data.length then d.mailboxAnswer 0 [1]
    else
      let l := bytesOf data
      let d := d.setMgt fun m => { m with
        staging := (l.zipIdx off.toNat).foldl (fun t e => Tab.set (fun _ => (0 : Byte)) t e.2 e.1) m.staging }
      d.mailboxAnswer 0 [0]
  | _, _ => d

/-- A byte range of the staging area. -/
def stagingBytes (d : Dev) (n : Nat) : List Byte := (List.range n).map fun i => Tab.get (fun _ => (0 : Byte)) d.mgt.staging i

/-- RECOVERY_VERIFY_DONE: the end of the verification of the first LEN bytes. -/
def recoveryVerified (d : Dev) (sigOk : Bool) : Dev :=
  d.when (d.mgt.firmware = .recovery && d.is MGT_RCV_STAT.VERIFYING) fun d =>
    let d := d.unset MGT_RCV_STAT.VERIFYING
    let n := d.mgt.verifyLen
    if n % 4 != 0 || n < 8192 || stagingSize < n then d.put MGT_RCV_STAT.RESULT 6
    else
      let l := d.stagingBytes n
      let img := ImageInfo.ofHeader l
      let check := d.imageCheck l sigOk
      let d := d.count SEC_VERIFY_CNT.addr
      if check = 0 then (d.put MGT_RCV_STAT.RESULT 7).startFirmware img
      else
        let d := ((d.count SEC_VERIFY_FAIL_CNT.addr).set1 SEC_FLAGS.VERIFY_FAIL).put MGT_RCV_STAT.RESULT check
        let slot := Config.openValue d.fresh 0 % 4
        d.draw.setMgt fun m => { m with unreported := m.unreported ++ [(slot, check)] }

/-- RECOVERY_FLASH_DONE: both slots written and verified, or a flash write failed: the boot control stays, and the next SYS_RST_N enters recovery
again, for the same cause (R456). -/
def recoveryFlashed (d : Dev) (ok : Bool) : Dev :=
  d.when (d.mgt.firmware = .running && d.is MGT_RCV_STAT.ACTIVE && !d.mgt.staging.isEmpty) fun d =>
    let svn := d.mgt.image.svn
    let d := d.setMgt fun m => { m with staging := [] }
    if ok then (((d.setControl 0 d.mgt.bootCount).setMgt fun m => { m with again := 0 }).raiseSvn svn).unset MGT_RCV_STAT.ACTIVE
    else d.setMgt fun m => { m with again := d.get MGT_RCV_STAT.CAUSE }

/-! ### Commands of firmware -/

/-- A command that only running firmware carries out. -/
def served (d : Dev) (f : Dev → Dev) : Dev := d.when (d.mgt.firmware = .running) f

end Dev
end Sys2Proof.Machine
end

