-- ==== Sys2Proof/Machine/Run.lean ====
section
/-! DEFINITION. How a command's effect on the device becomes the machine's: nothing happens while SYS_RST_N is low, a commit under way
goes on by itself before each command, and the vault takes the bytes written. -/

namespace Sys2Proof.Machine

/-- The answer of a command. -/
abbrev Result := Host.Outcome State Fault Refusal

/-- The vault with a list of writes carried out, oldest first. -/
def Vault.writeAll (m : Vault) (l : List (Nat × List Byte)) : Vault := l.foldl (fun m w => Vault.write m w.1 w.2) m

/-- The device with no vault write outstanding. -/
def Dev.flushed (d : Dev) : Dev := { d with vlt := { d.vlt with writes := [] } }

/-- The machine after a device has come out of an operation: the bytes written are in the vault. -/
def State.settleTo (s : State) (d : Dev) : State := { s with dev := d.flushed, vault := Vault.writeAll s.vault d.vlt.writes }

/-- What a commit under way does by itself before the next command. -/
def State.settled (s : State) : State := s.settleTo s.dev.settle

/-- A command's effect `f` on the device, which may read the vault; while SYS_RST_N is low there is none (R450). -/
def State.runWith (s : State) (f : Vault → Dev → Dev) : Result :=
  if s.dev.low then .next s else .next (s.settled.settleTo (f s.settled.vault s.settled.dev))

/-- A command's effect on the device alone. -/
def State.run (s : State) (f : Dev → Dev) : Result := s.runWith fun _ d => f d

namespace Dev

/-- What a step does where no command waits: the commits of the cycle that ends (R256), the packet boundaries at the end of the instant, then
one cycle of device time, with the cycles that counters of waits count in it: CORE cycles of a packet held for want of room in CLR's frame table
(R228) and HOST cycles of channels (R287, R321). -/
def idle (d : Dev) : Dev := (d.commitsDue.boundaries.tickTime.coreCycles d.time).hostCycles d.time

/-- What an operation has added to the transmissions, the data of registers among it as the host gets it: completions (R317). -/
def answersHost (d : Dev) (n : Nat) : Dev :=
  { d with out := d.out.take n ++ (d.out.drop n).map fun o => match o with | .readData a v => d.sealed (.readData a v) | o => o }

/-- A read by the host: nothing answers under PERST_N, and none is taken while Memory Space Enable is 0 (R305). -/
def hostRead (d : Dev) (f : Dev → Dev) : Dev :=
  if !d.hostUp then d else if !d.memEnable then d.unsupported false else (f d).answersHost d.out.length

/-- A read by a requester: the host's as `hostRead` takes it, any other one at once (R31, R34). -/
def readBy (d : Dev) (r : Requester) (f : Dev → Dev) : Dev := if r = .host then d.hostRead f else f d

/-- An action from a register write, or from activations of its task inputs (R376). -/
def byCause (d : Dev) (c : Cause) (write : Requester → Dev → Dev) (tasks : List Nat) : Dev :=
  match c with
  | .write r => write r d
  | .task => d.forEach tasks fun t d => d.activated t

/-- A write of 1 to a one-bit field. -/
def press (d : Dev) (r : Requester) (f : Bits) : Dev := d.fieldWrite r f 1

/-- An offset of a channel's page. -/
def chanOff (ch off : Nat) : Nat := 0xA1_0000 + ch * 0x1000 + off

end Dev
end Sys2Proof.Machine
end

