-- ==== Sys2Proof/Machine/CmdCadence.lean ====
section
/-! DEFINITION. The commands on cadence, time and modes (chapter 03). -/

namespace Sys2Proof.Machine

/-- APPLY_REQUEST (R75). -/
def execApplyRequest (r : Requester) (s : State) : Result := s.run fun d => d.press r CAD_APPLY.GO

/-- APPLY_LAND (R76). -/
def execApplyLand (s : State) : Result := s.run (·.applyLand)

/-- TICK_BEGIN (R64). -/
def execTickBegin (s : State) : Result := s.runWith fun m d => d.tickBegin m

/-- SCHEDULE_POINT (R68). -/
def execSchedulePoint (s : State) : Result := s.run (·.schedulePoint)

/-- DRAIN_COMPLETE (R88). -/
def execDrainComplete (s : State) : Result := s.run (·.drainComplete)

/-- DRAIN_TIMEOUT (R87). -/
def execDrainTimeout (s : State) : Result := s.run (·.drainTimeout)

/-- DRAIN_LIMIT_WRITE (R85). -/
def execDrainLimitWrite (r : Requester) (data : Word) (be : BitVec 4) (s : State) : Result :=
  s.run fun d => d.busWrite r DCT_DRAIN_LIMIT.addr data be.toNat

/-- DISC_WRITE (R62). -/
def execDiscWrite (r : Requester) (disc : BitVec 2) (s : State) : Result := s.run fun d => d.fieldWrite r CAD_TIME_CTL.DISC disc.toNat

/-- DISC_TIMEOUT (R62). -/
def execDiscTimeout (s : State) : Result := s.run (·.discTimeout)

/-- REF10M_LOSS (R62). -/
def execRef10mLoss (s : State) : Result := s.run (·.ref10mLoss)

/-- REF10M_RESTORED (R62). -/
def execRef10mRestored (trim : BitVec 32) (s : State) : Result := s.run fun d => d.ref10mRestored trim.toInt

/-- BUS_FRAME_SEND (R79, R80). -/
def execBusFrameSend (s : State) : Result := s.run (·.busFrameSend)

/-- BUS_FRAME_RECEIVE (R81). -/
def execBusFrameReceive (tick tickTime edge : BitVec 64) (flags crc : BitVec 16) (f : BitVec 64) (trim : BitVec 32) (s : State) : Result :=
  s.run fun d => d.busFrameReceive tick.toNat tickTime.toNat edge.toNat flags.toNat crc.toNat f.toNat trim.toInt

/-- BUS_SILENCE_TIMEOUT (R83). -/
def execBusSilenceTimeout (s : State) : Result := s.run (·.busSilence)

end Sys2Proof.Machine
end

