-- ==== Sys2Proof/Machine/CmdControl.lean ====
section
/-! DEFINITION. The commands on sessions, the dictionary, the escrow, the mailbox and the network (chapter 14). -/

namespace Sys2Proof.Machine

/-- UMSAL_OPEN (R394). -/
def execUmsalOpen (from' : UmsalFrom) (s : State) : Result := s.run fun d => d.umsal from' 0x01 fun d k => d.umsalOpen from' k

/-- UMSAL_CLOSE (R396). -/
def execUmsalClose (from' : UmsalFrom) (s : State) : Result := s.run fun d => d.umsal from' 0x02 Dev.umsalClose

/-- UMSAL_HEARTBEAT (R406). -/
def execUmsalHeartbeat (from' : UmsalFrom) (s : State) : Result := s.run fun d => d.umsal from' 0x03 Dev.umsalHeartbeat

/-- UMSAL_DESCRIBE (R392). -/
def execUmsalDescribe (from' : UmsalFrom) (s : State) : Result := s.run fun d => d.umsal from' 0x08 Dev.umsalDescribe

/-- UMSAL_READ (R387, R397). -/
def execUmsalRead (from' : UmsalFrom) (s : State) : Result := s.run fun d => d.umsal from' 0x10 Dev.umsalRead

/-- UMSAL_WRITE (R387, R397). -/
def execUmsalWrite (from' : UmsalFrom) (s : State) : Result := s.run fun d => d.umsal from' 0x11 Dev.umsalWrite

/-- UMSAL_CLAIM (R407). -/
def execUmsalClaim (from' : UmsalFrom) (s : State) : Result := s.run fun d => d.umsal from' 0x20 Dev.umsalClaim

/-- UMSAL_HANDOVER (R408). -/
def execUmsalHandover (from' : UmsalFrom) (s : State) : Result := s.run fun d => d.umsal from' 0x21 Dev.umsalHandover

/-- UMSAL_RESIGN (R406). -/
def execUmsalResign (from' : UmsalFrom) (s : State) : Result := s.run fun d => d.umsal from' 0x22 Dev.umsalResign

/-- ESC_BEGIN (R410). -/
def execEscBegin (from' : UmsalFrom) (s : State) : Result := s.run fun d => d.umsal from' 0x30 Dev.escBegin

/-- ESC_COMMIT (R412). -/
def execEscCommit (from' : UmsalFrom) (s : State) : Result := s.run fun d => d.umsal from' 0x31 Dev.escCommit

/-- ESC_ROLLBACK (R411). -/
def execEscRollback (from' : UmsalFrom) (s : State) : Result := s.run fun d => d.umsal from' 0x32 Dev.escRollback

/-- ESC_STATUS (R392). -/
def execEscStatus (from' : UmsalFrom) (s : State) : Result := s.run fun d => d.umsal from' 0x33 Dev.escStatus

/-- UMSAL_SUBSCRIBE (R398). -/
def execUmsalSubscribe (from' : UmsalFrom) (s : State) : Result := s.run fun d => d.umsal from' 0x40 Dev.umsalSubscribe

/-- NOTICE_SEND (R399). -/
def execNoticeSend (n : Fin 8) (s : State) : Result := s.run fun d => d.noticeSend n

/-- APPLY_PENDING_TIMEOUT (R412). -/
def execApplyPendingTimeout (s : State) : Result := s.run fun d => d.served (·.applyPendingTimeout)

/-- ESCROW_IDLE_TIMEOUT (R411). -/
def execEscrowIdleTimeout (s : State) : Result := s.run fun d => d.served (·.escrowIdle)

/-- SESSION_TIMEOUT (R396). -/
def execSessionTimeout (n : Fin 8) (s : State) : Result := s.run fun d => d.served (·.sessionTimeout n)

/-- KEY_SILENCE (R406). -/
def execKeySilence (s : State) : Result := s.run fun d => d.served (·.keySilence)

/-- CLAIM_WINDOW_END (R406). -/
def execClaimWindowEnd (s : State) : Result := s.run fun d => d.served (·.claimWindowEnd)

/-- PARAMETER_SAVE (R430): a WRITE of SAVE. -/
def execParameterSave (from' : UmsalFrom) (s : State) : Result :=
  s.run fun d => d.when (d.isWriteOf from' 0x1010 1) (·.umsal from' 0x11 Dev.umsalWrite)

/-- MAILBOX_TX_WRITE (R400). -/
def execMailboxTxWrite (r : Requester) (m : Fin 2) (data : Word) (be : BitVec 4) (s : State) : Result :=
  s.run fun d => d.busWrite r (MGT_MBX_TX.addr m) data be.toNat

/-- MAILBOX_SEND (R400). -/
def execMailboxSend (r : Requester) (m : Fin 2) (s : State) : Result := s.run fun d => d.press r (MGT_MBX_CTL.SEND m)

/-- MAILBOX_RESET (R400). -/
def execMailboxReset (r : Requester) (m : Fin 2) (s : State) : Result := s.run fun d => d.press r (MGT_MBX_CTL.RESET m)

/-- MAILBOX_RX_READ (R400). -/
def execMailboxRxRead (m : Fin 2) (s : State) : Result := s.run fun d => d.hostRead fun d => d.mailboxRead m

/-- ARP_REQUEST_RECEIVE (R401). -/
def execArpRequestReceive (n : Fin 2) (mac : BitVec 48) (ip target : BitVec 32) (s : State) : Result :=
  s.run fun d => d.arpRequest n mac.toNat ip.toNat target.toNat

/-- NEIGHBOR_SOLICITATION_RECEIVE (R401). -/
def execNeighborSolicitationReceive (n : Fin 2) (source target : BitVec 128) (s : State) : Result :=
  s.run fun d => d.neighborSolicit n source.toNat target.toNat

/-- ECHO_REQUEST_RECEIVE (R401). -/
def execEchoRequestReceive (n : Fin 2) (source dest : BitVec 128) (data : List Byte) (s : State) : Result :=
  s.run fun d => d.echoRequest n source.toNat dest.toNat data

/-- NET_FRAME_DROP (R401). -/
def execNetFrameDrop (n : Fin 2) (s : State) : Result := s.run fun d => d.frameDrop n

/-- ETH_LINK_CHANGE (R405). -/
def execEthLinkChange (n : Fin 2) (code : BitVec 3) (lock : Bool) (s : State) : Result := s.run fun d => d.ethLink n code.toNat lock

/-- PTP_MESSAGE_RECEIVE (R403). -/
def execPtpMessageReceive (n : Fin 2) (msg : PtpFrame) (s : State) : Result :=
  s.run fun d => d.ptpMessage n msg.domain.toNat msg.transport msg.msg

end Sys2Proof.Machine
end

