-- ==== Sys2Proof/Machine/CmdDma.lean ====
section
/-! DEFINITION. The commands on the DMA engine (chapter 10). -/

namespace Sys2Proof.Machine

/-- DMA_START (R299). -/
def execDmaStart (c : Cause) (ch : Fin 32) (s : State) : Result :=
  s.run fun d => d.byCause c (fun r d => d.press r (DMA_CH_CTL.START ch)) [0x080 + ch]

/-- DMA_STOP (R292). -/
def execDmaStop (c : Cause) (ch : Fin 32) (s : State) : Result :=
  s.run fun d => d.byCause c (fun r d => d.press r (DMA_CH_CTL.STOP ch)) [0x0A0 + ch]

/-- DMA_ABORT (R293). -/
def execDmaAbort (r : Requester) (ch : Fin 32) (s : State) : Result := s.run fun d => d.press r (DMA_CH_CTL.ABORT ch)

/-- DMA_OWNER_WRITE (R271). -/
def execDmaOwnerWrite (r : Requester) (data : Word) (be : BitVec 4) (s : State) : Result :=
  s.run fun d => d.busWrite r DMA_OWNER.addr data be.toNat

/-- CHANNEL_CONFIG_WRITE (R272): one of CFG, DRING_LO, DRING_HI, DRING_SIZE, CIRC and SHUF. -/
def execChannelConfigWrite (r : Requester) (ch : Fin 32) (off : BitVec 12) (data : Word) (be : BitVec 4) (s : State) : Result :=
  s.run fun d => d.when ([0x004, 0x008, 0x00C, 0x010, 0x01C, 0x020].contains off.toNat) fun d =>
    d.busWrite r (Dev.chanOff ch off.toNat) data be.toNat

/-- DRING_TAIL_WRITE (R276). -/
def execDringTailWrite (r : Requester) (ch : Fin 32) (data : Word) (be : BitVec 4) (s : State) : Result :=
  s.run fun d => d.busWrite r (DMA_CH_DRING_TAIL.addr ch) data be.toNat

/-- DRING_HEAD_WRITE (R276). -/
def execDringHeadWrite (r : Requester) (ch : Fin 32) (data : Word) (be : BitVec 4) (s : State) : Result :=
  s.run fun d => d.busWrite r (DMA_CH_DRING_HEAD.addr ch) data be.toNat

/-- SHADOW_VALID_WRITE (R277). -/
def execShadowValidWrite (r : Requester) (ch : Fin 32) (data : Word) (be : BitVec 4) (s : State) : Result :=
  s.run fun d => d.busWrite r (DMA_CH_SH_VALID.addr ch) data be.toNat

/-- SHADOW_FIELD_WRITE (R277): a register of the shadow set but VALID. -/
def execShadowFieldWrite (r : Requester) (ch : Fin 32) (off : BitVec 12) (data : Word) (be : BitVec 4) (s : State) : Result :=
  s.run fun d => d.when (0x080 ≤ off.toNat && off.toNat < 0x0A0) fun d => d.busWrite r (Dev.chanOff ch off.toNat) data be.toNat

/-- DESCRIPTOR_FETCH (R276). -/
def execDescriptorFetch (ch : Fin 32) (data : List Byte) (s : State) : Result := s.runWith fun m d => d.descFetch m ch data

/-- BUS_READ_COMPLETION (R278). -/
def execBusReadCompletion (ch : Fin 32) (data : List Byte) (s : State) : Result := s.runWith fun m d => d.readDone m ch data

/-- DESCRIPTOR_COMPLETE (R282). -/
def execDescriptorComplete (ch : Fin 32) (s : State) : Result := s.run fun d => d.descComplete ch

/-- BUS_ERROR (R294): one failed attempt of a request. -/
def execBusError (ch : Fin 32) (kind : BitVec 3) (fetch : Bool) (nth : Nat) (s : State) : Result :=
  s.run fun d => d.busErrorAt ch kind.toNat fetch nth

/-- STREAM_PAYLOAD_MOVE (R286). -/
def execStreamPayloadMove (ch : Fin 32) (s : State) : Result := s.runWith fun m d => d.payloadMove m ch

/-- LEDGER_COPY_ISSUE (R233). -/
def execLedgerCopyIssue (ch : Fin 32) (s : State) : Result := s.runWith fun m d => d.ledgerIssue m ch

/-- ZERO_LENGTH_READ_DONE (R288). -/
def execZeroLengthReadDone (ch : Fin 32) (s : State) : Result := s.run fun d => d.zlrDone ch

/-- LEDGER_COPY_ACCEPTED (R286). -/
def execLedgerCopyAccepted (ch : Fin 32) (s : State) : Result := s.run fun d => d.ledgerAccepted ch

/-- FLOW_ACK_WRITE (R287): PACK or LACK, its low or high word. -/
def execFlowAckWrite (r : Requester) (ch : Fin 32) (lack hi : Bool) (data : Word) (be : BitVec 4) (s : State) : Result :=
  s.run fun d => d.busWrite r ((if lack then DMA_CH_LACK.addr ch else DMA_CH_PACK.addr ch) + (if hi then 4 else 0)) data be.toNat

/-- IRQ_HOLDOFF_EXPIRE (R301). -/
def execIrqHoldoffExpire (ch : Fin 32) (s : State) : Result := s.run fun d => d.holdoffExpire ch

end Sys2Proof.Machine
end

