-- ==== Sys2Proof/Machine/CmdEvents.lean ====
section
/-! DEFINITION. The commands on strikes and event routing (chapter 13). -/

namespace Sys2Proof.Machine

/-- STRIKE_ARM (R365). -/
def execStrikeArm (c : Cause) (k : Fin 64) (s : State) : Result :=
  s.run fun d => d.byCause c
    (fun r d => d.fieldWrite r (if k.val < 32 then STP_ARM_LO.B else STP_ARM_HI.B) (2 ^ (k.val % 32))) [0x0C0 + k]

/-- STRIKE_DISARM (R365). -/
def execStrikeDisarm (c : Cause) (k : Fin 64) (s : State) : Result :=
  s.run fun d => d.byCause c
    (fun r d => d.fieldWrite r (if k.val < 32 then STP_DISARM_LO.B else STP_DISARM_HI.B) (2 ^ (k.val % 32))) [0x100 + k]

/-- TIME_STRIKE_LOCK (R366). -/
def execTimeStrikeLock (k : Fin 64) (s : State) : Result := s.run fun d => d.timeStrikeLock k

/-- POSITION_STRIKE_LOCK (R367). -/
def execPositionStrikeLock (k : Fin 64) (m : EncMotion) (s : State) : Result := s.run fun d => d.positionStrikeLock k m

/-- STRIKE_FIRE (R369). -/
def execStrikeFire (k : Fin 64) (s : State) : Result := s.run fun d => d.strikeFire k

/-- STRIKE_MISS_CHECK (R371). -/
def execStrikeMissCheck (k : Fin 64) (m : EncMotion) (s : State) : Result := s.run fun d => d.strikeMissCheck k m

/-- EVENT_ROUTE (R377). -/
def execEventRoute (s : State) : Result := s.run (·.eventRoute)

/-- TASK_ACT (R379). -/
def execTaskAct (t : BitVec 9) (s : State) : Result := s.run fun d => d.taskAct t.toNat

/-- SOFTWARE_FIRE (R380). -/
def execSoftwareFire (r : Requester) (ch : Fin 128) (s : State) : Result :=
  s.run fun d => d.fieldWrite r (EVR_FIRE.FIRE (ch.val / 32)) (2 ^ (ch.val % 32))

/-- DELAY_EXPIRE (R381). -/
def execDelayExpire (k : Fin 8) (s : State) : Result := s.run fun d => d.delayExpire k

end Sys2Proof.Machine
end

