-- ==== Sys2Proof/Machine/CmdField.lean ====
section
/-! DEFINITION. The commands on the encoders and the field pins (chapter 12). -/

namespace Sys2Proof.Machine

/-- ENCODER_ENABLE (R341). -/
def execEncoderEnable (r : Requester) (i : Fin 4) (s : State) : Result := s.run fun d => d.fieldWrite r (ENC_CH_CTL.EN i) 1

/-- ENCODER_DISABLE (R354). -/
def execEncoderDisable (r : Requester) (i : Fin 4) (s : State) : Result := s.run fun d => d.fieldWrite r (ENC_CH_CTL.EN i) 0

/-- POSITION_READ (R343). -/
def execPositionRead (r : Requester) (i : Fin 4) (m : EncMotion) (s : State) : Result :=
  s.run fun d => d.readBy r fun d => d.positionRead i m

/-- INDEX_PULSE (R348). -/
def execIndexPulse (i : Fin 4) (m : EncMotion) (s : State) : Result := s.run fun d => d.indexPulse i m

/-- STANDSTILL_ENTER (R345). -/
def execStandstillEnter (i : Fin 4) (m : EncMotion) (s : State) : Result := s.run fun d => d.standstillEnter i m

/-- STANDSTILL_LEAVE (R346): a motion that leaves the band. -/
def execStandstillLeave (i : Fin 4) (m : EncMotion) (s : State) : Result := s.run fun d => d.encSamples i m

/-- SETTLING_END (R346). -/
def execSettlingEnd (i : Fin 4) (s : State) : Result := s.run fun d => d.settlingEnd i

/-- OVERSPEED (R352). -/
def execOverspeed (i : Fin 4) (above : Bool) (m : EncMotion) (s : State) : Result := s.run fun d => d.overspeed i above m

/-- WIRING_FAULT (R350): an input, the limit it stands at outside 0.3 to 4.7 V, and whether the difference of its pair is below 15 mV. -/
def execWiringFault (i : Fin 4) (input : Fin 6) (rail : Option Bool) (close : Bool) (m : EncMotion) (s : State) : Result :=
  s.run fun d => d.wiringFault i input rail close m

/-- WIRING_FAULT_CLEAR (R351). -/
def execWiringFaultClear (i : Fin 4) (m : EncMotion) (s : State) : Result := s.run fun d => d.wiringClear i m

/-- BIAS_REVERSAL (R350). -/
def execBiasReversal (rails : List (Fin 4 × Fin 6 × Bool)) (s : State) : Result :=
  s.run fun d => d.biasReversal (rails.map fun e => (e.1.val, e.2.1.val, e.2.2))

/-- CLEAR_DOUBT (R352). -/
def execClearDoubt (r : Requester) (i : Fin 4) (s : State) : Result := s.run fun d => d.press r (ENC_CH_CMD.CLR_DOUBT i)

/-- FIO_EDGE (R357). -/
def execFioEdge (p : Fin 16) (level : Bool) (age : Nat) (s : State) : Result := s.run fun d => d.fioEdge p level age

/-- FIO_STUCK (R358). -/
def execFioStuck (p : Fin 16) (s : State) : Result := s.run fun d => d.fioStuck p

/-- STUCK_INPUT_RETURN (R358). -/
def execStuckInputReturn (p : Fin 16) (s : State) : Result := s.run fun d => d.stuckReturn p

/-- FIO_SET (R360). -/
def execFioSet (p : Fin 16) (s : State) : Result := s.run fun d => d.fioSet p

/-- FIO_CLR (R360). -/
def execFioClr (p : Fin 16) (s : State) : Result := s.run fun d => d.fioClr p

/-- FIO_TGL (R360). -/
def execFioTgl (p : Fin 16) (s : State) : Result := s.run fun d => d.fioTgl p

/-- FIO_PULSE (R360). -/
def execFioPulse (p : Fin 16) (s : State) : Result := s.run fun d => d.fioPulse p

/-- FIO_PULSE_END (R360). -/
def execFioPulseEnd (p : Fin 16) (s : State) : Result := s.run fun d => d.fioPulseEnd p

/-- OUTPUT_SHORT (R361). -/
def execOutputShort (p : Fin 16) (s : State) : Result := s.run fun d => d.outputShort p

/-- OUTPUT_REARM (R361). -/
def execOutputRearm (r : Requester) (p : Fin 16) (s : State) : Result := s.run fun d => d.press r (FIO_PIN_CMD.REARM p)

/-- OPEN_LOAD (R361). -/
def execOpenLoad (p : Fin 16) (s : State) : Result := s.run fun d => d.openLoad p

/-- VFIELD_LOW (R361). -/
def execVfieldLow (s : State) : Result := s.run fun d => d.vfield true

/-- VFIELD_RESTORED (R361). -/
def execVfieldRestored (s : State) : Result := s.run fun d => d.vfield false

end Sys2Proof.Machine
end

