-- ==== Sys2Proof/Machine/CmdHost.lean ====
section
/-! DEFINITION. The commands on the host endpoint (chapter 11). -/

namespace Sys2Proof.Machine

/-- INBOUND_READ (R313). -/
def execInboundRead (off : BitVec 38) (len : Nat) (reqId : BitVec 16) (s : State) : Result :=
  s.runWith fun m d => d.inboundRead m off.toNat len reqId.toNat

/-- INBOUND_WRITE (R313). -/
def execInboundWrite (off : BitVec 38) (data : List (Option Byte)) (reqId : BitVec 16) (s : State) : Result :=
  s.run fun d => d.inboundWrite off.toNat data reqId.toNat

/-- POISONED_WRITE (R311), to BAR0, BAR2 or BAR4. -/
def execPoisonedWrite (_bar : Fin 3) (s : State) : Result := s.run (·.poisonedWrite)

/-- MSIX_TABLE_ACCESS (R311). -/
def execMsixTableAccess (off : BitVec 16) (len : Nat) (data : Option (BitVec 64)) (s : State) : Result :=
  s.run fun d => d.msixAccess off.toNat len (data.map (·.toNat))

/-- WINDOW_COMMIT (R314): a write of HEP_WIN_CFG. -/
def execWindowCommit (r : Requester) (n : Fin 32) (data : Word) (be : BitVec 4) (s : State) : Result :=
  s.run fun d => d.busWrite r (HEP_WIN_CFG.addr n) data be.toNat

/-- COMPLETION_TIMEOUT (R319). -/
def execCompletionTimeout (tag : BitVec 14) (s : State) : Result := s.run fun d => d.completionTimeout tag.toNat

/-- LATE_COMPLETION (R320). -/
def execLateCompletion (tag : BitVec 14) (s : State) : Result := s.run fun d => d.lateCompletion tag.toNat

/-- TAG_QUARANTINE_END (R320). -/
def execTagQuarantineEnd (tag : BitVec 14) (s : State) : Result := s.run fun d => d.quarantineEnd tag.toNat

/-- POISONED_COMPLETION (R328). -/
def execPoisonedCompletion (tag : BitVec 14) (s : State) : Result := s.run fun d => d.poisonedCompletion tag.toNat

/-- ECRC_ERROR (R325). -/
def execEcrcError (s : State) : Result := s.run (·.ecrcError)

/-- HEP_INTERNAL_ERROR (R325). -/
def execHepInternalError (outcome : Retry) (s : State) : Result := s.run fun d => d.hepInternal outcome

/-- CONTAIN_RELEASE (R330). -/
def execContainRelease (r : Requester) (s : State) : Result := s.run fun d => d.press r HEP_CONTAIN.RELEASE

/-- RELEASE_COMPLETE (R330). -/
def execReleaseComplete (s : State) : Result := s.run (·.releaseComplete)

/-- PENDING_MSIX_SEND (R323). -/
def execPendingMsixSend (v : Fin 64) (s : State) : Result := s.run fun d => d.sendPending v

/-- LTR_WINDOW (R332). -/
def execLtrWindow (s : State) : Result := s.run (·.ltrWindow)

/-- LTR_SEND (R333). -/
def execLtrSend (s : State) : Result := s.run (·.ltrSend)

/-- CONFIG_WRITE (R306). -/
def execConfigWrite (off : BitVec 12) (data : Word) (be : BitVec 4) (s : State) : Result :=
  s.run fun d => d.configWrite off.toNat data.toNat be.toNat

/-- PERST_ASSERT (R334). -/
def execPerstAssert (ns : Nat) (s : State) : Result :=
  if ns < 100 then .next s
  else if s.dev.low then .next { s with dev := s.dev.perstPin true none }
  else s.run (·.perstAssert)

/-- PERST_RELEASE (R451). -/
def execPerstRelease (sris : Bool) (ns : Nat) (s : State) : Result :=
  if ns < 100 then .next s
  else if s.dev.low then .next { s with dev := s.dev.perstPin false (if s.dev.hep.perst then some sris else none) }
  else s.run fun d => d.perstRelease sris

/-- HOT_RESET (R334). -/
def execHotReset (linkDown : Bool) (s : State) : Result := s.run fun d => d.hotReset linkDown

/-- FUNCTION_LEVEL_RESET (R334). -/
def execFunctionLevelReset (d3 : Bool) (s : State) : Result := s.run fun d => d.flr d3

/-- HOST_RESET_COMPLETE (R334). -/
def execHostResetComplete (s : State) : Result := s.run (·.hostResetComplete)

/-- LINK_CHANGE (R335). -/
def execLinkChange (rate : BitVec 4) (width : BitVec 5) (flit : Bool) (s : State) : Result :=
  s.run fun d => d.linkChange rate.toNat width.toNat flit

/-- UNSUPPORTED_INBOUND_REQUEST (R305). -/
def execUnsupportedInboundRequest (posted : Bool) (s : State) : Result := s.run fun d => d.unsupportedInbound posted

/-- PCIE_LINK_ERROR (R325). -/
def execPcieLinkError (bit' : Fin 32) (correctable : Bool) (s : State) : Result := s.run fun d => d.linkError bit' correctable

end Sys2Proof.Machine
end

