-- ==== Sys2Proof/Machine/CmdLedger.lean ====
section
/-! DEFINITION. The commands on the ledger, the vault and the rings (chapters 08 and 09). -/

namespace Sys2Proof.Machine

/-- ENC_CAPTURE (R225). -/
def execEncCapture (m0 m1 m2 m3 : EncMotion) (s : State) : Result := s.run fun d => d.encCapture [m0, m1, m2, m3]

/-- TELLER_RESULT_ACCEPT (R231). -/
def execTellerResultAccept (k : Fin 16) (s : State) : Result := s.run fun d => d.resultAccept k

/-- LEDGER_ENTRY_QUEUE (R226). -/
def execLedgerEntryQueue (h : Fin 16) (s : State) : Result := s.run fun d => d.entryQueue h

/-- CLR_ITEM_ERROR (R229). -/
def execClrItemError (h : Fin 16) (n : Nat) (item : ClrItem) (outcome : Retry) (s : State) : Result :=
  s.run fun d => d.itemError h n item outcome

/-- VAULT_INIT_DONE (R240). -/
def execVaultInitDone (store : Bool × Bool) (s : State) : Result := s.run fun d => d.vaultInit store

/-- VAULT_ECC_ERROR (R243). -/
def execVaultEccError (w : BitVec 35) (uncorrectable : Bool) (outcome : Retry) (s : State) : Result :=
  s.run fun d => d.eccError w.toNat uncorrectable outcome

/-- PAGE_COPY_DONE (R244). -/
def execPageCopyDone (s : State) : Result := s.run (·.copyDone)

/-- SCRUB_LINE (R247). -/
def execScrubLine (found : List (Fin 8 × Bool × Retry)) (s : State) : Result := s.run fun d => d.scrubLine found

/-- RETIRE_REQUEST (R248). -/
def execRetireRequest (r : Requester) (page : BitVec 17) (s : State) : Result :=
  s.run fun d => d.busWrite r VLT_RETIRE_REQ.addr (word (2 ^ 31 + page.toNat)) 15

/-- RECORD_BEGIN (R255). -/
def execRecordBegin (ring : Fin 64) (s : State) : Result := s.run fun d => d.recordBegin ring

/-- RING_PAYLOAD_WRITE (R251). -/
def execRingPayloadWrite (ring : Fin 64) (n : Nat) (s : State) : Result := s.run fun d => d.payloadWrite ring n

/-- ENTRY_WRITE (R232). -/
def execEntryWrite (ring : Fin 64) (s : State) : Result := s.run fun d => d.entryWrite ring

/-- RING_COMMIT_REQUEST (R256): a write names groups by bit, the task of a group one of them. -/
def execRingCommitRequest (c : Cause) (groups : BitVec 8) (s : State) : Result :=
  s.run fun d => d.byCause c (fun r d => d.fieldWrite r VLT_COMMIT.GRP groups.toNat) 
    (((List.range 8).filter (bit groups.toNat)).map (0x060 + ·))

/-- RING_ARM (R257): a write names rings by bit, the task every ring of its groups. -/
def execRingArm (c : Cause) (hi : Bool) (bits : Word) (s : State) : Result :=
  s.run fun d => d.byCause c
    (fun r d => d.fieldWrite r (if hi then VLT_ARM_HI.ARM else VLT_ARM_LO.ARM) bits.toNat)
    (((List.range 8).filter (bit bits.toNat)).map (0x068 + ·))

/-- OVERDRAFT_MOVE (R262). -/
def execOverdraftMove (s : State) : Result := s.runWith fun m d => d.overdraftMove m

/-- RING_VIEW_LATCH (R267). -/
def execRingViewLatch (r : Requester) (ring : BitVec 6) (s : State) : Result := s.run fun d => d.fieldWrite r VLT_RSEL.RING ring.toNat

end Sys2Proof.Machine
end

