-- ==== Sys2Proof/Machine/CmdPorts.lean ====
section
/-! DEFINITION. The commands on the Avane ports (chapters 04 and 05). -/

namespace Sys2Proof.Machine

/-- PORT_ENABLE (R116). -/
def execPortEnable (r : Requester) (p : Fin 16) (s : State) : Result := s.run fun d => d.fieldWrite r (AVP_PORT_CTL.EN p) 1

/-- PORT_DISABLE (R116). -/
def execPortDisable (r : Requester) (p : Fin 16) (s : State) : Result := s.run fun d => d.fieldWrite r (AVP_PORT_CTL.EN p) 0

/-- PORT_RETRAIN (R116). -/
def execPortRetrain (r : Requester) (p : Fin 16) (s : State) : Result := s.run fun d => d.press r (AVP_PORT_CTL.RETRAIN p)

/-- QUALIFY_START (R119). -/
def execQualifyStart (r : Requester) (p : Fin 16) (s : State) : Result := s.run fun d => d.press r (AVP_PORT_CTL.QUAL p)

/-- BITSLIP (R110). -/
def execBitslip (r : Requester) (p : Fin 16) (l : Fin 4) (s : State) : Result := s.run fun d => d.press r (AVP_LANE_CTL.BITSLIP p l)

/-- ULC_STABLE (R116). -/
def execUlcStable (p : Fin 16) (signal : BitVec 4) (s : State) : Result := s.run fun d => d.ulcStable p signal.toNat

/-- ULC_WRONG_RATE (R116). -/
def execUlcWrongRate (p : Fin 16) (s : State) : Result := s.run fun d => d.ulcWrongRate p

/-- ULC_LOST (R116). -/
def execUlcLost (p : Fin 16) (s : State) : Result := s.run fun d => d.ulcLost p

/-- SEEK_HOLD_END (R116). -/
def execSeekHoldEnd (p : Fin 16) (s : State) : Result := s.run fun d => d.seekHoldEnd p

/-- LANE_SIGNAL_LOSS (R110). -/
def execLaneSignalLoss (p : Fin 16) (l : Fin 4) (s : State) : Result := s.run fun d => d.laneSignalLoss p l

/-- BLOCK_LOCK_GAINED (R109). -/
def execBlockLockGained (p : Fin 16) (l : Fin 4) (s : State) : Result := s.run fun d => d.blockLockGained p l

/-- BLOCK_LOCK_LOST (R109, R121). -/
def execBlockLockLost (p : Fin 16) (l : Fin 4) (s : State) : Result := s.run fun d => d.blockLockLost p l

/-- HEADER_ERROR (R109). -/
def execHeaderError (p : Fin 16) (l : Fin 4) (s : State) : Result := s.run fun d => d.headerError p l

/-- RESERVED_CONTROL_BLOCK (R105). -/
def execReservedControlBlock (p : Fin 16) (s : State) : Result := s.run fun d => d.badControl p

/-- SLIP_END (R110). -/
def execSlipEnd (p : Fin 16) (s : State) : Result := s.run fun d => d.slipEnd p

/-- ALIGN_RECEIVE (R107, R110). -/
def execAlignReceive (p : Fin 16) (l : Fin 4) (payload : BitVec 64) (slot : Nat) (bip : Byte) (s : State) : Result :=
  s.run fun d => d.alignReceive p l payload.toNat slot bip

/-- DESKEW_END (R111). -/
def execDeskewEnd (p : Fin 16) (s : State) : Result := s.run fun d => d.deskewEnd p

/-- CAPS_RECEIVE (R132). -/
def execCapsReceive (p : Fin 16) (pkt : RxPacket) (s : State) : Result := s.run fun d => d.capsRx p pkt

/-- CAPS_OFFER_TIMEOUT (R132). -/
def execCapsOfferTimeout (p : Fin 16) (s : State) : Result := s.run fun d => d.capsOfferTimeout p

/-- ATTEMPT_TIMEOUT (R116). -/
def execAttemptTimeout (p : Fin 16) (s : State) : Result := s.run fun d => d.attemptTimeout p

/-- DEGRADE_ALIGN_TIMEOUT (R122). -/
def execDegradeAlignTimeout (p : Fin 16) (s : State) : Result := s.run fun d => d.degradeAlignTimeout p

/-- QUALIFY_END (R120). -/
def execQualifyEnd (p : Fin 16) (l0 l1 l2 l3 : QualLane) (s : State) : Result := s.run fun d => d.qualifyEnd p [l0, l1, l2, l3]

/-- DOWNLINK_CONTROL_SEND (R108). -/
def execDownlinkControlSend (p : Fin 16) (s : State) : Result := s.run fun d => d.controlSend p

/-- PLL_LOCK_LOSS (R124). -/
def execPllLockLoss (pll : Fin 5) (s : State) : Result := s.run fun d => d.pllLoss pll

/-- PLL_RELOCK_DONE (R124). -/
def execPllRelockDone (pll : Fin 5) (ok : Bool) (s : State) : Result := s.run fun d => d.pllRelock pll ok

/-- PORT_LOGIC_FAULT (R116). -/
def execPortLogicFault (p : Fin 16) (cause : Nat) (s : State) : Result := s.run fun d => d.portFault p cause

/-- EQUALISER_ADAPT (R101). -/
def execEqualiserAdapt (p : Fin 16) (l : Fin 4) (up : Bool) (idleRun : Nat) (s : State) : Result := s.run fun d => d.adapt p l up idleRun

/-- FRAME_START_RECEIVE (R136). -/
def execFrameStartReceive (p : Fin 16) (pkt : RxPacket) (s : State) : Result := s.run fun d => d.frameStart p pkt

/-- LINE_DATA_RECEIVE (R136). -/
def execLineDataReceive (p : Fin 16) (pkt : RxPacket) (s : State) : Result := s.run fun d => d.lineData p pkt

/-- FRAME_END_RECEIVE (R136). -/
def execFrameEndReceive (p : Fin 16) (pkt : RxPacket) (s : State) : Result := s.run fun d => d.frameEnd p pkt

/-- FRAME_TIMEOUT (R136). -/
def execFrameTimeout (p : Fin 16) (s : State) : Result := s.run fun d => d.frameTimeout p

/-- GANG_BAND_TIMEOUT (R465). -/
def execGangBandTimeout (p : Fin 16) (s : State) : Result := s.run fun d => d.gangBandTimeout p

/-- LINE_CONSUMED (R139). -/
def execLineConsumed (p : Fin 16) (s : State) : Result := s.run fun d => d.lineConsumed p

/-- CREDIT_SEND (R139). -/
def execCreditSend (p : Fin 16) (s : State) : Result := s.run fun d => d.creditSend p

/-- LINE_BROADCAST (R168). -/
def execLineBroadcast (p : Fin 16) (s : State) : Result := s.run fun d => d.lineBroadcast p

/-- STATUS_RECEIVE (R141). -/
def execStatusReceive (p : Fin 16) (pkt : RxPacket) (s : State) : Result := s.run fun d => d.statusRx p pkt

/-- STATUS_LOST (R141). -/
def execStatusLost (p : Fin 16) (s : State) : Result := s.run fun d => d.statusLost p

/-- CAMERA_COMMAND_GO (R143). -/
def execCameraCommandGo (r : Requester) (p : Fin 16) (s : State) : Result := s.run fun d => d.press r (AVP_CMD_CTL.GO p)

/-- RESPONSE_RECEIVE (R143). -/
def execResponseReceive (p : Fin 16) (pkt : RxPacket) (s : State) : Result := s.run fun d => d.responseRx p pkt

/-- CAMERA_COMMAND_TIMEOUT (R143). -/
def execCameraCommandTimeout (p : Fin 16) (s : State) : Result := s.run fun d => d.commandTimeout p

/-- TIME_SEND (R145). -/
def execTimeSend (p : Fin 16) (frac : Byte) (s : State) : Result := s.run fun d => d.timeSend p frac

/-- TIME_ECHO_RECEIVE (R147). -/
def execTimeEchoReceive (p : Fin 16) (pkt : RxPacket) (rx : Nat) (s : State) : Result := s.run fun d => d.timeEcho p pkt rx

/-- URGENT_FIRE (R154). -/
def execUrgentFire (c : Cause) (p : Fin 16) (s : State) : Result :=
  s.run fun d => d.byCause c (fun r d => d.press r (AVP_URGENT.FIRE p)) [0x050 + p]

/-- URGENT_SEND (R153). -/
def execUrgentSend (p : Fin 16) (frac : Byte) (s : State) : Result := s.run fun d => d.urgentSend p frac

end Sys2Proof.Machine
end

