-- ==== Sys2Proof/Machine/CmdRegisters.lean ====
section
/-! DEFINITION. The commands on registers, notice queues and the audit (chapter 02). -/

namespace Sys2Proof.Machine

/-- REGISTER_WRITE (R36). -/
def execRegisterWrite (r : Requester) (off : BitVec 25) (data : Word) (be : BitVec 4) (s : State) : Result :=
  s.run fun d => d.busWrite r off.toNat data be.toNat

/-- SET_ALIAS_WRITE (R27): an offset of the set alias. -/
def execSetAliasWrite (r : Requester) (off : BitVec 25) (data : Word) (be : BitVec 4) (s : State) : Result :=
  s.run fun d => match aliasOf off.toNat with
    | some (.set, _) => d.busWrite r off.toNat data be.toNat
    | _ => d

/-- CLEAR_ALIAS_WRITE (R27). -/
def execClearAliasWrite (r : Requester) (off : BitVec 25) (data : Word) (be : BitVec 4) (s : State) : Result :=
  s.run fun d => match aliasOf off.toNat with
    | some (.clear, _) => d.busWrite r off.toNat data be.toNat
    | _ => d

/-- TOGGLE_ALIAS_WRITE (R27). -/
def execToggleAliasWrite (r : Requester) (off : BitVec 25) (data : Word) (be : BitVec 4) (s : State) : Result :=
  s.run fun d => match aliasOf off.toNat with
    | some (.toggle, _) => d.busWrite r off.toNat data be.toNat
    | _ => d

/-- BIT_ALIAS_WRITE (R28). -/
def execBitAliasWrite (r : Requester) (off : BitVec 25) (data : Word) (be : BitVec 4) (s : State) : Result :=
  s.run fun d => match aliasOf off.toNat with
    | some (.bit _, _) => d.busWrite r off.toNat data be.toNat
    | _ => d

/-- OVERSIZE_BAR0_REQUEST (R31): more than two words. -/
def execOversizeBar0Request (_off : BitVec 25) (words : Nat) (posted : Bool) (s : State) : Result :=
  s.run fun d =>
    if !d.hostUp || words ≤ 2 then d
    else if !d.memEnable then d.unsupported posted
    else d.completerAbort posted

/-- NOTICE_STORE (R47-R54). -/
def execNoticeStore (block : BitVec 8) (bad : BitVec 8) (s : State) : Result := s.run fun d => d.noticeStore block.toNat bad.toNat

/-- NOTICE_POP (R52). -/
def execNoticePop (r : Requester) (q : Fin 8) (bad : Bool) (s : State) : Result := s.run fun d => d.readBy r fun d => d.noticePop q bad

/-- NOTICE_PEEK (R33, R52). -/
def execNoticePeek (r : Requester) (q : Fin 8) (s : State) : Result := s.run fun d => d.readBy r fun d => d.noticePeek q

/-- NOTICE_ARM (R50). -/
def execNoticeArm (r : Requester) (q : Fin 8) (s : State) : Result := s.run fun d => d.press r (NTQ_CTL.ARM q)

/-- NOTICE_FLUSH (R49). -/
def execNoticeFlush (r : Requester) (q : Fin 8) (s : State) : Result := s.run fun d => d.press r (NTQ_CTL.FLUSH q)

/-- AUDIT_REQUEST (R55). -/
def execAuditRequest (c : Cause) (s : State) : Result :=
  s.run fun d => d.byCause c (fun r d => d.press r AUD_CTL.SNAP) [0x070]

/-- AUDIT_CAPTURE (R55). -/
def execAuditCapture (s : State) : Result := s.run (·.auditCapture)

/-- AUDIT_DONE (R56). -/
def execAuditDone (s : State) : Result := s.run (·.auditDone)

/-- SNAP_PAIR_READ (R57): both words of a pair in one request. -/
def execSnapPairRead (r : Requester) (off : BitVec 25) (s : State) : Result :=
  s.run fun d => d.readBy r fun d =>
    let a := off.toNat
    d.when (a % 8 = 0 && 0xC00 ≤ a % 0x1000 && a % 0x1000 < 0xE00 && (blockOf a).isSome) (·.snapPairRead a)

/-- LOW_WORD_LATCH_READ (R33). -/
def execLowWordLatchRead (r : Requester) (off : BitVec 25) (s : State) : Result := s.run fun d => d.readBy r fun d => d.latchRead off.toNat

end Sys2Proof.Machine
end

