-- ==== Sys2Proof/Machine/CmdService.lean ====
section
/-! DEFINITION. The commands on faults, management cores, updates, security, reset, boot and recovery (chapters 15 and 16). -/

namespace Sys2Proof.Machine

/-- QUEUE_BEAT_PARITY (R419). -/
def execQueueBeatParity (queue : Nat) (block : Byte) (hit : FailedBeat) (o : Retry) (s : State) : Result :=
  s.run fun d => d.queueParity queue block.toNat hit o

/-- CORE_HEARTBEAT_MISS (R424). -/
def execCoreHeartbeatMiss (s : State) : Result := s.run (·.coreFail)

/-- CORE_LASTING_ERROR (R424). -/
def execCoreLastingError (o : Retry) (s : State) : Result := s.run fun d => d.coreError o

/-- STANDBY_HEARTBEAT_MISS (R423). -/
def execStandbyHeartbeatMiss (s : State) : Result := s.run (·.standbyMiss)

/-- STANDBY_REBOOT_DONE (R423). -/
def execStandbyRebootDone (passed : Bool) (s : State) : Result := s.run fun d => d.standbyReboot passed

/-- FIRMWARE_UPDATE (R426): a WRITE of UPDATE. -/
def execFirmwareUpdate (from' : UmsalFrom) (s : State) : Result :=
  s.run fun d => d.when (d.isWriteOf from' 0xA010 3) (·.umsal from' 0x11 Dev.umsalWrite)

/-- UPDATE_VERIFY_DONE (R427). -/
def execUpdateVerifyDone (sigOk : Bool) (s : State) : Result :=
  s.runWith fun m d => d.served fun d => d.updateVerified m sigOk

/-- UPDATE_TAKEOVER (R427). -/
def execUpdateTakeover (s : State) : Result := s.run fun d => d.served (·.updateTakeover)

/-- PROBATION_HEALTHY (R427). -/
def execProbationHealthy (s : State) : Result := s.run fun d => d.served (·.probationHealthy)

/-- PROBATION_TIMEOUT (R427). -/
def execProbationTimeout (s : State) : Result := s.run fun d => d.served (·.probationTimeout)

/-- FLASH_COMMIT_DONE (R427). -/
def execFlashCommitDone (ok : Bool) (s : State) : Result := s.run fun d => d.served fun d => d.flashCommitDone ok

/-- CAMERA_ID_CHECK (R438). -/
def execCameraIdCheck (p : Fin 16) (idLen : Nat) (blob : Option (List Byte)) (sigOk : BitVec 8) (s : State) : Result :=
  s.run fun d => d.served fun d => d.cameraCheck p idLen blob sigOk.toNat

/-- ATTEST_REQUEST (R436): a WRITE of the nonce. -/
def execAttestRequest (from' : UmsalFrom) (s : State) : Result :=
  s.run fun d => d.when (d.isWriteOf from' 0xA020 1) (·.umsal from' 0x11 Dev.umsalWrite)

/-- ATTEST_REPORT_DONE (R436). -/
def execAttestReportDone (s : State) : Result := s.run fun d => d.served (·.attestDone)

/-- FUSE_BURN (R439). -/
def execFuseBurn (r : Requester) (s : State) : Result := s.run fun d => d.press r SEC_FUSE_CMD.BURN

/-- FUSE_BURN_DONE (R439). -/
def execFuseBurnDone (s : State) : Result := s.run (·.fuseBurnDone)

/-- SYS_RST_ASSERT (R450): a low level of `ns` ns, ignored where it is shorter than 1 us. The vault's contents are gone too. -/
def execSysRstAssert (ns : Nat) (s : State) : Result :=
  if s.dev.low || ns < 1000 then .next s else .next { s with dev := s.dev.systemReset, vault := [] }

/-- SYS_RST_RELEASE (R450). -/
def execSysRstRelease (rcvForce : Bool) (control : Bool × Bool) (s : State) : Result :=
  .next { s with dev := s.dev.systemStart rcvForce control }

/-- BOOT_VERIFY_DONE (R452). -/
def execBootVerifyDone (a b : SlotImage) (s : State) : Result := s.run fun d => d.bootDone a b

/-- RECOVERY_CHUNK (R455). -/
def execRecoveryChunk (s : State) : Result := s.run (·.recoveryChunk)

/-- RECOVERY_VERIFY (R456): a write of MGT_RCV_CTL with GO = 1. -/
def execRecoveryVerify (r : Requester) (data : Word) (s : State) : Result :=
  s.run fun d => d.when (data.getLsbD 31) fun d => d.busWrite r MGT_RCV_CTL.addr data 15

/-- RECOVERY_VERIFY_DONE (R456). -/
def execRecoveryVerifyDone (sigOk : Bool) (s : State) : Result := s.run fun d => d.recoveryVerified sigOk

/-- RECOVERY_FLASH_DONE (R456). -/
def execRecoveryFlashDone (ok : Bool) (s : State) : Result := s.run fun d => d.recoveryFlashed ok

/-- OVERTEMP_ASSERT (R446). -/
def execOvertempAssert (die stack : Int) (s : State) : Result := s.run fun d => d.overtemp die stack

/-- OVERTEMP_RELEASE (R446). -/
def execOvertempRelease (die stack : Int) (s : State) : Result := s.run fun d => d.overtempEnd die stack

end Sys2Proof.Machine
end

