-- ==== Sys2Proof/Machine/CmdTellers.lean ====
section
/-! DEFINITION. The commands on the teller array (chapters 06 and 07). -/

namespace Sys2Proof.Machine

/-- CHARTER_LOAD (R181). -/
def execCharterLoad (r : Requester) (cols : BitVec 16) (s : State) : Result := s.run fun d => d.fieldWrite r CHT_LOAD.LOAD cols.toNat

/-- LOAD_COMPLETE (R181). -/
def execLoadComplete (k : Fin 16) (err : Option (Fin 528)) (s : State) : Result :=
  s.runWith fun m d => d.loadComplete m k (err.map (·.val))

/-- CHARTER_ARM (R180): a write of 1 to the bits of the columns, and to no other, through the set alias (R27). -/
def execCharterArm (r : Requester) (cols : BitVec 16) (s : State) : Result := s.run fun d => d.busWrite r (CHT_ARM.addr + 0x1000) (cols.zeroExtend 32) 0xF

/-- CHARTER_DISARM (R183): a write of 0 to the bits of the columns, and to no other, through the clear alias (R27). -/
def execCharterDisarm (r : Requester) (cols : BitVec 16) (s : State) : Result :=
  s.run fun d => d.busWrite r (CHT_ARM.addr + 0x2000) (cols.zeroExtend 32) 0xF

/-- SWITCH_COMPLETE (R182). -/
def execSwitchComplete (k : Fin 16) (s : State) : Result := s.run fun d => d.switchComplete k

/-- GROUP_RUN (R175). -/
def execGroupRun (t : Fin 528) (s : State) : Result := s.runWith fun m d => d.groupRun m t

/-- RUNAWAY (R178). -/
def execRunaway (t : Fin 528) (s : State) : Result := s.run fun d => d.runaway t

/-- MINT_SEGMENT_EMIT (R207). -/
def execMintSegmentEmit (t : Fin 528) (s : State) : Result := s.run fun d => d.mintSegment t

/-- MERGER_TAKE (R169). -/
def execMergerTake (k : Fin 16) (stream : Fin 5) (s : State) : Result :=
  s.runWith fun m d => d.mergerTake m k (Stream.all.getD stream .a)

/-- TELLER_RESULT_SEND (R170). -/
def execTellerResultSend (t : Fin 528) (s : State) : Result := s.run fun d => d.resultSend t

/-- STREAM_LINE_FETCH (R168). -/
def execStreamLineFetch (t : Fin 528) (err : Bool) (s : State) : Result := s.runWith fun m d => d.streamFetch m t err

/-- TELLER_STEP_ERROR (R185). -/
def execTellerStepError (t : Fin 528) (outcome : StepError) (s : State) : Result := s.run fun d => d.tellerStepError t outcome

/-- TELLER_SELF_CHECK_FAIL (R185). -/
def execTellerSelfCheckFail (t : Fin 528) (s : State) : Result := s.run fun d => d.selfCheckFail t

/-- TELLER_SOFT_RETIRE (R187). -/
def execTellerSoftRetire (r : Requester) (t : Fin 528) (s : State) : Result := s.run fun d => d.fieldWrite r (CHT_T_CTL.RETIRE t) 1

/-- SPARE_ROW_WRITE (R187). -/
def execSpareRowWrite (r : Requester) (k : Fin 16) (row : BitVec 6) (s : State) : Result :=
  s.run fun d => d.fieldWrite r (CHT_SPARE.ROW k) row.toNat

/-- TELLER_STORE_WRITE (R163). -/
def execTellerStoreWrite (t : TellerWindow) (off : BitVec 17) (data : Word) (be : BitVec 4) (s : State) : Result :=
  s.run fun d => d.when (d.reaches t.agent true (storeAddr t.teller (off.toNat / 4 * 4)) 4)
    (·.tellerStoreWrite t.teller off.toNat data.toNat be.toNat)

end Sys2Proof.Machine
end

