-- ==== Sys2Proof/Machine/Dispatch.lean ====
section
/-! DEFINITION. The one match over the commands: each arm is a direct call of its meaning. -/

namespace Sys2Proof.Machine

/-- The effect of a command on everything but the queue. -/
def exec (i : Instr) (s : State) : Host.Outcome State Fault Refusal :=
  match i with
  | .registerWrite r off data be => Sys2Proof.Machine.execRegisterWrite r off data be s
  | .setAliasWrite r off data be => Sys2Proof.Machine.execSetAliasWrite r off data be s
  | .clearAliasWrite r off data be => Sys2Proof.Machine.execClearAliasWrite r off data be s
  | .toggleAliasWrite r off data be => Sys2Proof.Machine.execToggleAliasWrite r off data be s
  | .bitAliasWrite r off data be => Sys2Proof.Machine.execBitAliasWrite r off data be s
  | .oversizeBar0Request off words posted => Sys2Proof.Machine.execOversizeBar0Request off words posted s
  | .noticeStore block bad => Sys2Proof.Machine.execNoticeStore block bad s
  | .noticePop r q bad => Sys2Proof.Machine.execNoticePop r q bad s
  | .noticePeek r q => Sys2Proof.Machine.execNoticePeek r q s
  | .noticeArm r q => Sys2Proof.Machine.execNoticeArm r q s
  | .noticeFlush r q => Sys2Proof.Machine.execNoticeFlush r q s
  | .auditRequest c => Sys2Proof.Machine.execAuditRequest c s
  | .auditCapture => Sys2Proof.Machine.execAuditCapture s
  | .auditDone => Sys2Proof.Machine.execAuditDone s
  | .snapPairRead r off => Sys2Proof.Machine.execSnapPairRead r off s
  | .applyRequest r => Sys2Proof.Machine.execApplyRequest r s
  | .applyLand => Sys2Proof.Machine.execApplyLand s
  | .tickBegin => Sys2Proof.Machine.execTickBegin s
  | .schedulePoint => Sys2Proof.Machine.execSchedulePoint s
  | .drainComplete => Sys2Proof.Machine.execDrainComplete s
  | .drainTimeout => Sys2Proof.Machine.execDrainTimeout s
  | .drainLimitWrite r data be => Sys2Proof.Machine.execDrainLimitWrite r data be s
  | .discWrite r disc => Sys2Proof.Machine.execDiscWrite r disc s
  | .discTimeout => Sys2Proof.Machine.execDiscTimeout s
  | .ref10mLoss => Sys2Proof.Machine.execRef10mLoss s
  | .busFrameSend => Sys2Proof.Machine.execBusFrameSend s
  | .busFrameReceive tick tickTime edge flags crc f trim => Sys2Proof.Machine.execBusFrameReceive tick tickTime edge flags crc f trim s
  | .busSilenceTimeout => Sys2Proof.Machine.execBusSilenceTimeout s
  | .portEnable r p => Sys2Proof.Machine.execPortEnable r p s
  | .portDisable r p => Sys2Proof.Machine.execPortDisable r p s
  | .portRetrain r p => Sys2Proof.Machine.execPortRetrain r p s
  | .qualifyStart r p => Sys2Proof.Machine.execQualifyStart r p s
  | .bitslip r p l => Sys2Proof.Machine.execBitslip r p l s
  | .ulcStable p signal => Sys2Proof.Machine.execUlcStable p signal s
  | .ulcWrongRate p => Sys2Proof.Machine.execUlcWrongRate p s
  | .ulcLost p => Sys2Proof.Machine.execUlcLost p s
  | .seekHoldEnd p => Sys2Proof.Machine.execSeekHoldEnd p s
  | .laneSignalLoss p l => Sys2Proof.Machine.execLaneSignalLoss p l s
  | .blockLockGained p l => Sys2Proof.Machine.execBlockLockGained p l s
  | .blockLockLost p l => Sys2Proof.Machine.execBlockLockLost p l s
  | .headerError p l => Sys2Proof.Machine.execHeaderError p l s
  | .slipEnd p => Sys2Proof.Machine.execSlipEnd p s
  | .alignReceive p l payload slot bip => Sys2Proof.Machine.execAlignReceive p l payload slot bip s
  | .deskewEnd p => Sys2Proof.Machine.execDeskewEnd p s
  | .capsReceive p pkt => Sys2Proof.Machine.execCapsReceive p pkt s
  | .capsOfferTimeout p => Sys2Proof.Machine.execCapsOfferTimeout p s
  | .attemptTimeout p => Sys2Proof.Machine.execAttemptTimeout p s
  | .degradeAlignTimeout p => Sys2Proof.Machine.execDegradeAlignTimeout p s
  | .qualifyEnd p l0 l1 l2 l3 => Sys2Proof.Machine.execQualifyEnd p l0 l1 l2 l3 s
  | .downlinkControlSend p => Sys2Proof.Machine.execDownlinkControlSend p s
  | .pllLockLoss pll => Sys2Proof.Machine.execPllLockLoss pll s
  | .frameStartReceive p pkt => Sys2Proof.Machine.execFrameStartReceive p pkt s
  | .lineDataReceive p pkt => Sys2Proof.Machine.execLineDataReceive p pkt s
  | .frameEndReceive p pkt => Sys2Proof.Machine.execFrameEndReceive p pkt s
  | .frameTimeout p => Sys2Proof.Machine.execFrameTimeout p s
  | .gangBandTimeout p => Sys2Proof.Machine.execGangBandTimeout p s
  | .lineConsumed p => Sys2Proof.Machine.execLineConsumed p s
  | .creditSend p => Sys2Proof.Machine.execCreditSend p s
  | .lineBroadcast p => Sys2Proof.Machine.execLineBroadcast p s
  | .statusReceive p pkt => Sys2Proof.Machine.execStatusReceive p pkt s
  | .statusLost p => Sys2Proof.Machine.execStatusLost p s
  | .cameraCommandGo r p => Sys2Proof.Machine.execCameraCommandGo r p s
  | .responseReceive p pkt => Sys2Proof.Machine.execResponseReceive p pkt s
  | .cameraCommandTimeout p => Sys2Proof.Machine.execCameraCommandTimeout p s
  | .timeSend p frac => Sys2Proof.Machine.execTimeSend p frac s
  | .timeEchoReceive p pkt rx => Sys2Proof.Machine.execTimeEchoReceive p pkt rx s
  | .urgentFire c p => Sys2Proof.Machine.execUrgentFire c p s
  | .urgentSend p frac => Sys2Proof.Machine.execUrgentSend p frac s
  | .charterLoad r cols => Sys2Proof.Machine.execCharterLoad r cols s
  | .loadComplete k err => Sys2Proof.Machine.execLoadComplete k err s
  | .charterArm r cols => Sys2Proof.Machine.execCharterArm r cols s
  | .charterDisarm r cols => Sys2Proof.Machine.execCharterDisarm r cols s
  | .switchComplete k => Sys2Proof.Machine.execSwitchComplete k s
  | .groupRun t => Sys2Proof.Machine.execGroupRun t s
  | .runaway t => Sys2Proof.Machine.execRunaway t s
  | .mintSegmentEmit t => Sys2Proof.Machine.execMintSegmentEmit t s
  | .mergerTake k stream => Sys2Proof.Machine.execMergerTake k stream s
  | .tellerResultSend t => Sys2Proof.Machine.execTellerResultSend t s
  | .streamLineFetch t err => Sys2Proof.Machine.execStreamLineFetch t err s
  | .tellerStepError t outcome => Sys2Proof.Machine.execTellerStepError t outcome s
  | .tellerSoftRetire r t => Sys2Proof.Machine.execTellerSoftRetire r t s
  | .spareRowWrite r k row => Sys2Proof.Machine.execSpareRowWrite r k row s
  | .tellerStoreWrite t off data be => Sys2Proof.Machine.execTellerStoreWrite t off data be s
  | .encCapture m0 m1 m2 m3 => Sys2Proof.Machine.execEncCapture m0 m1 m2 m3 s
  | .tellerResultAccept k => Sys2Proof.Machine.execTellerResultAccept k s
  | .ledgerEntryQueue h => Sys2Proof.Machine.execLedgerEntryQueue h s
  | .clrItemError h n item outcome => Sys2Proof.Machine.execClrItemError h n item outcome s
  | .vaultInitDone store => Sys2Proof.Machine.execVaultInitDone store s
  | .vaultEccError w uncorrectable outcome => Sys2Proof.Machine.execVaultEccError w uncorrectable outcome s
  | .pageCopyDone => Sys2Proof.Machine.execPageCopyDone s
  | .scrubLine found => Sys2Proof.Machine.execScrubLine found s
  | .retireRequest r page => Sys2Proof.Machine.execRetireRequest r page s
  | .recordBegin ring => Sys2Proof.Machine.execRecordBegin ring s
  | .ringPayloadWrite ring n => Sys2Proof.Machine.execRingPayloadWrite ring n s
  | .entryWrite ring => Sys2Proof.Machine.execEntryWrite ring s
  | .ringCommitRequest c groups => Sys2Proof.Machine.execRingCommitRequest c groups s
  | .ringArm c hi bits => Sys2Proof.Machine.execRingArm c hi bits s
  | .overdraftMove => Sys2Proof.Machine.execOverdraftMove s
  | .ringViewLatch r ring => Sys2Proof.Machine.execRingViewLatch r ring s
  | .dmaStart c ch => Sys2Proof.Machine.execDmaStart c ch s
  | .dmaStop c ch => Sys2Proof.Machine.execDmaStop c ch s
  | .dmaAbort r ch => Sys2Proof.Machine.execDmaAbort r ch s
  | .dmaOwnerWrite r data be => Sys2Proof.Machine.execDmaOwnerWrite r data be s
  | .channelConfigWrite r ch off data be => Sys2Proof.Machine.execChannelConfigWrite r ch off data be s
  | .dringTailWrite r ch data be => Sys2Proof.Machine.execDringTailWrite r ch data be s
  | .dringHeadWrite r ch data be => Sys2Proof.Machine.execDringHeadWrite r ch data be s
  | .shadowValidWrite r ch data be => Sys2Proof.Machine.execShadowValidWrite r ch data be s
  | .shadowFieldWrite r ch off data be => Sys2Proof.Machine.execShadowFieldWrite r ch off data be s
  | .descriptorFetch ch data => Sys2Proof.Machine.execDescriptorFetch ch data s
  | .busReadCompletion ch data => Sys2Proof.Machine.execBusReadCompletion ch data s
  | .descriptorComplete ch => Sys2Proof.Machine.execDescriptorComplete ch s
  | .busError ch kind fetch nth => Sys2Proof.Machine.execBusError ch kind fetch nth s
  | .streamPayloadMove ch => Sys2Proof.Machine.execStreamPayloadMove ch s
  | .ledgerCopyIssue ch => Sys2Proof.Machine.execLedgerCopyIssue ch s
  | .zeroLengthReadDone ch => Sys2Proof.Machine.execZeroLengthReadDone ch s
  | .ledgerCopyAccepted ch => Sys2Proof.Machine.execLedgerCopyAccepted ch s
  | .flowAckWrite r ch lack hi data be => Sys2Proof.Machine.execFlowAckWrite r ch lack hi data be s
  | .irqHoldoffExpire ch => Sys2Proof.Machine.execIrqHoldoffExpire ch s
  | .inboundRead off len reqId => Sys2Proof.Machine.execInboundRead off len reqId s
  | .inboundWrite off data reqId => Sys2Proof.Machine.execInboundWrite off data reqId s
  | .poisonedWrite bar => Sys2Proof.Machine.execPoisonedWrite bar s
  | .msixTableAccess off len data => Sys2Proof.Machine.execMsixTableAccess off len data s
  | .windowCommit r n data be => Sys2Proof.Machine.execWindowCommit r n data be s
  | .completionTimeout tag => Sys2Proof.Machine.execCompletionTimeout tag s
  | .lateCompletion tag => Sys2Proof.Machine.execLateCompletion tag s
  | .tagQuarantineEnd tag => Sys2Proof.Machine.execTagQuarantineEnd tag s
  | .poisonedCompletion tag => Sys2Proof.Machine.execPoisonedCompletion tag s
  | .ecrcError => Sys2Proof.Machine.execEcrcError s
  | .hepInternalError outcome => Sys2Proof.Machine.execHepInternalError outcome s
  | .containRelease r => Sys2Proof.Machine.execContainRelease r s
  | .releaseComplete => Sys2Proof.Machine.execReleaseComplete s
  | .pendingMsixSend v => Sys2Proof.Machine.execPendingMsixSend v s
  | .ltrWindow => Sys2Proof.Machine.execLtrWindow s
  | .ltrSend => Sys2Proof.Machine.execLtrSend s
  | .configWrite off data be => Sys2Proof.Machine.execConfigWrite off data be s
  | .perstAssert ns => Sys2Proof.Machine.execPerstAssert ns s
  | .perstRelease sris ns => Sys2Proof.Machine.execPerstRelease sris ns s
  | .hotReset linkDown => Sys2Proof.Machine.execHotReset linkDown s
  | .functionLevelReset d3 => Sys2Proof.Machine.execFunctionLevelReset d3 s
  | .hostResetComplete => Sys2Proof.Machine.execHostResetComplete s
  | .linkChange rate width flit => Sys2Proof.Machine.execLinkChange rate width flit s
  | .encoderEnable r ch => Sys2Proof.Machine.execEncoderEnable r ch s
  | .encoderDisable r ch => Sys2Proof.Machine.execEncoderDisable r ch s
  | .positionRead r ch m => Sys2Proof.Machine.execPositionRead r ch m s
  | .indexPulse ch m => Sys2Proof.Machine.execIndexPulse ch m s
  | .standstillEnter ch m => Sys2Proof.Machine.execStandstillEnter ch m s
  | .standstillLeave ch m => Sys2Proof.Machine.execStandstillLeave ch m s
  | .settlingEnd ch => Sys2Proof.Machine.execSettlingEnd ch s
  | .overspeed ch above m => Sys2Proof.Machine.execOverspeed ch above m s
  | .wiringFault ch input rail close m => Sys2Proof.Machine.execWiringFault ch input rail close m s
  | .wiringFaultClear ch m => Sys2Proof.Machine.execWiringFaultClear ch m s
  | .biasReversal rails => Sys2Proof.Machine.execBiasReversal rails s
  | .clearDoubt r ch => Sys2Proof.Machine.execClearDoubt r ch s
  | .fioEdge p level age => Sys2Proof.Machine.execFioEdge p level age s
  | .fioStuck p => Sys2Proof.Machine.execFioStuck p s
  | .fioSet p => Sys2Proof.Machine.execFioSet p s
  | .fioClr p => Sys2Proof.Machine.execFioClr p s
  | .fioTgl p => Sys2Proof.Machine.execFioTgl p s
  | .fioPulse p => Sys2Proof.Machine.execFioPulse p s
  | .fioPulseEnd p => Sys2Proof.Machine.execFioPulseEnd p s
  | .outputShort p => Sys2Proof.Machine.execOutputShort p s
  | .outputRearm r p => Sys2Proof.Machine.execOutputRearm r p s
  | .openLoad p => Sys2Proof.Machine.execOpenLoad p s
  | .vfieldLow => Sys2Proof.Machine.execVfieldLow s
  | .vfieldRestored => Sys2Proof.Machine.execVfieldRestored s
  | .strikeArm c k => Sys2Proof.Machine.execStrikeArm c k s
  | .strikeDisarm c k => Sys2Proof.Machine.execStrikeDisarm c k s
  | .timeStrikeLock k => Sys2Proof.Machine.execTimeStrikeLock k s
  | .positionStrikeLock k m => Sys2Proof.Machine.execPositionStrikeLock k m s
  | .strikeFire k => Sys2Proof.Machine.execStrikeFire k s
  | .strikeMissCheck k m => Sys2Proof.Machine.execStrikeMissCheck k m s
  | .eventRoute => Sys2Proof.Machine.execEventRoute s
  | .taskAct t => Sys2Proof.Machine.execTaskAct t s
  | .softwareFire r ch => Sys2Proof.Machine.execSoftwareFire r ch s
  | .delayExpire k => Sys2Proof.Machine.execDelayExpire k s
  | .umsalOpen from' => Sys2Proof.Machine.execUmsalOpen from' s
  | .umsalClose from' => Sys2Proof.Machine.execUmsalClose from' s
  | .umsalHeartbeat from' => Sys2Proof.Machine.execUmsalHeartbeat from' s
  | .umsalDescribe from' => Sys2Proof.Machine.execUmsalDescribe from' s
  | .umsalRead from' => Sys2Proof.Machine.execUmsalRead from' s
  | .umsalWrite from' => Sys2Proof.Machine.execUmsalWrite from' s
  | .umsalClaim from' => Sys2Proof.Machine.execUmsalClaim from' s
  | .umsalHandover from' => Sys2Proof.Machine.execUmsalHandover from' s
  | .umsalResign from' => Sys2Proof.Machine.execUmsalResign from' s
  | .escBegin from' => Sys2Proof.Machine.execEscBegin from' s
  | .escCommit from' => Sys2Proof.Machine.execEscCommit from' s
  | .escRollback from' => Sys2Proof.Machine.execEscRollback from' s
  | .escStatus from' => Sys2Proof.Machine.execEscStatus from' s
  | .umsalSubscribe from' => Sys2Proof.Machine.execUmsalSubscribe from' s
  | .noticeSend n => Sys2Proof.Machine.execNoticeSend n s
  | .applyPendingTimeout => Sys2Proof.Machine.execApplyPendingTimeout s
  | .escrowIdleTimeout => Sys2Proof.Machine.execEscrowIdleTimeout s
  | .sessionTimeout n => Sys2Proof.Machine.execSessionTimeout n s
  | .keySilence => Sys2Proof.Machine.execKeySilence s
  | .claimWindowEnd => Sys2Proof.Machine.execClaimWindowEnd s
  | .parameterSave from' => Sys2Proof.Machine.execParameterSave from' s
  | .mailboxTxWrite r m data be => Sys2Proof.Machine.execMailboxTxWrite r m data be s
  | .mailboxSend r m => Sys2Proof.Machine.execMailboxSend r m s
  | .mailboxReset r m => Sys2Proof.Machine.execMailboxReset r m s
  | .mailboxRxRead m => Sys2Proof.Machine.execMailboxRxRead m s
  | .arpRequestReceive n mac ip target => Sys2Proof.Machine.execArpRequestReceive n mac ip target s
  | .neighborSolicitationReceive n source target => Sys2Proof.Machine.execNeighborSolicitationReceive n source target s
  | .echoRequestReceive n source dest data => Sys2Proof.Machine.execEchoRequestReceive n source dest data s
  | .netFrameDrop n => Sys2Proof.Machine.execNetFrameDrop n s
  | .ethLinkChange n code lock => Sys2Proof.Machine.execEthLinkChange n code lock s
  | .ptpMessageReceive n msg => Sys2Proof.Machine.execPtpMessageReceive n msg s
  | .queueBeatParity queue block hit o => Sys2Proof.Machine.execQueueBeatParity queue block hit o s
  | .coreHeartbeatMiss => Sys2Proof.Machine.execCoreHeartbeatMiss s
  | .coreLastingError o => Sys2Proof.Machine.execCoreLastingError o s
  | .standbyHeartbeatMiss => Sys2Proof.Machine.execStandbyHeartbeatMiss s
  | .standbyRebootDone passed => Sys2Proof.Machine.execStandbyRebootDone passed s
  | .firmwareUpdate from' => Sys2Proof.Machine.execFirmwareUpdate from' s
  | .updateVerifyDone sigOk => Sys2Proof.Machine.execUpdateVerifyDone sigOk s
  | .updateTakeover => Sys2Proof.Machine.execUpdateTakeover s
  | .probationHealthy => Sys2Proof.Machine.execProbationHealthy s
  | .probationTimeout => Sys2Proof.Machine.execProbationTimeout s
  | .flashCommitDone ok => Sys2Proof.Machine.execFlashCommitDone ok s
  | .cameraIdCheck p idLen blob sigOk => Sys2Proof.Machine.execCameraIdCheck p idLen blob sigOk s
  | .attestRequest from' => Sys2Proof.Machine.execAttestRequest from' s
  | .attestReportDone => Sys2Proof.Machine.execAttestReportDone s
  | .fuseBurn r => Sys2Proof.Machine.execFuseBurn r s
  | .fuseBurnDone => Sys2Proof.Machine.execFuseBurnDone s
  | .sysRstAssert ns => Sys2Proof.Machine.execSysRstAssert ns s
  | .sysRstRelease rcvForce control => Sys2Proof.Machine.execSysRstRelease rcvForce control s
  | .bootVerifyDone a b => Sys2Proof.Machine.execBootVerifyDone a b s
  | .recoveryChunk => Sys2Proof.Machine.execRecoveryChunk s
  | .recoveryVerify r data => Sys2Proof.Machine.execRecoveryVerify r data s
  | .recoveryVerifyDone sigOk => Sys2Proof.Machine.execRecoveryVerifyDone sigOk s
  | .overtempAssert die stack => Sys2Proof.Machine.execOvertempAssert die stack s
  | .overtempRelease die stack => Sys2Proof.Machine.execOvertempRelease die stack s
  | .ref10mRestored trim => Sys2Proof.Machine.execRef10mRestored trim s
  | .equaliserAdapt p l up idleRun => Sys2Proof.Machine.execEqualiserAdapt p l up idleRun s
  | .reservedControlBlock p => Sys2Proof.Machine.execReservedControlBlock p s
  | .portLogicFault p cause => Sys2Proof.Machine.execPortLogicFault p cause s
  | .pllRelockDone pll ok => Sys2Proof.Machine.execPllRelockDone pll ok s
  | .tellerSelfCheckFail t => Sys2Proof.Machine.execTellerSelfCheckFail t s
  | .lowWordLatchRead r off => Sys2Proof.Machine.execLowWordLatchRead r off s
  | .unsupportedInboundRequest posted => Sys2Proof.Machine.execUnsupportedInboundRequest posted s
  | .pcieLinkError bit' correctable => Sys2Proof.Machine.execPcieLinkError bit' correctable s
  | .stuckInputReturn p => Sys2Proof.Machine.execStuckInputReturn p s
  | .recoveryFlashDone ok => Sys2Proof.Machine.execRecoveryFlashDone ok s

end Sys2Proof.Machine
end

