-- ==== Sys2Proof/Safety.lean ====
section
/-! DEFINITION. What counts as a safe state and a safe run. -/

namespace Sys2Proof.Machine

/-- What every step keeps: the vault's bytes stand in their one canonical form, and no vault write is left over between commands. -/
def State.Sound (s : State) : Prop := Vault.wf s.vault = true ∧ s.dev.vlt.writes = []

/-- A state in which a command has its own effect at once: SYS_RST_N is high and no commit is under way. -/
abbrev State.Ready (s : State) : Prop := s.dev.low = false ∧ s.dev.mgt.escrow.commit = none ∧ s.dev.vlt.writes = []

/-- A write that reaches its register: it comes from inside the device, or from a host that is out of PERST_N, has Memory Space
Enable set and finds the gate open or the register ungated (R41, R305). -/
abbrev Dev.Admits (d : Dev) (r : Requester) (a : Nat) : Prop :=
  r = .host → d.hostUp = true ∧ d.memEnable = true ∧ (d.gateOpen = true ∨ d.ungated a = true)

/-- A device that the host can read. -/
abbrev Dev.Readable (d : Dev) : Prop := d.hostUp = true ∧ d.memEnable = true

/-- A read that reaches its register: from inside the device, or from a host that the device answers. -/
abbrev Dev.Reads (d : Dev) (r : Requester) : Prop := r = .host → d.Readable

/-- What carries an answer to a requester: to the host a completion, with an ECRC where the port puts one into its packets (R317). -/
abbrev Dev.toward (d : Dev) (r : Requester) (o : Out) : Out := if r = .host then d.sealed o else o

/-- A cause that acts at once: a write that reaches register `a`, or an activation of task `t` that finds none pending and comes before any
act of the task in its cycle (R376, R379). -/
abbrev Dev.Causes (d : Dev) (c : Cause) (a t : Nat) : Prop :=
  match c with
  | .write r => d.Admits r a
  | .task => d.taskPending t = (0, 0) ∧ d.actedNow t = false

/-- The hop count that source events of a cause carry (R378). -/
abbrev Dev.hopOf (d : Dev) (c : Cause) : Nat := if c = .task then 1 else d.evr.hop

/-- Registers of RW and RO fields whose writes act on nothing else and which no hardware updates. -/
def plainRegs : List Nat :=
  (List.range 256).map NTQ_ROUTE.addr ++ (List.range 32).map HEP_WIN_BAR.addr ++ (List.range 32).map HEP_WIN_TGT.addr
    ++ (List.range 4).map ENC_CH_CHK.addr ++ (List.range 16).map AVP_RANGE_ASYM.addr ++ (List.range 16).map AVP_CMD_ADDR.addr

/-- Registers of RWL fields alone, one or more of every lock group, each with the group's bit of DCT_LOCK (R37). -/
def lockedRegs : List (Nat × Nat) :=
  (List.range 16).map (fun p => (LPH_EQ_OVR.addr p, 0)) ++ [(0x90_0654, 1)] ++ (List.range 16).map (fun p => (FIO_PIN_STUCK.addr p, 2))
    ++ [(SEC_FUSE_DATA.addr, 3), (SEC_CFG.addr, 4)] ++ (List.range 528).map fun t => (CHT_T_CTL.addr t, 5)

/-- What a command leaves alone: the queue, every byte of the vault, device time, and every register but those `touched` names. -/
def State.Keeps (s t : State) (touched : Nat → Prop) : Prop :=
  t.pending = s.pending ∧ (∀ a, Vault.byte t.vault a = Vault.byte s.vault a) ∧ t.dev.time = s.dev.time
    ∧ ∀ a, ¬ touched a → t.dev.reg a = s.dev.reg a

/-- What a command that writes the vault leaves alone: the same, but for the bytes `stored` names. -/
def State.KeepsBut (s t : State) (stored touched : Nat → Prop) : Prop :=
  t.pending = s.pending ∧ (∀ a, ¬ stored a → Vault.byte t.vault a = Vault.byte s.vault a) ∧ t.dev.time = s.dev.time
    ∧ ∀ a, ¬ touched a → t.dev.reg a = s.dev.reg a

/-- What a command that moves the host path leaves alone, while every channel goes on or stops as it must: the queue, device time, and the
registers but those of HEP, of the DMA engine and VLT_STAT. -/
def State.KeepsPath (s t : State) : Prop :=
  t.pending = s.pending ∧ t.dev.time = s.dev.time
    ∧ ∀ a, ¬ (a / 0x1_0000 = 2 ∨ (0xA0_0000 ≤ a ∧ a < 0xA3_0000) ∨ a = VLT_STAT.addr) → t.dev.reg a = s.dev.reg a

/-- Firmware runs and hears a source: the Ethernet port is enabled, or the slot holds a request. -/
abbrev Dev.Hears (d : Dev) (f : UmsalFrom) : Prop :=
  d.mgt.firmware = .running ∧ (match f with
    | .net e _ _ _ => d.netOn e && d.umsalReaches f
    | .slot m => (d.slot m).request.isSome) = true

/-- Firmware hears a well-formed request of a session open with that source, and it is the next one of the session: its nonce and
version are the session's, its SEQ is the last one answered plus 1, and none is in progress (R394, R395). -/
abbrev Dev.Takes (d : Dev) (f : UmsalFrom) (k : Msg) (x : Session) : Prop :=
  d.Hears f ∧ Msg.parse (d.messageOf f) = some k ∧ d.session k.session = some x ∧ Dev.fromSession f k.session x = true
    ∧ x.nonce = k.nonce ∧ k.seq = (x.lastSeq + 1) % 2 ^ 16 ∧ x.busy = none ∧ k.major = 1 ∧ k.minor = x.minor

/-- The requests of an open session, each with its TYPE (R392). -/
def sessionRequests (f : UmsalFrom) : List (Instr × Nat) :=
  [(.umsalClose f, 0x02), (.umsalHeartbeat f, 0x03), (.umsalDescribe f, 0x08), (.umsalRead f, 0x10), (.umsalWrite f, 0x11)
  , (.umsalClaim f, 0x20), (.umsalHandover f, 0x21), (.umsalResign f, 0x22), (.escBegin f, 0x30), (.escCommit f, 0x31)
  , (.escRollback f, 0x32), (.escStatus f, 0x33), (.umsalSubscribe f, 0x40)]

/-- A message has gone back to its source: into the slot's receive FIFO with RX_READY, or as a datagram, here to an address on the
link, which every port can reach. -/
def State.Replies (s t : State) (f : UmsalFrom) (l : List Byte) : Prop :=
  match f with
  | .slot m => (t.dev.slot m).rx = ((s.dev.slot m).rx ++ Dev.wordsOf l).take 360 ∧ (t.dev.slot m).request = none
      ∧ t.dev.is (Dev.slotFlag MGT_MBX_FLAGS.RX_READY0 m) = true
  | .net e a p _ => Dev.isIp4 a.toNat = false → Dev.isLinkLocal a.toNat = true → t.dev.out = s.dev.out ++ [.umsal e a.toNat p.toNat l]

/-- The request `k` of session `x` has been answered with a STATUS, a DETAIL and the rest of its body: the answer has gone back, and
is kept for a repetition. -/
def State.Answers (s t : State) (f : UmsalFrom) (k : Msg) (x : Session) (status detail : Nat) (rest : List Byte) : Prop :=
  let l := message x.minor (k.typ + 0x80) k.session k.seq x.nonce (le 2 status ++ le 2 detail ++ rest)
  s.Replies t f l ∧ ∃ y, t.dev.session k.session = some y ∧ y.lastSeq = k.seq ∧ y.busy = none ∧ y.lastResp = l

/-- The pages that carry a request and its answer: MGT with the mailbox, NET, and HEP with the slot's vector. -/
def carried (a : Nat) : Prop := a / 0x1_0000 = 0xC0 ∨ a / 0x1_0000 = 0xD0 ∨ a / 0x1_0000 = 2

/-- The checks of an image's bytes (R432): the body is wholly there and has the header's digest, the vendor's key has the hash fused for the
header's key slot, and that slot is not revoked. -/
abbrev ImageDigest (l : List Byte) : Prop :=
  headerSize + bodyLength l ≤ l.length ∧ sha3 (l.take 32 ++ imageBody l) = (ImageInfo.ofHeader l).digest
abbrev Dev.ImageKey (d : Dev) (l : List Byte) : Prop := d.mgt.fuses.keys[(ImageInfo.ofHeader l).keySlot]? = some (sha3 (imageKey l))
abbrev Dev.ImageSlot (d : Dev) (l : List Byte) : Prop := d.mgt.fuses.revoked[(ImageInfo.ofHeader l).keySlot]? = some false

/-- The first four checks of R432 hold of an image, its signature among them. -/
abbrev Dev.ImageHolds (d : Dev) (l : List Byte) (sigOk : Bool) : Prop := ImageDigest l ∧ d.ImageKey l ∧ d.ImageSlot l ∧ sigOk = true

/-- A safe step: it answers a next state, and that is sound. -/
def SafeStep (s : State) : Prop := ∃ t, step s = .next t ∧ t.Sound

end Sys2Proof.Machine
end

