-- ==== Sys2Proof/Certificates/Slice0/Obligations.lean ====
section
/-! DEFINITION. The statements for the provers. Each says in its docstring what it states and the rules of the spec it rests on.
A command's statement has `State.Ready` as its premise: SYS_RST_N is high and no commit is under way, so that the command's own
effect is all that happens; its conclusion is the command's answer, what the next state holds, and what it keeps. -/

open Sys2Proof Sys2Proof.Machine

/-! ### Registers, notice queues and the audit (chapter 02) -/

/-- a write of an ordinary register and of its set, clear and toggle aliases honours the byte enables and changes its RW fields alone; a
write of any register at a page offset from 0x800 on that holds RO, W1C and SNAP fields clears the W1C bits written 1 that hardware has not
set in the same cycle, and nothing else; so does a write of 1 through the bit alias of such a register; a write sets the lock bits
written 1 and clears none; a write of a register whose lock bit is 1 leaves it, counts, sets LOCK_VIOL, pushes LOCK_VIOL, and is recorded in
DCT_VIOL_ADDR where it is the first; a two-word read of a SNAP pair returns both words, and a read of a latching low word returns it and
latches the high word; neither changes a register (R26-R28, R30, R32, R33, R35-R38, R40, R57). -/
def Obligations.RegisterAccess : Prop :=
  ∀ (s : State) (r : Requester) (data : Word) (be : BitVec 4), s.Ready →
    let x := data &&& word (Dev.beMask be.toNat)
    (∀ (a : Nat) (row : RegRow), a ∈ plainRegs → regRow a = some row → s.dev.Admits r a →
      let m := word (Dev.beMask be.toNat) &&& row.mask (· = .rw)
      let old := s.dev.reg a
      (∃ t, exec (.registerWrite r (BitVec.ofNat 25 a) data be) s = .next t ∧ t.dev.reg a = (old &&& ~~~m) ||| (data &&& m)
        ∧ s.Keeps t (· = a))
      ∧ (∃ t, exec (.setAliasWrite r (BitVec.ofNat 25 (a + 0x1000)) data be) s = .next t ∧ t.dev.reg a = old ||| (data &&& m)
        ∧ s.Keeps t (· = a))
      ∧ (∃ t, exec (.clearAliasWrite r (BitVec.ofNat 25 (a + 0x2000)) data be) s = .next t ∧ t.dev.reg a = old &&& ~~~(data &&& m)
        ∧ s.Keeps t (· = a))
      ∧ ∃ t, exec (.toggleAliasWrite r (BitVec.ofNat 25 (a + 0x3000)) data be) s = .next t ∧ t.dev.reg a = old ^^^ (data &&& m)
        ∧ s.Keeps t (· = a))
    ∧ (∀ (a : Nat) (row : RegRow), regRow a = some row → s.dev.Admits r a → a < 2 ^ 25 → 0x800 ≤ a % 0x1000 →
      (∀ f ∈ row.fields, f.access = .ro ∨ f.access = .w1c ∨ f.access = .snap) →
      let clears := fun w : Word => s.dev.reg a &&& ~~~(w &&& row.mask (· = .w1c) &&& ~~~s.dev.setsOf a)
      (aliasOf a = some (.plain, a) →
        ∃ t, exec (.registerWrite r (BitVec.ofNat 25 a) data be) s = .next t ∧ t.dev.reg a = clears x ∧ s.Keeps t (· = a))
      ∧ ∀ (off : BitVec 25) (i : Nat), i < 32 → aliasOf off.toNat = some (.bit i, a) →
        ∃ t, exec (.bitAliasWrite r off data be) s = .next t ∧ t.dev.reg a = clears (if x.getLsbD 0 then 1#32 <<< i else 0) ∧ s.Keeps t (· = a))
    ∧ (∀ i : Fin 32, aliasOf (0x1_4000 + 4 * i.val) = some (.bit i, DCT_FLAGS.addr)
      ∧ ∀ p : Fin 16, aliasOf (0x10_0000 + 0x1_0000 * p.val + 0x4000 + 4 * i.val) = some (.bit i, AVP_FLAGS.addr p))
    ∧ (s.dev.Admits r DCT_LOCK.addr →
      ∃ t, exec (.registerWrite r (BitVec.ofNat 25 DCT_LOCK.addr) data be) s = .next t
        ∧ t.dev.reg DCT_LOCK.addr = s.dev.reg DCT_LOCK.addr ||| (x &&& 0x3F#32) ∧ s.Keeps t (· = DCT_LOCK.addr))
    ∧ (∀ (a n : Nat) (row : RegRow) (b : BlockRow), (a, n) ∈ lockedRegs → regRow a = some row → blockOf a = some b → s.dev.Admits r a →
      s.dev.bitOf DCT_LOCK.addr n = true → word (Dev.beMask be.toNat) &&& row.mask (fun _ => true) ≠ 0 →
      ∃ t, exec (.registerWrite r (BitVec.ofNat 25 a) data be) s = .next t ∧ t.dev.reg a = s.dev.reg a
        ∧ t.dev.is DCT_FLAGS.LOCK_VIOL = true ∧ (∀ i, i ≠ 0 → t.dev.bitOf DCT_FLAGS.addr i = s.dev.bitOf DCT_FLAGS.addr i)
        ∧ t.dev.get64 DCT_LOCK_VIOL_CNT.addr = (s.dev.get64 DCT_LOCK_VIOL_CNT.addr + 1) % 2 ^ 64
        ∧ (if s.dev.is DCT_FLAGS.LOCK_VIOL = true then t.dev.reg DCT_VIOL_ADDR.addr = s.dev.reg DCT_VIOL_ADDR.addr
          else t.dev.get DCT_VIOL_ADDR.ADDR = a ∧ t.dev.get DCT_VIOL_ADDR.REQ = r.code)
        ∧ t.dev.ntq.input = s.dev.ntq.input ++ [⟨.alert, b.idOf a, 0x001, word a, s.dev.time⟩]
        ∧ s.Keeps t fun x => x = DCT_FLAGS.addr ∨ x = DCT_VIOL_ADDR.addr ∨ x = DCT_LOCK_VIOL_CNT.addr ∨ x = DCT_LOCK_VIOL_CNT.addr + 4)
    ∧ (s.dev.Reads r →
      (∀ a : BitVec 25, a.toNat % 8 = 0 → 0xC00 ≤ a.toNat % 0x1000 → a.toNat % 0x1000 < 0xE00 → (blockOf a.toNat).isSome = true →
        ∃ t, exec (.snapPairRead r a) s = .next t
          ∧ t.dev.out = s.dev.out ++ [s.dev.toward r (.readData a.toNat (s.dev.reg a.toNat)),
              s.dev.toward r (.readData (a.toNat + 4) (s.dev.reg (a.toNat + 4)))]
          ∧ s.Keeps t fun _ => False)
      ∧ ∀ a ∈ Dev.latchLows, ∃ t, exec (.lowWordLatchRead r (BitVec.ofNat 25 a)) s = .next t
        ∧ t.dev.out = s.dev.out ++ [s.dev.toward r (.readData a (s.dev.regRead a))]
        ∧ t.dev.regRead (a + 4) = (if a = CAD_TIME.addr then word (s.dev.time / 2 ^ 32) else s.dev.reg (a + 4))
        ∧ s.Keeps t fun _ => False)

/-- a host write of any gated register, plain or through an alias, while the gate is closed changes no register but GATED_CNT and
GATED, and pushes GATED_WRITE of the written page's block at most once per millisecond; a host request of more than two words is
answered with Completer Abort, counted, and reaches no register (R13, R26, R31, R32, R41). -/
def Obligations.RefusedHostRequests : Prop :=
  (∀ (s : State) (off : BitVec 25) (data : Word) (be : BitVec 4) (b : BlockRow), s.Ready → s.dev.Readable → s.dev.gateOpen = false →
    be ≠ 0#4 → blockOf off.toNat = some b →
    s.dev.ungated (match aliasOf off.toNat with | some (_, a) => a | none => off.toNat / 4 * 4) = false →
    ∃ t, exec (.registerWrite .host off data be) s = .next t
      ∧ t.dev.get64 DCT_GATED_CNT.addr = (s.dev.get64 DCT_GATED_CNT.addr + 1) % 2 ^ 64 ∧ t.dev.is DCT_FLAGS.GATED = true
      ∧ (∀ i, i ≠ DCT_FLAGS.GATED.lo → t.dev.bitOf DCT_FLAGS.addr i = s.dev.bitOf DCT_FLAGS.addr i)
      ∧ t.dev.ntq.input = s.dev.ntq.input
        ++ (if s.dev.since .gated (ms 1) then [⟨.alert, b.idOf off.toNat, 0x002, word off.toNat, s.dev.time⟩] else [])
      ∧ t.dev.out = s.dev.out ∧ s.Keeps t fun x => x = DCT_GATED_CNT.addr ∨ x = DCT_GATED_CNT.addr + 4 ∨ x = DCT_FLAGS.addr)
  ∧ ∀ (s : State) (off : BitVec 25) (words : Nat), s.Ready → s.dev.Readable → 2 < words →
    ∃ t, exec (.oversizeBar0Request off words false) s = .next t
      ∧ (∃ l, t.dev.out = s.dev.out ++ s.dev.sealed .completerAbort :: l)
      ∧ t.dev.get64 HEP_CA_CNT.addr = (s.dev.get64 HEP_CA_CNT.addr + 1) % 2 ^ 64
      ∧ s.Keeps t fun x => x = HEP_CA_CNT.addr ∨ x = HEP_CA_CNT.addr + 4 ∨ x = HEP_UNCOR_CNT.addr ∨ x = HEP_UNCOR_CNT.addr + 4
        ∨ x = HEP_FLAGS.addr

/-- the oldest item of a block goes in one cycle into every queue of its mask that has not stored it, has taken no push in the cycle, and for which
  no item of a lower block is pending; it stands at the end of its class ring there, in the place of the oldest item where the ring is full, which
  counts as lost, as it does itself where the queue is disabled; the queue signals where it is armed for the class; the item leaves its block once all
  queues of its mask have it. A pop returns the oldest item of the highest-priority class that held one at the start of the cycle, copies it into LAST
  and removes it, but for one that a push of the cycle has overwritten, which no longer counts as lost; where there is none it returns the empty word;
  a read with all byte enables 0 returns the same and removes nothing; a pop that finds the pointer copies unequal empties the queue, counts all of it
  as lost, pushes QUEUE_RESET, and the fault is logged. Arming a queue that holds no item of an enabled class leaves ARM 1; arming one that does
  signals and leaves ARM 0; FLUSH empties the four class rings and counts nothing as lost. Where the cycles of MGT stand in device time is the model's
  reading (log entry 75) (R46-R54). -/
def Obligations.NoticeQueues : Prop :=
  (∀ (s : State) (block : BitVec 8) (n : Notice), s.Ready → s.dev.ntq.input.find? (·.block = block.toNat) = some n →
    let c := n.cls.code
    let takes := fun q : Nat => s.dev.takesNow n q
    let stores := fun q : Nat => takes q && s.dev.is (NTQ_CTL.EN q)
    let full := fun q : Nat => decide (Dev.ringRoom q ≤ (s.dev.classRing q c).length)
    let signals := fun q : Nat => stores q && s.dev.is (NTQ_CTL.ARM q) && bit (s.dev.get (NTQ_CTL.IRQ_CLASS q)) c
    let all := ∀ q : Fin 8, bit (s.dev.routeMask n) q = true → (takes q || bit (s.dev.takenOf n.block) q) = true
    (∀ q : Nat, takes q = (s.dev.pendsFor n q && (s.dev.lastPush q).cycle != s.dev.mgtCycle
      && !(s.dev.ntq.input.any fun m => m.block < n.block && s.dev.pendsFor m q)))
    ∧ ∃ t, exec (.noticeStore block 0#8) s = .next t
      ∧ (all → t.dev.ntq.input = s.dev.ntq.input.eraseP (·.block = block.toNat) ∧ t.dev.takenOf n.block = 0)
      ∧ (¬ all → t.dev.ntq.input = s.dev.ntq.input
        ∧ ∀ q : Fin 8, bit (t.dev.takenOf n.block) q = (bit (s.dev.takenOf n.block) q || takes q))
      ∧ (∀ q : Fin 8, t.dev.classRing q c
            = (if stores q = true then (s.dev.classRing q c).drop (ofBool (full q)) ++ [n] else s.dev.classRing q c)
          ∧ (∀ c' : Nat, c' < 4 → c' ≠ c → t.dev.classRing q c' = s.dev.classRing q c')
          ∧ t.dev.get64 (NTQ_LOST.addr q)
            = (s.dev.get64 (NTQ_LOST.addr q) + ofBool (takes q && (!s.dev.is (NTQ_CTL.EN q) || full q))) % 2 ^ 64
          ∧ t.dev.is (NTQ_CTL.ARM q) = (s.dev.is (NTQ_CTL.ARM q) && !signals q))
      ∧ s.Keeps t fun x => ∃ q : Fin 8, takes q = true ∧ (x = NTQ_DEPTH01.addr q ∨ x = NTQ_DEPTH23.addr q ∨ x = NTQ_LOST.addr q
        ∨ x = NTQ_LOST.addr q + 4 ∨ signals q = true ∧ (x = NTQ_CTL.addr q ∨ x / 0x1_0000 = 2)))
  ∧ (∀ (s : State) (r : Requester) (q : Fin 8), s.Ready → s.dev.Reads r →
    (∀ c : Nat, s.dev.startRing q c = (match s.dev.pushNow q c with
      | some p => p.lost.toList ++ (s.dev.classRing q c).dropLast | none => s.dev.classRing q c))
    ∧ (∀ (c : Fin 4) (n : Notice) (l : List Notice), (∀ c' : Nat, c' < c.val → s.dev.startRing q c' = []) →
      s.dev.startRing q c = n :: l →
      let beaten := ((s.dev.pushNow q c).bind (·.lost)).isSome
      (∃ t, exec (.noticePop r q false) s = .next t
        ∧ t.dev.classRing q c = (s.dev.classRing q c).drop (if beaten = true then 0 else 1)
        ∧ (∀ p c' : Nat, c' < 4 → (p, c') ≠ (q.val, c.val) → t.dev.classRing p c' = s.dev.classRing p c')
        ∧ (beaten = true → t.dev.get64 (NTQ_LOST.addr q) = (s.dev.get64 (NTQ_LOST.addr q) + (2 ^ 64 - 1)) % 2 ^ 64)
        ∧ t.dev.out = s.dev.out ++ [s.dev.toward r (.readData (NTQ_POP.addr q) n.head)]
        ∧ t.dev.reg (NTQ_LAST3.addr q) = n.head ∧ t.dev.reg (NTQ_LAST2.addr q) = n.arg ∧ t.dev.get64 (NTQ_LAST0.addr q) = n.time % 2 ^ 64
        ∧ s.Keeps t fun x => (NTQ_LAST2.addr q ≤ x ∧ x ≤ NTQ_DEPTH23.addr q) ∨ beaten = true ∧ (x = NTQ_LOST.addr q ∨ x = NTQ_LOST.addr q + 4))
      ∧ ∃ t, exec (.noticePeek r q) s = .next t ∧ t.dev.ntq = s.dev.ntq
        ∧ t.dev.out = s.dev.out ++ [s.dev.toward r (.readData (NTQ_POP.addr q) n.head)] ∧ s.Keeps t fun _ => False)
    ∧ ((∀ c : Nat, c < 4 → s.dev.startRing q c = []) →
      let w := if q = 0 then 0#32 else 0xE00FFFFF#32
      ∃ t, exec (.noticePop r q false) s = .next t ∧ t.dev.ntq = s.dev.ntq
        ∧ t.dev.out = s.dev.out ++ [s.dev.toward r (.readData (NTQ_POP.addr q) w)]
        ∧ t.dev.reg (NTQ_LAST3.addr q) = w ∧ t.dev.reg (NTQ_LAST2.addr q) = 0 ∧ t.dev.get64 (NTQ_LAST0.addr q) = 0
        ∧ s.Keeps t fun x => NTQ_LAST2.addr q ≤ x ∧ x < NTQ_DEPTH01.addr q)
    ∧ ∃ t, exec (.noticePop r q true) s = .next t
      ∧ (∀ c : Nat, c < 4 → t.dev.classRing q c = [])
      ∧ t.dev.get64 (NTQ_LOST.addr q) = (s.dev.get64 (NTQ_LOST.addr q) + s.dev.queueItems q) % 2 ^ 64
      ∧ t.dev.get64 (NTQ_RESETS.addr q) = (s.dev.get64 (NTQ_RESETS.addr q) + 1) % 2 ^ 64
      ∧ (∃ arg, t.dev.ntq.input = s.dev.ntq.input ++ [⟨.fault, idNTQ, 0x003, word (q.val * 2 ^ 24 + Nat.min 0xFFFFFF (s.dev.queueItems q)),
          s.dev.time⟩, ⟨.info, idMGT, 0x020, arg, s.dev.time⟩])
      ∧ t.dev.mgt.logCount = s.dev.mgt.logCount + 1
      ∧ s.Keeps t fun x => (NTQ_LAST2.addr q ≤ x ∧ x ≤ NTQ_DEPTH23.addr q) ∨ x / 8 = NTQ_LOST.addr q / 8 ∨ x / 8 = NTQ_RESETS.addr q / 8)
  ∧ ∀ (s : State) (r : Requester) (q : Fin 8), s.Ready → s.dev.Admits r (NTQ_CTL.addr q) →
    ((∀ c : Nat, c < 4 → bit (s.dev.get (NTQ_CTL.IRQ_CLASS q)) c = true → s.dev.classRing q c = []) →
      ∃ t, exec (.noticeArm r q) s = .next t ∧ t.dev.is (NTQ_CTL.ARM q) = true ∧ t.dev.out = s.dev.out
        ∧ s.Keeps t (· = NTQ_CTL.addr q))
    ∧ (∀ c : Fin 4, bit (s.dev.get (NTQ_CTL.IRQ_CLASS q)) c = true → s.dev.classRing q c ≠ [] →
      s.dev.msixEnable = true → s.dev.vectorHeld (s.dev.get (NTQ_CTL.VECTOR q)) = false →
      s.dev.signalled (s.dev.get (NTQ_CTL.VECTOR q)) = false →
      ∃ t, exec (.noticeArm r q) s = .next t ∧ t.dev.is (NTQ_CTL.ARM q) = false
        ∧ (∃ addr data, t.dev.out = s.dev.out ++ [.msix (s.dev.get (NTQ_CTL.VECTOR q)) addr data s.dev.plain])
        ∧ s.Keeps t fun x => x = NTQ_CTL.addr q ∨ x = HEP_MSIX_CNT.addr ∨ x = HEP_MSIX_CNT.addr + 4)
    ∧ ∃ t, exec (.noticeFlush r q) s = .next t ∧ (∀ c : Nat, c < 4 → t.dev.classRing q c = [])
      ∧ t.dev.reg (NTQ_DEPTH01.addr q) = 0 ∧ t.dev.reg (NTQ_DEPTH23.addr q) = 0
      ∧ s.Keeps t fun x => x = NTQ_DEPTH01.addr q ∨ x = NTQ_DEPTH23.addr q

/-- an audit: a request, by a write of SNAP or by a task, sets BUSY, or HELD while an audit is busy; the capture, once the instant of the
audit has come, stores that instant in AUD_TIME and the live value of every 64-bit counter in its copy, and leaves the counters alone; the end
counts AUD_SEQ, pushes AUDIT_DONE, fires AUD_DONE, and clears BUSY or starts the held request. The instant is the first time cycle at least
200 ns after the request, which the model's clock step finds; a capture that comes later than it copies the live values of that later moment,
which is the model's reading (log entry 64) (R30, R55, R56). -/
def Obligations.Audit : Prop :=
  ∀ s : State, s.Ready →
    (∀ c : Cause, s.dev.Causes c AUD_CTL.addr 0x070 →
      ∃ t, exec (.auditRequest c) s = .next t ∧ t.dev.is AUD_STAT.BUSY = true
        ∧ (if s.dev.is AUD_STAT.BUSY = true
          then t.dev.is AUD_STAT.HELD = true ∧ t.dev.aud.since = s.dev.aud.since ∧ t.dev.aud.captured = s.dev.aud.captured
            ∧ t.dev.aud.heldHop = Nat.max s.dev.aud.heldHop (s.dev.hopOf c)
          else t.dev.is AUD_STAT.HELD = s.dev.is AUD_STAT.HELD ∧ t.dev.aud.since = some s.dev.time ∧ t.dev.aud.instant = none
            ∧ t.dev.aud.captured = false ∧ t.dev.aud.hop = s.dev.hopOf c)
        ∧ t.dev.ntq = s.dev.ntq ∧ t.dev.evr.input = s.dev.evr.input ∧ s.Keeps t (· = AUD_STAT.addr))
    ∧ (∀ at', s.dev.aud.since = some at' →
      s.dev.aud.instant = none → (s.dev.auditInstant = if at' + ns 200 ≤ s.dev.time then some s.dev.time else none))
    ∧ (∀ at' instant, s.dev.aud.since = some at' → s.dev.auditInstant = some instant → s.dev.aud.captured = false →
      ∃ t, exec .auditCapture s = .next t ∧ t.dev.get64 AUD_TIME.addr = instant % 2 ^ 64 ∧ t.dev.aud.captured = true
        ∧ (∀ a, 0x1_0000 ≤ a → a < 0x1FF_FE00 → 0xA00 ≤ a % 0x1000 → a % 0x1000 < 0xC00 → a / 8 ≠ (AUD_TIME.addr - 0x200) / 8 →
          a / 8 ≠ (CAD_DOMAIN_SNAP.addr - 0x200) / 8 → t.dev.reg (a + 0x200) = s.dev.reg a)
        ∧ t.dev.get64 CAD_DOMAIN_SNAP.addr = s.dev.get64 CAD_DOMAIN_OFF.addr
        ∧ t.dev.ntq = s.dev.ntq ∧ t.dev.evr.input = s.dev.evr.input ∧ s.Keeps t fun x => 0xC00 ≤ x % 0x1000 ∧ x % 0x1000 < 0xE00)
    ∧ (s.dev.is AUD_STAT.BUSY = true → s.dev.aud.captured = true →
      ∃ t, exec .auditDone s = .next t ∧ t.dev.get AUD_SEQ.SEQ = (s.dev.get AUD_SEQ.SEQ + 1) % 2 ^ 32
        ∧ t.dev.ntq.input = s.dev.ntq.input ++ [⟨.info, idAUD, 0x004, word ((s.dev.get AUD_SEQ.SEQ + 1) % 2 ^ 32), s.dev.time⟩]
        ∧ t.dev.evr.input = s.dev.evr.input ++ [s.dev.sourceEvent 0x29 s.dev.aud.hop]
        ∧ t.dev.is AUD_STAT.BUSY = s.dev.is AUD_STAT.HELD ∧ t.dev.is AUD_STAT.HELD = false
        ∧ t.dev.aud.since = (if s.dev.is AUD_STAT.HELD = true then some s.dev.time else none) ∧ t.dev.aud.captured = false
        ∧ s.Keeps t fun x => x = AUD_SEQ.addr ∨ x = AUD_STAT.addr)


/-! ### Cadence, time and modes (chapter 03) -/

/-- GO sets PENDING, and in STANDBY chooses the first multiple of 4,000 dt at least 2 us away; GO while one is pending only sets
GO_BUSY; a due apply in STANDBY brings the staged period and phase into force, clears PENDING, is recorded and reported with all
ones, and where no channel delivers a ring leaves every block's registers but those of CAD, DCT, CHT and VLT and the flags of the ports
alone (R74-R77). -/
def Obligations.Apply : Prop :=
  ∀ (s : State) (r : Requester), s.Ready →
    (s.dev.Admits r CAD_APPLY.addr → s.dev.is CAD_APPLY.PENDING = false → s.dev.ticking = false →
      ∃ t T, exec (.applyRequest r) s = .next t ∧ t.dev.is CAD_APPLY.PENDING = true
        ∧ t.dev.cad = { s.dev.cad with apply := some ⟨s.dev.time, none, some T⟩ }
        ∧ T % 4000 = 0 ∧ s.dev.time + us 2 ≤ T ∧ T < s.dev.time + us 2 + 4000
        ∧ s.Keeps t (· = CAD_APPLY.addr))
    ∧ (s.dev.Admits r CAD_APPLY.addr → s.dev.is CAD_APPLY.PENDING = true →
      ∃ t, exec (.applyRequest r) s = .next t ∧ t.dev.is CAD_FLAGS.GO_BUSY = true ∧ t.dev.cad = s.dev.cad
        ∧ t.dev.is CAD_APPLY.PENDING = true ∧ s.Keeps t (· = CAD_FLAGS.addr))
    ∧ ∀ g T, s.dev.cad.apply = some ⟨g, none, some T⟩ → T ≤ s.dev.time → (∀ ring : Fin 64, s.dev.streamsOn ring = []) →
      ∃ t l, exec .applyLand s = .next t ∧ t.dev.is CAD_APPLY.PENDING = false ∧ t.dev.cad.apply = none
        ∧ t.dev.get64 CAD_APPLY_TICK.addr = 2 ^ 64 - 1 ∧ t.dev.get64 CAD_APPLY_TIME.addr = s.dev.time % 2 ^ 64
        ∧ t.dev.get64 CAD_APPLY_CNT.addr = (s.dev.get64 CAD_APPLY_CNT.addr + 1) % 2 ^ 64
        ∧ t.dev.ntq.input = s.dev.ntq.input ++ l ++ [⟨.info, idCAD, 0x015, 0xFFFFFFFF#32, s.dev.time⟩]
        ∧ t.dev.force1 CAD_PERIOD.addr = s.dev.reg CAD_PERIOD.addr
        ∧ (∀ p : Fin 16, t.dev.force1 (CAD_PHASE.addr p) = s.dev.reg (CAD_PHASE.addr p))
        ∧ s.Keeps t fun a => a / 0x1_0000 = 1 ∨ a / 0x1_0000 = 4 ∨ a / 0x1_0000 = 0x40 ∨ a / 0x1_0000 = 0x90
          ∨ ∃ p : Fin 16, a = AVP_PFLAGS.addr p

/-- at its nominal time the next tick begins: CAD_TICK holds its number, its deadline joins the budget with the depth in force,
and event source 0x28 fires; at the schedule point of a tick, of a fixed one or of the next TIME tick whose lead has come, every gang head
that is due on it gets one SCHEDULE with the tick's number and its time plus the head's phase, counted and with its exposure noted, where
its port is up and RANGED, and sets SCHED_WITHHELD where it is not, and no other port gets anything; the leader sends the frame of a TIME
tick whose bus lead has come, once; a follower that accepts a frame sets CAD_DOMAIN_OFF to edge + delay - F, but for an offset held after a
loss, and repeats the frame 160 dt later: with STOP it produces no tick of that number or above, without it fixes the tick at its time on
its own device time; under DISC 2 the frame sets DISC_OK and the trim that the servo requests, up to its limit; a frame with a wrong CRC
changes nothing but its counter and flag; 10 ms of silence in a capture mode clears BUS_OK, pushes BUS_LOST and takes back the ticks that
the bus has fixed. That a frame sets the offset under DISC 0, 1 and 3 too, and when an offset held after a loss is let go, is the model's
reading (log entry 78), as it is what modes are capture modes (log entry 77); a value that software writes in the same cycle stays (R35)
(R60, R62, R64, R66, R68, R69, R80-R84, R151). -/
def Obligations.TicksAndTickBus : Prop :=
  (∀ (s : State) (n : Nat), s.Ready →
    (∀ at', s.dev.cad.apply = none → s.dev.nextTick = some (n, at') → at' ≤ s.dev.time → s.dev.actMode ≠ 5 →
      (∀ e ∈ s.dev.cad.budget, n < e.1 + e.2) →
      ∃ t, exec .tickBegin s = .next t ∧ t.dev.get64 CAD_TICK.addr = n % 2 ^ 64 ∧ t.dev.cad.lastTick = some n
        ∧ t.dev.cad.lastTime = at' ∧ t.dev.cad.budget = s.dev.cad.budget ++ [(n, s.dev.forceGet CAD_CTL.DEPTH)]
        ∧ t.dev.evr.input = s.dev.evr.input ++ [s.dev.sourceEvent 0x28 0] ∧ t.dev.ntq = s.dev.ntq ∧ t.dev.out = s.dev.out
        ∧ s.Keeps t fun a => a = CAD_TICK.addr ∨ a = CAD_TICK.addr + 4)
    ∧ (∀ (T : Nat) (strike : Option Nat), s.dev.ticking = true →
      (match s.dev.cad.planned.find? (!·.scheduled) with
        | some q => q.num = n ∧ q.time = T ∧ q.strike = strike
        | none => s.dev.nextSchedule = n ∧ s.dev.sourceFor n = 0 ∧ s.dev.pointPassed n = true ∧ s.dev.timeOf n = T ∧ strike = none) →
      let goes := fun h : Nat => s.dev.portUp h && s.dev.is (AVP_RANGE_STAT.RANGED h)
      let expose := fun h : Nat => T + s.dev.setting n (CAD_PHASE.PHASE h)
      ∃ t, exec .schedulePoint s = .next t
        ∧ (∀ h : Fin 16, (t.dev.port h).pk.ready = (if h.val ∈ s.dev.dueHeads n ∧ goes h = true
            then Dev.insertTx ⟨0x82, n % 2 ^ 32, le 8 (expose h) ++ le 4 0⟩ (s.dev.port h).pk.ready else (s.dev.port h).pk.ready)
          ∧ t.dev.get64 (AVP_SCHED_CNT.addr h) = (if h.val ∈ s.dev.dueHeads n ∧ goes h = true
            then (s.dev.get64 (AVP_SCHED_CNT.addr h) + 1) % 2 ^ 64 else s.dev.get64 (AVP_SCHED_CNT.addr h))
          ∧ t.dev.is (AVP_PFLAGS.SCHED_WITHHELD h)
            = (s.dev.is (AVP_PFLAGS.SCHED_WITHHELD h) || decide (h.val ∈ s.dev.dueHeads n) && !goes h))
        ∧ t.dev.cad.exposures = s.dev.cad.exposures
          ++ ((s.dev.dueHeads n).filter goes).map (fun h => (⟨h, srcSchedule, n % 2 ^ 32, n, expose h, none⟩ : Exposure))
        ∧ t.dev.cad.sentTo = s.dev.cad.sentTo ++ (s.dev.dueHeads n).map (·, n) ∧ t.dev.out = s.dev.out
        ∧ t.dev.cad.scheduledTo = (if s.dev.cad.planned.all (·.scheduled) = true then n + 1 else s.dev.cad.scheduledTo)
        ∧ s.Keeps t fun a => ∃ h ∈ s.dev.dueHeads n,
          a = AVP_SCHED_CNT.addr h ∨ a = AVP_SCHED_CNT.addr h + 4 ∨ a = AVP_PFLAGS.addr h))
  ∧ ∀ (s : State), s.Ready →
    (∀ n, s.dev.cad.busStopDue = none → s.dev.cad.planned = [] → Nat.max s.dev.cad.busSentTo s.dev.nextNum = n → s.dev.sourceFor n = 0 →
      s.dev.forceGet CAD_CTL.BUS_ROLE = 1 → s.dev.ticking = true → s.dev.timeOf n ≤ s.dev.time + s.dev.setting n CAD_BUS_LEAD.LEAD →
      (∀ e, s.dev.cad.busEdge = some e → e + us 1 ≤ s.dev.time) →
      ∃ t, exec .busFrameSend s = .next t
        ∧ t.dev.out = s.dev.out ++ [.busFrame s.dev.time (Dev.busWord n (s.dev.timeOf n) s.dev.time 0)]
        ∧ t.dev.cad = { s.dev.cad with busSentTo := n + 1, busEdge := some s.dev.time } ∧ s.Keeps t fun _ => False)
    ∧ (∀ (tick tickTime edge f : BitVec 64) (trim : BitVec 32) (flags : BitVec 16),
      let crc := crc16 (Dev.busBytes tick.toNat tickTime.toNat edge.toNat flags.toNat)
      let written := s.dev.softWrote ⟨CAD_DOMAIN_OFF.addr, 0, 32⟩ || s.dev.softWrote ⟨CAD_DOMAIN_OFF.addr + 4, 0, 32⟩
      let off := if (s.dev.cad.held || written) = true then BitVec.ofNat 64 (s.dev.get64 CAD_DOMAIN_OFF.addr)
        else edge + BitVec.ofNat 64 (s.dev.get CAD_BUS_DELAY.DELAY) - f
      let again := Out.busFrame (f.toNat + 160) (Dev.busWord tick.toNat tickTime.toNat edge.toNat flags.toNat)
      let bus := s.dev.get CAD_TIME_CTL.DISC = 2
      let disciplined := fun t : State => t.dev.is CAD_STAT.DISC_OK = (decide bus || s.dev.is CAD_STAT.DISC_OK)
        ∧ t.dev.reg CAD_TRIM.addr = (if bus ∧ s.dev.softWrote CAD_TRIM.RATE = false then trim else s.dev.reg CAD_TRIM.addr)
        ∧ s.Keeps t fun a => a = CAD_DOMAIN_OFF.addr ∨ a = CAD_DOMAIN_OFF.addr + 4 ∨ a = CAD_STAT.addr ∨ bus ∧ a = CAD_TRIM.addr
      s.dev.forceGet CAD_CTL.BUS_ROLE = 2 → (bus → trim.toInt.natAbs ≤ 219902326) →
      (s.dev.nextNum ≤ tick.toNat → flags.getLsbD 0 = true →
        ∃ t, exec (.busFrameReceive tick tickTime edge flags crc f trim) s = .next t
          ∧ t.dev.get64 CAD_DOMAIN_OFF.addr = off.toNat
          ∧ t.dev.is CAD_STAT.BUS_OK = true ∧ t.dev.is CAD_STAT.BUS_STOPPED = true
          ∧ t.dev.cad.planned = (if s.dev.sourceFor tick.toNat = 2 then s.dev.cad.planned.filter (·.num < tick.toNat) else s.dev.cad.planned)
          ∧ t.dev.out = s.dev.out ++ [again]
          ∧ t.dev.ntq.input = s.dev.ntq.input ++ [⟨.info, idCAD, 0x017, word tick.toNat, s.dev.time⟩] ∧ disciplined t)
      ∧ (let T := (tickTime - (edge + BitVec.ofNat 64 (s.dev.get CAD_BUS_DELAY.DELAY) - f)).toNat
        flags.getLsbD 0 = false → s.dev.ticking = true → s.dev.sourceFor tick.toNat = 2 → s.dev.plannedNum ≤ tick.toNat →
        s.dev.nextNum ≤ tick.toNat →
        s.dev.cad.apply = none → s.dev.cad.startAt = none → s.dev.time + s.dev.forceGet CAD_SCHED_LEAD.LEAD + us 2 ≤ T →
        (match s.dev.cad.planned.getLast? with
          | some q => q.time + 400 ≤ T
          | none => s.dev.cad.lastTick.isSome = true → s.dev.cad.lastTime + 400 ≤ T) →
        ∃ t, exec (.busFrameReceive tick tickTime edge flags crc f trim) s = .next t
          ∧ t.dev.get64 CAD_DOMAIN_OFF.addr = off.toNat
          ∧ t.dev.is CAD_STAT.BUS_OK = true ∧ t.dev.is CAD_STAT.BUS_STOPPED = false
          ∧ t.dev.cad.planned = s.dev.cad.planned ++ [⟨tick.toNat, T, s.dev.time, false, none⟩]
          ∧ t.dev.out = s.dev.out ++ [again] ∧ t.dev.ntq = s.dev.ntq ∧ disciplined t)
      ∧ ∀ bad, bad ≠ crc → ∃ t, exec (.busFrameReceive tick tickTime edge flags bad f trim) s = .next t
          ∧ t.dev.get64 CAD_BUS_BAD_CNT.addr = (s.dev.get64 CAD_BUS_BAD_CNT.addr + 1) % 2 ^ 64 ∧ t.dev.is CAD_FLAGS.BUS_BAD = true
          ∧ t.dev.cad = s.dev.cad ∧ t.dev.out = s.dev.out
          ∧ s.Keeps t fun a => a = CAD_BUS_BAD_CNT.addr ∨ a = CAD_BUS_BAD_CNT.addr + 4 ∨ a = CAD_FLAGS.addr)
    ∧ (s.dev.forceGet CAD_CTL.BUS_ROLE = 2 → s.dev.capturing = true → s.dev.cad.busStopRx = false → s.dev.cad.busLost = false →
      s.dev.cad.busRxAt + ms 10 ≤ s.dev.time →
      ∃ t, exec .busSilenceTimeout s = .next t ∧ t.dev.is CAD_STAT.BUS_OK = false ∧ t.dev.is CAD_FLAGS.BUS_LOST = true
        ∧ t.dev.cad.busLost = true ∧ t.dev.mode = s.dev.mode
        ∧ t.dev.cad.planned = (match s.dev.cad.planned.find? (fun q => s.dev.sourceFor q.num = 2) with
          | some q => s.dev.cad.planned.filter (·.num < q.num) | none => s.dev.cad.planned)
        ∧ t.dev.ntq.input = s.dev.ntq.input ++ [⟨.alert, idCAD, 0x012, word s.dev.cad.busRxTick, s.dev.time⟩]
        ∧ s.Keeps t fun a => a = CAD_STAT.addr ∨ a = CAD_FLAGS.addr)

/-- a drain whose work is done ends in STANDBY with the cadence stopped and MODE_CHANGED pushed; one that outlasts the limit ends
too, with DRAIN_TIMEOUT pushed first; the limit takes 1 to 600,000 ms, and another value is ignored and sets BAD_VALUE (R85,
R87, R88). -/
def Obligations.Drain : Prop :=
  ∀ (s : State), s.Ready →
    (s.dev.mode = 6 → s.dev.drained = true → s.dev.forceGet CAD_CTL.BUS_ROLE ≠ 1 →
      ∃ t, exec .drainComplete s = .next t ∧ t.dev.mode = 0 ∧ t.dev.get DCT_MODE.PREV = 6
        ∧ (s.dev.softWrote DCT_MODE.NEXT = false → t.dev.get DCT_MODE.NEXT = 0)
        ∧ t.dev.ticking = false ∧ t.dev.ntq.input = s.dev.ntq.input ++ [⟨.event, idDCT, 0x010, 0x60#32, s.dev.time⟩]
        ∧ t.dev.out = s.dev.out ∧ s.Keeps t fun a => a = DCT_MODE.addr ∨ a = CAD_STAT.addr)
    ∧ (∀ since', s.dev.mode = 6 → s.dev.cad.drainAt = some since' → since' + ms (s.dev.get DCT_DRAIN_LIMIT.LIMIT) ≤ s.dev.time →
      ∃ t l, exec .drainTimeout s = .next t ∧ t.dev.mode = 0 ∧ t.dev.get DCT_MODE.PREV = 6 ∧ t.dev.ticking = false
        ∧ t.dev.cad.exposures = []
        ∧ t.dev.ntq.input = s.dev.ntq.input ++ l ++ [⟨.alert, idDCT, 0x012, word ((s.dev.time - since') / ms 1), s.dev.time⟩,
            ⟨.event, idDCT, 0x010, 0x60#32, s.dev.time⟩]
        ∧ s.Keeps t fun a => a / 0x1_0000 = 1 ∨ a / 0x1_0000 = 4 ∨ (0x10 ≤ a / 0x1_0000 ∧ a / 0x1_0000 < 0x20)
          ∨ 0x50_0000 ≤ a)
    ∧ ∀ (r : Requester) (v : Word), s.dev.Admits r DCT_DRAIN_LIMIT.addr → s.dev.actMode ≠ 6 → v.toNat < 2 ^ 20 →
      (1 ≤ v.toNat ∧ v.toNat ≤ 600000 →
        ∃ t, exec (.drainLimitWrite r v 15#4) s = .next t ∧ t.dev.get DCT_DRAIN_LIMIT.LIMIT = v.toNat
          ∧ s.Keeps t (· = DCT_DRAIN_LIMIT.addr))
      ∧ (v.toNat = 0 ∨ 600000 < v.toNat → s.dev.get DCT_DRAIN_LIMIT.LIMIT ≠ v.toNat →
        ∃ t, exec (.drainLimitWrite r v 15#4) s = .next t ∧ t.dev.is DCT_FLAGS.BAD_VALUE = true ∧ s.Keeps t (· = DCT_FLAGS.addr))

/-- a write that changes DISC clears DISC_OK and starts the 4 s of the first wait; 4 s without an update, or a lost reference, keep
the trim and the offset, clear DISC_OK and push DISC_LOST; each update of the reference sets DISC_OK and the trim, where software does not
write the trim in the same cycle (R35, R59, R60, R62). -/
def Obligations.Discipline : Prop :=
  ∀ (s : State), s.Ready →
    (∀ (r : Requester) (v : BitVec 2), s.dev.Admits r CAD_TIME_CTL.addr → s.dev.get CAD_TIME_CTL.DISC ≠ v.toNat →
      ∃ t, exec (.discWrite r v) s = .next t ∧ t.dev.get CAD_TIME_CTL.DISC = v.toNat ∧ t.dev.is CAD_STAT.DISC_OK = false
        ∧ t.dev.cad = { s.dev.cad with discAt := s.dev.time, discTold := false, held := false }
        ∧ s.Keeps t fun a => a = CAD_TIME_CTL.addr ∨ a = CAD_STAT.addr)
    ∧ (s.dev.get CAD_TIME_CTL.DISC = 1 ∨ s.dev.get CAD_TIME_CTL.DISC = 2 → s.dev.cad.discTold = false →
      s.dev.cad.discAt + ms 4000 ≤ s.dev.time →
      ∃ t, exec .discTimeout s = .next t ∧ t.dev.is CAD_STAT.DISC_OK = false ∧ t.dev.is CAD_FLAGS.DISC_LOST = true
        ∧ t.dev.ntq.input = s.dev.ntq.input ++ [⟨.alert, idCAD, 0x014, word (s.dev.get CAD_TIME_CTL.DISC), s.dev.time⟩]
        ∧ s.Keeps t fun a => a = CAD_STAT.addr ∨ a = CAD_FLAGS.addr)
    ∧ (s.dev.get CAD_TIME_CTL.DISC = 3 → s.dev.is CAD_STAT.DISC_OK = true →
      ∃ t, exec .ref10mLoss s = .next t ∧ t.dev.is CAD_STAT.DISC_OK = false ∧ t.dev.is CAD_FLAGS.DISC_LOST = true
        ∧ t.dev.ntq.input = s.dev.ntq.input ++ [⟨.alert, idCAD, 0x014, 3#32, s.dev.time⟩]
        ∧ s.Keeps t fun a => a = CAD_STAT.addr ∨ a = CAD_FLAGS.addr)
    ∧ ∀ v : BitVec 32, s.dev.get CAD_TIME_CTL.DISC = 3 → v.toInt.natAbs ≤ 219902326 → s.dev.softWrote CAD_TRIM.RATE = false →
      ∃ t, exec (.ref10mRestored v) s = .next t ∧ t.dev.is CAD_STAT.DISC_OK = true ∧ t.dev.reg CAD_TRIM.addr = v
        ∧ t.dev.cad.discAt = s.dev.time ∧ s.Keeps t fun a => a = CAD_STAT.addr ∨ a = CAD_TRIM.addr


/-! ### Avane lanes and port states (chapter 04) -/

/-- EN written 1 takes a port from DOWN to SEEK with its DL on; EN written 0 takes it to DOWN with its DL off and nothing waiting; EN
written as it stands changes nothing; RETRAIN takes the port to SEEK, restores the ceiling and readies a RETRAIN block, and in DOWN and
FAULT only sets BAD_STATE; QUAL starts QUALIFY from UP and DEGRADED with the counts at 0, and elsewhere only sets BAD_STATE; BITSLIP moves
a lane's boundary in SLIP with SLIP_MODE 1 and otherwise only sets BAD_STATE; each change of state sets STATE_CHG and pushes PORT_STATE
(R110, R115, R116, R119). -/
def Obligations.PortControl : Prop :=
  ∀ (s : State) (r : Requester) (p : Fin 16), s.Ready →
    let k := (s.dev.port p).link
    let told := fun (st : Nat) => (⟨.event, idAVP p, 0x010, word (s.dev.portState p * 16 + st), s.dev.time⟩ : Notice)
    (s.dev.Admits r (AVP_PORT_CTL.addr p) →
      (∀ c, (s.dev.is (AVP_PORT_CTL.EN p) = true ∧ c = .portEnable r p) ∨ (s.dev.is (AVP_PORT_CTL.EN p) = false ∧ c = .portDisable r p) →
        ∃ t, exec c s = .next t ∧ t.dev.port p = s.dev.port p ∧ t.dev.ntq = s.dev.ntq ∧ s.Keeps t fun _ => False)
      ∧ (s.dev.is (AVP_PORT_CTL.EN p) = false → s.dev.portState p = 0 →
        ∃ t, exec (.portEnable r p) s = .next t ∧ t.dev.is (AVP_PORT_CTL.EN p) = true ∧ t.dev.portState p = 1
          ∧ (t.dev.port p).link.running = true ∧ (t.dev.port p).link.hold = none ∧ (t.dev.port p).link.attempt = none
          ∧ t.dev.is (AVP_FLAGS.STATE_CHG p) = true ∧ t.dev.ntq.input = s.dev.ntq.input ++ [told 1]
          ∧ s.Keeps t fun a => a = AVP_PORT_CTL.addr p ∨ a = AVP_PORT_STAT.addr p ∨ a = AVP_FLAGS.addr p
            ∨ ∃ l : Fin 4, a = AVP_LANE_STAT.addr p l)
      ∧ (s.dev.is (AVP_PORT_CTL.EN p) = true → s.dev.portState p ≠ 0 →
        ∃ t l, exec (.portDisable r p) s = .next t ∧ t.dev.is (AVP_PORT_CTL.EN p) = false ∧ t.dev.portState p = 0
          ∧ (t.dev.port p).link.running = false ∧ (t.dev.port p).link.attempt = none ∧ (t.dev.port p).link.blocks = []
          ∧ (t.dev.port p).link.hold = none ∧ (t.dev.port p).link.degrade = none ∧ t.dev.is (AVP_QUAL_STAT.RUN p) = false
          ∧ t.dev.is (AVP_FLAGS.STATE_CHG p) = true ∧ t.dev.ntq.input = s.dev.ntq.input ++ told 0 :: l ∧ (s.dev.portUp p = false → l = [])
          ∧ s.Keeps t fun a => a / 0x1_0000 = 0x10 + p.val)
      ∧ (s.dev.portState p ≠ 0 → s.dev.portState p ≠ 8 →
        ∃ t l, exec (.portRetrain r p) s = .next t ∧ t.dev.portState p = 1 ∧ t.dev.get (AVP_PORT_STAT.CEILING p) = 3
          ∧ .retrain ∈ (t.dev.port p).link.blocks ∧ (t.dev.port p).link.attempt = none ∧ (t.dev.port p).link.hold = none
          ∧ t.dev.get (AVP_ATTEMPT.FAILS p) = s.dev.get (AVP_ATTEMPT.FAILS p)
          ∧ t.dev.ntq.input = s.dev.ntq.input ++ (if s.dev.portState p = 1 then [] else told 1 :: l)
          ∧ (s.dev.portState p ≠ 1 → t.dev.is (AVP_FLAGS.STATE_CHG p) = true) ∧ (s.dev.portUp p = false → l = [])
          ∧ s.Keeps t fun a => a / 0x1_0000 = 0x10 + p.val)
      ∧ (s.dev.portState p = 0 ∨ s.dev.portState p = 8 →
        ∃ t, exec (.portRetrain r p) s = .next t ∧ t.dev.is (AVP_FLAGS.BAD_STATE p) = true ∧ t.dev.port p = s.dev.port p
          ∧ s.Keeps t (· = AVP_FLAGS.addr p))
      ∧ (s.dev.portState p = 5 ∨ s.dev.portState p = 7 →
        ∃ t l, exec (.qualifyStart r p) s = .next t ∧ t.dev.portState p = 6 ∧ t.dev.is (AVP_QUAL_STAT.RUN p) = true
          ∧ t.dev.get (AVP_QUAL_STAT.SYNC p) = 0
          ∧ (∀ l : Fin 4, t.dev.get64 (AVP_QUAL_ERR.addr p l) = 0 ∧ t.dev.get64 (AVP_QUAL_BITS.addr p l) = 0)
          ∧ .qualStart (s.dev.get (AVP_QUAL_CTL.PATTERN p)) (s.dev.get (AVP_QUAL_CTL.DUR p)) ∈ (t.dev.port p).link.blocks
          ∧ t.dev.is (AVP_FLAGS.STATE_CHG p) = true ∧ t.dev.ntq.input = s.dev.ntq.input ++ told 6 :: l
          ∧ s.Keeps t fun a => a / 0x1_0000 = 0x10 + p.val)
      ∧ (s.dev.portUp p = false →
        ∃ t, exec (.qualifyStart r p) s = .next t ∧ t.dev.is (AVP_FLAGS.BAD_STATE p) = true ∧ t.dev.port p = s.dev.port p
          ∧ s.Keeps t (· = AVP_FLAGS.addr p)))
    ∧ ∀ l : Fin 4, s.dev.Admits r (AVP_LANE_CTL.addr p l) →
      (s.dev.portState p = 2 → s.dev.is (AVP_PORT_CTL.SLIP_MODE p) = true →
        ∃ t, exec (.bitslip r p l) s = .next t ∧ t.dev.is (AVP_LANE_STAT.LOCK p l) = false
          ∧ (t.dev.port p).link = { k with boundary := Tab.upd (fun _ => 0) k.boundary l fun b => (b + 1) % 66 }
          ∧ s.Keeps t (· = AVP_LANE_STAT.addr p l))
      ∧ (s.dev.portState p ≠ 2 ∨ s.dev.is (AVP_PORT_CTL.SLIP_MODE p) = false →
        ∃ t, exec (.bitslip r p l) s = .next t ∧ t.dev.is (AVP_FLAGS.BAD_STATE p) = true ∧ t.dev.port p = s.dev.port p
          ∧ s.Keeps t (· = AVP_FLAGS.addr p))

/-- from SEEK, 10 us after the last hold, a stable ULC begins an attempt in SLIP with every tracker at code 32; SLIP ends in DESKEW when
every lane with signal is locked; DESKEW ends in NEGOTIATE with the four aligned lanes' skews recorded and CAPS offered; an answer at the
rate in force with all lanes is answered with the result and brings the port to UP (R98, R110-R113, R116, R132). -/
def Obligations.PortBringUp : Prop :=
  ∀ (s : State) (p : Fin 16), s.Ready →
    let from' := (s.dev.port p).link.seekFrom
    (∀ signal : BitVec 4, s.dev.portState p = 1 → (s.dev.port p).link.hold = none → from' = 0 ∨ from' + us 10 ≤ s.dev.time →
      ∃ t, exec (.ulcStable p signal) s = .next t ∧ t.dev.portState p = 2 ∧ t.dev.get (AVP_PORT_STAT.RATE p) = 0
        ∧ t.dev.get64 (AVP_ATTEMPT_CNT.addr p) = (s.dev.get64 (AVP_ATTEMPT_CNT.addr p) + 1) % 2 ^ 64
        ∧ (t.dev.port p).link.attempt = some s.dev.time
        ∧ (∀ l : Fin 4, t.dev.is (AVP_LANE_STAT.SIGNAL p l) = signal.getLsbD l ∧ t.dev.is (AVP_LANE_STAT.LOCK p l) = false
          ∧ t.dev.is (AVP_LANE_STAT.EXCLUDED p l) = !signal.getLsbD l
          ∧ t.dev.get (AVP_LANE_STAT.PI_NOW p l)
            = if s.dev.is (AVP_LANE_CTL.PI_MAN p l) = true then s.dev.get (AVP_LANE_CTL.PI_CODE p l) else 32)
        ∧ t.dev.ntq.input = s.dev.ntq.input ++ [⟨.event, idAVP p, 0x010, 0x12#32, s.dev.time⟩]
        ∧ s.Keeps t fun a => a / 0x1_0000 = 0x10 + p.val)
    ∧ (s.dev.portState p = 2 → (∀ l : Fin 4, s.dev.is (AVP_LANE_STAT.EXCLUDED p l) = false ∧ s.dev.is (AVP_LANE_STAT.LOCK p l) = true) →
      ∃ t, exec (.slipEnd p) s = .next t ∧ t.dev.portState p = 3 ∧ (t.dev.port p).link.deskewAt = s.dev.time
        ∧ (t.dev.port p).link.markers = [] ∧ t.dev.ntq.input = s.dev.ntq.input ++ [⟨.event, idAVP p, 0x010, 0x23#32, s.dev.time⟩] ∧ s.Keeps t fun a => a = AVP_PORT_STAT.addr p ∨ a = AVP_FLAGS.addr p)
    ∧ (∀ (q : BitVec 16) (x : Fin 4 → Nat), s.dev.portState p = 3 → (s.dev.port p).link.kind = .fresh →
      (∀ l : Fin 4, s.dev.is (AVP_LANE_STAT.EXCLUDED p l) = false ∧ s.dev.is (AVP_LANE_STAT.LOCK p l) = true) →
      (s.dev.port p).link.markers = [(0, ⟨q.toNat, x 0⟩), (1, ⟨q.toNat, x 1⟩), (2, ⟨q.toNat, x 2⟩), (3, ⟨q.toNat, x 3⟩)] →
      (∀ l, x 0 ≤ x l ∧ x l ≤ x 0 + 64) →
      ∃ t, exec (.deskewEnd p) s = .next t ∧ t.dev.portState p = 4 ∧ t.dev.get (AVP_PORT_STAT.MASK p) = 15
        ∧ t.dev.get (AVP_PORT_STAT.LANES p) = 4 ∧ (∀ l : Fin 4, t.dev.is (AVP_LANE_STAT.ALIGNED p l) = true
          ∧ t.dev.get (AVP_LANE_STAT.SKEW p l) = x l - x 0)
        ∧ (t.dev.port p).pk.ready = Dev.insertTx ⟨0x87, 0, s.dev.capsBody p none⟩ (s.dev.port p).pk.ready
        ∧ (t.dev.port p).link.offers = 1 ∧ (t.dev.port p).link.offerAt = s.dev.time
        ∧ s.Keeps t fun a => a / 0x1_0000 = 0x10 + p.val)
    ∧ ∀ pkt : RxPacket, s.dev.portState p = 4 → (s.dev.port p).link.kind = .fresh → (s.dev.port p).link.degrade = none →
      pkt.verdict 0x07 (· = 36) (Dev.capsOk pkt.body) = .taken →
      bit (field pkt.body 0 1) 1 = true → s.dev.get (AVP_PORT_CFG.VER_MAX p) = 2 → field pkt.body 1 1 = 4 →
      s.dev.get (AVP_PORT_CFG.LANES_MAX p) = 2 → s.dev.get (AVP_PORT_STAT.MASK p) = 15 →
      Nat.min (Nat.min (field pkt.body 2 1) (s.dev.get (AVP_PORT_CFG.RATE_MAX p))) (s.dev.get (AVP_PORT_STAT.CEILING p))
        = s.dev.get (AVP_PORT_STAT.RATE p) →
      ∃ t, exec (.capsReceive p pkt) s = .next t ∧ t.dev.portState p = 5 ∧ t.dev.get (AVP_PORT_STAT.VERSION p) = 2
        ∧ t.dev.get (AVP_PORT_STAT.LANES p) = 4 ∧ t.dev.get (AVP_PORT_STAT.MASK p) = 15 ∧ t.dev.get (AVP_ATTEMPT.FAILS p) = 0
        ∧ (∀ i : Fin 6, t.dev.reg (AVP_CAM_CAPS.addr p i) = word (field pkt.body (4 * i) 4))
        ∧ (t.dev.port p).link.attempt = none
        ∧ ((s.dev.port p).pk.ready = [] → t.dev.out = s.dev.out ++ [.packet p (mkPacket 0x87 (s.dev.port p).pk.txSeq 0
          (s.dev.capsBody p (some (2, 4, s.dev.get (AVP_PORT_STAT.RATE p)))))])
        ∧ s.Keeps t fun a => a / 0x1_0000 = 0x10 + p.val

/-- what ends or delays an attempt: an unanswered offer is made ready again until there have been four, and the 50 us after the fourth
fail it with reason 3; 5 ms fail it with reason 6; a loss of ULC with reason 7, and the ceiling is restored by such a loss in every state; a
degrade whose extra ALIGN stays out for 20 us counts as one failed with reason 2; a failed attempt returns to SEEK, readies RETRAIN and
holds; a loss of ULC in UP and DEGRADED, and in QUALIFY as the model reads it (log entry 23), returns the port to SEEK with a hold; the hold
ends; a ULC at a wrong rate is flagged; a lasting fault takes the port to FAULT and is logged, but for that of a PLL, which is logged as
LPH's (R113, R114, R116, R122, R132, R417). -/
def Obligations.PortFailures : Prop :=
  ∀ (s : State) (p : Fin 16), s.Ready →
    let k := (s.dev.port p).link
    let fails := k.fails + 1
    let failed := fun (c : Instr) (reason at' : Nat) => ∃ t, exec c s = .next t ∧ t.dev.portState p = 1
      ∧ t.dev.get (AVP_ATTEMPT.FAILS p) = Nat.min 0xFFFF fails ∧ (t.dev.port p).link.fails = fails ∧ t.dev.get (AVP_ATTEMPT.LAST_REASON p) = reason
      ∧ .retrain ∈ (t.dev.port p).link.blocks ∧ (t.dev.port p).link.attempt = none
      ∧ (t.dev.port p).link.hold = some (at' + if 100 ≤ fails then ms 1000 else ms 10)
      ∧ s.Keeps t fun a => a / 0x1_0000 = 0x10 + p.val
    (s.dev.portState p = 4 → k.offerAt + us 50 ≤ s.dev.time → k.offers < 4 →
      ∃ t, exec (.capsOfferTimeout p) s = .next t
        ∧ (t.dev.port p).pk.ready = Dev.insertTx ⟨0x87, 0, s.dev.capsBody p none⟩ (s.dev.port p).pk.ready
        ∧ (t.dev.port p).link = { k with offers := k.offers + 1, offerAt := s.dev.time } ∧ s.Keeps t fun _ => False)
    ∧ (s.dev.portState p = 4 → k.offerAt + us 50 ≤ s.dev.time → 4 ≤ k.offers → failed (.capsOfferTimeout p) 3 (s.dev.attemptAt p))
    ∧ (∀ at', 2 ≤ s.dev.portState p → s.dev.portState p ≤ 4 → k.attempt = some at' → at' + ms 5 ≤ s.dev.time →
      failed (.attemptTimeout p) 6 at')
    ∧ (∀ mask n at' seen, s.dev.portUp p = true → k.degrade = some ⟨mask, n, some at', seen⟩ → at' + us 20 ≤ s.dev.time →
      failed (.degradeAlignTimeout p) 2 at')
    ∧ (2 ≤ s.dev.portState p → s.dev.portState p ≤ 4 → failed (.ulcLost p) 7 (s.dev.attemptAt p))
    ∧ (∃ t, exec (.ulcLost p) s = .next t ∧ t.dev.get (AVP_PORT_STAT.CEILING p) = 3
      ∧ (s.dev.portState p < 2 ∨ 7 < s.dev.portState p → t.dev.port p = s.dev.port p ∧ t.dev.portState p = s.dev.portState p
        ∧ s.Keeps t (· = AVP_PORT_STAT.addr p)))
    ∧ (5 ≤ s.dev.portState p → s.dev.portState p ≤ 7 →
      ∃ t, exec (.ulcLost p) s = .next t ∧ t.dev.portState p = 1 ∧ t.dev.get (AVP_PORT_STAT.CEILING p) = 3
        ∧ (t.dev.port p).link.hold = some (s.dev.time + ms 10)
        ∧ t.dev.get (AVP_ATTEMPT.FAILS p) = s.dev.get (AVP_ATTEMPT.FAILS p) ∧ s.Keeps t fun a => a / 0x1_0000 = 0x10 + p.val)
    ∧ (∀ at', k.hold = some at' → at' ≤ s.dev.time →
      ∃ t, exec (.seekHoldEnd p) s = .next t ∧ (t.dev.port p).link = { k with hold := none, seekFrom := at' } ∧ s.Keeps t fun _ => False)
    ∧ (s.dev.portState p = 1 → k.hold = none →
      ∃ t, exec (.ulcWrongRate p) s = .next t ∧ t.dev.is (AVP_FLAGS.ULC_RATE_BAD p) = true ∧ t.dev.portState p = 1
        ∧ s.Keeps t (· = AVP_FLAGS.addr p))
    ∧ ∀ cause, s.dev.portState p ≠ 0 → s.dev.portState p ≠ 8 →
      ∃ t l, exec (.portLogicFault p cause) s = .next t ∧ t.dev.portState p = 8 ∧ (t.dev.port p).link.running = false
        ∧ (∃ arg, t.dev.ntq.input = s.dev.ntq.input ++ l ++ ⟨.fault, idAVP p, 0x016, word cause, s.dev.time⟩
          :: (if cause = 2 then [] else [⟨.info, idMGT, 0x020, arg, s.dev.time⟩]))
        ∧ s.Keeps t fun a => a / 0x1_0000 = 0x10 + p.val

/-- lanes: signal, lock, header errors, ALIGN markers and reserved blocks are recorded and counted; a header error counts as a transient of
the port when it comes, which is the model's reading (log entry 83); a lane that loses lock while
three others hold it is removed, and the port goes on with the first two of them in DEGRADED; the pattern's end records every lane's
counts and starts the return attempt in SLIP; the waiting control block leaves the port; a PLL that loses lock reads unlocked, and
one that relocks reads locked, with the other PLLs as they were; an adaptation step moves the peaking by one inside PEAK - 2 to PEAK
+ 2 (R101, R105, R107-R111, R120, R121, R124). -/
def Obligations.PortLanesAndPlls : Prop :=
  (∀ (s : State) (p : Fin 16) (l : Fin 4), s.Ready →
    let k := (s.dev.port p).link
    (∃ t, exec (.laneSignalLoss p l) s = .next t ∧ t.dev.is (AVP_LANE_STAT.SIGNAL p l) = false
      ∧ (2 ≤ s.dev.portState p → s.dev.portState p ≤ 4 → t.dev.is (AVP_LANE_STAT.EXCLUDED p l) = true)
      ∧ s.Keeps t (· = AVP_LANE_STAT.addr p l))
    ∧ (2 ≤ s.dev.portState p → s.dev.portState p ≤ 7 → s.dev.portState p ≠ 6 →
      ∃ t, exec (.blockLockGained p l) s = .next t ∧ t.dev.is (AVP_LANE_STAT.LOCK p l) = true ∧ s.Keeps t (· = AVP_LANE_STAT.addr p l))
    ∧ (s.dev.is (AVP_LANE_STAT.LOCK p l) = true → s.dev.portState p ≠ 6 →
      (∃ t, exec (.headerError p l) s = .next t
        ∧ t.dev.get64 (AVP_HDR_ERR_CNT.addr p l) = (s.dev.get64 (AVP_HDR_ERR_CNT.addr p l) + 1) % 2 ^ 64
        ∧ Tab.get (fun _ => 0) t.dev.mgt.transients (idAVP p) = Tab.get (fun _ => 0) s.dev.mgt.transients (idAVP p) + 1
        ∧ s.Keeps t fun a => a = AVP_HDR_ERR_CNT.addr p l ∨ a = AVP_HDR_ERR_CNT.addr p l + 4)
      ∧ (s.dev.portUp p = false →
        ∃ t, exec (.blockLockLost p l) s = .next t ∧ t.dev.is (AVP_LANE_STAT.LOCK p l) = false ∧ t.dev.is (AVP_FLAGS.LOCK_LOST p) = true
          ∧ t.dev.get64 (AVP_LOCK_LOSS_CNT.addr p) = (s.dev.get64 (AVP_LOCK_LOSS_CNT.addr p) + 1) % 2 ^ 64
          ∧ s.Keeps t fun a => a = AVP_LANE_STAT.addr p l ∨ a = AVP_LOCK_LOSS_CNT.addr p ∨ a = AVP_LOCK_LOSS_CNT.addr p + 4
            ∨ a = AVP_FLAGS.addr p)
      ∧ (s.dev.portUp p = true → s.dev.get (AVP_PORT_STAT.MASK p) = 15 → (∀ j : Fin 4, s.dev.is (AVP_LANE_STAT.LOCK p j) = true) →
        ∃ t, exec (.blockLockLost p l) s = .next t ∧ t.dev.portState p = 7 ∧ t.dev.get (AVP_PORT_STAT.LANES p) = 2
          ∧ t.dev.get (AVP_PORT_STAT.MASK p) = (if l.val = 0 then 0b0110 else if l.val = 1 then 0b0101 else 0b0011)
          ∧ t.dev.is (AVP_FLAGS.DEGRADED p) = true
          ∧ .degrade (t.dev.get (AVP_PORT_STAT.MASK p)) 2 ∈ (t.dev.port p).link.blocks
          ∧ t.dev.get64 (AVP_DEGRADE_CNT.addr p) = (s.dev.get64 (AVP_DEGRADE_CNT.addr p) + 1) % 2 ^ 64
          ∧ s.Keeps t fun a => a / 0x1_0000 = 0x10 + p.val))
    ∧ (∃ t, exec (.reservedControlBlock p) s = .next t ∧ t.dev.is (AVP_FLAGS.CTRL_BAD p) = true
      ∧ t.dev.get64 (AVP_CTRL_BAD_CNT.addr p) = (s.dev.get64 (AVP_CTRL_BAD_CNT.addr p) + 1) % 2 ^ 64
      ∧ s.Keeps t fun a => a = AVP_CTRL_BAD_CNT.addr p ∨ a = AVP_CTRL_BAD_CNT.addr p + 4 ∨ a = AVP_FLAGS.addr p)
    ∧ (∀ (w : BitVec 64) (slot : Nat), slice w.toNat 16 4 = 4 → slice w.toNat 48 16 = 0xA5C3 → s.dev.portState p = 3 →
      s.dev.is (AVP_LANE_STAT.LOCK p l) = true →
      ∃ t, exec (.alignReceive p l w slot (BitVec.ofNat 8 (slice w.toNat 40 8))) s = .next t
        ∧ (t.dev.port p).link = { k with markers := (l.val, ⟨slice w.toNat 24 16, slot⟩) :: k.markers.filter (·.1 != l.val) }
        ∧ s.Keeps t fun _ => False)
    ∧ (∀ q : Fin 4 → QualLane, s.dev.portState p = 6 → s.dev.get (AVP_PORT_STAT.MASK p) = 15 →
      (∀ j, 2 ^ k.qualDur - 64 ≤ (q j).bits ∧ (q j).bits < 2 ^ 48 ∧ (q j).errors < 2 ^ 48
        ∧ s.dev.get64 (AVP_QUAL_BITS.addr p j) ≤ (q j).bits ∧ s.dev.get64 (AVP_QUAL_ERR.addr p j) ≤ (q j).errors) →
      ∃ t l, exec (.qualifyEnd p (q 0) (q 1) (q 2) (q 3)) s = .next t ∧ t.dev.portState p = 2
        ∧ t.dev.is (AVP_QUAL_STAT.RUN p) = false ∧ t.dev.is (AVP_FLAGS.QUAL_DONE p) = true
        ∧ (∀ j : Fin 4, t.dev.get64 (AVP_QUAL_BITS.addr p j) = (q j).bits ∧ t.dev.get64 (AVP_QUAL_ERR.addr p j) = (q j).errors)
        ∧ (t.dev.port p).link.kind = .qualifyReturn
        ∧ t.dev.ntq.input = s.dev.ntq.input ++ [⟨.event, idAVP p, 0x013, l, s.dev.time⟩, ⟨.event, idAVP p, 0x010, 0x62#32, s.dev.time⟩]
        ∧ s.Keeps t fun a => a / 0x1_0000 = 0x10 + p.val)
    ∧ ∀ b, k.blocks = [b] → k.running = true → k.urgents = [] →
      ∃ t, exec (.downlinkControlSend p) s = .next t ∧ t.dev.out = s.dev.out ++ [.block p (Dev.blockBytes b)]
        ∧ (t.dev.port p).link.blocks = [] ∧ s.Keeps t fun _ => False)
  ∧ ∀ (s : State), s.Ready →
    (∀ pll : Fin 5,
      (s.dev.pllLocked pll = true →
        ∃ t, exec (.pllLockLoss pll) s = .next t ∧ (∀ j : Fin 5, t.dev.pllLocked j = (s.dev.pllLocked j && !decide (j = pll)))
          ∧ s.Keeps t (· = LPH_PLL_STAT.addr))
      ∧ (s.dev.pllLocked pll = false →
        ∃ t, exec (.pllRelockDone pll true) s = .next t ∧ (∀ j : Fin 5, t.dev.pllLocked j = (s.dev.pllLocked j || decide (j = pll)))
          ∧ s.Keeps t (· = LPH_PLL_STAT.addr)))
    ∧ ∀ (p : Fin 16) (l : Fin 4) (run : Nat), s.dev.is (AVP_LANE_CTL.ADAPT p l) = true → s.dev.is (LPH_EQ_OVR.EN p) = false → run ≤ 4096 →
      let c := s.dev.get (AVP_LANE_CTL.PEAK p l)
      let now := s.dev.get (AVP_LANE_STAT.PEAK_NOW p l)
      (∃ t, exec (.equaliserAdapt p l true run) s = .next t
        ∧ t.dev.get (AVP_LANE_STAT.PEAK_NOW p l) = Nat.min (Nat.min 31 (c + 2)) (now + 1) ∧ s.Keeps t (· = AVP_LANE_STAT.addr p l))
      ∧ ∃ t, exec (.equaliserAdapt p l false run) s = .next t
        ∧ t.dev.get (AVP_LANE_STAT.PEAK_NOW p l) = Nat.max (c - 2) (now - 1) ∧ s.Keeps t (· = AVP_LANE_STAT.addr p l)


/-! ### Avane packets, credits, time and triggers (chapter 05) -/

/-- a FRAME_START that matches a command opens its band and, on a port of its own, a frame record with the command's tick and
time; a LINE_DATA in order enters the line buffer; a FRAME_END that matches the band closes it without CRC_BAD and gives the entry its
FRAME_NO; a silent band closes TRUNCATED and CRC_BAD, and so does a gang band that never began. The G/j byte and FIRST_LINE of a FRAME_START
are not tested, which is the model's choice (log entry 96) (R134, R136, R139, R217, R225, R375, R465). -/
def Obligations.FrameReceive : Prop :=
  ∀ (s : State) (p : Fin 16) (pkt : RxPacket), s.Ready →
    let k := (s.dev.port p).pk
    let settled := s.dev.portUp p = true ∧ (s.dev.port p).link.degrade = none ∧ k.held = []
    (∀ cmd, settled → pkt.verdict 0x01 (· = 36) (field pkt.body 16 1 ≤ 4) = .taken → k.band = none → s.dev.clr.frames = [] →
      s.dev.headOf p = p → s.dev.gangSize p = 1 → s.dev.gangMismatch p = false → s.dev.forceGet (AVP_GEOM_W.WIDTH p) = 0 →
      s.dev.forceGet (AVP_GEOM_H.HEIGHT p) = 0 → s.dev.forceGet (AVP_GEOM_W.FORMAT p) = field pkt.body 16 1 →
      k.closed.contains (field pkt.body 20 1, field pkt.body 8 4) = false →
      k.sent.find? (fun c => c.source = field pkt.body 20 1 && c.id = field pkt.body 8 4) = some cmd →
      s.dev.idleColumn p cmd.tick = false →
      ∃ t b f, exec (.frameStartReceive p pkt) s = .next t ∧ (t.dev.port p).pk.band = some b ∧ t.dev.clr.frames = [f]
        ∧ b.frame = some f.id ∧ b.frameNo = field pkt.body 0 8 ∧ b.lines = field pkt.body 14 2 ∧ b.next = 0
        ∧ f.head = p ∧ f.frameNo = field pkt.body 0 8 ∧ f.expose = cmd.expose ∧ f.tick = cmd.tick ∧ f.waiting = []
        ∧ t.dev.evr.input = s.dev.evr.input ++ [s.dev.sourceEvent (0x80 + p.val) 0]
        ∧ s.Keeps t fun a => a / 0x1_0000 = 0x10 + p.val ∨ a = CLR_STAT.addr)
    ∧ (∀ b, settled → k.band = some b → b.frameNo % 2 ^ 16 = slice pkt.tag 16 16 →
      pkt.verdict 0x02 (· = 12 + lineBytes b.width b.format) true = .taken → slice pkt.tag 0 16 = b.next → b.next < b.first + b.lines →
      0 < signed 32 (s.dev.get (AVP_CREDIT_LIMIT.LIMIT p) + 2 ^ 32 - k.rxLines % 2 ^ 32) →
      s.dev.bufferUsed p + (pkt.body.length + 31) / 32 * 32 ≤ 65536 →
      ∃ t, exec (.lineDataReceive p pkt) s = .next t
        ∧ (t.dev.port p).pk.buffer = k.buffer ++ [⟨b.frame, b.next, pkt.body, 0, false, true, false⟩]
        ∧ (t.dev.port p).pk.band = some { b with
            next := b.next + 1, crc := crc32cRun b.crc pkt.body, counted := b.counted + 1, lastAt := s.dev.time }
        ∧ s.Keeps t fun a => a = AVP_SEQ_GAP_CNT.addr p ∨ a = AVP_SEQ_GAP_CNT.addr p + 4)
    ∧ (∀ b id, settled → k.band = some b → b.frame = some id → b.frameNo % 2 ^ 16 = field pkt.body 0 8 % 2 ^ 16 →
      pkt.verdict 0x03 (· = 28) true = .taken → field pkt.body 12 2 = b.lines → b.next = b.first + b.lines → field pkt.body 14 1 = 0 →
      field pkt.body 8 4 = (b.crc ^^^ 0xFFFFFFFF#32).toNat → b.crcBad = false → b.dropped = false →
      ∃ t, exec (.frameEndReceive p pkt) s = .next t ∧ (t.dev.port p).pk.band = none ∧ (t.dev.port p).pk.buffer = k.buffer
        ∧ t.dev.get64 (AVP_FRAME_CNT.addr p) = (s.dev.get64 (AVP_FRAME_CNT.addr p) + 1) % 2 ^ 64
        ∧ t.dev.clr.frames = s.dev.clr.frames.map (fun r => if r.id = id then { r with
            parts := r.parts ++ [⟨p, field pkt.body 0 8, b.expose, b.tick, 0, false⟩], waiting := r.waiting.filter (· != p.val) } else r)
        ∧ s.Keeps t fun a => a / 0x1_0000 = 0x10 + p.val)
    ∧ (∀ b id, k.band = some b → b.frame = some id → b.lastAt + s.dev.frameTmo p ≤ s.dev.time →
      ∃ t, exec (.frameTimeout p) s = .next t ∧ (t.dev.port p).pk.band = none
        ∧ (∀ r ∈ t.dev.clr.frames, r.id = id → bit r.flags 0 = true ∧ bit r.flags 1 = true)
        ∧ (t.dev.port p).pk.buffer = k.buffer ++ Dev.missingLines (some id) b.next (b.first + b.lines)
        ∧ s.Keeps t fun a => a / 0x1_0000 = 0x10 + p.val)
    ∧ ∀ r, s.dev.clr.frames = [r] → r.waiting.contains p.val = true → r.openedAt + s.dev.frameTmo r.head ≤ s.dev.time →
      ∃ t f, exec (.gangBandTimeout p) s = .next t ∧ t.dev.clr.frames = [f] ∧ f.waiting.contains p.val = false
        ∧ bit f.flags 0 = true ∧ bit f.flags 1 = true ∧ s.Keeps t fun _ => False

/-- a line that has left the line buffer counts as consumed; a CREDIT due is made ready with LIMIT as it stands; a beat of a buffered line of an
  open frame that the tick window and the tellers' slots allow brings 32 more of its bytes to the column; the last beat of a line, of a frame or of
  none, frees its space. What work closes the tick window is the model's reading (log entry 26) (R137-R139, R168). -/
def Obligations.LineCredits : Prop :=
  ∀ (s : State) (p : Fin 16), s.Ready →
    let k := (s.dev.port p).pk
    (0 < k.freed →
      ∃ t, exec (.lineConsumed p) s = .next t ∧ (t.dev.port p).pk.freed = k.freed - 1
        ∧ t.dev.get (AVP_CREDIT_USED.USED p) = (s.dev.get (AVP_CREDIT_USED.USED p) + 1) % 2 ^ 32
        ∧ s.Keeps t (· = AVP_CREDIT_USED.addr p))
    ∧ (s.dev.portUp p = true → k.creditAt + us 100 ≤ s.dev.time →
      ∃ t, exec (.creditSend p) s = .next t ∧ t.dev.get (AVP_CREDIT_LIMIT.LIMIT p) = s.dev.limitNow p
        ∧ (t.dev.port p).pk.ready = Dev.insertTx ⟨0x84, s.dev.limitNow p,
            le 1 (s.dev.get (AVP_CREDIT_STAT.EPOCH p)) ++ le 1 (s.dev.capacity p) ++ le 2 0⟩ k.ready
        ∧ t.dev.get (AVP_CREDIT_STAT.CAPACITY p) = s.dev.capacity p
        ∧ (t.dev.port p).pk.creditAt = s.dev.time
        ∧ s.Keeps t fun a => a = AVP_CREDIT_LIMIT.addr p ∨ a = AVP_CREDIT_STAT.addr p)
    ∧ (∀ l rest id f, k.buffer = l :: rest → l.frame = some id → (s.dev.column p).frames.find? (·.frame = id) = some f →
      (∀ r ∈ s.dev.clr.frames, r.id = id → r.fed = none) → s.dev.windowHeld 2 f.tick = false →
      (0 < l.gone ∨ s.dev.slotsFree id l.line = true) →
      let last := decide (l.data.length ≤ l.gone + 32)
      ∃ t, exec (.lineBroadcast p) s = .next t
        ∧ (t.dev.column p).frames = (s.dev.column p).frames.map (fun g => if g.frame = id then { g with
            delivered := g.delivered.filter (·.line != l.line) ++ [⟨l.line, l.data.take (l.gone + 32), last, l.missing⟩] } else g)
        ∧ (t.dev.port p).pk.buffer = (if last = true then rest else { l with gone := l.gone + 32 } :: rest)
        ∧ (t.dev.port p).pk.freed = k.freed + (if last = true then ofBool l.credit else 0) ∧ s.Keeps t fun _ => False)
    ∧ ∀ l rest, k.buffer = l :: rest → l.frame = none → l.data.length ≤ l.gone + 32 →
      ∃ t, exec (.lineBroadcast p) s = .next t ∧ (t.dev.port p).pk.buffer = rest
        ∧ (t.dev.port p).pk.freed = k.freed + ofBool l.credit ∧ s.Keeps t fun _ => False

/-- the first STATUS of an epoch is copied and sets the baseline of DROPS; 100 ms without STATUS are pushed once; GO readies a COMMAND
under the next CMD_ID, with its address and, in a write, its words; its RESPONSE ends it, and that of a read with RESULT 0 fills the
buffer with the COUNT it carries, not held against the COMMAND's, which is the model's choice (log entry 97); a first timeout readies it
again on a gang head and counts, a second ends it with RESULT 5 and pushes CMD_TIMEOUT (R140-R143). -/
def Obligations.StatusAndCommands : Prop :=
  ∀ (s : State) (p : Fin 16), s.Ready →
    let k := (s.dev.port p).pk
    (∀ pkt : RxPacket, s.dev.portUp p = true → (s.dev.port p).link.degrade = none → pkt.verdict 0x04 (· = 32) true = .taken →
      k.drops = none →
      ∃ t, exec (.statusReceive p pkt) s = .next t ∧ (∀ i : Fin 5, t.dev.reg (AVP_CAM_STATUS.addr p i) = word (field pkt.body (4 * i) 4))
        ∧ (t.dev.port p).pk.drops = some (field pkt.body 0 4) ∧ (t.dev.port p).pk.dropsDelivered = field pkt.body 0 4
        ∧ (t.dev.port p).pk.statusAt = s.dev.time
        ∧ s.Keeps t fun a => a = AVP_SEQ_GAP_CNT.addr p ∨ a = AVP_SEQ_GAP_CNT.addr p + 4 ∨ a = AVP_PFLAGS.addr p
          ∨ ∃ i : Fin 5, a = AVP_CAM_STATUS.addr p i)
    ∧ (s.dev.portUp p = true → k.statusLost = false → k.statusAt + ms 100 ≤ s.dev.time →
      ∃ t, exec (.statusLost p) s = .next t ∧ t.dev.is (AVP_PFLAGS.STATUS_LOST p) = true ∧ (t.dev.port p).pk.statusLost = true
        ∧ t.dev.ntq.input = s.dev.ntq.input ++ [⟨.alert, idAVP p, 0x029, 0#32, s.dev.time⟩] ∧ s.Keeps t (· = AVP_PFLAGS.addr p))
    ∧ (∀ r : Requester, s.dev.Admits r (AVP_CMD_CTL.addr p) → 1 ≤ s.dev.get (AVP_CMD_CTL.COUNT p) → s.dev.get (AVP_CMD_CTL.COUNT p) ≤ 128 →
      s.dev.is (AVP_CMD_STAT.BUSY p) = false → s.dev.headOf p = p → s.dev.portUp p = true → k.cmdNext < 256 →
      let wr := s.dev.is (AVP_CMD_CTL.WRITE p)
      let n := s.dev.get (AVP_CMD_CTL.COUNT p)
      ∃ t, exec (.cameraCommandGo r p) s = .next t ∧ t.dev.is (AVP_CMD_STAT.BUSY p) = true
        ∧ t.dev.get (AVP_CMD_STAT.CMD_ID p) = k.cmdNext ∧ t.dev.get (AVP_CMD_STAT.RESULT p) = 0
        ∧ (t.dev.port p).pk.cmdNext = k.cmdNext % 255 + 1
        ∧ (t.dev.port p).pk.ready = Dev.insertTx ⟨0x81, k.cmdNext + ofBool wr * 2 ^ 8 + n * 2 ^ 16,
            le 4 (s.dev.get (AVP_CMD_ADDR.ADDR p) / 4 * 4)
              ++ (if wr = true then (List.range n).flatMap fun i => le 4 (s.dev.reg (AVP_CMD_BUF.addr p i)).toNat else [])⟩ k.ready
        ∧ s.Keeps t (· = AVP_CMD_STAT.addr p))
    ∧ (∀ pkt : RxPacket, s.dev.portUp p = true → (s.dev.port p).link.degrade = none → s.dev.is (AVP_CMD_STAT.BUSY p) = true →
      slice pkt.tag 0 8 = s.dev.get (AVP_CMD_STAT.CMD_ID p) →
      (bit k.cmdTag 8 = true ∨ slice pkt.tag 8 8 ≠ 0 → pkt.verdict 0x05 (· = 16) true = .taken → slice pkt.tag 8 8 ≤ 4 →
        ∃ t, exec (.responseReceive p pkt) s = .next t ∧ t.dev.is (AVP_CMD_STAT.BUSY p) = false
          ∧ t.dev.get (AVP_CMD_STAT.RESULT p) = slice pkt.tag 8 8
          ∧ s.Keeps t fun a => a = AVP_SEQ_GAP_CNT.addr p ∨ a = AVP_SEQ_GAP_CNT.addr p + 4 ∨ a = AVP_CMD_STAT.addr p)
      ∧ (bit k.cmdTag 8 = false → slice pkt.tag 8 8 = 0 → slice pkt.tag 16 16 ≤ 128 →
        pkt.verdict 0x05 (· = 16 + 4 * slice pkt.tag 16 16) true = .taken →
        ∃ t, exec (.responseReceive p pkt) s = .next t ∧ t.dev.is (AVP_CMD_STAT.BUSY p) = false
          ∧ t.dev.get (AVP_CMD_STAT.RESULT p) = 0 ∧ t.dev.get (AVP_CMD_STAT.COUNT p) = slice pkt.tag 16 16
          ∧ (∀ i, i < slice pkt.tag 16 16 → t.dev.reg (AVP_CMD_BUF.addr p i) = word (field pkt.body (4 + 4 * i) 4))
          ∧ s.Keeps t fun a => a = AVP_SEQ_GAP_CNT.addr p ∨ a = AVP_SEQ_GAP_CNT.addr p + 4 ∨ a = AVP_CMD_STAT.addr p
            ∨ ∃ i, i < 128 ∧ a = AVP_CMD_BUF.addr p i))
    ∧ (s.dev.is (AVP_CMD_STAT.BUSY p) = true → k.cmdAt + us (100 * Nat.max 1 (s.dev.get (AVP_CMD_CTL.TMO p))) ≤ s.dev.time →
      (k.cmdRetried = false → s.dev.headOf p = p →
        ∃ t, exec (.cameraCommandTimeout p) s = .next t ∧ t.dev.is (AVP_CMD_STAT.BUSY p) = true ∧ (t.dev.port p).pk.cmdRetried = true
          ∧ (t.dev.port p).pk.cmdAt = s.dev.time
          ∧ (t.dev.port p).pk.ready = Dev.insertTx ⟨0x81, k.cmdTag, k.cmdBody⟩ k.ready
          ∧ t.dev.get64 (AVP_CMD_RETRY_CNT.addr p) = (s.dev.get64 (AVP_CMD_RETRY_CNT.addr p) + 1) % 2 ^ 64
          ∧ s.Keeps t fun a => a = AVP_CMD_RETRY_CNT.addr p ∨ a = AVP_CMD_RETRY_CNT.addr p + 4)
      ∧ (k.cmdRetried = true →
        ∃ t, exec (.cameraCommandTimeout p) s = .next t ∧ t.dev.is (AVP_CMD_STAT.BUSY p) = false
          ∧ t.dev.get (AVP_CMD_STAT.RESULT p) = 5 ∧ t.dev.is (AVP_PFLAGS.CMD_TIMEOUT p) = true ∧ t.dev.out = s.dev.out
          ∧ t.dev.ntq.input = s.dev.ntq.input ++ [⟨.alert, idAVP p, 0x024, word (s.dev.get (AVP_CMD_STAT.CMD_ID p)), s.dev.time⟩]
          ∧ s.Keeps t fun a => a = AVP_CMD_STAT.addr p ∨ a = AVP_PFLAGS.addr p))

/-- the first TIME after entry to UP is made ready at once and is remembered; the first echo of a TIME sets D to
floor((rx - tx - turn + asym + 1) / 2); URGENT waits on a ranged gang head in an exposing mode and elsewhere is only counted
and flagged; a write of FIRE or an activation while one waits counts in the task's pending counter; the waiting URGENT leaves as an URGENT block under the
next URG_ID, and its command is remembered (R145, R147, R148, R153, R154). -/
def Obligations.TimeAndUrgent : Prop :=
  ∀ (s : State) (p : Fin 16), s.Ready →
    let g := (s.dev.port p).rng
    let ready := s.dev.headOf p = p ∧ s.dev.portUp p = true ∧ s.dev.is (AVP_RANGE_STAT.RANGED p) = true ∧ s.dev.exposing = true
    (∀ frac : Byte, s.dev.portUp p = true → s.dev.headOf p = p → g.sentSinceUp = 0 → g.sent = [] →
      ∃ t, exec (.timeSend p frac) s = .next t
        ∧ (t.dev.port p).pk.ready = Dev.insertTx ⟨0x83, g.nextId, le 8 s.dev.time ++ [frac]
            ++ le 1 (ofBool (s.dev.is (AVP_RANGE_STAT.RANGED p))) ++ le 2 0 ++ le 4 (s.dev.get (AVP_RANGE_D.D p))⟩ (s.dev.port p).pk.ready
        ∧ (t.dev.port p).rng = { g with
            nextId := (g.nextId + 1) % 2 ^ 32, sentSinceUp := 1, lastAt := s.dev.time, sent := [⟨g.nextId, s.dev.time * 256 + frac.toNat⟩] }
        ∧ s.Keeps t fun _ => False)
    ∧ (∀ (pkt : RxPacket) (rx tx : Nat), s.dev.portUp p = true → (s.dev.port p).link.degrade = none → pkt.verdict 0x06 (· = 20) true = .taken → g.sent = [⟨pkt.tag, tx⟩] →
      g.held = [] → g.total = 0 → s.dev.is (AVP_RANGE_STAT.RANGED p) = false →
      let v := ((rx : Int) - tx - field pkt.body 0 4 + (s.dev.reg (AVP_RANGE_ASYM.addr p)).toInt + 1) / 2
      ∃ t, exec (.timeEchoReceive p pkt rx) s = .next t ∧ t.dev.get (AVP_RANGE_D.D p) = unsigned 32 v
        ∧ t.dev.get (AVP_RANGE_STAT.ACCEPTED p) = 1 ∧ (t.dev.port p).rng.held = [v] ∧ (t.dev.port p).rng.total = 1
        ∧ t.dev.is (AVP_RANGE_STAT.RANGED p) = false ∧ t.dev.ntq = s.dev.ntq
        ∧ s.Keeps t fun a => a = AVP_SEQ_GAP_CNT.addr p ∨ a = AVP_SEQ_GAP_CNT.addr p + 4 ∨ a = AVP_RANGE_D.addr p
          ∨ a = AVP_RANGE_STAT.addr p)
    ∧ (∀ c : Cause, (∀ r, c = .write r → s.dev.Admits r (AVP_URGENT.addr p)) → (s.dev.port p).link.urgents ≠ [] →
      (s.dev.taskPending (0x50 + p)).1 < 4 →
      ∃ t, exec (.urgentFire c p) s = .next t ∧ t.dev.port p = s.dev.port p
        ∧ t.dev.taskPending (0x50 + p) = ((s.dev.taskPending (0x50 + p)).1 + 1, (s.dev.taskPending (0x50 + p)).2)
        ∧ s.Keeps t fun _ => False)
    ∧ (∀ c : Cause, s.dev.Causes c (AVP_URGENT.addr p) (0x50 + p) → (s.dev.port p).link.urgents = [] → ready →
      ∃ t, exec (.urgentFire c p) s = .next t
        ∧ (t.dev.port p).link.urgents = [s.dev.time] ∧ s.Keeps t fun _ => False)
    ∧ (∀ c : Cause, s.dev.Causes c (AVP_URGENT.addr p) (0x50 + p) → (s.dev.port p).link.urgents = [] →
      s.dev.is (AVP_RANGE_STAT.RANGED p) = false →
      ∃ t, exec (.urgentFire c p) s = .next t ∧ t.dev.port p = s.dev.port p
        ∧ t.dev.get64 (AVP_URGENT_REFUSED_CNT.addr p) = (s.dev.get64 (AVP_URGENT_REFUSED_CNT.addr p) + 1) % 2 ^ 64
        ∧ t.dev.is (AVP_PFLAGS.URGENT_REFUSED p) = true
        ∧ s.Keeps t fun a => a = AVP_URGENT_REFUSED_CNT.addr p ∨ a = AVP_URGENT_REFUSED_CNT.addr p + 4 ∨ a = AVP_PFLAGS.addr p)
    ∧ ∀ (frac : Byte) at' rest, ready → (s.dev.port p).link.urgents = at' :: rest →
      ∃ t c, exec (.urgentSend p frac) s = .next t ∧ (t.dev.port p).link.urgents = rest
        ∧ t.dev.out = s.dev.out ++ [.block p ([0x2D#8, BitVec.ofNat 8 (s.dev.port p).pk.urgId, 1#8] ++ le 5 0)]
        ∧ (t.dev.port p).pk.urgId = ((s.dev.port p).pk.urgId + 1) % 256
        ∧ (t.dev.port p).pk.sent.getLast? = some c ∧ c.source = 1 ∧ c.id = (s.dev.port p).pk.urgId
        ∧ t.dev.get64 (AVP_URGENT_CNT.addr p) = (s.dev.get64 (AVP_URGENT_CNT.addr p) + 1) % 2 ^ 64
        ∧ s.Keeps t fun a => a = AVP_URGENT_CNT.addr p ∨ a = AVP_URGENT_CNT.addr p + 4


/-! ### The teller array and the charter (chapters 06 and 07) -/

/-- LOAD of a column that is free takes the staged image address and coefficient range, sets LOADING, clears LOADED and ARM; the
load's end writes the image's recipe and lookup table into the staged banks of every live teller and its coefficient words LO to HI - 1
into the store, sets LOADED and pushes LOAD_DONE, and a fetch
error sets LOAD_ERR and leaves LOADED; a staged set that passes the checks is armed, one without LOADED is refused with reason
1; a 0 disarms; when no teller has old work left the switch ends: OLD_BUSY and ARM clear, every live teller is in the active
bank, SWITCHED is pushed (R180-R183, R188). -/
def Obligations.CharterControl : Prop :=
  ∀ (s : State) (k : Fin 16), s.Ready →
    let q := s.dev.column k
    let one := 1#16 <<< k.val
    (∀ r : Requester, s.dev.Admits r CHT_LOAD.addr → s.dev.stagedHead k = k → s.dev.stagedGang k = [k.val] →
      s.dev.is (CHT_COL_STAT.OLD_BUSY k) = false → s.dev.is (CHT_COL_STAT.LOADING k) = false → s.dev.is CAD_APPLY.PENDING = false →
      s.dev.forceGet (CHT_ASSIGN.MODE (s.dev.headOf k)) = 0 →
      ∃ t, exec (.charterLoad r one) s = .next t ∧ t.dev.is (CHT_COL_STAT.LOADING k) = true
        ∧ t.dev.is (CHT_COL_STAT.LOADED k) = false ∧ t.dev.bitOf CHT_ARM.addr k = false
        ∧ t.dev.column k = { q with
            load := some (s.dev.get (CHT_IMG_LO.ADDR k) * 64 + s.dev.get (CHT_IMG_HI.ADDR k) * 2 ^ 32, s.dev.get (CHT_COEF.LO k),
              s.dev.get (CHT_COEF.HI k)), loadDirty := false, loadErr := 0, stagedKernel := none }
        ∧ t.dev.ntq = s.dev.ntq ∧ s.Keeps t fun a => a = CHT_COL_STAT.addr k ∨ a = CHT_ARM.addr)
    ∧ (∀ img lo hi, q.load = some (img, lo, hi) → q.loadDirty = false → q.loadHeld = false → s.dev.imageReads img lo hi = true →
      (∃ t, exec (.loadComplete k none) s = .next t ∧ t.dev.is (CHT_COL_STAT.LOADING k) = false
        ∧ t.dev.is (CHT_COL_STAT.LOADED k) = true ∧ (t.dev.column k).load = none
        ∧ t.dev.get64 CHT_LOAD_CNT.addr = (s.dev.get64 CHT_LOAD_CNT.addr + 1) % 2 ^ 64
        ∧ (∀ x ∈ s.dev.liveTellers k, ∀ i < 512,
            t.dev.storeAt x (0xC000 + s.dev.stagedBank k * 512 + i) = Vault.num s.vault (img + 2 * i) 2)
        ∧ (∀ x ∈ s.dev.liveTellers k, ∀ i < 4096,
            t.dev.storeAt x (0xA000 + s.dev.stagedBank k * 4096 + i) = Vault.num s.vault (img + 0x400 + 2 * i) 2)
        ∧ (∀ x ∈ s.dev.liveTellers k, ∀ i < 16384, lo ≤ i → i < hi →
            t.dev.storeAt x (0x6000 + i) = Vault.num s.vault (img + 0x2400 + 2 * i) 2)
        ∧ t.dev.ntq.input = s.dev.ntq.input ++ [⟨.event, idCHT, 0x010, word (2 ^ k.val), s.dev.time⟩]
        ∧ s.Keeps t fun a => a = CHT_COL_STAT.addr k ∨ a = CHT_LOAD_CNT.addr ∨ a = CHT_LOAD_CNT.addr + 4)
      ∧ ∀ x : Fin 528, ∃ t, exec (.loadComplete k (some x)) s = .next t ∧ t.dev.is (CHT_COL_STAT.LOADING k) = false
        ∧ t.dev.is (CHT_COL_STAT.LOADED k) = s.dev.is (CHT_COL_STAT.LOADED k) ∧ t.dev.is CHT_FLAGS.LOAD_ERR = true
        ∧ t.dev.is CHT_FLAGS.FETCH_ERR = true ∧ t.dev.is (CHT_T_FLAGS.FETCH_ERR x) = true ∧ t.dev.cht.stores = s.dev.cht.stores
        ∧ t.dev.ntq.input = s.dev.ntq.input ++ [⟨.alert, idCHT, 0x011, word (2 ^ 28 + k.val * 2 ^ 16 + x.val), s.dev.time⟩]
        ∧ s.Keeps t fun a => a = CHT_COL_STAT.addr k ∨ a = CHT_FLAGS.addr ∨ a = CHT_T_FLAGS.addr x)
    ∧ (∀ r : Requester, s.dev.Admits r CHT_ARM.addr → s.dev.is CAD_APPLY.PENDING = false → s.dev.stagedGang (s.dev.stagedHead k) = [k.val] →
      (s.dev.bitOf CHT_ARM.addr k = false → s.dev.armReason k = none →
        ∃ t, exec (.charterArm r one) s = .next t ∧ t.dev.bitOf CHT_ARM.addr k = true ∧ t.dev.ntq = s.dev.ntq
          ∧ (∀ j : Fin 16, j ≠ k → t.dev.bitOf CHT_ARM.addr j = s.dev.bitOf CHT_ARM.addr j) ∧ s.Keeps t (· = CHT_ARM.addr))
      ∧ (s.dev.bitOf CHT_ARM.addr k = false → s.dev.is (CHT_COL_STAT.LOADED k) = false →
        ∃ t, exec (.charterArm r one) s = .next t ∧ t.dev.bitOf CHT_ARM.addr k = false ∧ t.dev.is CHT_FLAGS.ARM_REFUSED = true
          ∧ t.dev.get (CHT_COL_STAT.REASON k) = 1
          ∧ t.dev.ntq.input = s.dev.ntq.input ++ [⟨.alert, idCHT, 0x012, word (2 ^ 28 + k.val * 2 ^ 16), s.dev.time⟩]
          ∧ s.Keeps t fun a => a = CHT_FLAGS.addr ∨ a = CHT_COL_STAT.addr k)
      ∧ (s.dev.bitOf CHT_ARM.addr k = true →
        ∃ t, exec (.charterDisarm r one) s = .next t ∧ t.dev.bitOf CHT_ARM.addr k = false ∧ t.dev.ntq = s.dev.ntq
          ∧ (∀ j : Fin 16, j ≠ k → t.dev.bitOf CHT_ARM.addr j = s.dev.bitOf CHT_ARM.addr j) ∧ s.Keeps t (· = CHT_ARM.addr)))
    ∧ ∀ a, q.switchTick = some a → q.loadHeld = false → s.dev.is (CHT_COL_STAT.OLD_BUSY k) = true → s.dev.oldWork k a = false →
      ∃ t, exec (.switchComplete k) s = .next t ∧ t.dev.is (CHT_COL_STAT.OLD_BUSY k) = false ∧ t.dev.bitOf CHT_ARM.addr k = false
        ∧ t.dev.column k = { q with switchTick := none, oldKernel := none }
        ∧ (∀ x ∈ s.dev.liveTellers k, t.dev.get (CHT_T_STAT.BANK x) = s.dev.activeBank k)
        ∧ t.dev.get64 CHT_SWITCH_CNT.addr = (s.dev.get64 CHT_SWITCH_CNT.addr + 1) % 2 ^ 64 ∧ t.dev.is CHT_FLAGS.SWITCHED = true
        ∧ t.dev.ntq.input = s.dev.ntq.input ++ [⟨.event, idCHT, 0x013, word (a % 2 ^ 16 * 2 ^ 16 + 2 ^ k.val), s.dev.time⟩]
        ∧ s.Keeps t fun a => a / 0x1_0000 = 0x40 ∨ 0x50_0000 ≤ a

/-- a teller whose next group may start runs it: a recipe to its END, counted with its words, or a basic kernel's group; a group of a
line never received gives zeros; a group that issues STEP_LIMIT words without END adds nothing to any stream and is counted and flagged; the mint unit
codes a segment, and a closed record becomes the line's output; a teller at the end of its part sends its result; a stream buffer is filled
from ADDR + y x PITCH. Of a lent teller the 1 ms of the RUNAWAY notice counts at the column whose pool it serves, which is the model's choice
(log entry 103) (R162, R168, R170, R175, R178, R181, R207, R215). -/
def Obligations.TellerWork : Prop :=
  ∀ (s : State) (x : Fin 528) (k : Nat) (f : ColFrame) (p : Nat), s.Ready → s.dev.job x = some (k, f, p) →
    (s.dev.teller x).frame = some f.frame →
    let w := s.dev.teller x
    (∀ y g, (f.workLines p)[w.line]? = some y → (f.workGroups p)[w.group]? = some g → s.dev.stallOf f x w.line y g = none →
      let r := (s.dev.runGroup f x w.line y g).1
      let new := r.t.out.drop w.out.length
      (s.dev.windowHeld 3 f.tick = false → f.config.kernel = none → (∀ l, s.dev.frameLine f.frame y = some l → l.missing = false) →
        (s.dev.runGroup f x w.line y g).2 = true → Dev.outFull w.out new = false →
        ∃ t, exec (.groupRun x) s = .next t
          ∧ t.dev.teller x = Dev.nextGroup f p { r.t with
              mint := if f.config.mode = 3 then w.mint else r.t.mint, bytes := Dev.addBits f r.t.bytes new }
          ∧ t.dev.get64 (CHT_T_GROUP_CNT.addr x) = (s.dev.get64 (CHT_T_GROUP_CNT.addr x) + 1) % 2 ^ 64
          ∧ t.dev.get64 (CHT_T_STEP_CNT.addr x) = (s.dev.get64 (CHT_T_STEP_CNT.addr x) + r.steps) % 2 ^ 64
          ∧ (r.saturated = true → t.dev.is CHT_FLAGS.ACC_SAT = true ∧ t.dev.is (CHT_T_FLAGS.ACC_SAT x) = true)
          ∧ s.Keeps t fun a => a / 0x1000 = 0x500 + x.val ∨ (r.saturated = true ∧ a = CHT_FLAGS.addr))
      ∧ (∀ l, s.dev.windowHeld 3 f.tick = false → f.config.kernel = none → s.dev.frameLine f.frame y = some l → l.missing = true →
        l.full = true →
        let zero (st : Stream) : List Piece := if f.streams.contains st then
          [⟨f.frame, st, y, g, List.replicate (Nat.min 32 (f.width - 32 * g)) 0, []⟩] else []
        ∃ t, exec (.groupRun x) s = .next t
          ∧ t.dev.teller x = Dev.nextGroup f p { w with
              out := w.out ++ zero .a ++ zero .b, bytes := Dev.addBits f w.bytes (zero .a ++ zero .b) }
          ∧ s.Keeps t (· = CHT_T_STAT.addr x))
      ∧ (∀ ks, s.dev.windowHeld 3 f.tick = false → f.config.kernel = some ks →
        let v := s.dev.kernelGroup s.vault f ks y g w
        Dev.outFull w.out (v.out.drop w.out.length) = false →
        ∃ t, exec (.groupRun x) s = .next t
          ∧ t.dev.teller x = Dev.nextGroup f p { v with bytes := Dev.addBits f v.bytes (v.out.drop w.out.length) }
          ∧ t.dev.get64 (CHT_T_GROUP_CNT.addr x) = (s.dev.get64 (CHT_T_GROUP_CNT.addr x) + 1) % 2 ^ 64
          ∧ t.dev.get64 (CHT_T_STEP_CNT.addr x) = (s.dev.get64 (CHT_T_STEP_CNT.addr x) + ks.cost) % 2 ^ 64
          ∧ s.Keeps t fun a => a / 0x1000 = 0x500 + x.val)
      ∧ (f.config.kernel = none → (∀ l, s.dev.frameLine f.frame y = some l → l.missing = false) →
        (s.dev.runGroup f x w.line y g).2 = false →
        ∃ t l, exec (.runaway x) s = .next t ∧ (t.dev.teller x).out = w.out
          ∧ (t.dev.teller x).stats = w.stats ∧ (t.dev.teller x).start = none ∧ (t.dev.teller x).faulted = true
          ∧ t.dev.get64 (CHT_T_RUNAWAY_CNT.addr x) = (s.dev.get64 (CHT_T_RUNAWAY_CNT.addr x) + 1) % 2 ^ 64
          ∧ t.dev.get64 CHT_RUNAWAY_CNT.addr = (s.dev.get64 CHT_RUNAWAY_CNT.addr + 1) % 2 ^ 64
          ∧ t.dev.get64 (CHT_T_STEP_CNT.addr x) = (s.dev.get64 (CHT_T_STEP_CNT.addr x) + r.steps) % 2 ^ 64
          ∧ t.dev.is (CHT_T_FLAGS.RUNAWAY x) = true ∧ t.dev.is CHT_FLAGS.RUNAWAY = true
          ∧ t.dev.ntq.input = s.dev.ntq.input ++ l
          ∧ (s.dev.since (.runaway k) (ms 1) = true → ∃ l',
              l = l' ++ [⟨.alert, idCHT, 0x014, word (x.val * 2 ^ 22 + f.tick % 2 ^ 16), s.dev.time⟩] ∧ (r.saturated = false → l' = []))
          ∧ s.Keeps t fun a => a / 0x1000 = 0x500 + x.val ∨ a / 0x1_0000 = 0x40))
    ∧ (∀ r, w.mint = [r] →
      (256 ≤ r.vals.length → (r.emit f.bits).vals ≠ [] →
        ∃ t, exec (.mintSegmentEmit x) s = .next t ∧ (t.dev.teller x).mint = [r.emit f.bits] ∧ (t.dev.teller x).out = w.out
          ∧ s.Keeps t fun _ => False)
      ∧ (r.closed = true → r.vals = [] →
        ∃ t, exec (.mintSegmentEmit x) s = .next t ∧ (t.dev.teller x).mint = []
          ∧ (t.dev.teller x).out = w.out ++ [⟨f.frame, .mint, r.line, r.x0 / 32, [], lineRecord r⟩] ∧ s.Keeps t fun _ => False))
    ∧ ((f.workLines p).length ≤ w.line → f.workLines p ≠ [] → w.mint = [] → (s.dev.column (x / 33)).results.length < 32 →
      ∃ t, exec (.tellerResultSend x) s = .next t ∧ (t.dev.teller x).frame = none
        ∧ (t.dev.column (x / 33)).results = (s.dev.column (x / 33)).results
            ++ [⟨x, f.frame, f.tick, w.bytes.map (fun b => (b + 7) / 8), w.tallies, w.stats, w.faulted⟩]
        ∧ t.dev.get64 (CHT_T_WORK.addr x) = 2 ^ 64 - 1
        ∧ s.Keeps t fun a => a = CHT_T_WORK.addr x ∨ a = CHT_T_WORK.addr x + 4)
    ∧ ∀ y, f.config.streamOn = true → (f.workLines p)[w.streamed]? = some y → w.streamed < w.line + 2 →
      let from' := f.config.ssrc + y * f.config.pitch
      let to' := f.config.streamBase + 32 * f.config.streamLen * (w.streamed % 2)
      s.dev.readsAs .teller from' (64 * f.config.streamLen) = true →
      ∃ t, exec (.streamLineFetch x false) s = .next t ∧ (t.dev.teller x).streamed = w.streamed + 1
        ∧ (∀ i < 32 * f.config.streamLen, to' + i < 16384 →
            t.dev.storeAt x (0x6000 + to' + i) = Vault.num s.vault (from' + 2 * i) 2)
        ∧ s.Keeps t fun _ => False

/-- the merger takes a group of stream A or B from the teller that owns it, and with a line's last group its packed bytes go to
the head's stream; it passes over nothing and waits for the owner, and it takes nothing for which the result queue of the head's column has no
room, a length that is the model's field (log entry 74) (R20, R169). -/
def Obligations.MergerTakes : Prop :=
  ∀ (s : State) (k : Fin 16) (f : ColFrame) (n : Fin 2) (y p : Nat) (x : Nat), s.Ready → (s.dev.column k).frames = [f] →
    let st : Stream := if n = 0 then .a else .b
    let q := f.pos st
    let stream : Fin 5 := if n = 0 then 0 else 3
    f.streams.contains st = true → q.done = false → s.dev.bandTurn f st = true → f.order[q.lines]? = some y →
    ((List.range f.pool.length).filter fun p => (f.workLines p).contains y && (f.workGroups p).contains q.group) = [p] →
    f.pool[p]? = some x → f.isLost p ((f.workLines p).idxOf y) = false →
    let vals := (((s.dev.teller x).out.filter fun e => e.frame = f.frame && e.stream = st && e.line = y && e.group ≤ q.group).flatMap
      (·.vals))
    (s.dev.passed f p ((f.workLines p).idxOf y) q.group = true →
      (q.group + 1 < f.groups →
        ∃ t, exec (.mergerTake k stream) s = .next t
          ∧ (t.dev.column k).frames = [f.setPos st ⟨q.lines, q.group + 1, q.vals ++ vals, q.recs, false⟩]
          ∧ (t.dev.column f.head).queue = (s.dev.column f.head).queue ∧ s.Keeps t fun _ => False)
      ∧ (f.groups ≤ q.group + 1 → q.lines + 1 < f.lines → q.vals ++ vals ≠ [] →
        let queue := (s.dev.column f.head).queue.map fun o =>
          if o.frame = f.frame ∧ o.stream = st then { o with bytes := o.bytes ++ packBits (Dev.outBits f st) (q.vals ++ vals) } else o
        ((queue.map fun o => (o.bytes.length + 31) / 32).sum ≤ s.dev.cht.depth → ∃ t, exec (.mergerTake k stream) s = .next t
          ∧ (t.dev.column k).frames = [f.setPos st ⟨q.lines + 1, 0, [], [], false⟩]
          ∧ (t.dev.column f.head).queue = queue ∧ s.Keeps t fun _ => False)
        ∧ (Nat.max s.dev.cht.depth (s.dev.beatsQueued f.head) < (queue.map fun o => (o.bytes.length + 31) / 32).sum →
          ∃ t, exec (.mergerTake k stream) s = .next t ∧ t.dev.cht = s.dev.cht ∧ s.Keeps t fun _ => False)))
    ∧ (s.dev.passed f p ((f.workLines p).idxOf y) q.group = false →
        ∃ t, exec (.mergerTake k stream) s = .next t ∧ t.dev.cht = s.dev.cht ∧ s.Keeps t fun _ => False)

/-- an error that SECDED corrects is counted as transient, and so is one that the repeated step clears, with RETRIED, for a teller that serves a row or still has
work of a frame; a repeated failure, a
failed self-check and a write of RETIRE
retire the teller with cause 1, 3 and 4, and the free spare takes its row; without one the pool shrinks and the device enters
SAFE; a write of ROW 0 to 31 substitutes the spare, one of 32 to 62 is ignored with BAD_VALUE, and any while a swap of the column is in
progress, as long as the model's reading takes it to be (log entry 87), with WRITE_REFUSED; a write into a free part of a store lands, and in a
staged bank disarms the column; one into the line store sets WRITE_REFUSED (R163, R183, R185-R188). -/
def Obligations.TellerFaults : Prop :=
  ∀ (s : State) (x : Fin 528) (k : Fin 16), s.Ready → x.val / 33 = k.val →
    let spare : Fin 528 := ⟨33 * k.val + 32, by omega⟩
    let row := s.dev.rowOf x
    let retired (cause : Nat) (l : List Notice) : List Notice :=
      s.dev.ntq.input ++ ⟨.fault, idCHT, 0x015, word (cause * 2 ^ 12 + x.val), s.dev.time⟩ :: l
    let swapped (cause : Nat) (t : State) : Prop := t.dev.is (CHT_T_CTL.RETIRE x) = true ∧ t.dev.get (CHT_SPARE.ROW k) = row
      ∧ t.dev.get64 CHT_SWAP_CNT.addr = (s.dev.get64 CHT_SWAP_CNT.addr + 1) % 2 ^ 64 ∧ t.dev.is CHT_FLAGS.SPARE_SWAP = true
      ∧ t.dev.mode = s.dev.mode
      ∧ (∃ l, t.dev.ntq.input = retired cause (⟨.alert, idCHT, 0x016, word (spare.val * 2 ^ 16 + x.val), s.dev.time⟩ :: l))
      ∧ s.Keeps t fun a => a / 0x1_0000 = 0x40 ∨ a / 0x1000 = 0x500 + x.val
    let spareFree := s.dev.is (CHT_T_CTL.RETIRE x) = false ∧ row < 32 ∧ x ≠ spare ∧ s.dev.get (CHT_SPARE.ROW k) = 63
      ∧ s.dev.is (CHT_T_CTL.RETIRE spare) = false ∧ s.dev.is (CHT_SPARE.AUTO k) = true
    (x.val % 33 = 32 ∨ row ≠ 63 ∨ (s.dev.job x).isSome = true →
      ∃ t, exec (.tellerStepError x .corrected) s = .next t
        ∧ t.dev.get64 (CHT_T_RETRY_CNT.addr x) = (s.dev.get64 (CHT_T_RETRY_CNT.addr x) + 1) % 2 ^ 64
        ∧ t.dev.get64 CHT_TRANSIENT_CNT.addr = (s.dev.get64 CHT_TRANSIENT_CNT.addr + 1) % 2 ^ 64 ∧ t.dev.ntq = s.dev.ntq
        ∧ s.Keeps t fun a => a = CHT_T_RETRY_CNT.addr x ∨ a = CHT_T_RETRY_CNT.addr x + 4 ∨ a = CHT_TRANSIENT_CNT.addr
          ∨ a = CHT_TRANSIENT_CNT.addr + 4)
    ∧ (x.val % 33 = 32 ∨ row ≠ 63 ∨ (s.dev.job x).isSome = true →
      ∃ t, exec (.tellerStepError x .transient) s = .next t
        ∧ t.dev.get64 (CHT_T_RETRY_CNT.addr x) = (s.dev.get64 (CHT_T_RETRY_CNT.addr x) + 1) % 2 ^ 64
        ∧ t.dev.get64 CHT_TRANSIENT_CNT.addr = (s.dev.get64 CHT_TRANSIENT_CNT.addr + 1) % 2 ^ 64
        ∧ t.dev.is (CHT_T_FLAGS.RETRIED x) = true ∧ t.dev.ntq = s.dev.ntq
        ∧ s.Keeps t fun a => a = CHT_T_RETRY_CNT.addr x ∨ a = CHT_T_RETRY_CNT.addr x + 4 ∨ a = CHT_TRANSIENT_CNT.addr
          ∨ a = CHT_TRANSIENT_CNT.addr + 4 ∨ a = CHT_T_FLAGS.addr x)
    ∧ (spareFree → ∃ t, exec (.tellerStepError x .lasting) s = .next t ∧ swapped 1 t)
    ∧ (spareFree → ∃ t, exec (.tellerSelfCheckFail x) s = .next t ∧ swapped 3 t)
    ∧ (∀ r : Requester, s.dev.Admits r (CHT_T_CTL.addr x) → s.dev.bitOf DCT_LOCK.addr 5 = false →
      spareFree → ∃ t, exec (.tellerSoftRetire r x) s = .next t ∧ swapped 4 t)
    ∧ (s.dev.is (CHT_T_CTL.RETIRE x) = false → row < 32 → s.dev.is (CHT_SPARE.AUTO k) = false → s.dev.mode ≠ 7 →
      ∃ t l, exec (.tellerSelfCheckFail x) s = .next t ∧ t.dev.is (CHT_T_CTL.RETIRE x) = true ∧ t.dev.mode = 7
        ∧ t.dev.is CHT_FLAGS.POOL_SHRUNK = true ∧ t.dev.bitOf CHT_ARM.addr k = false ∧ t.dev.is CAD_APPLY.PENDING = false
        ∧ t.dev.get (CHT_SPARE.ROW k) = s.dev.get (CHT_SPARE.ROW k) ∧ t.dev.ntq.input = retired 3 l
        ∧ s.Keeps t fun a => a / 0x1_0000 = 0x40 ∨ a / 0x1000 = 0x500 + x.val ∨ a = DCT_MODE.addr ∨ a = CAD_APPLY.addr)
    ∧ (∀ (r : Requester) (v : BitVec 6), s.dev.Admits r (CHT_SPARE.addr k) → s.dev.bitOf DCT_LOCK.addr 5 = false →
      (s.dev.swapping k = true →
        ∃ t, exec (.spareRowWrite r k v) s = .next t ∧ t.dev.is CHT_FLAGS.WRITE_REFUSED = true ∧ s.Keeps t (· = CHT_FLAGS.addr))
      ∧ (s.dev.swapping k = false → v.toNat < 32 ∨ v.toNat = 63 → ∃ t, exec (.spareRowWrite r k v) s = .next t ∧ t.dev.get (CHT_SPARE.ROW k) = v.toNat
        ∧ t.dev.is (CHT_SPARE.AUTO k) = s.dev.is (CHT_SPARE.AUTO k) ∧ s.Keeps t (· = CHT_SPARE.addr k))
      ∧ (s.dev.swapping k = false → 32 ≤ v.toNat → v.toNat ≠ 63 → s.dev.get (CHT_SPARE.ROW k) ≠ v.toNat →
        ∃ t, exec (.spareRowWrite r k v) s = .next t ∧ t.dev.is CHT_FLAGS.BAD_VALUE = true ∧ s.Keeps t (· = CHT_FLAGS.addr)))
    ∧ ∀ (g : Agent) (off : BitVec 17) (v : Word), s.dev.reaches g true (storeAddr x (off.toNat / 4 * 4)) 4 = true →
      let w := off.toNat / 4 * 2
      let staged := s.dev.storeStaged x w
      (s.dev.storeInUse x w = false → s.dev.storeInUse x (w + 1) = false → w < 0xC400 →
        (staged = true → s.dev.is CAD_APPLY.PENDING = false) →
        ∃ t, exec (.tellerStoreWrite ⟨g, x⟩ off v 15#4) s = .next t ∧ t.dev.storeAt x w = v.toNat % 2 ^ 16
          ∧ t.dev.storeAt x (w + 1) = v.toNat / 2 ^ 16
          ∧ (∀ (z : Fin 528) (i : Nat), (z ≠ x ∨ (i ≠ w ∧ i ≠ w + 1)) → t.dev.storeAt z i = s.dev.storeAt z i)
          ∧ (staged = true → t.dev.bitOf CHT_ARM.addr k = false) ∧ s.Keeps t fun a => staged = true ∧ a = CHT_ARM.addr)
      ∧ (w < 0x6000 → ∃ t, exec (.tellerStoreWrite ⟨g, x⟩ off v 15#4) s = .next t ∧ t.dev.cht = s.dev.cht
          ∧ t.dev.is CHT_FLAGS.WRITE_REFUSED = true ∧ s.Keeps t (· = CHT_FLAGS.addr))


/-! ### The clearing unit (chapter 08) -/

/-- an encoder capture, once every channel has a sample at or after the EXPOSE_TIME, gives the oldest commanded exposure that has none, and an open
  frame of it, the position of each channel that was enabled at both samples about its EXPOSE_TIME, interpolated between them on the grid of the
  commands' samples (log entry 20), its valid bits and the doubt and settling of those samples; a teller's result leaves the frame's list of those
  awaited and marks the frame where it is faulted, and one of no open frame is counted and reported; a complete frame gives each of its streams, one
  or two, an entry in ascending KIND under the next ENTRY_SEQ and closes, as long as the ledger queue has room, whose length is the model's field (log
  entry 74); an item read well again is counted transient; one that fails twice marks the frame with CLR's block ID and is logged, and each entry it
  fails is completed with all ones, counted and pushed, with the last of the frame's contributions where some are still to come, which is the model's
  reading (log entry 104) (R20, R219-R222, R225, R226, R228, R229, R231, R353, R417). -/
def Obligations.Clearing : Prop :=
  ∀ (s : State), s.Ready →
    (∀ (m0 m1 m2 m3 : EncMotion),
      let q (i : Fin 4) : EncMotion := [m0, m1, m2, m3].getD i.val ⟨0, []⟩
      let d := s.dev.forEach (List.range 4) fun i d => d.encSamples i ([m0, m1, m2, m3].getD i ⟨0, []⟩)
      let made (at' : Nat) (c : EncCapture) : Prop :=
        let before (i : Fin 4) := d.sampleBefore (q i) at'
        let b (i : Fin 4) := d.encAt i (before i)
        let a (i : Fin 4) := d.encAt i (before i + ns 25)
        let on (i : Fin 4) : Prop := (b i).on = true ∧ (a i).on = true
        (∀ i : Fin 4, bit c.valid i = true ↔ on i) ∧ (∀ i : Fin 4, ¬ on i → c.pos[i.val]? = some 0)
        ∧ (∀ i : Fin 4, on i → c.pos[i.val]? = some
            (interpolate (d.posAt i (before i)) (d.posAt i (before i + ns 25)) (at' - before i)))
        ∧ (bit c.flags 6 = true ↔ ∃ i : Fin 4, on i ∧ ((b i).doubt = true ∨ (a i).doubt = true))
        ∧ (bit c.flags 7 = true ↔ ∃ i : Fin 4, on i ∧ ((b i).settling = true ∨ (a i).settling = true))
      let taken (t : State) : Prop := t.pending = s.pending ∧ t.vault = s.vault ∧ t.dev.time = s.dev.time ∧ (∀ a, t.dev.reg a = d.reg a)
        ∧ ((∀ i, (q i).runs = []) → s.Keeps t fun _ => False)
      (∀ e, d.cad.exposures = [e] → e.enc = none → (∀ i, d.bracketed (q i) e.time = true) →
        (∀ f, d.clr.frames = [f] → f.enc = none ∧ f.head = e.head ∧ f.source = e.source ∧ f.cmd = e.id) → d.clr.frames.length ≤ 1 →
        ∃ t c, exec (.encCapture m0 m1 m2 m3) s = .next t ∧ made e.time c ∧ t.dev.cad = { d.cad with exposures := [{ e with enc := some c }] }
          ∧ t.dev.clr = { d.clr with frames := d.clr.frames.map fun f => { f with enc := some c } } ∧ taken t)
      ∧ (∀ e, d.cad.exposures = [e] → d.clr.frames = [] → (∃ i, d.bracketed (q i) e.time = false) →
        ∃ t, exec (.encCapture m0 m1 m2 m3) s = .next t ∧ t.dev.cad = d.cad ∧ t.dev.clr = d.clr ∧ taken t)
      ∧ (∀ f, d.cad.exposures = [] → d.clr.frames = [f] → f.enc = none → (∀ i, d.bracketed (q i) f.expose = true) →
        ∃ t c, exec (.encCapture m0 m1 m2 m3) s = .next t ∧ made f.expose c ∧ t.dev.cad = d.cad
          ∧ t.dev.clr = { d.clr with frames := [{ f with enc := some c }] } ∧ taken t))
    ∧ (∀ (k : Fin 16) r rest, (s.dev.column k).results = r :: rest →
      (∀ f, s.dev.clr.frames = [f] → f.id = r.frame → s.dev.windowHeld 4 f.tick = false →
        let left := { f with expect := f.expect.filter (· != r.teller) }
        ∃ t, exec (.tellerResultAccept k) s = .next t ∧ (r.faulted = false → t.dev.clr = { s.dev.clr with frames := [left] })
          ∧ (r.faulted = true → t.dev.clr.frames = [{ left with
              flags := f.flags ||| 0x20, faultId := s.dev.faultBlock (bit f.flags 5) f.faultAt f.faultId idCHT
              faultAt := if bit f.flags 5 then f.faultAt else s.dev.time }])
          ∧ (t.dev.column k).results = rest ∧ s.Keeps t fun _ => False)
      ∧ ((∀ f ∈ s.dev.clr.frames, f.id ≠ r.frame) →
        ∃ t, exec (.tellerResultAccept k) s = .next t ∧ t.dev.clr = s.dev.clr ∧ (t.dev.column k).results = rest
          ∧ t.dev.get64 CLR_ORPHAN_CNT.addr = (s.dev.get64 CLR_ORPHAN_CNT.addr + 1) % 2 ^ 64 ∧ t.dev.is CLR_FLAGS.ORPHAN = true
          ∧ t.dev.ntq.input = s.dev.ntq.input ++ (if s.dev.since .orphanResult (ms 1)
              then [⟨.alert, idCLR, 0x011, word (r.teller * 2 ^ 16 + r.tick % 2 ^ 16), s.dev.time⟩] else [])
          ∧ s.Keeps t fun a => a = CLR_ORPHAN_CNT.addr ∨ a = CLR_ORPHAN_CNT.addr + 4 ∨ a = CLR_FLAGS.addr))
    ∧ (∀ (h : Fin 16) (f : Frame) (l : BandPart) (c : EncCapture), s.dev.clr.frames = [f] → f.head = h.val → s.dev.complete f = true →
      (∀ st ∈ f.streams, ((s.dev.column h).queue.any fun o => o.frame = f.id && o.stream = st) = true) →
      f.lead = some l → f.enc = some c → f.replay = none → c.flags < 2 ^ 12 → c.valid < 16 → f.faultId < 256 →
      (∀ p : Fin 16, (s.dev.port p).pk.held = []) →
      let format := slice f.cfg.toNat 0 2
      let seq (st : Stream) := s.dev.get (Dev.seqBits h (f.kind st))
      (∀ st, f.streams = [st] → s.dev.clr.queue.length < s.dev.clr.depth →
        ∃ t e, exec (.ledgerEntryQueue h) s = .next t ∧ t.dev.clr = { s.dev.clr with frames := [], queue := s.dev.clr.queue ++ [e] }
          ∧ e.frame = f.id ∧ e.stream = st ∧ e.format = format ∧ e.kind = f.kind st ∧ e.head = h.val ∧ e.size = f.size
          ∧ e.frameNo = (if ClrItem.frameNo ∈ f.failed then 2 ^ 64 - 1 else l.frameNo)
          ∧ e.expose = (if ClrItem.exposeTime ∈ f.failed then 2 ^ 64 - 1 else l.expose)
          ∧ e.tick = (if ClrItem.tickNo ∈ f.failed then 2 ^ 64 - 1 else f.tick)
          ∧ (∀ i : Fin 4, e.enc[i.val]? = some (if ClrItem.position i ∈ f.failed then 2 ^ 40 - 1 else c.pos.getD i.val 0))
          ∧ slice e.flags 24 8 = (if format = 2 then seq st else 0) ∧ slice e.flags 12 4 = (if format = 2 then c.valid else 0)
          ∧ (bit e.flags 3 = true ↔ s.dev.lateStrike f = true ∨ bit f.flags 3 = true ∨ bit c.flags 3 = true)
          ∧ slice e.flags 16 8 = (if bit e.flags 5 then f.faultId else 0)
          ∧ t.dev.get (Dev.seqBits h (f.kind st)) = (seq st + 1) % 256
          ∧ t.dev.get64 CLR_ENTRY_CNT.addr = (s.dev.get64 CLR_ENTRY_CNT.addr + 1) % 2 ^ 64 ∧ t.dev.get CLR_STAT.OPEN = 0
          ∧ (f.failed = [] → e.bytesFailed = false ∧ t.dev.ntq = s.dev.ntq ∧ t.dev.get64 CLR_FAULT_CNT.addr = s.dev.get64 CLR_FAULT_CNT.addr)
          ∧ (f.failsEntry st = true → e.bytesFailed = f.failsBytes st ∧ t.dev.is CLR_FLAGS.ENTRY_FAULT = true
            ∧ t.dev.get64 CLR_FAULT_CNT.addr = (s.dev.get64 CLR_FAULT_CNT.addr + 1) % 2 ^ 64
            ∧ t.dev.ntq.input = s.dev.ntq.input ++ [⟨.fault, idCLR, 0x010, word (h.val * 2 ^ 16 + f.tick % 2 ^ 16), s.dev.time⟩])
          ∧ s.Keeps t fun a => a / 0x1_0000 = 0x80)
      ∧ (∀ st st', f.failed = [] → f.streams = [st, st'] ∨ f.streams = [st', st] → f.kind st < f.kind st' →
        s.dev.clr.queue.length + 2 ≤ s.dev.clr.depth →
        ∃ t e e', exec (.ledgerEntryQueue h) s = .next t ∧ t.dev.clr = { s.dev.clr with frames := [], queue := s.dev.clr.queue ++ [e, e'] }
          ∧ e.stream = st ∧ e.kind = f.kind st ∧ e'.stream = st' ∧ e'.kind = f.kind st'
          ∧ slice e.flags 24 8 = (if format = 2 then seq st else 0) ∧ slice e'.flags 24 8 = (if format = 2 then seq st' else 0)
          ∧ t.dev.get64 CLR_ENTRY_CNT.addr = (s.dev.get64 CLR_ENTRY_CNT.addr + 2) % 2 ^ 64 ∧ s.Keeps t fun a => a / 0x1_0000 = 0x80)
      ∧ ∀ st, f.streams = [st] → s.dev.clr.depth ≤ s.dev.clr.queue.length →
        ∃ t, exec (.ledgerEntryQueue h) s = .next t ∧ t.dev.clr = s.dev.clr ∧ s.Keeps t fun _ => False)
    ∧ ∀ (h : Fin 16) (i : ClrItem) (f : Frame), s.dev.clr.frames = [f] → f.head = h.val →
      (∃ t, exec (.clrItemError h 0 i .transient) s = .next t ∧ t.dev.clr = s.dev.clr
        ∧ t.dev.get64 CLR_TRANSIENT_CNT.addr = (s.dev.get64 CLR_TRANSIENT_CNT.addr + 1) % 2 ^ 64
        ∧ s.Keeps t fun a => a = CLR_TRANSIENT_CNT.addr ∨ a = CLR_TRANSIENT_CNT.addr + 4)
      ∧ (∀ n o, 0 < n → ∃ t, exec (.clrItemError h n i o) s = .next t ∧ t.dev.clr = s.dev.clr ∧ s.Keeps t fun _ => False)
      ∧ (s.dev.complete f = false → ∃ t x, exec (.clrItemError h 0 i .lasting) s = .next t
        ∧ t.dev.clr.frames = [{ f with
            failed := i :: f.failed, flags := f.flags ||| 0x20, faultId := s.dev.faultBlock (bit f.flags 5) f.faultAt f.faultId idCLR
            faultAt := if bit f.flags 5 then f.faultAt else s.dev.time }]
        ∧ t.dev.mgt.logCount = s.dev.mgt.logCount + 1
        ∧ t.dev.ntq.input = s.dev.ntq.input ++ [⟨.info, idMGT, 0x020, x, s.dev.time⟩] ∧ s.Keeps t fun _ => False)

/-! ### The vault and its rings (chapter 09) -/

/-- at the end of initialisation INIT_DONE is set and pushed, and firmware that has saved values neither of pages nor of parameters enables every
  port and sets its locks, in the order the model reads (log entry 48); an ECC error that reads well again is only counted; a correctable one that
  fails again begins the copy of its page, as RETIRE_REQ does, into the highest-numbered free pool page; an uncorrectable one that fails again also
  poisons the word and raises DATA_LOST; with no free pool page the device enters SAFE; the copy's end maps the page there and pushes PAGE_RETIRED;
  the scrub reads one line per INTERVAL in ascending order, counts a pass at the end of the vault, and handles what it finds as an ECC error (R240,
  R243-R248, R388, R439). -/
def Obligations.VaultCare : Prop :=
  ∀ (s : State), s.Ready →
    let v := s.dev.vlt
    let free (i : Nat) : Prop := s.dev.is (VLT_POOL.IN_USE i) = false ∧ (∀ c ∈ v.copies, c.2 ≠ i) ∧ s.dev.pageRetired (poolTop - i) = false
    let pool (i : Nat) : Prop := i < 128 ∧ free i ∧ ∀ j < i, ¬ free j
    (∀ store : Bool × Bool, s.dev.is VLT_STAT.INIT_DONE = false →
      (s.dev.mgt.firmware = .lost →
        ∃ t, exec (.vaultInitDone store) s = .next t ∧ t.dev.is VLT_STAT.INIT_DONE = true
          ∧ t.dev.ntq.input = s.dev.ntq.input ++ [⟨.info, idVLT, 0x01F, 0#32, s.dev.time⟩] ∧ s.Keeps t (· = VLT_STAT.addr))
      ∧ (s.dev.mgt.firmware = .running → s.dev.mgt.retired = [] → s.dev.mgt.lostTellers = [] → s.dev.mgt.mram.saved = ⟨none, none⟩ →
        s.dev.mgt.restore ≠ 1 →
        ∃ t l, exec (.vaultInitDone store) s = .next t ∧ t.dev.is VLT_STAT.INIT_DONE = true
          ∧ (∀ p : Fin 16, t.dev.is (AVP_PORT_CTL.EN p) = true ∧ (s.dev.is (AVP_PORT_CTL.EN p) = false → s.dev.portState p = 0 → t.dev.portState p = 1))
          ∧ t.dev.is DCT_LOCK.SEC_CFG = true ∧ (s.dev.is SEC_STAT.BOARD = true → t.dev.is DCT_LOCK.FUSE_PROG = true)
          ∧ t.dev.ntq.input = s.dev.ntq.input ++ ⟨.info, idVLT, 0x01F, 0#32, s.dev.time⟩ :: l
          ∧ s.Keeps t fun a => a = VLT_STAT.addr ∨ a = DCT_LOCK.addr ∨ (0x10_0000 ≤ a ∧ a < 0x20_0000)))
    ∧ (∀ w : BitVec 35, w.toNat * 8 < vaultSize → w.toNat * 8 / pageSize < poolLow →
      let u := w.toNat * 8 / pageSize
      (∃ t, exec (.vaultEccError w false .transient) s = .next t ∧ t.dev.vlt = v
        ∧ t.dev.get64 VLT_CE_CNT.addr = (s.dev.get64 VLT_CE_CNT.addr + 1) % 2 ^ 64
        ∧ t.dev.get64 VLT_TRANSIENT_CNT.addr = (s.dev.get64 VLT_TRANSIENT_CNT.addr + 1) % 2 ^ 64
        ∧ s.Keeps t fun a => a = VLT_CE_CNT.addr ∨ a = VLT_CE_CNT.addr + 4 ∨ a = VLT_TRANSIENT_CNT.addr ∨ a = VLT_TRANSIENT_CNT.addr + 4)
      ∧ (∃ t, exec (.vaultEccError w true .transient) s = .next t ∧ t.dev.vlt = v
        ∧ t.dev.get64 VLT_TRANSIENT_CNT.addr = (s.dev.get64 VLT_TRANSIENT_CNT.addr + 1) % 2 ^ 64
        ∧ s.Keeps t fun a => a = VLT_TRANSIENT_CNT.addr ∨ a = VLT_TRANSIENT_CNT.addr + 4)
      ∧ (∀ i, pool i → (∀ c ∈ v.copies, c.1 ≠ u) →
        (∃ t, exec (.vaultEccError w false .lasting) s = .next t ∧ t.dev.vlt = { v with copies := v.copies ++ [(u, i)] }
          ∧ t.dev.get64 VLT_CE_CNT.addr = (s.dev.get64 VLT_CE_CNT.addr + 1) % 2 ^ 64
          ∧ s.Keeps t fun a => a = VLT_CE_CNT.addr ∨ a = VLT_CE_CNT.addr + 4)
        ∧ ∃ t, exec (.vaultEccError w true .lasting) s = .next t ∧ t.dev.vlt.copies = v.copies ++ [(u, i)]
          ∧ (∀ x, x ∈ t.dev.vlt.poisoned ↔ x ∈ v.poisoned ∨ x = w.toNat) ∧ t.dev.is VLT_FLAGS.DATA_LOST = true
          ∧ t.dev.get64 VLT_UE_CNT.addr = (s.dev.get64 VLT_UE_CNT.addr + 1) % 2 ^ 64
          ∧ s.Keeps t fun a => a = VLT_UE_CNT.addr ∨ a = VLT_UE_CNT.addr + 4 ∨ a = VLT_FLAGS.addr)
      ∧ ((∀ i < 128, ¬ free i) → (∀ c ∈ v.copies, c.1 ≠ u) → s.dev.mode ≠ 7 →
        ∃ t, exec (.vaultEccError w true .lasting) s = .next t ∧ t.dev.mode = 7 ∧ t.dev.is VLT_FLAGS.POOL_EMPTY = true
          ∧ t.dev.vlt.copies = v.copies ∧ s.Keeps t fun a => a = VLT_UE_CNT.addr ∨ a = VLT_UE_CNT.addr + 4 ∨ a = VLT_FLAGS.addr
            ∨ a = DCT_MODE.addr ∨ a = CAD_APPLY.addr))
    ∧ (∀ u i rest, v.copies = (u, i) :: rest → u < 2 ^ 17 → i < 128 →
      ∃ t, exec .pageCopyDone s = .next t ∧ t.dev.vlt = { v with copies := rest } ∧ t.dev.is (VLT_POOL.IN_USE i) = true
        ∧ t.dev.get (VLT_POOL.PAGE i) = u ∧ t.dev.is VLT_FLAGS.PAGE_RETIRED = true
        ∧ t.dev.get64 VLT_RETIRE_CNT.addr = (s.dev.get64 VLT_RETIRE_CNT.addr + 1) % 2 ^ 64
        ∧ t.dev.ntq.input = s.dev.ntq.input ++ [⟨.alert, idVLT, 0x019, word (i * 2 ^ 17 + u), s.dev.time⟩]
        ∧ s.Keeps t fun a => a = VLT_POOL.addr i ∨ a = VLT_STAT.addr ∨ a = VLT_RETIRE_CNT.addr ∨ a = VLT_RETIRE_CNT.addr + 4
          ∨ a = VLT_FLAGS.addr)
    ∧ (∀ (r : Requester) (page : BitVec 17) (i : Nat), s.dev.Admits r VLT_RETIRE_REQ.addr → page.toNat < poolLow →
      s.dev.pageRetired page.toNat = false → pool i →
      ∃ t, exec (.retireRequest r page) s = .next t ∧ t.dev.vlt = { v with copies := v.copies ++ [(page.toNat, i)] }
        ∧ t.dev.ntq = s.dev.ntq ∧ s.Keeps t (· = VLT_RETIRE_REQ.addr))
    ∧ (s.dev.is VLT_STAT.INIT_DONE = true → v.scrubNext ≤ s.dev.time →
      let next := s.dev.time + ns (s.dev.get VLT_SCRUB.INTERVAL)
      (v.scrubAt + 64 < vaultSize →
        (∃ t, exec (.scrubLine []) s = .next t ∧ t.dev.vlt = { v with scrubAt := v.scrubAt + 64, scrubNext := next } ∧ s.Keeps t fun _ => False)
        ∧ ∀ i : Fin 8, ∃ t, exec (.scrubLine [(i, false, .transient)]) s = .next t
          ∧ t.dev.vlt = { v with scrubAt := v.scrubAt + 64, scrubNext := next }
          ∧ t.dev.get64 VLT_CE_CNT.addr = (s.dev.get64 VLT_CE_CNT.addr + 1) % 2 ^ 64
          ∧ s.Keeps t fun a => a = VLT_CE_CNT.addr ∨ a = VLT_CE_CNT.addr + 4 ∨ a = VLT_TRANSIENT_CNT.addr ∨ a = VLT_TRANSIENT_CNT.addr + 4)
      ∧ (vaultSize ≤ v.scrubAt + 64 →
        ∃ t, exec (.scrubLine []) s = .next t ∧ t.dev.vlt = { v with scrubAt := 0, scrubNext := next }
          ∧ t.dev.get64 VLT_SCRUB_CNT.addr = (s.dev.get64 VLT_SCRUB_CNT.addr + 1) % 2 ^ 64
          ∧ s.Keeps t fun a => a = VLT_SCRUB_CNT.addr ∨ a = VLT_SCRUB_CNT.addr + 4))

/-- a record with room begins at DATA_WR; where the room of an armed ring lies in its oldest record, the mark slides past that record and it is
counted; a frame due in a HELD ring is dropped, counted, flagged and reported; a burst with room goes to the addresses of its counts and
nowhere else, and in POST one without room is cut and reported; with the payload written, or cut, which marks the entry with VLT's block ID, and the entry queued, the 64 bytes of the entry go
into the slot of ENT_WR, DATA_WR advances to a multiple of 64 and the stream leaves (R217, R221, R232, R250, R251, R255, R257). -/
def Obligations.RingRecords : Prop :=
  ∀ (s : State) (r : Fin 64), s.Ready →
    let g := s.dev.ring r
    (∀ o, g.work = none → s.dev.nextStream r = some o →
      let room (g : Ring) : Prop := g.slotFree = true ∧ (o.complete = true ∧ o.bytes = [] ∨ s.dev.reserve r ≤ g.free)
      (g.state = .armed ∨ g.state = .stream ∨ g.state = .post → (g.state = .armed → g.commitWait = false) → room g →
        ∃ t, exec (.recordBegin r) s = .next t
          ∧ t.dev.ring r = { g with work := some ⟨o.frame, o.stream, o.tick, o.head, g.dataWr, 0, false, false, false⟩ }
          ∧ t.dev.ntq = s.dev.ntq ∧ s.Keeps t fun _ => False)
      ∧ (∀ e, g.state = .armed → g.commitWait = false → g.entries = [e] → s.dev.streamsOn r = [] → ¬ room g → room (g.markTo (e.num + 1)) →
        ∃ t, exec (.recordBegin r) s = .next t ∧ (t.dev.ring r).markEnt = e.num + 1 ∧ (t.dev.ring r).markData = g.dataWr
          ∧ (t.dev.ring r).entries = [] ∧ (t.dev.ring r).slides = (g.slides + 1) % 2 ^ 32
          ∧ (t.dev.ring r).work = some ⟨o.frame, o.stream, o.tick, o.head, g.dataWr, 0, true, false, false⟩
          ∧ t.dev.get64 VLT_SLIDE_CNT.addr = (s.dev.get64 VLT_SLIDE_CNT.addr + 1) % 2 ^ 64 ∧ t.dev.is VLT_FLAGS.SLID = true
          ∧ s.Keeps t fun a => a = VLT_FLAGS.addr ∨ a = VLT_SLIDE_CNT.addr ∨ a = VLT_SLIDE_CNT.addr + 4)
      ∧ (g.state = .held →
        ∃ t, exec (.recordBegin r) s = .next t ∧ (t.dev.ring r).drops = (g.drops + 1) % 2 ^ 32 ∧ t.dev.is VLT_FLAGS.DROPPED = true
          ∧ (t.dev.ring r).work = some ⟨o.frame, o.stream, o.tick, o.head, g.dataWr, 0, false, false, true⟩
          ∧ (t.dev.ring r).dataWr = g.dataWr ∧ (t.dev.ring r).entWr = g.entWr ∧ (t.dev.ring r).entries = g.entries
          ∧ t.dev.ntq.input = s.dev.ntq.input ++ (if s.dev.since (.ringDrop r) (ms 1)
              then [⟨.alert, idVLT, 0x012, word (r.val * 2 ^ 24 + Nat.min (2 ^ 24 - 1) (g.dropsTold + 1)), s.dev.time⟩] else [])
          ∧ t.dev.get64 VLT_DROP_CNT.addr = (s.dev.get64 VLT_DROP_CNT.addr + 1) % 2 ^ 64
          ∧ s.Keeps t fun a => a = VLT_FLAGS.addr ∨ a = VLT_DROP_CNT.addr ∨ a = VLT_DROP_CNT.addr + 4))
    ∧ ∀ w o, g.work = some w → s.dev.workStream w = some o → w.dropped = false →
      (∀ n, w.cut = false → let l := (o.bytes.drop w.written).take n
        (l ≠ [] → l.length ≤ g.free →
          ∃ t, exec (.ringPayloadWrite r n) s = .next t
            ∧ (∀ i b, l[i]? = some b → Vault.byte t.vault (g.dataAddr (g.dataWr + i)) = b)
            ∧ t.dev.ring r = { g with dataWr := g.dataWr + l.length, work := some { w with written := w.written + l.length } }
            ∧ s.KeepsBut t (fun a => ∃ i < l.length, a = g.dataAddr (g.dataWr + i)) fun _ => False)
        ∧ (g.state = .post → g.free < l.length →
          ∃ t, exec (.ringPayloadWrite r n) s = .next t
            ∧ (∀ i b, i < g.free → l[i]? = some b → Vault.byte t.vault (g.dataAddr (g.dataWr + i)) = b)
            ∧ t.dev.ring r = { g with dataWr := g.dataWr + g.free, work := some { w with written := w.written + g.free, cut := true } }
            ∧ t.dev.is VLT_FLAGS.TOO_SMALL = true
            ∧ t.dev.get64 VLT_TOO_SMALL_CNT.addr = (s.dev.get64 VLT_TOO_SMALL_CNT.addr + 1) % 2 ^ 64
            ∧ t.dev.ntq.input = s.dev.ntq.input ++ [⟨.alert, idVLT, 0x016, word (r.val * 2 ^ 24 + g.entWr % 2 ^ 24), s.dev.time⟩]
            ∧ s.KeepsBut t (fun a => ∃ i < g.free, a = g.dataAddr (g.dataWr + i))
                fun a => a = VLT_FLAGS.addr ∨ a = VLT_TOO_SMALL_CNT.addr ∨ a = VLT_TOO_SMALL_CNT.addr + 4))
      ∧ ∀ e, s.dev.clr.queue.find? (fun e => e.frame = w.frame && e.stream = w.stream) = some e → o.complete = true →
        w.cut = true ∨ o.bytes.length ≤ w.written →
        let own := e.flags ||| (if w.slid then 0x10 else 0)
        let id := slice own 16 8
        let fl := if w.cut then (own ||| 0x20) - id * 2 ^ 16 + s.dev.faultBlock (bit own 5) e.faultAt id idVLT * 2 ^ 16 else own
        let bytes := if e.bytesFailed then 2 ^ 32 - 1 else w.written
        let after := { g with
          work := none, entWr := g.entWr + 1, dataWr := Dev.round64 g.dataWr
          entries := g.entries ++ [⟨g.entWr, w.start, w.written, w.tick, false⟩]
          postDone := if g.state = .post then g.postDone + 1 else g.postDone }
        ∃ t, exec (.entryWrite r) s = .next t
          ∧ (∀ i < 64, Vault.byte t.vault (g.entryAddr g.entWr + i) = (entryBytes e fl bytes (g.dataAddr w.start)).getD i 0)
          ∧ (g.state ≠ .post ∨ g.postDone + 1 < g.post → t.dev.ring r = after ∧ t.dev.reg VLT_FLAGS.addr = s.dev.reg VLT_FLAGS.addr)
          ∧ (g.state = .post → g.post ≤ g.postDone + 1 → t.dev.ring r = { after with state := .held } ∧ t.dev.is VLT_FLAGS.HELD = true
            ∧ t.dev.ntq.input = s.dev.ntq.input
              ++ [⟨.event, idVLT, 0x011, word (r.val * 2 ^ 24 + Nat.min (2 ^ 24 - 1) (g.postDone + 1)), s.dev.time⟩])
          ∧ (∀ q ∈ (t.dev.column w.head).queue, q.frame = w.frame → q.stream = w.stream → r.val ∉ q.rings)
          ∧ s.KeepsBut t (fun a => g.entryAddr g.entWr ≤ a ∧ a < g.entryAddr g.entWr + 64) (· = VLT_FLAGS.addr)

/-- a commit waits for the end of its cycle with its groups, the last tick begun and its hop count, and acts there, behind the ARMs of the cycle:
it gives each armed record ring of its groups the tick, PRE and POST; with the trigger record there it moves the mark
at once, and enters HELD where POST records are already written; with POST 0 and the trigger record in progress it enters HELD and drops that
record, which goes back to its start; a frame that is being dropped is no trigger record; elsewhere it reports COMMIT_IGNORED; ARM by a write
or by the task releases every record written and leaves the entry number, its MARK_DATA the start of a record in progress; the overdraft mover
writes a whole record and its
entry, marked OVERDRAFT and CONTAINED with its new LOCATION, into the overdraft ring and moves the source's mark past it, or, without room for
the whole payload and RESERVE, reports OVD_FULL and waits until that ring's mark has changed; a replay source takes none; the view latches the
selected ring's state and counts. What the mover takes for room, MARK_DATA of a ring armed with a record in progress, and what stays of a trigger
record under POST 0 are the model's readings (log entries 35, 106 and 107) (R220, R256-R258, R262, R263, R265, R267, R269, R378). -/
def Obligations.RingCommands : Prop :=
  ∀ (s : State) (r : Fin 64), s.Ready →
    let g := s.dev.ring r
    let pre := s.dev.forceGet (VLT_RING_CFG.PRE r)
    let post := s.dev.forceGet (VLT_RING_TRIG.POST r)
    (∀ groups : BitVec 8, groups ≠ 0 →
      let tick := s.dev.get64 CAD_TICK.addr
      (∀ q : Requester, s.dev.Admits q VLT_COMMIT.addr →
        ∃ t, exec (.ringCommitRequest (.write q) groups) s = .next t ∧ t.dev.ntq = s.dev.ntq
          ∧ t.dev.vlt = { s.dev.vlt with commits := s.dev.vlt.commits ++ [⟨groups.toNat, tick, s.dev.evr.hop⟩] } ∧ s.Keeps t fun _ => False)
      ∧ ((∀ i : Fin 8, bit groups.toNat i = true → s.dev.Causes .task 0 (0x060 + i)) →
        ∃ t, exec (.ringCommitRequest .task groups) s = .next t ∧ t.dev.ntq = s.dev.ntq
          ∧ t.dev.vlt = { s.dev.vlt with
              commits := s.dev.vlt.commits ++ ((List.range 8).filter (bit groups.toNat)).map fun i => ⟨2 ^ i, tick, 1⟩ }
          ∧ s.Keeps t fun _ => False))
    ∧ (∀ x : RingCommit, s.pending = [] → s.dev.vlt.commits = [x] → g.role = 0 → bit x.groups (s.dev.ringGroup r) = true →
      let begun (n : Nat) : Prop := x.tick = 2 ^ 64 - 1 ∨ x.tick ≤ n
      let pushed (t : State) (n : Notice) : Prop := ∃ l l', t.dev.ntq.input = s.dev.ntq.input ++ l ++ n :: l'
      ∃ t, step s = .next t ∧ t.dev.vlt.commits = []
        ∧ (g.state = .armed → g.commitWait = false →
          (g.entries = [] → (∀ w, g.work = some w → w.dropped = true ∨ ¬ begun w.tick) →
            t.dev.ring r = { g with commitWait := true, trigTick := x.tick, pre := pre, post := post, hop := x.hop })
          ∧ (∀ e, g.entries = [e] → begun e.tick →
            let keep := Nat.max g.markEnt (e.num - pre)
            (t.dev.ring r).trigEnt = some e.num ∧ (t.dev.ring r).markEnt = keep ∧ (t.dev.ring r).preHeld = e.num - keep
            ∧ (t.dev.ring r).postDone = 1 ∧ (t.dev.ring r).commitWait = false ∧ (e.num = g.markEnt → (t.dev.ring r).entries = [e])
            ∧ ((t.dev.ring r).state = if post ≤ 1 then .held else .post) ∧ (post ≤ 1 → t.dev.is VLT_FLAGS.HELD = true)
            ∧ pushed t ⟨.event, idVLT, 0x010, word (r.val * 2 ^ 24 + Nat.min (2 ^ 24 - 1) (e.num - keep)), s.dev.time⟩)
          ∧ ∀ w, g.entries = [] → g.work = some w → w.dropped = false → begun w.tick → post = 0 →
            (t.dev.ring r).state = .held ∧ (t.dev.ring r).trigEnt = some g.entWr
            ∧ (t.dev.ring r).work = some { w with dropped := true } ∧ (t.dev.ring r).dataWr = w.start
            ∧ (t.dev.ring r).drops = (g.drops + 1) % 2 ^ 32 ∧ t.dev.is VLT_FLAGS.HELD = true ∧ t.dev.is VLT_FLAGS.DROPPED = true)
        ∧ (g.state = .post ∨ g.state = .held ∨ (g.state = .armed ∧ g.commitWait = true) →
          t.dev.ring r = g ∧ t.dev.is VLT_FLAGS.COMMIT_IGNORED = true
            ∧ pushed t ⟨.info, idVLT, 0x01E, word (r.val * 2 ^ 24), s.dev.time⟩))
    ∧ (g.state = .armed ∨ g.state = .post ∨ g.state = .held → (∀ e ∈ g.entries, e.num < g.entWr) →
      let armed (t : State) : Prop := t.dev.ring r = { g with
          state := .armed, entries := [], markEnt := g.entWr, markData := (match g.work with | some w => w.start | none => g.dataWr)
          commitWait := false, slidTold := false }
        ∧ t.dev.vlt.commits = s.dev.vlt.commits ∧ s.Keeps t fun _ => False
      (∀ q : Requester, s.dev.Admits q VLT_ARM_LO.addr → s.dev.Admits q VLT_ARM_HI.addr →
        ∃ t, exec (.ringArm (.write q) (decide (32 ≤ r.val)) (1#32 <<< (r.val % 32))) s = .next t ∧ armed t)
      ∧ ∀ (hi : Bool) (groups : Word), bit groups.toNat (s.dev.ringGroup r) = true →
        (∀ i : Fin 8, bit groups.toNat i = true → s.dev.Causes .task 0 (0x068 + i)) → ∃ t, exec (.ringArm .task hi groups) s = .next t ∧ armed t)
    ∧ (∀ (q : Fin 64) (e : RingEntry), s.dev.overdraft = some q.val → q ≠ r → g.orphaned = true → g.entries = [e] →
      (∀ x : Fin 64, x ≠ r → ((s.dev.ring x).orphaned && !(s.dev.ring x).entries.isEmpty) = false) →
      let o := s.dev.ring q
      let room : Prop := o.slotFree = true ∧ (e.bytes = 0 ∨ Nat.max (s.dev.reserve q) (Dev.round64 e.bytes) ≤ o.free)
      (s.dev.isSource q = false → g.blockedAt ≠ some o.markEnt → room →
        ∃ t, exec .overdraftMove s = .next t
          ∧ (∀ i < e.bytes, Vault.byte t.vault (o.dataAddr (o.dataWr + i)) = Vault.byte s.vault (g.dataAddr (e.start + i)))
          ∧ (∀ i < 56, i < 4 ∨ 8 ≤ i → Vault.byte t.vault (o.entryAddr o.entWr + i) = Vault.byte s.vault (g.entryAddr e.num + i))
          ∧ Vault.num t.vault (o.entryAddr o.entWr + 4) 4 = Vault.num s.vault (g.entryAddr e.num + 4) 4 ||| 0x600
          ∧ Vault.num t.vault (o.entryAddr o.entWr + 56) 8 = o.dataAddr o.dataWr % 2 ^ 64
          ∧ t.dev.ring q = { o with
              entries := o.entries ++ [⟨o.entWr, o.dataWr, e.bytes, e.tick, e.overrun⟩], entWr := o.entWr + 1
              dataWr := o.dataWr + Dev.round64 e.bytes }
          ∧ (t.dev.ring r).markEnt = e.num + 1 ∧ (t.dev.ring r).entries = []
          ∧ t.dev.get64 VLT_OVD_MOVE_CNT.addr = (s.dev.get64 VLT_OVD_MOVE_CNT.addr + 1) % 2 ^ 64
          ∧ s.KeepsBut t (fun a => (o.entryAddr o.entWr ≤ a ∧ a < o.entryAddr o.entWr + 64) ∨ ∃ i < e.bytes, a = o.dataAddr (o.dataWr + i))
              fun a => a = VLT_OVD_MOVE_CNT.addr ∨ a = VLT_OVD_MOVE_CNT.addr + 4)
      ∧ (s.dev.isSource q = false → g.blockedAt ≠ some o.markEnt → ¬ room →
        ∃ t, exec .overdraftMove s = .next t ∧ t.dev.ring q = o ∧ t.dev.ring r = { g with blockedAt := some o.markEnt, ovdTold := true }
          ∧ t.dev.is VLT_FLAGS.OVD_FULL = true
          ∧ t.dev.ntq.input = s.dev.ntq.input
            ++ (if g.ovdTold then [] else [⟨.alert, idVLT, 0x018, word (q.val * 2 ^ 24), s.dev.time⟩]) ∧ s.Keeps t (· = VLT_FLAGS.addr))
      ∧ (s.dev.isSource q = true ∨ g.blockedAt = some o.markEnt →
        ∃ t, exec .overdraftMove s = .next t ∧ t.dev.vlt = s.dev.vlt ∧ s.Keeps t fun _ => False))
    ∧ ∀ q : Requester, s.dev.Admits q VLT_RSEL.addr →
      ∃ t, exec (.ringViewLatch q (BitVec.ofNat 6 r.val)) s = .next t ∧ t.dev.get VLT_RSEL.RING = r.val
        ∧ t.dev.reg VLT_RV_STAT.addr = word ((if s.dev.isSource r then 6 else g.code) + 8 * ofBool g.orphaned + 16 * ofBool g.commitWait)
        ∧ t.dev.get64 VLT_RV_DATA_WR.addr = g.dataWr % 2 ^ 64 ∧ t.dev.get64 VLT_RV_MARK_DATA.addr = g.markData % 2 ^ 64
        ∧ t.dev.get64 VLT_RV_ENT_WR.addr = g.entWr % 2 ^ 64 ∧ t.dev.get64 VLT_RV_MARK_ENT.addr = g.markEnt % 2 ^ 64
        ∧ t.dev.get64 VLT_RV_TRIG_ENT.addr = g.trigEnt.getD (2 ^ 64 - 1) % 2 ^ 64
        ∧ t.dev.get64 VLT_RV_TRIG_TICK.addr = g.trigTick % 2 ^ 64 ∧ t.dev.reg VLT_RV_PRE_HELD.addr = word g.preHeld
        ∧ t.dev.reg VLT_RV_POST_DONE.addr = word g.postDone ∧ t.dev.reg VLT_RV_DROPS.addr = word g.drops
        ∧ t.dev.reg VLT_RV_SLIDES.addr = word g.slides
        ∧ s.Keeps t fun a => VLT_RSEL.addr ≤ a ∧ a ≤ VLT_RV_SLIDES.addr

/-! ### The DMA engine (chapter 10) -/

/-- START of an idle channel fed by registers with an empty shadow set waits for a descriptor, a copy channel fed by a ring in the vault asks
for the slot it holds, a stream channel takes its ring, from a higher-numbered channel that took it in the same cycle too, and halts with code 7
where that cannot run; START elsewhere only sets
BAD_STATE; STOP at a boundary or in HELD stops and pushes CH_STOPPED; between the records of a circular descriptor it is kept and the descriptor
is to end with DONE, and in any other descriptor it is kept for the boundary; ABORT with no response outstanding stops at once, sets STOPPED and
writes code 1 with the residue, over a STOP of the same cycle too, otherwise it waits for the responses of what is sent, in the state it stood in;
a holdoff that has expired sends its signal, or leaves it pending where the vector is held; OWNER keeps
the bits of channels that run. That ABORT sets STOPPED, and the state while it waits, are the model's readings (log entry 34) (R271, R283, R285,
R292, R293, R299, R300, R301, R302, R323). -/
def Obligations.DmaControl : Prop :=
  ∀ (s : State) (ch : Fin 32), s.Ready →
    let y := s.dev.chan ch
    let page (a : Nat) : Prop := a / 0x1000 = 0xA10 + ch.val
    let common (a : Nat) : Prop := a = DMA_RUN.addr ∨ a = DMA_HALTED.addr
    let slots := s.dev.slots ch
    let head := s.dev.get (DMA_CH_DRING_HEAD.HEAD ch)
    let tail := s.dev.get (DMA_CH_DRING_TAIL.TAIL ch)
    let ring := s.dev.get (DMA_CH_CFG.RING ch)
    let fed := s.dev.is (DMA_CH_CFG.FEED ch)
    let alone : Prop := ∀ k ∈ s.dev.streamsOn ring, (s.dev.chan k).startAt ≠ some s.dev.time
    let stopNote : Notice := ⟨.info, idDMA, 0x012, word (ch.val * 2 ^ 24), s.dev.time⟩
    -- no write-back of the channel is made now
    let quiet : Prop := y.backs = [] ∨ (s.dev.contained = true ∧ s.dev.ringBus ch = true)
    (∀ c : Cause, s.dev.Causes c (DMA_CH_CTL.addr ch) (0x080 + ch) →
      (s.dev.chIdle ch = true →
        (s.dev.isStream ch = false → fed = true → s.dev.is (DMA_CH_SH_VALID.VALID ch) = false →
          ∃ t, exec (.dmaStart c ch) s = .next t ∧ t.dev.chState ch = 2 ∧ t.dev.get (DMA_CH_STAT.WAIT_CAUSE ch) = 1
            ∧ t.dev.bitOf DMA_RUN.addr ch = true ∧ t.dev.bitOf DMA_HALTED.addr ch = false
            ∧ (t.dev.chan ch).nextFetch = head ∧ (t.dev.chan ch).desc = none ∧ s.Keeps t fun a => page a ∨ common a)
        ∧ (s.dev.isStream ch = false → fed = false → s.dev.ringBus ch = false → y.reqs = [] → head % slots ≠ tail % slots →
          (head + 1) % slots = tail % slots →
          ∃ t, exec (.dmaStart c ch) s = .next t ∧ t.dev.chState ch = 2 ∧ t.dev.get (DMA_CH_STAT.WAIT_CAUSE ch) = 1
            ∧ (t.dev.chan ch).reqs = [⟨.fetch (head % slots), false, s.dev.ringBase ch + 32 * (head % slots), 32, s.dev.plain, none, 0, 0, false, none⟩]
            ∧ (t.dev.chan ch).nextFetch = tail % slots ∧ s.Keeps t fun a => page a ∨ common a)
        ∧ (s.dev.isStream ch = true → alone → s.dev.ringStarts ch ring = true → (s.dev.ring ring).orphaned = false →
          (fed = true → s.dev.is (DMA_CH_SH_VALID.VALID ch) = false) → (fed = false → head % slots = tail % slots) →
          ∃ t, exec (.dmaStart c ch) s = .next t ∧ t.dev.chState ch = (if fed then 2 else 1) ∧ (t.dev.chan ch).ring = some ring
            ∧ (t.dev.chan ch).desc = none ∧ s.Keeps t fun a => page a ∨ common a)
        ∧ (∀ k : Fin 32, s.dev.isStream ch = true → (s.dev.ring ring).state = .stream → s.dev.isSource ring = false → ch.val < k.val →
          s.dev.streamsOn ring = [k.val] → (s.dev.chan k).startAt = some s.dev.time →
          ∃ t, exec (.dmaStart c ch) s = .next t ∧ t.dev.chState k = 5 ∧ t.dev.is (DMA_CH_FLAGS.HALTED k) = true
            ∧ slice (t.dev.get64 (DMA_CH_STATUS.addr k)) 32 8 = 7 ∧ (t.dev.chan ch).ring = some ring)
        ∧ (s.dev.isStream ch = true → alone → s.dev.ringStarts ch ring = false → y.backs = [] →
          ∃ t, exec (.dmaStart c ch) s = .next t ∧ t.dev.chState ch = 5 ∧ t.dev.is (DMA_CH_FLAGS.HALTED ch) = true
            ∧ t.dev.get64 (DMA_CH_STATUS.addr ch) = 7 * 2 ^ 32
            ∧ t.dev.ntq.input = s.dev.ntq.input ++ [⟨.alert, idDMA, 0x010, word (ch.val * 2 ^ 24 + 7), s.dev.time⟩]
            ∧ s.Keeps t fun a => page a ∨ common a ∨ a / 0x1_0000 = 2))
      ∧ (s.dev.chIdle ch = false →
        ∃ t, exec (.dmaStart c ch) s = .next t ∧ t.dev.is (DMA_CH_FLAGS.BAD_STATE ch) = true ∧ t.dev.chan ch = y
          ∧ s.Keeps t (· = DMA_CH_FLAGS.addr ch)))
    ∧ (∀ c : Cause, s.dev.Causes c (DMA_CH_CTL.addr ch) (0x0A0 + ch) →
      (s.dev.chState ch = 6 ∨ ((s.dev.chState ch = 1 ∨ s.dev.chState ch = 2) ∧ y.aborting = false ∧ y.desc = none) → quiet →
        ∃ t, exec (.dmaStop c ch) s = .next t ∧ t.dev.chState ch = 4 ∧ t.dev.is (DMA_CH_FLAGS.STOPPED ch) = true
          ∧ t.dev.bitOf DMA_RUN.addr ch = false ∧ (t.dev.chan ch).fetched = [] ∧ (t.dev.chan ch).desc = none
          ∧ (∀ q ∈ (t.dev.chan ch).reqs, q.tag ≠ none ∧ (q.dead = true ∨ q.kind = .flush))
          ∧ t.dev.ntq.input = s.dev.ntq.input ++ [stopNote]
          ∧ s.Keeps t fun a => page a ∨ common a ∨ a / 0x1_0000 = 2)
      ∧ (∀ x, s.dev.chState ch = 1 ∨ s.dev.chState ch = 2 → y.aborting = false → y.desc = some x →
        (s.dev.isStream ch = false ∨ x.circ = false ∨ y.recd ≠ none ∨ y.ended ≠ none →
          ∃ t, exec (.dmaStop c ch) s = .next t ∧ t.dev.chState ch = 3 ∧ t.dev.chan ch = { y with stopping := true }
            ∧ t.dev.bitOf DMA_RUN.addr ch = true ∧ t.dev.ntq = s.dev.ntq ∧ s.Keeps t fun a => page a ∨ common a)
        ∧ (s.dev.isStream ch = true → x.circ = true → y.recd = none → y.ended = none →
          ∃ t, exec (.dmaStop c ch) s = .next t ∧ t.dev.chState ch = 3 ∧ t.dev.ntq = s.dev.ntq
            ∧ t.dev.chan ch = { y with stopping := true, ended := some ⟨0, s.dev.streamResidue ch x⟩ } ∧ s.Keeps t fun a => page a ∨ common a)))
    ∧ (∀ r : Requester, s.dev.Admits r (DMA_CH_CTL.addr ch) → y.backs = [] →
      (s.dev.chRuns ch = true ∨ s.dev.chState ch = 6 →
        (s.dev.fmt2 ch = false → (∀ q ∈ y.reqs, q.tag = none) →
          ∃ t, exec (.dmaAbort r ch) s = .next t ∧ t.dev.chState ch = 4 ∧ t.dev.is (DMA_CH_FLAGS.STOPPED ch) = true
            ∧ t.dev.get64 (DMA_CH_STATUS.addr ch) = y.retries % 16 * 2 ^ 40 + 2 ^ 32 + s.dev.abortResidue ch % 2 ^ 32
            ∧ (t.dev.chan ch).desc = none ∧ (t.dev.chan ch).recd = none ∧ (t.dev.chan ch).reqs = []
            ∧ t.dev.ntq.input = s.dev.ntq.input
                ++ [⟨.event, idDMA, 0x011, word (ch.val * 2 ^ 24 + Nat.min (2 ^ 24 - 1) (s.dev.abortResidue ch)), s.dev.time⟩]
            ∧ s.Keeps t fun a => page a ∨ common a ∨ a / 0x1_0000 = 2)
        ∧ ((∃ q ∈ y.reqs, q.tag ≠ none) →
          ∃ t, exec (.dmaAbort r ch) s = .next t ∧ t.dev.chan ch = { y with
              aborting := true, blocked := false, tagless := false
              reqs := (y.reqs.filter (·.tag.isSome)).map fun q => { q with dead := !Dev.isFlush q } }
            ∧ t.dev.ntq = s.dev.ntq ∧ s.Keeps t fun _ => False))
      ∧ (∀ x, s.dev.chState ch = 4 → y.stopped = some (s.dev.time, x) → s.dev.fmt2 ch = false → (∀ q ∈ y.reqs, q.tag = none) →
        ∃ t n, exec (.dmaAbort r ch) s = .next t ∧ t.dev.chState ch = 4
          ∧ slice (t.dev.get64 (DMA_CH_STATUS.addr ch)) 32 8 = 1 ∧ (t.dev.chan ch).desc = none
          ∧ t.dev.ntq.input = s.dev.ntq.input.filter (· != stopNote) ++ [⟨.event, idDMA, 0x011, word (ch.val * 2 ^ 24 + n), s.dev.time⟩]
          ∧ s.Keeps t fun a => page a ∨ common a ∨ a / 0x1_0000 = 2))
    ∧ (∀ at', y.irqDue = some at' → at' ≤ s.dev.time →
      let v := s.dev.get (DMA_CH_IRQ.VECTOR ch)
      ∃ t, exec (.irqHoldoffExpire ch) s = .next t ∧ t.dev.chan ch = { y with irqDue := none }
        ∧ (s.dev.signalled v = false → s.dev.msixEnable = true →
            if s.dev.vectorHeld v then v ∈ t.dev.hep.pba ∧ t.dev.out = s.dev.out
            else t.dev.out = s.dev.out
              ++ [.msix v ((s.dev.msixWord v 0).toNat + (s.dev.msixWord v 1).toNat * 2 ^ 32) (s.dev.msixWord v 2) s.dev.plain])
        ∧ s.Keeps t fun a => a / 0x1_0000 = 2)
    ∧ ∀ (r : Requester) (v : Word), s.dev.Admits r DMA_OWNER.addr →
      ∃ t, exec (.dmaOwnerWrite r v 15#4) s = .next t
        ∧ (∀ c : Fin 32, t.dev.bitOf DMA_OWNER.addr c = if s.dev.chIdle c then v.getLsbD c else s.dev.bitOf DMA_OWNER.addr c)
        ∧ ((∃ c : Fin 32, s.dev.chIdle c = false ∧ v.getLsbD c ≠ s.dev.bitOf DMA_OWNER.addr c) → t.dev.is DMA_FLAGS.BAD_STATE = true)
        ∧ s.Keeps t fun a => a = DMA_OWNER.addr ∨ a = DMA_FLAGS.addr

/-- CFG, the descriptor ring's registers, CIRC and SHUF take a write while the channel is idle and otherwise only set BAD_STATE; HEAD
and TAIL are stored, and a running channel asks for the slot a new TAIL gives it; the shadow set takes writes until VALID is 1, a later one is
refused, counted and flagged, as is one in the cycle in which the set is consumed; a FORMAT, an input format and a size outside what R272, R276,
R280 and R290 list stay as they were, with BAD_STATE; a stream channel at a boundary consumes a set made VALID, and one that breaks R275 halts it with code 4; PACK and
LACK only move up, and not above PPOS and LPOS (R272, R275-R277, R280, R287, R290, R300). -/
def Obligations.DmaRegisters : Prop :=
  ∀ (s : State) (ch : Fin 32) (r : Requester) (v : Word), s.Ready → (∀ off < 0x1000, s.dev.Admits r (Dev.chanOff ch off)) →
    let y := s.dev.chan ch
    let late (i : Instr) : Prop := ∃ t, exec i s = .next t ∧ t.dev.is (DMA_CH_FLAGS.SHADOW_LATE ch) = true
      ∧ t.dev.get64 (DMA_CH_LATE_CNT.addr ch) = (s.dev.get64 (DMA_CH_LATE_CNT.addr ch) + 1) % 2 ^ 64
      ∧ s.Keeps t fun a => a = DMA_CH_FLAGS.addr ch ∨ a = DMA_CH_LATE_CNT.addr ch ∨ a = DMA_CH_LATE_CNT.addr ch + 4
    let fmt := v.toNat / 16 % 4
    let bad (t : State) : Prop := t.dev.is (DMA_CH_FLAGS.BAD_STATE ch) = true
    (s.dev.chIdle ch = true →
      ∃ t, exec (.channelConfigWrite r ch 0x004#12 v 15#4) s = .next t ∧ t.dev.is (DMA_CH_CFG.STREAM ch) = v.getLsbD 2
        ∧ t.dev.is (DMA_CH_CFG.FEED ch) = v.getLsbD 0 ∧ t.dev.get (DMA_CH_CFG.FMT ch) = (if fmt = 1 ∨ fmt = 2 then fmt else s.dev.get (DMA_CH_CFG.FMT ch))
        ∧ t.dev.get (DMA_CH_CFG.RETRY ch) = v.toNat / 2 ^ 12 % 16 ∧ t.dev.get (DMA_CH_CFG.RING ch) = v.toNat / 2 ^ 20 % 64
        ∧ ((fmt = 0 ∨ fmt = 3) → fmt ≠ s.dev.get (DMA_CH_CFG.FMT ch) → bad t)
        ∧ s.Keeps t fun a => a = Dev.chanOff ch 0x004 ∨ (fmt = 0 ∨ fmt = 3) ∧ a = DMA_CH_FLAGS.addr ch)
    ∧ (s.dev.chIdle ch = true → ∃ t, exec (.channelConfigWrite r ch 0x00C#12 v 15#4) s = .next t
        ∧ t.dev.reg (Dev.chanOff ch 0x00C) = v ∧ s.Keeps t (· = Dev.chanOff ch 0x00C))
    ∧ (s.dev.chIdle ch = true → ∃ t, exec (.channelConfigWrite r ch 0x008#12 v 15#4) s = .next t
        ∧ t.dev.get (DMA_CH_DRING_LO.ADDR ch) = v.toNat / 4096 ∧ t.dev.ringBus ch = v.getLsbD 0 ∧ s.Keeps t (· = Dev.chanOff ch 0x008))
    ∧ (s.dev.chIdle ch = true →
      let at' (off : Nat) (t : State) : Prop := s.Keeps t fun a => a = Dev.chanOff ch off ∨ a = DMA_CH_FLAGS.addr ch
      -- a field that takes a value within its range, and keeps its own with BAD_STATE otherwise
      let taken (t : State) (f : Bits) (n : Nat) (ok : Prop) : Prop :=
        (ok → t.dev.get f = n) ∧ (¬ ok → t.dev.get f = s.dev.get f ∧ (n ≠ s.dev.get f → bad t))
      (∃ t, exec (.channelConfigWrite r ch 0x010#12 v 15#4) s = .next t ∧ at' 0x010 t
        ∧ taken t (DMA_CH_DRING_SIZE.LOG2 ch) (v.toNat % 32) (2 ≤ v.toNat % 32 ∧ v.toNat % 32 ≤ 16))
      ∧ (∃ t, exec (.channelConfigWrite r ch 0x01C#12 v 15#4) s = .next t ∧ at' 0x01C t
        ∧ (let n := v.toNat % 64; taken t (DMA_CH_CIRC.DST_LOG2 ch) n (12 ≤ n ∧ n ≤ 40))
        ∧ let n := v.toNat / 2 ^ 16 % 64; taken t (DMA_CH_CIRC.LDST_LOG2 ch) n (12 ≤ n ∧ n ≤ 40))
      ∧ ∃ t, exec (.channelConfigWrite r ch 0x020#12 v 15#4) s = .next t ∧ at' 0x020 t
        ∧ (let n := v.toNat / 2 ^ 28 % 8; taken t (DMA_CH_SHUF.IN_FMT ch) n (n < 5)) ∧ t.dev.get (DMA_CH_SHUF.WIDTH ch) = v.toNat % 2 ^ 15
        ∧ t.dev.get (DMA_CH_SHUF.FIRST ch) = v.toNat / 2 ^ 24 % 16 ∧ t.dev.get (DMA_CH_SHUF.NPL ch) = v.toNat / 2 ^ 20 % 16)
    ∧ (s.dev.chIdle ch = false → ∀ off : BitVec 12, [0x004#12, 0x008#12, 0x00C#12, 0x010#12, 0x01C#12, 0x020#12].contains off = true →
      ∃ t, exec (.channelConfigWrite r ch off v 15#4) s = .next t ∧ t.dev.is (DMA_CH_FLAGS.BAD_STATE ch) = true
        ∧ s.Keeps t (· = DMA_CH_FLAGS.addr ch))
    ∧ (let slots := s.dev.slots ch
      let stored (t : State) : Prop := t.dev.get (DMA_CH_DRING_TAIL.TAIL ch) = v.toNat % 2 ^ 16 ∧ s.Keeps t (· = DMA_CH_DRING_TAIL.addr ch)
      ((s.dev.chState ch ≠ 1 ∧ s.dev.chState ch ≠ 2) ∨ (y.desc ≠ none ∧ s.dev.is (DMA_CH_CFG.FEED ch) = true) →
        ∃ t, exec (.dringTailWrite r ch v 15#4) s = .next t ∧ stored t ∧ t.dev.dma = s.dev.dma)
      ∧ (s.dev.chState ch = 1 ∨ s.dev.chState ch = 2 → y.desc ≠ none → s.dev.is (DMA_CH_CFG.FEED ch) = false → s.dev.ringBus ch = false →
        y.aborting = false → y.fetched = [] → y.reqs = [] → y.nextFetch % slots ≠ v.toNat % 2 ^ 16 % slots →
        (y.nextFetch + 1) % slots = v.toNat % 2 ^ 16 % slots →
        let slot := y.nextFetch % slots
        ∃ t, exec (.dringTailWrite r ch v 15#4) s = .next t ∧ stored t ∧ t.dev.chan ch = { y with
          nextFetch := v.toNat % 2 ^ 16 % slots
          reqs := [⟨.fetch slot, false, s.dev.ringBase ch + 32 * slot, 32, s.dev.plain, none, 0, 0, false, none⟩] }))
    ∧ (s.dev.chIdle ch = true → ∃ t, exec (.dringHeadWrite r ch v 15#4) s = .next t
        ∧ t.dev.get (DMA_CH_DRING_HEAD.HEAD ch) = v.toNat % 2 ^ 16 ∧ s.Keeps t (· = DMA_CH_DRING_HEAD.addr ch))
    ∧ (s.dev.shadowLocked ch = false → v.getLsbD 0 = true →
      (s.dev.is (DMA_CH_CFG.FEED ch) = false ∨ y.desc ≠ none →
        ∃ t, exec (.shadowValidWrite r ch v 15#4) s = .next t ∧ t.dev.is (DMA_CH_SH_VALID.VALID ch) = true ∧ t.dev.dma = s.dev.dma
          ∧ s.Keeps t (· = DMA_CH_SH_VALID.addr ch))
      ∧ (s.dev.is (DMA_CH_CFG.FEED ch) = true → y.desc = none → y.stopping = false → y.aborting = false → s.dev.chState ch = 1 ∨ s.dev.chState ch = 2 →
        let x := s.dev.shadowDesc ch
        let page (a : Nat) : Prop := a / 0x1000 = 0xA10 + ch.val ∨ a = DMA_RUN.addr ∨ a = DMA_HALTED.addr
        (s.dev.descOk ch x = true → s.dev.isStream ch = true →
          ∃ t, exec (.shadowValidWrite r ch v 15#4) s = .next t ∧ t.dev.is (DMA_CH_SH_VALID.VALID ch) = false ∧ t.dev.chState ch = 1
            ∧ t.dev.shadowLocked ch = true
            ∧ (t.dev.chan ch).desc = some x ∧ s.Keeps t page)
        ∧ (s.dev.descOk ch x = false → y.backs = [] →
          ∃ t, exec (.shadowValidWrite r ch v 15#4) s = .next t ∧ t.dev.is (DMA_CH_SH_VALID.VALID ch) = false ∧ t.dev.chState ch = 5
            ∧ t.dev.is (DMA_CH_FLAGS.HALTED ch) = true ∧ slice (t.dev.get64 (DMA_CH_STATUS.addr ch)) 32 8 = 4
            ∧ t.dev.ntq.input = s.dev.ntq.input ++ [⟨.alert, idDMA, 0x010, word (ch.val * 2 ^ 24 + 4), s.dev.time⟩]
            ∧ s.Keeps t fun a => page a ∨ a / 0x1_0000 = 2)))
    ∧ (s.dev.shadowLocked ch = true → v.getLsbD 0 = true → late (.shadowValidWrite r ch v 15#4))
    ∧ (∀ off : BitVec 12, off.toNat % 4 = 0 → 0x080 ≤ off.toNat → off.toNat < 0x0A0 →
      (s.dev.shadowLocked ch = false → ∃ t, exec (.shadowFieldWrite r ch off v 15#4) s = .next t
        ∧ t.dev.reg (Dev.chanOff ch off.toNat) = v ∧ s.Keeps t (· = Dev.chanOff ch off.toNat))
      ∧ (s.dev.shadowLocked ch = true → late (.shadowFieldWrite r ch off v 15#4)))
    ∧ ∀ lack hi : Bool,
      let a := if lack then DMA_CH_LACK.addr ch else DMA_CH_PACK.addr ch
      let top := s.dev.get64 (if lack then DMA_CH_LPOS.addr ch else DMA_CH_PPOS.addr ch)
      let n := if hi then (s.dev.reg a).toNat + v.toNat * 2 ^ 32 else v.toNat + (s.dev.reg (a + 4)).toNat * 2 ^ 32
      (s.dev.get64 a ≤ n → n ≤ top → ∃ t, exec (.flowAckWrite r ch lack hi v 15#4) s = .next t ∧ t.dev.get64 a = n
        ∧ s.Keeps t fun b => b = a ∨ b = a + 4 ∨ b = DMA_CH_STAT.addr ch ∨ b = DMA_RUN.addr ∨ b = DMA_HALTED.addr)
      ∧ (n < s.dev.get64 a ∨ top < n → ∃ t, exec (.flowAckWrite r ch lack hi v 15#4) s = .next t
        ∧ t.dev.is (DMA_CH_FLAGS.BAD_STATE ch) = true ∧ t.dev.get64 a = s.dev.get64 a ∧ s.Keeps t (· = DMA_CH_FLAGS.addr ch))

/-- a descriptor from the bus joins those fetched, in the order in which they were asked for; the bytes of a bus read go to their destination
in the vault and nowhere else; a descriptor, reshuffled or not, all of whose requests have their responses completes with code 0, under FORMAT 2
with its status in its slot, and the channel waits for the next; a request answered with an
error, of several the one that is named, is sent again with a new tag where RETRY allows, or waits for a tag, and once that succeeds it is counted
as a transient error; otherwise the error is logged and the channel
halts with code 2, or 5 for a fetch, the address and the residue (R276, R278-R280, R282, R283, R291, R294, R295, R318, R417). -/
def Obligations.DmaCopy : Prop :=
  ∀ (s : State) (ch : Fin 32), s.Ready → (∀ c : Fin 32, (s.dev.chan c).tagless = false) →
    let y := s.dev.chan ch
    let page (a : Nat) : Prop := a / 0x1000 = 0xA10 + ch.val
    (∀ q n slot rest data, y.reqs = q :: rest → q ∉ rest → (∀ z ∈ rest, z.data = none) → q.kind = .fetch slot → q.bus = true → q.tag = some n →
      q.dead = false → q.data = none → q.len = 32 → data.length = 32 → y.desc ≠ none ∨ s.dev.isStream ch = true → s.dev.chState ch ≠ 2 →
      ∃ t, exec (.descriptorFetch ch data) s = .next t ∧ (t.dev.chan ch).reqs = rest
        ∧ (t.dev.chan ch).fetched = y.fetched ++ [⟨some slot, field data 0 8, field data 8 8, field data 16 4, field data 20 4, field data 24 8⟩]
        ∧ t.dev.get64 DMA_BUS_RD_CNT.addr = (s.dev.get64 DMA_BUS_RD_CNT.addr + 32) % 2 ^ 64
        ∧ (let count := if 0 < q.tries then 1 else 0
          t.dev.get64 (DMA_CH_RETRY_CNT.addr ch) = (s.dev.get64 (DMA_CH_RETRY_CNT.addr ch) + count) % 2 ^ 64
          ∧ t.dev.get64 DMA_TRANSIENT_CNT.addr = (s.dev.get64 DMA_TRANSIENT_CNT.addr + count) % 2 ^ 64)
        ∧ s.Keeps t fun a => a = DMA_BUS_RD_CNT.addr ∨ a = DMA_BUS_RD_CNT.addr + 4 ∨ a = HEP_TAG_STAT.addr
          ∨ 0 < q.tries ∧ (page a ∨ a = DMA_TRANSIENT_CNT.addr ∨ a = DMA_TRANSIENT_CNT.addr + 4))
    ∧ (∀ q0 q n slot data, y.reqs = [q0, q] → q0.kind = .fetch slot → q0.bus = true → q0.tag = none → q0.dead = false → q0.data = none →
      (∃ slot', q.kind = .fetch slot') → q.bus = true → q.tag = some n → q.dead = false → q.data = none → q.tries = 0 → data.length = q.len →
      ∃ t, exec (.descriptorFetch ch data) s = .next t ∧ t.dev.chan ch = { y with reqs := [q0, { q with tag := none, data := some data }] })
    ∧ (∀ q n x data, y.reqs = [q] → q.kind = .read → q.bus = true → q.tag = some n → q.dead = false → q.data = none → data.length = q.len →
      y.desc = some x → x.dstBus = false → x.circ = false → x.shuf = 0 → y.got = [] → y.gotAt = 0 → y.written = 0 → y.asked = x.len →
      x.len = q.len → y.failed = none → s.dev.isStream ch = false → s.dev.chRuns ch = true → 0 < x.len → x.len ≤ 512 → x.len % 64 = 0 →
      x.dst % 64 = 0 → x.dst % 4096 + x.len ≤ 4096 → s.dev.reaches .dma true x.dst x.len = true →
      ∃ t, exec (.busReadCompletion ch data) s = .next t
        ∧ (∀ i b, data[i]? = some b → Vault.byte t.vault (x.dst + i) = b)
        ∧ (t.dev.chan ch).written = x.len ∧ (t.dev.chan ch).reqs = []
        ∧ t.dev.get64 (DMA_CH_BYTES_CNT.addr ch) = (s.dev.get64 (DMA_CH_BYTES_CNT.addr ch) + x.len) % 2 ^ 64
        ∧ s.KeepsBut t (fun a => x.dst ≤ a ∧ a < x.dst + x.len) fun a => page a ∨ a / 0x1_0000 = 0xA0 ∨ a = HEP_TAG_STAT.addr)
    ∧ (∀ x, y.desc = some x → y.reqs = [] → x.ioc = false → (let (g, h) := s.dev.copyShape ch x; g.taken h ≤ y.asked ∧ g.lenOut h = y.written) →
      y.ended = none → y.failed = none → y.stopping = false → y.aborting = false → y.backs = [] → s.dev.isStream ch = false →
      s.dev.chState ch = 1 ∨ s.dev.chState ch = 2 →
      let done (t : State) (word' : Nat) : Prop := t.dev.get64 (DMA_CH_STATUS.addr ch) = word'
        ∧ t.dev.get64 (DMA_CH_DESC_CNT.addr ch) = (s.dev.get64 (DMA_CH_DESC_CNT.addr ch) + 1) % 2 ^ 64
        ∧ t.dev.is (DMA_CH_FLAGS.DESC_DONE ch) = true ∧ (t.dev.chan ch).desc = none ∧ t.dev.chState ch = 2
        ∧ t.dev.get (DMA_CH_STAT.WAIT_CAUSE ch) = 1 ∧ t.dev.evr.input = s.dev.evr.input ++ [s.dev.sourceEvent (0xA0 + ch.val) y.hop]
      (x.slot = none → s.dev.fmt2 ch = false → s.dev.is (DMA_CH_CFG.FEED ch) = true → s.dev.is (DMA_CH_SH_VALID.VALID ch) = false →
        ∃ t, exec (.descriptorComplete ch) s = .next t ∧ done t (y.retries % 16 * 2 ^ 40)
          ∧ s.Keeps t fun a => page a ∨ a = DMA_RUN.addr ∨ a = DMA_HALTED.addr)
      ∧ ∀ n, x.slot = some n → s.dev.fmt2 ch = true → x.lflush = false → s.dev.ringBus ch = false → s.dev.is (DMA_CH_CFG.FEED ch) = false →
        y.fetched = [] → s.dev.slotLeft ch = false →
        let a := s.dev.ringBase ch + 32 * n + 0x18
        let w := x.tag * 2 ^ 48 + y.retries % 16 * 2 ^ 40
        s.dev.reaches .dma true a 8 = true →
        ∃ t, exec (.descriptorComplete ch) s = .next t ∧ done t w ∧ Vault.num t.vault a 8 = w
          ∧ (s.dev.softWrote (DMA_CH_DRING_HEAD.HEAD ch) = false → t.dev.get (DMA_CH_DRING_HEAD.HEAD ch) = (n + 1) % s.dev.slots ch % 2 ^ 16)
          ∧ s.KeepsBut t (fun b => a ≤ b ∧ b < a + 8) fun b => page b ∨ b / 0x1_0000 = 0xA0)
    ∧ ∀ q n nth, q.bus = true → q.tag = some n → q.dead = false → q.data = none → (∀ z ∈ y.reqs, z.tag ≠ none ∨ z.data ≠ none) →
      (q.kind = .read → (y.reqs.filter fun r => r.tag.isSome && Dev.isRead r)[nth]? = some q →
        q.tries < s.dev.get (DMA_CH_CFG.RETRY ch) → s.dev.contained = false → s.dev.busHeld = false →
        let again (tag : Option Nat) : List ChanReq := y.reqs.map fun r => if r = q then { q with tag := tag, tries := q.tries + 1, err := 2 } else r
        (∀ m, (y.reqs.filter (· = q)).length = 1 → (s.dev.dropTag n).freeTag = some m →
          ∃ t, exec (.busError ch 2#3 false nth) s = .next t
            ∧ t.dev.out = s.dev.out ++ [.memRead q.addr q.len (s.dev.attrOf q.attr.ro q.attr.ns q.attr.ido)]
            ∧ t.dev.chan ch = { y with reqs := again (some m), retries := q.tries + 1 } ∧ s.Keeps t (· = HEP_TAG_STAT.addr))
        ∧ ((s.dev.dropTag n).freeTag = none →
          ∃ t, exec (.busError ch 2#3 false nth) s = .next t ∧ t.dev.out = s.dev.out
            ∧ t.dev.chan ch = { y with reqs := again none, retries := q.tries + 1, tagless := true } ∧ s.Keeps t (· = HEP_TAG_STAT.addr)))
      ∧ (let halts (t : State) (code residue : Nat) : Prop := t.dev.chState ch = 5 ∧ t.dev.bitOf DMA_HALTED.addr ch = true
          ∧ t.dev.is (DMA_CH_FLAGS.HALTED ch) = true ∧ t.dev.get64 (DMA_CH_ERR_ADDR.addr ch) = q.addr % 2 ^ 64
          ∧ t.dev.reg (DMA_CH_ERR_INFO.addr ch) = 5#32
          ∧ t.dev.get64 (DMA_CH_STATUS.addr ch) = q.tries % 16 * 2 ^ 40 + code * 2 ^ 32 + residue % 2 ^ 32
          ∧ t.dev.mgt.logCount = s.dev.mgt.logCount + 1
          ∧ (∃ x, t.dev.ntq.input = s.dev.ntq.input
            ++ [⟨.info, idMGT, 0x020, x, s.dev.time⟩, ⟨.alert, idDMA, 0x010, word (ch.val * 2 ^ 24 + code), s.dev.time⟩])
          ∧ s.Keeps t fun a => page a ∨ a / 0x1_0000 = 0xA0 ∨ a / 0x1_0000 = 2
        s.dev.get (DMA_CH_CFG.RETRY ch) ≤ q.tries → s.dev.chIdle ch = false → y.aborting = false → y.backs = [] → s.dev.fmt2 ch = false →
        (∀ x, q.kind = .read → (y.reqs.filter fun r => r.tag.isSome && Dev.isRead r)[nth]? = some q → y.desc = some x →
          ∃ t, exec (.busError ch 2#3 false nth) s = .next t ∧ halts t 2 (x.len - (q.addr - x.src)))
        ∧ ∀ slot, q.kind = .fetch slot → (y.reqs.filter fun r => r.tag.isSome && Dev.isFetch r)[nth]? = some q →
          ∃ t, exec (.busError ch 2#3 true nth) s = .next t ∧ halts t 5 0)

/-- a stream channel waits while the ring has published less than its next request, and then writes that request of its record's payload,
  reshuffled or not, to the bus, within its descriptor or, under CIRC, at its place in the circular buffer, where it waits for room; a descriptor that
  is full while the record goes on is done; behind all of the payload goes the 64-byte copy of the entry with LOCATION and FLAGS in their places,
  under LFLUSH after a zero-length read behind the last write; that read's response releases the copy; with the copy accepted the mark of a stream
  ring moves past the record, and the descriptor is done, or under CIRC the positions go on. That a record is delivered by whole requests, as the ring
  publishes it, is the model's reading (log entry 34) (R224, R233, R259, R261, R279, R286-R288, R291). -/
def Obligations.DmaStream : Prop :=
  ∀ (s : State) (ch : Fin 32) (ring : Fin 64) (z : StreamRec) (x : Desc), s.Ready →
    let y := s.dev.chan ch
    let g := s.dev.ring ring
    let page (a : Nat) : Prop := a / 0x1000 = 0xA10 + ch.val
    s.dev.isStream ch = true → s.dev.chState ch = 1 → y.aborting = false → y.ring = some ring.val → y.recd = some z → y.desc = some x →
    y.failed = none →
    -- how the record is copied is settled: as bytes, or reshuffled as its kind and its length allow
    let shape := s.dev.shuffleOf ch z.shuf
    let kind := s.dev.recordKind s.vault ch z
    let settled : Prop := z.raw ≠ none ∨ (z.shuf ≠ 0 ∧ (z.written ≠ 0 ∨ kind = 0 ∨ kind = 5))
    let (a, wrap, room) := s.dev.streamPlace ch x z.written
    (y.ended = none → settled → x.dstBus = true → wrap ≠ 0 →
      (∀ w, g.entries = [] → g.work = some w → g.entWr = z.num → z.written < 2 ^ 62 →
        (s.dev.recordReady ch z).1 < z.written + s.dev.cutRequest true a (2 ^ 62 - z.written) wrap →
        ∃ t, exec (.streamPayloadMove ch) s = .next t ∧ t.dev.chState ch = 2 ∧ t.dev.get (DMA_CH_STAT.WAIT_CAUSE ch) = 2
          ∧ t.dev.out = s.dev.out ∧ s.Keeps t fun a => page a ∨ a / 0x1_0000 = 0xA0)
      ∧ ∀ e, g.entries = [e] → e.num = z.num → s.dev.contained = false → s.dev.busHeld = false →
        (z.raw = none → shape.fits e.bytes = true) → s.dev.readsAs .dma (g.entryAddr e.num) 64 = true →
        let total := (s.dev.recordReady ch z).1
        let n := s.dev.cutRequest true a (total - z.written) wrap
        let l := s.dev.recordBytes s.vault ch z z.written n
        z.written < total → (∀ i ∈ s.dev.recordSource ch z z.written n, s.dev.readsAs .dma (g.dataAddr (z.start + 64 * (i / 64))) 64 = true) →
        (z.raw = some (0, 0) → total = e.bytes ∧ (n ≤ e.bytes - z.written → l = ((g.read s.vault z.start e.bytes).drop z.written).take n))
        ∧ (n ≤ room → ∃ t line, exec (.streamPayloadMove ch) s = .next t
          ∧ t.dev.out = s.dev.out ++ [.memWrite a l (s.dev.attrOf x.ro x.ns x.ido)]
          ∧ (t.dev.chan ch).used = (if x.circ then y.used else y.used + n)
          ∧ (t.dev.chan ch).recd = some { z with written := z.written + n, first := if z.written = 0 then a else z.first, line := line }
          ∧ (t.dev.chan ch).dirty = some a
          ∧ (t.dev.chan ch).ended = (if x.circ = false ∧ n = wrap ∧ z.written + n < total then some ⟨0, 0⟩ else none)
          ∧ t.dev.get64 (DMA_CH_BYTES_CNT.addr ch) = (s.dev.get64 (DMA_CH_BYTES_CNT.addr ch) + n) % 2 ^ 64
          ∧ s.Keeps t fun a => page a ∨ a / 0x1_0000 = 0xA0)
        ∧ (room < n → ∃ t, exec (.streamPayloadMove ch) s = .next t ∧ t.dev.chState ch = 2 ∧ t.dev.get (DMA_CH_STAT.WAIT_CAUSE ch) = 3
          ∧ t.dev.out = s.dev.out ∧ s.Keeps t fun a => page a ∨ a / 0x1_0000 = 0xA0))
    ∧ (∀ e, y.ended = none → x.dstBus = true → g.entries = [e] → e.num = z.num → s.dev.contained = false → s.dev.busHeld = false →
      (s.dev.recordReady ch z).2 = some z.written → (z.raw = none → shape.fits e.bytes = true) → z.issued = false →
      let lpos := s.dev.get64 (DMA_CH_LPOS.addr ch)
      let slots := s.dev.circY ch / 64
      let full : Prop := x.circ = true ∧ s.dev.is (DMA_CH_CFG.FLOW ch) = true ∧ s.dev.get64 (DMA_CH_LACK.addr ch) + slots ≤ lpos
      let link := if x.circ then x.link + lpos % slots * 64 else z.link
      (full → ∃ t, exec (.ledgerCopyIssue ch) s = .next t ∧ t.dev.chState ch = 2 ∧ t.dev.get (DMA_CH_STAT.WAIT_CAUSE ch) = 3
        ∧ t.dev.out = s.dev.out ∧ s.Keeps t fun a => page a ∨ a / 0x1_0000 = 0xA0)
      ∧ (¬ full → s.dev.readsAs .dma (g.entryAddr e.num) 64 = true →
        (s.dev.is (DMA_CH_CFG.LFLUSH ch) = false ∨ y.dirty = none →
          ∃ t copy, exec (.ledgerCopyIssue ch) s = .next t ∧ t.dev.out = s.dev.out ++ [.memWrite link copy s.dev.plain]
            ∧ copy.length = 64 ∧ field copy 0x38 8 = z.first % 2 ^ 64
            ∧ (∀ i, i < 4 ∨ (8 ≤ i ∧ i < 0x38) → copy[i]? = some (Vault.byte s.vault (g.entryAddr e.num + i)))
            ∧ field copy 4 4 = Vault.num s.vault (g.entryAddr e.num + 4) 4 ||| (if e.overrun then 4 else 0) ||| (if z.contained then 0x400 else 0)
            ∧ (t.dev.chan ch).recd = some { z with issued := true }
            ∧ (x.circ = true → t.dev.get64 (DMA_CH_LPOS.addr ch) = (lpos + 1) % 2 ^ 64)
            ∧ s.Keeps t fun a => a / 0x1_0000 = 0xA0 ∨ x.circ = true ∧ (a = DMA_CH_LPOS.addr ch ∨ a = DMA_CH_LPOS.addr ch + 4))
        ∧ ∀ p m, s.dev.is (DMA_CH_CFG.LFLUSH ch) = true → y.dirty = some p → (∀ q ∈ y.reqs, q.kind ≠ .flush) → s.dev.freeTag = some m →
          ∃ t, exec (.ledgerCopyIssue ch) s = .next t ∧ t.dev.out = s.dev.out ++ [.memRead p 0 s.dev.plain]
            ∧ t.dev.chan ch = { y with reqs := y.reqs ++ [⟨.flush, true, p, 0, s.dev.plain, some m, 0, 0, false, none⟩] }
            ∧ t.dev.get64 DMA_ZLR_CNT.addr = (s.dev.get64 DMA_ZLR_CNT.addr + 1) % 2 ^ 64
            ∧ s.Keeps t fun a => a = DMA_ZLR_CNT.addr ∨ a = DMA_ZLR_CNT.addr + 4 ∨ a = HEP_TAG_STAT.addr))
    ∧ (∀ q n, y.reqs = [q] → q.kind = .flush → q.bus = true → q.tag = some n → q.tries = 0 → q.dead = false → q.data = none → y.backs = [] →
      (∀ c : Fin 32, (s.dev.chan c).tagless = false) →
      ∃ t, exec (.zeroLengthReadDone ch) s = .next t
        ∧ t.dev.chan ch = { y with reqs := [], dirty := if y.dirty = some q.addr then none else y.dirty } ∧ s.Keeps t (· = HEP_TAG_STAT.addr))
    ∧ (∀ e, g.entries = [e] → e.num = z.num → g.markEnt = z.num → z.issued = true →
      let more := y.records + 1
      ∃ t, exec (.ledgerCopyAccepted ch) s = .next t
        ∧ (g.state = .stream ∨ g.state = .overdraft → (t.dev.ring ring).markEnt = z.num + 1 ∧ (t.dev.ring ring).entries = [])
        ∧ (g.state = .armed → t.dev.ring ring = g)
        ∧ (t.dev.chan ch).recd = none ∧ (t.dev.chan ch).records = more ∧ t.dev.is (DMA_CH_FLAGS.REC_DONE ch) = true
        ∧ (x.circ = false → (t.dev.chan ch).ended = some ⟨0, x.len - y.used⟩)
        ∧ (x.circ = true → t.dev.get64 (DMA_CH_PPOS.addr ch) = (s.dev.get64 (DMA_CH_PPOS.addr ch) + Dev.round64 z.written) % 2 ^ 64
          ∧ (t.dev.chan ch).ended = if y.stopping = true ∨ (x.len ≠ 0 ∧ x.len ≤ more) then some ⟨0, x.len - more⟩ else y.ended)
        ∧ t.dev.get64 (DMA_CH_REC_CNT.addr ch) = (s.dev.get64 (DMA_CH_REC_CNT.addr ch) + 1) % 2 ^ 64
        ∧ s.Keeps t fun a => page a ∨ a / 0x1_0000 = 2 ∨ a = DMA_RUN.addr ∨ a = DMA_HALTED.addr)

/-! ### The host endpoint (chapter 11) -/

/-- a read through the window that an offset hits returns the vault's bytes at TGT x 2^21 plus the offset in the window, with poison
where a word of them is poisoned, and a write stores the enabled bytes there and no other; without a window, without its permission or outside the
vault the answer is an Unsupported Request, recorded with its reason and flagged, and under containment a Completer Abort; a poisoned write
stores nothing; the MSI-X table takes aligned accesses of 4 and 8 bytes; COMMIT makes a window's shadow set its current set, or refuses it
with reason 1 for its size or 2 for its alignment, and a request in the cycle of the COMMIT is still taken by the sets of its start. That the AER
status bits stand at the places of the base specification is presumed (log entry 30) (R309, R311-R316). -/
def Obligations.HostMemory : Prop :=
  ∀ (s : State), s.Ready → s.dev.Readable →
    let hep (a : Nat) : Prop := a / 0x1_0000 = 2
    (∀ (off : BitVec 38) (reqId : BitVec 16), s.dev.contained = false →
      (∀ n len, off.toNat + len ≤ s.dev.bar2Size → s.dev.windowOf off.toNat = some n → s.dev.winGet (HEP_WIN_CUR_CFG.RD n) = 1 →
        let a := s.dev.windowAddr n off.toNat
        s.dev.vaultReach a len = true →
        ∃ t, exec (.inboundRead off len reqId) s = .next t
          ∧ t.dev.out = s.dev.out ++ [s.dev.sealed (if s.dev.poisonIn a len then .poisonedData (Vault.read s.vault a len) else .windowData (Vault.read s.vault a len))]
          ∧ s.Keeps t fun _ => False)
      ∧ (∀ n data, off.toNat + data.length ≤ s.dev.bar2Size → s.dev.windowOf off.toNat = some n → s.dev.winGet (HEP_WIN_CUR_CFG.WR n) = 1 →
        let a := s.dev.windowAddr n off.toNat
        s.dev.vaultReach a data.length = true →
        ∃ t, exec (.inboundWrite off data reqId) s = .next t
          ∧ (∀ i b, data[i]? = some (some b) → Vault.byte t.vault (a + i) = b) ∧ t.dev.out = s.dev.out
          ∧ s.KeepsBut t (fun x => ∃ i b, data[i]? = some (some b) ∧ x = a + i) fun _ => False)
      ∧ (let refused (len : Nat) (allowed : Bits) (reason : Nat) : Prop :=
          (s.dev.windowOf off.toNat = none ∧ reason = 0)
          ∨ ∃ n, s.dev.windowOf off.toNat = some n ∧ ((s.dev.winGet ⟨HEP_WIN_CUR_CFG.addr n, allowed.lo, 1⟩ = 0 ∧ reason = 0)
            ∨ (s.dev.winGet ⟨HEP_WIN_CUR_CFG.addr n, allowed.lo, 1⟩ = 1 ∧ s.dev.vaultReach (s.dev.windowAddr n off.toNat) len = false ∧ reason = 1))
        let recorded (posted : Bool) (reason : Nat) (t : State) : Prop :=
          t.dev.is HEP_FLAGS.UR_WINDOW = true ∧ t.dev.reg HEP_UR_INFO.addr = word off.toNat
          ∧ t.dev.reg HEP_UR_INFO_HI.addr = word (off.toNat / 2 ^ 32 + ofBool posted * 2 ^ 8 + reason * 2 ^ 9 + reqId.toNat * 2 ^ 16)
          ∧ t.dev.get64 HEP_UR_CNT.addr = (s.dev.get64 HEP_UR_CNT.addr + 1) % 2 ^ 64 ∧ s.Keeps t hep
        (∀ len reason, off.toNat + len ≤ s.dev.bar2Size → refused len (HEP_WIN_CUR_CFG.RD 0) reason →
          ∃ t l, exec (.inboundRead off len reqId) s = .next t ∧ t.dev.out = s.dev.out ++ s.dev.sealed .unsupportedRequest :: l ∧ recorded false reason t)
        ∧ ∀ data reason, off.toNat + data.length ≤ s.dev.bar2Size → refused data.length (HEP_WIN_CUR_CFG.WR 0) reason →
          ∃ t, exec (.inboundWrite off data reqId) s = .next t ∧ recorded true reason t))
    ∧ (∀ (off : BitVec 38) (reqId : BitVec 16) len, s.dev.contained = true → off.toNat + len ≤ s.dev.bar2Size →
        ∃ t l, exec (.inboundRead off len reqId) s = .next t ∧ t.dev.out = s.dev.out ++ s.dev.sealed .completerAbort :: l
          ∧ t.dev.get64 HEP_CA_CNT.addr = (s.dev.get64 HEP_CA_CNT.addr + 1) % 2 ^ 64 ∧ s.Keeps t hep)
    ∧ (∀ bar : Fin 3, ∃ t, exec (.poisonedWrite bar) s = .next t ∧ t.dev.cfgBit 0x104 12 = true
        ∧ t.dev.get64 HEP_UNCOR_CNT.addr = (s.dev.get64 HEP_UNCOR_CNT.addr + 1) % 2 ^ 64 ∧ s.Keeps t hep)
    ∧ (∃ t l, exec (.unsupportedInboundRequest false) s = .next t ∧ t.dev.out = s.dev.out ++ s.dev.sealed .unsupportedRequest :: l
        ∧ t.dev.get64 HEP_UR_CNT.addr = (s.dev.get64 HEP_UR_CNT.addr + 1) % 2 ^ 64 ∧ s.Keeps t hep)
    ∧ (∀ (v : Fin 64) (i : Fin 4),
      let off := BitVec.ofNat 16 (16 * v.val + 4 * i.val)
      (∃ t, exec (.msixTableAccess off 4 none) s = .next t
        ∧ t.dev.out = s.dev.out ++ [s.dev.sealed (.windowData (le 4 (s.dev.msixWord v i).toNat))] ∧ s.Keeps t fun _ => False)
      ∧ (i.val % 2 = 0 → ∃ t, exec (.msixTableAccess off 8 none) s = .next t
        ∧ t.dev.out = s.dev.out ++ [s.dev.sealed (.windowData (le 4 (s.dev.msixWord v i).toNat ++ le 4 (s.dev.msixWord v (i.val + 1)).toNat))]
        ∧ s.Keeps t fun _ => False)
      ∧ (∀ w : BitVec 64, s.dev.hep.pba = [] →
        ∃ t, exec (.msixTableAccess off 4 (some w)) s = .next t
          ∧ t.dev.msixWord v i = (if i = 3 then w.setWidth 32 &&& 1#32 else w.setWidth 32) ∧ s.Keeps t fun _ => False)
      ∧ ∀ len data, len ≠ 4 → len ≠ 8 → ∃ t, exec (.msixTableAccess off len data) s = .next t ∧ t.dev.hep.msix = s.dev.hep.msix
          ∧ t.dev.get64 HEP_CA_CNT.addr = (s.dev.get64 HEP_CA_CNT.addr + 1) % 2 ^ 64 ∧ s.Keeps t hep)
    ∧ ∀ (r : Requester) (n : Fin 32) (v : Word), s.dev.Admits r (HEP_WIN_CFG.addr n) → v.getLsbD 16 = true →
      let l := v.toNat % 64
      (21 ≤ l → l ≤ 38 → s.dev.get (HEP_WIN_BAR.OFF n) * 2 ^ 21 % 2 ^ l = 0 →
        ∃ t, exec (.windowCommit r n v 15#4) s = .next t ∧ t.dev.get (HEP_WIN_CUR_CFG.LOG2 n) = l
          ∧ t.dev.is (HEP_WIN_CUR_CFG.EN n) = v.getLsbD 31 ∧ t.dev.is (HEP_WIN_CUR_CFG.RD n) = v.getLsbD 30
          ∧ t.dev.is (HEP_WIN_CUR_CFG.WR n) = v.getLsbD 29 ∧ t.dev.reg (HEP_WIN_CUR_BAR.addr n) = s.dev.reg (HEP_WIN_BAR.addr n)
          ∧ t.dev.reg (HEP_WIN_CUR_TGT.addr n) = s.dev.reg (HEP_WIN_TGT.addr n)
          ∧ (∀ off, t.dev.windowOf off = s.dev.windowOf off) ∧ (∀ (k : Fin 32) off, t.dev.windowAddr k off = s.dev.windowAddr k off)
          ∧ s.Keeps t fun a => a = HEP_WIN_CFG.addr n ∨ a = HEP_WIN_CUR_CFG.addr n ∨ a = HEP_WIN_CUR_BAR.addr n ∨ a = HEP_WIN_CUR_TGT.addr n)
      ∧ ∀ reason, ((l < 21 ∨ 38 < l) ∧ reason = 1)
          ∨ (21 ≤ l ∧ l ≤ 38 ∧ s.dev.get (HEP_WIN_BAR.OFF n) * 2 ^ 21 % 2 ^ l ≠ 0 ∧ reason = 2) →
        ∃ t, exec (.windowCommit r n v 15#4) s = .next t ∧ t.dev.is HEP_FLAGS.WIN_REFUSED = true
          ∧ t.dev.ntq.input = s.dev.ntq.input ++ [⟨.alert, idHEP, 0x019, word (n.val + reason * 2 ^ 8), s.dev.time⟩]
          ∧ s.Keeps t fun a => a = HEP_WIN_CFG.addr n ∨ a = HEP_FLAGS.addr

/-- a data read that times out is, where RETRY allows, issued again under a fresh tag, its former tag in quarantine; a fetch that times out, and
each enabled cause, contain the port, with every outstanding tag in quarantine; a completion of a quarantined tag is discarded, counted and flagged;
at its end a tag leaves quarantine; a link error sets its AER bit and is counted; a lasting internal error contains with
cause 4, a transient one is a correctable error. No request waits for a free tag. A disabled POISON cause that issues the request again without counting an
attempt is the model's reading (log entry 34), the places of the AER bits are presumed (log entry 30) (R294, R296, R319, R320, R325-R328). -/
def Obligations.HostErrors : Prop :=
  ∀ (s : State), s.Ready → (∀ c, (s.dev.chan c).tagless = false) →
    let h := s.dev.hep
    let hep (a : Nat) : Prop := a / 0x1_0000 = 2
    let contained (cause : Nat) (t : State) : Prop := t.dev.contained = true ∧ t.dev.reg HEP_CONTAIN_STAT.addr = word (1 + 2 ^ cause + cause * 2 ^ 8)
      ∧ t.dev.get64 HEP_CONTAIN_TIME.addr = s.dev.time % 2 ^ 64 ∧ t.dev.is HEP_FLAGS.CONTAINED = true ∧ t.dev.hep.tags = []
      ∧ t.dev.get64 HEP_CONTAIN_CNT.addr = (s.dev.get64 HEP_CONTAIN_CNT.addr + 1) % 2 ^ 64
      ∧ (∃ l l', t.dev.ntq.input = s.dev.ntq.input ++ l ++ ⟨.fault, idHEP, 0x010, word (2 ^ (cause - 1) + cause * 2 ^ 8), s.dev.time⟩ :: l')
      ∧ s.KeepsPath t
    (∀ (tag : BitVec 14) (c : Fin 32) x at' q, s.dev.timeout = some x → h.tags = [⟨tag.toNat, c.val, at'⟩] → at' + x ≤ s.dev.time →
      (s.dev.chan c).reqs = [q] → q.tag = some tag.toNat → q.dead = false →
      (q.kind = .read → q.tries < s.dev.get (DMA_CH_CFG.RETRY c) →
        ∃ t, exec (.completionTimeout tag) s = .next t ∧ (∃ e, t.dev.hep.quarantine = h.quarantine ++ [(tag.toNat, e)] ∧ s.dev.time + x < e)
          ∧ (∃ n, (t.dev.chan c).reqs = [{ q with tag := n, tries := q.tries + 1, err := 4 }] ∧ n ≠ some tag.toNat)
          ∧ t.dev.get64 HEP_CTO_CNT.addr = (s.dev.get64 HEP_CTO_CNT.addr + 1) % 2 ^ 64 ∧ t.dev.contained = s.dev.contained ∧ s.Keeps t hep)
      ∧ (∀ slot, q.kind = .fetch slot → s.dev.is HEP_CONTAIN_EN.FETCH_TMO = true → s.dev.contained = false →
        ∃ t, exec (.completionTimeout tag) s = .next t ∧ contained 1 t)
      ∧ (h.quarantine = [] → s.dev.is HEP_CONTAIN_EN.POISON = true → s.dev.contained = false →
        ∃ t, exec (.poisonedCompletion tag) s = .next t ∧ contained 2 t)
      ∧ (h.quarantine = [] → s.dev.is HEP_CONTAIN_EN.POISON = false →
        ∃ t, exec (.poisonedCompletion tag) s = .next t ∧ t.dev.cfgBit 0x104 12 = true
          ∧ (∃ n, (t.dev.chan c).reqs = [{ q with tag := n }] ∧ n ≠ some tag.toNat) ∧ t.dev.contained = s.dev.contained ∧ s.Keeps t hep))
    ∧ (∀ (tag : BitVec 14) e, h.quarantine = [(tag.toNat, e)] →
      (∃ t, exec (.lateCompletion tag) s = .next t ∧ t.dev.is HEP_FLAGS.LATE_CPL = true ∧ t.dev.dma = s.dev.dma
        ∧ t.dev.get64 HEP_LATE_CPL_CNT.addr = (s.dev.get64 HEP_LATE_CPL_CNT.addr + 1) % 2 ^ 64 ∧ s.Keeps t hep)
      ∧ (e ≤ s.dev.time →
        ∃ t, exec (.tagQuarantineEnd tag) s = .next t ∧ t.dev.hep = { h with quarantine := [] } ∧ t.dev.get HEP_TAG_STAT.QUAR = 0
          ∧ s.Keeps t (· = HEP_TAG_STAT.addr)))
    ∧ (s.dev.ecrcCheck = true →
      (s.dev.is HEP_CONTAIN_EN.ECRC = true → s.dev.contained = false →
        ∃ t, exec .ecrcError s = .next t ∧ t.dev.cfgBit 0x104 19 = true ∧ contained 3 t)
      ∧ (s.dev.is HEP_CONTAIN_EN.ECRC = false →
        ∃ t, exec .ecrcError s = .next t ∧ t.dev.cfgBit 0x104 19 = true ∧ t.dev.contained = s.dev.contained ∧ s.Keeps t hep))
    ∧ (s.dev.contained = false → ∃ t, exec (.hepInternalError .lasting) s = .next t ∧ contained 4 t)
    ∧ (∃ t, exec (.hepInternalError .transient) s = .next t ∧ t.dev.mgt.hepTransient = s.dev.mgt.hepTransient + 1
        ∧ t.dev.get64 HEP_COR_CNT.addr = (s.dev.get64 HEP_COR_CNT.addr + 1) % 2 ^ 64 ∧ s.Keeps t hep)
    ∧ (∀ b : Fin 32, [0, 6, 7, 8, 12].contains b.val = true →
      ∃ t, exec (.pcieLinkError b true) s = .next t ∧ t.dev.cfgBit 0x110 b = true
        ∧ t.dev.get64 HEP_COR_CNT.addr = (s.dev.get64 HEP_COR_CNT.addr + 1) % 2 ^ 64
        ∧ t.dev.ntq.input = s.dev.ntq.input ++ [⟨.info, idHEP, 0x014, word b.val, s.dev.time⟩] ∧ s.Keeps t hep)
    ∧ ∀ b : Fin 32, [4, 13, 16, 17, 18].contains b.val = true →
      ∃ t, exec (.pcieLinkError b false) s = .next t ∧ t.dev.cfgBit 0x104 b = true
        ∧ t.dev.get64 HEP_UNCOR_CNT.addr = (s.dev.get64 HEP_UNCOR_CNT.addr + 1) % 2 ^ 64 ∧ s.Keeps t hep

/-- RELEASE of a contained port begins the release, but not in the cycle in which a cause is detected, and elsewhere only sets BAD_STATE; its end
  clears CONTAINED, pushes RELEASED with the microseconds held and takes the channels out of HELD; a pending message of a vector nothing holds back is
  sent and leaves the pending bits; a window of 1 ms closes the count of ring bytes and makes a message due for a fall and for a change to No
  Requirement, but a rise only after 1 ms; the value of one running stream channel is the logarithm of its ring's free time; a due LTR message is
  sent, 10 µs after the last one at the earliest, with the value now current, and counted. The code of a value is that of the base specification,
  presumed (log entry 30) (R296, R323, R330, R332, R333). -/
def Obligations.HostRelease : Prop :=
  ∀ (s : State), s.Ready →
    let h := s.dev.hep
    (∀ r : Requester, s.dev.Admits r HEP_CONTAIN.addr →
      (s.dev.contained = true → h.causeAt ≠ some s.dev.time → ∃ t, exec (.containRelease r) s = .next t
        ∧ t.dev.hep = { h with releaseAt := some (h.releaseAt.getD s.dev.time) } ∧ t.dev.contained = true ∧ s.Keeps t fun _ => False)
      ∧ (s.dev.contained = true → h.causeAt = some s.dev.time → ∃ t, exec (.containRelease r) s = .next t
        ∧ t.dev.hep = h ∧ t.dev.contained = true ∧ s.Keeps t fun _ => False)
      ∧ (s.dev.contained = false → ∃ t, exec (.containRelease r) s = .next t ∧ t.dev.hep = h ∧ t.dev.is HEP_FLAGS.BAD_STATE = true
        ∧ s.Keeps t (· = HEP_FLAGS.addr)))
    ∧ (h.releaseAt ≠ none → s.dev.contained = true →
      ∃ t, exec .releaseComplete s = .next t ∧ t.dev.contained = false ∧ t.dev.is HEP_FLAGS.RELEASED = true ∧ t.dev.hep.releaseAt = none
        ∧ (∃ l, t.dev.ntq.input = s.dev.ntq.input
            ++ ⟨.event, idHEP, 0x011, word (Nat.min (2 ^ 32 - 1) ((s.dev.time - s.dev.get64 HEP_CONTAIN_TIME.addr) / us 1)), s.dev.time⟩ :: l)
        ∧ (∀ c : Fin 32, s.dev.chState c = 6 → 1 ≤ (s.dev.chan c).left → (s.dev.chan c).left ≤ 3 → t.dev.chState c ≠ 6) ∧ s.KeepsPath t)
    ∧ (∀ v : Fin 64, v.val ∈ h.pba → s.dev.msixEnable = true → s.dev.vectorHeld v = false →
      ∃ t, exec (.pendingMsixSend v) s = .next t ∧ v.val ∉ t.dev.hep.pba
        ∧ t.dev.out = s.dev.out ++ [.msix v ((s.dev.msixWord v 0).toNat + (s.dev.msixWord v 1).toNat * 2 ^ 32) (s.dev.msixWord v 2) s.dev.plain]
        ∧ t.dev.get64 HEP_MSIX_CNT.addr = (s.dev.get64 HEP_MSIX_CNT.addr + 1) % 2 ^ 64
        ∧ s.Keeps t fun a => a = HEP_MSIX_CNT.addr ∨ a = HEP_MSIX_CNT.addr + 4)
    ∧ (h.ltrWindowAt + ms 1 ≤ s.dev.time →
      ∃ t, exec .ltrWindow s = .next t ∧ t.dev.hep.ltrLast = h.ltrCount ∧ t.dev.hep.ltrCount = [] ∧ t.dev.hep.ltrWindowAt = s.dev.time
        ∧ (s.dev.ltrEnable = false → t.dev.hep.ltrDue = false ∧ t.dev.hep.ltrRiseAt = none)
        ∧ (s.dev.ltrEnable = true → let k := t.dev.ltrCompute; let sent := s.dev.get HEP_LTR_NOW.K
          ((k < sent ∨ (k = 63 ∧ sent ≠ 63)) → t.dev.hep.ltrDue = true)
          ∧ (k = sent → t.dev.hep.ltrDue = false ∧ t.dev.hep.ltrRiseAt = none)
          ∧ (sent < k → k < 63 → t.dev.hep.ltrDue = false ∧ t.dev.hep.ltrRiseAt = some (h.ltrRiseAt.getD s.dev.time)))
        ∧ ((∀ c : Fin 32, (s.dev.chan c).ring = none) → t.dev.ltrCompute = 63) ∧ s.Keeps t fun _ => False)
    ∧ (∀ (c : Fin 32) r, (∀ k : Fin 32, k ≠ c → (s.dev.chan k).ring = none) → (s.dev.chan c).ring = some r → s.dev.isStream c = true →
      (s.dev.chState c = 1 ∨ s.dev.chState c = 2) → let w := Tab.get (fun _ => 0) h.ltrLast r; 0 < w →
      s.dev.ltrCompute = Nat.max 10 (Nat.min (s.dev.get HEP_LTR_CTL.MAX_K)
        (Nat.log2 (((s.dev.ring r).free - s.dev.reserve r) * 1000000 * s.dev.get HEP_LTR_CTL.FRAC / (16 * w)))))
    ∧ (s.dev.ltrEnable = true → s.dev.contained = false → s.dev.d3hot = false →
      (h.ltrDue = true ∨ ∃ r, h.ltrRiseAt = some r ∧ r + ms 1 ≤ s.dev.time) → (∀ x, h.ltrSentAt = some x → x + us 10 ≤ s.dev.time) →
      ∃ t, exec .ltrSend s = .next t ∧ t.dev.out = s.dev.out ++ [s.dev.sealed (.ltr (Dev.ltrCode s.dev.ltrCompute))]
        ∧ t.dev.get HEP_LTR_NOW.K = s.dev.ltrCompute ∧ t.dev.hep.ltrDue = false ∧ t.dev.hep.ltrSentAt = some s.dev.time
        ∧ t.dev.get64 HEP_LTR_MSG_CNT.addr = (s.dev.get64 HEP_LTR_MSG_CNT.addr + 1) % 2 ^ 64
        ∧ s.Keeps t fun a => a = HEP_LTR_NOW.addr ∨ a = HEP_LTR_MSG_CNT.addr ∨ a = HEP_LTR_MSG_CNT.addr + 4)

/-- a configuration write changes the enabled bits of the command register, and is answered with Request Retry Status while a reset is not
  complete; pulses of PERST_N under 100 ns are ignored; PERST_N and a hot reset take every DMA channel to IDLE, forget the outstanding tags and the
  notices of NQ0, clear Memory Space Enable and keep DMA_OWNER and the vault, a hot reset also the causes of a containment that is over, while those
  of one it ends go with it, the model's choice (log entry 112); a function-level reset does so to the host's channels and is counted, and keeps Link
  Status and Max_Payload_Size as the base specification has it (log entry 30); the end of a reset pushes HOST_RESET with its cause and the time it
  began, and ends the containment a function-level reset found; a link that has trained shows its rate and width, and is reported where one is lower
  than at the last training, the model's reading (log entry 108), as is what else of NQ0 and the registers these resets reach (log entry 32) (R298,
  R303, R306, R331, R334, R335, R451). -/
def Obligations.HostResets : Prop :=
  ∀ (s : State), s.Ready →
    let up := s.dev.hep.perst = false
    let reached (a : Nat) : Prop := a / 0x1_0000 = 2 ∨ a / 0x1_0000 = 0x90 ∨ (0xA0_0000 ≤ a ∧ a < 0xA3_0000 ∧ a ≠ DMA_OWNER.addr)
      ∨ a / 0x1_0000 = 0xB0 ∨ a / 0x1_0000 = 0xC0
    (∀ v : Word, up →
      (s.dev.hep.reset = none →
        ∃ t, exec (.configWrite 0x004#12 v 3#4) s = .next t ∧ t.dev.memEnable = v.getLsbD 1
          ∧ t.dev.busMaster = v.getLsbD 2 ∧ t.dev.cfgBit 0x04 10 = v.getLsbD 10 ∧ (∀ a ≠ 0x04, t.dev.cfg a = s.dev.cfg a) ∧ s.KeepsPath t
          ∧ (s.dev.busHeld = false ∨ v.getLsbD 2 = false → s.Keeps t (· = HEP_LINK_STAT.addr)))
      ∧ (s.dev.hep.reset ≠ none → ∀ off : Fin 1024,
        ∃ t, exec (.configWrite (BitVec.ofNat 12 (4 * off.val)) v 15#4) s = .next t ∧ t.dev.out = s.dev.out ++ [s.dev.sealed .requestRetry]
          ∧ t.dev.hep = s.dev.hep ∧ s.Keeps t fun _ => False))
    ∧ (∀ ns, ns < 100 → exec (.perstAssert ns) s = .next s ∧ ∀ sris, exec (.perstRelease sris ns) s = .next s)
    ∧ (∀ ns, 100 ≤ ns → up → ∃ t, exec (.perstAssert ns) s = .next t ∧ t.dev.hep.perst = true ∧ (∀ c : Fin 32, t.dev.chState c = 0) ∧ t.dev.hep.tags = []
        ∧ t.dev.memEnable = false ∧ t.dev.contained = false ∧ t.dev.hep.reset = some (1, s.dev.time)
        ∧ (∀ c : Fin 4, Tab.get (fun _ => []) t.dev.ntq.rings c = []) ∧ s.Keeps t reached)
    ∧ (∀ (sris : Bool) ns, 100 ≤ ns → s.dev.hep.perst = true → ∃ t, exec (.perstRelease sris ns) s = .next t ∧ t.dev.hep.perst = false
        ∧ t.dev.is HEP_LINK_STAT.SRIS = sris ∧ s.Keeps t (· = HEP_LINK_STAT.addr))
    ∧ (∀ down : Bool, up → ∃ t, exec (.hotReset down) s = .next t ∧ (∀ c : Fin 32, t.dev.chState c = 0) ∧ t.dev.hep.tags = []
        ∧ t.dev.memEnable = false ∧ t.dev.contained = false ∧ t.dev.hep.reset = some (if down then 3 else 2, s.dev.time)
        ∧ t.dev.reg HEP_CONTAIN_STAT.addr = (if s.dev.contained then 0#32 else s.dev.reg HEP_CONTAIN_STAT.addr) ∧ s.Keeps t reached)
    ∧ (up → (∀ c, (s.dev.chan c).tagless = false) → ∃ t, exec (.functionLevelReset false) s = .next t
        ∧ (∀ c : Fin 32, s.dev.bitOf DMA_OWNER.addr c = true → t.dev.chState c = 0)
        ∧ (∀ c : Fin 32, s.dev.bitOf DMA_OWNER.addr c = false → t.dev.chan c = s.dev.chan c)
        ∧ t.dev.cfg 0x70 = s.dev.cfg 0x70 ∧ t.dev.maxPayload = s.dev.maxPayload ∧ t.dev.hep.msix = [] ∧ t.dev.memEnable = false ∧ t.dev.hep.reset = some (4, s.dev.time)
        ∧ t.dev.get64 HEP_FLR_CNT.addr = (s.dev.get64 HEP_FLR_CNT.addr + 1) % 2 ^ 64 ∧ s.Keeps t reached)
    ∧ (∀ cause at', up → s.dev.hep.reset = some (cause, at') →
      (cause < 4 ∨ s.dev.contained = false →
        ∃ t, exec .hostResetComplete s = .next t ∧ t.dev.hep = { s.dev.hep with reset := none } ∧ t.dev.is HEP_FLAGS.HOST_RESET = true
          ∧ t.dev.ntq.input = s.dev.ntq.input ++ [⟨.alert, idHEP, 0x017, word cause, at'⟩] ∧ s.Keeps t (· = HEP_FLAGS.addr))
      ∧ (4 ≤ cause → s.dev.contained = true →
        ∃ t l, exec .hostResetComplete s = .next t ∧ t.dev.contained = false ∧ t.dev.hep.reset = none ∧ t.dev.hep.releaseAt = none
          ∧ t.dev.is HEP_FLAGS.HOST_RESET = true ∧ t.dev.ntq.input = s.dev.ntq.input ++ l ++ [⟨.alert, idHEP, 0x017, word cause, at'⟩]
          ∧ s.KeepsPath t))
    ∧ ∀ (rate : BitVec 4) (width : BitVec 5) (flit : Bool), up → Dev.linkTrains rate.toNat width.toNat flit = true →
      ∃ t, exec (.linkChange rate width flit) s = .next t ∧ t.dev.get HEP_LINK_STAT.RATE = rate.toNat
        ∧ t.dev.get HEP_LINK_STAT.WIDTH = width.toNat ∧ t.dev.is HEP_LINK_STAT.FLIT = flit ∧ t.dev.is HEP_LINK_STAT.DL_UP = true
        ∧ t.dev.ntq.input = s.dev.ntq.input
          ++ (if s.dev.hep.trained.1 ≤ rate.toNat ∧ s.dev.hep.trained.2 ≤ width.toNat then []
            else [⟨.event, idHEP, 0x018, word (rate.toNat + width.toNat * 2 ^ 4 + (if flit then 2 ^ 9 else 0)), s.dev.time⟩])
        ∧ t.dev.hep.trained = (rate.toNat, width.toNat) ∧ s.Keeps t (· = HEP_LINK_STAT.addr)


/-! ### Encoder channels and field pins (chapter 12) -/

/-- enabling a channel sets its position to 0 and starts it at standstill, and strikes armed on it go on from there; disabling it
clears its readings; a sample changes the position by the change of its angle, taken in half a line either way and against the sense where DIR is set,
once a first sample has given an angle; a read of the low position word latches position, time, speed and status of the last sample, the speed from
the difference of the positions 2^SPD_K samples apart; without AUTO_CORR the corrections stay; a channel that has
stayed within 1/64 line for STILL us enters standstill, leaves it when the band is left, and settles for 2^SPD_K samples; each
change of standstill is pushed at most once per 1 ms. A command's samples are those since the last one, and the signal stands still before them, the
model's choice (log entry 20); how the four corrections enter the angle is too (log entry 109) (R219, R341, R343-R347, R354). -/
def Obligations.EncoderMotion : Prop :=
  (∀ n new old : Nat, 0 < n → new < n → old < n →
    let x := angleStep n new old
    2 * x < n ∧ -(n : Int) ≤ 2 * x ∧ (x - (new - old)) % n = 0)
  ∧ ∀ (s : State) (i : Fin 4), s.Ready →
    let x := s.dev.encChan i
    let line := s.dev.encLine i
    let en := s.dev.is (ENC_CH_CTL.EN i) = true
    let corr := fun a => s.dev.is (ENC_CH_CTL.AUTO_CORR i) = true ∧ (a = ENC_CH_CORR0.addr i ∨ a = ENC_CH_CORR1.addr i)
    let read := fun a => a = ENC_POS.addr i ∨ a = ENC_POS_HI.addr i ∨ a = ENC_POS_TIME.addr i ∨ a = ENC_POS_TIME.addr i + 4
      ∨ a = ENC_SPEED.addr i ∨ a = ENC_SPEED_HI.addr i ∨ a = ENC_STAT.addr i
    let told := fun (e : Dev) (n : Nat) (t : State) =>
      (e.since (.standstill i) (ms 1) = true → t.dev.ntq.input = e.ntq.input ++ [⟨.info, idENC, 0x012, word (i * 2 ^ 24 + n), s.dev.time⟩])
        ∧ (e.since (.standstill i) (ms 1) = false → t.dev.ntq.input = e.ntq.input)
    (∀ r, s.dev.Admits r (ENC_CH_CTL.addr i) → s.dev.is (ENC_CH_CTL.EN i) = false →
      ∃ t, exec (.encoderEnable r i) s = .next t ∧ t.dev.is (ENC_CH_CTL.EN i) = true
        ∧ t.dev.encChan i = { EncChan.reset with still := true, refAt := s.dev.time, seenAt := s.dev.time }
        ∧ (∀ k : Fin 64, s.dev.is (STP_SK_CTL.KIND k) = true → s.dev.get (STP_SK_CTL.ENC k) = i → (t.dev.strike k).seen = 0)
        ∧ s.Keeps t fun a => a = ENC_CH_CTL.addr i ∨ a = ENC_FLAGS.addr i)
    ∧ (∀ r, s.dev.Admits r (ENC_CH_CTL.addr i) → en →
      ∃ t, exec (.encoderDisable r i) s = .next t ∧ t.dev.is (ENC_CH_CTL.EN i) = false ∧ t.dev.encChan i = EncChan.reset
        ∧ t.dev.get64 (ENC_POS.addr i) = 0 ∧ t.dev.get64 (ENC_SPEED.addr i) = 0 ∧ t.dev.reg (ENC_STAT.addr i) = 0
        ∧ s.Keeps t fun a => a = ENC_CH_CTL.addr i ∨ a = ENC_FLAGS.addr i ∨ read a)
    ∧ (∀ r m, s.dev.Reads r → en →
      ∃ t, exec (.positionRead r i m) s = .next t
        ∧ (let y := t.dev.encChan i
          let k := s.dev.get (ENC_CH_CTL.SPD_K i)
          let diff := diff40 y.pos (t.dev.posAt i (y.seenAt - ns 25 * 2 ^ k))
          t.dev.get64 (ENC_POS.addr i) = y.pos % 2 ^ 64 ∧ t.dev.get64 (ENC_POS_TIME.addr i) = y.seenAt % 2 ^ 64
          ∧ t.dev.out = s.dev.out ++ [s.dev.toward r (.readData (ENC_POS.addr i) (word y.pos))]
          ∧ t.dev.get64 (ENC_SPEED.addr i) = (if y.still ∨ y.fault ∨ decide (diff < 0) ≠ y.negative then 0
            else unsigned 64 ((diff * 256 * 40000000).tdiv (2 ^ k))))
        ∧ s.Keeps t fun a => corr a ∨ read a)
    ∧ (∀ a b u v, en → x.fault = false → x.seenAt + ns 25 = s.dev.time → x.pos < 2 ^ 40 →
      corrected (s.dev.reg (ENC_CH_CORR0.addr i)) (s.dev.reg (ENC_CH_CORR1.addr i)) a.toInt b.toInt = (u, v) → ¬ (u = 0 ∧ v = 0) →
      let m : EncMotion := ⟨0, [⟨a, b, false, 0⟩]⟩
      let new := angleCount line u v
      (∀ r, s.dev.Reads r → x.theta = none →
        ∃ t, exec (.positionRead r i m) s = .next t ∧ t.dev.get64 (ENC_POS.addr i) = x.pos ∧ (t.dev.encChan i).theta = some new
          ∧ s.Keeps t fun a => corr a ∨ read a)
      ∧ ∀ old, x.theta = some old →
        let step := angleStep line new old
        let pos := unsigned 40 (x.pos + if s.dev.is (ENC_CH_CTL.DIR i) then -step else step)
        (∀ r, s.dev.Reads r → ∃ t, exec (.positionRead r i m) s = .next t ∧ t.dev.get64 (ENC_POS.addr i) = pos
          ∧ (t.dev.encChan i).pos = pos ∧ (t.dev.encChan i).theta = some new ∧ t.dev.get64 (ENC_POS_TIME.addr i) = s.dev.time % 2 ^ 64
          ∧ s.Keeps t fun a => corr a ∨ read a)
        ∧ (x.still = true → step ≠ 0 → s.dev.encBand i < (diff40 pos x.ref).natAbs →
          ∃ t, exec (.standstillLeave i m) s = .next t ∧ (t.dev.encChan i).still = false ∧ (t.dev.encChan i).pos = pos
            ∧ (t.dev.encChan i).ref = pos ∧ (t.dev.encChan i).settling = true
            ∧ (t.dev.encChan i).settleEnd = s.dev.time + 100 * 2 ^ s.dev.get (ENC_CH_CTL.SPD_K i) ∧ told s.dev 0 t ∧ s.Keeps t corr))
    ∧ (∀ m,
      let e := s.dev.encSamples i m
      let y := e.encChan i
      en → y.still = false → y.refAt + us (s.dev.get (ENC_CH_STILL.STILL i)) ≤ y.seenAt →
      ∃ t, exec (.standstillEnter i m) s = .next t ∧ t.dev.encChan i = { y with still := true } ∧ told e 1 t ∧ s.Keeps t corr)
    ∧ (x.settling = true → x.settleEnd ≤ s.dev.time →
      ∃ t, exec (.settlingEnd i) s = .next t ∧ t.dev.encChan i = { x with settling := false } ∧ s.Keeps t fun _ => False)

/-- an index is counted, fires its source and is checked: a line count outside NOMINAL and TOL counts and casts doubt CABLE, one inside clears it;
  a wrong quadrant casts REVERSED or INDEX_PHASE, and with ONE_WAY two indexes in the negative direction cast REVERSED; an index without a fault
  clears the causes of wiring; a motion of more than 0.8 line in 16 samples is overspeed; an input that follows the bias current from limit to limit
  is open, one that stays at a limit over a reversal is shorted to it, a pair without a difference at a small radius is shorted, and where none of
  these is found 1,000 samples with the radius outside its limits are a signal fault; overspeed and wiring faults are counted, flagged and pushed; a
  fault holds the position and the angle until its conditions have been gone for 1 ms; CLR_DOUBT clears every cause whose condition is gone and that
  did not begin in its sample, and sets BAD_STATE where a wiring fault stands. The frequency's tolerance and which side of it the command finds are
  the model's choice (log entry 20), that a cause already present is not pushed again and which sample a cause began in its readings (log entries 21
  and 94) (R348-R352, R354). -/
def Obligations.EncoderDoubt : Prop :=
  ∀ (s : State) (i : Fin 4), s.Ready → s.dev.is (ENC_CH_CTL.EN i) = true →
    let x := s.dev.encChan i
    let line := s.dev.encLine i
    let corr := fun a => s.dev.is (ENC_CH_CTL.AUTO_CORR i) = true ∧ (a = ENC_CH_CORR0.addr i ∨ a = ENC_CH_CORR1.addr i)
    (∀ m r,
      let e := s.dev.encSamples i m
      let y := e.encChan i
      let run := Dev.indexRun m.runs
      let pos := e.posAt i (y.seenAt - ns 25 * (run / 2))
      s.dev.is (ENC_CH_CTL.IDX_EN i) = true → 0 < run → Dev.sampleBack (run / 2) m.runs = some r →
      ∃ t, exec (.indexPulse i m) s = .next t
        ∧ t.dev.get64 (ENC_INDEX_CNT.addr i) = (s.dev.get64 (ENC_INDEX_CNT.addr i) + 1) % 2 ^ 64
        ∧ t.dev.evr.input = s.dev.evr.input ++ [s.dev.sourceEvent (0x20 + i.val) 0]
        ∧ (t.dev.encChan i).pos = y.pos ∧ (t.dev.encChan i).idxSeen = true ∧ (t.dev.encChan i).index = some (pos, y.negative)
        ∧ (y.fault = false → ∀ c ∈ (t.dev.encChan i).causes, c < 3 ∨ 6 < c)
        ∧ (∀ p n, y.index = some (p, y.negative) → y.fault = false → y.indexClean = true → diff40 pos p = n * line →
          t.dev.reg (ENC_IDX_LINES.addr i) = word (unsigned 25 n)
          ∧ (s.dev.get (ENC_CH_CHK.NOMINAL i) ≠ 0 →
            let near := s.dev.get (ENC_CH_CHK.NOMINAL i) ≤ n.natAbs + s.dev.get (ENC_CH_CHK.TOL i)
              ∧ n.natAbs ≤ s.dev.get (ENC_CH_CHK.NOMINAL i) + s.dev.get (ENC_CH_CHK.TOL i)
            (near → 1 ∉ (t.dev.encChan i).causes
              ∧ t.dev.get64 (ENC_CHECK_FAIL_CNT.addr i) = s.dev.get64 (ENC_CHECK_FAIL_CNT.addr i))
            ∧ (¬ near → 1 ∈ (t.dev.encChan i).causes ∧ t.dev.is (ENC_FLAGS.CABLE i) = true
              ∧ t.dev.get64 (ENC_CHECK_FAIL_CNT.addr i) = (s.dev.get64 (ENC_CHECK_FAIL_CNT.addr i) + 1) % 2 ^ 64
              ∧ ⟨.alert, idENC, 0x010, word (2 ^ 28 + i * 2 ^ 24 + unsigned 24 n), s.dev.time⟩ ∈ t.dev.ntq.input)))
        ∧ (∀ p, s.dev.is (ENC_CH_CTL.ONE_WAY i) = true → y.index = some (p, true) → y.negative = true →
          7 ∈ (t.dev.encChan i).causes)
        ∧ (∀ u v, s.dev.is (ENC_CH_CTL.IDX_QCHK i) = true →
          corrected (e.reg (ENC_CH_CORR0.addr i)) (e.reg (ENC_CH_CORR1.addr i)) r.a.toInt r.b.toInt = (u, v) →
          let off := (Dev.quadrant u v + 4 - s.dev.get (ENC_CH_CTL.IDX_QUAD i)) % 4
          (off = 2 → 8 ∈ (t.dev.encChan i).causes ∧ t.dev.is (ENC_FLAGS.INDEX_PHASE i) = true)
          ∧ (off % 2 = 1 → 7 ∈ (t.dev.encChan i).causes ∧ t.dev.is (ENC_FLAGS.REVERSED i) = true))
        ∧ s.Keeps t fun a => corr a ∨ a = ENC_INDEX_CNT.addr i ∨ a = ENC_INDEX_CNT.addr i + 4 ∨ a = ENC_IDX_LINES.addr i
          ∨ a = ENC_CHECK_FAIL_CNT.addr i ∨ a = ENC_CHECK_FAIL_CNT.addr i + 4 ∨ a = ENC_FLAGS.addr i)
    ∧ (∀ above m,
      let e := s.dev.encSamples i m
      let y := e.encChan i
      let n := 500 * (e.encDelta i 16).natAbs
      (404 * line < n ∨ (above = true ∧ 396 * line ≤ n) → y.fast = false →
        ∃ t, exec (.overspeed i above m) s = .next t ∧ (t.dev.encChan i).fast = true ∧ 2 ∈ (t.dev.encChan i).causes
          ∧ t.dev.is (ENC_FLAGS.OVERSPEED i) = true
          ∧ t.dev.get64 (ENC_OVERSPEED_CNT.addr i) = (s.dev.get64 (ENC_OVERSPEED_CNT.addr i) + 1) % 2 ^ 64
          ∧ ⟨.alert, idENC, 0x010, word (2 * 2 ^ 28 + i * 2 ^ 24), s.dev.time⟩ ∈ t.dev.ntq.input
          ∧ s.Keeps t fun a => corr a ∨ a = ENC_FLAGS.addr i ∨ a = ENC_OVERSPEED_CNT.addr i ∨ a = ENC_OVERSPEED_CNT.addr i + 4)
      ∧ (n ≤ 404 * line → above = false ∨ n < 396 * line → y.fast = true →
        ∃ t, exec (.overspeed i above m) s = .next t ∧ t.dev.encChan i = { y with fast := false } ∧ s.Keeps t corr))
    ∧ (∀ (input : Fin 6) rail close m,
      let e := s.dev.encSamples i m
      let y := e.encChan i
      let cause := e.wiringCause i input rail close
      let at' := if cause ≤ 5 then input.val else 0
      (s.dev.is (ENC_CH_CTL.BIAS i) = true → rail = some s.dev.enc.biasUp → (i.val, input.val, !s.dev.enc.biasUp) ∈ s.dev.enc.rails → cause = 3)
      ∧ (∀ v, s.dev.is (ENC_CH_CTL.BIAS i) = true → rail = some v → (i.val, input.val, v) ∈ s.dev.enc.rails →
        (i.val, input.val, !v) ∉ s.dev.enc.rails → cause = 4)
      ∧ (rail = none → close = true → y.a * y.a + y.b * y.b < (s.dev.get (ENC_CH_RAD.RAD_MIN i) * s.dev.get (ENC_CH_RAD.RAD_MIN i) : Nat) → cause = 5)
      ∧ (rail = none → close = false → (∀ w ∈ y.wires, 5 < w.1) → 1000 ≤ y.radBad → cause = 6)
      ∧ (cause ≠ 0 → (cause, at') ∉ y.wires ∨ (cause ≤ 5 ∧ y.wireAt ≠ s.dev.time) →
        ∃ t, exec (.wiringFault i input rail close m) s = .next t ∧ (t.dev.encChan i).fault = true ∧ (t.dev.encChan i).pos = y.pos
          ∧ cause ∈ (t.dev.encChan i).causes ∧ (cause, at') ∈ (t.dev.encChan i).wires ∧ (t.dev.encChan i).wireAt = s.dev.time
          ∧ t.dev.is (Dev.doubtFlag i cause) = true
          ∧ t.dev.get64 (ENC_WIRE_CNT.addr i) = (s.dev.get64 (ENC_WIRE_CNT.addr i) + 1) % 2 ^ 64
          ∧ ⟨.alert, idENC, 0x010, word (cause * 2 ^ 28 + i * 2 ^ 24 + at'), s.dev.time⟩ ∈ t.dev.ntq.input
          ∧ s.Keeps t fun a => corr a ∨ a = ENC_FLAGS.addr i ∨ a = ENC_WIRE_CNT.addr i ∨ a = ENC_WIRE_CNT.addr i + 4))
    ∧ (∀ r m, s.dev.Reads r → x.fault = true →
      ∃ t, exec (.positionRead r i m) s = .next t ∧ (t.dev.encChan i).pos = x.pos ∧ (t.dev.encChan i).theta = x.theta
        ∧ t.dev.get64 (ENC_SPEED.addr i) = 0
        ∧ s.Keeps t fun a => a = ENC_POS.addr i ∨ a = ENC_POS_HI.addr i ∨ a = ENC_POS_TIME.addr i ∨ a = ENC_POS_TIME.addr i + 4
          ∨ a = ENC_SPEED.addr i ∨ a = ENC_SPEED_HI.addr i ∨ a = ENC_STAT.addr i)
    ∧ (∀ m,
      let y := (s.dev.encSamples i m).encChan i
      x.fault = true → y.radBad < 1000 → y.wireAt + ms 1 ≤ s.dev.time →
      ∃ t, exec (.wiringFaultClear i m) s = .next t ∧ t.dev.encChan i = { y with fault := false, wires := [] } ∧ y.pos = x.pos ∧ y.theta = x.theta
        ∧ y.causes = x.causes ∧ s.Keeps t fun _ => False)
    ∧ (∀ rails, s.dev.enc.biasAt + us 100 ≤ s.dev.time →
      ∃ t, exec (.biasReversal rails) s = .next t ∧ t.dev.enc.biasUp = !s.dev.enc.biasUp ∧ t.dev.enc.biasAt = s.dev.time
        ∧ t.dev.enc.rails = rails.map (fun e => (e.1.val, e.2.1.val, e.2.2)) ∧ t.dev.enc.chans = s.dev.enc.chans ∧ s.Keeps t fun _ => False)
    ∧ ∀ r, s.dev.Admits r (ENC_CH_CMD.addr i) →
      let left := x.causes.filter fun c =>
        (s.dev.sameSample x.newAt && x.newCauses.contains c) || (c = 2 && x.fast) || (3 ≤ c && c ≤ 6 && x.fault)
      ∃ t, exec (.clearDoubt r i) s = .next t ∧ t.dev.encChan i = { x with causes := left }
        ∧ (x.causes ≠ [] → left = [] →
          t.dev.ntq.input = s.dev.ntq.input ++ [⟨.event, idENC, 0x011, word (i * 2 ^ 24), s.dev.time⟩])
        ∧ (x.causes = [] ∨ left ≠ [] → t.dev.ntq.input = s.dev.ntq.input)
        ∧ (x.fault = true → t.dev.is (ENC_FLAGS.BAD_STATE i) = true) ∧ s.Keeps t (· = ENC_FLAGS.addr i)

/-- an input's active edge that has held for FILT times 5 ns is counted, stamped at its instant at the ball and fires the pin's source, unless
it comes within 40 ns of the last accepted one, when it is filtered; one that has not held so long changes nothing; an input held at
its active level for STUCK_T us is reported once, until it returns; in another mode a change moves only the level (R356-R358). -/
def Obligations.FieldInputs : Prop :=
  ∀ (s : State) (p : Fin 16), s.Ready →
    let x := s.dev.pin p
    let hold := s.dev.get (FIO_PIN_CTL.FILT p) * ns 5
    (∀ level age, age < hold → ∃ t, exec (.fioEdge p level age) s = .next t ∧ t.dev.pin p = x ∧ t.dev.evr = s.dev.evr ∧ t.dev.ntq = s.dev.ntq
      ∧ s.Keeps t fun _ => False)
    ∧ (∀ level age, hold ≤ age → s.dev.bitOf FIO_LEVEL.addr p = !level → s.dev.get (FIO_PIN_CTL.MODE p) = 1 →
      (s.dev.get (FIO_PIN_CTL.EDGE p) = 2 ∨ level = (s.dev.get (FIO_PIN_CTL.EDGE p) != 1)) →
      (∀ e, x.edgeAt = some e → e + ns 40 ≤ s.dev.time - age) →
      ∃ t, exec (.fioEdge p level age) s = .next t ∧ t.dev.bitOf FIO_LEVEL.addr p = level
        ∧ t.dev.get64 (FIO_EDGE_CNT.addr p) = (s.dev.get64 (FIO_EDGE_CNT.addr p) + 1) % 2 ^ 64
        ∧ t.dev.get64 (FIO_EDGE_TIME.addr p) = (s.dev.time - age) % 2 ^ 64
        ∧ t.dev.evr.input = s.dev.evr.input ++ [s.dev.sourceEvent (0x10 + p.val) 0]
        ∧ t.dev.pin p = { x with levelAt := s.dev.time - age, edgeAt := some (s.dev.time - age) }
        ∧ s.Keeps t fun a => a = FIO_LEVEL.addr ∨ a = FIO_STAT_STUCK.addr ∨ a = FIO_EDGE_CNT.addr p ∨ a = FIO_EDGE_CNT.addr p + 4
          ∨ a = FIO_EDGE_TIME.addr p ∨ a = FIO_EDGE_TIME.addr p + 4)
    ∧ (∀ level age e, hold ≤ age → s.dev.bitOf FIO_LEVEL.addr p = !level → s.dev.get (FIO_PIN_CTL.MODE p) = 1 →
      (s.dev.get (FIO_PIN_CTL.EDGE p) = 2 ∨ level = (s.dev.get (FIO_PIN_CTL.EDGE p) != 1)) →
      x.edgeAt = some e → s.dev.time - age < e + ns 40 →
      ∃ t, exec (.fioEdge p level age) s = .next t ∧ t.dev.bitOf FIO_LEVEL.addr p = level
        ∧ t.dev.get64 (FIO_FILT_CNT.addr p) = (s.dev.get64 (FIO_FILT_CNT.addr p) + 1) % 2 ^ 64
        ∧ t.dev.bitOf FIO_FLAGS_FILT.addr p = true ∧ t.dev.evr.input = s.dev.evr.input
        ∧ (s.dev.since (.fioFilt p) (ms 1) = true → t.dev.ntq.input = s.dev.ntq.input
          ++ [⟨.alert, idFIO, 0x011, word (Nat.min 0xFFFF (x.filtered + 1) * 2 ^ 16 + p), s.dev.time⟩]
          ∧ (t.dev.pin p).filtered = 0)
        ∧ (s.dev.since (.fioFilt p) (ms 1) = false → t.dev.ntq.input = s.dev.ntq.input
          ∧ (t.dev.pin p).filtered = x.filtered + 1)
        ∧ s.Keeps t fun a => a = FIO_LEVEL.addr ∨ a = FIO_STAT_STUCK.addr ∨ a = FIO_FILT_CNT.addr p ∨ a = FIO_FILT_CNT.addr p + 4
          ∨ a = FIO_FLAGS_FILT.addr)
    ∧ (∀ level age, hold ≤ age → s.dev.bitOf FIO_LEVEL.addr p = !level →
      (s.dev.get (FIO_PIN_CTL.MODE p) ≠ 1
        ∨ s.dev.get (FIO_PIN_CTL.EDGE p) ≠ 2 ∧ level = (s.dev.get (FIO_PIN_CTL.EDGE p) == 1)) →
      ∃ t, exec (.fioEdge p level age) s = .next t ∧ t.dev.bitOf FIO_LEVEL.addr p = level ∧ t.dev.evr.input = s.dev.evr.input
        ∧ t.dev.ntq.input = s.dev.ntq.input ∧ s.Keeps t fun a => a = FIO_LEVEL.addr ∨ a = FIO_STAT_STUCK.addr)
    ∧ (s.dev.get (FIO_PIN_CTL.MODE p) = 1 → s.dev.get (FIO_PIN_STUCK.STUCK_T p) ≠ 0 →
      s.dev.bitOf FIO_LEVEL.addr p = (s.dev.get (FIO_PIN_CTL.EDGE p) != 1) → s.dev.bitOf FIO_STAT_STUCK.addr p = false →
      x.levelAt + us (s.dev.get (FIO_PIN_STUCK.STUCK_T p)) ≤ s.dev.time →
      ∃ t, exec (.fioStuck p) s = .next t ∧ t.dev.bitOf FIO_FLAGS_STUCK.addr p = true ∧ t.dev.bitOf FIO_STAT_STUCK.addr p = true
        ∧ t.dev.get64 FIO_STUCK_CNT.addr = (s.dev.get64 FIO_STUCK_CNT.addr + 1) % 2 ^ 64
        ∧ t.dev.ntq.input = s.dev.ntq.input ++ [⟨.alert, idFIO, 0x010, word p, s.dev.time⟩]
        ∧ s.Keeps t fun a => a = FIO_FLAGS_STUCK.addr ∨ a = FIO_STAT_STUCK.addr ∨ a = FIO_STUCK_CNT.addr
          ∨ a = FIO_STUCK_CNT.addr + 4)
    ∧ (s.dev.bitOf FIO_STAT_STUCK.addr p = true →
      ∃ t, exec (.stuckInputReturn p) s = .next t ∧ t.dev.bitOf FIO_STAT_STUCK.addr p = false
        ∧ t.dev.bitOf FIO_LEVEL.addr p = (s.dev.get (FIO_PIN_CTL.EDGE p) == 1) ∧ s.Keeps t fun a => a / 0x1_0000 = 7)

/-- SET, CLR and TGL end a pulse and write OUT; PULSE inverts OUT for PULSE_W, or restarts the width, and its end restores OUT; of tasks in one
  cycle the first in the order CLR, SET, TGL, PULSE acts, on OUT as it stood before the others; a short that has lasted 10 us of the drive takes the
  drive away until REARM; an open load is reported once per drive, after 100 us of it; while VFIELD is low no pin drives. That an open load is
  reported once per drive, a write of OUT in a pulse keeps the pulse and tasks at one device time are those of one cycle are the model's readings (log
  entries 22 and 39). A pin's drive is told whenever it changes (R355, R360, R361). -/
def Obligations.FieldOutputs : Prop :=
  ∀ (s : State) (p : Fin 16), s.Ready →
    let x := s.dev.pin p
    let out := s.dev.get (FIO_PIN_CTL.OUT p)
    let told := fun t : State => t.dev.out =
      s.dev.out ++ if t.dev.pinDrive p = s.dev.pinDrive p then [] else [.fioPin p (t.dev.pinDrive p)]
    let alone : Prop := ∀ a, x.acted = some a → a.at' ≠ s.dev.time
    let wrote := fun (c : Instr) (v : Nat) => ∃ t, exec c s = .next t ∧ t.dev.get (FIO_PIN_CTL.OUT p) = v
      ∧ (t.dev.pin p).pulse = none ∧ told t ∧ s.Keeps t (· = FIO_PIN_CTL.addr p)
    (alone → wrote (.fioSet p) 1 ∧ wrote (.fioClr p) 0 ∧ wrote (.fioTgl p) (1 - out))
    ∧ (∀ a, x.acted = some a → a.at' = s.dev.time →
      (∀ i, (i, a.rank) ∈ [(Instr.fioSet p, 0), (.fioSet p, 1), (.fioTgl p, 2), (.fioPulse p, 1), (.fioPulse p, 3)] →
        ∃ t, exec i s = .next t ∧ t.dev.pin p = x ∧ t.dev.out = s.dev.out ∧ s.Keeps t fun _ => False)
      ∧ (a.rank = 4 → a.out < 2 → wrote (.fioClr p) 0 ∧ wrote (.fioSet p) 1 ∧ wrote (.fioTgl p) (1 - a.out)))
    ∧ (alone → x.pulse = none →
      ∃ t, exec (.fioPulse p) s = .next t ∧ t.dev.get (FIO_PIN_CTL.OUT p) = 1 - out
        ∧ (t.dev.pin p).pulse = some (s.dev.time + s.dev.get (FIO_PIN_PULSE.PULSE_W p), out) ∧ told t
        ∧ s.Keeps t (· = FIO_PIN_CTL.addr p))
    ∧ (∀ e v, alone → x.pulse = some (e, v) →
      ∃ t, exec (.fioPulse p) s = .next t
        ∧ t.dev.pin p = { x with
            pulse := some (s.dev.time + s.dev.get (FIO_PIN_PULSE.PULSE_W p), v), acted := some ⟨s.dev.time, 4, out, x.pulse⟩ }
        ∧ s.Keeps t fun _ => False)
    ∧ (∀ e v, x.pulse = some (e, v) → v < 2 → e ≤ s.dev.time → wrote (.fioPulseEnd p) v)
    ∧ ((s.dev.pinDrive p).isSome = true → x.driveAt + us 10 ≤ s.dev.time →
      ∃ t, exec (.outputShort p) s = .next t ∧ t.dev.pinDrive p = none ∧ t.dev.bitOf FIO_OUT_STAT.addr p = true
        ∧ t.dev.bitOf FIO_FLAGS_OUT.addr p = true
        ∧ t.dev.get64 FIO_SHORT_CNT.addr = (s.dev.get64 FIO_SHORT_CNT.addr + 1) % 2 ^ 64
        ∧ t.dev.ntq.input = s.dev.ntq.input ++ [⟨.alert, idFIO, 0x012, word p, s.dev.time⟩] ∧ told t
        ∧ s.Keeps t fun a => a = FIO_OUT_STAT.addr ∨ a = FIO_FLAGS_OUT.addr ∨ a = FIO_SHORT_CNT.addr
          ∨ a = FIO_SHORT_CNT.addr + 4)
    ∧ (∀ r, s.dev.Admits r (FIO_PIN_CMD.addr p) →
      ∃ t, exec (.outputRearm r p) s = .next t ∧ t.dev.bitOf FIO_OUT_STAT.addr p = false ∧ told t
        ∧ (s.dev.get (FIO_PIN_CTL.MODE p) = 2 → s.dev.is FIO_OUT_STAT.VLOW = false →
          t.dev.pinDrive p = some (s.dev.is (FIO_PIN_CTL.OUT p)))
        ∧ s.Keeps t (· = FIO_OUT_STAT.addr))
    ∧ (s.dev.pinDrive p = some true → x.driveAt + us 100 ≤ s.dev.time →
      ∃ t, exec (.openLoad p) s = .next t ∧ t.dev.bitOf FIO_FLAGS_OUT.addr (16 + p) = true ∧ (t.dev.pin p).openTold = true
        ∧ t.dev.ntq.input = s.dev.ntq.input ++ (if x.openTold then [] else [⟨.alert, idFIO, 0x013, word p, s.dev.time⟩])
        ∧ s.Keeps t (· = FIO_FLAGS_OUT.addr))
    ∧ (s.dev.is FIO_OUT_STAT.VLOW = false →
      ∃ t, exec .vfieldLow s = .next t ∧ t.dev.is FIO_OUT_STAT.VLOW = true ∧ t.dev.is FIO_FLAGS.VFIELD_LOW = true
        ∧ t.dev.pinDrive p = none ∧ t.dev.ntq.input = s.dev.ntq.input ++ [⟨.alert, idFIO, 0x014, 1#32, s.dev.time⟩]
        ∧ s.Keeps t fun a => a = FIO_OUT_STAT.addr ∨ a = FIO_FLAGS.addr)
    ∧ (s.dev.is FIO_OUT_STAT.VLOW = true →
      ∃ t, exec .vfieldRestored s = .next t ∧ t.dev.is FIO_OUT_STAT.VLOW = false
        ∧ t.dev.ntq.input = s.dev.ntq.input ++ [⟨.alert, idFIO, 0x014, 0#32, s.dev.time⟩]
        ∧ (s.dev.get (FIO_PIN_CTL.MODE p) = 2 → s.dev.bitOf FIO_OUT_STAT.addr p = false →
          t.dev.pinDrive p = some (s.dev.is (FIO_PIN_CTL.OUT p)))
        ∧ s.Keeps t (· = FIO_OUT_STAT.addr))


/-! ### Strikes and event routing (chapter 13) -/

/-- an arm, by register or task, takes an IDLE strike to ARMED with no firing counted, refuses a repetition that could not go on, and does nothing
  to a strike that is not IDLE or that is disarmed in the same cycle; a time strike whose target is behind is reported passed and ends, or with
  FIRE_LATE locks at once; a disarm takes a strike to IDLE, and a locked one drops its miss check; a strike armed by a task fires with the task's hop
  count plus 1; that FIRE_LATE 1 counts no passage as passed and that one device time is one cycle are the model's readings (log entry 38) (R365,
  R368, R371, R372, R378). -/
def Obligations.StrikeArming : Prop :=
  ∀ (s : State) (c : Cause) (k : Fin 64), s.Ready →
    let lo := k.val < 32
    let tgt := s.dev.get64 (STP_SK_TGT_LO.addr k)
    let step := s.dev.get (STP_SK_STEP.STEP k)
    let dir := s.dev.get (STP_SK_CTL.DIR k)
    let pos := s.dev.is (STP_SK_CTL.KIND k)
    let x := s.dev.encChan (s.dev.get (STP_SK_CTL.ENC k))
    let bad := s.dev.is (STP_SK_CTL.REPEAT k) = true ∧ (pos = false ∧ step < 400
      ∨ pos = true ∧ (step = 0 ∨ dir = 0 ∧ signed 32 step < 0 ∨ dir = 1 ∧ 0 < signed 32 step))
    (s.dev.Causes c (if lo then STP_ARM_LO.addr else STP_ARM_HI.addr) (0x0C0 + k) →
      let idle : Prop := s.dev.strikeState k = 0 ∧ (s.dev.strike k).off ≠ some s.dev.time
      (idle → ¬ bad → (pos = false → s.dev.time ≤ tgt) →
        (pos = true → s.dev.is (ENC_CH_CTL.EN (s.dev.get (STP_SK_CTL.ENC k))) = false ∨ x.still = true ∨ x.fault = true) →
        ∃ t, exec (.strikeArm c k) s = .next t ∧ t.dev.strikeState k = 1 ∧ t.dev.is (STP_SK_STAT.PASSED k) = false
          ∧ t.dev.get (STP_SK_STAT.FIRED k) = 0
          ∧ t.dev.strike k = { s.dev.strike k with seen := x.pos, fired := 0, hop := s.dev.hopOf c }
          ∧ s.Keeps t (· = STP_SK_STAT.addr k))
      ∧ (idle → bad →
        ∃ t, exec (.strikeArm c k) s = .next t ∧ t.dev.is STP_FLAGS.REFUSED = true ∧ t.dev.stp = s.dev.stp
          ∧ t.dev.ntq.input = s.dev.ntq.input ++ [⟨.alert, idSTP, 0x014, word k, s.dev.time⟩] ∧ s.Keeps t (· = STP_FLAGS.addr))
      ∧ (¬ idle →
        ∃ t, exec (.strikeArm c k) s = .next t ∧ t.dev.stp = s.dev.stp ∧ s.Keeps t fun _ => False)
      ∧ (idle → ¬ bad → pos = false → tgt < s.dev.time → s.dev.is (STP_SK_CTL.FIRE_LATE k) = false →
        s.dev.is (STP_SK_CTL.REPEAT k) = false →
        ∃ t, exec (.strikeArm c k) s = .next t ∧ t.dev.strikeState k = 0 ∧ t.dev.is (STP_SK_STAT.PASSED k) = true
          ∧ t.dev.is STP_FLAGS.PASSED = true
          ∧ t.dev.get64 STP_PASSED_CNT.addr = (s.dev.get64 STP_PASSED_CNT.addr + 1) % 2 ^ 64
          ∧ t.dev.ntq.input = s.dev.ntq.input ++ [⟨.alert, idSTP, 0x010, word k, s.dev.time⟩]
          ∧ s.Keeps t fun a => a = STP_SK_STAT.addr k ∨ a = STP_FLAGS.addr ∨ a = STP_PASSED_CNT.addr
            ∨ a = STP_PASSED_CNT.addr + 4)
      ∧ (idle → ¬ bad → pos = false → tgt < s.dev.time → s.dev.is (STP_SK_CTL.FIRE_LATE k) = true →
        s.dev.is (STP_SK_CTL.TICK k) = false →
        ∃ t, exec (.strikeArm c k) s = .next t ∧ t.dev.strikeState k = 2 ∧ (t.dev.strike k).tf = s.dev.time
          ∧ t.dev.is (STP_SK_STAT.PASSED k) = false ∧ t.dev.is STP_FLAGS.LATE = true
          ∧ t.dev.get64 STP_LATE_CNT.addr = (s.dev.get64 STP_LATE_CNT.addr + 1) % 2 ^ 64
          ∧ s.Keeps t fun a => a = STP_SK_STAT.addr k ∨ a = STP_FLAGS.addr ∨ a = STP_LATE_CNT.addr ∨ a = STP_LATE_CNT.addr + 4
            ∨ a = STP_SK_LAST.addr k ∨ a = STP_SK_LAST_HI.addr k))
    ∧ (s.dev.Causes c (if lo then STP_DISARM_LO.addr else STP_DISARM_HI.addr) (0x100 + k) →
      ∃ t, exec (.strikeDisarm c k) s = .next t ∧ t.dev.strikeState k = 0
        ∧ (s.dev.strikeState k = 2 → (∀ m ∈ t.dev.stp.checks, m.lock ≠ (s.dev.strike k).lock)
          ∧ ∀ m ∈ t.dev.stp.locks, m.id = (s.dev.strike k).lock → m.miss = some false)
        ∧ (s.dev.strikeState k ≠ 2 → t.dev.stp.checks = s.dev.stp.checks ∧ t.dev.stp.locks = s.dev.stp.locks)
        ∧ t.dev.strike k = { s.dev.strike k with off := some s.dev.time }
        ∧ t.dev.cad = s.dev.cad ∧ t.dev.evr.input = s.dev.evr.input ∧ s.Keeps t (· = STP_SK_STAT.addr k))

/-- an armed time strike locks from LEAD before its target on, and not before; its firing time is the greater of the target and
the lock time plus L0; one without TICK, or under a tick source in force that is not ANGLE, leaves the cadence alone, which is a part of rule 370 (R366). -/
def Obligations.TimeStrikeLocks : Prop :=
  ∀ (s : State) (k : Fin 64), s.Ready → s.dev.strikeState k = 1 → s.dev.is (STP_SK_CTL.KIND k) = false →
    let tgt := s.dev.get64 (STP_SK_TGT_LO.addr k)
    let lead := s.dev.get (STP_SK_PARAM.LEAD k) * 4000
    let l0 := if s.dev.is (STP_SK_CTL.TICK k) then lead / 2 else 0
    (s.dev.time < tgt - lead → ∃ t, exec (.timeStrikeLock k) s = .next t ∧ t.dev.stp = s.dev.stp ∧ s.Keeps t fun _ => False)
    ∧ (tgt - lead ≤ s.dev.time →
      ∃ t, exec (.timeStrikeLock k) s = .next t ∧ t.dev.strikeState k = 2 ∧ (t.dev.strike k).tf = Nat.max tgt (s.dev.time + l0)
        ∧ t.dev.get64 (STP_SK_LAST.addr k) = Nat.max tgt (s.dev.time + l0) % 2 ^ 64
        ∧ ⟨s.dev.stp.nextLock, decide (tgt < s.dev.time + l0), none⟩ ∈ t.dev.stp.locks
        ∧ (tgt < s.dev.time + l0 → t.dev.is STP_FLAGS.LATE = true
          ∧ t.dev.get64 STP_LATE_CNT.addr = (s.dev.get64 STP_LATE_CNT.addr + 1) % 2 ^ 64)
        ∧ (s.dev.is (STP_SK_CTL.TICK k) = true →
          t.dev.get64 STP_TICK_CNT.addr = (s.dev.get64 STP_TICK_CNT.addr + 1) % 2 ^ 64)
        ∧ (s.dev.is (STP_SK_CTL.TICK k) = false ∨ s.dev.forceGet CAD_CTL.SRC ≠ 1 → t.dev.cad = s.dev.cad)
        ∧ s.Keeps t fun a => a = STP_SK_STAT.addr k ∨ a = STP_SK_LAST.addr k ∨ a = STP_SK_LAST_HI.addr k ∨ a = STP_FLAGS.addr
          ∨ a = STP_LATE_CNT.addr ∨ a = STP_LATE_CNT.addr + 4
          ∨ s.dev.is (STP_SK_CTL.TICK k) = true ∧ (a = STP_TICK_CNT.addr ∨ a = STP_TICK_CNT.addr + 4 ∨ a / 0x1_0000 = 4))

/-- an armed position strike whose predicted crossing lies within LEAD locks on the prediction; one that its channel crosses in its direction
with no crossing predicted locks at that sample and is late; a locked strike fires at its time, and re-arms with its target advanced by
STEP or ends; a miss check compares the position at Tf, from the samples about it, with the target and gives its result to the lock. The samples are those since the channel's last command, the model's choice (log entry 20) (R367-R372). -/
def Obligations.StrikeWork : Prop :=
  ∀ (s : State) (k : Fin 64), s.Ready →
    let i := s.dev.get (STP_SK_CTL.ENC k)
    let pos := s.dev.is (STP_SK_CTL.KIND k)
    let tgt := s.dev.get64 (STP_SK_TGT_LO.addr k)
    let t40 := tgt % 2 ^ 40
    let lead := s.dev.get (STP_SK_PARAM.LEAD k) * 4000
    let l0 := if s.dev.is (STP_SK_CTL.TICK k) then lead / 2 else 0
    let dir := s.dev.get (STP_SK_CTL.DIR k)
    let step := s.dev.get (STP_SK_STEP.STEP k)
    let count := s.dev.get (STP_SK_COUNT.COUNT k)
    let fired := (s.dev.strike k).fired
    let locks := fun a => a = STP_SK_STAT.addr k ∨ a = STP_SK_LAST.addr k ∨ a = STP_SK_LAST_HI.addr k ∨ a = STP_FLAGS.addr
      ∨ a = STP_LATE_CNT.addr ∨ a = STP_LATE_CNT.addr + 4 ∨ a = ENC_CH_CORR0.addr i ∨ a = ENC_CH_CORR1.addr i
      ∨ s.dev.is (STP_SK_CTL.TICK k) = true ∧ (a = STP_TICK_CNT.addr ∨ a = STP_TICK_CNT.addr + 4 ∨ a / 0x1_0000 = 4)
    (∀ m, s.dev.strikeState k = 1 → pos = true → s.dev.is (ENC_CH_CTL.EN i) = true →
      let d := s.dev.encSamples i m
      let y := d.encChan i
      let e := diff40 y.pos t40
      let before := diff40 (s.dev.strike k).seen t40
      (dir ≠ 1 ∧ before < 0 ∧ 0 ≤ e ∧ 0 ≤ d.encSpeed i ∨ dir ≠ 0 ∧ 0 < before ∧ e ≤ 0 ∧ d.encSpeed i ≤ 0 →
        ∃ t, exec (.positionStrikeLock k m) s = .next t ∧ t.dev.strikeState k = 2
          ∧ (t.dev.strike k).tf = y.seenAt + l0 ∧ (t.dev.encChan i).pos = y.pos
          ∧ t.dev.get64 STP_LATE_CNT.addr = (s.dev.get64 STP_LATE_CNT.addr + 1) % 2 ^ 64 ∧ t.dev.is STP_FLAGS.LATE = true
          ∧ ⟨k, s.dev.stp.nextLock, i, t40, s.dev.get (STP_SK_PARAM.TOL k), y.seenAt + l0⟩ ∈ t.dev.stp.checks
          ∧ s.Keeps t locks)
      ∧ ∀ v : Nat, 0 < v →
        (d.encSpeed i = v ∧ dir ≠ 1 ∧ before < 0 ∧ e < 0 ∨ d.encSpeed i = -v ∧ dir ≠ 0 ∧ 0 < before ∧ 0 < e) →
        let tc := y.seenAt + (2 * e.natAbs * 1024000000000 + v) / (2 * v)
        (tc ≤ y.seenAt + lead →
          ∃ t, exec (.positionStrikeLock k m) s = .next t ∧ t.dev.strikeState k = 2
            ∧ (t.dev.strike k).tf = Nat.max tc (y.seenAt + l0)
            ∧ (y.seenAt + l0 ≤ tc → t.dev.get64 STP_LATE_CNT.addr = s.dev.get64 STP_LATE_CNT.addr) ∧ s.Keeps t locks)
        ∧ (y.seenAt + lead < tc →
          ∃ t, exec (.positionStrikeLock k m) s = .next t ∧ t.dev.strikeState k = 1 ∧ (t.dev.strike k).seen = y.pos
            ∧ s.Keeps t fun a => a = ENC_CH_CORR0.addr i ∨ a = ENC_CH_CORR1.addr i))
    ∧ (s.dev.strikeState k = 2 → (s.dev.strike k).tf ≤ s.dev.time →
      (s.dev.is (STP_SK_CTL.REPEAT k) = false ∨ count ≠ 0 ∧ count ≤ fired + 1 →
        ∃ t, exec (.strikeFire k) s = .next t ∧ t.dev.strikeState k = 0 ∧ (t.dev.strike k).fired = fired + 1
          ∧ t.dev.get (STP_SK_STAT.FIRED k) = (fired + 1) % 2 ^ 24
          ∧ t.dev.evr.input = s.dev.evr.input ++ [s.dev.sourceEvent (0x40 + k.val) (s.dev.strike k).hop]
          ∧ t.dev.get64 STP_FIRE_CNT.addr = (s.dev.get64 STP_FIRE_CNT.addr + 1) % 2 ^ 64
          ∧ t.dev.ntq.input = s.dev.ntq.input ++ [⟨.event, idSTP, 0x013, word k, s.dev.time⟩]
          ∧ s.Keeps t fun a => a = STP_SK_STAT.addr k ∨ a = STP_FIRE_CNT.addr ∨ a = STP_FIRE_CNT.addr + 4)
      ∧ (pos = false → s.dev.is (STP_SK_CTL.REPEAT k) = true → (count = 0 ∨ fired + 1 < count) →
        s.dev.time ≤ (tgt + step) % 2 ^ 64 →
        ∃ t, exec (.strikeFire k) s = .next t ∧ t.dev.strikeState k = 1 ∧ (t.dev.strike k).fired = fired + 1
          ∧ t.dev.get64 (STP_SK_TGT_LO.addr k) = (tgt + step) % 2 ^ 64
          ∧ t.dev.evr.input = s.dev.evr.input ++ [s.dev.sourceEvent (0x40 + k.val) (s.dev.strike k).hop]
          ∧ s.Keeps t fun a => a = STP_SK_STAT.addr k ∨ a = STP_FIRE_CNT.addr ∨ a = STP_FIRE_CNT.addr + 4
            ∨ a = STP_SK_TGT_LO.addr k ∨ a = STP_SK_TGT_HI.addr k)
      ∧ (pos = true → s.dev.is (STP_SK_CTL.REPEAT k) = true → (count = 0 ∨ fired + 1 < count) →
        s.dev.is (ENC_CH_CTL.EN i) = false →
        ∃ t, exec (.strikeFire k) s = .next t ∧ t.dev.strikeState k = 1
          ∧ t.dev.get64 (STP_SK_TGT_LO.addr k) = unsigned 40 (t40 + signed 32 step)
          ∧ t.dev.evr.input = s.dev.evr.input ++ [s.dev.sourceEvent (0x40 + k.val) (s.dev.strike k).hop]
          ∧ s.Keeps t fun a => a = STP_SK_STAT.addr k ∨ a = STP_FIRE_CNT.addr ∨ a = STP_FIRE_CNT.addr + 4
            ∨ a = STP_SK_TGT_LO.addr k ∨ a = STP_SK_TGT_HI.addr k))
    ∧ ∀ (m : MissCheck) l (q : EncMotion), s.dev.stp.checks = m :: l → m.strike = k → s.dev.bracketed q m.tf = true →
      let d := s.dev.encSamples m.chan q
      let b := s.dev.sampleBefore q m.tf
      let at' := interpolate (d.posAt m.chan b) (d.posAt m.chan (b + ns 25)) (m.tf - b)
      let missed : Bool := !((d.encAt m.chan b).on && (d.encAt m.chan (b + ns 25)).on) || decide (m.tol < (diff40 at' m.tgt).natAbs)
      ∃ t, exec (.strikeMissCheck k q) s = .next t ∧ (∀ n ∈ t.dev.stp.checks, n.lock ≠ m.lock)
        ∧ (∀ n ∈ t.dev.stp.locks, n.id = m.lock → n.miss = some missed)
        ∧ (missed = true → t.dev.is STP_FLAGS.MISS = true
          ∧ t.dev.get64 STP_MISS_CNT.addr = (s.dev.get64 STP_MISS_CNT.addr + 1) % 2 ^ 64)
        ∧ (missed = false → t.dev.get64 STP_MISS_CNT.addr = s.dev.get64 STP_MISS_CNT.addr ∧ t.dev.ntq.input = d.ntq.input)
        ∧ s.Keeps t fun a => a = STP_FLAGS.addr ∨ a = STP_MISS_CNT.addr ∨ a = STP_MISS_CNT.addr + 4 ∨ a = ENC_CH_CORR0.addr m.chan
          ∨ a = ENC_CH_CORR1.addr m.chan

/-- a write of 1 to a channel's bit of EVR_FIRE gives its task one activation, whatever its source, with hop count 0, and counts
it; an activation beyond four pending is lost; a channel whose EN is 0 ignores the write (R380). -/
def Obligations.SoftwareFires : Prop :=
  ∀ (s : State) (r : Requester) (ch : Fin 128), s.Ready → s.dev.Admits r (EVR_FIRE.addr (ch.val / 32)) →
    let n := s.dev.get (EVR_CH.TASK ch)
    let p := s.dev.taskPending n
    (s.dev.is (EVR_CH.EN ch) = true →
      ∃ t, exec (.softwareFire r ch) s = .next t
        ∧ t.dev.get64 EVR_SW_CNT.addr = (s.dev.get64 EVR_SW_CNT.addr + 1) % 2 ^ 64
        ∧ (p.1 < 4 → t.dev.taskPending n = (p.1 + 1, Nat.max p.2 0)
          ∧ s.Keeps t fun a => a = EVR_SW_CNT.addr ∨ a = EVR_SW_CNT.addr + 4)
        ∧ (4 ≤ p.1 → t.dev.taskPending n = p ∧ t.dev.is EVR_FLAGS.LOST = true ∧ t.dev.get EVR_LAST.TASK = n
          ∧ t.dev.get64 EVR_LOST_CNT.addr = (s.dev.get64 EVR_LOST_CNT.addr + 1) % 2 ^ 64
          ∧ s.Keeps t fun a => a = EVR_SW_CNT.addr ∨ a = EVR_SW_CNT.addr + 4 ∨ a = EVR_LOST_CNT.addr ∨ a = EVR_LOST_CNT.addr + 4
            ∨ a = EVR_FLAGS.addr ∨ a = EVR_LAST.addr)
        ∧ ∀ m, m ≠ n → t.dev.taskPending m = s.dev.taskPending m)
    ∧ (s.dev.is (EVR_CH.EN ch) = false →
      ∃ t, exec (.softwareFire r ch) s = .next t ∧ t.dev.evr = s.dev.evr ∧ s.Keeps t fun _ => False)

/-- a source event carries the enabled channels of its source as they stand where it arrives; routed, it adds one activation to the task of each,
  up to four pending, with the largest hop count; one that has made more than eight hops is dropped and reported through its lowest channel; a due
  delay timer fires its unit's source with its hop count, one expiry in a cycle; an act of a task, one in a cycle, takes one pending activation,
  carries its hop count plus 1 while it lasts, and does exactly what the action it names does, an URGENT task not while an URGENT of its port waits; a
  delay unit's task starts a free timer, or is lost when all four run; tasks that name nothing do nothing; that a cycle is a device time, that a lost
  activation counts as routed and that a routed event keeps the channels it found are the model's readings (log entry 39) (R154, R374, R376-R379,
  R381, R382). -/
def Obligations.EventRoutingAndTasks : Prop :=
  (∀ (s : State), s.Ready →
    let own := fun a => a = EVR_ROUTED_CNT.addr ∨ a = EVR_ROUTED_CNT.addr + 4 ∨ a = EVR_LOST_CNT.addr ∨ a = EVR_LOST_CNT.addr + 4
      ∨ a = EVR_LOOP_CUT_CNT.addr ∨ a = EVR_LOOP_CUT_CNT.addr + 4 ∨ a = EVR_FLAGS.addr ∨ a = EVR_LAST.addr
    (∀ src hop e n, s.dev.evrNow.before = [] → ((e, n) ∈ (s.dev.sourceEvent src hop).routes ↔ e < 128 ∧ s.dev.is (EVR_CH.EN e) = true
      ∧ src ≠ 0 ∧ s.dev.get (EVR_CH.SRC e) = src ∧ n = s.dev.get (EVR_CH.TASK e)))
    ∧ (∀ ev rest, s.dev.evr.input = ev :: rest → ev.hop ≤ 8 → (∀ n, (s.dev.taskPending n).1 ≤ 4) →
      let of (n : Nat) := ev.routes.filter (·.2 = n)
      ∃ t, exec .eventRoute s = .next t ∧ t.dev.evr.input = rest
        ∧ (∀ n, (t.dev.taskPending n).1 = Nat.min 4 ((s.dev.taskPending n).1 + (of n).length))
        ∧ (∀ n, of n ≠ [] → (s.dev.taskPending n).1 < 4 → (t.dev.taskPending n).2 = Nat.max (s.dev.taskPending n).2 ev.hop)
        ∧ t.dev.get64 EVR_ROUTED_CNT.addr = (s.dev.get64 EVR_ROUTED_CNT.addr + ev.routes.length) % 2 ^ 64
        ∧ (∀ n, 4 < (s.dev.taskPending n).1 + (of n).length → t.dev.is EVR_FLAGS.LOST = true)
        ∧ s.Keeps t own)
    ∧ (∀ ev rest, s.dev.evr.input = ev :: rest → 8 < ev.hop →
      ∃ t, exec .eventRoute s = .next t ∧ t.dev.evr.input = rest ∧ t.dev.evr.pending = s.dev.evr.pending
        ∧ (ev.routes = [] → s.Keeps t fun _ => False)
        ∧ (∀ ch n l, ev.routes = (ch, n) :: l → ch < 128 → t.dev.is EVR_FLAGS.LOOP_CUT = true ∧ t.dev.get EVR_LAST.CH = ch
          ∧ t.dev.get64 EVR_LOOP_CUT_CNT.addr = (s.dev.get64 EVR_LOOP_CUT_CNT.addr + 1) % 2 ^ 64 ∧ s.Keeps t own))
    ∧ ∀ (k : Fin 8) tm l, s.dev.evr.timers = (k.val, tm) :: l → tm.1 ≤ s.dev.time → s.dev.actedNow 0x200 = false →
      ∃ t, exec (.delayExpire k) s = .next t ∧ t.dev.evr.timers = l
        ∧ t.dev.evr.input = s.dev.evr.input ++ [s.dev.sourceEvent (0x30 + k.val) tm.2] ∧ t.dev.actedNow 0x200 = true ∧ s.Keeps t fun _ => False)
  ∧ ∀ (s : State), s.Ready →
    let began := fun (n : Nat) => ({ s with dev := (s.dev.noteAct n).setEvr fun e =>
      let p := s.dev.taskPending n
      { e with hop := p.2 + 1, pending := Tab.set (fun _ => (0, 0)) e.pending n (if p.1 = 1 then (0, 0) else (p.1 - 1, p.2)) } } : State)
    let ended := fun u : State => { u with dev := u.dev.setEvr fun e => { e with hop := 0 } }
    let acts := fun (n : Nat) (f : Dev → Dev) => (s.dev.taskPending n).1 ≠ 0 → s.dev.actedNow n = false →
      exec (.taskAct (BitVec.ofNat 9 n)) s = .next (ended ((began n).settleTo (f (began n).dev)))
    (∀ p : Fin 16, acts (0x010 + p) (·.fioSet p) ∧ acts (0x020 + p) (·.fioClr p) ∧ acts (0x030 + p) (·.fioTgl p)
      ∧ acts (0x040 + p) (·.fioPulse p) ∧ ((s.dev.port p).link.urgents = [] → acts (0x050 + p) (·.urgentFire p)))
    ∧ (∀ g : Fin 8, acts (0x060 + g) (·.commitGroups (2 ^ g.val))
      ∧ acts (0x068 + g) fun d => d.forEach ((List.range 64).filter fun r => d.ringGroup r = g) fun r d => d.armRing r)
    ∧ acts 0x070 (·.auditRequest)
    ∧ (∀ c : Fin 32, acts (0x080 + c) (·.dmaStart c) ∧ acts (0x0A0 + c) (·.dmaStop c))
    ∧ (∀ k : Fin 64, acts (0x0C0 + k) (·.strikeArm k) ∧ acts (0x100 + k) (·.strikeDisarm k))
    ∧ (∀ v, 41 ≤ v → v < 64 → acts (0x140 + v) (·.signal v))
    ∧ (∀ k : Fin 8, (s.dev.taskPending (0x078 + k)).1 ≠ 0 → s.dev.actedNow (0x078 + k) = false → (s.dev.evr.timers.filter (·.1 = k.val)).length < 4 →
      ∃ t, exec (.taskAct (BitVec.ofNat 9 (0x078 + k))) s = .next t ∧ t.dev.evr.timers = s.dev.evr.timers
        ++ [(k.val, (s.dev.time + s.dev.get (EVR_DLY.DELAY k), (s.dev.taskPending (0x078 + k)).2 + 1))]
        ∧ t.dev.evr.hop = 0 ∧ t.dev.evr.pending = (began (0x078 + k)).dev.evr.pending ∧ s.Keeps t fun _ => False)
    ∧ (∀ k : Fin 8, (s.dev.taskPending (0x078 + k)).1 ≠ 0 → s.dev.actedNow (0x078 + k) = false → 4 ≤ (s.dev.evr.timers.filter (·.1 = k.val)).length →
      ∃ t, exec (.taskAct (BitVec.ofNat 9 (0x078 + k))) s = .next t ∧ t.dev.evr.timers = s.dev.evr.timers
        ∧ t.dev.is EVR_FLAGS.LOST = true ∧ t.dev.get EVR_LAST.TASK = 0x078 + k.val
        ∧ t.dev.get64 EVR_LOST_CNT.addr = (s.dev.get64 EVR_LOST_CNT.addr + 1) % 2 ^ 64
        ∧ s.Keeps t fun a => a = EVR_LOST_CNT.addr ∨ a = EVR_LOST_CNT.addr + 4 ∨ a = EVR_FLAGS.addr ∨ a = EVR_LAST.addr)
    ∧ ∀ n : BitVec 9, (n.toNat < 0x010 ∨ 0x071 ≤ n.toNat ∧ n.toNat < 0x078 ∨ 0x140 ≤ n.toNat ∧ n.toNat < 0x140 + 41
      ∨ 0x180 ≤ n.toNat ∨ (s.dev.taskPending n.toNat).1 = 0 ∨ s.dev.actedNow n.toNat = true
      ∨ ∃ p : Fin 16, n.toNat = 0x050 + p.val ∧ (s.dev.port p).link.urgents ≠ []) →
      ∃ t, exec (.taskAct n) s = .next t ∧ t.dev.stp = s.dev.stp ∧ t.dev.fio = s.dev.fio ∧ t.dev.evr.input = s.dev.evr.input
        ∧ s.Keeps t fun _ => False


/-! ### Umsal, the dictionary, the escrow and the network (chapter 14) -/

/-- OPEN of major 1 opens the lowest free network session, or the session of its slot, and answers with a fresh nonce; another major, or every
  session in use, opens nothing; a request with a wrong nonce or an unexpected SEQ is discarded and counted, and one with the SEQ last answered gets
  the last response again and is not carried out twice; CLOSE, HEARTBEAT and SUBSCRIBE are answered; which requests count and how a SEQ begins are the
  model's readings (log entry 40) (R394-R396, R398). -/
def Obligations.UmsalSessions : Prop :=
  ∀ (s : State) (f : UmsalFrom) (k : Msg), s.Ready → s.dev.Hears f → Msg.parse (s.dev.messageOf f) = some k →
    let n := k.session
    let nonce := (Config.nonce s.dev.fresh).toNat
    let first := fun (h : Option Nat) (n : Nat) => message (Nat.min k.minor 1) 0x81 n k.seq nonce
      (le 2 0 ++ le 2 0 ++ le 1 (h.getD 0xFF) ++ le 1 0 ++ le 2 2 ++ le 4 2000)
    let made := fun n => some { Session.fresh nonce (Nat.min k.minor 1) (Dev.peerOf f) s.dev.time with
      lastResp := first s.dev.holder n, own := s.dev.ownOf f }
    let netOpen := ∃ e a p l, f = .net e a p l
    (k.typ = 1 → k.major = 1 → netOpen →
      (∀ e ∈ s.dev.mgt.sessions, e.2.peer ≠ Dev.peerOf f ∨ e.2.unused = false ∨ e.2.openedAt + ms 1000 ≤ s.dev.time) →
      (∀ n, n < 8 → s.dev.session n = none → (∀ m, m < n → s.dev.session m ≠ none) →
        ∃ t, exec (.umsalOpen f) s = .next t ∧ t.dev.session n = made n ∧ (∀ m, m ≠ n → t.dev.session m = s.dev.session m)
          ∧ s.Replies t f (first s.dev.holder n)
          ∧ t.dev.ntq.input = s.dev.ntq.input ++ [⟨.info, idMGT, 0x010, word n, s.dev.time⟩] ∧ s.Keeps t carried)
      ∧ ((∀ n, n < 8 → s.dev.session n ≠ none) →
        ∃ t, exec (.umsalOpen f) s = .next t ∧ t.dev.mgt.sessions = s.dev.mgt.sessions
          ∧ s.Replies t f (message 1 0x81 0xFF k.seq 0 (le 2 3 ++ le 2 0)) ∧ s.Keeps t carried))
    ∧ (k.typ = 1 → k.major ≠ 1 →
      ∃ t, exec (.umsalOpen f) s = .next t ∧ t.dev.mgt.sessions = s.dev.mgt.sessions
        ∧ s.Replies t f (message 1 0x81 0xFF k.seq 0 (le 2 2 ++ le 2 0)) ∧ s.Keeps t carried)
    ∧ (∀ m, k.typ = 1 → k.major = 1 → f = .slot m → s.dev.holder ≠ some (8 + m.val) →
      ∃ t, exec (.umsalOpen f) s = .next t ∧ t.dev.session (8 + m) = made (8 + m) ∧ s.Replies t f (first s.dev.holder (8 + m))
        ∧ s.Keeps t carried)
    ∧ (∀ e ∈ sessionRequests f, e.2 = k.typ →
      (s.dev.session n = none ∨ (∃ x, s.dev.session n = some x ∧ (x.nonce ≠ k.nonce ∨ Dev.fromSession f n x = false
          ∨ k.seq ≠ x.lastSeq ∧ k.seq ≠ (x.lastSeq + 1) % 2 ^ 16)) →
        ∃ t, exec e.1 s = .next t ∧ t.dev.mgt.sessions = s.dev.mgt.sessions ∧ t.dev.mgt.key = s.dev.mgt.key
          ∧ t.dev.mgt.escrow = s.dev.mgt.escrow
          ∧ t.dev.get64 MGT_UMSAL_DISCARD_CNT.addr = (s.dev.get64 MGT_UMSAL_DISCARD_CNT.addr + 1) % 2 ^ 64 ∧ s.Keeps t carried)
      ∧ (∀ x, s.dev.session n = some x → x.nonce = k.nonce → Dev.fromSession f n x = true → k.seq = x.lastSeq →
        ∃ t, exec e.1 s = .next t ∧ s.Replies t f x.lastResp ∧ t.dev.mgt.escrow = s.dev.mgt.escrow
          ∧ t.dev.mgt.key.holder = s.dev.mgt.key.holder ∧ t.dev.mgt.key.claims = s.dev.mgt.key.claims
          ∧ t.dev.mgt.dict = s.dev.mgt.dict ∧ s.Keeps t carried))
    ∧ ∀ x, s.dev.Takes f k x →
      (k.typ = 0x02 → s.dev.holder ≠ some n →
        ∃ t, exec (.umsalClose f) s = .next t ∧ t.dev.session n = none ∧ t.dev.holder = s.dev.holder
          ∧ s.Replies t f (message x.minor 0x82 n k.seq x.nonce (le 2 0 ++ le 2 0))
          ∧ t.dev.ntq.input = s.dev.ntq.input ++ [⟨.info, idMGT, 0x011, word (2 ^ 8 + n), s.dev.time⟩] ∧ s.Keeps t carried)
      ∧ (k.typ = 0x03 →
        ∃ t, exec (.umsalHeartbeat f) s = .next t ∧ s.Answers t f k x 0 0 []
          ∧ (∃ y, t.dev.session n = some y ∧ y.lastAt = s.dev.time) ∧ (s.dev.holder = some n → t.dev.mgt.key.heardAt = s.dev.time)
          ∧ t.dev.get64 MGT_UMSAL_MSG_CNT.addr = (s.dev.get64 MGT_UMSAL_MSG_CNT.addr + 1) % 2 ^ 64 ∧ s.Keeps t carried)
      ∧ (k.typ = 0x40 →
        let q := field k.body 0 1
        let used := ∃ e ∈ s.dev.mgt.sessions, e.1 ≠ n ∧ e.2.queue = some q
        let sets := fun (t : State) v => ∃ y, t.dev.session n = some y ∧ y.queue = v
        (x.peer = none ∨ x.minor = 0 →
          ∃ t, exec (.umsalSubscribe f) s = .next t ∧ s.Answers t f k x 16 0 [] ∧ sets t x.queue ∧ s.Keeps t carried)
        ∧ (x.peer ≠ none → x.minor ≠ 0 →
          (q = 0xFF → ∃ t, exec (.umsalSubscribe f) s = .next t ∧ s.Answers t f k x 0 0 [] ∧ sets t none ∧ s.Keeps t carried)
          ∧ (2 ≤ q → q ≤ 7 → ¬ used →
            ∃ t, exec (.umsalSubscribe f) s = .next t ∧ s.Answers t f k x 0 0 [] ∧ sets t (some q) ∧ s.Keeps t carried)
          ∧ (q ≠ 0xFF → q < 2 ∨ 7 < q ∨ used →
            ∃ t, exec (.umsalSubscribe f) s = .next t ∧ s.Answers t f k x 8 0 [] ∧ sets t x.queue ∧ s.Keeps t carried)))

/-- HANDOVER that breaks its condition changes nothing and is answered ESCROW_OPEN while an escrow is OPEN, BUSY while one is
COMMITTING, here one that waits and goes no further of itself before the request, and RANGE for a successor that is not open or is the keyholder
itself; RESIGN and HANDOVER from a session that is not keyholder receive NOT_KEYHOLDER; a commit waits so while its apply is pending, while
one is pending before its writes, and while its columns load (R408). -/
def Obligations.HandoverRefused : Prop :=
  (∀ (s : State) (f : UmsalFrom) (k : Msg) (x : Session), s.dev.low = false → s.dev.vlt.writes = [] → s.settled = s → s.dev.Takes f k x →
    let n := field k.body 0 1
    let refused := fun c status => ∃ t, exec c s = .next t ∧ s.Answers t f k x status 0 [] ∧ t.dev.holder = s.dev.holder
      ∧ t.dev.mgt.key.claims = s.dev.mgt.key.claims ∧ t.dev.mgt.key.prio = s.dev.mgt.key.prio
      ∧ t.dev.mgt.key.epoch = s.dev.mgt.key.epoch ∧ t.dev.mgt.escrow = s.dev.mgt.escrow ∧ s.Keeps t carried
    (k.typ = 0x21 → s.dev.holder ≠ some k.session → refused (.umsalHandover f) 4)
    ∧ (k.typ = 0x22 → s.dev.holder ≠ some k.session → refused (.umsalResign f) 4)
    ∧ (k.typ = 0x21 → s.dev.holder = some k.session →
      (s.dev.mgt.escrow.state = 1 → refused (.umsalHandover f) 10)
      ∧ (s.dev.mgt.escrow.state = 2 → refused (.umsalHandover f) 15)
      ∧ (s.dev.mgt.escrow.state = 0 → s.dev.session n = none ∨ n = k.session → refused (.umsalHandover f) 8)))
  ∧ ∀ s : State, s.dev.vlt.writes = [] →
    (s.dev.mgt.escrow.commit = none → s.settled = s)
    ∧ ∀ c, s.dev.mgt.escrow.commit = some c → s.dev.mgt.firmware = .running →
      (c.applies ≠ none → s.dev.is CAD_APPLY.PENDING = true → s.settled = s)
      ∧ (c.applies = none → c.written = false → c.loading = true → s.dev.commitLoaded c = false → s.settled = s)
      ∧ (∀ w, c.applies = none → c.written = false → c.waitAt = some w → s.dev.is CAD_APPLY.PENDING = true → s.settled = s)

/-- a CLAIM of a vacant key waits for the election, one of a held key is answered KEY_HELD and stays pending, and a withdrawal
removes it; HANDOVER and RESIGN move the key, but a HANDOVER while an escrow is COMMITTING, after the commit has gone on as far as it can
(log entry 8), is answered BUSY; the election takes the highest priority and then the lowest session; silence of
2 s and the end of a session vacate the key and roll an OPEN escrow back; DCT_GATE follows the key; the model's readings of the key stand in
log entry 40 (R396, R406-R409, R411). -/
def Obligations.KeyAndElections : Prop :=
  (∀ (s : State) (f : UmsalFrom) (k : Msg) (x : Session), s.dev.low = false → s.dev.vlt.writes = [] →
    let u := s.settled
    u.dev.Takes f k x → k.typ = 0x21 → u.dev.holder = some k.session → u.dev.mgt.escrow.state = 2 →
    ∃ t, exec (.umsalHandover f) s = .next t ∧ u.Answers t f k x 15 0 [] ∧ t.dev.holder = u.dev.holder
      ∧ t.dev.mgt.escrow = u.dev.mgt.escrow ∧ u.Keeps t carried)
  ∧ ∀ s : State, s.Ready → s.dev.mgt.firmware = .running →
    let key := s.dev.mgt.key
    let gate := fun (t : State) (h : Option Nat) => t.dev.is DCT_GATE.NOKEY = h.isNone
      ∧ t.dev.is DCT_GATE.OPEN = (h.isSome && decide (8 ≤ h.getD 0)) ∧ t.dev.get DCT_GATE.SESSION = h.getD 0 % 8
    let moved := fun (t : State) (h : Option Nat) (cause : Nat) => t.dev.holder = h ∧ gate t h
      ∧ t.dev.mgt.key.epoch = (key.epoch + 1) % 2 ^ 32 ∧ t.dev.mgt.key.heardAt = s.dev.time
      ∧ t.dev.get64 MGT_KEY_CHANGE_CNT.addr = (s.dev.get64 MGT_KEY_CHANGE_CNT.addr + 1) % 2 ^ 64
      ∧ ⟨.event, idMGT, 0x012, word (cause * 2 ^ 16 + s.dev.holder.getD 0xFF * 2 ^ 8 + h.getD 0xFF), s.dev.time⟩ ∈ t.dev.ntq.input
      ∧ s.Keeps t fun a => carried a ∨ a = DCT_GATE.addr
    (∀ f k x, s.dev.Takes f k x → k.typ = 0x20 →
      let n := k.session
      let b := field k.body 0 1
      let others := key.claims.filter (·.session != n)
      (128 ≤ b → ∃ t, exec (.umsalClaim f) s = .next t ∧ s.Answers t f k x 0 0 [] ∧ t.dev.holder = s.dev.holder
        ∧ t.dev.mgt.key.claims = others ∧ (others = [] → t.dev.mgt.key.gatherAt = none) ∧ s.Keeps t carried)
      ∧ (b < 128 → s.dev.holder = some n → ∃ t, exec (.umsalClaim f) s = .next t ∧ s.Answers t f k x 0 0 []
        ∧ t.dev.mgt.key.claims = key.claims ∧ s.Keeps t carried)
      ∧ (∀ h, b < 128 → s.dev.holder = some h → h ≠ n → ∃ t, exec (.umsalClaim f) s = .next t ∧ s.Answers t f k x 13 h []
        ∧ t.dev.holder = some h ∧ t.dev.mgt.key.claims = others ++ [⟨n, b % 16, none⟩] ∧ s.Keeps t carried)
      ∧ (b < 128 → s.dev.holder = none → ∃ t, exec (.umsalClaim f) s = .next t ∧ t.dev.holder = none
        ∧ t.dev.mgt.key.claims = others ++ [⟨n, b % 16, some k.seq⟩]
        ∧ t.dev.mgt.key.gatherAt = some (key.gatherAt.getD s.dev.time)
        ∧ (∃ y, t.dev.session n = some y ∧ y.busy = some k.seq ∧ y.lastSeq = x.lastSeq) ∧ s.Keeps t carried))
    ∧ (∀ f k x, s.dev.Takes f k x → s.dev.holder = some k.session → s.dev.mgt.escrow.state = 0 →
      (k.typ = 0x21 → (s.dev.session (field k.body 0 1)).isSome = true → field k.body 0 1 ≠ k.session →
        ∃ t, exec (.umsalHandover f) s = .next t ∧ s.Answers t f k x 0 0 [] ∧ moved t (some (field k.body 0 1)) 2
          ∧ t.dev.mgt.key.claims = key.claims.filter (·.session != field k.body 0 1))
      ∧ (k.typ = 0x22 → key.claims = [] →
        ∃ t, exec (.umsalResign f) s = .next t ∧ s.Answers t f k x 0 0 [] ∧ moved t none 3))
    ∧ (∀ h, s.dev.holder = some h → key.heardAt + ms 2000 ≤ s.dev.time → key.claims = [] →
      ∃ t, exec .keySilence s = .next t ∧ moved t none 4 ∧ (s.dev.mgt.escrow.state = 1 → t.dev.mgt.escrow.state = 0))
    ∧ (∀ at' w l, key.gatherAt = some at' → at' + ms 100 ≤ s.dev.time → key.claims = l → w ∈ l →
      (∀ c ∈ l, c.prio < w.prio ∨ c.prio = w.prio ∧ (w.session < c.session ∨ c = w)) →
      ∃ t, exec .claimWindowEnd s = .next t ∧ moved t (some w.session) 1 ∧ t.dev.mgt.key.prio = w.prio
        ∧ t.dev.mgt.key.gatherAt = none ∧ (∀ c ∈ t.dev.mgt.key.claims, c.session ≠ w.session ∧ c.seq = none))
    ∧ ∀ (n : Fin 8) x, s.dev.session n = some x → x.lastAt + ms 1000 * s.dev.appliedNum 0x9010 1 ≤ s.dev.time →
      ∃ t, exec (.sessionTimeout n) s = .next t ∧ t.dev.session n = none
        ∧ ⟨.info, idMGT, 0x011, word (2 * 2 ^ 8 + n), s.dev.time⟩ ∈ t.dev.ntq.input
        ∧ (s.dev.holder ≠ some n.val → t.dev.holder = s.dev.holder ∧ s.Keeps t carried)
        ∧ (s.dev.holder = some n.val → (∀ c ∈ key.claims, c.session = n) → moved t none 5)

/-- DESCRIBE and READ answer absent objects NO_OBJECT and present ones with their properties or value; a READ of a write-only
object is refused; a WRITE needs the key and is refused for an absent object, a right that forbids it, a wrong type or length and a
value outside its limits; SAVE keeps every settable value in force, those that differ from their defaults and EN of the ports (which is
what the model writes, log entry 110) (R385-R387, R389, R397, R430). -/
def Obligations.DictionaryRequests : Prop :=
  ∀ (s : State) (f : UmsalFrom) (k : Msg) (x : Session), s.Ready → s.dev.Takes f k x →
    let i := field k.body 0 2
    let sub := field k.body 2 1
    let off := field k.body 4 4
    let len := field k.body 8 2
    let data := (k.body.drop 12).take len
    let gets := fun c status detail rest => ∃ t, exec c s = .next t ∧ s.Answers t f k x status detail rest
      ∧ t.dev.mgt.dict = s.dev.mgt.dict ∧ t.dev.mgt.escrow.writes = s.dev.mgt.escrow.writes ∧ s.Keeps t carried
    (k.typ = 0x08 →
      (objAt i sub = none → gets (.umsalDescribe f) 5 0 [])
      ∧ ∀ o, objAt i sub = some o → ∃ rest, gets (.umsalDescribe f) 0 0
        (le 1 o.typ ++ le 1 o.acc ++ le 1 (if o.acc = 2 ∨ o.acc = 3 then 0 else if o.acc = 4 then 1 else 2) ++ le 1 (ofBool o.expert)
          ++ le 4 (if o.isBytes then o.maxLen else typeSize o.typ) ++ rest))
    ∧ (k.typ = 0x10 → i ≠ 0xE000 → k.staged = false →
      (objAt i sub = none → gets (.umsalRead f) 5 0 [])
      ∧ ∀ o, objAt i sub = some o →
        (o.acc = 3 → gets (.umsalRead f) 6 0 [])
        ∧ (o.acc ≠ 3 → o.isBytes = false → off ≠ 0 → gets (.umsalRead f) 8 0 [])
        ∧ (o.acc = 2 ∨ o.acc = 4 → o.isBytes = true ∨ off = 0 →
          let l := s.dev.applied i sub
          (l.length < off → gets (.umsalRead f) 8 0 [])
          ∧ (off ≤ l.length → let seg := (l.drop off).take (Nat.min 1408 len)
            gets (.umsalRead f) 0 0 (le 1 o.typ ++ le 3 0 ++ le 4 l.length ++ le 2 seg.length ++ le 2 0 ++ seg))))
    ∧ (k.typ = 0x10 → i = 0xE000 ∨ k.staged = true ∧ s.dev.mgt.escrow.state = 1 → s.dev.holder ≠ some k.session →
      gets (.umsalRead f) 4 0 [])
    ∧ (k.typ = 0x11 → s.dev.holder ≠ some k.session → gets (.umsalWrite f) 4 0 [])
    ∧ (k.typ = 0x11 → s.dev.holder = some k.session → s.dev.mgt.escrow.state = 0 →
      (objAt i sub = none → gets (.umsalWrite f) 5 0 [])
      ∧ (∀ o, objAt i sub = some o →
        (o.acc = 0 ∨ o.acc = 1 ∨ o.acc = 4 → gets (.umsalWrite f) 6 0 [])
        ∧ (o.acc = 2 ∨ o.acc = 3 →
          (field k.body 3 1 ≠ o.typ ∨ o.isBytes = false ∧ len ≠ typeSize o.typ → gets (.umsalWrite f) 7 0 [])
          ∧ (field k.body 3 1 = o.typ → o.isBytes = false → len = typeSize o.typ → off ≠ 0 ∨ o.within (o.toInt data) = false →
            gets (.umsalWrite f) 8 0 [])))
      ∧ (i = 0xA010 → sub = 1 → field k.body 3 1 = tU64 → len = 8 → off = 0 →
        ((objAt i sub).all fun o => o.within (o.toInt data)) = true →
        ∃ t, exec (.umsalWrite f) s = .next t ∧ s.Answers t f k x 0 0 [] ∧ t.dev.applied 0xA010 1 = data
          ∧ (∀ j, j ≠ objKey 0xA010 1 → Tab.get dictReset t.dev.mgt.dict j = Tab.get dictReset s.dev.mgt.dict j)
          ∧ s.Keeps t carried)
      ∧ (i = 0x1010 → sub = 1 → field k.body 3 1 = tU32 → len = 4 → off = 0 → fromLe data = 0x65766173 →
        (∀ c, newest savedBytes s.dev.mgt.mram.saved = some c → c.seq + 1 < 2 ^ 64) →
        ∃ t, exec (.parameterSave f) s = .next t ∧ exec (.umsalWrite f) s = .next t ∧ s.Answers t f k x 0 0 []
          ∧ t.dev.mgt.dict = s.dev.mgt.dict
          ∧ (∃ l, t.dev.mgt.savedSet = some l
            ∧ (∀ e ∈ l, ∃ o, objAt (e.1 / 256) (e.1 % 256) = some o ∧ (o.acc = 2 ∨ o.acc = 4))
            ∧ (∀ e ∈ s.dev.mgt.dict, (∀ p : Fin 16, e.1 ≠ objKey (0x3000 + 0x100 * p) 1) →
              (∃ o, objAt (e.1 / 256) (e.1 % 256) = some o ∧ (o.acc = 2 ∨ o.acc = 4)) → e ∈ l)
            ∧ ∀ p : Fin 16, (objKey (0x3000 + 0x100 * p) 1, s.dev.applied (0x3000 + 0x100 * p) 1) ∈ l)
          ∧ s.Keeps t carried))

/-- ESC_BEGIN opens an escrow with the next ID; while it is OPEN a WRITE is staged whatever the right, up to its limits; ROLLBACK and
10 s without an escrow message discard it, and the session is told once; ESC_STATUS restarts the idle time; ESC_COMMIT of a set
that fails is rejected with its first reason and nothing lands; one that waits for a pending apply is COMMITTING, and after 1 s of
waiting it is rejected; one that builds no column writes the staged registers of its set and its passthrough writes and requests its apply at
once; a landed apply completes a commit: the values that land and those of its RW writes are applied, the registers of RW and the actions
of WO objects carried out; a cancelled apply rejects it, and the registers written take their values in force again. The model's readings:
TIMED_OUT comes before NOT_KEYHOLDER and any session's ESC_STATUS restarts the idle time (log entry 40), the reason named among several is
that of R413's order over the checks of log entry 42, and a commit under way goes on before the next command (log entry 8) (R410-R414). -/
def Obligations.EscrowCourse : Prop :=
  ∀ s : State, s.dev.low = false → s.dev.vlt.writes = [] → s.dev.mgt.firmware = .running →
    let e := s.dev.mgt.escrow
    let gone := fun t : State => t.dev.mgt.escrow.state = 0 ∧ t.dev.mgt.escrow.writes = [] ∧ t.dev.mgt.escrow.commit = none
    (∀ f k x, e.commit = none → s.dev.Takes f k x →
      let mine := s.dev.holder = some k.session
      let gets := fun c status detail rest => ∃ t, exec c s = .next t ∧ s.Answers t f k x status detail rest
        ∧ t.dev.mgt.escrow.writes = e.writes ∧ t.dev.mgt.escrow.state = e.state ∧ s.Keeps t carried
      (x.timedOut = none →
        (k.typ = 0x30 → ¬ mine → gets (.escBegin f) 4 0 []) ∧ (k.typ = 0x30 → mine → e.state = 1 → gets (.escBegin f) 10 0 [])
        ∧ (k.typ = 0x30 → mine → e.state = 0 →
          ∃ t, exec (.escBegin f) s = .next t ∧ s.Answers t f k x 0 0 (le 4 ((e.id + 1) % 2 ^ 32))
            ∧ t.dev.mgt.escrow = { Escrow.reset with state := 1, id := (e.id + 1) % 2 ^ 32, lastAt := s.dev.time } ∧ s.Keeps t carried)
        ∧ (k.typ = 0x33 → e.state = 1 →
          (∃ t, exec (.escStatus f) s = .next t ∧ t.dev.mgt.escrow = { e with lastAt := s.dev.time })
          ∧ gets (.escStatus f) 0 0 (le 1 1 ++ le 3 0 ++ le 4 e.id ++ le 2 e.count ++ le 2 0 ++ le 4 e.bytes
            ++ le 4 (Nat.min (2 ^ 32 - 1) ((s.dev.time - e.lastAt) / ms 1))))
        ∧ (k.typ = 0x31 → ¬ mine → gets (.escCommit f) 4 0 []) ∧ (k.typ = 0x31 → mine → e.state = 0 → gets (.escCommit f) 9 0 [])
        ∧ (k.typ = 0x31 → mine → e.state = 1 →
          (∀ fl, Failure.first (s.dev.failures e.writes) = some fl →
            ∃ t tail, exec (.escCommit f) s = .next t ∧ gone t
              ∧ s.Answers t f k x 12 (fl.detail * 2 ^ 8 + fl.reason) (le 4 e.id ++ le 2 fl.index ++ le 1 fl.sub ++ le 1 0 ++ le 4 0 ++ tail)
              ∧ t.dev.get64 MGT_ESC_REJECT_CNT.addr = (s.dev.get64 MGT_ESC_REJECT_CNT.addr + 1) % 2 ^ 64
              ∧ t.dev.mgt.dict = s.dev.mgt.dict ∧ t.dev.force = s.dev.force)
          ∧ (Failure.first (s.dev.failures e.writes) = none → s.dev.is CAD_APPLY.PENDING = true →
            ∃ t, exec (.escCommit f) s = .next t ∧ t.dev.mgt.escrow = { e with
                state := 2, commit := some (⟨some k.session, k.nonce, k.seq, some s.dev.time, [], false, false, none⟩ : Commit) }
              ∧ (∃ y, t.dev.session k.session = some y ∧ y.busy = some k.seq) ∧ s.Keeps t carried)
          ∧ (Failure.first (s.dev.failures e.writes) = none → s.dev.is CAD_APPLY.PENDING = false →
            s.dev.rebuilt e.writes = [] → s.dev.basicBindings e.writes [] = [] →
            let goes := fun (regs : State → Prop) (touched : Nat → Prop) => ∃ t, exec (.escCommit f) s = .next t ∧ t.dev.mgt.escrow = { e with
                state := 2, commit := some (⟨some k.session, k.nonce, k.seq, none, [], true, true
                  , some (s.dev.get64 CAD_APPLY_CNT.addr)⟩ : Commit) }
              ∧ t.dev.is CAD_APPLY.PENDING = true ∧ (∃ q, t.dev.cad.apply = some q ∧ q.goAt = s.dev.time)
              ∧ t.dev.mgt.dict = s.dev.mgt.dict ∧ t.dev.force = s.dev.force ∧ regs t
              ∧ s.Keeps t fun a => carried a ∨ a = CAD_APPLY.addr ∨ touched a
            ((∀ w ∈ e.writes, Dev.isRWE w.index w.sub = false ∧ w.index ≠ 0xE000) → goes (fun _ => True) fun _ => False)
            ∧ (∀ i b fld lo hi addr l, (i, b, fld, lo, hi) ∈ [(0x2000, 1, DCT_MODE.NEXT, 0, 7), (0x2001, 2, CAD_PERIOD.PERIOD, 400, 2 ^ 32 - 1)
                , (0x2001, 4, CAD_SCHED_LEAD.LEAD, 8000, 4000000)] → e.writes = [⟨i, b, addr, l⟩] → lo ≤ fromLe l → fromLe l ≤ hi →
              goes (fun t => t.dev.get fld = fromLe l) (· = fld.off))
            ∧ ∀ b addr l a row, e.writes = [⟨0xE000, b, addr, l⟩] → aliasOf addr = some (.plain, a) → a ∈ plainRegs → regRow a = some row →
              let m := row.mask (· = .rw)
              goes (fun t => t.dev.reg a = (s.dev.reg a &&& ~~~m) ||| (word (fromLe l) &&& m)) (· = a))))
      ∧ (∀ id, x.timedOut = some id →
        (k.typ = 0x30 → gets (.escBegin f) 14 (id % 2 ^ 16) []) ∧ (k.typ = 0x31 → gets (.escCommit f) 14 (id % 2 ^ 16) [])
        ∧ (k.typ = 0x33 → gets (.escStatus f) 14 (id % 2 ^ 16) []))
      ∧ (k.typ = 0x32 → ¬ mine → gets (.escRollback f) 4 0 []) ∧ (k.typ = 0x32 → mine → e.state = 0 → gets (.escRollback f) 9 0 [])
      ∧ (k.typ = 0x32 → mine → e.state = 1 →
        ∃ t, exec (.escRollback f) s = .next t ∧ s.Answers t f k x 0 0 [] ∧ gone t
          ∧ ⟨.info, idMGT, 0x015, word (e.id % 2 ^ 16 * 2 ^ 16 + 1), s.dev.time⟩ ∈ t.dev.ntq.input
          ∧ t.dev.get64 MGT_ESC_ROLLBACK_CNT.addr = (s.dev.get64 MGT_ESC_ROLLBACK_CNT.addr + 1) % 2 ^ 64 ∧ s.Keeps t carried)
      ∧ (∀ l, k.typ = 0x11 → mine → e.state = 1 → s.dev.checkWrite k = .ok l →
        let i := field k.body 0 2
        let sub := field k.body 2 1
        let len := field k.body 8 2
        i ≠ 0xE000 → ¬ (i = 0x1010 ∧ sub = 1) →
        (e.count < 1024 → e.bytes + len ≤ 65536 →
          ∃ t, exec (.umsalWrite f) s = .next t ∧ s.Answers t f k x 0 0 [] ∧ t.dev.mgt.dict = s.dev.mgt.dict
            ∧ t.dev.mgt.escrow = { e with
              lastAt := s.dev.time, count := e.count + 1, bytes := e.bytes + len, writes := e.writes.filter (fun w => !(w.index = i && w.sub = sub)) ++ [⟨i, sub, x.addr, l⟩] }
            ∧ s.Keeps t carried)
        ∧ (1024 ≤ e.count ∨ 65536 < e.bytes + len → gets (.umsalWrite f) 11 0 [])))
    ∧ (∀ n, e.commit = none → e.state = 1 → e.lastAt + ms 10000 < s.dev.time → s.dev.holder = some n →
      ∃ t, exec .escrowIdleTimeout s = .next t ∧ gone t ∧ (∀ y, t.dev.session n = some y → y.timedOut = some e.id)
        ∧ t.dev.ntq.input = s.dev.ntq.input ++ [⟨.info, idMGT, 0x015, word (e.id % 2 ^ 16 * 2 ^ 16 + 2), s.dev.time⟩]
        ∧ s.Keeps t carried)
    ∧ ∀ c, e.commit = some c → c.session ≠ none → (∀ k ∈ c.armed, k < 16) →
      (∀ w, c.applies = none → c.written = false → s.dev.is CAD_APPLY.PENDING = true → c.waitAt = some w → w + ms 1000 ≤ s.dev.time →
        ∃ t, exec .applyPendingTimeout s = .next t ∧ gone t ∧ t.dev.mgt.dict = s.dev.mgt.dict
          ∧ t.dev.get64 MGT_ESC_REJECT_CNT.addr = (s.dev.get64 MGT_ESC_REJECT_CNT.addr + 1) % 2 ^ 64)
      ∧ ∀ n, c.applies = some n → s.dev.is CAD_APPLY.PENDING = false → s.pending = [] →
        let u := s.settled
        let ends := fun cnt => step s = step u ∧ (∃ t, step s = .next t) ∧ gone u ∧ u.dev.get64 cnt = (s.dev.get64 cnt + 1) % 2 ^ 64
        (s.dev.get64 CAD_APPLY_CNT.addr ≠ n →
          ((∀ w ∈ e.writes, Dev.isRWE w.index w.sub = true ∨ w.index = 0xE000) → ends MGT_ESC_COMMIT_CNT.addr
            ∧ ∀ w ∈ e.writes, Dev.isRWE w.index w.sub = true → (∀ v ∈ e.writes, objKey v.index v.sub = objKey w.index w.sub → v = w) →
              u.dev.applied w.index w.sub = w.data)
          ∧ (∀ (i : Fin 4) addr l, e.writes = [⟨0x4000 + i, 7, addr, l⟩] → ends MGT_ESC_COMMIT_CNT.addr
            ∧ u.dev.applied (0x4000 + i) 7 = l ∧ u.dev.get (ENC_CH_CHK.NOMINAL i) = fromLe l % 2 ^ 24)
          ∧ ∀ (k : Fin 64) addr l, e.writes = [⟨0x5110, 1, addr, l⟩] → fromLe l = 2 ^ k.val → s.dev.strikeState k = 0 →
            (s.dev.strike k).off ≠ some s.dev.time → s.dev.skPos k = false → s.dev.is (STP_SK_CTL.REPEAT k) = false →
            s.dev.time ≤ s.dev.skTarget k → ends MGT_ESC_COMMIT_CNT.addr ∧ u.dev.strikeState k = 1)
        ∧ (s.dev.get64 CAD_APPLY_CNT.addr = n → (e.writes = [] → ends MGT_ESC_REJECT_CNT.addr)
          ∧ ∀ b fld addr l, (b, fld) ∈ [(2, CAD_PERIOD.PERIOD), (4, CAD_SCHED_LEAD.LEAD)] → e.writes = [⟨0x2001, b, addr, l⟩] →
            c.armed = [] → c.written = true → s.dev.basicBindings e.writes (s.dev.rebuilt e.writes) = [] →
            ends MGT_ESC_REJECT_CNT.addr ∧ u.dev.get fld = s.dev.forceGet fld ∧ u.dev.mgt.dict = s.dev.mgt.dict)

/-- a slot's transmit FIFO takes words up to 360, SEND hands them to firmware and is ignored while BUSY, RESET empties both FIFOs, and a read of
  the receive FIFO pops a word, of those that stood in it before this device time, or returns 0; a due NOTICE takes up to 16 items of the session's
  queue, here one that has taken no push in the same MGT cycle, whose phase is the model's reading (log entry 75) (R399, R400). -/
def Obligations.Mailbox : Prop :=
  ∀ (s : State) (m : Fin 2), s.Ready →
    let x := s.dev.slot m
    let own := fun a => a = MGT_MBX_STAT.addr m ∨ a = MGT_MBX_FLAGS.addr
    (∀ r data, s.dev.Admits r (MGT_MBX_TX.addr m) →
      (x.tx.length < 360 → ∃ t, exec (.mailboxTxWrite r m data 15) s = .next t ∧ t.dev.slot m = { x with tx := x.tx ++ [data] }
        ∧ t.dev.get (MGT_MBX_STAT.TX m) = x.tx.length + 1 ∧ s.Keeps t own)
      ∧ (360 ≤ x.tx.length → ∃ t, exec (.mailboxTxWrite r m data 15) s = .next t ∧ t.dev.slot m = x
        ∧ t.dev.is (Dev.slotFlag MGT_MBX_FLAGS.OVERFLOW0 m) = true ∧ s.Keeps t own))
    ∧ (∀ r, s.dev.Admits r (MGT_MBX_CTL.addr m) →
      (x.request = none → s.dev.mgt.firmware = .running →
        ∃ t, exec (.mailboxSend r m) s = .next t ∧ t.dev.slot m = { x with request := some x.tx, tx := [] }
          ∧ t.dev.is (MGT_MBX_STAT.BUSY m) = true ∧ s.Keeps t own)
      ∧ (x.request ≠ none → ∃ t, exec (.mailboxSend r m) s = .next t ∧ t.dev.slot m = x
        ∧ t.dev.is (Dev.slotFlag MGT_MBX_FLAGS.BAD_STATE0 m) = true ∧ s.Keeps t own)
      ∧ ∃ t, exec (.mailboxReset r m) s = .next t ∧ t.dev.slot m = { x with tx := [], rx := [] }
        ∧ t.dev.mgt.sessions = s.dev.mgt.sessions ∧ s.Keeps t own)
    ∧ (s.dev.Readable → let l := if x.rxNew.1 = s.dev.time then x.rx.take (x.rx.length - x.rxNew.2) else x.rx
      ∃ t, exec (.mailboxRxRead m) s = .next t ∧ t.dev.slot m = (if l = [] then x else { x with rx := x.rx.tail })
        ∧ t.dev.out = s.dev.out ++ [s.dev.sealed (.readData (MGT_MBX_RX.addr m) (l.head?.getD 0))] ∧ s.Keeps t own)
    ∧ ∀ (n : Fin 8) y q, s.dev.session n = some y → y.queue = some q → 2 ≤ q → q ≤ 7 → s.dev.mgt.firmware = .running →
      s.dev.queueItems q ≠ 0 → (s.dev.lastPush q).cycle ≠ s.dev.mgtCycle → (∀ at', y.noticeAt = some at' → at' + ms 10 ≤ s.dev.time) →
      ∃ t z, exec (.noticeSend n) s = .next t ∧ t.dev.session n = some z ∧ z.noticeSeq = (y.noticeSeq + 1) % 2 ^ 16
        ∧ z.noticeAt = some s.dev.time ∧ t.dev.queueItems q = s.dev.queueItems q - Nat.min 16 (s.dev.queueItems q)
        ∧ s.Keeps t fun a => carried a ∨ a / 0x1_0000 = 0xB0

/-- a port answers ARP requests, Neighbor Solicitations and echo requests for its own addresses and discards and counts the rest; a link change is
  told once; the PTP port takes messages of its transport and domain alone and follows its master: a grandmaster is recorded, a Sync in SLAVE is
  counted with its offset, one under DISC 1 gives the domain offset and is a valid update, a timeout of announcements returns it to LISTENING;
  Pdelay_Req is answered under PROFILE 1, and at its interval it asks for the delay itself; that the best master and an offset stand in the operand is
  the model's choice (log entry 49) (R63, R401-R403, R405). -/
def Obligations.NetworkPorts : Prop :=
  ∀ (s : State) (n : Fin 2), s.Ready → s.dev.netOn n = true →
    let rx := fun t : State => t.dev.get64 (NET_RX_CNT.addr n) = (s.dev.get64 (NET_RX_CNT.addr n) + 1) % 2 ^ 64
    let net := fun a => a / 0x1_0000 = 0xD0
    let dropped := fun c => ∃ t, exec c s = .next t ∧ rx t ∧ t.dev.out = s.dev.out
      ∧ t.dev.get64 (NET_RX_DROP_CNT.addr n) = (s.dev.get64 (NET_RX_DROP_CNT.addr n) + 1) % 2 ^ 64
      ∧ s.Keeps t fun a => a = NET_RX_CNT.addr n ∨ a = NET_RX_CNT.addr n + 4 ∨ a = NET_RX_DROP_CNT.addr n
        ∨ a = NET_RX_DROP_CNT.addr n + 4
    let sent := fun c o => ∃ t, exec c s = .next t ∧ rx t ∧ t.dev.out = s.dev.out ++ [o]
      ∧ t.dev.get64 (NET_TX_CNT.addr n) = (s.dev.get64 (NET_TX_CNT.addr n) + 1) % 2 ^ 64
      ∧ s.Keeps t fun a => a = NET_RX_CNT.addr n ∨ a = NET_RX_CNT.addr n + 4 ∨ a = NET_TX_CNT.addr n ∨ a = NET_TX_CNT.addr n + 4
    (s.dev.mgt.firmware = .running →
      (∀ mac ip target,
        (target ≠ 0 → target.toNat = s.dev.netIp4 n → sent (.arpRequestReceive n mac ip target)
          (.ethernet n 1 (be 6 (s.dev.netMac n) ++ be 4 target.toNat ++ be 6 mac.toNat ++ be 4 ip.toNat)))
        ∧ (target = 0 ∨ target.toNat ≠ s.dev.netIp4 n → dropped (.arpRequestReceive n mac ip target)))
      ∧ (∀ source target, Dev.isIp4 target.toNat = false →
        (target.toNat = s.dev.netLinkLocal n ∨ s.dev.netIp6 n = some target.toNat → sent (.neighborSolicitationReceive n source target)
          (.ethernet n 2 (be 16 target.toNat ++ be 6 (s.dev.netMac n) ++ be 16 source.toNat)))
        ∧ (target.toNat ≠ s.dev.netLinkLocal n → s.dev.netIp6 n ≠ some target.toNat →
          dropped (.neighborSolicitationReceive n source target)))
      ∧ (∀ source dest data,
        (s.dev.netOwn n dest.toNat = true → Dev.isIp4 source.toNat = false → Dev.isLinkLocal source.toNat = true →
          sent (.echoRequestReceive n source dest data) (.ethernet n 3 data))
        ∧ (s.dev.netOwn n dest.toNat = false → dropped (.echoRequestReceive n source dest data)))
      ∧ (s.dev.ptpOn n = true → ∀ (dom : Byte) (tr : Fin 3),
        let own := fun (k : Nat) => Out.ethernet n k (le 1 (s.dev.appliedNum 0x9020 2) ++ le 1 (s.dev.appliedNum 0x9020 4))
        let recv := fun m => Instr.ptpMessageReceive n ⟨dom, tr, m⟩
        let ignored := fun m => ∃ t, exec (recv m) s = .next t ∧ rx t ∧ t.dev.ptpState = s.dev.ptpState
          ∧ t.dev.get64 NET_PTP_DROP_CNT.addr = (s.dev.get64 NET_PTP_DROP_CNT.addr + 1) % 2 ^ 64
          ∧ s.Keeps t fun a => a = NET_RX_CNT.addr n ∨ a = NET_RX_CNT.addr n + 4 ∨ a = NET_PTP_DROP_CNT.addr ∨ a = NET_PTP_DROP_CNT.addr + 4
        (∀ m, m ≠ .announceTimeout → m ≠ .interval →
          (tr.val ≠ s.dev.appliedNum 0x9020 4 → dropped (recv m))
          ∧ (tr.val = s.dev.appliedNum 0x9020 4 → dom.toNat ≠ s.dev.appliedNum 0x9020 2 → ignored m))
        ∧ (tr.val = s.dev.appliedNum 0x9020 4 → dom.toNat = s.dev.appliedNum 0x9020 2 →
          (∀ gm : BitVec 64, s.dev.ptpState = 1 → s.dev.get64 NET_PTP_GM.addr ≠ gm.toNat →
            ∃ t, exec (recv (.announce gm)) s = .next t ∧ rx t ∧ t.dev.ptpState = 2
              ∧ t.dev.get64 NET_PTP_GM.addr = gm.toNat ∧ t.dev.is NET_FLAGS.GM_CHANGE = true ∧ s.Keeps t net)
          ∧ (∀ off domain trim, s.dev.ptpState = 2 ∨ s.dev.ptpState = 3 → s.dev.get CAD_TIME_CTL.DISC ≠ 1 →
            ∃ t, exec (recv (.sync off domain trim)) s = .next t ∧ rx t ∧ t.dev.ptpState = 3
              ∧ t.dev.get64 NET_PTP_OFFSET.addr = off.toNat
              ∧ t.dev.get64 NET_PTP_SYNC_CNT.addr = (s.dev.get64 NET_PTP_SYNC_CNT.addr + 1) % 2 ^ 64 ∧ s.Keeps t net)
          ∧ (∀ off domain trim, s.dev.ptpState = 2 ∨ s.dev.ptpState = 3 → s.dev.get CAD_TIME_CTL.DISC = 1 →
            s.dev.softWrote ⟨CAD_DOMAIN_OFF.addr, 0, 32⟩ = false → s.dev.softWrote ⟨CAD_DOMAIN_OFF.addr + 4, 0, 32⟩ = false →
            ∃ t, exec (recv (.sync off domain trim)) s = .next t ∧ rx t ∧ t.dev.ptpState = 3
              ∧ t.dev.get64 NET_PTP_OFFSET.addr = off.toNat
              ∧ t.dev.get64 CAD_DOMAIN_OFF.addr = (if s.dev.cad.held then s.dev.get64 CAD_DOMAIN_OFF.addr else domain.toNat)
              ∧ t.dev.is CAD_STAT.DISC_OK = true ∧ t.dev.cad.discAt = s.dev.time ∧ t.dev.cad.discTold = false
              ∧ s.Keeps t fun a => net a ∨ a / 0x1_0000 = 4)
          ∧ (∀ off domain trim, s.dev.ptpState = 1 → ignored (.sync off domain trim))
          ∧ (∀ mpd, ∃ t, exec (recv (.delay mpd)) s = .next t ∧ rx t
            ∧ t.dev.get NET_PTP_MPD.MPD = Nat.min (2 ^ 32 - 1) mpd ∧ s.Keeps t net)
          ∧ (s.dev.appliedNum 0x9020 1 = 1 → ∃ t, exec (recv .pdelayReq) s = .next t ∧ rx t
            ∧ t.dev.out = s.dev.out ++ [own 4, own 5]
            ∧ t.dev.get64 (NET_TX_CNT.addr n) = (s.dev.get64 (NET_TX_CNT.addr n) + 2) % 2 ^ 64 ∧ s.Keeps t net)
          ∧ ignored .dropped
          ∧ ∃ t, exec (recv .part) s = .next t ∧ rx t ∧ t.dev.out = s.dev.out
            ∧ s.Keeps t fun a => a = NET_RX_CNT.addr n ∨ a = NET_RX_CNT.addr n + 4)
        ∧ (s.dev.ptpState = 3 → ∃ t, exec (recv .announceTimeout) s = .next t ∧ t.dev.ptpState = 1
          ∧ t.dev.ntq.input = s.dev.ntq.input ++ [⟨.event, idNET, 0x011, 1#32, s.dev.time⟩] ∧ s.Keeps t net)
        ∧ ∀ kind, (s.dev.appliedNum 0x9020 1 = 1 ∧ kind = 7) ∨ (s.dev.appliedNum 0x9020 1 ≠ 1 ∧ 2 ≤ s.dev.ptpState ∧ kind = 6) →
          ∃ t, exec (recv .interval) s = .next t ∧ t.dev.out = s.dev.out ++ [own kind]
            ∧ t.dev.get64 (NET_TX_CNT.addr n) = (s.dev.get64 (NET_TX_CNT.addr n) + 1) % 2 ^ 64
            ∧ s.Keeps t fun a => a = NET_TX_CNT.addr n ∨ a = NET_TX_CNT.addr n + 4))
    ∧ dropped (.netFrameDrop n)
    ∧ ∀ (code : BitVec 3) lock, code.toNat ≤ s.dev.get (NET_PORT_CTL.SPEED_MAX n) → code.toNat ≤ 5 →
      ∃ t, exec (.ethLinkChange n code lock) s = .next t ∧ t.dev.get (NET_PORT_STAT.RATE n) = code.toNat
        ∧ t.dev.is (NET_PORT_STAT.LINK n) = decide (code ≠ 0) ∧ t.dev.is (NET_PORT_STAT.LOCK n) = lock
        ∧ t.dev.ntq.input = s.dev.ntq.input ++ (if s.dev.get (NET_PORT_STAT.RATE n) = code.toNat then []
          else [⟨.event, idNET, 0x010, word (code.toNat * 16 + n), s.dev.time⟩])
        ∧ s.Keeps t fun a => a = NET_PORT_STAT.addr n ∨ a = NET_FLAGS.addr


/-! ### Faults, live service and security (chapter 15) -/

/-- a damaged row of an internal queue is mapped to its spare row and logged, its beat passed on as zeros, and a second one enters SAFE; an error
  gone at the second read counts as a transient and changes nothing else; when the active core fails a healthy standby takes over with every session
  and the key, and starts the slip search of its ports anew, and without one the device enters SAFE; an update under way is abandoned with reason 6,
  in PROBATION for the old image; a failed standby is rebooted, and returns or stays out of service after two failures; THERM# goes low when the die
  is above 105 °C or a stack above 95 °C, and high again once every sensor is 5 °C below its limit; DCT_TEMP shows the sensors. What is a beat of a
  queue and whose frame it is stand in the operand (log entry 52), an update's end by a core's failure is the model's reading (log entry 50), and so
  is the one record per fault (log entry 53) (R417, R419, R421, R423-R425, R440, R446). -/
def Obligations.FaultsCoresAndTemperature : Prop :=
  (∀ s : State, s.Ready →
    let core := s.dev.get MGT_ROLE.ACTIVE
    let logs := fun (t : State) (block action unit arg : Nat) => t.dev.mgt.faultLog.getLast? = some (le 8 s.dev.time ++ le 1 block
        ++ le 1 action ++ le 2 unit ++ le 4 arg ++ le 4 s.dev.mgt.bootCount ++ le 12 0)
      ∧ t.dev.mgt.logCount = s.dev.mgt.logCount + 1
      ∧ ⟨.info, idMGT, 0x020, word (block * 2 ^ 24 + action * 2 ^ 16 + unit), s.dev.time⟩ ∈ t.dev.ntq.input
    let safe := fun (t : State) (cause : Nat) => t.dev.mode = 7 ∧ t.dev.get DCT_MODE.BASE = s.dev.mode
      ∧ t.dev.mgt.safeCause = cause ∧ t.dev.is CAD_APPLY.PENDING = false
    (∀ queue (block : Byte) frame beat,
      let c := Instr.queueBeatParity queue block ⟨frame, beat⟩ .lasting
      (isBlock block.toNat = false → ∃ t, exec c s = .next t ∧ t.dev.mgt = s.dev.mgt ∧ t.dev.clr = s.dev.clr ∧ t.dev.ntq = s.dev.ntq
        ∧ s.Keeps t fun _ => False)
      ∧ (isBlock block.toNat = true →
        (queue ∉ s.dev.mgt.rows →
          ∃ t, exec c s = .next t ∧ t.dev.mgt.rows = s.dev.mgt.rows ++ [queue]
            ∧ logs t block.toNat 7 queue 0 ∧ (∀ f r, frame = some f → r ∈ t.dev.clr.frames → r.id = f → bit r.flags 5 = true)
            ∧ (∀ f (p : Fin 16) line n, frame = some f → beat = some (.line p line n) →
              (t.dev.port p).pk.buffer = (s.dev.port p).pk.buffer.map fun l =>
                if l.frame = some f ∧ l.line = line then { l with data := Dev.zeroAt n l.data } else l)
            ∧ (∀ f (i : Fin 5) n k, k < 16 → frame = some f → beat = some (.stream i n) →
              (t.dev.column k).queue = (s.dev.column k).queue.map fun o =>
                if o.frame = f ∧ o.stream = [Stream.a, .mint, .tally, .b, .stat].getD i .a then { o with bytes := Dev.zeroAt n o.bytes } else o)
            ∧ t.dev.mode = s.dev.mode ∧ s.Keeps t fun _ => False)
        ∧ (queue ∈ s.dev.mgt.rows → s.dev.mode ≠ 7 →
          ∃ t, exec c s = .next t ∧ safe t 3 ∧ logs t block.toNat 8 queue 3
            ∧ s.Keeps t fun a => a = DCT_MODE.addr ∨ a = CAD_APPLY.addr)
        ∧ (queue ∈ s.dev.mgt.rows → s.dev.mode = 7 →
          ∃ t, exec c s = .next t ∧ logs t block.toNat 7 queue 0
            ∧ t.dev.mgt.safeCause = s.dev.mgt.safeCause ∧ s.Keeps t fun _ => False)))
    ∧ (∀ queue (block : Byte) hit, isBlock block.toNat = true →
      ∃ t, exec (.queueBeatParity queue block hit .transient) s = .next t
        ∧ t.dev.mgt = { s.dev.mgt with transients := Tab.upd (fun _ => 0) s.dev.mgt.transients block.toNat (· + 1) }
        ∧ t.dev.clr = s.dev.clr ∧ t.dev.ntq = s.dev.ntq ∧ s.Keeps t fun _ => False)
    ∧ (s.dev.mgt.firmware = .running → ∃ t, exec (.coreLastingError .transient) s = .next t
      ∧ t.dev.mgt = { s.dev.mgt with transients := Tab.upd (fun _ => 0) s.dev.mgt.transients idMGT (· + 1) } ∧ s.Keeps t fun _ => False)
    ∧ (∀ c ∈ [Instr.coreHeartbeatMiss, Instr.coreLastingError .lasting], s.dev.mgt.firmware = .running →
      (s.dev.is MGT_ROLE.STBY_OK = true → s.dev.mgt.update = none →
        ∃ t, exec c s = .next t ∧ t.dev.get MGT_ROLE.ACTIVE = 1 - core ∧ t.dev.is MGT_ROLE.STBY_OK = false
          ∧ t.dev.mgt.firmware = .running ∧ t.dev.mgt.sessions = s.dev.mgt.sessions ∧ t.dev.mgt.key = s.dev.mgt.key
          ∧ t.dev.mgt.escrow = s.dev.mgt.escrow
          ∧ t.dev.get64 MGT_FAILOVER_CNT.addr = (s.dev.get64 MGT_FAILOVER_CNT.addr + 1) % 2 ^ 64
          ∧ ⟨.fault, idMGT, 0x021, word (1 - core), s.dev.time⟩ ∈ t.dev.ntq.input ∧ logs t idMGT 6 core 0
          ∧ (∀ p : Fin 16, s.dev.portState p = stSlip → s.dev.is (AVP_PORT_CTL.SLIP_MODE p) = false →
            (t.dev.port p).link.slipAt = s.dev.time)
          ∧ s.Keeps t fun a => a = MGT_ROLE.addr ∨ a = MGT_FAILOVER_CNT.addr ∨ a = MGT_FAILOVER_CNT.addr + 4)
      ∧ (s.dev.is MGT_ROLE.STBY_OK = false → s.dev.mgt.update = none →
        (s.dev.mode ≠ 7 → ∃ t, exec c s = .next t ∧ t.dev.mgt.firmware = .lost ∧ safe t 4 ∧ logs t idMGT 8 core 4
          ∧ ⟨.fault, idMGT, 0x022, word core, s.dev.time⟩ ∈ t.dev.ntq.input
          ∧ s.Keeps t fun a => a = DCT_MODE.addr ∨ a = CAD_APPLY.addr)
        ∧ (s.dev.mode = 7 → ∃ t, exec c s = .next t ∧ t.dev.mgt.firmware = .lost ∧ logs t idMGT 6 core 0
          ∧ ⟨.fault, idMGT, 0x022, word core, s.dev.time⟩ ∈ t.dev.ntq.input ∧ s.Keeps t fun _ => False))
      ∧ ∀ u, s.dev.mgt.update = some u → 1 ≤ u.phase → u.phase ≤ 4 →
        ∃ t, exec c s = .next t ∧ t.dev.mgt.update = none ∧ t.dev.get MGT_ROLE.UPDATE = 5
          ∧ ⟨.alert, idMGT, 0x026, word 6, s.dev.time⟩ ∈ t.dev.ntq.input
          ∧ t.dev.mgt.image = if u.phase = 3 then u.image else s.dev.mgt.image)
    ∧ (s.dev.is MGT_ROLE.STBY_OK = true →
      ∃ t, exec .standbyHeartbeatMiss s = .next t ∧ t.dev.is MGT_ROLE.STBY_OK = false
        ∧ t.dev.ntq.input = s.dev.ntq.input ++ [⟨.alert, idMGT, 0x023, word (1 - core), s.dev.time⟩]
        ∧ s.Keeps t (· = MGT_ROLE.addr))
    ∧ ∀ passed, s.dev.mgt.firmware = .running → s.dev.is MGT_ROLE.STBY_OK = false → s.dev.is MGT_ROLE.OUT = false →
      s.dev.inPhase 2 = false → s.dev.inPhase 3 = false →
      let fails := Tab.get (fun _ => 0) s.dev.mgt.failed (1 - core) + 1
      ∃ t, exec (.standbyRebootDone passed) s = .next t ∧ t.dev.is MGT_ROLE.STBY_OK = passed
        ∧ t.dev.is MGT_ROLE.OUT = (!passed && decide (2 ≤ fails))
        ∧ (passed = false → Tab.get (fun _ => 0) t.dev.mgt.failed (1 - core) = fails) ∧ s.Keeps t (· = MGT_ROLE.addr))
  ∧ ∀ (s : State) (die stack : Int), s.Ready →
    let shows := fun t : State => t.dev.get DCT_TEMP.DIE = die.toNat % 256 ∧ t.dev.get DCT_TEMP.STACK = stack.toNat % 256
    (105 < die ∨ 95 < stack → s.dev.is DCT_TEMP.THERM = false →
      ∃ t, exec (.overtempAssert die stack) s = .next t ∧ shows t ∧ t.dev.is DCT_TEMP.THERM = true
        ∧ t.dev.is DCT_FLAGS.OVERTEMP = true ∧ t.dev.out = s.dev.out ++ [.therm true]
        ∧ s.Keeps t fun a => a = DCT_TEMP.addr ∨ a = DCT_FLAGS.addr)
    ∧ (die ≤ 105 → stack ≤ 95 → ∃ t, exec (.overtempAssert die stack) s = .next t ∧ shows t ∧ t.dev.out = s.dev.out
      ∧ t.dev.is DCT_TEMP.THERM = s.dev.is DCT_TEMP.THERM ∧ s.Keeps t (· = DCT_TEMP.addr))
    ∧ (die ≤ 100 → stack ≤ 90 → s.dev.is DCT_TEMP.THERM = true →
      ∃ t, exec (.overtempRelease die stack) s = .next t ∧ shows t ∧ t.dev.is DCT_TEMP.THERM = false
        ∧ t.dev.out = s.dev.out ++ [.therm false] ∧ s.Keeps t (· = DCT_TEMP.addr))
    ∧ (100 < die ∨ 90 < stack → ∃ t, exec (.overtempRelease die stack) s = .next t ∧ shows t ∧ t.dev.out = s.dev.out
      ∧ t.dev.is DCT_TEMP.THERM = s.dev.is DCT_TEMP.THERM ∧ s.Keeps t (· = DCT_TEMP.addr))

/-- an update starts with its range, no other one running and a healthy standby, and is refused with reasons 4, 7 and 6; an image that cannot
be read, or whose digest, key, key slot or signature does not hold, ends it with reason 1, an old SVN with 2 and a foreign journal with 3; the standby boots the image, takes over at a boundary
while no escrow is COMMITTING, and after a healthy probation the image is written to flash; otherwise the old core resumes. The model's readings:
what a boundary is and that the probation ends at one (log entry 50), the SVN fuses (41), an unreadable image fails its digest (111)
(R426, R427, R432, R433). -/
def Obligations.LiveUpdate : Prop :=
  ∀ s : State, s.Ready → s.dev.mgt.firmware = .running →
    let core := s.dev.get MGT_ROLE.ACTIVE
    let role := fun (t : State) v => t.dev.get MGT_ROLE.UPDATE = v
    let failed := fun (t : State) (reason : Nat) => role t 5
      ∧ ⟨.alert, idMGT, 0x026, word reason, s.dev.time⟩ ∈ t.dev.ntq.input
    let addr := s.dev.appliedNum 0xA010 1
    let len := s.dev.appliedNum 0xA010 2
    (∀ f k x, s.dev.Takes f k x → s.dev.holder = some k.session → s.dev.mgt.escrow.state = 0 → k.typ = 0x11 →
      field k.body 0 2 = 0xA010 → field k.body 2 1 = 3 → field k.body 3 1 = tU32 → field k.body 4 4 = 0 → field k.body 8 2 = 4 →
      field k.body 12 4 = 0x74647075 →
      let bad := 32 * 2 ^ 20 < len ∨ vaultSize < addr + len
      (bad → ∃ t, exec (.firmwareUpdate f) s = .next t ∧ s.Answers t f k x 0 0 [] ∧ failed t 4
        ∧ t.dev.mgt.update = s.dev.mgt.update ∧ s.Keeps t carried)
      ∧ (¬ bad → s.dev.mgt.update ≠ none → ∃ t, exec (.firmwareUpdate f) s = .next t ∧ s.Answers t f k x 0 0 [] ∧ failed t 7
        ∧ t.dev.mgt.update = s.dev.mgt.update ∧ s.Keeps t carried)
      ∧ (¬ bad → s.dev.mgt.update = none → s.dev.is MGT_ROLE.STBY_OK = false →
        ∃ t, exec (.firmwareUpdate f) s = .next t ∧ s.Answers t f k x 0 0 [] ∧ failed t 6 ∧ t.dev.mgt.update = none ∧ s.Keeps t carried)
      ∧ (¬ bad → s.dev.mgt.update = none → s.dev.is MGT_ROLE.STBY_OK = true →
        ∃ t, exec (.firmwareUpdate f) s = .next t ∧ s.Answers t f k x 0 0 [] ∧ role t 1
          ∧ t.dev.mgt.update = some ⟨addr, len, ImageInfo.reset, s.dev.time, core, 1⟩ ∧ s.Keeps t carried))
    ∧ ∀ u, s.dev.mgt.update = some u →
      (∀ sigOk, u.phase = 1 →
        let l := Vault.read s.vault u.addr u.len
        let img := ImageInfo.ofHeader l
        let good := s.dev.readsAs .core u.addr u.len = true ∧ s.dev.ImageHolds l sigOk
        let own := fun a => a = MGT_ROLE.addr ∨ a = SEC_VERIFY_CNT.addr ∨ a = SEC_VERIFY_CNT.addr + 4 ∨ a = SEC_VERIFY_FAIL_CNT.addr
          ∨ a = SEC_VERIFY_FAIL_CNT.addr + 4 ∨ a = SEC_FLAGS.addr
        (¬ good → ∃ t, exec (.updateVerifyDone sigOk) s = .next t ∧ failed t 1 ∧ t.dev.mgt.update = none
          ∧ t.dev.is SEC_FLAGS.VERIFY_FAIL = true ∧ s.Keeps t own)
        ∧ (good → img.svn < s.dev.fusedSvn → ∃ t, exec (.updateVerifyDone sigOk) s = .next t ∧ failed t 2
          ∧ t.dev.mgt.update = none ∧ s.Keeps t own)
        ∧ (good → s.dev.fusedSvn ≤ img.svn → img.journal / 256 ≠ s.dev.mgt.image.journal / 256 →
          ∃ t, exec (.updateVerifyDone sigOk) s = .next t ∧ failed t 3 ∧ t.dev.mgt.update = none ∧ s.Keeps t own)
        ∧ (good → s.dev.fusedSvn ≤ img.svn → img.journal / 256 = s.dev.mgt.image.journal / 256 →
          ∃ t, exec (.updateVerifyDone sigOk) s = .next t ∧ role t 2 ∧ t.dev.is MGT_ROLE.STBY_OK = false
            ∧ t.dev.mgt.update = some { u with image := img, phase := 2, since := s.dev.time }
            ∧ ⟨.event, idMGT, 0x024, word img.version, s.dev.time⟩ ∈ t.dev.ntq.input
            ∧ t.dev.get64 SEC_VERIFY_CNT.addr = (s.dev.get64 SEC_VERIFY_CNT.addr + 1) % 2 ^ 64 ∧ s.Keeps t own))
      ∧ (u.phase = 2 → s.dev.mgt.escrow.state ≠ 2 → s.dev.coreBoundary = true →
        ∃ t, exec .updateTakeover s = .next t ∧ role t 3 ∧ t.dev.is MGT_ROLE.STBY_OK = true ∧ t.dev.get MGT_ROLE.ACTIVE = 1 - core ∧ t.dev.mgt.image = u.image
          ∧ t.dev.mgt.update = some { u with image := s.dev.mgt.image, phase := 3, since := s.dev.time }
          ∧ t.dev.mgt.sessions = s.dev.mgt.sessions ∧ t.dev.mgt.key = s.dev.mgt.key ∧ s.Keeps t (· = MGT_ROLE.addr))
      ∧ (u.phase = 3 → u.since + ms 1000 ≤ s.dev.time → s.dev.time ≤ u.since + ms 5000 →
        ∃ t, exec .probationHealthy s = .next t ∧ role t 4 ∧ t.dev.is MGT_ROLE.STBY_OK = false
          ∧ t.dev.mgt.update = some { u with phase := 4, since := s.dev.time } ∧ t.dev.mgt.image = s.dev.mgt.image
          ∧ s.Keeps t (· = MGT_ROLE.addr))
      ∧ (u.phase = 3 → u.since + ms 5000 ≤ s.dev.time → s.dev.coreBoundary = true →
        ∃ t, exec .probationTimeout s = .next t ∧ failed t 5 ∧ t.dev.get MGT_ROLE.ACTIVE = 1 - core ∧ t.dev.mgt.image = u.image
          ∧ t.dev.is MGT_ROLE.STBY_OK = false ∧ t.dev.mgt.update = none ∧ s.Keeps t (· = MGT_ROLE.addr))
      ∧ (u.phase = 4 →
        (∃ t, exec (.flashCommitDone true) s = .next t ∧ role t 0 ∧ t.dev.mgt.update = none
          ∧ t.dev.mgt.preferred = 1 - s.dev.runningSlot
          ∧ t.dev.fusedSvn = Nat.max s.dev.fusedSvn (Nat.min 64 s.dev.mgt.image.svn)
          ∧ t.dev.get64 MGT_UPDATE_CNT.addr = (s.dev.get64 MGT_UPDATE_CNT.addr + 1) % 2 ^ 64
          ∧ s.Keeps t fun a => a = MGT_ROLE.addr ∨ a = SEC_STAT.addr ∨ a = MGT_UPDATE_CNT.addr ∨ a = MGT_UPDATE_CNT.addr + 4)
        ∧ ∃ t, exec (.flashCommitDone false) s = .next t ∧ role t 0 ∧ t.dev.mgt.update = none
          ∧ t.dev.mgt.preferred = s.dev.mgt.preferred ∧ t.dev.fusedSvn = s.dev.fusedSvn
          ∧ t.dev.ntq.input = s.dev.ntq.input ++ [⟨.event, idMGT, 0x025, word (2 ^ 31 + s.dev.mgt.image.svn), s.dev.time⟩]
          ∧ s.Keeps t (· = MGT_ROLE.addr))

/-- a camera's identity is checked under policy 1 and 2, a failure is pushed, and under policy 2 its gang is disabled; a nonce of 32
bytes waits for its report, which carries it; a board word is burned once, not while programming is locked, and refused when it is
already programmed (R436, R438, R439). -/
def Obligations.SecurityServices : Prop :=
  ∀ s : State, s.Ready →
    (∀ (p : Fin 16) idLen blob sig, s.dev.mgt.firmware = .running → s.dev.headOf p = p.val → s.dev.portUp p = true →
      let r := s.dev.cameraVerdict p idLen blob sig.toNat
      let policy := s.dev.get SEC_CFG.CAM_POLICY
      let found := fun t : State => Tab.get (fun _ => 0) t.dev.mgt.cameras p = r
      (blob = none → r = 5) ∧ (blob ≠ none → idLen = 0 → r = 2)
      ∧ (policy = 1 ∨ policy = 2 → r = 1 → ∃ t, exec (.cameraIdCheck p idLen blob sig) s = .next t ∧ found t
        ∧ t.dev.ntq.input = s.dev.ntq.input ∧ s.Keeps t fun _ => False)
      ∧ (policy = 1 → r ≠ 1 → ∃ t, exec (.cameraIdCheck p idLen blob sig) s = .next t ∧ found t
        ∧ t.dev.ntq.input = s.dev.ntq.input ++ [⟨.alert, idSEC, 0x013, word (r * 16 + p), s.dev.time⟩] ∧ s.Keeps t fun _ => False)
      ∧ (policy = 2 → r ≠ 1 → ∃ t, exec (.cameraIdCheck p idLen blob sig) s = .next t ∧ found t
        ∧ (∀ q ∈ s.dev.gang p, t.dev.is (AVP_PORT_CTL.EN q) = false)
        ∧ ⟨.alert, idSEC, 0x013, word (r * 16 + p), s.dev.time⟩ ∈ t.dev.ntq.input
        ∧ s.Keeps t fun a => 0x10 ≤ a / 0x1_0000 ∧ a / 0x1_0000 < 0x20)
      ∧ (policy ≠ 1 → policy ≠ 2 → ∃ t, exec (.cameraIdCheck p idLen blob sig) s = .next t ∧ t.dev.mgt.cameras = s.dev.mgt.cameras
        ∧ s.Keeps t fun _ => False))
    ∧ (∀ f k x, s.dev.Takes f k x → s.dev.holder = some k.session → s.dev.mgt.escrow.state = 0 → k.typ = 0x11 →
      field k.body 0 2 = 0xA020 → field k.body 2 1 = 1 → field k.body 3 1 = tBlob → field k.body 4 4 = 0 → field k.body 8 2 = 32 →
      ∃ t, exec (.attestRequest f) s = .next t ∧ s.Answers t f k x 0 0 []
        ∧ t.dev.mgt.attest.nonces = s.dev.mgt.attest.nonces ++ [(k.body.drop 12).take 32] ∧ s.Keeps t carried)
    ∧ (∀ n l, s.dev.mgt.firmware = .running → s.dev.mgt.attest.nonces = n :: l → n.length = 32 →
      ∃ t, exec .attestReportDone s = .next t ∧ t.dev.mgt.attest.nonces = l
        ∧ t.dev.mgt.attest.report.take 8 = ascii "ZDAT" ++ le 2 1 ++ le 2 5461 ∧ (t.dev.mgt.attest.report.drop 24).take 32 = n
        ∧ (t.dev.mgt.attest.report.drop 16).take 8 = le 8 s.dev.time
        ∧ t.dev.get64 SEC_ATTEST_CNT.addr = (s.dev.get64 SEC_ATTEST_CNT.addr + 1) % 2 ^ 64
        ∧ t.dev.ntq.input = s.dev.ntq.input ++ [⟨.info, idSEC, 0x012, 0, s.dev.time⟩]
        ∧ s.Keeps t fun a => a = SEC_ATTEST_CNT.addr ∨ a = SEC_ATTEST_CNT.addr + 4)
    ∧ (∀ r, s.dev.Admits r SEC_FUSE_CMD.addr →
      (s.dev.is DCT_LOCK.FUSE_PROG = true → ∃ t, exec (.fuseBurn r) s = .next t ∧ t.dev.mgt.fuses = s.dev.mgt.fuses
        ∧ s.Keeps t fun _ => False)
      ∧ (s.dev.is DCT_LOCK.FUSE_PROG = false → s.dev.is SEC_STAT.BOARD = true →
        ∃ t, exec (.fuseBurn r) s = .next t ∧ t.dev.mgt.fuses = s.dev.mgt.fuses ∧ t.dev.is SEC_FLAGS.BURN_REFUSED = true
          ∧ s.Keeps t (· = SEC_FLAGS.addr))
      ∧ (s.dev.is DCT_LOCK.FUSE_PROG = false → s.dev.is SEC_STAT.BOARD = false → s.dev.mgt.fuses.burning = none →
        ∃ t, exec (.fuseBurn r) s = .next t ∧ t.dev.mgt.fuses = { s.dev.mgt.fuses with
          burning := some (s.dev.reg SEC_FUSE_DATA.addr, s.dev.time) } ∧ s.Keeps t fun _ => False))
    ∧ ∀ w at', s.dev.mgt.fuses.burning = some (w, at') →
      ∃ t, exec .fuseBurnDone s = .next t ∧ t.dev.mgt.fuses = { s.dev.mgt.fuses with burning := none, board := some w } ∧ t.dev.is SEC_STAT.BOARD = true
        ∧ t.dev.is SEC_FLAGS.BURN_DONE = true
        ∧ t.dev.ntq.input = s.dev.ntq.input ++ [⟨.event, idSEC, 0x014, w, s.dev.time⟩]
        ∧ s.Keeps t fun a => a = SEC_STAT.addr ∨ a = SEC_FLAGS.addr


/-! ### Reset, boot, recovery and temperature (chapter 16) -/

/-- SYS_RST_N low for 1 us or more takes every register to its reset value but the fused SVN, the board word's bit and the SRIS sampled at the last
  release of PERST_N, empties the vault, and keeps what is in flash, MRAM and fuses and the level of PERST_N; a shorter pulse does nothing; every pin
  that drives and THERM_N are released; its release takes the newer valid copy of the boot control, or the defaults where none is valid, counts the
  boot into the older copy and starts the boot ROM, in recovery under RCV_FORCE or where a flash write of recovery has failed. What acts while
  SYS_RST_N is low and the layout of a stored copy are the model's readings (log entries 5, 54, 110), and the values of what the spec gives no reset
  for are its choice (log entry 1) (R429, R450, R452, R456). -/
def Obligations.SystemReset : Prop :=
  ∀ s : State,
    (∀ ns, s.dev.low = true ∨ ns < 1000 → exec (.sysRstAssert ns) s = .next s)
    ∧ (∀ ns, s.dev.low = false → 1000 ≤ ns →
      ∃ t, exec (.sysRstAssert ns) s = .next t ∧ t.dev.low = true ∧ t.vault = [] ∧ t.dev.time = 0 ∧ t.pending = s.pending
        ∧ (∀ a, a ≠ SEC_STAT.addr → a ≠ HEP_LINK_STAT.addr → t.dev.reg a = regReset a)
        ∧ t.dev.fusedSvn = s.dev.fusedSvn ∧ t.dev.get SEC_STAT.BOARD = s.dev.get SEC_STAT.BOARD
        ∧ t.dev.get HEP_LINK_STAT.SRIS = s.dev.get HEP_LINK_STAT.SRIS ∧ t.dev.hep.perst = s.dev.hep.perst
        ∧ t.dev.force = [] ∧ t.dev.cad = CadState.reset ∧ t.dev.ports = [] ∧ t.dev.vlt = VltState.reset ∧ t.dev.dma = []
        ∧ t.dev.mgt = { MgtState.reset with
          bootCount := s.dev.mgt.bootCount, faultLog := s.dev.mgt.faultLog, logCount := s.dev.mgt.logCount, retired := s.dev.mgt.retired
          lostTellers := s.dev.mgt.lostTellers, mram := s.dev.mgt.mram, preferred := s.dev.mgt.preferred, again := s.dev.mgt.again
          fuses := { s.dev.mgt.fuses with burning := none } }
        ∧ (∀ w, s.dev.mgt.fuses.board = some w → t.dev.cfg 0x2C = w)
        ∧ t.dev.out = s.dev.out ++ ((List.range 16).filter fun p => (s.dev.pinDrive p).isSome).map (Out.fioPin · none)
          ++ (if s.dev.is DCT_TEMP.THERM then [.therm false] else []))
    ∧ (s.dev.low = true → ∀ force control,
      let copies := readCopies control s.dev.mgt.mram.control
      let found := newest controlBytes copies
      let slot := (found.map (·.value.1)).getD 0
      let count := ((found.map (·.value.2)).getD 0 + 1) % 2 ^ 32
      ∃ t, exec (.sysRstRelease force control) s = .next t ∧ t.dev.low = false
        ∧ t.dev.mgt.preferred = slot ∧ t.dev.mgt.bootCount = count ∧ t.dev.mgt.controlBad = found.isNone
        ∧ ((∀ c, found = some c → c.seq + 1 < 2 ^ 64) → (newest controlBytes t.dev.mgt.mram.control).map (·.value) = some (slot, count))
        ∧ t.dev.mgt.mram.saved = s.dev.mgt.mram.saved ∧ t.dev.mgt.fuses = s.dev.mgt.fuses ∧ t.dev.mgt.faultLog = s.dev.mgt.faultLog
        ∧ (force = true → t.dev.mgt.firmware = .recovery ∧ t.dev.is MGT_RCV_STAT.ACTIVE = true ∧ t.dev.get MGT_RCV_STAT.CAUSE = 2)
        ∧ (force = false → s.dev.mgt.again ≠ 0 → s.dev.mgt.again < 4 → t.dev.mgt.firmware = .recovery
          ∧ t.dev.is MGT_RCV_STAT.ACTIVE = true ∧ t.dev.get MGT_RCV_STAT.CAUSE = s.dev.mgt.again)
        ∧ (force = false → s.dev.mgt.again = 0 → t.dev.mgt.firmware = s.dev.mgt.firmware ∧ s.Keeps t fun _ => False)
        ∧ s.Keeps t (· = MGT_RCV_STAT.addr))
    ∧ (s.dev.low = false → ∀ force control, exec (.sysRstRelease force control) s = .next s)

/-- the boot ROM starts the preferred slot's image, or else the other one's, and enters recovery where neither passes; recovery takes
chunks into its staging area, checks the image there, starts it, and ends once both slots are written, or begins again at the next SYS_RST_N
where a flash write failed. What a signature gives stands in the operand, a digest cannot match where the body is not wholly there, and other
corners are the model's (log entries 7, 54, 111) (R432, R452, R454-R456). -/
def Obligations.BootAndRecovery : Prop :=
  ∀ s : State, s.Ready →
    let ptp := fun a => a = NET_PTP_STAT.addr ∨ a = NET_FLAGS.addr
    let sec := fun a => a = SEC_STAT.addr ∨ a = SEC_FLAGS.addr ∨ a = SEC_VERIFY_CNT.addr ∨ a = SEC_VERIFY_CNT.addr + 4
      ∨ a = SEC_VERIFY_FAIL_CNT.addr ∨ a = SEC_VERIFY_FAIL_CNT.addr + 4
    let runs := fun (t : State) (img : ImageInfo) => t.dev.mgt.firmware = .running ∧ t.dev.mgt.image = img
      ∧ t.dev.mgt.unreported = [] ∧ t.dev.get SEC_STAT.KEY_SLOT = img.keySlot
    (∀ a b, s.dev.mgt.firmware = .boot →
      let first := s.dev.mgt.preferred % 2
      let slot := fun n => if n = 0 then a else b
      let img := fun n => ImageInfo.ofHeader (slot n).bytes
      let good := fun n => s.dev.ImageHolds (slot n).bytes (slot n).sigOk ∧ s.dev.fusedSvn ≤ (img n).svn
      (good first → ∃ t, exec (.bootVerifyDone a b) s = .next t ∧ runs t (img first)
        ∧ t.dev.get SEC_STAT.SLOT = first ∧ t.dev.mgt.controlBad = false
        ∧ (s.dev.mgt.controlBad = true → ⟨.alert, idMGT, 0x029, 0, s.dev.time⟩ ∈ t.dev.ntq.input)
        ∧ t.dev.get64 SEC_VERIFY_CNT.addr = (s.dev.get64 SEC_VERIFY_CNT.addr + 1) % 2 ^ 64 ∧ s.Keeps t fun a => sec a ∨ ptp a)
      ∧ (¬ good first → good (1 - first) → ∃ t, exec (.bootVerifyDone a b) s = .next t ∧ runs t (img (1 - first))
        ∧ t.dev.get SEC_STAT.SLOT = 1 - first ∧ t.dev.is SEC_FLAGS.VERIFY_FAIL = true
        ∧ t.dev.get64 SEC_VERIFY_CNT.addr = (s.dev.get64 SEC_VERIFY_CNT.addr + 2) % 2 ^ 64 ∧ s.Keeps t fun a => sec a ∨ ptp a)
      ∧ (¬ good first → ¬ good (1 - first) → ∃ t, exec (.bootVerifyDone a b) s = .next t
        ∧ t.dev.mgt.firmware = .recovery ∧ t.dev.is MGT_RCV_STAT.ACTIVE = true ∧ t.dev.get MGT_RCV_STAT.CAUSE = 1
        ∧ t.dev.get64 SEC_VERIFY_FAIL_CNT.addr = (s.dev.get64 SEC_VERIFY_FAIL_CNT.addr + 2) % 2 ^ 64
        ∧ s.Keeps t fun a => sec a ∨ a = MGT_RCV_STAT.addr))
    ∧ (∀ off data, s.dev.mgt.firmware = .recovery → (s.dev.slot 0).request = some (off :: data) →
      let chunk := fun (t : State) (answer : Word) => t.dev.mgt.firmware = .recovery ∧ (t.dev.slot 0).request = none
        ∧ (t.dev.slot 0).rx = ((s.dev.slot 0).rx ++ [answer]).take 360 ∧ t.dev.is MGT_MBX_FLAGS.RX_READY0 = true ∧ s.Keeps t carried
      (data = [] → ∃ t, exec .recoveryChunk s = .next t ∧ chunk t 2 ∧ t.dev.mgt.staging = s.dev.mgt.staging)
      ∧ (data ≠ [] → 32 * 2 ^ 20 < off.toNat + 4 * data.length →
        ∃ t, exec .recoveryChunk s = .next t ∧ chunk t 1 ∧ t.dev.mgt.staging = s.dev.mgt.staging)
      ∧ (data ≠ [] → off.toNat + 4 * data.length ≤ 32 * 2 ^ 20 →
        ∃ t, exec .recoveryChunk s = .next t ∧ chunk t 0
          ∧ (∀ j b, (Dev.bytesOf data)[j]? = some b → Tab.get (fun _ => 0) t.dev.mgt.staging (off.toNat + j) = b)
          ∧ (∀ j, j < off.toNat ∨ off.toNat + 4 * data.length ≤ j →
            Tab.get (fun _ => 0) t.dev.mgt.staging j = Tab.get (fun _ => 0) s.dev.mgt.staging j)))
    ∧ (∀ r (data : Word), s.dev.Admits r MGT_RCV_CTL.addr → data.getLsbD 31 = true →
      (s.dev.mgt.firmware = .recovery → s.dev.is MGT_RCV_STAT.VERIFYING = false →
        ∃ t, exec (.recoveryVerify r data) s = .next t ∧ t.dev.is MGT_RCV_STAT.VERIFYING = true
          ∧ t.dev.mgt.verifyLen = data.toNat % 2 ^ 26 ∧ t.dev.mgt.verifyAt = s.dev.time
          ∧ s.Keeps t fun a => a = MGT_RCV_CTL.addr ∨ a = MGT_RCV_STAT.addr)
      ∧ (s.dev.mgt.firmware ≠ .recovery →
        ∃ t, exec (.recoveryVerify r data) s = .next t ∧ t.dev.mgt = s.dev.mgt ∧ s.Keeps t (· = MGT_RCV_CTL.addr)))
    ∧ (∀ sigOk, s.dev.mgt.firmware = .recovery → s.dev.is MGT_RCV_STAT.VERIFYING = true →
      let n := s.dev.mgt.verifyLen
      let fits := n % 4 = 0 ∧ 8192 ≤ n ∧ n ≤ 32 * 2 ^ 20
      let l := (List.range n).map fun i => Tab.get (fun _ => (0 : Byte)) s.dev.mgt.staging i
      let img := ImageInfo.ofHeader l
      let holds := s.dev.ImageHolds l sigOk
      let own := fun a => sec a ∨ ptp a ∨ a = MGT_RCV_STAT.addr
      (¬ fits → ∃ t, exec (.recoveryVerifyDone sigOk) s = .next t ∧ t.dev.get MGT_RCV_STAT.RESULT = 6
        ∧ t.dev.is MGT_RCV_STAT.VERIFYING = false ∧ t.dev.mgt = s.dev.mgt ∧ s.Keeps t (· = MGT_RCV_STAT.addr))
      ∧ (fits → ¬ holds → ∃ t, exec (.recoveryVerifyDone sigOk) s = .next t
        ∧ t.dev.get MGT_RCV_STAT.RESULT = (if ¬ ImageDigest l then 1 else if ¬ s.dev.ImageKey l then 2 else if ¬ s.dev.ImageSlot l then 3 else 4)
        ∧ t.dev.mgt.firmware = .recovery ∧ t.dev.is SEC_FLAGS.VERIFY_FAIL = true ∧ s.Keeps t own)
      ∧ (fits → holds → img.svn < s.dev.fusedSvn → ∃ t, exec (.recoveryVerifyDone sigOk) s = .next t
        ∧ t.dev.get MGT_RCV_STAT.RESULT = 5 ∧ t.dev.mgt.firmware = .recovery ∧ s.Keeps t own)
      ∧ (fits → holds → s.dev.fusedSvn ≤ img.svn → ∃ t, exec (.recoveryVerifyDone sigOk) s = .next t
        ∧ t.dev.get MGT_RCV_STAT.RESULT = 7 ∧ runs t img ∧ s.Keeps t own))
    ∧ ∀ ok, s.dev.mgt.firmware = .running → s.dev.is MGT_RCV_STAT.ACTIVE = true → s.dev.mgt.staging ≠ [] →
      ∃ t, exec (.recoveryFlashDone ok) s = .next t ∧ t.dev.mgt.staging = []
        ∧ (ok = true → t.dev.is MGT_RCV_STAT.ACTIVE = false ∧ t.dev.mgt.preferred = 0 ∧ t.dev.mgt.again = 0
          ∧ t.dev.fusedSvn = Nat.max s.dev.fusedSvn (Nat.min 64 s.dev.mgt.image.svn)
          ∧ s.Keeps t fun a => a = MGT_RCV_STAT.addr ∨ a = SEC_STAT.addr)
        ∧ (ok = false → t.dev.mgt.preferred = s.dev.mgt.preferred ∧ t.dev.mgt.again = s.dev.get MGT_RCV_STAT.CAUSE ∧ s.Keeps t fun _ => False)


/-! ### The whole machine -/

/-- a step takes the command at the front of the queue and runs it with the rest of the queue. -/
def Obligations.StepRunsFront : Prop :=
  ∀ (s : State) (c : Instr) (rest : List Instr), s.pending = c :: rest → step s = exec c { s with pending := rest }

/-- on an empty queue a step is one cycle of device time, 2 units and one more or one less by the carry or borrow of the trim
(R58); an audit whose 200 ns have passed finds its instant (R55); the commits of the cycle act (R256) and the packets that are ready
leave; where there is none, and no packet and no channel waits, nothing else changes, and a wait is counted in cycles of its clock (R228,
R287, R321). That this cycle is what the step does on an empty queue is the model's choice (log entries 2, 25 and 64). -/
def Obligations.IdleStep : Prop :=
  ∀ s : State, s.Ready → s.pending = [] →
    let sum : Int := s.dev.frac.toNat + 2 * signed 32 (s.dev.reg CAD_TRIM.addr).toNat
    let ports := fun (c : Packets → Prop) => ∀ p, p < 16 → c (s.dev.port p).pk
    let waits := fun c => s.dev.chState c = 2 ∧ s.dev.get (DMA_CH_STAT.WAIT_CAUSE c) = 3
    ∃ t, step s = .next t ∧ t.pending = [] ∧ t.vault = s.vault ∧ t.dev.force = s.dev.force ∧ t.dev.frac = BitVec.ofInt 40 sum
      ∧ (sum < 0 → t.dev.time = s.dev.time + 1) ∧ (0 ≤ sum → sum < 2 ^ 40 → t.dev.time = s.dev.time + 2)
      ∧ (2 ^ 40 ≤ sum → t.dev.time = s.dev.time + 3)
      ∧ (∀ t0, s.dev.aud.since = some t0 → s.dev.aud.instant = none →
        t.dev.aud.instant = if t0 + ns 200 ≤ t.dev.time then some t.dev.time else none)
      ∧ t.dev.vlt.commits = [] ∧ (∀ p, p < 16 → (t.dev.port p).pk.ready = [])
      ∧ (s.dev.vlt.commits = [] → ports (·.ready = []) → t.dev.out = s.dev.out)
      ∧ (s.dev.vlt.commits = [] → ports (fun k => k.ready = [] ∧ k.held = []) → (∀ c, c < 32 → ¬ waits c) → s.dev.busHeld = false → t.dev.regs = s.dev.regs)
      ∧ (∀ p, p < 16 → (s.dev.port p).pk.held ≠ [] →
        t.dev.get64 CLR_FULL_CNT.addr = (s.dev.get64 CLR_FULL_CNT.addr + (3 * t.dev.time / 10 - 3 * s.dev.time / 10)) % 2 ^ 64)
      ∧ ∀ c, c < 32 → waits c →
        t.dev.get64 (DMA_CH_WAIT_CNT.addr c) = (s.dev.get64 (DMA_CH_WAIT_CNT.addr c) + (t.dev.time / 2 - s.dev.time / 2)) % 2 ^ 64

/-- after reset the queue and the vault are empty, device time is 0, every register of the map stands at its reset value (for a
register to which the spec gives none, the 0 that is the model's choice, log entry 1), the mode is STANDBY with BASE and NEXT, no
apply is pending, every port is DOWN, every strike IDLE, every ring OFF, no frame is open, nobody holds the key and the gate is
closed; and this state is sound: the vault stands in its canonical form and no write is left over (R14, R85, R110, R365, R373,
R450). -/
def Obligations.ResetState : Prop :=
  (let d := State.reset.dev
  State.reset.pending = [] ∧ State.reset.vault = [] ∧ d.time = 0 ∧ (∀ a, d.reg a = regReset a)
    ∧ d.mode = 0 ∧ d.get DCT_MODE.BASE = 0 ∧ d.get DCT_MODE.NEXT = 0 ∧ d.is CAD_APPLY.PENDING = false
    ∧ (∀ p : Fin 16, d.portState p = 0 ∧ d.is (AVP_PORT_CTL.EN p) = false)
    ∧ (∀ k : Fin 64, d.strikeState k = 0 ∧ (d.ring k).state = .off)
    ∧ (∀ e : Fin 128, d.is (EVR_CH.EN e) = false) ∧ d.evr.timers = [] ∧ d.clr.frames = [] ∧ d.holder = none ∧ d.gateOpen = false
    ∧ d.is VLT_STAT.INIT_DONE = false ∧ d.ntq.input = [])
  ∧ State.reset.Sound

/-- every command, in every state, answers a next state, and leaves the queue alone; a command whose condition does not hold changes nothing, which
  is the model's reading (log entry 6). -/
def Obligations.EveryCommandAnswers : Prop :=
  ∀ (c : Instr) (s : State), ∃ t, exec c s = .next t ∧ t.pending = s.pending

/-- while SYS_RST_N is low a queue of commands passes without any effect, the release and the movements of PERST_N apart, as the model reads it
  (log entry 5) (R450, R451). -/
def Obligations.NothingWhileLow : Prop :=
  ∀ (l : List Instr) (s : State), s.pending = l → s.dev.low = true → (∀ c ∈ l, (∀ f k, c ≠ .sysRstRelease f k) ∧ (∀ ns, c ≠ .perstAssert ns) ∧ ∀ v ns, c ≠ .perstRelease v ns) →
    Host.Core.run Sys2Proof.core l.length s = .next { s with pending := [] }

/-- every step from a sound state answers a sound state: the vault keeps its one canonical form, whatever is written. -/
def Obligations.StepKeepsSound : Prop :=
  ∀ s t : State, s.Sound → step s = .next t → t.Sound

/-- every queue runs to its end, in as many steps as it holds commands, from every state, without a fault or a refusal; a sound state stays sound;
  and running one queue and then another is running both in one. That every command answers rests on log entry 6. -/
def Obligations.QueueRuns : Prop :=
  ∀ (l : List Instr) (s : State), s.pending = l →
    ∃ t, Host.Core.run Sys2Proof.core l.length s = .next t ∧ t.pending = [] ∧ (s.Sound → t.Sound)
      ∧ ∀ m : List Instr, Host.Core.run Sys2Proof.core l.length { s with pending := l ++ m } = .next { t with pending := m }
end

