-- ==== Sys2Proof/Laws/State.lean ====
section
/-! SUPPORT. Laws of the updates of the state: what each named update leaves alone, one lemma per field, each true by unfolding; and that
an update of anything but the registers leaves every register and field as it was. -/

namespace Sys2Proof.Machine.Dev

/-! ### setReg -/

@[simp] theorem setReg_time (d : Dev) (a : Nat) (v : Word) : (d.setReg a v).time = d.time := rfl
@[simp] theorem setReg_frac (d : Dev) (a : Nat) (v : Word) : (d.setReg a v).frac = d.frac := rfl
@[simp] theorem setReg_force (d : Dev) (a : Nat) (v : Word) : (d.setReg a v).force = d.force := rfl
@[simp] theorem setReg_history (d : Dev) (a : Nat) (v : Word) : (d.setReg a v).history = d.history := rfl
@[simp] theorem setReg_latch (d : Dev) (a : Nat) (v : Word) : (d.setReg a v).latch = d.latch := rfl
@[simp] theorem setReg_marks (d : Dev) (a : Nat) (v : Word) : (d.setReg a v).marks = d.marks := rfl
@[simp] theorem setReg_out (d : Dev) (a : Nat) (v : Word) : (d.setReg a v).out = d.out := rfl
@[simp] theorem setReg_fresh (d : Dev) (a : Nat) (v : Word) : (d.setReg a v).fresh = d.fresh := rfl
@[simp] theorem setReg_low (d : Dev) (a : Nat) (v : Word) : (d.setReg a v).low = d.low := rfl
@[simp] theorem setReg_cyc (d : Dev) (a : Nat) (v : Word) : (d.setReg a v).cyc = d.cyc := rfl
@[simp] theorem setReg_ntq (d : Dev) (a : Nat) (v : Word) : (d.setReg a v).ntq = d.ntq := rfl
@[simp] theorem setReg_aud (d : Dev) (a : Nat) (v : Word) : (d.setReg a v).aud = d.aud := rfl
@[simp] theorem setReg_cad (d : Dev) (a : Nat) (v : Word) : (d.setReg a v).cad = d.cad := rfl
@[simp] theorem setReg_ports (d : Dev) (a : Nat) (v : Word) : (d.setReg a v).ports = d.ports := rfl
@[simp] theorem setReg_cht (d : Dev) (a : Nat) (v : Word) : (d.setReg a v).cht = d.cht := rfl
@[simp] theorem setReg_clr (d : Dev) (a : Nat) (v : Word) : (d.setReg a v).clr = d.clr := rfl
@[simp] theorem setReg_vlt (d : Dev) (a : Nat) (v : Word) : (d.setReg a v).vlt = d.vlt := rfl
@[simp] theorem setReg_dma (d : Dev) (a : Nat) (v : Word) : (d.setReg a v).dma = d.dma := rfl
@[simp] theorem setReg_hep (d : Dev) (a : Nat) (v : Word) : (d.setReg a v).hep = d.hep := rfl
@[simp] theorem setReg_evr (d : Dev) (a : Nat) (v : Word) : (d.setReg a v).evr = d.evr := rfl
@[simp] theorem setReg_enc (d : Dev) (a : Nat) (v : Word) : (d.setReg a v).enc = d.enc := rfl
@[simp] theorem setReg_fio (d : Dev) (a : Nat) (v : Word) : (d.setReg a v).fio = d.fio := rfl
@[simp] theorem setReg_stp (d : Dev) (a : Nat) (v : Word) : (d.setReg a v).stp = d.stp := rfl
@[simp] theorem setReg_mgt (d : Dev) (a : Nat) (v : Word) : (d.setReg a v).mgt = d.mgt := rfl

/-! ### put -/

@[simp] theorem put_time (d : Dev) (f : Bits) (n : Nat) : (d.put f n).time = d.time := rfl
@[simp] theorem put_frac (d : Dev) (f : Bits) (n : Nat) : (d.put f n).frac = d.frac := rfl
@[simp] theorem put_force (d : Dev) (f : Bits) (n : Nat) : (d.put f n).force = d.force := rfl
@[simp] theorem put_history (d : Dev) (f : Bits) (n : Nat) : (d.put f n).history = d.history := rfl
@[simp] theorem put_latch (d : Dev) (f : Bits) (n : Nat) : (d.put f n).latch = d.latch := rfl
@[simp] theorem put_marks (d : Dev) (f : Bits) (n : Nat) : (d.put f n).marks = d.marks := rfl
@[simp] theorem put_out (d : Dev) (f : Bits) (n : Nat) : (d.put f n).out = d.out := rfl
@[simp] theorem put_fresh (d : Dev) (f : Bits) (n : Nat) : (d.put f n).fresh = d.fresh := rfl
@[simp] theorem put_low (d : Dev) (f : Bits) (n : Nat) : (d.put f n).low = d.low := rfl
@[simp] theorem put_cyc (d : Dev) (f : Bits) (n : Nat) : (d.put f n).cyc = d.cyc := rfl
@[simp] theorem put_ntq (d : Dev) (f : Bits) (n : Nat) : (d.put f n).ntq = d.ntq := rfl
@[simp] theorem put_aud (d : Dev) (f : Bits) (n : Nat) : (d.put f n).aud = d.aud := rfl
@[simp] theorem put_cad (d : Dev) (f : Bits) (n : Nat) : (d.put f n).cad = d.cad := rfl
@[simp] theorem put_ports (d : Dev) (f : Bits) (n : Nat) : (d.put f n).ports = d.ports := rfl
@[simp] theorem put_cht (d : Dev) (f : Bits) (n : Nat) : (d.put f n).cht = d.cht := rfl
@[simp] theorem put_clr (d : Dev) (f : Bits) (n : Nat) : (d.put f n).clr = d.clr := rfl
@[simp] theorem put_vlt (d : Dev) (f : Bits) (n : Nat) : (d.put f n).vlt = d.vlt := rfl
@[simp] theorem put_dma (d : Dev) (f : Bits) (n : Nat) : (d.put f n).dma = d.dma := rfl
@[simp] theorem put_hep (d : Dev) (f : Bits) (n : Nat) : (d.put f n).hep = d.hep := rfl
@[simp] theorem put_evr (d : Dev) (f : Bits) (n : Nat) : (d.put f n).evr = d.evr := rfl
@[simp] theorem put_enc (d : Dev) (f : Bits) (n : Nat) : (d.put f n).enc = d.enc := rfl
@[simp] theorem put_fio (d : Dev) (f : Bits) (n : Nat) : (d.put f n).fio = d.fio := rfl
@[simp] theorem put_stp (d : Dev) (f : Bits) (n : Nat) : (d.put f n).stp = d.stp := rfl
@[simp] theorem put_mgt (d : Dev) (f : Bits) (n : Nat) : (d.put f n).mgt = d.mgt := rfl

/-! ### noteSet -/

@[simp] theorem noteSet_time (d : Dev) (f : Bits) : (d.noteSet f).time = d.time := rfl
@[simp] theorem noteSet_frac (d : Dev) (f : Bits) : (d.noteSet f).frac = d.frac := rfl
@[simp] theorem noteSet_regs (d : Dev) (f : Bits) : (d.noteSet f).regs = d.regs := rfl
@[simp] theorem noteSet_force (d : Dev) (f : Bits) : (d.noteSet f).force = d.force := rfl
@[simp] theorem noteSet_history (d : Dev) (f : Bits) : (d.noteSet f).history = d.history := rfl
@[simp] theorem noteSet_latch (d : Dev) (f : Bits) : (d.noteSet f).latch = d.latch := rfl
@[simp] theorem noteSet_marks (d : Dev) (f : Bits) : (d.noteSet f).marks = d.marks := rfl
@[simp] theorem noteSet_out (d : Dev) (f : Bits) : (d.noteSet f).out = d.out := rfl
@[simp] theorem noteSet_fresh (d : Dev) (f : Bits) : (d.noteSet f).fresh = d.fresh := rfl
@[simp] theorem noteSet_low (d : Dev) (f : Bits) : (d.noteSet f).low = d.low := rfl
@[simp] theorem noteSet_ntq (d : Dev) (f : Bits) : (d.noteSet f).ntq = d.ntq := rfl
@[simp] theorem noteSet_aud (d : Dev) (f : Bits) : (d.noteSet f).aud = d.aud := rfl
@[simp] theorem noteSet_cad (d : Dev) (f : Bits) : (d.noteSet f).cad = d.cad := rfl
@[simp] theorem noteSet_ports (d : Dev) (f : Bits) : (d.noteSet f).ports = d.ports := rfl
@[simp] theorem noteSet_cht (d : Dev) (f : Bits) : (d.noteSet f).cht = d.cht := rfl
@[simp] theorem noteSet_clr (d : Dev) (f : Bits) : (d.noteSet f).clr = d.clr := rfl
@[simp] theorem noteSet_vlt (d : Dev) (f : Bits) : (d.noteSet f).vlt = d.vlt := rfl
@[simp] theorem noteSet_dma (d : Dev) (f : Bits) : (d.noteSet f).dma = d.dma := rfl
@[simp] theorem noteSet_hep (d : Dev) (f : Bits) : (d.noteSet f).hep = d.hep := rfl
@[simp] theorem noteSet_evr (d : Dev) (f : Bits) : (d.noteSet f).evr = d.evr := rfl
@[simp] theorem noteSet_enc (d : Dev) (f : Bits) : (d.noteSet f).enc = d.enc := rfl
@[simp] theorem noteSet_fio (d : Dev) (f : Bits) : (d.noteSet f).fio = d.fio := rfl
@[simp] theorem noteSet_stp (d : Dev) (f : Bits) : (d.noteSet f).stp = d.stp := rfl
@[simp] theorem noteSet_mgt (d : Dev) (f : Bits) : (d.noteSet f).mgt = d.mgt := rfl
@[simp] theorem noteSet_reg (d : Dev) (f : Bits) (r : Nat) : (d.noteSet f).reg r = d.reg r := rfl
@[simp] theorem noteSet_get (d : Dev) (f : Bits) (r : Bits) : (d.noteSet f).get r = d.get r := rfl
@[simp] theorem noteSet_is (d : Dev) (f : Bits) (r : Bits) : (d.noteSet f).is r = d.is r := rfl
@[simp] theorem noteSet_get64 (d : Dev) (f : Bits) (r : Nat) : (d.noteSet f).get64 r = d.get64 r := rfl
@[simp] theorem noteSet_bitOf (d : Dev) (f : Bits) (r j : Nat) : (d.noteSet f).bitOf r j = d.bitOf r j := rfl

/-! ### noteWas -/

@[simp] theorem noteWas_time (d : Dev) (a : Nat) : (d.noteWas a).time = d.time := rfl
@[simp] theorem noteWas_frac (d : Dev) (a : Nat) : (d.noteWas a).frac = d.frac := rfl
@[simp] theorem noteWas_regs (d : Dev) (a : Nat) : (d.noteWas a).regs = d.regs := rfl
@[simp] theorem noteWas_force (d : Dev) (a : Nat) : (d.noteWas a).force = d.force := rfl
@[simp] theorem noteWas_history (d : Dev) (a : Nat) : (d.noteWas a).history = d.history := rfl
@[simp] theorem noteWas_latch (d : Dev) (a : Nat) : (d.noteWas a).latch = d.latch := rfl
@[simp] theorem noteWas_marks (d : Dev) (a : Nat) : (d.noteWas a).marks = d.marks := rfl
@[simp] theorem noteWas_out (d : Dev) (a : Nat) : (d.noteWas a).out = d.out := rfl
@[simp] theorem noteWas_fresh (d : Dev) (a : Nat) : (d.noteWas a).fresh = d.fresh := rfl
@[simp] theorem noteWas_low (d : Dev) (a : Nat) : (d.noteWas a).low = d.low := rfl
@[simp] theorem noteWas_ntq (d : Dev) (a : Nat) : (d.noteWas a).ntq = d.ntq := rfl
@[simp] theorem noteWas_aud (d : Dev) (a : Nat) : (d.noteWas a).aud = d.aud := rfl
@[simp] theorem noteWas_cad (d : Dev) (a : Nat) : (d.noteWas a).cad = d.cad := rfl
@[simp] theorem noteWas_ports (d : Dev) (a : Nat) : (d.noteWas a).ports = d.ports := rfl
@[simp] theorem noteWas_cht (d : Dev) (a : Nat) : (d.noteWas a).cht = d.cht := rfl
@[simp] theorem noteWas_clr (d : Dev) (a : Nat) : (d.noteWas a).clr = d.clr := rfl
@[simp] theorem noteWas_vlt (d : Dev) (a : Nat) : (d.noteWas a).vlt = d.vlt := rfl
@[simp] theorem noteWas_dma (d : Dev) (a : Nat) : (d.noteWas a).dma = d.dma := rfl
@[simp] theorem noteWas_hep (d : Dev) (a : Nat) : (d.noteWas a).hep = d.hep := rfl
@[simp] theorem noteWas_evr (d : Dev) (a : Nat) : (d.noteWas a).evr = d.evr := rfl
@[simp] theorem noteWas_enc (d : Dev) (a : Nat) : (d.noteWas a).enc = d.enc := rfl
@[simp] theorem noteWas_fio (d : Dev) (a : Nat) : (d.noteWas a).fio = d.fio := rfl
@[simp] theorem noteWas_stp (d : Dev) (a : Nat) : (d.noteWas a).stp = d.stp := rfl
@[simp] theorem noteWas_mgt (d : Dev) (a : Nat) : (d.noteWas a).mgt = d.mgt := rfl
@[simp] theorem noteWas_reg (d : Dev) (a : Nat) (r : Nat) : (d.noteWas a).reg r = d.reg r := rfl
@[simp] theorem noteWas_get (d : Dev) (a : Nat) (r : Bits) : (d.noteWas a).get r = d.get r := rfl
@[simp] theorem noteWas_is (d : Dev) (a : Nat) (r : Bits) : (d.noteWas a).is r = d.is r := rfl
@[simp] theorem noteWas_get64 (d : Dev) (a : Nat) (r : Nat) : (d.noteWas a).get64 r = d.get64 r := rfl
@[simp] theorem noteWas_bitOf (d : Dev) (a : Nat) (r j : Nat) : (d.noteWas a).bitOf r j = d.bitOf r j := rfl

/-! ### hwPut -/

@[simp] theorem hwPut_time (d : Dev) (f : Bits) (n : Nat) : (d.hwPut f n).time = d.time := by unfold hwPut; split <;> rfl
@[simp] theorem hwPut_frac (d : Dev) (f : Bits) (n : Nat) : (d.hwPut f n).frac = d.frac := by unfold hwPut; split <;> rfl
@[simp] theorem hwPut_force (d : Dev) (f : Bits) (n : Nat) : (d.hwPut f n).force = d.force := by unfold hwPut; split <;> rfl
@[simp] theorem hwPut_history (d : Dev) (f : Bits) (n : Nat) : (d.hwPut f n).history = d.history := by unfold hwPut; split <;> rfl
@[simp] theorem hwPut_latch (d : Dev) (f : Bits) (n : Nat) : (d.hwPut f n).latch = d.latch := by unfold hwPut; split <;> rfl
@[simp] theorem hwPut_marks (d : Dev) (f : Bits) (n : Nat) : (d.hwPut f n).marks = d.marks := by unfold hwPut; split <;> rfl
@[simp] theorem hwPut_out (d : Dev) (f : Bits) (n : Nat) : (d.hwPut f n).out = d.out := by unfold hwPut; split <;> rfl
@[simp] theorem hwPut_fresh (d : Dev) (f : Bits) (n : Nat) : (d.hwPut f n).fresh = d.fresh := by unfold hwPut; split <;> rfl
@[simp] theorem hwPut_low (d : Dev) (f : Bits) (n : Nat) : (d.hwPut f n).low = d.low := by unfold hwPut; split <;> rfl
@[simp] theorem hwPut_cyc (d : Dev) (f : Bits) (n : Nat) : (d.hwPut f n).cyc = d.cyc := by unfold hwPut; split <;> rfl
@[simp] theorem hwPut_ntq (d : Dev) (f : Bits) (n : Nat) : (d.hwPut f n).ntq = d.ntq := by unfold hwPut; split <;> rfl
@[simp] theorem hwPut_aud (d : Dev) (f : Bits) (n : Nat) : (d.hwPut f n).aud = d.aud := by unfold hwPut; split <;> rfl
@[simp] theorem hwPut_cad (d : Dev) (f : Bits) (n : Nat) : (d.hwPut f n).cad = d.cad := by unfold hwPut; split <;> rfl
@[simp] theorem hwPut_ports (d : Dev) (f : Bits) (n : Nat) : (d.hwPut f n).ports = d.ports := by unfold hwPut; split <;> rfl
@[simp] theorem hwPut_cht (d : Dev) (f : Bits) (n : Nat) : (d.hwPut f n).cht = d.cht := by unfold hwPut; split <;> rfl
@[simp] theorem hwPut_clr (d : Dev) (f : Bits) (n : Nat) : (d.hwPut f n).clr = d.clr := by unfold hwPut; split <;> rfl
@[simp] theorem hwPut_vlt (d : Dev) (f : Bits) (n : Nat) : (d.hwPut f n).vlt = d.vlt := by unfold hwPut; split <;> rfl
@[simp] theorem hwPut_dma (d : Dev) (f : Bits) (n : Nat) : (d.hwPut f n).dma = d.dma := by unfold hwPut; split <;> rfl
@[simp] theorem hwPut_hep (d : Dev) (f : Bits) (n : Nat) : (d.hwPut f n).hep = d.hep := by unfold hwPut; split <;> rfl
@[simp] theorem hwPut_evr (d : Dev) (f : Bits) (n : Nat) : (d.hwPut f n).evr = d.evr := by unfold hwPut; split <;> rfl
@[simp] theorem hwPut_enc (d : Dev) (f : Bits) (n : Nat) : (d.hwPut f n).enc = d.enc := by unfold hwPut; split <;> rfl
@[simp] theorem hwPut_fio (d : Dev) (f : Bits) (n : Nat) : (d.hwPut f n).fio = d.fio := by unfold hwPut; split <;> rfl
@[simp] theorem hwPut_stp (d : Dev) (f : Bits) (n : Nat) : (d.hwPut f n).stp = d.stp := by unfold hwPut; split <;> rfl
@[simp] theorem hwPut_mgt (d : Dev) (f : Bits) (n : Nat) : (d.hwPut f n).mgt = d.mgt := by unfold hwPut; split <;> rfl

/-! ### set1 -/

@[simp] theorem set1_time (d : Dev) (f : Bits) : (d.set1 f).time = d.time := rfl
@[simp] theorem set1_frac (d : Dev) (f : Bits) : (d.set1 f).frac = d.frac := rfl
@[simp] theorem set1_force (d : Dev) (f : Bits) : (d.set1 f).force = d.force := rfl
@[simp] theorem set1_history (d : Dev) (f : Bits) : (d.set1 f).history = d.history := rfl
@[simp] theorem set1_latch (d : Dev) (f : Bits) : (d.set1 f).latch = d.latch := rfl
@[simp] theorem set1_marks (d : Dev) (f : Bits) : (d.set1 f).marks = d.marks := rfl
@[simp] theorem set1_out (d : Dev) (f : Bits) : (d.set1 f).out = d.out := rfl
@[simp] theorem set1_fresh (d : Dev) (f : Bits) : (d.set1 f).fresh = d.fresh := rfl
@[simp] theorem set1_low (d : Dev) (f : Bits) : (d.set1 f).low = d.low := rfl
@[simp] theorem set1_ntq (d : Dev) (f : Bits) : (d.set1 f).ntq = d.ntq := rfl
@[simp] theorem set1_aud (d : Dev) (f : Bits) : (d.set1 f).aud = d.aud := rfl
@[simp] theorem set1_cad (d : Dev) (f : Bits) : (d.set1 f).cad = d.cad := rfl
@[simp] theorem set1_ports (d : Dev) (f : Bits) : (d.set1 f).ports = d.ports := rfl
@[simp] theorem set1_cht (d : Dev) (f : Bits) : (d.set1 f).cht = d.cht := rfl
@[simp] theorem set1_clr (d : Dev) (f : Bits) : (d.set1 f).clr = d.clr := rfl
@[simp] theorem set1_vlt (d : Dev) (f : Bits) : (d.set1 f).vlt = d.vlt := rfl
@[simp] theorem set1_dma (d : Dev) (f : Bits) : (d.set1 f).dma = d.dma := rfl
@[simp] theorem set1_hep (d : Dev) (f : Bits) : (d.set1 f).hep = d.hep := rfl
@[simp] theorem set1_evr (d : Dev) (f : Bits) : (d.set1 f).evr = d.evr := rfl
@[simp] theorem set1_enc (d : Dev) (f : Bits) : (d.set1 f).enc = d.enc := rfl
@[simp] theorem set1_fio (d : Dev) (f : Bits) : (d.set1 f).fio = d.fio := rfl
@[simp] theorem set1_stp (d : Dev) (f : Bits) : (d.set1 f).stp = d.stp := rfl
@[simp] theorem set1_mgt (d : Dev) (f : Bits) : (d.set1 f).mgt = d.mgt := rfl

/-! ### unset -/

@[simp] theorem unset_time (d : Dev) (f : Bits) : (d.unset f).time = d.time := rfl
@[simp] theorem unset_frac (d : Dev) (f : Bits) : (d.unset f).frac = d.frac := rfl
@[simp] theorem unset_force (d : Dev) (f : Bits) : (d.unset f).force = d.force := rfl
@[simp] theorem unset_history (d : Dev) (f : Bits) : (d.unset f).history = d.history := rfl
@[simp] theorem unset_latch (d : Dev) (f : Bits) : (d.unset f).latch = d.latch := rfl
@[simp] theorem unset_marks (d : Dev) (f : Bits) : (d.unset f).marks = d.marks := rfl
@[simp] theorem unset_out (d : Dev) (f : Bits) : (d.unset f).out = d.out := rfl
@[simp] theorem unset_fresh (d : Dev) (f : Bits) : (d.unset f).fresh = d.fresh := rfl
@[simp] theorem unset_low (d : Dev) (f : Bits) : (d.unset f).low = d.low := rfl
@[simp] theorem unset_cyc (d : Dev) (f : Bits) : (d.unset f).cyc = d.cyc := rfl
@[simp] theorem unset_ntq (d : Dev) (f : Bits) : (d.unset f).ntq = d.ntq := rfl
@[simp] theorem unset_aud (d : Dev) (f : Bits) : (d.unset f).aud = d.aud := rfl
@[simp] theorem unset_cad (d : Dev) (f : Bits) : (d.unset f).cad = d.cad := rfl
@[simp] theorem unset_ports (d : Dev) (f : Bits) : (d.unset f).ports = d.ports := rfl
@[simp] theorem unset_cht (d : Dev) (f : Bits) : (d.unset f).cht = d.cht := rfl
@[simp] theorem unset_clr (d : Dev) (f : Bits) : (d.unset f).clr = d.clr := rfl
@[simp] theorem unset_vlt (d : Dev) (f : Bits) : (d.unset f).vlt = d.vlt := rfl
@[simp] theorem unset_dma (d : Dev) (f : Bits) : (d.unset f).dma = d.dma := rfl
@[simp] theorem unset_hep (d : Dev) (f : Bits) : (d.unset f).hep = d.hep := rfl
@[simp] theorem unset_evr (d : Dev) (f : Bits) : (d.unset f).evr = d.evr := rfl
@[simp] theorem unset_enc (d : Dev) (f : Bits) : (d.unset f).enc = d.enc := rfl
@[simp] theorem unset_fio (d : Dev) (f : Bits) : (d.unset f).fio = d.fio := rfl
@[simp] theorem unset_stp (d : Dev) (f : Bits) : (d.unset f).stp = d.stp := rfl
@[simp] theorem unset_mgt (d : Dev) (f : Bits) : (d.unset f).mgt = d.mgt := rfl

/-! ### setBit -/

@[simp] theorem setBit_time (d : Dev) (a i : Nat) : (d.setBit a i).time = d.time := rfl
@[simp] theorem setBit_frac (d : Dev) (a i : Nat) : (d.setBit a i).frac = d.frac := rfl
@[simp] theorem setBit_force (d : Dev) (a i : Nat) : (d.setBit a i).force = d.force := rfl
@[simp] theorem setBit_history (d : Dev) (a i : Nat) : (d.setBit a i).history = d.history := rfl
@[simp] theorem setBit_latch (d : Dev) (a i : Nat) : (d.setBit a i).latch = d.latch := rfl
@[simp] theorem setBit_marks (d : Dev) (a i : Nat) : (d.setBit a i).marks = d.marks := rfl
@[simp] theorem setBit_out (d : Dev) (a i : Nat) : (d.setBit a i).out = d.out := rfl
@[simp] theorem setBit_fresh (d : Dev) (a i : Nat) : (d.setBit a i).fresh = d.fresh := rfl
@[simp] theorem setBit_low (d : Dev) (a i : Nat) : (d.setBit a i).low = d.low := rfl
@[simp] theorem setBit_ntq (d : Dev) (a i : Nat) : (d.setBit a i).ntq = d.ntq := rfl
@[simp] theorem setBit_aud (d : Dev) (a i : Nat) : (d.setBit a i).aud = d.aud := rfl
@[simp] theorem setBit_cad (d : Dev) (a i : Nat) : (d.setBit a i).cad = d.cad := rfl
@[simp] theorem setBit_ports (d : Dev) (a i : Nat) : (d.setBit a i).ports = d.ports := rfl
@[simp] theorem setBit_cht (d : Dev) (a i : Nat) : (d.setBit a i).cht = d.cht := rfl
@[simp] theorem setBit_clr (d : Dev) (a i : Nat) : (d.setBit a i).clr = d.clr := rfl
@[simp] theorem setBit_vlt (d : Dev) (a i : Nat) : (d.setBit a i).vlt = d.vlt := rfl
@[simp] theorem setBit_dma (d : Dev) (a i : Nat) : (d.setBit a i).dma = d.dma := rfl
@[simp] theorem setBit_hep (d : Dev) (a i : Nat) : (d.setBit a i).hep = d.hep := rfl
@[simp] theorem setBit_evr (d : Dev) (a i : Nat) : (d.setBit a i).evr = d.evr := rfl
@[simp] theorem setBit_enc (d : Dev) (a i : Nat) : (d.setBit a i).enc = d.enc := rfl
@[simp] theorem setBit_fio (d : Dev) (a i : Nat) : (d.setBit a i).fio = d.fio := rfl
@[simp] theorem setBit_stp (d : Dev) (a i : Nat) : (d.setBit a i).stp = d.stp := rfl
@[simp] theorem setBit_mgt (d : Dev) (a i : Nat) : (d.setBit a i).mgt = d.mgt := rfl

/-! ### clrBit -/

@[simp] theorem clrBit_time (d : Dev) (a i : Nat) : (d.clrBit a i).time = d.time := rfl
@[simp] theorem clrBit_frac (d : Dev) (a i : Nat) : (d.clrBit a i).frac = d.frac := rfl
@[simp] theorem clrBit_force (d : Dev) (a i : Nat) : (d.clrBit a i).force = d.force := rfl
@[simp] theorem clrBit_history (d : Dev) (a i : Nat) : (d.clrBit a i).history = d.history := rfl
@[simp] theorem clrBit_latch (d : Dev) (a i : Nat) : (d.clrBit a i).latch = d.latch := rfl
@[simp] theorem clrBit_marks (d : Dev) (a i : Nat) : (d.clrBit a i).marks = d.marks := rfl
@[simp] theorem clrBit_out (d : Dev) (a i : Nat) : (d.clrBit a i).out = d.out := rfl
@[simp] theorem clrBit_fresh (d : Dev) (a i : Nat) : (d.clrBit a i).fresh = d.fresh := rfl
@[simp] theorem clrBit_low (d : Dev) (a i : Nat) : (d.clrBit a i).low = d.low := rfl
@[simp] theorem clrBit_cyc (d : Dev) (a i : Nat) : (d.clrBit a i).cyc = d.cyc := rfl
@[simp] theorem clrBit_ntq (d : Dev) (a i : Nat) : (d.clrBit a i).ntq = d.ntq := rfl
@[simp] theorem clrBit_aud (d : Dev) (a i : Nat) : (d.clrBit a i).aud = d.aud := rfl
@[simp] theorem clrBit_cad (d : Dev) (a i : Nat) : (d.clrBit a i).cad = d.cad := rfl
@[simp] theorem clrBit_ports (d : Dev) (a i : Nat) : (d.clrBit a i).ports = d.ports := rfl
@[simp] theorem clrBit_cht (d : Dev) (a i : Nat) : (d.clrBit a i).cht = d.cht := rfl
@[simp] theorem clrBit_clr (d : Dev) (a i : Nat) : (d.clrBit a i).clr = d.clr := rfl
@[simp] theorem clrBit_vlt (d : Dev) (a i : Nat) : (d.clrBit a i).vlt = d.vlt := rfl
@[simp] theorem clrBit_dma (d : Dev) (a i : Nat) : (d.clrBit a i).dma = d.dma := rfl
@[simp] theorem clrBit_hep (d : Dev) (a i : Nat) : (d.clrBit a i).hep = d.hep := rfl
@[simp] theorem clrBit_evr (d : Dev) (a i : Nat) : (d.clrBit a i).evr = d.evr := rfl
@[simp] theorem clrBit_enc (d : Dev) (a i : Nat) : (d.clrBit a i).enc = d.enc := rfl
@[simp] theorem clrBit_fio (d : Dev) (a i : Nat) : (d.clrBit a i).fio = d.fio := rfl
@[simp] theorem clrBit_stp (d : Dev) (a i : Nat) : (d.clrBit a i).stp = d.stp := rfl
@[simp] theorem clrBit_mgt (d : Dev) (a i : Nat) : (d.clrBit a i).mgt = d.mgt := rfl

/-! ### put64 -/

@[simp] theorem put64_time (d : Dev) (a n : Nat) : (d.put64 a n).time = d.time := (setReg_time _ _ _).trans (setReg_time _ _ _)
@[simp] theorem put64_frac (d : Dev) (a n : Nat) : (d.put64 a n).frac = d.frac := (setReg_frac _ _ _).trans (setReg_frac _ _ _)
@[simp] theorem put64_force (d : Dev) (a n : Nat) : (d.put64 a n).force = d.force := (setReg_force _ _ _).trans (setReg_force _ _ _)
@[simp] theorem put64_history (d : Dev) (a n : Nat) : (d.put64 a n).history = d.history := (setReg_history _ _ _).trans (setReg_history _ _ _)
@[simp] theorem put64_latch (d : Dev) (a n : Nat) : (d.put64 a n).latch = d.latch := (setReg_latch _ _ _).trans (setReg_latch _ _ _)
@[simp] theorem put64_marks (d : Dev) (a n : Nat) : (d.put64 a n).marks = d.marks := (setReg_marks _ _ _).trans (setReg_marks _ _ _)
@[simp] theorem put64_out (d : Dev) (a n : Nat) : (d.put64 a n).out = d.out := (setReg_out _ _ _).trans (setReg_out _ _ _)
@[simp] theorem put64_fresh (d : Dev) (a n : Nat) : (d.put64 a n).fresh = d.fresh := (setReg_fresh _ _ _).trans (setReg_fresh _ _ _)
@[simp] theorem put64_low (d : Dev) (a n : Nat) : (d.put64 a n).low = d.low := (setReg_low _ _ _).trans (setReg_low _ _ _)
@[simp] theorem put64_cyc (d : Dev) (a n : Nat) : (d.put64 a n).cyc = d.cyc := (setReg_cyc _ _ _).trans (setReg_cyc _ _ _)
@[simp] theorem put64_ntq (d : Dev) (a n : Nat) : (d.put64 a n).ntq = d.ntq := (setReg_ntq _ _ _).trans (setReg_ntq _ _ _)
@[simp] theorem put64_aud (d : Dev) (a n : Nat) : (d.put64 a n).aud = d.aud := (setReg_aud _ _ _).trans (setReg_aud _ _ _)
@[simp] theorem put64_cad (d : Dev) (a n : Nat) : (d.put64 a n).cad = d.cad := (setReg_cad _ _ _).trans (setReg_cad _ _ _)
@[simp] theorem put64_ports (d : Dev) (a n : Nat) : (d.put64 a n).ports = d.ports := (setReg_ports _ _ _).trans (setReg_ports _ _ _)
@[simp] theorem put64_cht (d : Dev) (a n : Nat) : (d.put64 a n).cht = d.cht := (setReg_cht _ _ _).trans (setReg_cht _ _ _)
@[simp] theorem put64_clr (d : Dev) (a n : Nat) : (d.put64 a n).clr = d.clr := (setReg_clr _ _ _).trans (setReg_clr _ _ _)
@[simp] theorem put64_vlt (d : Dev) (a n : Nat) : (d.put64 a n).vlt = d.vlt := (setReg_vlt _ _ _).trans (setReg_vlt _ _ _)
@[simp] theorem put64_dma (d : Dev) (a n : Nat) : (d.put64 a n).dma = d.dma := (setReg_dma _ _ _).trans (setReg_dma _ _ _)
@[simp] theorem put64_hep (d : Dev) (a n : Nat) : (d.put64 a n).hep = d.hep := (setReg_hep _ _ _).trans (setReg_hep _ _ _)
@[simp] theorem put64_evr (d : Dev) (a n : Nat) : (d.put64 a n).evr = d.evr := (setReg_evr _ _ _).trans (setReg_evr _ _ _)
@[simp] theorem put64_enc (d : Dev) (a n : Nat) : (d.put64 a n).enc = d.enc := (setReg_enc _ _ _).trans (setReg_enc _ _ _)
@[simp] theorem put64_fio (d : Dev) (a n : Nat) : (d.put64 a n).fio = d.fio := (setReg_fio _ _ _).trans (setReg_fio _ _ _)
@[simp] theorem put64_stp (d : Dev) (a n : Nat) : (d.put64 a n).stp = d.stp := (setReg_stp _ _ _).trans (setReg_stp _ _ _)
@[simp] theorem put64_mgt (d : Dev) (a n : Nat) : (d.put64 a n).mgt = d.mgt := (setReg_mgt _ _ _).trans (setReg_mgt _ _ _)

/-! ### countBy -/

@[simp] theorem countBy_time (d : Dev) (a k : Nat) : (d.countBy a k).time = d.time := put64_time _ _ _
@[simp] theorem countBy_frac (d : Dev) (a k : Nat) : (d.countBy a k).frac = d.frac := put64_frac _ _ _
@[simp] theorem countBy_force (d : Dev) (a k : Nat) : (d.countBy a k).force = d.force := put64_force _ _ _
@[simp] theorem countBy_history (d : Dev) (a k : Nat) : (d.countBy a k).history = d.history := put64_history _ _ _
@[simp] theorem countBy_latch (d : Dev) (a k : Nat) : (d.countBy a k).latch = d.latch := put64_latch _ _ _
@[simp] theorem countBy_marks (d : Dev) (a k : Nat) : (d.countBy a k).marks = d.marks := put64_marks _ _ _
@[simp] theorem countBy_out (d : Dev) (a k : Nat) : (d.countBy a k).out = d.out := put64_out _ _ _
@[simp] theorem countBy_fresh (d : Dev) (a k : Nat) : (d.countBy a k).fresh = d.fresh := put64_fresh _ _ _
@[simp] theorem countBy_low (d : Dev) (a k : Nat) : (d.countBy a k).low = d.low := put64_low _ _ _
@[simp] theorem countBy_ntq (d : Dev) (a k : Nat) : (d.countBy a k).ntq = d.ntq := put64_ntq _ _ _
@[simp] theorem countBy_aud (d : Dev) (a k : Nat) : (d.countBy a k).aud = d.aud := put64_aud _ _ _
@[simp] theorem countBy_cad (d : Dev) (a k : Nat) : (d.countBy a k).cad = d.cad := put64_cad _ _ _
@[simp] theorem countBy_ports (d : Dev) (a k : Nat) : (d.countBy a k).ports = d.ports := put64_ports _ _ _
@[simp] theorem countBy_cht (d : Dev) (a k : Nat) : (d.countBy a k).cht = d.cht := put64_cht _ _ _
@[simp] theorem countBy_clr (d : Dev) (a k : Nat) : (d.countBy a k).clr = d.clr := put64_clr _ _ _
@[simp] theorem countBy_vlt (d : Dev) (a k : Nat) : (d.countBy a k).vlt = d.vlt := put64_vlt _ _ _
@[simp] theorem countBy_dma (d : Dev) (a k : Nat) : (d.countBy a k).dma = d.dma := put64_dma _ _ _
@[simp] theorem countBy_hep (d : Dev) (a k : Nat) : (d.countBy a k).hep = d.hep := put64_hep _ _ _
@[simp] theorem countBy_evr (d : Dev) (a k : Nat) : (d.countBy a k).evr = d.evr := put64_evr _ _ _
@[simp] theorem countBy_enc (d : Dev) (a k : Nat) : (d.countBy a k).enc = d.enc := put64_enc _ _ _
@[simp] theorem countBy_fio (d : Dev) (a k : Nat) : (d.countBy a k).fio = d.fio := put64_fio _ _ _
@[simp] theorem countBy_stp (d : Dev) (a k : Nat) : (d.countBy a k).stp = d.stp := put64_stp _ _ _
@[simp] theorem countBy_mgt (d : Dev) (a k : Nat) : (d.countBy a k).mgt = d.mgt := put64_mgt _ _ _

/-! ### count -/

@[simp] theorem count_time (d : Dev) (a : Nat) : (d.count a).time = d.time := countBy_time _ _ _
@[simp] theorem count_frac (d : Dev) (a : Nat) : (d.count a).frac = d.frac := countBy_frac _ _ _
@[simp] theorem count_force (d : Dev) (a : Nat) : (d.count a).force = d.force := countBy_force _ _ _
@[simp] theorem count_history (d : Dev) (a : Nat) : (d.count a).history = d.history := countBy_history _ _ _
@[simp] theorem count_latch (d : Dev) (a : Nat) : (d.count a).latch = d.latch := countBy_latch _ _ _
@[simp] theorem count_marks (d : Dev) (a : Nat) : (d.count a).marks = d.marks := countBy_marks _ _ _
@[simp] theorem count_out (d : Dev) (a : Nat) : (d.count a).out = d.out := countBy_out _ _ _
@[simp] theorem count_fresh (d : Dev) (a : Nat) : (d.count a).fresh = d.fresh := countBy_fresh _ _ _
@[simp] theorem count_low (d : Dev) (a : Nat) : (d.count a).low = d.low := countBy_low _ _ _
@[simp] theorem count_ntq (d : Dev) (a : Nat) : (d.count a).ntq = d.ntq := countBy_ntq _ _ _
@[simp] theorem count_aud (d : Dev) (a : Nat) : (d.count a).aud = d.aud := countBy_aud _ _ _
@[simp] theorem count_cad (d : Dev) (a : Nat) : (d.count a).cad = d.cad := countBy_cad _ _ _
@[simp] theorem count_ports (d : Dev) (a : Nat) : (d.count a).ports = d.ports := countBy_ports _ _ _
@[simp] theorem count_cht (d : Dev) (a : Nat) : (d.count a).cht = d.cht := countBy_cht _ _ _
@[simp] theorem count_clr (d : Dev) (a : Nat) : (d.count a).clr = d.clr := countBy_clr _ _ _
@[simp] theorem count_vlt (d : Dev) (a : Nat) : (d.count a).vlt = d.vlt := countBy_vlt _ _ _
@[simp] theorem count_dma (d : Dev) (a : Nat) : (d.count a).dma = d.dma := countBy_dma _ _ _
@[simp] theorem count_hep (d : Dev) (a : Nat) : (d.count a).hep = d.hep := countBy_hep _ _ _
@[simp] theorem count_evr (d : Dev) (a : Nat) : (d.count a).evr = d.evr := countBy_evr _ _ _
@[simp] theorem count_enc (d : Dev) (a : Nat) : (d.count a).enc = d.enc := countBy_enc _ _ _
@[simp] theorem count_fio (d : Dev) (a : Nat) : (d.count a).fio = d.fio := countBy_fio _ _ _
@[simp] theorem count_stp (d : Dev) (a : Nat) : (d.count a).stp = d.stp := countBy_stp _ _ _
@[simp] theorem count_mgt (d : Dev) (a : Nat) : (d.count a).mgt = d.mgt := countBy_mgt _ _ _

/-! ### stamp -/

@[simp] theorem stamp_time (d : Dev) (m : Mark) : (d.stamp m).time = d.time := rfl
@[simp] theorem stamp_frac (d : Dev) (m : Mark) : (d.stamp m).frac = d.frac := rfl
@[simp] theorem stamp_regs (d : Dev) (m : Mark) : (d.stamp m).regs = d.regs := rfl
@[simp] theorem stamp_force (d : Dev) (m : Mark) : (d.stamp m).force = d.force := rfl
@[simp] theorem stamp_history (d : Dev) (m : Mark) : (d.stamp m).history = d.history := rfl
@[simp] theorem stamp_latch (d : Dev) (m : Mark) : (d.stamp m).latch = d.latch := rfl
@[simp] theorem stamp_out (d : Dev) (m : Mark) : (d.stamp m).out = d.out := rfl
@[simp] theorem stamp_fresh (d : Dev) (m : Mark) : (d.stamp m).fresh = d.fresh := rfl
@[simp] theorem stamp_low (d : Dev) (m : Mark) : (d.stamp m).low = d.low := rfl
@[simp] theorem stamp_cyc (d : Dev) (m : Mark) : (d.stamp m).cyc = d.cyc := rfl
@[simp] theorem stamp_ntq (d : Dev) (m : Mark) : (d.stamp m).ntq = d.ntq := rfl
@[simp] theorem stamp_aud (d : Dev) (m : Mark) : (d.stamp m).aud = d.aud := rfl
@[simp] theorem stamp_cad (d : Dev) (m : Mark) : (d.stamp m).cad = d.cad := rfl
@[simp] theorem stamp_ports (d : Dev) (m : Mark) : (d.stamp m).ports = d.ports := rfl
@[simp] theorem stamp_cht (d : Dev) (m : Mark) : (d.stamp m).cht = d.cht := rfl
@[simp] theorem stamp_clr (d : Dev) (m : Mark) : (d.stamp m).clr = d.clr := rfl
@[simp] theorem stamp_vlt (d : Dev) (m : Mark) : (d.stamp m).vlt = d.vlt := rfl
@[simp] theorem stamp_dma (d : Dev) (m : Mark) : (d.stamp m).dma = d.dma := rfl
@[simp] theorem stamp_hep (d : Dev) (m : Mark) : (d.stamp m).hep = d.hep := rfl
@[simp] theorem stamp_evr (d : Dev) (m : Mark) : (d.stamp m).evr = d.evr := rfl
@[simp] theorem stamp_enc (d : Dev) (m : Mark) : (d.stamp m).enc = d.enc := rfl
@[simp] theorem stamp_fio (d : Dev) (m : Mark) : (d.stamp m).fio = d.fio := rfl
@[simp] theorem stamp_stp (d : Dev) (m : Mark) : (d.stamp m).stp = d.stp := rfl
@[simp] theorem stamp_mgt (d : Dev) (m : Mark) : (d.stamp m).mgt = d.mgt := rfl
@[simp] theorem stamp_reg (d : Dev) (m : Mark) (r : Nat) : (d.stamp m).reg r = d.reg r := rfl
@[simp] theorem stamp_get (d : Dev) (m : Mark) (r : Bits) : (d.stamp m).get r = d.get r := rfl
@[simp] theorem stamp_is (d : Dev) (m : Mark) (r : Bits) : (d.stamp m).is r = d.is r := rfl
@[simp] theorem stamp_get64 (d : Dev) (m : Mark) (r : Nat) : (d.stamp m).get64 r = d.get64 r := rfl
@[simp] theorem stamp_bitOf (d : Dev) (m : Mark) (r j : Nat) : (d.stamp m).bitOf r j = d.bitOf r j := rfl

/-! ### unmark -/

@[simp] theorem unmark_time (d : Dev) (m : Mark) : (d.unmark m).time = d.time := rfl
@[simp] theorem unmark_frac (d : Dev) (m : Mark) : (d.unmark m).frac = d.frac := rfl
@[simp] theorem unmark_regs (d : Dev) (m : Mark) : (d.unmark m).regs = d.regs := rfl
@[simp] theorem unmark_force (d : Dev) (m : Mark) : (d.unmark m).force = d.force := rfl
@[simp] theorem unmark_history (d : Dev) (m : Mark) : (d.unmark m).history = d.history := rfl
@[simp] theorem unmark_latch (d : Dev) (m : Mark) : (d.unmark m).latch = d.latch := rfl
@[simp] theorem unmark_out (d : Dev) (m : Mark) : (d.unmark m).out = d.out := rfl
@[simp] theorem unmark_fresh (d : Dev) (m : Mark) : (d.unmark m).fresh = d.fresh := rfl
@[simp] theorem unmark_low (d : Dev) (m : Mark) : (d.unmark m).low = d.low := rfl
@[simp] theorem unmark_cyc (d : Dev) (m : Mark) : (d.unmark m).cyc = d.cyc := rfl
@[simp] theorem unmark_ntq (d : Dev) (m : Mark) : (d.unmark m).ntq = d.ntq := rfl
@[simp] theorem unmark_aud (d : Dev) (m : Mark) : (d.unmark m).aud = d.aud := rfl
@[simp] theorem unmark_cad (d : Dev) (m : Mark) : (d.unmark m).cad = d.cad := rfl
@[simp] theorem unmark_ports (d : Dev) (m : Mark) : (d.unmark m).ports = d.ports := rfl
@[simp] theorem unmark_cht (d : Dev) (m : Mark) : (d.unmark m).cht = d.cht := rfl
@[simp] theorem unmark_clr (d : Dev) (m : Mark) : (d.unmark m).clr = d.clr := rfl
@[simp] theorem unmark_vlt (d : Dev) (m : Mark) : (d.unmark m).vlt = d.vlt := rfl
@[simp] theorem unmark_dma (d : Dev) (m : Mark) : (d.unmark m).dma = d.dma := rfl
@[simp] theorem unmark_hep (d : Dev) (m : Mark) : (d.unmark m).hep = d.hep := rfl
@[simp] theorem unmark_evr (d : Dev) (m : Mark) : (d.unmark m).evr = d.evr := rfl
@[simp] theorem unmark_enc (d : Dev) (m : Mark) : (d.unmark m).enc = d.enc := rfl
@[simp] theorem unmark_fio (d : Dev) (m : Mark) : (d.unmark m).fio = d.fio := rfl
@[simp] theorem unmark_stp (d : Dev) (m : Mark) : (d.unmark m).stp = d.stp := rfl
@[simp] theorem unmark_mgt (d : Dev) (m : Mark) : (d.unmark m).mgt = d.mgt := rfl
@[simp] theorem unmark_reg (d : Dev) (m : Mark) (r : Nat) : (d.unmark m).reg r = d.reg r := rfl
@[simp] theorem unmark_get (d : Dev) (m : Mark) (r : Bits) : (d.unmark m).get r = d.get r := rfl
@[simp] theorem unmark_is (d : Dev) (m : Mark) (r : Bits) : (d.unmark m).is r = d.is r := rfl
@[simp] theorem unmark_get64 (d : Dev) (m : Mark) (r : Nat) : (d.unmark m).get64 r = d.get64 r := rfl
@[simp] theorem unmark_bitOf (d : Dev) (m : Mark) (r j : Nat) : (d.unmark m).bitOf r j = d.bitOf r j := rfl

/-! ### emit -/

@[simp] theorem emit_time (d : Dev) (o : Out) : (d.emit o).time = d.time := rfl
@[simp] theorem emit_frac (d : Dev) (o : Out) : (d.emit o).frac = d.frac := rfl
@[simp] theorem emit_regs (d : Dev) (o : Out) : (d.emit o).regs = d.regs := rfl
@[simp] theorem emit_force (d : Dev) (o : Out) : (d.emit o).force = d.force := rfl
@[simp] theorem emit_history (d : Dev) (o : Out) : (d.emit o).history = d.history := rfl
@[simp] theorem emit_latch (d : Dev) (o : Out) : (d.emit o).latch = d.latch := rfl
@[simp] theorem emit_marks (d : Dev) (o : Out) : (d.emit o).marks = d.marks := rfl
@[simp] theorem emit_fresh (d : Dev) (o : Out) : (d.emit o).fresh = d.fresh := rfl
@[simp] theorem emit_low (d : Dev) (o : Out) : (d.emit o).low = d.low := rfl
@[simp] theorem emit_cyc (d : Dev) (o : Out) : (d.emit o).cyc = d.cyc := rfl
@[simp] theorem emit_ntq (d : Dev) (o : Out) : (d.emit o).ntq = d.ntq := rfl
@[simp] theorem emit_aud (d : Dev) (o : Out) : (d.emit o).aud = d.aud := rfl
@[simp] theorem emit_cad (d : Dev) (o : Out) : (d.emit o).cad = d.cad := rfl
@[simp] theorem emit_ports (d : Dev) (o : Out) : (d.emit o).ports = d.ports := rfl
@[simp] theorem emit_cht (d : Dev) (o : Out) : (d.emit o).cht = d.cht := rfl
@[simp] theorem emit_clr (d : Dev) (o : Out) : (d.emit o).clr = d.clr := rfl
@[simp] theorem emit_vlt (d : Dev) (o : Out) : (d.emit o).vlt = d.vlt := rfl
@[simp] theorem emit_dma (d : Dev) (o : Out) : (d.emit o).dma = d.dma := rfl
@[simp] theorem emit_hep (d : Dev) (o : Out) : (d.emit o).hep = d.hep := rfl
@[simp] theorem emit_evr (d : Dev) (o : Out) : (d.emit o).evr = d.evr := rfl
@[simp] theorem emit_enc (d : Dev) (o : Out) : (d.emit o).enc = d.enc := rfl
@[simp] theorem emit_fio (d : Dev) (o : Out) : (d.emit o).fio = d.fio := rfl
@[simp] theorem emit_stp (d : Dev) (o : Out) : (d.emit o).stp = d.stp := rfl
@[simp] theorem emit_mgt (d : Dev) (o : Out) : (d.emit o).mgt = d.mgt := rfl
@[simp] theorem emit_reg (d : Dev) (o : Out) (r : Nat) : (d.emit o).reg r = d.reg r := rfl
@[simp] theorem emit_get (d : Dev) (o : Out) (r : Bits) : (d.emit o).get r = d.get r := rfl
@[simp] theorem emit_is (d : Dev) (o : Out) (r : Bits) : (d.emit o).is r = d.is r := rfl
@[simp] theorem emit_get64 (d : Dev) (o : Out) (r : Nat) : (d.emit o).get64 r = d.get64 r := rfl
@[simp] theorem emit_bitOf (d : Dev) (o : Out) (r j : Nat) : (d.emit o).bitOf r j = d.bitOf r j := rfl
@[simp] theorem emit_out (d : Dev) (o : Out) : (d.emit o).out = d.out ++ [o] := rfl

/-! ### draw -/

@[simp] theorem draw_time (d : Dev) : (d.draw).time = d.time := rfl
@[simp] theorem draw_frac (d : Dev) : (d.draw).frac = d.frac := rfl
@[simp] theorem draw_regs (d : Dev) : (d.draw).regs = d.regs := rfl
@[simp] theorem draw_force (d : Dev) : (d.draw).force = d.force := rfl
@[simp] theorem draw_history (d : Dev) : (d.draw).history = d.history := rfl
@[simp] theorem draw_latch (d : Dev) : (d.draw).latch = d.latch := rfl
@[simp] theorem draw_marks (d : Dev) : (d.draw).marks = d.marks := rfl
@[simp] theorem draw_out (d : Dev) : (d.draw).out = d.out := rfl
@[simp] theorem draw_low (d : Dev) : (d.draw).low = d.low := rfl
@[simp] theorem draw_cyc (d : Dev) : (d.draw).cyc = d.cyc := rfl
@[simp] theorem draw_ntq (d : Dev) : (d.draw).ntq = d.ntq := rfl
@[simp] theorem draw_aud (d : Dev) : (d.draw).aud = d.aud := rfl
@[simp] theorem draw_cad (d : Dev) : (d.draw).cad = d.cad := rfl
@[simp] theorem draw_ports (d : Dev) : (d.draw).ports = d.ports := rfl
@[simp] theorem draw_cht (d : Dev) : (d.draw).cht = d.cht := rfl
@[simp] theorem draw_clr (d : Dev) : (d.draw).clr = d.clr := rfl
@[simp] theorem draw_vlt (d : Dev) : (d.draw).vlt = d.vlt := rfl
@[simp] theorem draw_dma (d : Dev) : (d.draw).dma = d.dma := rfl
@[simp] theorem draw_hep (d : Dev) : (d.draw).hep = d.hep := rfl
@[simp] theorem draw_evr (d : Dev) : (d.draw).evr = d.evr := rfl
@[simp] theorem draw_enc (d : Dev) : (d.draw).enc = d.enc := rfl
@[simp] theorem draw_fio (d : Dev) : (d.draw).fio = d.fio := rfl
@[simp] theorem draw_stp (d : Dev) : (d.draw).stp = d.stp := rfl
@[simp] theorem draw_mgt (d : Dev) : (d.draw).mgt = d.mgt := rfl
@[simp] theorem draw_reg (d : Dev) (r : Nat) : (d.draw).reg r = d.reg r := rfl
@[simp] theorem draw_get (d : Dev) (r : Bits) : (d.draw).get r = d.get r := rfl
@[simp] theorem draw_is (d : Dev) (r : Bits) : (d.draw).is r = d.is r := rfl
@[simp] theorem draw_get64 (d : Dev) (r : Nat) : (d.draw).get64 r = d.get64 r := rfl
@[simp] theorem draw_bitOf (d : Dev) (r j : Nat) : (d.draw).bitOf r j = d.bitOf r j := rfl
@[simp] theorem draw_fresh (d : Dev) : (d.draw).fresh = d.fresh + 1 := rfl

/-! ### notice -/

@[simp] theorem notice_time (d : Dev) (c : Cls) (b code arg : Nat) : (d.notice c b code arg).time = d.time := rfl
@[simp] theorem notice_frac (d : Dev) (c : Cls) (b code arg : Nat) : (d.notice c b code arg).frac = d.frac := rfl
@[simp] theorem notice_regs (d : Dev) (c : Cls) (b code arg : Nat) : (d.notice c b code arg).regs = d.regs := rfl
@[simp] theorem notice_force (d : Dev) (c : Cls) (b code arg : Nat) : (d.notice c b code arg).force = d.force := rfl
@[simp] theorem notice_history (d : Dev) (c : Cls) (b code arg : Nat) : (d.notice c b code arg).history = d.history := rfl
@[simp] theorem notice_latch (d : Dev) (c : Cls) (b code arg : Nat) : (d.notice c b code arg).latch = d.latch := rfl
@[simp] theorem notice_marks (d : Dev) (c : Cls) (b code arg : Nat) : (d.notice c b code arg).marks = d.marks := rfl
@[simp] theorem notice_out (d : Dev) (c : Cls) (b code arg : Nat) : (d.notice c b code arg).out = d.out := rfl
@[simp] theorem notice_fresh (d : Dev) (c : Cls) (b code arg : Nat) : (d.notice c b code arg).fresh = d.fresh := rfl
@[simp] theorem notice_low (d : Dev) (c : Cls) (b code arg : Nat) : (d.notice c b code arg).low = d.low := rfl
@[simp] theorem notice_cyc (d : Dev) (c : Cls) (b code arg : Nat) : (d.notice c b code arg).cyc = d.cyc := rfl
@[simp] theorem notice_aud (d : Dev) (c : Cls) (b code arg : Nat) : (d.notice c b code arg).aud = d.aud := rfl
@[simp] theorem notice_cad (d : Dev) (c : Cls) (b code arg : Nat) : (d.notice c b code arg).cad = d.cad := rfl
@[simp] theorem notice_ports (d : Dev) (c : Cls) (b code arg : Nat) : (d.notice c b code arg).ports = d.ports := rfl
@[simp] theorem notice_cht (d : Dev) (c : Cls) (b code arg : Nat) : (d.notice c b code arg).cht = d.cht := rfl
@[simp] theorem notice_clr (d : Dev) (c : Cls) (b code arg : Nat) : (d.notice c b code arg).clr = d.clr := rfl
@[simp] theorem notice_vlt (d : Dev) (c : Cls) (b code arg : Nat) : (d.notice c b code arg).vlt = d.vlt := rfl
@[simp] theorem notice_dma (d : Dev) (c : Cls) (b code arg : Nat) : (d.notice c b code arg).dma = d.dma := rfl
@[simp] theorem notice_hep (d : Dev) (c : Cls) (b code arg : Nat) : (d.notice c b code arg).hep = d.hep := rfl
@[simp] theorem notice_evr (d : Dev) (c : Cls) (b code arg : Nat) : (d.notice c b code arg).evr = d.evr := rfl
@[simp] theorem notice_enc (d : Dev) (c : Cls) (b code arg : Nat) : (d.notice c b code arg).enc = d.enc := rfl
@[simp] theorem notice_fio (d : Dev) (c : Cls) (b code arg : Nat) : (d.notice c b code arg).fio = d.fio := rfl
@[simp] theorem notice_stp (d : Dev) (c : Cls) (b code arg : Nat) : (d.notice c b code arg).stp = d.stp := rfl
@[simp] theorem notice_mgt (d : Dev) (c : Cls) (b code arg : Nat) : (d.notice c b code arg).mgt = d.mgt := rfl
@[simp] theorem notice_reg (d : Dev) (c : Cls) (b code arg : Nat) (r : Nat) : (d.notice c b code arg).reg r = d.reg r := rfl
@[simp] theorem notice_get (d : Dev) (c : Cls) (b code arg : Nat) (r : Bits) : (d.notice c b code arg).get r = d.get r := rfl
@[simp] theorem notice_is (d : Dev) (c : Cls) (b code arg : Nat) (r : Bits) : (d.notice c b code arg).is r = d.is r := rfl
@[simp] theorem notice_get64 (d : Dev) (c : Cls) (b code arg : Nat) (r : Nat) : (d.notice c b code arg).get64 r = d.get64 r := rfl
@[simp] theorem notice_bitOf (d : Dev) (c : Cls) (b code arg : Nat) (r j : Nat) : (d.notice c b code arg).bitOf r j = d.bitOf r j := rfl
@[simp] theorem notice_input (d : Dev) (c : Cls) (b code arg : Nat) :
    (d.notice c b code arg).ntq.input = d.ntq.input ++ [⟨c, b, code, word arg, d.time⟩] := rfl
@[simp] theorem notice_rings (d : Dev) (c : Cls) (b code arg : Nat) : (d.notice c b code arg).ntq.rings = d.ntq.rings := rfl

/-! ### setClassRing -/

@[simp] theorem setClassRing_time (d : Dev) (q c : Nat) (l : List Notice) : (d.setClassRing q c l).time = d.time := rfl
@[simp] theorem setClassRing_frac (d : Dev) (q c : Nat) (l : List Notice) : (d.setClassRing q c l).frac = d.frac := rfl
@[simp] theorem setClassRing_regs (d : Dev) (q c : Nat) (l : List Notice) : (d.setClassRing q c l).regs = d.regs := rfl
@[simp] theorem setClassRing_force (d : Dev) (q c : Nat) (l : List Notice) : (d.setClassRing q c l).force = d.force := rfl
@[simp] theorem setClassRing_history (d : Dev) (q c : Nat) (l : List Notice) : (d.setClassRing q c l).history = d.history := rfl
@[simp] theorem setClassRing_latch (d : Dev) (q c : Nat) (l : List Notice) : (d.setClassRing q c l).latch = d.latch := rfl
@[simp] theorem setClassRing_marks (d : Dev) (q c : Nat) (l : List Notice) : (d.setClassRing q c l).marks = d.marks := rfl
@[simp] theorem setClassRing_out (d : Dev) (q c : Nat) (l : List Notice) : (d.setClassRing q c l).out = d.out := rfl
@[simp] theorem setClassRing_fresh (d : Dev) (q c : Nat) (l : List Notice) : (d.setClassRing q c l).fresh = d.fresh := rfl
@[simp] theorem setClassRing_low (d : Dev) (q c : Nat) (l : List Notice) : (d.setClassRing q c l).low = d.low := rfl
@[simp] theorem setClassRing_cyc (d : Dev) (q c : Nat) (l : List Notice) : (d.setClassRing q c l).cyc = d.cyc := rfl
@[simp] theorem setClassRing_aud (d : Dev) (q c : Nat) (l : List Notice) : (d.setClassRing q c l).aud = d.aud := rfl
@[simp] theorem setClassRing_cad (d : Dev) (q c : Nat) (l : List Notice) : (d.setClassRing q c l).cad = d.cad := rfl
@[simp] theorem setClassRing_ports (d : Dev) (q c : Nat) (l : List Notice) : (d.setClassRing q c l).ports = d.ports := rfl
@[simp] theorem setClassRing_cht (d : Dev) (q c : Nat) (l : List Notice) : (d.setClassRing q c l).cht = d.cht := rfl
@[simp] theorem setClassRing_clr (d : Dev) (q c : Nat) (l : List Notice) : (d.setClassRing q c l).clr = d.clr := rfl
@[simp] theorem setClassRing_vlt (d : Dev) (q c : Nat) (l : List Notice) : (d.setClassRing q c l).vlt = d.vlt := rfl
@[simp] theorem setClassRing_dma (d : Dev) (q c : Nat) (l : List Notice) : (d.setClassRing q c l).dma = d.dma := rfl
@[simp] theorem setClassRing_hep (d : Dev) (q c : Nat) (l : List Notice) : (d.setClassRing q c l).hep = d.hep := rfl
@[simp] theorem setClassRing_evr (d : Dev) (q c : Nat) (l : List Notice) : (d.setClassRing q c l).evr = d.evr := rfl
@[simp] theorem setClassRing_enc (d : Dev) (q c : Nat) (l : List Notice) : (d.setClassRing q c l).enc = d.enc := rfl
@[simp] theorem setClassRing_fio (d : Dev) (q c : Nat) (l : List Notice) : (d.setClassRing q c l).fio = d.fio := rfl
@[simp] theorem setClassRing_stp (d : Dev) (q c : Nat) (l : List Notice) : (d.setClassRing q c l).stp = d.stp := rfl
@[simp] theorem setClassRing_mgt (d : Dev) (q c : Nat) (l : List Notice) : (d.setClassRing q c l).mgt = d.mgt := rfl
@[simp] theorem setClassRing_reg (d : Dev) (q c : Nat) (l : List Notice) (r : Nat) : (d.setClassRing q c l).reg r = d.reg r := rfl
@[simp] theorem setClassRing_get (d : Dev) (q c : Nat) (l : List Notice) (r : Bits) : (d.setClassRing q c l).get r = d.get r := rfl
@[simp] theorem setClassRing_is (d : Dev) (q c : Nat) (l : List Notice) (r : Bits) : (d.setClassRing q c l).is r = d.is r := rfl
@[simp] theorem setClassRing_get64 (d : Dev) (q c : Nat) (l : List Notice) (r : Nat) : (d.setClassRing q c l).get64 r = d.get64 r := rfl
@[simp] theorem setClassRing_bitOf (d : Dev) (q c : Nat) (l : List Notice) (r j : Nat) : (d.setClassRing q c l).bitOf r j = d.bitOf r j := rfl
@[simp] theorem setClassRing_input (d : Dev) (q c : Nat) (l : List Notice) : (d.setClassRing q c l).ntq.input = d.ntq.input := rfl

/-! ### fireHop -/

@[simp] theorem fireHop_time (d : Dev) (src hop : Nat) : (d.fireHop src hop).time = d.time := rfl
@[simp] theorem fireHop_frac (d : Dev) (src hop : Nat) : (d.fireHop src hop).frac = d.frac := rfl
@[simp] theorem fireHop_regs (d : Dev) (src hop : Nat) : (d.fireHop src hop).regs = d.regs := rfl
@[simp] theorem fireHop_force (d : Dev) (src hop : Nat) : (d.fireHop src hop).force = d.force := rfl
@[simp] theorem fireHop_history (d : Dev) (src hop : Nat) : (d.fireHop src hop).history = d.history := rfl
@[simp] theorem fireHop_latch (d : Dev) (src hop : Nat) : (d.fireHop src hop).latch = d.latch := rfl
@[simp] theorem fireHop_marks (d : Dev) (src hop : Nat) : (d.fireHop src hop).marks = d.marks := rfl
@[simp] theorem fireHop_out (d : Dev) (src hop : Nat) : (d.fireHop src hop).out = d.out := rfl
@[simp] theorem fireHop_fresh (d : Dev) (src hop : Nat) : (d.fireHop src hop).fresh = d.fresh := rfl
@[simp] theorem fireHop_low (d : Dev) (src hop : Nat) : (d.fireHop src hop).low = d.low := rfl
@[simp] theorem fireHop_cyc (d : Dev) (src hop : Nat) : (d.fireHop src hop).cyc = d.cyc := rfl
@[simp] theorem fireHop_ntq (d : Dev) (src hop : Nat) : (d.fireHop src hop).ntq = d.ntq := rfl
@[simp] theorem fireHop_aud (d : Dev) (src hop : Nat) : (d.fireHop src hop).aud = d.aud := rfl
@[simp] theorem fireHop_cad (d : Dev) (src hop : Nat) : (d.fireHop src hop).cad = d.cad := rfl
@[simp] theorem fireHop_ports (d : Dev) (src hop : Nat) : (d.fireHop src hop).ports = d.ports := rfl
@[simp] theorem fireHop_cht (d : Dev) (src hop : Nat) : (d.fireHop src hop).cht = d.cht := rfl
@[simp] theorem fireHop_clr (d : Dev) (src hop : Nat) : (d.fireHop src hop).clr = d.clr := rfl
@[simp] theorem fireHop_vlt (d : Dev) (src hop : Nat) : (d.fireHop src hop).vlt = d.vlt := rfl
@[simp] theorem fireHop_dma (d : Dev) (src hop : Nat) : (d.fireHop src hop).dma = d.dma := rfl
@[simp] theorem fireHop_hep (d : Dev) (src hop : Nat) : (d.fireHop src hop).hep = d.hep := rfl
@[simp] theorem fireHop_enc (d : Dev) (src hop : Nat) : (d.fireHop src hop).enc = d.enc := rfl
@[simp] theorem fireHop_fio (d : Dev) (src hop : Nat) : (d.fireHop src hop).fio = d.fio := rfl
@[simp] theorem fireHop_stp (d : Dev) (src hop : Nat) : (d.fireHop src hop).stp = d.stp := rfl
@[simp] theorem fireHop_mgt (d : Dev) (src hop : Nat) : (d.fireHop src hop).mgt = d.mgt := rfl
@[simp] theorem fireHop_reg (d : Dev) (src hop : Nat) (r : Nat) : (d.fireHop src hop).reg r = d.reg r := rfl
@[simp] theorem fireHop_get (d : Dev) (src hop : Nat) (r : Bits) : (d.fireHop src hop).get r = d.get r := rfl
@[simp] theorem fireHop_is (d : Dev) (src hop : Nat) (r : Bits) : (d.fireHop src hop).is r = d.is r := rfl
@[simp] theorem fireHop_get64 (d : Dev) (src hop : Nat) (r : Nat) : (d.fireHop src hop).get64 r = d.get64 r := rfl
@[simp] theorem fireHop_bitOf (d : Dev) (src hop : Nat) (r j : Nat) : (d.fireHop src hop).bitOf r j = d.bitOf r j := rfl
@[simp] theorem fireHop_input (d : Dev) (src hop : Nat) : (d.fireHop src hop).evr.input = d.evr.input ++ [d.sourceEvent src hop] := rfl
@[simp] theorem fireHop_hop (d : Dev) (src hop : Nat) : (d.fireHop src hop).evr.hop = d.evr.hop := rfl

/-! ### fire -/

@[simp] theorem fire_time (d : Dev) (src : Nat) : (d.fire src).time = d.time := rfl
@[simp] theorem fire_frac (d : Dev) (src : Nat) : (d.fire src).frac = d.frac := rfl
@[simp] theorem fire_regs (d : Dev) (src : Nat) : (d.fire src).regs = d.regs := rfl
@[simp] theorem fire_force (d : Dev) (src : Nat) : (d.fire src).force = d.force := rfl
@[simp] theorem fire_history (d : Dev) (src : Nat) : (d.fire src).history = d.history := rfl
@[simp] theorem fire_latch (d : Dev) (src : Nat) : (d.fire src).latch = d.latch := rfl
@[simp] theorem fire_marks (d : Dev) (src : Nat) : (d.fire src).marks = d.marks := rfl
@[simp] theorem fire_out (d : Dev) (src : Nat) : (d.fire src).out = d.out := rfl
@[simp] theorem fire_fresh (d : Dev) (src : Nat) : (d.fire src).fresh = d.fresh := rfl
@[simp] theorem fire_low (d : Dev) (src : Nat) : (d.fire src).low = d.low := rfl
@[simp] theorem fire_cyc (d : Dev) (src : Nat) : (d.fire src).cyc = d.cyc := rfl
@[simp] theorem fire_ntq (d : Dev) (src : Nat) : (d.fire src).ntq = d.ntq := rfl
@[simp] theorem fire_aud (d : Dev) (src : Nat) : (d.fire src).aud = d.aud := rfl
@[simp] theorem fire_cad (d : Dev) (src : Nat) : (d.fire src).cad = d.cad := rfl
@[simp] theorem fire_ports (d : Dev) (src : Nat) : (d.fire src).ports = d.ports := rfl
@[simp] theorem fire_cht (d : Dev) (src : Nat) : (d.fire src).cht = d.cht := rfl
@[simp] theorem fire_clr (d : Dev) (src : Nat) : (d.fire src).clr = d.clr := rfl
@[simp] theorem fire_vlt (d : Dev) (src : Nat) : (d.fire src).vlt = d.vlt := rfl
@[simp] theorem fire_dma (d : Dev) (src : Nat) : (d.fire src).dma = d.dma := rfl
@[simp] theorem fire_hep (d : Dev) (src : Nat) : (d.fire src).hep = d.hep := rfl
@[simp] theorem fire_enc (d : Dev) (src : Nat) : (d.fire src).enc = d.enc := rfl
@[simp] theorem fire_fio (d : Dev) (src : Nat) : (d.fire src).fio = d.fio := rfl
@[simp] theorem fire_stp (d : Dev) (src : Nat) : (d.fire src).stp = d.stp := rfl
@[simp] theorem fire_mgt (d : Dev) (src : Nat) : (d.fire src).mgt = d.mgt := rfl
@[simp] theorem fire_reg (d : Dev) (src : Nat) (r : Nat) : (d.fire src).reg r = d.reg r := rfl
@[simp] theorem fire_get (d : Dev) (src : Nat) (r : Bits) : (d.fire src).get r = d.get r := rfl
@[simp] theorem fire_is (d : Dev) (src : Nat) (r : Bits) : (d.fire src).is r = d.is r := rfl
@[simp] theorem fire_get64 (d : Dev) (src : Nat) (r : Nat) : (d.fire src).get64 r = d.get64 r := rfl
@[simp] theorem fire_bitOf (d : Dev) (src : Nat) (r j : Nat) : (d.fire src).bitOf r j = d.bitOf r j := rfl
@[simp] theorem fire_input (d : Dev) (src : Nat) : (d.fire src).evr.input = d.evr.input ++ [d.sourceEvent src d.evr.hop] := rfl
@[simp] theorem fire_hop (d : Dev) (src : Nat) : (d.fire src).evr.hop = d.evr.hop := rfl

/-! ### setEvr -/

@[simp] theorem setEvr_time (d : Dev) (f : EvrState → EvrState) : (d.setEvr f).time = d.time := rfl
@[simp] theorem setEvr_frac (d : Dev) (f : EvrState → EvrState) : (d.setEvr f).frac = d.frac := rfl
@[simp] theorem setEvr_regs (d : Dev) (f : EvrState → EvrState) : (d.setEvr f).regs = d.regs := rfl
@[simp] theorem setEvr_force (d : Dev) (f : EvrState → EvrState) : (d.setEvr f).force = d.force := rfl
@[simp] theorem setEvr_history (d : Dev) (f : EvrState → EvrState) : (d.setEvr f).history = d.history := rfl
@[simp] theorem setEvr_latch (d : Dev) (f : EvrState → EvrState) : (d.setEvr f).latch = d.latch := rfl
@[simp] theorem setEvr_marks (d : Dev) (f : EvrState → EvrState) : (d.setEvr f).marks = d.marks := rfl
@[simp] theorem setEvr_out (d : Dev) (f : EvrState → EvrState) : (d.setEvr f).out = d.out := rfl
@[simp] theorem setEvr_fresh (d : Dev) (f : EvrState → EvrState) : (d.setEvr f).fresh = d.fresh := rfl
@[simp] theorem setEvr_low (d : Dev) (f : EvrState → EvrState) : (d.setEvr f).low = d.low := rfl
@[simp] theorem setEvr_cyc (d : Dev) (f : EvrState → EvrState) : (d.setEvr f).cyc = d.cyc := rfl
@[simp] theorem setEvr_ntq (d : Dev) (f : EvrState → EvrState) : (d.setEvr f).ntq = d.ntq := rfl
@[simp] theorem setEvr_aud (d : Dev) (f : EvrState → EvrState) : (d.setEvr f).aud = d.aud := rfl
@[simp] theorem setEvr_cad (d : Dev) (f : EvrState → EvrState) : (d.setEvr f).cad = d.cad := rfl
@[simp] theorem setEvr_ports (d : Dev) (f : EvrState → EvrState) : (d.setEvr f).ports = d.ports := rfl
@[simp] theorem setEvr_cht (d : Dev) (f : EvrState → EvrState) : (d.setEvr f).cht = d.cht := rfl
@[simp] theorem setEvr_clr (d : Dev) (f : EvrState → EvrState) : (d.setEvr f).clr = d.clr := rfl
@[simp] theorem setEvr_vlt (d : Dev) (f : EvrState → EvrState) : (d.setEvr f).vlt = d.vlt := rfl
@[simp] theorem setEvr_dma (d : Dev) (f : EvrState → EvrState) : (d.setEvr f).dma = d.dma := rfl
@[simp] theorem setEvr_hep (d : Dev) (f : EvrState → EvrState) : (d.setEvr f).hep = d.hep := rfl
@[simp] theorem setEvr_enc (d : Dev) (f : EvrState → EvrState) : (d.setEvr f).enc = d.enc := rfl
@[simp] theorem setEvr_fio (d : Dev) (f : EvrState → EvrState) : (d.setEvr f).fio = d.fio := rfl
@[simp] theorem setEvr_stp (d : Dev) (f : EvrState → EvrState) : (d.setEvr f).stp = d.stp := rfl
@[simp] theorem setEvr_mgt (d : Dev) (f : EvrState → EvrState) : (d.setEvr f).mgt = d.mgt := rfl
@[simp] theorem setEvr_reg (d : Dev) (f : EvrState → EvrState) (r : Nat) : (d.setEvr f).reg r = d.reg r := rfl
@[simp] theorem setEvr_get (d : Dev) (f : EvrState → EvrState) (r : Bits) : (d.setEvr f).get r = d.get r := rfl
@[simp] theorem setEvr_is (d : Dev) (f : EvrState → EvrState) (r : Bits) : (d.setEvr f).is r = d.is r := rfl
@[simp] theorem setEvr_get64 (d : Dev) (f : EvrState → EvrState) (r : Nat) : (d.setEvr f).get64 r = d.get64 r := rfl
@[simp] theorem setEvr_bitOf (d : Dev) (f : EvrState → EvrState) (r j : Nat) : (d.setEvr f).bitOf r j = d.bitOf r j := rfl
@[simp] theorem setEvr_evr (d : Dev) (f : EvrState → EvrState) : (d.setEvr f).evr = f d.evr := rfl

/-! ### setNtq -/

@[simp] theorem setNtq_time (d : Dev) (f : NtqState → NtqState) : (d.setNtq f).time = d.time := rfl
@[simp] theorem setNtq_frac (d : Dev) (f : NtqState → NtqState) : (d.setNtq f).frac = d.frac := rfl
@[simp] theorem setNtq_regs (d : Dev) (f : NtqState → NtqState) : (d.setNtq f).regs = d.regs := rfl
@[simp] theorem setNtq_force (d : Dev) (f : NtqState → NtqState) : (d.setNtq f).force = d.force := rfl
@[simp] theorem setNtq_history (d : Dev) (f : NtqState → NtqState) : (d.setNtq f).history = d.history := rfl
@[simp] theorem setNtq_latch (d : Dev) (f : NtqState → NtqState) : (d.setNtq f).latch = d.latch := rfl
@[simp] theorem setNtq_marks (d : Dev) (f : NtqState → NtqState) : (d.setNtq f).marks = d.marks := rfl
@[simp] theorem setNtq_out (d : Dev) (f : NtqState → NtqState) : (d.setNtq f).out = d.out := rfl
@[simp] theorem setNtq_fresh (d : Dev) (f : NtqState → NtqState) : (d.setNtq f).fresh = d.fresh := rfl
@[simp] theorem setNtq_low (d : Dev) (f : NtqState → NtqState) : (d.setNtq f).low = d.low := rfl
@[simp] theorem setNtq_cyc (d : Dev) (f : NtqState → NtqState) : (d.setNtq f).cyc = d.cyc := rfl
@[simp] theorem setNtq_aud (d : Dev) (f : NtqState → NtqState) : (d.setNtq f).aud = d.aud := rfl
@[simp] theorem setNtq_cad (d : Dev) (f : NtqState → NtqState) : (d.setNtq f).cad = d.cad := rfl
@[simp] theorem setNtq_ports (d : Dev) (f : NtqState → NtqState) : (d.setNtq f).ports = d.ports := rfl
@[simp] theorem setNtq_cht (d : Dev) (f : NtqState → NtqState) : (d.setNtq f).cht = d.cht := rfl
@[simp] theorem setNtq_clr (d : Dev) (f : NtqState → NtqState) : (d.setNtq f).clr = d.clr := rfl
@[simp] theorem setNtq_vlt (d : Dev) (f : NtqState → NtqState) : (d.setNtq f).vlt = d.vlt := rfl
@[simp] theorem setNtq_dma (d : Dev) (f : NtqState → NtqState) : (d.setNtq f).dma = d.dma := rfl
@[simp] theorem setNtq_hep (d : Dev) (f : NtqState → NtqState) : (d.setNtq f).hep = d.hep := rfl
@[simp] theorem setNtq_evr (d : Dev) (f : NtqState → NtqState) : (d.setNtq f).evr = d.evr := rfl
@[simp] theorem setNtq_enc (d : Dev) (f : NtqState → NtqState) : (d.setNtq f).enc = d.enc := rfl
@[simp] theorem setNtq_fio (d : Dev) (f : NtqState → NtqState) : (d.setNtq f).fio = d.fio := rfl
@[simp] theorem setNtq_stp (d : Dev) (f : NtqState → NtqState) : (d.setNtq f).stp = d.stp := rfl
@[simp] theorem setNtq_mgt (d : Dev) (f : NtqState → NtqState) : (d.setNtq f).mgt = d.mgt := rfl
@[simp] theorem setNtq_reg (d : Dev) (f : NtqState → NtqState) (r : Nat) : (d.setNtq f).reg r = d.reg r := rfl
@[simp] theorem setNtq_get (d : Dev) (f : NtqState → NtqState) (r : Bits) : (d.setNtq f).get r = d.get r := rfl
@[simp] theorem setNtq_is (d : Dev) (f : NtqState → NtqState) (r : Bits) : (d.setNtq f).is r = d.is r := rfl
@[simp] theorem setNtq_get64 (d : Dev) (f : NtqState → NtqState) (r : Nat) : (d.setNtq f).get64 r = d.get64 r := rfl
@[simp] theorem setNtq_bitOf (d : Dev) (f : NtqState → NtqState) (r j : Nat) : (d.setNtq f).bitOf r j = d.bitOf r j := rfl
@[simp] theorem setNtq_ntq (d : Dev) (f : NtqState → NtqState) : (d.setNtq f).ntq = f d.ntq := rfl

/-! ### setAud -/

@[simp] theorem setAud_time (d : Dev) (f : AudState → AudState) : (d.setAud f).time = d.time := rfl
@[simp] theorem setAud_frac (d : Dev) (f : AudState → AudState) : (d.setAud f).frac = d.frac := rfl
@[simp] theorem setAud_regs (d : Dev) (f : AudState → AudState) : (d.setAud f).regs = d.regs := rfl
@[simp] theorem setAud_force (d : Dev) (f : AudState → AudState) : (d.setAud f).force = d.force := rfl
@[simp] theorem setAud_history (d : Dev) (f : AudState → AudState) : (d.setAud f).history = d.history := rfl
@[simp] theorem setAud_latch (d : Dev) (f : AudState → AudState) : (d.setAud f).latch = d.latch := rfl
@[simp] theorem setAud_marks (d : Dev) (f : AudState → AudState) : (d.setAud f).marks = d.marks := rfl
@[simp] theorem setAud_out (d : Dev) (f : AudState → AudState) : (d.setAud f).out = d.out := rfl
@[simp] theorem setAud_fresh (d : Dev) (f : AudState → AudState) : (d.setAud f).fresh = d.fresh := rfl
@[simp] theorem setAud_low (d : Dev) (f : AudState → AudState) : (d.setAud f).low = d.low := rfl
@[simp] theorem setAud_cyc (d : Dev) (f : AudState → AudState) : (d.setAud f).cyc = d.cyc := rfl
@[simp] theorem setAud_ntq (d : Dev) (f : AudState → AudState) : (d.setAud f).ntq = d.ntq := rfl
@[simp] theorem setAud_cad (d : Dev) (f : AudState → AudState) : (d.setAud f).cad = d.cad := rfl
@[simp] theorem setAud_ports (d : Dev) (f : AudState → AudState) : (d.setAud f).ports = d.ports := rfl
@[simp] theorem setAud_cht (d : Dev) (f : AudState → AudState) : (d.setAud f).cht = d.cht := rfl
@[simp] theorem setAud_clr (d : Dev) (f : AudState → AudState) : (d.setAud f).clr = d.clr := rfl
@[simp] theorem setAud_vlt (d : Dev) (f : AudState → AudState) : (d.setAud f).vlt = d.vlt := rfl
@[simp] theorem setAud_dma (d : Dev) (f : AudState → AudState) : (d.setAud f).dma = d.dma := rfl
@[simp] theorem setAud_hep (d : Dev) (f : AudState → AudState) : (d.setAud f).hep = d.hep := rfl
@[simp] theorem setAud_evr (d : Dev) (f : AudState → AudState) : (d.setAud f).evr = d.evr := rfl
@[simp] theorem setAud_enc (d : Dev) (f : AudState → AudState) : (d.setAud f).enc = d.enc := rfl
@[simp] theorem setAud_fio (d : Dev) (f : AudState → AudState) : (d.setAud f).fio = d.fio := rfl
@[simp] theorem setAud_stp (d : Dev) (f : AudState → AudState) : (d.setAud f).stp = d.stp := rfl
@[simp] theorem setAud_mgt (d : Dev) (f : AudState → AudState) : (d.setAud f).mgt = d.mgt := rfl
@[simp] theorem setAud_reg (d : Dev) (f : AudState → AudState) (r : Nat) : (d.setAud f).reg r = d.reg r := rfl
@[simp] theorem setAud_get (d : Dev) (f : AudState → AudState) (r : Bits) : (d.setAud f).get r = d.get r := rfl
@[simp] theorem setAud_is (d : Dev) (f : AudState → AudState) (r : Bits) : (d.setAud f).is r = d.is r := rfl
@[simp] theorem setAud_get64 (d : Dev) (f : AudState → AudState) (r : Nat) : (d.setAud f).get64 r = d.get64 r := rfl
@[simp] theorem setAud_bitOf (d : Dev) (f : AudState → AudState) (r j : Nat) : (d.setAud f).bitOf r j = d.bitOf r j := rfl
@[simp] theorem setAud_aud (d : Dev) (f : AudState → AudState) : (d.setAud f).aud = f d.aud := rfl

/-! ### setClr -/

@[simp] theorem setClr_time (d : Dev) (f : ClrState → ClrState) : (d.setClr f).time = d.time := rfl
@[simp] theorem setClr_frac (d : Dev) (f : ClrState → ClrState) : (d.setClr f).frac = d.frac := rfl
@[simp] theorem setClr_regs (d : Dev) (f : ClrState → ClrState) : (d.setClr f).regs = d.regs := rfl
@[simp] theorem setClr_force (d : Dev) (f : ClrState → ClrState) : (d.setClr f).force = d.force := rfl
@[simp] theorem setClr_history (d : Dev) (f : ClrState → ClrState) : (d.setClr f).history = d.history := rfl
@[simp] theorem setClr_latch (d : Dev) (f : ClrState → ClrState) : (d.setClr f).latch = d.latch := rfl
@[simp] theorem setClr_marks (d : Dev) (f : ClrState → ClrState) : (d.setClr f).marks = d.marks := rfl
@[simp] theorem setClr_out (d : Dev) (f : ClrState → ClrState) : (d.setClr f).out = d.out := rfl
@[simp] theorem setClr_fresh (d : Dev) (f : ClrState → ClrState) : (d.setClr f).fresh = d.fresh := rfl
@[simp] theorem setClr_low (d : Dev) (f : ClrState → ClrState) : (d.setClr f).low = d.low := rfl
@[simp] theorem setClr_cyc (d : Dev) (f : ClrState → ClrState) : (d.setClr f).cyc = d.cyc := rfl
@[simp] theorem setClr_ntq (d : Dev) (f : ClrState → ClrState) : (d.setClr f).ntq = d.ntq := rfl
@[simp] theorem setClr_aud (d : Dev) (f : ClrState → ClrState) : (d.setClr f).aud = d.aud := rfl
@[simp] theorem setClr_cad (d : Dev) (f : ClrState → ClrState) : (d.setClr f).cad = d.cad := rfl
@[simp] theorem setClr_ports (d : Dev) (f : ClrState → ClrState) : (d.setClr f).ports = d.ports := rfl
@[simp] theorem setClr_cht (d : Dev) (f : ClrState → ClrState) : (d.setClr f).cht = d.cht := rfl
@[simp] theorem setClr_vlt (d : Dev) (f : ClrState → ClrState) : (d.setClr f).vlt = d.vlt := rfl
@[simp] theorem setClr_dma (d : Dev) (f : ClrState → ClrState) : (d.setClr f).dma = d.dma := rfl
@[simp] theorem setClr_hep (d : Dev) (f : ClrState → ClrState) : (d.setClr f).hep = d.hep := rfl
@[simp] theorem setClr_evr (d : Dev) (f : ClrState → ClrState) : (d.setClr f).evr = d.evr := rfl
@[simp] theorem setClr_enc (d : Dev) (f : ClrState → ClrState) : (d.setClr f).enc = d.enc := rfl
@[simp] theorem setClr_fio (d : Dev) (f : ClrState → ClrState) : (d.setClr f).fio = d.fio := rfl
@[simp] theorem setClr_stp (d : Dev) (f : ClrState → ClrState) : (d.setClr f).stp = d.stp := rfl
@[simp] theorem setClr_mgt (d : Dev) (f : ClrState → ClrState) : (d.setClr f).mgt = d.mgt := rfl
@[simp] theorem setClr_reg (d : Dev) (f : ClrState → ClrState) (r : Nat) : (d.setClr f).reg r = d.reg r := rfl
@[simp] theorem setClr_get (d : Dev) (f : ClrState → ClrState) (r : Bits) : (d.setClr f).get r = d.get r := rfl
@[simp] theorem setClr_is (d : Dev) (f : ClrState → ClrState) (r : Bits) : (d.setClr f).is r = d.is r := rfl
@[simp] theorem setClr_get64 (d : Dev) (f : ClrState → ClrState) (r : Nat) : (d.setClr f).get64 r = d.get64 r := rfl
@[simp] theorem setClr_bitOf (d : Dev) (f : ClrState → ClrState) (r j : Nat) : (d.setClr f).bitOf r j = d.bitOf r j := rfl
@[simp] theorem setClr_clr (d : Dev) (f : ClrState → ClrState) : (d.setClr f).clr = f d.clr := rfl

/-! ### setVlt -/

@[simp] theorem setVlt_time (d : Dev) (f : VltState → VltState) : (d.setVlt f).time = d.time := rfl
@[simp] theorem setVlt_frac (d : Dev) (f : VltState → VltState) : (d.setVlt f).frac = d.frac := rfl
@[simp] theorem setVlt_regs (d : Dev) (f : VltState → VltState) : (d.setVlt f).regs = d.regs := rfl
@[simp] theorem setVlt_force (d : Dev) (f : VltState → VltState) : (d.setVlt f).force = d.force := rfl
@[simp] theorem setVlt_history (d : Dev) (f : VltState → VltState) : (d.setVlt f).history = d.history := rfl
@[simp] theorem setVlt_latch (d : Dev) (f : VltState → VltState) : (d.setVlt f).latch = d.latch := rfl
@[simp] theorem setVlt_marks (d : Dev) (f : VltState → VltState) : (d.setVlt f).marks = d.marks := rfl
@[simp] theorem setVlt_out (d : Dev) (f : VltState → VltState) : (d.setVlt f).out = d.out := rfl
@[simp] theorem setVlt_fresh (d : Dev) (f : VltState → VltState) : (d.setVlt f).fresh = d.fresh := rfl
@[simp] theorem setVlt_low (d : Dev) (f : VltState → VltState) : (d.setVlt f).low = d.low := rfl
@[simp] theorem setVlt_cyc (d : Dev) (f : VltState → VltState) : (d.setVlt f).cyc = d.cyc := rfl
@[simp] theorem setVlt_ntq (d : Dev) (f : VltState → VltState) : (d.setVlt f).ntq = d.ntq := rfl
@[simp] theorem setVlt_aud (d : Dev) (f : VltState → VltState) : (d.setVlt f).aud = d.aud := rfl
@[simp] theorem setVlt_cad (d : Dev) (f : VltState → VltState) : (d.setVlt f).cad = d.cad := rfl
@[simp] theorem setVlt_ports (d : Dev) (f : VltState → VltState) : (d.setVlt f).ports = d.ports := rfl
@[simp] theorem setVlt_cht (d : Dev) (f : VltState → VltState) : (d.setVlt f).cht = d.cht := rfl
@[simp] theorem setVlt_clr (d : Dev) (f : VltState → VltState) : (d.setVlt f).clr = d.clr := rfl
@[simp] theorem setVlt_dma (d : Dev) (f : VltState → VltState) : (d.setVlt f).dma = d.dma := rfl
@[simp] theorem setVlt_hep (d : Dev) (f : VltState → VltState) : (d.setVlt f).hep = d.hep := rfl
@[simp] theorem setVlt_evr (d : Dev) (f : VltState → VltState) : (d.setVlt f).evr = d.evr := rfl
@[simp] theorem setVlt_enc (d : Dev) (f : VltState → VltState) : (d.setVlt f).enc = d.enc := rfl
@[simp] theorem setVlt_fio (d : Dev) (f : VltState → VltState) : (d.setVlt f).fio = d.fio := rfl
@[simp] theorem setVlt_stp (d : Dev) (f : VltState → VltState) : (d.setVlt f).stp = d.stp := rfl
@[simp] theorem setVlt_mgt (d : Dev) (f : VltState → VltState) : (d.setVlt f).mgt = d.mgt := rfl
@[simp] theorem setVlt_reg (d : Dev) (f : VltState → VltState) (r : Nat) : (d.setVlt f).reg r = d.reg r := rfl
@[simp] theorem setVlt_get (d : Dev) (f : VltState → VltState) (r : Bits) : (d.setVlt f).get r = d.get r := rfl
@[simp] theorem setVlt_is (d : Dev) (f : VltState → VltState) (r : Bits) : (d.setVlt f).is r = d.is r := rfl
@[simp] theorem setVlt_get64 (d : Dev) (f : VltState → VltState) (r : Nat) : (d.setVlt f).get64 r = d.get64 r := rfl
@[simp] theorem setVlt_bitOf (d : Dev) (f : VltState → VltState) (r j : Nat) : (d.setVlt f).bitOf r j = d.bitOf r j := rfl
@[simp] theorem setVlt_vlt (d : Dev) (f : VltState → VltState) : (d.setVlt f).vlt = f d.vlt := rfl

/-! ### setHep -/

@[simp] theorem setHep_time (d : Dev) (f : HepState → HepState) : (d.setHep f).time = d.time := rfl
@[simp] theorem setHep_frac (d : Dev) (f : HepState → HepState) : (d.setHep f).frac = d.frac := rfl
@[simp] theorem setHep_regs (d : Dev) (f : HepState → HepState) : (d.setHep f).regs = d.regs := rfl
@[simp] theorem setHep_force (d : Dev) (f : HepState → HepState) : (d.setHep f).force = d.force := rfl
@[simp] theorem setHep_history (d : Dev) (f : HepState → HepState) : (d.setHep f).history = d.history := rfl
@[simp] theorem setHep_latch (d : Dev) (f : HepState → HepState) : (d.setHep f).latch = d.latch := rfl
@[simp] theorem setHep_marks (d : Dev) (f : HepState → HepState) : (d.setHep f).marks = d.marks := rfl
@[simp] theorem setHep_out (d : Dev) (f : HepState → HepState) : (d.setHep f).out = d.out := rfl
@[simp] theorem setHep_fresh (d : Dev) (f : HepState → HepState) : (d.setHep f).fresh = d.fresh := rfl
@[simp] theorem setHep_low (d : Dev) (f : HepState → HepState) : (d.setHep f).low = d.low := rfl
@[simp] theorem setHep_cyc (d : Dev) (f : HepState → HepState) : (d.setHep f).cyc = d.cyc := rfl
@[simp] theorem setHep_ntq (d : Dev) (f : HepState → HepState) : (d.setHep f).ntq = d.ntq := rfl
@[simp] theorem setHep_aud (d : Dev) (f : HepState → HepState) : (d.setHep f).aud = d.aud := rfl
@[simp] theorem setHep_cad (d : Dev) (f : HepState → HepState) : (d.setHep f).cad = d.cad := rfl
@[simp] theorem setHep_ports (d : Dev) (f : HepState → HepState) : (d.setHep f).ports = d.ports := rfl
@[simp] theorem setHep_cht (d : Dev) (f : HepState → HepState) : (d.setHep f).cht = d.cht := rfl
@[simp] theorem setHep_clr (d : Dev) (f : HepState → HepState) : (d.setHep f).clr = d.clr := rfl
@[simp] theorem setHep_vlt (d : Dev) (f : HepState → HepState) : (d.setHep f).vlt = d.vlt := rfl
@[simp] theorem setHep_dma (d : Dev) (f : HepState → HepState) : (d.setHep f).dma = d.dma := rfl
@[simp] theorem setHep_evr (d : Dev) (f : HepState → HepState) : (d.setHep f).evr = d.evr := rfl
@[simp] theorem setHep_enc (d : Dev) (f : HepState → HepState) : (d.setHep f).enc = d.enc := rfl
@[simp] theorem setHep_fio (d : Dev) (f : HepState → HepState) : (d.setHep f).fio = d.fio := rfl
@[simp] theorem setHep_stp (d : Dev) (f : HepState → HepState) : (d.setHep f).stp = d.stp := rfl
@[simp] theorem setHep_mgt (d : Dev) (f : HepState → HepState) : (d.setHep f).mgt = d.mgt := rfl
@[simp] theorem setHep_reg (d : Dev) (f : HepState → HepState) (r : Nat) : (d.setHep f).reg r = d.reg r := rfl
@[simp] theorem setHep_get (d : Dev) (f : HepState → HepState) (r : Bits) : (d.setHep f).get r = d.get r := rfl
@[simp] theorem setHep_is (d : Dev) (f : HepState → HepState) (r : Bits) : (d.setHep f).is r = d.is r := rfl
@[simp] theorem setHep_get64 (d : Dev) (f : HepState → HepState) (r : Nat) : (d.setHep f).get64 r = d.get64 r := rfl
@[simp] theorem setHep_bitOf (d : Dev) (f : HepState → HepState) (r j : Nat) : (d.setHep f).bitOf r j = d.bitOf r j := rfl
@[simp] theorem setHep_hep (d : Dev) (f : HepState → HepState) : (d.setHep f).hep = f d.hep := rfl

/-! ### setEnc -/

@[simp] theorem setEnc_time (d : Dev) (f : EncState → EncState) : (d.setEnc f).time = d.time := rfl
@[simp] theorem setEnc_frac (d : Dev) (f : EncState → EncState) : (d.setEnc f).frac = d.frac := rfl
@[simp] theorem setEnc_regs (d : Dev) (f : EncState → EncState) : (d.setEnc f).regs = d.regs := rfl
@[simp] theorem setEnc_force (d : Dev) (f : EncState → EncState) : (d.setEnc f).force = d.force := rfl
@[simp] theorem setEnc_history (d : Dev) (f : EncState → EncState) : (d.setEnc f).history = d.history := rfl
@[simp] theorem setEnc_latch (d : Dev) (f : EncState → EncState) : (d.setEnc f).latch = d.latch := rfl
@[simp] theorem setEnc_marks (d : Dev) (f : EncState → EncState) : (d.setEnc f).marks = d.marks := rfl
@[simp] theorem setEnc_out (d : Dev) (f : EncState → EncState) : (d.setEnc f).out = d.out := rfl
@[simp] theorem setEnc_fresh (d : Dev) (f : EncState → EncState) : (d.setEnc f).fresh = d.fresh := rfl
@[simp] theorem setEnc_low (d : Dev) (f : EncState → EncState) : (d.setEnc f).low = d.low := rfl
@[simp] theorem setEnc_cyc (d : Dev) (f : EncState → EncState) : (d.setEnc f).cyc = d.cyc := rfl
@[simp] theorem setEnc_ntq (d : Dev) (f : EncState → EncState) : (d.setEnc f).ntq = d.ntq := rfl
@[simp] theorem setEnc_aud (d : Dev) (f : EncState → EncState) : (d.setEnc f).aud = d.aud := rfl
@[simp] theorem setEnc_cad (d : Dev) (f : EncState → EncState) : (d.setEnc f).cad = d.cad := rfl
@[simp] theorem setEnc_ports (d : Dev) (f : EncState → EncState) : (d.setEnc f).ports = d.ports := rfl
@[simp] theorem setEnc_cht (d : Dev) (f : EncState → EncState) : (d.setEnc f).cht = d.cht := rfl
@[simp] theorem setEnc_clr (d : Dev) (f : EncState → EncState) : (d.setEnc f).clr = d.clr := rfl
@[simp] theorem setEnc_vlt (d : Dev) (f : EncState → EncState) : (d.setEnc f).vlt = d.vlt := rfl
@[simp] theorem setEnc_dma (d : Dev) (f : EncState → EncState) : (d.setEnc f).dma = d.dma := rfl
@[simp] theorem setEnc_hep (d : Dev) (f : EncState → EncState) : (d.setEnc f).hep = d.hep := rfl
@[simp] theorem setEnc_evr (d : Dev) (f : EncState → EncState) : (d.setEnc f).evr = d.evr := rfl
@[simp] theorem setEnc_fio (d : Dev) (f : EncState → EncState) : (d.setEnc f).fio = d.fio := rfl
@[simp] theorem setEnc_stp (d : Dev) (f : EncState → EncState) : (d.setEnc f).stp = d.stp := rfl
@[simp] theorem setEnc_mgt (d : Dev) (f : EncState → EncState) : (d.setEnc f).mgt = d.mgt := rfl
@[simp] theorem setEnc_reg (d : Dev) (f : EncState → EncState) (r : Nat) : (d.setEnc f).reg r = d.reg r := rfl
@[simp] theorem setEnc_get (d : Dev) (f : EncState → EncState) (r : Bits) : (d.setEnc f).get r = d.get r := rfl
@[simp] theorem setEnc_is (d : Dev) (f : EncState → EncState) (r : Bits) : (d.setEnc f).is r = d.is r := rfl
@[simp] theorem setEnc_get64 (d : Dev) (f : EncState → EncState) (r : Nat) : (d.setEnc f).get64 r = d.get64 r := rfl
@[simp] theorem setEnc_bitOf (d : Dev) (f : EncState → EncState) (r j : Nat) : (d.setEnc f).bitOf r j = d.bitOf r j := rfl
@[simp] theorem setEnc_enc (d : Dev) (f : EncState → EncState) : (d.setEnc f).enc = f d.enc := rfl

/-! ### setStp -/

@[simp] theorem setStp_time (d : Dev) (f : StpState → StpState) : (d.setStp f).time = d.time := rfl
@[simp] theorem setStp_frac (d : Dev) (f : StpState → StpState) : (d.setStp f).frac = d.frac := rfl
@[simp] theorem setStp_regs (d : Dev) (f : StpState → StpState) : (d.setStp f).regs = d.regs := rfl
@[simp] theorem setStp_force (d : Dev) (f : StpState → StpState) : (d.setStp f).force = d.force := rfl
@[simp] theorem setStp_history (d : Dev) (f : StpState → StpState) : (d.setStp f).history = d.history := rfl
@[simp] theorem setStp_latch (d : Dev) (f : StpState → StpState) : (d.setStp f).latch = d.latch := rfl
@[simp] theorem setStp_marks (d : Dev) (f : StpState → StpState) : (d.setStp f).marks = d.marks := rfl
@[simp] theorem setStp_out (d : Dev) (f : StpState → StpState) : (d.setStp f).out = d.out := rfl
@[simp] theorem setStp_fresh (d : Dev) (f : StpState → StpState) : (d.setStp f).fresh = d.fresh := rfl
@[simp] theorem setStp_low (d : Dev) (f : StpState → StpState) : (d.setStp f).low = d.low := rfl
@[simp] theorem setStp_cyc (d : Dev) (f : StpState → StpState) : (d.setStp f).cyc = d.cyc := rfl
@[simp] theorem setStp_ntq (d : Dev) (f : StpState → StpState) : (d.setStp f).ntq = d.ntq := rfl
@[simp] theorem setStp_aud (d : Dev) (f : StpState → StpState) : (d.setStp f).aud = d.aud := rfl
@[simp] theorem setStp_cad (d : Dev) (f : StpState → StpState) : (d.setStp f).cad = d.cad := rfl
@[simp] theorem setStp_ports (d : Dev) (f : StpState → StpState) : (d.setStp f).ports = d.ports := rfl
@[simp] theorem setStp_cht (d : Dev) (f : StpState → StpState) : (d.setStp f).cht = d.cht := rfl
@[simp] theorem setStp_clr (d : Dev) (f : StpState → StpState) : (d.setStp f).clr = d.clr := rfl
@[simp] theorem setStp_vlt (d : Dev) (f : StpState → StpState) : (d.setStp f).vlt = d.vlt := rfl
@[simp] theorem setStp_dma (d : Dev) (f : StpState → StpState) : (d.setStp f).dma = d.dma := rfl
@[simp] theorem setStp_hep (d : Dev) (f : StpState → StpState) : (d.setStp f).hep = d.hep := rfl
@[simp] theorem setStp_evr (d : Dev) (f : StpState → StpState) : (d.setStp f).evr = d.evr := rfl
@[simp] theorem setStp_enc (d : Dev) (f : StpState → StpState) : (d.setStp f).enc = d.enc := rfl
@[simp] theorem setStp_fio (d : Dev) (f : StpState → StpState) : (d.setStp f).fio = d.fio := rfl
@[simp] theorem setStp_mgt (d : Dev) (f : StpState → StpState) : (d.setStp f).mgt = d.mgt := rfl
@[simp] theorem setStp_reg (d : Dev) (f : StpState → StpState) (r : Nat) : (d.setStp f).reg r = d.reg r := rfl
@[simp] theorem setStp_get (d : Dev) (f : StpState → StpState) (r : Bits) : (d.setStp f).get r = d.get r := rfl
@[simp] theorem setStp_is (d : Dev) (f : StpState → StpState) (r : Bits) : (d.setStp f).is r = d.is r := rfl
@[simp] theorem setStp_get64 (d : Dev) (f : StpState → StpState) (r : Nat) : (d.setStp f).get64 r = d.get64 r := rfl
@[simp] theorem setStp_bitOf (d : Dev) (f : StpState → StpState) (r j : Nat) : (d.setStp f).bitOf r j = d.bitOf r j := rfl
@[simp] theorem setStp_stp (d : Dev) (f : StpState → StpState) : (d.setStp f).stp = f d.stp := rfl

/-! ### putCfgBit -/

@[simp] theorem putCfgBit_time (d : Dev) (a i : Nat) (b : Bool) : (d.putCfgBit a i b).time = d.time := rfl
@[simp] theorem putCfgBit_frac (d : Dev) (a i : Nat) (b : Bool) : (d.putCfgBit a i b).frac = d.frac := rfl
@[simp] theorem putCfgBit_regs (d : Dev) (a i : Nat) (b : Bool) : (d.putCfgBit a i b).regs = d.regs := rfl
@[simp] theorem putCfgBit_force (d : Dev) (a i : Nat) (b : Bool) : (d.putCfgBit a i b).force = d.force := rfl
@[simp] theorem putCfgBit_history (d : Dev) (a i : Nat) (b : Bool) : (d.putCfgBit a i b).history = d.history := rfl
@[simp] theorem putCfgBit_latch (d : Dev) (a i : Nat) (b : Bool) : (d.putCfgBit a i b).latch = d.latch := rfl
@[simp] theorem putCfgBit_marks (d : Dev) (a i : Nat) (b : Bool) : (d.putCfgBit a i b).marks = d.marks := rfl
@[simp] theorem putCfgBit_out (d : Dev) (a i : Nat) (b : Bool) : (d.putCfgBit a i b).out = d.out := rfl
@[simp] theorem putCfgBit_fresh (d : Dev) (a i : Nat) (b : Bool) : (d.putCfgBit a i b).fresh = d.fresh := rfl
@[simp] theorem putCfgBit_low (d : Dev) (a i : Nat) (b : Bool) : (d.putCfgBit a i b).low = d.low := rfl
@[simp] theorem putCfgBit_cyc (d : Dev) (a i : Nat) (b : Bool) : (d.putCfgBit a i b).cyc = d.cyc := rfl
@[simp] theorem putCfgBit_ntq (d : Dev) (a i : Nat) (b : Bool) : (d.putCfgBit a i b).ntq = d.ntq := rfl
@[simp] theorem putCfgBit_aud (d : Dev) (a i : Nat) (b : Bool) : (d.putCfgBit a i b).aud = d.aud := rfl
@[simp] theorem putCfgBit_cad (d : Dev) (a i : Nat) (b : Bool) : (d.putCfgBit a i b).cad = d.cad := rfl
@[simp] theorem putCfgBit_ports (d : Dev) (a i : Nat) (b : Bool) : (d.putCfgBit a i b).ports = d.ports := rfl
@[simp] theorem putCfgBit_cht (d : Dev) (a i : Nat) (b : Bool) : (d.putCfgBit a i b).cht = d.cht := rfl
@[simp] theorem putCfgBit_clr (d : Dev) (a i : Nat) (b : Bool) : (d.putCfgBit a i b).clr = d.clr := rfl
@[simp] theorem putCfgBit_vlt (d : Dev) (a i : Nat) (b : Bool) : (d.putCfgBit a i b).vlt = d.vlt := rfl
@[simp] theorem putCfgBit_dma (d : Dev) (a i : Nat) (b : Bool) : (d.putCfgBit a i b).dma = d.dma := rfl
@[simp] theorem putCfgBit_evr (d : Dev) (a i : Nat) (b : Bool) : (d.putCfgBit a i b).evr = d.evr := rfl
@[simp] theorem putCfgBit_enc (d : Dev) (a i : Nat) (b : Bool) : (d.putCfgBit a i b).enc = d.enc := rfl
@[simp] theorem putCfgBit_fio (d : Dev) (a i : Nat) (b : Bool) : (d.putCfgBit a i b).fio = d.fio := rfl
@[simp] theorem putCfgBit_stp (d : Dev) (a i : Nat) (b : Bool) : (d.putCfgBit a i b).stp = d.stp := rfl
@[simp] theorem putCfgBit_mgt (d : Dev) (a i : Nat) (b : Bool) : (d.putCfgBit a i b).mgt = d.mgt := rfl
@[simp] theorem putCfgBit_reg (d : Dev) (a i : Nat) (b : Bool) (r : Nat) : (d.putCfgBit a i b).reg r = d.reg r := rfl
@[simp] theorem putCfgBit_get (d : Dev) (a i : Nat) (b : Bool) (r : Bits) : (d.putCfgBit a i b).get r = d.get r := rfl
@[simp] theorem putCfgBit_is (d : Dev) (a i : Nat) (b : Bool) (r : Bits) : (d.putCfgBit a i b).is r = d.is r := rfl
@[simp] theorem putCfgBit_get64 (d : Dev) (a i : Nat) (b : Bool) (r : Nat) : (d.putCfgBit a i b).get64 r = d.get64 r := rfl
@[simp] theorem putCfgBit_bitOf (d : Dev) (a i : Nat) (b : Bool) (r j : Nat) : (d.putCfgBit a i b).bitOf r j = d.bitOf r j := rfl

/-! ### unpoison -/

@[simp] theorem unpoison_time (d : Dev) (a n : Nat) : (d.unpoison a n).time = d.time := rfl
@[simp] theorem unpoison_frac (d : Dev) (a n : Nat) : (d.unpoison a n).frac = d.frac := rfl
@[simp] theorem unpoison_regs (d : Dev) (a n : Nat) : (d.unpoison a n).regs = d.regs := rfl
@[simp] theorem unpoison_force (d : Dev) (a n : Nat) : (d.unpoison a n).force = d.force := rfl
@[simp] theorem unpoison_history (d : Dev) (a n : Nat) : (d.unpoison a n).history = d.history := rfl
@[simp] theorem unpoison_latch (d : Dev) (a n : Nat) : (d.unpoison a n).latch = d.latch := rfl
@[simp] theorem unpoison_marks (d : Dev) (a n : Nat) : (d.unpoison a n).marks = d.marks := rfl
@[simp] theorem unpoison_out (d : Dev) (a n : Nat) : (d.unpoison a n).out = d.out := rfl
@[simp] theorem unpoison_fresh (d : Dev) (a n : Nat) : (d.unpoison a n).fresh = d.fresh := rfl
@[simp] theorem unpoison_low (d : Dev) (a n : Nat) : (d.unpoison a n).low = d.low := rfl
@[simp] theorem unpoison_cyc (d : Dev) (a n : Nat) : (d.unpoison a n).cyc = d.cyc := rfl
@[simp] theorem unpoison_ntq (d : Dev) (a n : Nat) : (d.unpoison a n).ntq = d.ntq := rfl
@[simp] theorem unpoison_aud (d : Dev) (a n : Nat) : (d.unpoison a n).aud = d.aud := rfl
@[simp] theorem unpoison_cad (d : Dev) (a n : Nat) : (d.unpoison a n).cad = d.cad := rfl
@[simp] theorem unpoison_ports (d : Dev) (a n : Nat) : (d.unpoison a n).ports = d.ports := rfl
@[simp] theorem unpoison_cht (d : Dev) (a n : Nat) : (d.unpoison a n).cht = d.cht := rfl
@[simp] theorem unpoison_clr (d : Dev) (a n : Nat) : (d.unpoison a n).clr = d.clr := rfl
@[simp] theorem unpoison_dma (d : Dev) (a n : Nat) : (d.unpoison a n).dma = d.dma := rfl
@[simp] theorem unpoison_hep (d : Dev) (a n : Nat) : (d.unpoison a n).hep = d.hep := rfl
@[simp] theorem unpoison_evr (d : Dev) (a n : Nat) : (d.unpoison a n).evr = d.evr := rfl
@[simp] theorem unpoison_enc (d : Dev) (a n : Nat) : (d.unpoison a n).enc = d.enc := rfl
@[simp] theorem unpoison_fio (d : Dev) (a n : Nat) : (d.unpoison a n).fio = d.fio := rfl
@[simp] theorem unpoison_stp (d : Dev) (a n : Nat) : (d.unpoison a n).stp = d.stp := rfl
@[simp] theorem unpoison_mgt (d : Dev) (a n : Nat) : (d.unpoison a n).mgt = d.mgt := rfl
@[simp] theorem unpoison_reg (d : Dev) (a n : Nat) (r : Nat) : (d.unpoison a n).reg r = d.reg r := rfl
@[simp] theorem unpoison_get (d : Dev) (a n : Nat) (r : Bits) : (d.unpoison a n).get r = d.get r := rfl
@[simp] theorem unpoison_is (d : Dev) (a n : Nat) (r : Bits) : (d.unpoison a n).is r = d.is r := rfl
@[simp] theorem unpoison_get64 (d : Dev) (a n : Nat) (r : Nat) : (d.unpoison a n).get64 r = d.get64 r := rfl
@[simp] theorem unpoison_bitOf (d : Dev) (a n : Nat) (r j : Nat) : (d.unpoison a n).bitOf r j = d.bitOf r j := rfl

/-! ### toForce -/

@[simp] theorem toForce_time (d : Dev) (a : Nat) : (d.toForce a).time = d.time := rfl
@[simp] theorem toForce_frac (d : Dev) (a : Nat) : (d.toForce a).frac = d.frac := rfl
@[simp] theorem toForce_regs (d : Dev) (a : Nat) : (d.toForce a).regs = d.regs := rfl
@[simp] theorem toForce_history (d : Dev) (a : Nat) : (d.toForce a).history = d.history := rfl
@[simp] theorem toForce_latch (d : Dev) (a : Nat) : (d.toForce a).latch = d.latch := rfl
@[simp] theorem toForce_marks (d : Dev) (a : Nat) : (d.toForce a).marks = d.marks := rfl
@[simp] theorem toForce_out (d : Dev) (a : Nat) : (d.toForce a).out = d.out := rfl
@[simp] theorem toForce_fresh (d : Dev) (a : Nat) : (d.toForce a).fresh = d.fresh := rfl
@[simp] theorem toForce_low (d : Dev) (a : Nat) : (d.toForce a).low = d.low := rfl
@[simp] theorem toForce_cyc (d : Dev) (a : Nat) : (d.toForce a).cyc = d.cyc := rfl
@[simp] theorem toForce_ntq (d : Dev) (a : Nat) : (d.toForce a).ntq = d.ntq := rfl
@[simp] theorem toForce_aud (d : Dev) (a : Nat) : (d.toForce a).aud = d.aud := rfl
@[simp] theorem toForce_cad (d : Dev) (a : Nat) : (d.toForce a).cad = d.cad := rfl
@[simp] theorem toForce_ports (d : Dev) (a : Nat) : (d.toForce a).ports = d.ports := rfl
@[simp] theorem toForce_cht (d : Dev) (a : Nat) : (d.toForce a).cht = d.cht := rfl
@[simp] theorem toForce_clr (d : Dev) (a : Nat) : (d.toForce a).clr = d.clr := rfl
@[simp] theorem toForce_vlt (d : Dev) (a : Nat) : (d.toForce a).vlt = d.vlt := rfl
@[simp] theorem toForce_dma (d : Dev) (a : Nat) : (d.toForce a).dma = d.dma := rfl
@[simp] theorem toForce_hep (d : Dev) (a : Nat) : (d.toForce a).hep = d.hep := rfl
@[simp] theorem toForce_evr (d : Dev) (a : Nat) : (d.toForce a).evr = d.evr := rfl
@[simp] theorem toForce_enc (d : Dev) (a : Nat) : (d.toForce a).enc = d.enc := rfl
@[simp] theorem toForce_fio (d : Dev) (a : Nat) : (d.toForce a).fio = d.fio := rfl
@[simp] theorem toForce_stp (d : Dev) (a : Nat) : (d.toForce a).stp = d.stp := rfl
@[simp] theorem toForce_mgt (d : Dev) (a : Nat) : (d.toForce a).mgt = d.mgt := rfl
@[simp] theorem toForce_reg (d : Dev) (a : Nat) (r : Nat) : (d.toForce a).reg r = d.reg r := rfl
@[simp] theorem toForce_get (d : Dev) (a : Nat) (r : Bits) : (d.toForce a).get r = d.get r := rfl
@[simp] theorem toForce_is (d : Dev) (a : Nat) (r : Bits) : (d.toForce a).is r = d.is r := rfl
@[simp] theorem toForce_get64 (d : Dev) (a : Nat) (r : Nat) : (d.toForce a).get64 r = d.get64 r := rfl
@[simp] theorem toForce_bitOf (d : Dev) (a : Nat) (r j : Nat) : (d.toForce a).bitOf r j = d.bitOf r j := rfl

/-! ### setCad -/

@[simp] theorem setCad_time (d : Dev) (f : CadState → CadState) : (d.setCad f).time = d.time := rfl
@[simp] theorem setCad_frac (d : Dev) (f : CadState → CadState) : (d.setCad f).frac = d.frac := rfl
@[simp] theorem setCad_regs (d : Dev) (f : CadState → CadState) : (d.setCad f).regs = d.regs := rfl
@[simp] theorem setCad_force (d : Dev) (f : CadState → CadState) : (d.setCad f).force = d.force := rfl
@[simp] theorem setCad_history (d : Dev) (f : CadState → CadState) : (d.setCad f).history = d.history := rfl
@[simp] theorem setCad_latch (d : Dev) (f : CadState → CadState) : (d.setCad f).latch = d.latch := rfl
@[simp] theorem setCad_marks (d : Dev) (f : CadState → CadState) : (d.setCad f).marks = d.marks := rfl
@[simp] theorem setCad_out (d : Dev) (f : CadState → CadState) : (d.setCad f).out = d.out := rfl
@[simp] theorem setCad_fresh (d : Dev) (f : CadState → CadState) : (d.setCad f).fresh = d.fresh := rfl
@[simp] theorem setCad_low (d : Dev) (f : CadState → CadState) : (d.setCad f).low = d.low := rfl
@[simp] theorem setCad_cyc (d : Dev) (f : CadState → CadState) : (d.setCad f).cyc = d.cyc := rfl
@[simp] theorem setCad_ntq (d : Dev) (f : CadState → CadState) : (d.setCad f).ntq = d.ntq := rfl
@[simp] theorem setCad_aud (d : Dev) (f : CadState → CadState) : (d.setCad f).aud = d.aud := rfl
@[simp] theorem setCad_ports (d : Dev) (f : CadState → CadState) : (d.setCad f).ports = d.ports := rfl
@[simp] theorem setCad_cht (d : Dev) (f : CadState → CadState) : (d.setCad f).cht = d.cht := rfl
@[simp] theorem setCad_clr (d : Dev) (f : CadState → CadState) : (d.setCad f).clr = d.clr := rfl
@[simp] theorem setCad_vlt (d : Dev) (f : CadState → CadState) : (d.setCad f).vlt = d.vlt := rfl
@[simp] theorem setCad_dma (d : Dev) (f : CadState → CadState) : (d.setCad f).dma = d.dma := rfl
@[simp] theorem setCad_hep (d : Dev) (f : CadState → CadState) : (d.setCad f).hep = d.hep := rfl
@[simp] theorem setCad_evr (d : Dev) (f : CadState → CadState) : (d.setCad f).evr = d.evr := rfl
@[simp] theorem setCad_enc (d : Dev) (f : CadState → CadState) : (d.setCad f).enc = d.enc := rfl
@[simp] theorem setCad_fio (d : Dev) (f : CadState → CadState) : (d.setCad f).fio = d.fio := rfl
@[simp] theorem setCad_stp (d : Dev) (f : CadState → CadState) : (d.setCad f).stp = d.stp := rfl
@[simp] theorem setCad_mgt (d : Dev) (f : CadState → CadState) : (d.setCad f).mgt = d.mgt := rfl
@[simp] theorem setCad_reg (d : Dev) (f : CadState → CadState) (r : Nat) : (d.setCad f).reg r = d.reg r := rfl
@[simp] theorem setCad_get (d : Dev) (f : CadState → CadState) (r : Bits) : (d.setCad f).get r = d.get r := rfl
@[simp] theorem setCad_is (d : Dev) (f : CadState → CadState) (r : Bits) : (d.setCad f).is r = d.is r := rfl
@[simp] theorem setCad_get64 (d : Dev) (f : CadState → CadState) (r : Nat) : (d.setCad f).get64 r = d.get64 r := rfl
@[simp] theorem setCad_bitOf (d : Dev) (f : CadState → CadState) (r j : Nat) : (d.setCad f).bitOf r j = d.bitOf r j := rfl
@[simp] theorem setCad_cad (d : Dev) (f : CadState → CadState) : (d.setCad f).cad = f d.cad := rfl

/-! ### setPort -/

@[simp] theorem setPort_time (d : Dev) (p : Nat) (f : Port → Port) : (d.setPort p f).time = d.time := rfl
@[simp] theorem setPort_frac (d : Dev) (p : Nat) (f : Port → Port) : (d.setPort p f).frac = d.frac := rfl
@[simp] theorem setPort_regs (d : Dev) (p : Nat) (f : Port → Port) : (d.setPort p f).regs = d.regs := rfl
@[simp] theorem setPort_force (d : Dev) (p : Nat) (f : Port → Port) : (d.setPort p f).force = d.force := rfl
@[simp] theorem setPort_history (d : Dev) (p : Nat) (f : Port → Port) : (d.setPort p f).history = d.history := rfl
@[simp] theorem setPort_latch (d : Dev) (p : Nat) (f : Port → Port) : (d.setPort p f).latch = d.latch := rfl
@[simp] theorem setPort_marks (d : Dev) (p : Nat) (f : Port → Port) : (d.setPort p f).marks = d.marks := rfl
@[simp] theorem setPort_out (d : Dev) (p : Nat) (f : Port → Port) : (d.setPort p f).out = d.out := rfl
@[simp] theorem setPort_fresh (d : Dev) (p : Nat) (f : Port → Port) : (d.setPort p f).fresh = d.fresh := rfl
@[simp] theorem setPort_low (d : Dev) (p : Nat) (f : Port → Port) : (d.setPort p f).low = d.low := rfl
@[simp] theorem setPort_cyc (d : Dev) (p : Nat) (f : Port → Port) : (d.setPort p f).cyc = d.cyc := rfl
@[simp] theorem setPort_ntq (d : Dev) (p : Nat) (f : Port → Port) : (d.setPort p f).ntq = d.ntq := rfl
@[simp] theorem setPort_aud (d : Dev) (p : Nat) (f : Port → Port) : (d.setPort p f).aud = d.aud := rfl
@[simp] theorem setPort_cad (d : Dev) (p : Nat) (f : Port → Port) : (d.setPort p f).cad = d.cad := rfl
@[simp] theorem setPort_cht (d : Dev) (p : Nat) (f : Port → Port) : (d.setPort p f).cht = d.cht := rfl
@[simp] theorem setPort_clr (d : Dev) (p : Nat) (f : Port → Port) : (d.setPort p f).clr = d.clr := rfl
@[simp] theorem setPort_vlt (d : Dev) (p : Nat) (f : Port → Port) : (d.setPort p f).vlt = d.vlt := rfl
@[simp] theorem setPort_dma (d : Dev) (p : Nat) (f : Port → Port) : (d.setPort p f).dma = d.dma := rfl
@[simp] theorem setPort_hep (d : Dev) (p : Nat) (f : Port → Port) : (d.setPort p f).hep = d.hep := rfl
@[simp] theorem setPort_evr (d : Dev) (p : Nat) (f : Port → Port) : (d.setPort p f).evr = d.evr := rfl
@[simp] theorem setPort_enc (d : Dev) (p : Nat) (f : Port → Port) : (d.setPort p f).enc = d.enc := rfl
@[simp] theorem setPort_fio (d : Dev) (p : Nat) (f : Port → Port) : (d.setPort p f).fio = d.fio := rfl
@[simp] theorem setPort_stp (d : Dev) (p : Nat) (f : Port → Port) : (d.setPort p f).stp = d.stp := rfl
@[simp] theorem setPort_mgt (d : Dev) (p : Nat) (f : Port → Port) : (d.setPort p f).mgt = d.mgt := rfl
@[simp] theorem setPort_reg (d : Dev) (p : Nat) (f : Port → Port) (r : Nat) : (d.setPort p f).reg r = d.reg r := rfl
@[simp] theorem setPort_get (d : Dev) (p : Nat) (f : Port → Port) (r : Bits) : (d.setPort p f).get r = d.get r := rfl
@[simp] theorem setPort_is (d : Dev) (p : Nat) (f : Port → Port) (r : Bits) : (d.setPort p f).is r = d.is r := rfl
@[simp] theorem setPort_get64 (d : Dev) (p : Nat) (f : Port → Port) (r : Nat) : (d.setPort p f).get64 r = d.get64 r := rfl
@[simp] theorem setPort_bitOf (d : Dev) (p : Nat) (f : Port → Port) (r j : Nat) : (d.setPort p f).bitOf r j = d.bitOf r j := rfl

/-! ### setPk -/

@[simp] theorem setPk_time (d : Dev) (p : Nat) (f : Packets → Packets) : (d.setPk p f).time = d.time := rfl
@[simp] theorem setPk_frac (d : Dev) (p : Nat) (f : Packets → Packets) : (d.setPk p f).frac = d.frac := rfl
@[simp] theorem setPk_regs (d : Dev) (p : Nat) (f : Packets → Packets) : (d.setPk p f).regs = d.regs := rfl
@[simp] theorem setPk_force (d : Dev) (p : Nat) (f : Packets → Packets) : (d.setPk p f).force = d.force := rfl
@[simp] theorem setPk_history (d : Dev) (p : Nat) (f : Packets → Packets) : (d.setPk p f).history = d.history := rfl
@[simp] theorem setPk_latch (d : Dev) (p : Nat) (f : Packets → Packets) : (d.setPk p f).latch = d.latch := rfl
@[simp] theorem setPk_marks (d : Dev) (p : Nat) (f : Packets → Packets) : (d.setPk p f).marks = d.marks := rfl
@[simp] theorem setPk_out (d : Dev) (p : Nat) (f : Packets → Packets) : (d.setPk p f).out = d.out := rfl
@[simp] theorem setPk_fresh (d : Dev) (p : Nat) (f : Packets → Packets) : (d.setPk p f).fresh = d.fresh := rfl
@[simp] theorem setPk_low (d : Dev) (p : Nat) (f : Packets → Packets) : (d.setPk p f).low = d.low := rfl
@[simp] theorem setPk_cyc (d : Dev) (p : Nat) (f : Packets → Packets) : (d.setPk p f).cyc = d.cyc := rfl
@[simp] theorem setPk_ntq (d : Dev) (p : Nat) (f : Packets → Packets) : (d.setPk p f).ntq = d.ntq := rfl
@[simp] theorem setPk_aud (d : Dev) (p : Nat) (f : Packets → Packets) : (d.setPk p f).aud = d.aud := rfl
@[simp] theorem setPk_cad (d : Dev) (p : Nat) (f : Packets → Packets) : (d.setPk p f).cad = d.cad := rfl
@[simp] theorem setPk_cht (d : Dev) (p : Nat) (f : Packets → Packets) : (d.setPk p f).cht = d.cht := rfl
@[simp] theorem setPk_clr (d : Dev) (p : Nat) (f : Packets → Packets) : (d.setPk p f).clr = d.clr := rfl
@[simp] theorem setPk_vlt (d : Dev) (p : Nat) (f : Packets → Packets) : (d.setPk p f).vlt = d.vlt := rfl
@[simp] theorem setPk_dma (d : Dev) (p : Nat) (f : Packets → Packets) : (d.setPk p f).dma = d.dma := rfl
@[simp] theorem setPk_hep (d : Dev) (p : Nat) (f : Packets → Packets) : (d.setPk p f).hep = d.hep := rfl
@[simp] theorem setPk_evr (d : Dev) (p : Nat) (f : Packets → Packets) : (d.setPk p f).evr = d.evr := rfl
@[simp] theorem setPk_enc (d : Dev) (p : Nat) (f : Packets → Packets) : (d.setPk p f).enc = d.enc := rfl
@[simp] theorem setPk_fio (d : Dev) (p : Nat) (f : Packets → Packets) : (d.setPk p f).fio = d.fio := rfl
@[simp] theorem setPk_stp (d : Dev) (p : Nat) (f : Packets → Packets) : (d.setPk p f).stp = d.stp := rfl
@[simp] theorem setPk_mgt (d : Dev) (p : Nat) (f : Packets → Packets) : (d.setPk p f).mgt = d.mgt := rfl
@[simp] theorem setPk_reg (d : Dev) (p : Nat) (f : Packets → Packets) (r : Nat) : (d.setPk p f).reg r = d.reg r := rfl
@[simp] theorem setPk_get (d : Dev) (p : Nat) (f : Packets → Packets) (r : Bits) : (d.setPk p f).get r = d.get r := rfl
@[simp] theorem setPk_is (d : Dev) (p : Nat) (f : Packets → Packets) (r : Bits) : (d.setPk p f).is r = d.is r := rfl
@[simp] theorem setPk_get64 (d : Dev) (p : Nat) (f : Packets → Packets) (r : Nat) : (d.setPk p f).get64 r = d.get64 r := rfl
@[simp] theorem setPk_bitOf (d : Dev) (p : Nat) (f : Packets → Packets) (r j : Nat) : (d.setPk p f).bitOf r j = d.bitOf r j := rfl

/-! ### setLink -/

@[simp] theorem setLink_time (d : Dev) (p : Nat) (f : Link → Link) : (d.setLink p f).time = d.time := rfl
@[simp] theorem setLink_frac (d : Dev) (p : Nat) (f : Link → Link) : (d.setLink p f).frac = d.frac := rfl
@[simp] theorem setLink_regs (d : Dev) (p : Nat) (f : Link → Link) : (d.setLink p f).regs = d.regs := rfl
@[simp] theorem setLink_force (d : Dev) (p : Nat) (f : Link → Link) : (d.setLink p f).force = d.force := rfl
@[simp] theorem setLink_history (d : Dev) (p : Nat) (f : Link → Link) : (d.setLink p f).history = d.history := rfl
@[simp] theorem setLink_latch (d : Dev) (p : Nat) (f : Link → Link) : (d.setLink p f).latch = d.latch := rfl
@[simp] theorem setLink_marks (d : Dev) (p : Nat) (f : Link → Link) : (d.setLink p f).marks = d.marks := rfl
@[simp] theorem setLink_out (d : Dev) (p : Nat) (f : Link → Link) : (d.setLink p f).out = d.out := rfl
@[simp] theorem setLink_fresh (d : Dev) (p : Nat) (f : Link → Link) : (d.setLink p f).fresh = d.fresh := rfl
@[simp] theorem setLink_low (d : Dev) (p : Nat) (f : Link → Link) : (d.setLink p f).low = d.low := rfl
@[simp] theorem setLink_cyc (d : Dev) (p : Nat) (f : Link → Link) : (d.setLink p f).cyc = d.cyc := rfl
@[simp] theorem setLink_ntq (d : Dev) (p : Nat) (f : Link → Link) : (d.setLink p f).ntq = d.ntq := rfl
@[simp] theorem setLink_aud (d : Dev) (p : Nat) (f : Link → Link) : (d.setLink p f).aud = d.aud := rfl
@[simp] theorem setLink_cad (d : Dev) (p : Nat) (f : Link → Link) : (d.setLink p f).cad = d.cad := rfl
@[simp] theorem setLink_cht (d : Dev) (p : Nat) (f : Link → Link) : (d.setLink p f).cht = d.cht := rfl
@[simp] theorem setLink_clr (d : Dev) (p : Nat) (f : Link → Link) : (d.setLink p f).clr = d.clr := rfl
@[simp] theorem setLink_vlt (d : Dev) (p : Nat) (f : Link → Link) : (d.setLink p f).vlt = d.vlt := rfl
@[simp] theorem setLink_dma (d : Dev) (p : Nat) (f : Link → Link) : (d.setLink p f).dma = d.dma := rfl
@[simp] theorem setLink_hep (d : Dev) (p : Nat) (f : Link → Link) : (d.setLink p f).hep = d.hep := rfl
@[simp] theorem setLink_evr (d : Dev) (p : Nat) (f : Link → Link) : (d.setLink p f).evr = d.evr := rfl
@[simp] theorem setLink_enc (d : Dev) (p : Nat) (f : Link → Link) : (d.setLink p f).enc = d.enc := rfl
@[simp] theorem setLink_fio (d : Dev) (p : Nat) (f : Link → Link) : (d.setLink p f).fio = d.fio := rfl
@[simp] theorem setLink_stp (d : Dev) (p : Nat) (f : Link → Link) : (d.setLink p f).stp = d.stp := rfl
@[simp] theorem setLink_mgt (d : Dev) (p : Nat) (f : Link → Link) : (d.setLink p f).mgt = d.mgt := rfl
@[simp] theorem setLink_reg (d : Dev) (p : Nat) (f : Link → Link) (r : Nat) : (d.setLink p f).reg r = d.reg r := rfl
@[simp] theorem setLink_get (d : Dev) (p : Nat) (f : Link → Link) (r : Bits) : (d.setLink p f).get r = d.get r := rfl
@[simp] theorem setLink_is (d : Dev) (p : Nat) (f : Link → Link) (r : Bits) : (d.setLink p f).is r = d.is r := rfl
@[simp] theorem setLink_get64 (d : Dev) (p : Nat) (f : Link → Link) (r : Nat) : (d.setLink p f).get64 r = d.get64 r := rfl
@[simp] theorem setLink_bitOf (d : Dev) (p : Nat) (f : Link → Link) (r j : Nat) : (d.setLink p f).bitOf r j = d.bitOf r j := rfl

/-! ### setRng -/

@[simp] theorem setRng_time (d : Dev) (p : Nat) (f : Ranging → Ranging) : (d.setRng p f).time = d.time := rfl
@[simp] theorem setRng_frac (d : Dev) (p : Nat) (f : Ranging → Ranging) : (d.setRng p f).frac = d.frac := rfl
@[simp] theorem setRng_regs (d : Dev) (p : Nat) (f : Ranging → Ranging) : (d.setRng p f).regs = d.regs := rfl
@[simp] theorem setRng_force (d : Dev) (p : Nat) (f : Ranging → Ranging) : (d.setRng p f).force = d.force := rfl
@[simp] theorem setRng_history (d : Dev) (p : Nat) (f : Ranging → Ranging) : (d.setRng p f).history = d.history := rfl
@[simp] theorem setRng_latch (d : Dev) (p : Nat) (f : Ranging → Ranging) : (d.setRng p f).latch = d.latch := rfl
@[simp] theorem setRng_marks (d : Dev) (p : Nat) (f : Ranging → Ranging) : (d.setRng p f).marks = d.marks := rfl
@[simp] theorem setRng_out (d : Dev) (p : Nat) (f : Ranging → Ranging) : (d.setRng p f).out = d.out := rfl
@[simp] theorem setRng_fresh (d : Dev) (p : Nat) (f : Ranging → Ranging) : (d.setRng p f).fresh = d.fresh := rfl
@[simp] theorem setRng_low (d : Dev) (p : Nat) (f : Ranging → Ranging) : (d.setRng p f).low = d.low := rfl
@[simp] theorem setRng_cyc (d : Dev) (p : Nat) (f : Ranging → Ranging) : (d.setRng p f).cyc = d.cyc := rfl
@[simp] theorem setRng_ntq (d : Dev) (p : Nat) (f : Ranging → Ranging) : (d.setRng p f).ntq = d.ntq := rfl
@[simp] theorem setRng_aud (d : Dev) (p : Nat) (f : Ranging → Ranging) : (d.setRng p f).aud = d.aud := rfl
@[simp] theorem setRng_cad (d : Dev) (p : Nat) (f : Ranging → Ranging) : (d.setRng p f).cad = d.cad := rfl
@[simp] theorem setRng_cht (d : Dev) (p : Nat) (f : Ranging → Ranging) : (d.setRng p f).cht = d.cht := rfl
@[simp] theorem setRng_clr (d : Dev) (p : Nat) (f : Ranging → Ranging) : (d.setRng p f).clr = d.clr := rfl
@[simp] theorem setRng_vlt (d : Dev) (p : Nat) (f : Ranging → Ranging) : (d.setRng p f).vlt = d.vlt := rfl
@[simp] theorem setRng_dma (d : Dev) (p : Nat) (f : Ranging → Ranging) : (d.setRng p f).dma = d.dma := rfl
@[simp] theorem setRng_hep (d : Dev) (p : Nat) (f : Ranging → Ranging) : (d.setRng p f).hep = d.hep := rfl
@[simp] theorem setRng_evr (d : Dev) (p : Nat) (f : Ranging → Ranging) : (d.setRng p f).evr = d.evr := rfl
@[simp] theorem setRng_enc (d : Dev) (p : Nat) (f : Ranging → Ranging) : (d.setRng p f).enc = d.enc := rfl
@[simp] theorem setRng_fio (d : Dev) (p : Nat) (f : Ranging → Ranging) : (d.setRng p f).fio = d.fio := rfl
@[simp] theorem setRng_stp (d : Dev) (p : Nat) (f : Ranging → Ranging) : (d.setRng p f).stp = d.stp := rfl
@[simp] theorem setRng_mgt (d : Dev) (p : Nat) (f : Ranging → Ranging) : (d.setRng p f).mgt = d.mgt := rfl
@[simp] theorem setRng_reg (d : Dev) (p : Nat) (f : Ranging → Ranging) (r : Nat) : (d.setRng p f).reg r = d.reg r := rfl
@[simp] theorem setRng_get (d : Dev) (p : Nat) (f : Ranging → Ranging) (r : Bits) : (d.setRng p f).get r = d.get r := rfl
@[simp] theorem setRng_is (d : Dev) (p : Nat) (f : Ranging → Ranging) (r : Bits) : (d.setRng p f).is r = d.is r := rfl
@[simp] theorem setRng_get64 (d : Dev) (p : Nat) (f : Ranging → Ranging) (r : Nat) : (d.setRng p f).get64 r = d.get64 r := rfl
@[simp] theorem setRng_bitOf (d : Dev) (p : Nat) (f : Ranging → Ranging) (r j : Nat) : (d.setRng p f).bitOf r j = d.bitOf r j := rfl

/-! ### setColumn -/

@[simp] theorem setColumn_time (d : Dev) (k : Nat) (f : Column → Column) : (d.setColumn k f).time = d.time := rfl
@[simp] theorem setColumn_frac (d : Dev) (k : Nat) (f : Column → Column) : (d.setColumn k f).frac = d.frac := rfl
@[simp] theorem setColumn_regs (d : Dev) (k : Nat) (f : Column → Column) : (d.setColumn k f).regs = d.regs := rfl
@[simp] theorem setColumn_force (d : Dev) (k : Nat) (f : Column → Column) : (d.setColumn k f).force = d.force := rfl
@[simp] theorem setColumn_history (d : Dev) (k : Nat) (f : Column → Column) : (d.setColumn k f).history = d.history := rfl
@[simp] theorem setColumn_latch (d : Dev) (k : Nat) (f : Column → Column) : (d.setColumn k f).latch = d.latch := rfl
@[simp] theorem setColumn_marks (d : Dev) (k : Nat) (f : Column → Column) : (d.setColumn k f).marks = d.marks := rfl
@[simp] theorem setColumn_out (d : Dev) (k : Nat) (f : Column → Column) : (d.setColumn k f).out = d.out := rfl
@[simp] theorem setColumn_fresh (d : Dev) (k : Nat) (f : Column → Column) : (d.setColumn k f).fresh = d.fresh := rfl
@[simp] theorem setColumn_low (d : Dev) (k : Nat) (f : Column → Column) : (d.setColumn k f).low = d.low := rfl
@[simp] theorem setColumn_cyc (d : Dev) (k : Nat) (f : Column → Column) : (d.setColumn k f).cyc = d.cyc := rfl
@[simp] theorem setColumn_ntq (d : Dev) (k : Nat) (f : Column → Column) : (d.setColumn k f).ntq = d.ntq := rfl
@[simp] theorem setColumn_aud (d : Dev) (k : Nat) (f : Column → Column) : (d.setColumn k f).aud = d.aud := rfl
@[simp] theorem setColumn_cad (d : Dev) (k : Nat) (f : Column → Column) : (d.setColumn k f).cad = d.cad := rfl
@[simp] theorem setColumn_ports (d : Dev) (k : Nat) (f : Column → Column) : (d.setColumn k f).ports = d.ports := rfl
@[simp] theorem setColumn_clr (d : Dev) (k : Nat) (f : Column → Column) : (d.setColumn k f).clr = d.clr := rfl
@[simp] theorem setColumn_vlt (d : Dev) (k : Nat) (f : Column → Column) : (d.setColumn k f).vlt = d.vlt := rfl
@[simp] theorem setColumn_dma (d : Dev) (k : Nat) (f : Column → Column) : (d.setColumn k f).dma = d.dma := rfl
@[simp] theorem setColumn_hep (d : Dev) (k : Nat) (f : Column → Column) : (d.setColumn k f).hep = d.hep := rfl
@[simp] theorem setColumn_evr (d : Dev) (k : Nat) (f : Column → Column) : (d.setColumn k f).evr = d.evr := rfl
@[simp] theorem setColumn_enc (d : Dev) (k : Nat) (f : Column → Column) : (d.setColumn k f).enc = d.enc := rfl
@[simp] theorem setColumn_fio (d : Dev) (k : Nat) (f : Column → Column) : (d.setColumn k f).fio = d.fio := rfl
@[simp] theorem setColumn_stp (d : Dev) (k : Nat) (f : Column → Column) : (d.setColumn k f).stp = d.stp := rfl
@[simp] theorem setColumn_mgt (d : Dev) (k : Nat) (f : Column → Column) : (d.setColumn k f).mgt = d.mgt := rfl
@[simp] theorem setColumn_reg (d : Dev) (k : Nat) (f : Column → Column) (r : Nat) : (d.setColumn k f).reg r = d.reg r := rfl
@[simp] theorem setColumn_get (d : Dev) (k : Nat) (f : Column → Column) (r : Bits) : (d.setColumn k f).get r = d.get r := rfl
@[simp] theorem setColumn_is (d : Dev) (k : Nat) (f : Column → Column) (r : Bits) : (d.setColumn k f).is r = d.is r := rfl
@[simp] theorem setColumn_get64 (d : Dev) (k : Nat) (f : Column → Column) (r : Nat) : (d.setColumn k f).get64 r = d.get64 r := rfl
@[simp] theorem setColumn_bitOf (d : Dev) (k : Nat) (f : Column → Column) (r j : Nat) : (d.setColumn k f).bitOf r j = d.bitOf r j := rfl

/-! ### setTeller -/

@[simp] theorem setTeller_time (d : Dev) (t : Nat) (f : Teller → Teller) : (d.setTeller t f).time = d.time := rfl
@[simp] theorem setTeller_frac (d : Dev) (t : Nat) (f : Teller → Teller) : (d.setTeller t f).frac = d.frac := rfl
@[simp] theorem setTeller_regs (d : Dev) (t : Nat) (f : Teller → Teller) : (d.setTeller t f).regs = d.regs := rfl
@[simp] theorem setTeller_force (d : Dev) (t : Nat) (f : Teller → Teller) : (d.setTeller t f).force = d.force := rfl
@[simp] theorem setTeller_history (d : Dev) (t : Nat) (f : Teller → Teller) : (d.setTeller t f).history = d.history := rfl
@[simp] theorem setTeller_latch (d : Dev) (t : Nat) (f : Teller → Teller) : (d.setTeller t f).latch = d.latch := rfl
@[simp] theorem setTeller_marks (d : Dev) (t : Nat) (f : Teller → Teller) : (d.setTeller t f).marks = d.marks := rfl
@[simp] theorem setTeller_out (d : Dev) (t : Nat) (f : Teller → Teller) : (d.setTeller t f).out = d.out := rfl
@[simp] theorem setTeller_fresh (d : Dev) (t : Nat) (f : Teller → Teller) : (d.setTeller t f).fresh = d.fresh := rfl
@[simp] theorem setTeller_low (d : Dev) (t : Nat) (f : Teller → Teller) : (d.setTeller t f).low = d.low := rfl
@[simp] theorem setTeller_cyc (d : Dev) (t : Nat) (f : Teller → Teller) : (d.setTeller t f).cyc = d.cyc := rfl
@[simp] theorem setTeller_ntq (d : Dev) (t : Nat) (f : Teller → Teller) : (d.setTeller t f).ntq = d.ntq := rfl
@[simp] theorem setTeller_aud (d : Dev) (t : Nat) (f : Teller → Teller) : (d.setTeller t f).aud = d.aud := rfl
@[simp] theorem setTeller_cad (d : Dev) (t : Nat) (f : Teller → Teller) : (d.setTeller t f).cad = d.cad := rfl
@[simp] theorem setTeller_ports (d : Dev) (t : Nat) (f : Teller → Teller) : (d.setTeller t f).ports = d.ports := rfl
@[simp] theorem setTeller_clr (d : Dev) (t : Nat) (f : Teller → Teller) : (d.setTeller t f).clr = d.clr := rfl
@[simp] theorem setTeller_vlt (d : Dev) (t : Nat) (f : Teller → Teller) : (d.setTeller t f).vlt = d.vlt := rfl
@[simp] theorem setTeller_dma (d : Dev) (t : Nat) (f : Teller → Teller) : (d.setTeller t f).dma = d.dma := rfl
@[simp] theorem setTeller_hep (d : Dev) (t : Nat) (f : Teller → Teller) : (d.setTeller t f).hep = d.hep := rfl
@[simp] theorem setTeller_evr (d : Dev) (t : Nat) (f : Teller → Teller) : (d.setTeller t f).evr = d.evr := rfl
@[simp] theorem setTeller_enc (d : Dev) (t : Nat) (f : Teller → Teller) : (d.setTeller t f).enc = d.enc := rfl
@[simp] theorem setTeller_fio (d : Dev) (t : Nat) (f : Teller → Teller) : (d.setTeller t f).fio = d.fio := rfl
@[simp] theorem setTeller_stp (d : Dev) (t : Nat) (f : Teller → Teller) : (d.setTeller t f).stp = d.stp := rfl
@[simp] theorem setTeller_mgt (d : Dev) (t : Nat) (f : Teller → Teller) : (d.setTeller t f).mgt = d.mgt := rfl
@[simp] theorem setTeller_reg (d : Dev) (t : Nat) (f : Teller → Teller) (r : Nat) : (d.setTeller t f).reg r = d.reg r := rfl
@[simp] theorem setTeller_get (d : Dev) (t : Nat) (f : Teller → Teller) (r : Bits) : (d.setTeller t f).get r = d.get r := rfl
@[simp] theorem setTeller_is (d : Dev) (t : Nat) (f : Teller → Teller) (r : Bits) : (d.setTeller t f).is r = d.is r := rfl
@[simp] theorem setTeller_get64 (d : Dev) (t : Nat) (f : Teller → Teller) (r : Nat) : (d.setTeller t f).get64 r = d.get64 r := rfl
@[simp] theorem setTeller_bitOf (d : Dev) (t : Nat) (f : Teller → Teller) (r j : Nat) : (d.setTeller t f).bitOf r j = d.bitOf r j := rfl

/-! ### storeSet -/

@[simp] theorem storeSet_time (d : Dev) (t i v : Nat) : (d.storeSet t i v).time = d.time := rfl
@[simp] theorem storeSet_frac (d : Dev) (t i v : Nat) : (d.storeSet t i v).frac = d.frac := rfl
@[simp] theorem storeSet_regs (d : Dev) (t i v : Nat) : (d.storeSet t i v).regs = d.regs := rfl
@[simp] theorem storeSet_force (d : Dev) (t i v : Nat) : (d.storeSet t i v).force = d.force := rfl
@[simp] theorem storeSet_history (d : Dev) (t i v : Nat) : (d.storeSet t i v).history = d.history := rfl
@[simp] theorem storeSet_latch (d : Dev) (t i v : Nat) : (d.storeSet t i v).latch = d.latch := rfl
@[simp] theorem storeSet_marks (d : Dev) (t i v : Nat) : (d.storeSet t i v).marks = d.marks := rfl
@[simp] theorem storeSet_out (d : Dev) (t i v : Nat) : (d.storeSet t i v).out = d.out := rfl
@[simp] theorem storeSet_fresh (d : Dev) (t i v : Nat) : (d.storeSet t i v).fresh = d.fresh := rfl
@[simp] theorem storeSet_low (d : Dev) (t i v : Nat) : (d.storeSet t i v).low = d.low := rfl
@[simp] theorem storeSet_cyc (d : Dev) (t i v : Nat) : (d.storeSet t i v).cyc = d.cyc := rfl
@[simp] theorem storeSet_ntq (d : Dev) (t i v : Nat) : (d.storeSet t i v).ntq = d.ntq := rfl
@[simp] theorem storeSet_aud (d : Dev) (t i v : Nat) : (d.storeSet t i v).aud = d.aud := rfl
@[simp] theorem storeSet_cad (d : Dev) (t i v : Nat) : (d.storeSet t i v).cad = d.cad := rfl
@[simp] theorem storeSet_ports (d : Dev) (t i v : Nat) : (d.storeSet t i v).ports = d.ports := rfl
@[simp] theorem storeSet_clr (d : Dev) (t i v : Nat) : (d.storeSet t i v).clr = d.clr := rfl
@[simp] theorem storeSet_vlt (d : Dev) (t i v : Nat) : (d.storeSet t i v).vlt = d.vlt := rfl
@[simp] theorem storeSet_dma (d : Dev) (t i v : Nat) : (d.storeSet t i v).dma = d.dma := rfl
@[simp] theorem storeSet_hep (d : Dev) (t i v : Nat) : (d.storeSet t i v).hep = d.hep := rfl
@[simp] theorem storeSet_evr (d : Dev) (t i v : Nat) : (d.storeSet t i v).evr = d.evr := rfl
@[simp] theorem storeSet_enc (d : Dev) (t i v : Nat) : (d.storeSet t i v).enc = d.enc := rfl
@[simp] theorem storeSet_fio (d : Dev) (t i v : Nat) : (d.storeSet t i v).fio = d.fio := rfl
@[simp] theorem storeSet_stp (d : Dev) (t i v : Nat) : (d.storeSet t i v).stp = d.stp := rfl
@[simp] theorem storeSet_mgt (d : Dev) (t i v : Nat) : (d.storeSet t i v).mgt = d.mgt := rfl
@[simp] theorem storeSet_reg (d : Dev) (t i v : Nat) (r : Nat) : (d.storeSet t i v).reg r = d.reg r := rfl
@[simp] theorem storeSet_get (d : Dev) (t i v : Nat) (r : Bits) : (d.storeSet t i v).get r = d.get r := rfl
@[simp] theorem storeSet_is (d : Dev) (t i v : Nat) (r : Bits) : (d.storeSet t i v).is r = d.is r := rfl
@[simp] theorem storeSet_get64 (d : Dev) (t i v : Nat) (r : Nat) : (d.storeSet t i v).get64 r = d.get64 r := rfl
@[simp] theorem storeSet_bitOf (d : Dev) (t i v : Nat) (r j : Nat) : (d.storeSet t i v).bitOf r j = d.bitOf r j := rfl

/-! ### setFrame -/

@[simp] theorem setFrame_time (d : Dev) (id : Nat) (f : Frame → Frame) : (d.setFrame id f).time = d.time := rfl
@[simp] theorem setFrame_frac (d : Dev) (id : Nat) (f : Frame → Frame) : (d.setFrame id f).frac = d.frac := rfl
@[simp] theorem setFrame_regs (d : Dev) (id : Nat) (f : Frame → Frame) : (d.setFrame id f).regs = d.regs := rfl
@[simp] theorem setFrame_force (d : Dev) (id : Nat) (f : Frame → Frame) : (d.setFrame id f).force = d.force := rfl
@[simp] theorem setFrame_history (d : Dev) (id : Nat) (f : Frame → Frame) : (d.setFrame id f).history = d.history := rfl
@[simp] theorem setFrame_latch (d : Dev) (id : Nat) (f : Frame → Frame) : (d.setFrame id f).latch = d.latch := rfl
@[simp] theorem setFrame_marks (d : Dev) (id : Nat) (f : Frame → Frame) : (d.setFrame id f).marks = d.marks := rfl
@[simp] theorem setFrame_out (d : Dev) (id : Nat) (f : Frame → Frame) : (d.setFrame id f).out = d.out := rfl
@[simp] theorem setFrame_fresh (d : Dev) (id : Nat) (f : Frame → Frame) : (d.setFrame id f).fresh = d.fresh := rfl
@[simp] theorem setFrame_low (d : Dev) (id : Nat) (f : Frame → Frame) : (d.setFrame id f).low = d.low := rfl
@[simp] theorem setFrame_cyc (d : Dev) (id : Nat) (f : Frame → Frame) : (d.setFrame id f).cyc = d.cyc := rfl
@[simp] theorem setFrame_ntq (d : Dev) (id : Nat) (f : Frame → Frame) : (d.setFrame id f).ntq = d.ntq := rfl
@[simp] theorem setFrame_aud (d : Dev) (id : Nat) (f : Frame → Frame) : (d.setFrame id f).aud = d.aud := rfl
@[simp] theorem setFrame_cad (d : Dev) (id : Nat) (f : Frame → Frame) : (d.setFrame id f).cad = d.cad := rfl
@[simp] theorem setFrame_ports (d : Dev) (id : Nat) (f : Frame → Frame) : (d.setFrame id f).ports = d.ports := rfl
@[simp] theorem setFrame_cht (d : Dev) (id : Nat) (f : Frame → Frame) : (d.setFrame id f).cht = d.cht := rfl
@[simp] theorem setFrame_vlt (d : Dev) (id : Nat) (f : Frame → Frame) : (d.setFrame id f).vlt = d.vlt := rfl
@[simp] theorem setFrame_dma (d : Dev) (id : Nat) (f : Frame → Frame) : (d.setFrame id f).dma = d.dma := rfl
@[simp] theorem setFrame_hep (d : Dev) (id : Nat) (f : Frame → Frame) : (d.setFrame id f).hep = d.hep := rfl
@[simp] theorem setFrame_evr (d : Dev) (id : Nat) (f : Frame → Frame) : (d.setFrame id f).evr = d.evr := rfl
@[simp] theorem setFrame_enc (d : Dev) (id : Nat) (f : Frame → Frame) : (d.setFrame id f).enc = d.enc := rfl
@[simp] theorem setFrame_fio (d : Dev) (id : Nat) (f : Frame → Frame) : (d.setFrame id f).fio = d.fio := rfl
@[simp] theorem setFrame_stp (d : Dev) (id : Nat) (f : Frame → Frame) : (d.setFrame id f).stp = d.stp := rfl
@[simp] theorem setFrame_mgt (d : Dev) (id : Nat) (f : Frame → Frame) : (d.setFrame id f).mgt = d.mgt := rfl
@[simp] theorem setFrame_reg (d : Dev) (id : Nat) (f : Frame → Frame) (r : Nat) : (d.setFrame id f).reg r = d.reg r := rfl
@[simp] theorem setFrame_get (d : Dev) (id : Nat) (f : Frame → Frame) (r : Bits) : (d.setFrame id f).get r = d.get r := rfl
@[simp] theorem setFrame_is (d : Dev) (id : Nat) (f : Frame → Frame) (r : Bits) : (d.setFrame id f).is r = d.is r := rfl
@[simp] theorem setFrame_get64 (d : Dev) (id : Nat) (f : Frame → Frame) (r : Nat) : (d.setFrame id f).get64 r = d.get64 r := rfl
@[simp] theorem setFrame_bitOf (d : Dev) (id : Nat) (f : Frame → Frame) (r j : Nat) : (d.setFrame id f).bitOf r j = d.bitOf r j := rfl

/-! ### setRing -/

@[simp] theorem setRing_time (d : Dev) (k : Nat) (f : Ring → Ring) : (d.setRing k f).time = d.time := rfl
@[simp] theorem setRing_frac (d : Dev) (k : Nat) (f : Ring → Ring) : (d.setRing k f).frac = d.frac := rfl
@[simp] theorem setRing_regs (d : Dev) (k : Nat) (f : Ring → Ring) : (d.setRing k f).regs = d.regs := rfl
@[simp] theorem setRing_force (d : Dev) (k : Nat) (f : Ring → Ring) : (d.setRing k f).force = d.force := rfl
@[simp] theorem setRing_history (d : Dev) (k : Nat) (f : Ring → Ring) : (d.setRing k f).history = d.history := rfl
@[simp] theorem setRing_latch (d : Dev) (k : Nat) (f : Ring → Ring) : (d.setRing k f).latch = d.latch := rfl
@[simp] theorem setRing_marks (d : Dev) (k : Nat) (f : Ring → Ring) : (d.setRing k f).marks = d.marks := rfl
@[simp] theorem setRing_out (d : Dev) (k : Nat) (f : Ring → Ring) : (d.setRing k f).out = d.out := rfl
@[simp] theorem setRing_fresh (d : Dev) (k : Nat) (f : Ring → Ring) : (d.setRing k f).fresh = d.fresh := rfl
@[simp] theorem setRing_low (d : Dev) (k : Nat) (f : Ring → Ring) : (d.setRing k f).low = d.low := rfl
@[simp] theorem setRing_cyc (d : Dev) (k : Nat) (f : Ring → Ring) : (d.setRing k f).cyc = d.cyc := rfl
@[simp] theorem setRing_ntq (d : Dev) (k : Nat) (f : Ring → Ring) : (d.setRing k f).ntq = d.ntq := rfl
@[simp] theorem setRing_aud (d : Dev) (k : Nat) (f : Ring → Ring) : (d.setRing k f).aud = d.aud := rfl
@[simp] theorem setRing_cad (d : Dev) (k : Nat) (f : Ring → Ring) : (d.setRing k f).cad = d.cad := rfl
@[simp] theorem setRing_ports (d : Dev) (k : Nat) (f : Ring → Ring) : (d.setRing k f).ports = d.ports := rfl
@[simp] theorem setRing_cht (d : Dev) (k : Nat) (f : Ring → Ring) : (d.setRing k f).cht = d.cht := rfl
@[simp] theorem setRing_clr (d : Dev) (k : Nat) (f : Ring → Ring) : (d.setRing k f).clr = d.clr := rfl
@[simp] theorem setRing_dma (d : Dev) (k : Nat) (f : Ring → Ring) : (d.setRing k f).dma = d.dma := rfl
@[simp] theorem setRing_hep (d : Dev) (k : Nat) (f : Ring → Ring) : (d.setRing k f).hep = d.hep := rfl
@[simp] theorem setRing_evr (d : Dev) (k : Nat) (f : Ring → Ring) : (d.setRing k f).evr = d.evr := rfl
@[simp] theorem setRing_enc (d : Dev) (k : Nat) (f : Ring → Ring) : (d.setRing k f).enc = d.enc := rfl
@[simp] theorem setRing_fio (d : Dev) (k : Nat) (f : Ring → Ring) : (d.setRing k f).fio = d.fio := rfl
@[simp] theorem setRing_stp (d : Dev) (k : Nat) (f : Ring → Ring) : (d.setRing k f).stp = d.stp := rfl
@[simp] theorem setRing_mgt (d : Dev) (k : Nat) (f : Ring → Ring) : (d.setRing k f).mgt = d.mgt := rfl
@[simp] theorem setRing_reg (d : Dev) (k : Nat) (f : Ring → Ring) (r : Nat) : (d.setRing k f).reg r = d.reg r := rfl
@[simp] theorem setRing_get (d : Dev) (k : Nat) (f : Ring → Ring) (r : Bits) : (d.setRing k f).get r = d.get r := rfl
@[simp] theorem setRing_is (d : Dev) (k : Nat) (f : Ring → Ring) (r : Bits) : (d.setRing k f).is r = d.is r := rfl
@[simp] theorem setRing_get64 (d : Dev) (k : Nat) (f : Ring → Ring) (r : Nat) : (d.setRing k f).get64 r = d.get64 r := rfl
@[simp] theorem setRing_bitOf (d : Dev) (k : Nat) (f : Ring → Ring) (r j : Nat) : (d.setRing k f).bitOf r j = d.bitOf r j := rfl

/-! ### setReplay -/

@[simp] theorem setReplay_time (d : Dev) (h : Nat) (f : Replay → Replay) : (d.setReplay h f).time = d.time := rfl
@[simp] theorem setReplay_frac (d : Dev) (h : Nat) (f : Replay → Replay) : (d.setReplay h f).frac = d.frac := rfl
@[simp] theorem setReplay_regs (d : Dev) (h : Nat) (f : Replay → Replay) : (d.setReplay h f).regs = d.regs := rfl
@[simp] theorem setReplay_force (d : Dev) (h : Nat) (f : Replay → Replay) : (d.setReplay h f).force = d.force := rfl
@[simp] theorem setReplay_history (d : Dev) (h : Nat) (f : Replay → Replay) : (d.setReplay h f).history = d.history := rfl
@[simp] theorem setReplay_latch (d : Dev) (h : Nat) (f : Replay → Replay) : (d.setReplay h f).latch = d.latch := rfl
@[simp] theorem setReplay_marks (d : Dev) (h : Nat) (f : Replay → Replay) : (d.setReplay h f).marks = d.marks := rfl
@[simp] theorem setReplay_out (d : Dev) (h : Nat) (f : Replay → Replay) : (d.setReplay h f).out = d.out := rfl
@[simp] theorem setReplay_fresh (d : Dev) (h : Nat) (f : Replay → Replay) : (d.setReplay h f).fresh = d.fresh := rfl
@[simp] theorem setReplay_low (d : Dev) (h : Nat) (f : Replay → Replay) : (d.setReplay h f).low = d.low := rfl
@[simp] theorem setReplay_cyc (d : Dev) (h : Nat) (f : Replay → Replay) : (d.setReplay h f).cyc = d.cyc := rfl
@[simp] theorem setReplay_ntq (d : Dev) (h : Nat) (f : Replay → Replay) : (d.setReplay h f).ntq = d.ntq := rfl
@[simp] theorem setReplay_aud (d : Dev) (h : Nat) (f : Replay → Replay) : (d.setReplay h f).aud = d.aud := rfl
@[simp] theorem setReplay_cad (d : Dev) (h : Nat) (f : Replay → Replay) : (d.setReplay h f).cad = d.cad := rfl
@[simp] theorem setReplay_ports (d : Dev) (h : Nat) (f : Replay → Replay) : (d.setReplay h f).ports = d.ports := rfl
@[simp] theorem setReplay_cht (d : Dev) (h : Nat) (f : Replay → Replay) : (d.setReplay h f).cht = d.cht := rfl
@[simp] theorem setReplay_clr (d : Dev) (h : Nat) (f : Replay → Replay) : (d.setReplay h f).clr = d.clr := rfl
@[simp] theorem setReplay_dma (d : Dev) (h : Nat) (f : Replay → Replay) : (d.setReplay h f).dma = d.dma := rfl
@[simp] theorem setReplay_hep (d : Dev) (h : Nat) (f : Replay → Replay) : (d.setReplay h f).hep = d.hep := rfl
@[simp] theorem setReplay_evr (d : Dev) (h : Nat) (f : Replay → Replay) : (d.setReplay h f).evr = d.evr := rfl
@[simp] theorem setReplay_enc (d : Dev) (h : Nat) (f : Replay → Replay) : (d.setReplay h f).enc = d.enc := rfl
@[simp] theorem setReplay_fio (d : Dev) (h : Nat) (f : Replay → Replay) : (d.setReplay h f).fio = d.fio := rfl
@[simp] theorem setReplay_stp (d : Dev) (h : Nat) (f : Replay → Replay) : (d.setReplay h f).stp = d.stp := rfl
@[simp] theorem setReplay_mgt (d : Dev) (h : Nat) (f : Replay → Replay) : (d.setReplay h f).mgt = d.mgt := rfl
@[simp] theorem setReplay_reg (d : Dev) (h : Nat) (f : Replay → Replay) (r : Nat) : (d.setReplay h f).reg r = d.reg r := rfl
@[simp] theorem setReplay_get (d : Dev) (h : Nat) (f : Replay → Replay) (r : Bits) : (d.setReplay h f).get r = d.get r := rfl
@[simp] theorem setReplay_is (d : Dev) (h : Nat) (f : Replay → Replay) (r : Bits) : (d.setReplay h f).is r = d.is r := rfl
@[simp] theorem setReplay_get64 (d : Dev) (h : Nat) (f : Replay → Replay) (r : Nat) : (d.setReplay h f).get64 r = d.get64 r := rfl
@[simp] theorem setReplay_bitOf (d : Dev) (h : Nat) (f : Replay → Replay) (r j : Nat) : (d.setReplay h f).bitOf r j = d.bitOf r j := rfl

/-! ### setChan -/

@[simp] theorem setChan_time (d : Dev) (c : Nat) (f : Chan → Chan) : (d.setChan c f).time = d.time := rfl
@[simp] theorem setChan_frac (d : Dev) (c : Nat) (f : Chan → Chan) : (d.setChan c f).frac = d.frac := rfl
@[simp] theorem setChan_regs (d : Dev) (c : Nat) (f : Chan → Chan) : (d.setChan c f).regs = d.regs := rfl
@[simp] theorem setChan_force (d : Dev) (c : Nat) (f : Chan → Chan) : (d.setChan c f).force = d.force := rfl
@[simp] theorem setChan_history (d : Dev) (c : Nat) (f : Chan → Chan) : (d.setChan c f).history = d.history := rfl
@[simp] theorem setChan_latch (d : Dev) (c : Nat) (f : Chan → Chan) : (d.setChan c f).latch = d.latch := rfl
@[simp] theorem setChan_marks (d : Dev) (c : Nat) (f : Chan → Chan) : (d.setChan c f).marks = d.marks := rfl
@[simp] theorem setChan_out (d : Dev) (c : Nat) (f : Chan → Chan) : (d.setChan c f).out = d.out := rfl
@[simp] theorem setChan_fresh (d : Dev) (c : Nat) (f : Chan → Chan) : (d.setChan c f).fresh = d.fresh := rfl
@[simp] theorem setChan_low (d : Dev) (c : Nat) (f : Chan → Chan) : (d.setChan c f).low = d.low := rfl
@[simp] theorem setChan_cyc (d : Dev) (c : Nat) (f : Chan → Chan) : (d.setChan c f).cyc = d.cyc := rfl
@[simp] theorem setChan_ntq (d : Dev) (c : Nat) (f : Chan → Chan) : (d.setChan c f).ntq = d.ntq := rfl
@[simp] theorem setChan_aud (d : Dev) (c : Nat) (f : Chan → Chan) : (d.setChan c f).aud = d.aud := rfl
@[simp] theorem setChan_cad (d : Dev) (c : Nat) (f : Chan → Chan) : (d.setChan c f).cad = d.cad := rfl
@[simp] theorem setChan_ports (d : Dev) (c : Nat) (f : Chan → Chan) : (d.setChan c f).ports = d.ports := rfl
@[simp] theorem setChan_cht (d : Dev) (c : Nat) (f : Chan → Chan) : (d.setChan c f).cht = d.cht := rfl
@[simp] theorem setChan_clr (d : Dev) (c : Nat) (f : Chan → Chan) : (d.setChan c f).clr = d.clr := rfl
@[simp] theorem setChan_vlt (d : Dev) (c : Nat) (f : Chan → Chan) : (d.setChan c f).vlt = d.vlt := rfl
@[simp] theorem setChan_hep (d : Dev) (c : Nat) (f : Chan → Chan) : (d.setChan c f).hep = d.hep := rfl
@[simp] theorem setChan_evr (d : Dev) (c : Nat) (f : Chan → Chan) : (d.setChan c f).evr = d.evr := rfl
@[simp] theorem setChan_enc (d : Dev) (c : Nat) (f : Chan → Chan) : (d.setChan c f).enc = d.enc := rfl
@[simp] theorem setChan_fio (d : Dev) (c : Nat) (f : Chan → Chan) : (d.setChan c f).fio = d.fio := rfl
@[simp] theorem setChan_stp (d : Dev) (c : Nat) (f : Chan → Chan) : (d.setChan c f).stp = d.stp := rfl
@[simp] theorem setChan_mgt (d : Dev) (c : Nat) (f : Chan → Chan) : (d.setChan c f).mgt = d.mgt := rfl
@[simp] theorem setChan_reg (d : Dev) (c : Nat) (f : Chan → Chan) (r : Nat) : (d.setChan c f).reg r = d.reg r := rfl
@[simp] theorem setChan_get (d : Dev) (c : Nat) (f : Chan → Chan) (r : Bits) : (d.setChan c f).get r = d.get r := rfl
@[simp] theorem setChan_is (d : Dev) (c : Nat) (f : Chan → Chan) (r : Bits) : (d.setChan c f).is r = d.is r := rfl
@[simp] theorem setChan_get64 (d : Dev) (c : Nat) (f : Chan → Chan) (r : Nat) : (d.setChan c f).get64 r = d.get64 r := rfl
@[simp] theorem setChan_bitOf (d : Dev) (c : Nat) (f : Chan → Chan) (r j : Nat) : (d.setChan c f).bitOf r j = d.bitOf r j := rfl

/-! ### setCfg -/

@[simp] theorem setCfg_time (d : Dev) (a : Nat) (w : Word) : (d.setCfg a w).time = d.time := rfl
@[simp] theorem setCfg_frac (d : Dev) (a : Nat) (w : Word) : (d.setCfg a w).frac = d.frac := rfl
@[simp] theorem setCfg_regs (d : Dev) (a : Nat) (w : Word) : (d.setCfg a w).regs = d.regs := rfl
@[simp] theorem setCfg_force (d : Dev) (a : Nat) (w : Word) : (d.setCfg a w).force = d.force := rfl
@[simp] theorem setCfg_history (d : Dev) (a : Nat) (w : Word) : (d.setCfg a w).history = d.history := rfl
@[simp] theorem setCfg_latch (d : Dev) (a : Nat) (w : Word) : (d.setCfg a w).latch = d.latch := rfl
@[simp] theorem setCfg_marks (d : Dev) (a : Nat) (w : Word) : (d.setCfg a w).marks = d.marks := rfl
@[simp] theorem setCfg_out (d : Dev) (a : Nat) (w : Word) : (d.setCfg a w).out = d.out := rfl
@[simp] theorem setCfg_fresh (d : Dev) (a : Nat) (w : Word) : (d.setCfg a w).fresh = d.fresh := rfl
@[simp] theorem setCfg_low (d : Dev) (a : Nat) (w : Word) : (d.setCfg a w).low = d.low := rfl
@[simp] theorem setCfg_cyc (d : Dev) (a : Nat) (w : Word) : (d.setCfg a w).cyc = d.cyc := rfl
@[simp] theorem setCfg_ntq (d : Dev) (a : Nat) (w : Word) : (d.setCfg a w).ntq = d.ntq := rfl
@[simp] theorem setCfg_aud (d : Dev) (a : Nat) (w : Word) : (d.setCfg a w).aud = d.aud := rfl
@[simp] theorem setCfg_cad (d : Dev) (a : Nat) (w : Word) : (d.setCfg a w).cad = d.cad := rfl
@[simp] theorem setCfg_ports (d : Dev) (a : Nat) (w : Word) : (d.setCfg a w).ports = d.ports := rfl
@[simp] theorem setCfg_cht (d : Dev) (a : Nat) (w : Word) : (d.setCfg a w).cht = d.cht := rfl
@[simp] theorem setCfg_clr (d : Dev) (a : Nat) (w : Word) : (d.setCfg a w).clr = d.clr := rfl
@[simp] theorem setCfg_vlt (d : Dev) (a : Nat) (w : Word) : (d.setCfg a w).vlt = d.vlt := rfl
@[simp] theorem setCfg_dma (d : Dev) (a : Nat) (w : Word) : (d.setCfg a w).dma = d.dma := rfl
@[simp] theorem setCfg_evr (d : Dev) (a : Nat) (w : Word) : (d.setCfg a w).evr = d.evr := rfl
@[simp] theorem setCfg_enc (d : Dev) (a : Nat) (w : Word) : (d.setCfg a w).enc = d.enc := rfl
@[simp] theorem setCfg_fio (d : Dev) (a : Nat) (w : Word) : (d.setCfg a w).fio = d.fio := rfl
@[simp] theorem setCfg_stp (d : Dev) (a : Nat) (w : Word) : (d.setCfg a w).stp = d.stp := rfl
@[simp] theorem setCfg_mgt (d : Dev) (a : Nat) (w : Word) : (d.setCfg a w).mgt = d.mgt := rfl
@[simp] theorem setCfg_reg (d : Dev) (a : Nat) (w : Word) (r : Nat) : (d.setCfg a w).reg r = d.reg r := rfl
@[simp] theorem setCfg_get (d : Dev) (a : Nat) (w : Word) (r : Bits) : (d.setCfg a w).get r = d.get r := rfl
@[simp] theorem setCfg_is (d : Dev) (a : Nat) (w : Word) (r : Bits) : (d.setCfg a w).is r = d.is r := rfl
@[simp] theorem setCfg_get64 (d : Dev) (a : Nat) (w : Word) (r : Nat) : (d.setCfg a w).get64 r = d.get64 r := rfl
@[simp] theorem setCfg_bitOf (d : Dev) (a : Nat) (w : Word) (r j : Nat) : (d.setCfg a w).bitOf r j = d.bitOf r j := rfl

/-! ### stepEncChan -/

@[simp] theorem stepEncChan_time (d : Dev) (i t : Nat) (on : Bool) (f : EncChan → EncChan) : (d.stepEncChan i t on f).time = d.time := rfl
@[simp] theorem stepEncChan_frac (d : Dev) (i t : Nat) (on : Bool) (f : EncChan → EncChan) : (d.stepEncChan i t on f).frac = d.frac := rfl
@[simp] theorem stepEncChan_regs (d : Dev) (i t : Nat) (on : Bool) (f : EncChan → EncChan) : (d.stepEncChan i t on f).regs = d.regs := rfl
@[simp] theorem stepEncChan_force (d : Dev) (i t : Nat) (on : Bool) (f : EncChan → EncChan) : (d.stepEncChan i t on f).force = d.force := rfl
@[simp] theorem stepEncChan_history (d : Dev) (i t : Nat) (on : Bool) (f : EncChan → EncChan) : (d.stepEncChan i t on f).history = d.history := rfl
@[simp] theorem stepEncChan_latch (d : Dev) (i t : Nat) (on : Bool) (f : EncChan → EncChan) : (d.stepEncChan i t on f).latch = d.latch := rfl
@[simp] theorem stepEncChan_marks (d : Dev) (i t : Nat) (on : Bool) (f : EncChan → EncChan) : (d.stepEncChan i t on f).marks = d.marks := rfl
@[simp] theorem stepEncChan_out (d : Dev) (i t : Nat) (on : Bool) (f : EncChan → EncChan) : (d.stepEncChan i t on f).out = d.out := rfl
@[simp] theorem stepEncChan_fresh (d : Dev) (i t : Nat) (on : Bool) (f : EncChan → EncChan) : (d.stepEncChan i t on f).fresh = d.fresh := rfl
@[simp] theorem stepEncChan_low (d : Dev) (i t : Nat) (on : Bool) (f : EncChan → EncChan) : (d.stepEncChan i t on f).low = d.low := rfl
@[simp] theorem stepEncChan_cyc (d : Dev) (i t : Nat) (on : Bool) (f : EncChan → EncChan) : (d.stepEncChan i t on f).cyc = d.cyc := rfl
@[simp] theorem stepEncChan_ntq (d : Dev) (i t : Nat) (on : Bool) (f : EncChan → EncChan) : (d.stepEncChan i t on f).ntq = d.ntq := rfl
@[simp] theorem stepEncChan_aud (d : Dev) (i t : Nat) (on : Bool) (f : EncChan → EncChan) : (d.stepEncChan i t on f).aud = d.aud := rfl
@[simp] theorem stepEncChan_cad (d : Dev) (i t : Nat) (on : Bool) (f : EncChan → EncChan) : (d.stepEncChan i t on f).cad = d.cad := rfl
@[simp] theorem stepEncChan_ports (d : Dev) (i t : Nat) (on : Bool) (f : EncChan → EncChan) : (d.stepEncChan i t on f).ports = d.ports := rfl
@[simp] theorem stepEncChan_cht (d : Dev) (i t : Nat) (on : Bool) (f : EncChan → EncChan) : (d.stepEncChan i t on f).cht = d.cht := rfl
@[simp] theorem stepEncChan_clr (d : Dev) (i t : Nat) (on : Bool) (f : EncChan → EncChan) : (d.stepEncChan i t on f).clr = d.clr := rfl
@[simp] theorem stepEncChan_vlt (d : Dev) (i t : Nat) (on : Bool) (f : EncChan → EncChan) : (d.stepEncChan i t on f).vlt = d.vlt := rfl
@[simp] theorem stepEncChan_dma (d : Dev) (i t : Nat) (on : Bool) (f : EncChan → EncChan) : (d.stepEncChan i t on f).dma = d.dma := rfl
@[simp] theorem stepEncChan_hep (d : Dev) (i t : Nat) (on : Bool) (f : EncChan → EncChan) : (d.stepEncChan i t on f).hep = d.hep := rfl
@[simp] theorem stepEncChan_evr (d : Dev) (i t : Nat) (on : Bool) (f : EncChan → EncChan) : (d.stepEncChan i t on f).evr = d.evr := rfl
@[simp] theorem stepEncChan_fio (d : Dev) (i t : Nat) (on : Bool) (f : EncChan → EncChan) : (d.stepEncChan i t on f).fio = d.fio := rfl
@[simp] theorem stepEncChan_stp (d : Dev) (i t : Nat) (on : Bool) (f : EncChan → EncChan) : (d.stepEncChan i t on f).stp = d.stp := rfl
@[simp] theorem stepEncChan_mgt (d : Dev) (i t : Nat) (on : Bool) (f : EncChan → EncChan) : (d.stepEncChan i t on f).mgt = d.mgt := rfl
@[simp] theorem stepEncChan_reg (d : Dev) (i t : Nat) (on : Bool) (f : EncChan → EncChan) (r : Nat) : (d.stepEncChan i t on f).reg r = d.reg r := rfl
@[simp] theorem stepEncChan_get (d : Dev) (i t : Nat) (on : Bool) (f : EncChan → EncChan) (r : Bits) : (d.stepEncChan i t on f).get r = d.get r := rfl
@[simp] theorem stepEncChan_is (d : Dev) (i t : Nat) (on : Bool) (f : EncChan → EncChan) (r : Bits) : (d.stepEncChan i t on f).is r = d.is r := rfl
@[simp] theorem stepEncChan_get64 (d : Dev) (i t : Nat) (on : Bool) (f : EncChan → EncChan) (r : Nat) : (d.stepEncChan i t on f).get64 r = d.get64 r := rfl
@[simp] theorem stepEncChan_bitOf (d : Dev) (i t : Nat) (on : Bool) (f : EncChan → EncChan) (r j : Nat) : (d.stepEncChan i t on f).bitOf r j = d.bitOf r j := rfl

/-! ### setEncChan -/

@[simp] theorem setEncChan_time (d : Dev) (i : Nat) (f : EncChan → EncChan) : (d.setEncChan i f).time = d.time := rfl
@[simp] theorem setEncChan_frac (d : Dev) (i : Nat) (f : EncChan → EncChan) : (d.setEncChan i f).frac = d.frac := rfl
@[simp] theorem setEncChan_regs (d : Dev) (i : Nat) (f : EncChan → EncChan) : (d.setEncChan i f).regs = d.regs := rfl
@[simp] theorem setEncChan_force (d : Dev) (i : Nat) (f : EncChan → EncChan) : (d.setEncChan i f).force = d.force := rfl
@[simp] theorem setEncChan_history (d : Dev) (i : Nat) (f : EncChan → EncChan) : (d.setEncChan i f).history = d.history := rfl
@[simp] theorem setEncChan_latch (d : Dev) (i : Nat) (f : EncChan → EncChan) : (d.setEncChan i f).latch = d.latch := rfl
@[simp] theorem setEncChan_marks (d : Dev) (i : Nat) (f : EncChan → EncChan) : (d.setEncChan i f).marks = d.marks := rfl
@[simp] theorem setEncChan_out (d : Dev) (i : Nat) (f : EncChan → EncChan) : (d.setEncChan i f).out = d.out := rfl
@[simp] theorem setEncChan_fresh (d : Dev) (i : Nat) (f : EncChan → EncChan) : (d.setEncChan i f).fresh = d.fresh := rfl
@[simp] theorem setEncChan_low (d : Dev) (i : Nat) (f : EncChan → EncChan) : (d.setEncChan i f).low = d.low := rfl
@[simp] theorem setEncChan_cyc (d : Dev) (i : Nat) (f : EncChan → EncChan) : (d.setEncChan i f).cyc = d.cyc := rfl
@[simp] theorem setEncChan_ntq (d : Dev) (i : Nat) (f : EncChan → EncChan) : (d.setEncChan i f).ntq = d.ntq := rfl
@[simp] theorem setEncChan_aud (d : Dev) (i : Nat) (f : EncChan → EncChan) : (d.setEncChan i f).aud = d.aud := rfl
@[simp] theorem setEncChan_cad (d : Dev) (i : Nat) (f : EncChan → EncChan) : (d.setEncChan i f).cad = d.cad := rfl
@[simp] theorem setEncChan_ports (d : Dev) (i : Nat) (f : EncChan → EncChan) : (d.setEncChan i f).ports = d.ports := rfl
@[simp] theorem setEncChan_cht (d : Dev) (i : Nat) (f : EncChan → EncChan) : (d.setEncChan i f).cht = d.cht := rfl
@[simp] theorem setEncChan_clr (d : Dev) (i : Nat) (f : EncChan → EncChan) : (d.setEncChan i f).clr = d.clr := rfl
@[simp] theorem setEncChan_vlt (d : Dev) (i : Nat) (f : EncChan → EncChan) : (d.setEncChan i f).vlt = d.vlt := rfl
@[simp] theorem setEncChan_dma (d : Dev) (i : Nat) (f : EncChan → EncChan) : (d.setEncChan i f).dma = d.dma := rfl
@[simp] theorem setEncChan_hep (d : Dev) (i : Nat) (f : EncChan → EncChan) : (d.setEncChan i f).hep = d.hep := rfl
@[simp] theorem setEncChan_evr (d : Dev) (i : Nat) (f : EncChan → EncChan) : (d.setEncChan i f).evr = d.evr := rfl
@[simp] theorem setEncChan_fio (d : Dev) (i : Nat) (f : EncChan → EncChan) : (d.setEncChan i f).fio = d.fio := rfl
@[simp] theorem setEncChan_stp (d : Dev) (i : Nat) (f : EncChan → EncChan) : (d.setEncChan i f).stp = d.stp := rfl
@[simp] theorem setEncChan_mgt (d : Dev) (i : Nat) (f : EncChan → EncChan) : (d.setEncChan i f).mgt = d.mgt := rfl
@[simp] theorem setEncChan_reg (d : Dev) (i : Nat) (f : EncChan → EncChan) (r : Nat) : (d.setEncChan i f).reg r = d.reg r := rfl
@[simp] theorem setEncChan_get (d : Dev) (i : Nat) (f : EncChan → EncChan) (r : Bits) : (d.setEncChan i f).get r = d.get r := rfl
@[simp] theorem setEncChan_is (d : Dev) (i : Nat) (f : EncChan → EncChan) (r : Bits) : (d.setEncChan i f).is r = d.is r := rfl
@[simp] theorem setEncChan_get64 (d : Dev) (i : Nat) (f : EncChan → EncChan) (r : Nat) : (d.setEncChan i f).get64 r = d.get64 r := rfl
@[simp] theorem setEncChan_bitOf (d : Dev) (i : Nat) (f : EncChan → EncChan) (r j : Nat) : (d.setEncChan i f).bitOf r j = d.bitOf r j := rfl

/-! ### setPin -/

@[simp] theorem setPin_time (d : Dev) (p : Nat) (f : FioPin → FioPin) : (d.setPin p f).time = d.time := rfl
@[simp] theorem setPin_frac (d : Dev) (p : Nat) (f : FioPin → FioPin) : (d.setPin p f).frac = d.frac := rfl
@[simp] theorem setPin_regs (d : Dev) (p : Nat) (f : FioPin → FioPin) : (d.setPin p f).regs = d.regs := rfl
@[simp] theorem setPin_force (d : Dev) (p : Nat) (f : FioPin → FioPin) : (d.setPin p f).force = d.force := rfl
@[simp] theorem setPin_history (d : Dev) (p : Nat) (f : FioPin → FioPin) : (d.setPin p f).history = d.history := rfl
@[simp] theorem setPin_latch (d : Dev) (p : Nat) (f : FioPin → FioPin) : (d.setPin p f).latch = d.latch := rfl
@[simp] theorem setPin_marks (d : Dev) (p : Nat) (f : FioPin → FioPin) : (d.setPin p f).marks = d.marks := rfl
@[simp] theorem setPin_out (d : Dev) (p : Nat) (f : FioPin → FioPin) : (d.setPin p f).out = d.out := rfl
@[simp] theorem setPin_fresh (d : Dev) (p : Nat) (f : FioPin → FioPin) : (d.setPin p f).fresh = d.fresh := rfl
@[simp] theorem setPin_low (d : Dev) (p : Nat) (f : FioPin → FioPin) : (d.setPin p f).low = d.low := rfl
@[simp] theorem setPin_cyc (d : Dev) (p : Nat) (f : FioPin → FioPin) : (d.setPin p f).cyc = d.cyc := rfl
@[simp] theorem setPin_ntq (d : Dev) (p : Nat) (f : FioPin → FioPin) : (d.setPin p f).ntq = d.ntq := rfl
@[simp] theorem setPin_aud (d : Dev) (p : Nat) (f : FioPin → FioPin) : (d.setPin p f).aud = d.aud := rfl
@[simp] theorem setPin_cad (d : Dev) (p : Nat) (f : FioPin → FioPin) : (d.setPin p f).cad = d.cad := rfl
@[simp] theorem setPin_ports (d : Dev) (p : Nat) (f : FioPin → FioPin) : (d.setPin p f).ports = d.ports := rfl
@[simp] theorem setPin_cht (d : Dev) (p : Nat) (f : FioPin → FioPin) : (d.setPin p f).cht = d.cht := rfl
@[simp] theorem setPin_clr (d : Dev) (p : Nat) (f : FioPin → FioPin) : (d.setPin p f).clr = d.clr := rfl
@[simp] theorem setPin_vlt (d : Dev) (p : Nat) (f : FioPin → FioPin) : (d.setPin p f).vlt = d.vlt := rfl
@[simp] theorem setPin_dma (d : Dev) (p : Nat) (f : FioPin → FioPin) : (d.setPin p f).dma = d.dma := rfl
@[simp] theorem setPin_hep (d : Dev) (p : Nat) (f : FioPin → FioPin) : (d.setPin p f).hep = d.hep := rfl
@[simp] theorem setPin_evr (d : Dev) (p : Nat) (f : FioPin → FioPin) : (d.setPin p f).evr = d.evr := rfl
@[simp] theorem setPin_enc (d : Dev) (p : Nat) (f : FioPin → FioPin) : (d.setPin p f).enc = d.enc := rfl
@[simp] theorem setPin_stp (d : Dev) (p : Nat) (f : FioPin → FioPin) : (d.setPin p f).stp = d.stp := rfl
@[simp] theorem setPin_mgt (d : Dev) (p : Nat) (f : FioPin → FioPin) : (d.setPin p f).mgt = d.mgt := rfl
@[simp] theorem setPin_reg (d : Dev) (p : Nat) (f : FioPin → FioPin) (r : Nat) : (d.setPin p f).reg r = d.reg r := rfl
@[simp] theorem setPin_get (d : Dev) (p : Nat) (f : FioPin → FioPin) (r : Bits) : (d.setPin p f).get r = d.get r := rfl
@[simp] theorem setPin_is (d : Dev) (p : Nat) (f : FioPin → FioPin) (r : Bits) : (d.setPin p f).is r = d.is r := rfl
@[simp] theorem setPin_get64 (d : Dev) (p : Nat) (f : FioPin → FioPin) (r : Nat) : (d.setPin p f).get64 r = d.get64 r := rfl
@[simp] theorem setPin_bitOf (d : Dev) (p : Nat) (f : FioPin → FioPin) (r j : Nat) : (d.setPin p f).bitOf r j = d.bitOf r j := rfl

/-! ### setStrike -/

@[simp] theorem setStrike_time (d : Dev) (k : Nat) (f : Strike → Strike) : (d.setStrike k f).time = d.time := rfl
@[simp] theorem setStrike_frac (d : Dev) (k : Nat) (f : Strike → Strike) : (d.setStrike k f).frac = d.frac := rfl
@[simp] theorem setStrike_regs (d : Dev) (k : Nat) (f : Strike → Strike) : (d.setStrike k f).regs = d.regs := rfl
@[simp] theorem setStrike_force (d : Dev) (k : Nat) (f : Strike → Strike) : (d.setStrike k f).force = d.force := rfl
@[simp] theorem setStrike_history (d : Dev) (k : Nat) (f : Strike → Strike) : (d.setStrike k f).history = d.history := rfl
@[simp] theorem setStrike_latch (d : Dev) (k : Nat) (f : Strike → Strike) : (d.setStrike k f).latch = d.latch := rfl
@[simp] theorem setStrike_marks (d : Dev) (k : Nat) (f : Strike → Strike) : (d.setStrike k f).marks = d.marks := rfl
@[simp] theorem setStrike_out (d : Dev) (k : Nat) (f : Strike → Strike) : (d.setStrike k f).out = d.out := rfl
@[simp] theorem setStrike_fresh (d : Dev) (k : Nat) (f : Strike → Strike) : (d.setStrike k f).fresh = d.fresh := rfl
@[simp] theorem setStrike_low (d : Dev) (k : Nat) (f : Strike → Strike) : (d.setStrike k f).low = d.low := rfl
@[simp] theorem setStrike_cyc (d : Dev) (k : Nat) (f : Strike → Strike) : (d.setStrike k f).cyc = d.cyc := rfl
@[simp] theorem setStrike_ntq (d : Dev) (k : Nat) (f : Strike → Strike) : (d.setStrike k f).ntq = d.ntq := rfl
@[simp] theorem setStrike_aud (d : Dev) (k : Nat) (f : Strike → Strike) : (d.setStrike k f).aud = d.aud := rfl
@[simp] theorem setStrike_cad (d : Dev) (k : Nat) (f : Strike → Strike) : (d.setStrike k f).cad = d.cad := rfl
@[simp] theorem setStrike_ports (d : Dev) (k : Nat) (f : Strike → Strike) : (d.setStrike k f).ports = d.ports := rfl
@[simp] theorem setStrike_cht (d : Dev) (k : Nat) (f : Strike → Strike) : (d.setStrike k f).cht = d.cht := rfl
@[simp] theorem setStrike_clr (d : Dev) (k : Nat) (f : Strike → Strike) : (d.setStrike k f).clr = d.clr := rfl
@[simp] theorem setStrike_vlt (d : Dev) (k : Nat) (f : Strike → Strike) : (d.setStrike k f).vlt = d.vlt := rfl
@[simp] theorem setStrike_dma (d : Dev) (k : Nat) (f : Strike → Strike) : (d.setStrike k f).dma = d.dma := rfl
@[simp] theorem setStrike_hep (d : Dev) (k : Nat) (f : Strike → Strike) : (d.setStrike k f).hep = d.hep := rfl
@[simp] theorem setStrike_evr (d : Dev) (k : Nat) (f : Strike → Strike) : (d.setStrike k f).evr = d.evr := rfl
@[simp] theorem setStrike_enc (d : Dev) (k : Nat) (f : Strike → Strike) : (d.setStrike k f).enc = d.enc := rfl
@[simp] theorem setStrike_fio (d : Dev) (k : Nat) (f : Strike → Strike) : (d.setStrike k f).fio = d.fio := rfl
@[simp] theorem setStrike_mgt (d : Dev) (k : Nat) (f : Strike → Strike) : (d.setStrike k f).mgt = d.mgt := rfl
@[simp] theorem setStrike_reg (d : Dev) (k : Nat) (f : Strike → Strike) (r : Nat) : (d.setStrike k f).reg r = d.reg r := rfl
@[simp] theorem setStrike_get (d : Dev) (k : Nat) (f : Strike → Strike) (r : Bits) : (d.setStrike k f).get r = d.get r := rfl
@[simp] theorem setStrike_is (d : Dev) (k : Nat) (f : Strike → Strike) (r : Bits) : (d.setStrike k f).is r = d.is r := rfl
@[simp] theorem setStrike_get64 (d : Dev) (k : Nat) (f : Strike → Strike) (r : Nat) : (d.setStrike k f).get64 r = d.get64 r := rfl
@[simp] theorem setStrike_bitOf (d : Dev) (k : Nat) (f : Strike → Strike) (r j : Nat) : (d.setStrike k f).bitOf r j = d.bitOf r j := rfl

/-! ### setMgt -/

@[simp] theorem setMgt_time (d : Dev) (f : MgtState → MgtState) : (d.setMgt f).time = d.time := rfl
@[simp] theorem setMgt_frac (d : Dev) (f : MgtState → MgtState) : (d.setMgt f).frac = d.frac := rfl
@[simp] theorem setMgt_regs (d : Dev) (f : MgtState → MgtState) : (d.setMgt f).regs = d.regs := rfl
@[simp] theorem setMgt_force (d : Dev) (f : MgtState → MgtState) : (d.setMgt f).force = d.force := rfl
@[simp] theorem setMgt_history (d : Dev) (f : MgtState → MgtState) : (d.setMgt f).history = d.history := rfl
@[simp] theorem setMgt_latch (d : Dev) (f : MgtState → MgtState) : (d.setMgt f).latch = d.latch := rfl
@[simp] theorem setMgt_marks (d : Dev) (f : MgtState → MgtState) : (d.setMgt f).marks = d.marks := rfl
@[simp] theorem setMgt_out (d : Dev) (f : MgtState → MgtState) : (d.setMgt f).out = d.out := rfl
@[simp] theorem setMgt_fresh (d : Dev) (f : MgtState → MgtState) : (d.setMgt f).fresh = d.fresh := rfl
@[simp] theorem setMgt_low (d : Dev) (f : MgtState → MgtState) : (d.setMgt f).low = d.low := rfl
@[simp] theorem setMgt_cyc (d : Dev) (f : MgtState → MgtState) : (d.setMgt f).cyc = d.cyc := rfl
@[simp] theorem setMgt_ntq (d : Dev) (f : MgtState → MgtState) : (d.setMgt f).ntq = d.ntq := rfl
@[simp] theorem setMgt_aud (d : Dev) (f : MgtState → MgtState) : (d.setMgt f).aud = d.aud := rfl
@[simp] theorem setMgt_cad (d : Dev) (f : MgtState → MgtState) : (d.setMgt f).cad = d.cad := rfl
@[simp] theorem setMgt_ports (d : Dev) (f : MgtState → MgtState) : (d.setMgt f).ports = d.ports := rfl
@[simp] theorem setMgt_cht (d : Dev) (f : MgtState → MgtState) : (d.setMgt f).cht = d.cht := rfl
@[simp] theorem setMgt_clr (d : Dev) (f : MgtState → MgtState) : (d.setMgt f).clr = d.clr := rfl
@[simp] theorem setMgt_vlt (d : Dev) (f : MgtState → MgtState) : (d.setMgt f).vlt = d.vlt := rfl
@[simp] theorem setMgt_dma (d : Dev) (f : MgtState → MgtState) : (d.setMgt f).dma = d.dma := rfl
@[simp] theorem setMgt_hep (d : Dev) (f : MgtState → MgtState) : (d.setMgt f).hep = d.hep := rfl
@[simp] theorem setMgt_evr (d : Dev) (f : MgtState → MgtState) : (d.setMgt f).evr = d.evr := rfl
@[simp] theorem setMgt_enc (d : Dev) (f : MgtState → MgtState) : (d.setMgt f).enc = d.enc := rfl
@[simp] theorem setMgt_fio (d : Dev) (f : MgtState → MgtState) : (d.setMgt f).fio = d.fio := rfl
@[simp] theorem setMgt_stp (d : Dev) (f : MgtState → MgtState) : (d.setMgt f).stp = d.stp := rfl
@[simp] theorem setMgt_reg (d : Dev) (f : MgtState → MgtState) (r : Nat) : (d.setMgt f).reg r = d.reg r := rfl
@[simp] theorem setMgt_get (d : Dev) (f : MgtState → MgtState) (r : Bits) : (d.setMgt f).get r = d.get r := rfl
@[simp] theorem setMgt_is (d : Dev) (f : MgtState → MgtState) (r : Bits) : (d.setMgt f).is r = d.is r := rfl
@[simp] theorem setMgt_get64 (d : Dev) (f : MgtState → MgtState) (r : Nat) : (d.setMgt f).get64 r = d.get64 r := rfl
@[simp] theorem setMgt_bitOf (d : Dev) (f : MgtState → MgtState) (r j : Nat) : (d.setMgt f).bitOf r j = d.bitOf r j := rfl
@[simp] theorem setMgt_mgt (d : Dev) (f : MgtState → MgtState) : (d.setMgt f).mgt = f d.mgt := rfl

/-! ### setSession -/

@[simp] theorem setSession_time (d : Dev) (n : Nat) (f : Session → Session) : (d.setSession n f).time = d.time := rfl
@[simp] theorem setSession_frac (d : Dev) (n : Nat) (f : Session → Session) : (d.setSession n f).frac = d.frac := rfl
@[simp] theorem setSession_regs (d : Dev) (n : Nat) (f : Session → Session) : (d.setSession n f).regs = d.regs := rfl
@[simp] theorem setSession_force (d : Dev) (n : Nat) (f : Session → Session) : (d.setSession n f).force = d.force := rfl
@[simp] theorem setSession_history (d : Dev) (n : Nat) (f : Session → Session) : (d.setSession n f).history = d.history := rfl
@[simp] theorem setSession_latch (d : Dev) (n : Nat) (f : Session → Session) : (d.setSession n f).latch = d.latch := rfl
@[simp] theorem setSession_marks (d : Dev) (n : Nat) (f : Session → Session) : (d.setSession n f).marks = d.marks := rfl
@[simp] theorem setSession_out (d : Dev) (n : Nat) (f : Session → Session) : (d.setSession n f).out = d.out := rfl
@[simp] theorem setSession_fresh (d : Dev) (n : Nat) (f : Session → Session) : (d.setSession n f).fresh = d.fresh := rfl
@[simp] theorem setSession_low (d : Dev) (n : Nat) (f : Session → Session) : (d.setSession n f).low = d.low := rfl
@[simp] theorem setSession_cyc (d : Dev) (n : Nat) (f : Session → Session) : (d.setSession n f).cyc = d.cyc := rfl
@[simp] theorem setSession_ntq (d : Dev) (n : Nat) (f : Session → Session) : (d.setSession n f).ntq = d.ntq := rfl
@[simp] theorem setSession_aud (d : Dev) (n : Nat) (f : Session → Session) : (d.setSession n f).aud = d.aud := rfl
@[simp] theorem setSession_cad (d : Dev) (n : Nat) (f : Session → Session) : (d.setSession n f).cad = d.cad := rfl
@[simp] theorem setSession_ports (d : Dev) (n : Nat) (f : Session → Session) : (d.setSession n f).ports = d.ports := rfl
@[simp] theorem setSession_cht (d : Dev) (n : Nat) (f : Session → Session) : (d.setSession n f).cht = d.cht := rfl
@[simp] theorem setSession_clr (d : Dev) (n : Nat) (f : Session → Session) : (d.setSession n f).clr = d.clr := rfl
@[simp] theorem setSession_vlt (d : Dev) (n : Nat) (f : Session → Session) : (d.setSession n f).vlt = d.vlt := rfl
@[simp] theorem setSession_dma (d : Dev) (n : Nat) (f : Session → Session) : (d.setSession n f).dma = d.dma := rfl
@[simp] theorem setSession_hep (d : Dev) (n : Nat) (f : Session → Session) : (d.setSession n f).hep = d.hep := rfl
@[simp] theorem setSession_evr (d : Dev) (n : Nat) (f : Session → Session) : (d.setSession n f).evr = d.evr := rfl
@[simp] theorem setSession_enc (d : Dev) (n : Nat) (f : Session → Session) : (d.setSession n f).enc = d.enc := rfl
@[simp] theorem setSession_fio (d : Dev) (n : Nat) (f : Session → Session) : (d.setSession n f).fio = d.fio := rfl
@[simp] theorem setSession_stp (d : Dev) (n : Nat) (f : Session → Session) : (d.setSession n f).stp = d.stp := rfl
@[simp] theorem setSession_reg (d : Dev) (n : Nat) (f : Session → Session) (r : Nat) : (d.setSession n f).reg r = d.reg r := rfl
@[simp] theorem setSession_get (d : Dev) (n : Nat) (f : Session → Session) (r : Bits) : (d.setSession n f).get r = d.get r := rfl
@[simp] theorem setSession_is (d : Dev) (n : Nat) (f : Session → Session) (r : Bits) : (d.setSession n f).is r = d.is r := rfl
@[simp] theorem setSession_get64 (d : Dev) (n : Nat) (f : Session → Session) (r : Nat) : (d.setSession n f).get64 r = d.get64 r := rfl
@[simp] theorem setSession_bitOf (d : Dev) (n : Nat) (f : Session → Session) (r j : Nat) : (d.setSession n f).bitOf r j = d.bitOf r j := rfl

/-! ### setKey -/

@[simp] theorem setKey_time (d : Dev) (f : Key → Key) : (d.setKey f).time = d.time := rfl
@[simp] theorem setKey_frac (d : Dev) (f : Key → Key) : (d.setKey f).frac = d.frac := rfl
@[simp] theorem setKey_regs (d : Dev) (f : Key → Key) : (d.setKey f).regs = d.regs := rfl
@[simp] theorem setKey_force (d : Dev) (f : Key → Key) : (d.setKey f).force = d.force := rfl
@[simp] theorem setKey_history (d : Dev) (f : Key → Key) : (d.setKey f).history = d.history := rfl
@[simp] theorem setKey_latch (d : Dev) (f : Key → Key) : (d.setKey f).latch = d.latch := rfl
@[simp] theorem setKey_marks (d : Dev) (f : Key → Key) : (d.setKey f).marks = d.marks := rfl
@[simp] theorem setKey_out (d : Dev) (f : Key → Key) : (d.setKey f).out = d.out := rfl
@[simp] theorem setKey_fresh (d : Dev) (f : Key → Key) : (d.setKey f).fresh = d.fresh := rfl
@[simp] theorem setKey_low (d : Dev) (f : Key → Key) : (d.setKey f).low = d.low := rfl
@[simp] theorem setKey_cyc (d : Dev) (f : Key → Key) : (d.setKey f).cyc = d.cyc := rfl
@[simp] theorem setKey_ntq (d : Dev) (f : Key → Key) : (d.setKey f).ntq = d.ntq := rfl
@[simp] theorem setKey_aud (d : Dev) (f : Key → Key) : (d.setKey f).aud = d.aud := rfl
@[simp] theorem setKey_cad (d : Dev) (f : Key → Key) : (d.setKey f).cad = d.cad := rfl
@[simp] theorem setKey_ports (d : Dev) (f : Key → Key) : (d.setKey f).ports = d.ports := rfl
@[simp] theorem setKey_cht (d : Dev) (f : Key → Key) : (d.setKey f).cht = d.cht := rfl
@[simp] theorem setKey_clr (d : Dev) (f : Key → Key) : (d.setKey f).clr = d.clr := rfl
@[simp] theorem setKey_vlt (d : Dev) (f : Key → Key) : (d.setKey f).vlt = d.vlt := rfl
@[simp] theorem setKey_dma (d : Dev) (f : Key → Key) : (d.setKey f).dma = d.dma := rfl
@[simp] theorem setKey_hep (d : Dev) (f : Key → Key) : (d.setKey f).hep = d.hep := rfl
@[simp] theorem setKey_evr (d : Dev) (f : Key → Key) : (d.setKey f).evr = d.evr := rfl
@[simp] theorem setKey_enc (d : Dev) (f : Key → Key) : (d.setKey f).enc = d.enc := rfl
@[simp] theorem setKey_fio (d : Dev) (f : Key → Key) : (d.setKey f).fio = d.fio := rfl
@[simp] theorem setKey_stp (d : Dev) (f : Key → Key) : (d.setKey f).stp = d.stp := rfl
@[simp] theorem setKey_reg (d : Dev) (f : Key → Key) (r : Nat) : (d.setKey f).reg r = d.reg r := rfl
@[simp] theorem setKey_get (d : Dev) (f : Key → Key) (r : Bits) : (d.setKey f).get r = d.get r := rfl
@[simp] theorem setKey_is (d : Dev) (f : Key → Key) (r : Bits) : (d.setKey f).is r = d.is r := rfl
@[simp] theorem setKey_get64 (d : Dev) (f : Key → Key) (r : Nat) : (d.setKey f).get64 r = d.get64 r := rfl
@[simp] theorem setKey_bitOf (d : Dev) (f : Key → Key) (r j : Nat) : (d.setKey f).bitOf r j = d.bitOf r j := rfl

/-! ### noteAct -/

@[simp] theorem noteAct_time (d : Dev) (n : Nat) : (d.noteAct n).time = d.time := rfl
@[simp] theorem noteAct_frac (d : Dev) (n : Nat) : (d.noteAct n).frac = d.frac := rfl
@[simp] theorem noteAct_regs (d : Dev) (n : Nat) : (d.noteAct n).regs = d.regs := rfl
@[simp] theorem noteAct_force (d : Dev) (n : Nat) : (d.noteAct n).force = d.force := rfl
@[simp] theorem noteAct_history (d : Dev) (n : Nat) : (d.noteAct n).history = d.history := rfl
@[simp] theorem noteAct_latch (d : Dev) (n : Nat) : (d.noteAct n).latch = d.latch := rfl
@[simp] theorem noteAct_marks (d : Dev) (n : Nat) : (d.noteAct n).marks = d.marks := rfl
@[simp] theorem noteAct_out (d : Dev) (n : Nat) : (d.noteAct n).out = d.out := rfl
@[simp] theorem noteAct_fresh (d : Dev) (n : Nat) : (d.noteAct n).fresh = d.fresh := rfl
@[simp] theorem noteAct_low (d : Dev) (n : Nat) : (d.noteAct n).low = d.low := rfl
@[simp] theorem noteAct_cyc (d : Dev) (n : Nat) : (d.noteAct n).cyc = d.cyc := rfl
@[simp] theorem noteAct_ntq (d : Dev) (n : Nat) : (d.noteAct n).ntq = d.ntq := rfl
@[simp] theorem noteAct_aud (d : Dev) (n : Nat) : (d.noteAct n).aud = d.aud := rfl
@[simp] theorem noteAct_cad (d : Dev) (n : Nat) : (d.noteAct n).cad = d.cad := rfl
@[simp] theorem noteAct_ports (d : Dev) (n : Nat) : (d.noteAct n).ports = d.ports := rfl
@[simp] theorem noteAct_cht (d : Dev) (n : Nat) : (d.noteAct n).cht = d.cht := rfl
@[simp] theorem noteAct_clr (d : Dev) (n : Nat) : (d.noteAct n).clr = d.clr := rfl
@[simp] theorem noteAct_vlt (d : Dev) (n : Nat) : (d.noteAct n).vlt = d.vlt := rfl
@[simp] theorem noteAct_dma (d : Dev) (n : Nat) : (d.noteAct n).dma = d.dma := rfl
@[simp] theorem noteAct_hep (d : Dev) (n : Nat) : (d.noteAct n).hep = d.hep := rfl
@[simp] theorem noteAct_enc (d : Dev) (n : Nat) : (d.noteAct n).enc = d.enc := rfl
@[simp] theorem noteAct_fio (d : Dev) (n : Nat) : (d.noteAct n).fio = d.fio := rfl
@[simp] theorem noteAct_stp (d : Dev) (n : Nat) : (d.noteAct n).stp = d.stp := rfl
@[simp] theorem noteAct_mgt (d : Dev) (n : Nat) : (d.noteAct n).mgt = d.mgt := rfl
@[simp] theorem noteAct_reg (d : Dev) (n : Nat) (r : Nat) : (d.noteAct n).reg r = d.reg r := rfl
@[simp] theorem noteAct_get (d : Dev) (n : Nat) (r : Bits) : (d.noteAct n).get r = d.get r := rfl
@[simp] theorem noteAct_is (d : Dev) (n : Nat) (r : Bits) : (d.noteAct n).is r = d.is r := rfl
@[simp] theorem noteAct_get64 (d : Dev) (n : Nat) (r : Nat) : (d.noteAct n).get64 r = d.get64 r := rfl
@[simp] theorem noteAct_bitOf (d : Dev) (n : Nat) (r j : Nat) : (d.noteAct n).bitOf r j = d.bitOf r j := rfl

/-! ### channelWritten -/

@[simp] theorem channelWritten_time (d : Dev) (e : Nat) (old : Word) : (d.channelWritten e old).time = d.time := rfl
@[simp] theorem channelWritten_frac (d : Dev) (e : Nat) (old : Word) : (d.channelWritten e old).frac = d.frac := rfl
@[simp] theorem channelWritten_regs (d : Dev) (e : Nat) (old : Word) : (d.channelWritten e old).regs = d.regs := rfl
@[simp] theorem channelWritten_force (d : Dev) (e : Nat) (old : Word) : (d.channelWritten e old).force = d.force := rfl
@[simp] theorem channelWritten_history (d : Dev) (e : Nat) (old : Word) : (d.channelWritten e old).history = d.history := rfl
@[simp] theorem channelWritten_latch (d : Dev) (e : Nat) (old : Word) : (d.channelWritten e old).latch = d.latch := rfl
@[simp] theorem channelWritten_marks (d : Dev) (e : Nat) (old : Word) : (d.channelWritten e old).marks = d.marks := rfl
@[simp] theorem channelWritten_out (d : Dev) (e : Nat) (old : Word) : (d.channelWritten e old).out = d.out := rfl
@[simp] theorem channelWritten_fresh (d : Dev) (e : Nat) (old : Word) : (d.channelWritten e old).fresh = d.fresh := rfl
@[simp] theorem channelWritten_low (d : Dev) (e : Nat) (old : Word) : (d.channelWritten e old).low = d.low := rfl
@[simp] theorem channelWritten_cyc (d : Dev) (e : Nat) (old : Word) : (d.channelWritten e old).cyc = d.cyc := rfl
@[simp] theorem channelWritten_ntq (d : Dev) (e : Nat) (old : Word) : (d.channelWritten e old).ntq = d.ntq := rfl
@[simp] theorem channelWritten_aud (d : Dev) (e : Nat) (old : Word) : (d.channelWritten e old).aud = d.aud := rfl
@[simp] theorem channelWritten_cad (d : Dev) (e : Nat) (old : Word) : (d.channelWritten e old).cad = d.cad := rfl
@[simp] theorem channelWritten_ports (d : Dev) (e : Nat) (old : Word) : (d.channelWritten e old).ports = d.ports := rfl
@[simp] theorem channelWritten_cht (d : Dev) (e : Nat) (old : Word) : (d.channelWritten e old).cht = d.cht := rfl
@[simp] theorem channelWritten_clr (d : Dev) (e : Nat) (old : Word) : (d.channelWritten e old).clr = d.clr := rfl
@[simp] theorem channelWritten_vlt (d : Dev) (e : Nat) (old : Word) : (d.channelWritten e old).vlt = d.vlt := rfl
@[simp] theorem channelWritten_dma (d : Dev) (e : Nat) (old : Word) : (d.channelWritten e old).dma = d.dma := rfl
@[simp] theorem channelWritten_hep (d : Dev) (e : Nat) (old : Word) : (d.channelWritten e old).hep = d.hep := rfl
@[simp] theorem channelWritten_enc (d : Dev) (e : Nat) (old : Word) : (d.channelWritten e old).enc = d.enc := rfl
@[simp] theorem channelWritten_fio (d : Dev) (e : Nat) (old : Word) : (d.channelWritten e old).fio = d.fio := rfl
@[simp] theorem channelWritten_stp (d : Dev) (e : Nat) (old : Word) : (d.channelWritten e old).stp = d.stp := rfl
@[simp] theorem channelWritten_mgt (d : Dev) (e : Nat) (old : Word) : (d.channelWritten e old).mgt = d.mgt := rfl
@[simp] theorem channelWritten_reg (d : Dev) (e : Nat) (old : Word) (r : Nat) : (d.channelWritten e old).reg r = d.reg r := rfl
@[simp] theorem channelWritten_get (d : Dev) (e : Nat) (old : Word) (r : Bits) : (d.channelWritten e old).get r = d.get r := rfl
@[simp] theorem channelWritten_is (d : Dev) (e : Nat) (old : Word) (r : Bits) : (d.channelWritten e old).is r = d.is r := rfl
@[simp] theorem channelWritten_get64 (d : Dev) (e : Nat) (old : Word) (r : Nat) : (d.channelWritten e old).get64 r = d.get64 r := rfl
@[simp] theorem channelWritten_bitOf (d : Dev) (e : Nat) (old : Word) (r j : Nat) : (d.channelWritten e old).bitOf r j = d.bitOf r j := rfl

/-! ### setEscrow -/

@[simp] theorem setEscrow_time (d : Dev) (f : Escrow → Escrow) : (d.setEscrow f).time = d.time := rfl
@[simp] theorem setEscrow_frac (d : Dev) (f : Escrow → Escrow) : (d.setEscrow f).frac = d.frac := rfl
@[simp] theorem setEscrow_regs (d : Dev) (f : Escrow → Escrow) : (d.setEscrow f).regs = d.regs := rfl
@[simp] theorem setEscrow_force (d : Dev) (f : Escrow → Escrow) : (d.setEscrow f).force = d.force := rfl
@[simp] theorem setEscrow_history (d : Dev) (f : Escrow → Escrow) : (d.setEscrow f).history = d.history := rfl
@[simp] theorem setEscrow_latch (d : Dev) (f : Escrow → Escrow) : (d.setEscrow f).latch = d.latch := rfl
@[simp] theorem setEscrow_marks (d : Dev) (f : Escrow → Escrow) : (d.setEscrow f).marks = d.marks := rfl
@[simp] theorem setEscrow_out (d : Dev) (f : Escrow → Escrow) : (d.setEscrow f).out = d.out := rfl
@[simp] theorem setEscrow_fresh (d : Dev) (f : Escrow → Escrow) : (d.setEscrow f).fresh = d.fresh := rfl
@[simp] theorem setEscrow_low (d : Dev) (f : Escrow → Escrow) : (d.setEscrow f).low = d.low := rfl
@[simp] theorem setEscrow_cyc (d : Dev) (f : Escrow → Escrow) : (d.setEscrow f).cyc = d.cyc := rfl
@[simp] theorem setEscrow_ntq (d : Dev) (f : Escrow → Escrow) : (d.setEscrow f).ntq = d.ntq := rfl
@[simp] theorem setEscrow_aud (d : Dev) (f : Escrow → Escrow) : (d.setEscrow f).aud = d.aud := rfl
@[simp] theorem setEscrow_cad (d : Dev) (f : Escrow → Escrow) : (d.setEscrow f).cad = d.cad := rfl
@[simp] theorem setEscrow_ports (d : Dev) (f : Escrow → Escrow) : (d.setEscrow f).ports = d.ports := rfl
@[simp] theorem setEscrow_cht (d : Dev) (f : Escrow → Escrow) : (d.setEscrow f).cht = d.cht := rfl
@[simp] theorem setEscrow_clr (d : Dev) (f : Escrow → Escrow) : (d.setEscrow f).clr = d.clr := rfl
@[simp] theorem setEscrow_vlt (d : Dev) (f : Escrow → Escrow) : (d.setEscrow f).vlt = d.vlt := rfl
@[simp] theorem setEscrow_dma (d : Dev) (f : Escrow → Escrow) : (d.setEscrow f).dma = d.dma := rfl
@[simp] theorem setEscrow_hep (d : Dev) (f : Escrow → Escrow) : (d.setEscrow f).hep = d.hep := rfl
@[simp] theorem setEscrow_evr (d : Dev) (f : Escrow → Escrow) : (d.setEscrow f).evr = d.evr := rfl
@[simp] theorem setEscrow_enc (d : Dev) (f : Escrow → Escrow) : (d.setEscrow f).enc = d.enc := rfl
@[simp] theorem setEscrow_fio (d : Dev) (f : Escrow → Escrow) : (d.setEscrow f).fio = d.fio := rfl
@[simp] theorem setEscrow_stp (d : Dev) (f : Escrow → Escrow) : (d.setEscrow f).stp = d.stp := rfl
@[simp] theorem setEscrow_reg (d : Dev) (f : Escrow → Escrow) (r : Nat) : (d.setEscrow f).reg r = d.reg r := rfl
@[simp] theorem setEscrow_get (d : Dev) (f : Escrow → Escrow) (r : Bits) : (d.setEscrow f).get r = d.get r := rfl
@[simp] theorem setEscrow_is (d : Dev) (f : Escrow → Escrow) (r : Bits) : (d.setEscrow f).is r = d.is r := rfl
@[simp] theorem setEscrow_get64 (d : Dev) (f : Escrow → Escrow) (r : Nat) : (d.setEscrow f).get64 r = d.get64 r := rfl
@[simp] theorem setEscrow_bitOf (d : Dev) (f : Escrow → Escrow) (r j : Nat) : (d.setEscrow f).bitOf r j = d.bitOf r j := rfl

/-! ### setAttest -/

@[simp] theorem setAttest_time (d : Dev) (f : Attest → Attest) : (d.setAttest f).time = d.time := rfl
@[simp] theorem setAttest_frac (d : Dev) (f : Attest → Attest) : (d.setAttest f).frac = d.frac := rfl
@[simp] theorem setAttest_regs (d : Dev) (f : Attest → Attest) : (d.setAttest f).regs = d.regs := rfl
@[simp] theorem setAttest_force (d : Dev) (f : Attest → Attest) : (d.setAttest f).force = d.force := rfl
@[simp] theorem setAttest_history (d : Dev) (f : Attest → Attest) : (d.setAttest f).history = d.history := rfl
@[simp] theorem setAttest_latch (d : Dev) (f : Attest → Attest) : (d.setAttest f).latch = d.latch := rfl
@[simp] theorem setAttest_marks (d : Dev) (f : Attest → Attest) : (d.setAttest f).marks = d.marks := rfl
@[simp] theorem setAttest_out (d : Dev) (f : Attest → Attest) : (d.setAttest f).out = d.out := rfl
@[simp] theorem setAttest_fresh (d : Dev) (f : Attest → Attest) : (d.setAttest f).fresh = d.fresh := rfl
@[simp] theorem setAttest_low (d : Dev) (f : Attest → Attest) : (d.setAttest f).low = d.low := rfl
@[simp] theorem setAttest_cyc (d : Dev) (f : Attest → Attest) : (d.setAttest f).cyc = d.cyc := rfl
@[simp] theorem setAttest_ntq (d : Dev) (f : Attest → Attest) : (d.setAttest f).ntq = d.ntq := rfl
@[simp] theorem setAttest_aud (d : Dev) (f : Attest → Attest) : (d.setAttest f).aud = d.aud := rfl
@[simp] theorem setAttest_cad (d : Dev) (f : Attest → Attest) : (d.setAttest f).cad = d.cad := rfl
@[simp] theorem setAttest_ports (d : Dev) (f : Attest → Attest) : (d.setAttest f).ports = d.ports := rfl
@[simp] theorem setAttest_cht (d : Dev) (f : Attest → Attest) : (d.setAttest f).cht = d.cht := rfl
@[simp] theorem setAttest_clr (d : Dev) (f : Attest → Attest) : (d.setAttest f).clr = d.clr := rfl
@[simp] theorem setAttest_vlt (d : Dev) (f : Attest → Attest) : (d.setAttest f).vlt = d.vlt := rfl
@[simp] theorem setAttest_dma (d : Dev) (f : Attest → Attest) : (d.setAttest f).dma = d.dma := rfl
@[simp] theorem setAttest_hep (d : Dev) (f : Attest → Attest) : (d.setAttest f).hep = d.hep := rfl
@[simp] theorem setAttest_evr (d : Dev) (f : Attest → Attest) : (d.setAttest f).evr = d.evr := rfl
@[simp] theorem setAttest_enc (d : Dev) (f : Attest → Attest) : (d.setAttest f).enc = d.enc := rfl
@[simp] theorem setAttest_fio (d : Dev) (f : Attest → Attest) : (d.setAttest f).fio = d.fio := rfl
@[simp] theorem setAttest_stp (d : Dev) (f : Attest → Attest) : (d.setAttest f).stp = d.stp := rfl
@[simp] theorem setAttest_reg (d : Dev) (f : Attest → Attest) (r : Nat) : (d.setAttest f).reg r = d.reg r := rfl
@[simp] theorem setAttest_get (d : Dev) (f : Attest → Attest) (r : Bits) : (d.setAttest f).get r = d.get r := rfl
@[simp] theorem setAttest_is (d : Dev) (f : Attest → Attest) (r : Bits) : (d.setAttest f).is r = d.is r := rfl
@[simp] theorem setAttest_get64 (d : Dev) (f : Attest → Attest) (r : Nat) : (d.setAttest f).get64 r = d.get64 r := rfl
@[simp] theorem setAttest_bitOf (d : Dev) (f : Attest → Attest) (r j : Nat) : (d.setAttest f).bitOf r j = d.bitOf r j := rfl

end Sys2Proof.Machine.Dev
end

