-- ==== Sys2Proof/Laws/Tab.lean ====
section
/-! SUPPORT. Laws of sparse tables: what a table holds after a write, and that writes keep the canonical form. -/

namespace Sys2Proof.Machine.Tab

variable {α : Type}

theorem get_erase (z : Nat → α) (t : Tab α) (k j : Nat) :
    Tab.get z (Tab.erase t k) j = if k = j then z j else Tab.get z t j := by
  induction t with
  | nil => simp [Tab.erase, Tab.get]
  | cons e t ih =>
    obtain ⟨i, v⟩ := e
    by_cases h : i = k
    · subst h
      simp only [Tab.erase, if_true, ih, Tab.get]
      split <;> simp_all
    · simp only [Tab.erase, h, if_false, Tab.get, ih]
      split <;> split <;> simp_all

theorem get_insert (z : Nat → α) (t : Tab α) (k : Nat) (a : α) (j : Nat) :
    Tab.get z (Tab.insert t k a) j = if k = j then a else Tab.get z t j := by
  induction t with
  | nil => simp [Tab.insert, Tab.get]
  | cons e t ih =>
    obtain ⟨i, v⟩ := e
    simp only [Tab.insert]
    split
    · simp [Tab.get]
    · split
      · next h => subst h; simp only [Tab.get]; split <;> simp_all
      · simp only [Tab.get, ih]; split <;> split <;> simp_all

/-- What a table holds after a write. -/
theorem get_set [DecidableEq α] (z : Nat → α) (t : Tab α) (k : Nat) (a : α) (j : Nat) :
    Tab.get z (Tab.set z t k a) j = if k = j then a else Tab.get z t j := by
  unfold Tab.set
  split
  · next h => rw [get_erase]; split <;> simp_all
  · exact get_insert z t k a j

@[simp] theorem get_set_same [DecidableEq α] (z : Nat → α) (t : Tab α) (k : Nat) (a : α) :
    Tab.get z (Tab.set z t k a) k = a := by simp [get_set]

theorem get_set_ne [DecidableEq α] (z : Nat → α) (t : Tab α) {k j : Nat} (a : α) (h : k ≠ j) :
    Tab.get z (Tab.set z t k a) j = Tab.get z t j := by simp [get_set, h]

@[simp] theorem get_upd_same [DecidableEq α] (z : Nat → α) (t : Tab α) (k : Nat) (f : α → α) :
    Tab.get z (Tab.upd z t k f) k = f (Tab.get z t k) := by simp [Tab.upd]

theorem get_upd [DecidableEq α] (z : Nat → α) (t : Tab α) (k : Nat) (f : α → α) (j : Nat) :
    Tab.get z (Tab.upd z t k f) j = if k = j then f (Tab.get z t k) else Tab.get z t j := by simp [Tab.upd, get_set]

/-- Past its last key a table reads as unlisted. -/
theorem get_past (z : Nat → α) {t : Tab α} {n i : Nat} (h : ∀ e ∈ t, e.1 < n) (k : n ≤ i) : Tab.get z t i = z i := by
  induction t with
  | nil => rfl
  | cons e t ih =>
    have he := h e List.mem_cons_self
    simp only [Tab.get]
    split <;> first | omega | exact ih fun x hx => h x (List.mem_cons_of_mem _ hx)

theorem erase_mem {t : Tab α} {k : Nat} {e : Nat × α} (h : e ∈ Tab.erase t k) : e ∈ t := by
  induction t with
  | nil => exact h
  | cons x t ih =>
    obtain ⟨i, v⟩ := x
    simp only [Tab.erase] at h
    split at h
    · exact List.mem_cons_of_mem _ (ih h)
    · rcases List.mem_cons.mp h with h | h
      · exact h ▸ List.mem_cons_self
      · exact List.mem_cons_of_mem _ (ih h)

theorem insert_mem {t : Tab α} {k : Nat} {a : α} {e : Nat × α} (h : e ∈ Tab.insert t k a) : e = (k, a) ∨ e ∈ t := by
  induction t with
  | nil => simpa [Tab.insert] using h
  | cons x t ih =>
    obtain ⟨i, v⟩ := x
    simp only [Tab.insert] at h
    split at h
    · simpa using h
    · split at h
      · rcases List.mem_cons.mp h with h | h
        · exact .inl h
        · exact .inr (List.mem_cons_of_mem _ h)
      · rcases List.mem_cons.mp h with h | h
        · exact .inr (h ▸ List.mem_cons_self)
        · rcases ih h with h | h
          · exact .inl h
          · exact .inr (List.mem_cons_of_mem _ h)

theorem wf_erase [DecidableEq α] (z : Nat → α) (t : Tab α) (k : Nat) (h : Tab.wf z t = true) : Tab.wf z (Tab.erase t k) = true := by
  induction t with
  | nil => rfl
  | cons x t ih =>
    obtain ⟨i, v⟩ := x
    simp only [Tab.wf, Bool.and_eq_true, List.all_eq_true, decide_eq_true_eq] at h
    simp only [Tab.erase]
    split
    · exact ih h.2
    · simp only [Tab.wf, Bool.and_eq_true, List.all_eq_true, decide_eq_true_eq]
      exact ⟨⟨h.1.1, fun e he => h.1.2 e (erase_mem he)⟩, ih h.2⟩

theorem wf_insert [DecidableEq α] (z : Nat → α) (t : Tab α) (k : Nat) (a : α) (ha : a ≠ z k) (h : Tab.wf z t = true) :
    Tab.wf z (Tab.insert t k a) = true := by
  induction t with
  | nil => simp [Tab.insert, Tab.wf, ha]
  | cons x t ih =>
    obtain ⟨i, v⟩ := x
    have h' := h
    simp only [Tab.wf, Bool.and_eq_true, List.all_eq_true, decide_eq_true_eq] at h
    simp only [Tab.insert]
    split
    · next hk =>
      simp only [Tab.wf, Bool.and_eq_true, List.all_eq_true, decide_eq_true_eq] at h' ⊢
      refine ⟨⟨by simpa using ha, fun e he => ?_⟩, h'⟩
      rcases List.mem_cons.mp he with he | he
      · exact he ▸ hk
      · exact lt_trans hk (h.1.2 e he)
    · split
      · next hk =>
        subst hk
        simp only [Tab.wf, Bool.and_eq_true, List.all_eq_true, decide_eq_true_eq]
        exact ⟨⟨by simpa using ha, h.1.2⟩, h.2⟩
      · next h1 h2 =>
        simp only [Tab.wf, Bool.and_eq_true, List.all_eq_true, decide_eq_true_eq]
        refine ⟨⟨h.1.1, fun e he => ?_⟩, ih h.2⟩
        rcases insert_mem he with he | he
        · subst he; simp only; omega
        · exact h.1.2 e he

/-- A write keeps the canonical form. -/
theorem wf_set [DecidableEq α] (z : Nat → α) (t : Tab α) (k : Nat) (a : α) (h : Tab.wf z t = true) :
    Tab.wf z (Tab.set z t k a) = true := by
  unfold Tab.set
  split
  · exact wf_erase z t k h
  · next ha => exact wf_insert z t k a ha h

end Sys2Proof.Machine.Tab
end

