-- ==== Sys2Proof/Laws/Registers.lean ====
section
/-! SUPPORT. Laws of registers and their fields: what a register or a field holds after a write of it or of another. -/

namespace Sys2Proof.Machine

/-- Two fields share no bit. -/
def apart (f g : Bits) : Prop := f.off ≠ g.off ∨ f.lo + f.w ≤ g.lo ∨ g.lo + g.w ≤ f.lo

/-- A register's word with a field replaced, bit by bit. -/
theorem testBit_replace (x : Word) (lo w n i : Nat) (h : lo + w ≤ 32) :
    (word ((x.toNat - (x.toNat &&& ((2 ^ w - 1) <<< lo))) + ((n % 2 ^ w) <<< lo))).getLsbD i =
      if lo ≤ i ∧ i < lo + w then n.testBit (i - lo) else x.getLsbD i := by
  have hp : 2 ^ w * 2 ^ lo ≤ 2 ^ 32 := by rw [← pow_add]; exact Nat.pow_le_pow_right (by omega) (by omega)
  have h1 : (2 ^ w - 1) <<< lo < 2 ^ 32 := by
    rw [Nat.shiftLeft_eq]
    have := Nat.two_pow_pos w; have := Nat.two_pow_pos lo
    have : (2 ^ w - 1) * 2 ^ lo < 2 ^ w * 2 ^ lo := Nat.mul_lt_mul_of_pos_right (by omega) (by omega)
    omega
  have h2 : (n % 2 ^ w) <<< lo < 2 ^ 32 := by
    rw [Nat.shiftLeft_eq]
    have := Nat.two_pow_pos lo
    have : (n % 2 ^ w) * 2 ^ lo < 2 ^ w * 2 ^ lo := Nat.mul_lt_mul_of_pos_right (Nat.mod_lt _ (Nat.two_pow_pos w)) (by omega)
    omega
  obtain ⟨m, hm⟩ : ∃ m : Word, m.toNat = (2 ^ w - 1) <<< lo := ⟨BitVec.ofNat 32 ((2 ^ w - 1) <<< lo), by rw [BitVec.toNat_ofNat, Nat.mod_eq_of_lt h1]⟩
  obtain ⟨v, hv⟩ : ∃ v : Word, v.toNat = (n % 2 ^ w) <<< lo := ⟨BitVec.ofNat 32 ((n % 2 ^ w) <<< lo), by rw [BitVec.toNat_ofNat, Nat.mod_eq_of_lt h2]⟩
  have hmb : ∀ j, m.getLsbD j = (decide (lo ≤ j) && decide (j - lo < w)) := by
    intro j; rw [← BitVec.testBit_toNat, hm, Nat.testBit_shiftLeft, Nat.testBit_two_pow_sub_one]
  have hvb : ∀ j, v.getLsbD j = (decide (lo ≤ j) && (decide (j - lo < w) && n.testBit (j - lo))) := by
    intro j; rw [← BitVec.testBit_toNat, hv, Nat.testBit_shiftLeft, Nat.testBit_mod_two_pow]
  have e1 : x - (x &&& m) = x &&& ~~~m := by
    have : (x &&& ~~~m) + (x &&& m) = x := by
      rw [BitVec.add_eq_or_of_and_eq_zero]
      · ext j; simp only [BitVec.getElem_and, BitVec.getElem_or, BitVec.getElem_not, BitVec.getElem_zero]; cases x[j] <;> cases m[j] <;> rfl
      · ext j; simp only [BitVec.getElem_and, BitVec.getElem_or, BitVec.getElem_not, BitVec.getElem_zero]; cases x[j] <;> cases m[j] <;> rfl
    conv => lhs; lhs; rw [← this]
    simp
  have e2 : word ((x.toNat - (x.toNat &&& ((2 ^ w - 1) <<< lo))) + ((n % 2 ^ w) <<< lo)) = (x &&& ~~~m) ||| v := by
    rw [← BitVec.add_eq_or_of_and_eq_zero, ← e1]
    · apply BitVec.eq_of_toNat_eq
      have hle : x.toNat &&& m.toNat ≤ x.toNat := Nat.and_le_left
      rw [← hm, ← hv, word, BitVec.toNat_ofNat, BitVec.toNat_add, BitVec.toNat_sub, BitVec.toNat_and]
      have := x.isLt
      rw [show 2 ^ 32 - (x.toNat &&& m.toNat) + x.toNat = (x.toNat - (x.toNat &&& m.toNat)) + 2 ^ 32 by omega, Nat.add_mod_right,
        Nat.mod_add_mod]
    · ext j hj
      have a1 := hmb j
      have a2 := hvb j
      rw [BitVec.getLsbD_eq_getElem hj] at a1 a2
      simp only [BitVec.getElem_and, BitVec.getElem_not, BitVec.getElem_zero, a1, a2]
      cases decide (lo ≤ j) <;> cases decide (j - lo < w) <;> simp
  rw [e2]
  simp only [BitVec.getLsbD_or, BitVec.getLsbD_and, BitVec.getLsbD_not, hmb, hvb]
  by_cases hi : lo ≤ i ∧ i < lo + w
  · have : i - lo < w := by omega
    simp [hi, this]
  · rw [if_neg hi]
    by_cases h3 : i < 32
    · by_cases h4 : lo ≤ i
      · have : ¬ i - lo < w := by omega
        simp [h3, h4, this]
      · simp [h3, h4]
    · simp [h3, BitVec.getLsbD_of_ge _ _ (Nat.le_of_not_lt h3)]
      omega

theorem testBit_slice (n lo w i : Nat) : (slice n lo w).testBit i = (decide (i < w) && n.testBit (lo + i)) := by
  rw [slice, Nat.testBit_mod_two_pow, Nat.testBit_shiftRight]

namespace Dev

/-- A register after a write of one register. -/
theorem reg_setReg (d : Dev) (a : Nat) (v : Word) (b : Nat) : (d.setReg a v).reg b = if a = b then v else d.reg b :=
  Tab.get_set _ _ _ _ _

@[simp] theorem reg_setReg_same (d : Dev) (a : Nat) (v : Word) : (d.setReg a v).reg a = v := by simp [reg_setReg]

theorem reg_setReg_ne (d : Dev) {a b : Nat} (v : Word) (h : a ≠ b) : (d.setReg a v).reg b = d.reg b := by simp [reg_setReg, h]

theorem reg_put_ne (d : Dev) (f : Bits) (n : Nat) {b : Nat} (h : f.off ≠ b) : (d.put f n).reg b = d.reg b := reg_setReg_ne d _ h

/-- A bit of the register after a write of one of its fields. -/
theorem reg_put_bit (d : Dev) (f : Bits) (n i : Nat) (h : f.lo + f.w ≤ 32) :
    ((d.put f n).reg f.off).getLsbD i = if f.lo ≤ i ∧ i < f.lo + f.w then n.testBit (i - f.lo) else (d.reg f.off).getLsbD i := by
  have : (d.put f n).reg f.off =
      word (((d.reg f.off).toNat - ((d.reg f.off).toNat &&& ((2 ^ f.w - 1) <<< f.lo))) + ((n % 2 ^ f.w) <<< f.lo)) :=
    reg_setReg_same d _ _
  rw [this]; exact testBit_replace _ _ _ _ _ h

/-- A field after a write of it: the value, in the field's width. -/
theorem get_put_same (d : Dev) (f : Bits) (n : Nat) (h : f.lo + f.w ≤ 32) : (d.put f n).get f = n % 2 ^ f.w := by
  apply Nat.eq_of_testBit_eq; intro i
  rw [get, testBit_slice, BitVec.testBit_toNat, reg_put_bit d f n _ h, Nat.testBit_mod_two_pow]
  by_cases hi : i < f.w
  · rw [if_pos (by omega)]; simp [hi]
  · simp [hi]

/-- A field after a write of another that shares no bit with it. -/
theorem get_put_apart (d : Dev) (f g : Bits) (n : Nat) (h : f.lo + f.w ≤ 32) (ha : apart f g) : (d.put f n).get g = d.get g := by
  by_cases ho : f.off = g.off
  · apply Nat.eq_of_testBit_eq; intro i
    rw [get, get, testBit_slice, testBit_slice, BitVec.testBit_toNat, BitVec.testBit_toNat, ← ho, reg_put_bit d f n _ h]
    by_cases hi : i < g.w
    · rw [if_neg (by rcases ha with ha | ha | ha <;> first | exact absurd ho ha | omega)]
    · simp [hi]
  · rw [get, get, reg_put_ne d f n ho]

theorem is_put_apart (d : Dev) (f g : Bits) (n : Nat) (h : f.lo + f.w ≤ 32) (ha : apart f g) : (d.put f n).is g = d.is g := by
  rw [is, is, get_put_apart d f g n h ha]

/-- A field after a write of a register it does not lie in. -/
theorem get_setReg_ne (d : Dev) {a : Nat} (v : Word) (g : Bits) (h : a ≠ g.off) : (d.setReg a v).get g = d.get g := by
  rw [get, get, reg_setReg_ne d v h]

theorem is_setReg_ne (d : Dev) {a : Nat} (v : Word) (g : Bits) (h : a ≠ g.off) : (d.setReg a v).is g = d.is g := by
  rw [is, is, get_setReg_ne d v g h]

/-- A register after a write of a pair it does not lie in. -/
theorem reg_put64_ne (d : Dev) {a : Nat} (n : Nat) {b : Nat} (h : a ≠ b) (h' : a + 4 ≠ b) : (d.put64 a n).reg b = d.reg b := by
  rw [put64, reg_setReg_ne _ _ h', reg_setReg_ne _ _ h]

theorem reg_countBy_ne (d : Dev) {a : Nat} (k : Nat) {b : Nat} (h : a ≠ b) (h' : a + 4 ≠ b) : (d.countBy a k).reg b = d.reg b :=
  reg_put64_ne d _ h h'

theorem reg_count_ne (d : Dev) {a b : Nat} (h : a ≠ b) (h' : a + 4 ≠ b) : (d.count a).reg b = d.reg b := reg_put64_ne d _ h h'

/-- A pair after a write of it: the value modulo 2^64. -/
theorem get64_put64_same (d : Dev) (a n : Nat) : (d.put64 a n).get64 a = n % 2 ^ 64 := by
  have h1 : (d.put64 a n).reg a = word n := by rw [put64, reg_setReg_ne _ _ (by omega), reg_setReg_same]
  have h2 : (d.put64 a n).reg (a + 4) = BitVec.extractLsb' 32 32 (BitVec.ofNat 64 n) := by rw [put64, reg_setReg_same]
  unfold get64
  rw [h1, h2, word]
  apply Nat.eq_of_testBit_eq; intro i
  rw [BitVec.testBit_toNat, BitVec.getLsbD_append, Nat.testBit_mod_two_pow]
  by_cases hi : i < 32
  · rw [if_pos hi, BitVec.getLsbD_ofNat]; simp [hi, show i < 64 by omega]
  · by_cases h64 : i < 64
    · rw [if_neg hi, BitVec.getLsbD_extractLsb', BitVec.getLsbD_ofNat]
      simp [h64, show i - 32 < 32 by omega, show 32 + (i - 32) = i by omega]
    · rw [if_neg hi, BitVec.getLsbD_extractLsb']; simp [h64, show ¬ i - 32 < 32 by omega]

/-- A counter after counting: modulo 2^64 (R30). -/
theorem get64_countBy_same (d : Dev) (a k : Nat) : (d.countBy a k).get64 a = (d.get64 a + k) % 2 ^ 64 := get64_put64_same d a _

theorem get64_count_same (d : Dev) (a : Nat) : (d.count a).get64 a = (d.get64 a + 1) % 2 ^ 64 := get64_put64_same d a _

/-- A pair after writes elsewhere. -/
theorem get64_setReg_ne (d : Dev) {a : Nat} (v : Word) {b : Nat} (h : a ≠ b) (h' : a ≠ b + 4) : (d.setReg a v).get64 b = d.get64 b := by
  have h1 := reg_setReg_ne d v h
  have h2 := reg_setReg_ne d v h'
  unfold get64; rw [h1, h2]

theorem get64_put_ne (d : Dev) (f : Bits) (n : Nat) {b : Nat} (h : f.off ≠ b) (h' : f.off ≠ b + 4) : (d.put f n).get64 b = d.get64 b :=
  get64_setReg_ne d _ h h'

theorem get64_put64_ne (d : Dev) {a : Nat} (n : Nat) {b : Nat} (h : a ≠ b) (h1 : a + 4 ≠ b) (h2 : a ≠ b + 4) :
    (d.put64 a n).get64 b = d.get64 b := by
  have e1 := reg_put64_ne d n h h1
  have e2 := reg_put64_ne d n h2 (show a + 4 ≠ b + 4 by omega)
  unfold get64; rw [e1, e2]

theorem get64_count_ne (d : Dev) {a b : Nat} (h : a ≠ b) (h1 : a + 4 ≠ b) (h2 : a ≠ b + 4) : (d.count a).get64 b = d.get64 b :=
  get64_put64_ne d _ h h1 h2

theorem get_put64_ne (d : Dev) {a : Nat} (n : Nat) (g : Bits) (h : a ≠ g.off) (h' : a + 4 ≠ g.off) : (d.put64 a n).get g = d.get g := by
  rw [get, get, reg_put64_ne d n h h']

theorem get_count_ne (d : Dev) {a : Nat} (g : Bits) (h : a ≠ g.off) (h' : a + 4 ≠ g.off) : (d.count a).get g = d.get g :=
  get_put64_ne d _ g h h'

@[simp] theorem when_true (d : Dev) (f : Dev → Dev) : d.when true f = f d := rfl
@[simp] theorem when_false (d : Dev) (f : Dev → Dev) : d.when false f = d := rfl

end Dev
end Sys2Proof.Machine
end

