-- ==== Sys2Proof/Laws/Vault.lean ====
section
/-! SUPPORT. Laws of the vault: reading after writing, and that every write keeps the canonical form. -/

namespace Sys2Proof.Machine.Vault

/-- Every write keeps the canonical form. -/
theorem wf_write (m : Vault) (a : Nat) (l : List Byte) (h : Vault.wf m = true) : Vault.wf (Vault.write m a l) = true := by
  induction l generalizing m a with
  | nil => exact h
  | cons b t ih => exact ih _ _ (Tab.wf_set _ m a b h)

theorem wf_writeAll (m : Vault) (l : List (Nat × List Byte)) (h : Vault.wf m = true) : Vault.wf (Vault.writeAll m l) = true := by
  induction l generalizing m with
  | nil => exact h
  | cons e t ih => exact ih _ (wf_write m e.1 e.2 h)

@[simp] theorem writeAll_nil (m : Vault) : Vault.writeAll m [] = m := rfl

/-- A byte after a write of one byte. -/
theorem byte_set (m : Vault) (a : Nat) (b : Byte) (k : Nat) :
    Vault.byte (Tab.set (fun _ => (0 : Byte)) m a b) k = if a = k then b else Vault.byte m k := Tab.get_set _ m a b k

/-- A byte outside the bytes written keeps its value. -/
theorem byte_write_outside (m : Vault) (a : Nat) (l : List Byte) (k : Nat) (h : k < a ∨ a + l.length ≤ k) :
    Vault.byte (Vault.write m a l) k = Vault.byte m k := by
  induction l generalizing m a with
  | nil => rfl
  | cons b t ih =>
    simp only [List.length_cons] at h
    rw [Vault.write, ih _ _ (by omega), byte_set, if_neg (by omega)]

/-- A byte inside the bytes written has the value written. -/
theorem byte_write_inside (m : Vault) (a : Nat) (l : List Byte) (i : Nat) (h : i < l.length) :
    Vault.byte (Vault.write m a l) (a + i) = l[i] := by
  induction l generalizing m a i with
  | nil => simp at h
  | cons b t ih =>
    cases i with
    | zero => rw [Vault.write, byte_write_outside _ _ _ _ (by omega), byte_set, if_pos (by omega)]; rfl
    | succ i =>
      have := ih (Tab.set (fun _ => (0 : Byte)) m a b) (a + 1) i (by simpa using h)
      rw [Vault.write, show a + (i + 1) = a + 1 + i by omega, this]; rfl

/-- Reading the range that has been written gives the bytes written. -/
theorem read_write (m : Vault) (a : Nat) (l : List Byte) : Vault.read (Vault.write m a l) a l.length = l := by
  apply List.ext_getElem
  · simp [Vault.read]
  · intro i h1 h2
    simp only [Vault.read, List.getElem_map, List.getElem_range]
    exact byte_write_inside m a l i h2

end Sys2Proof.Machine.Vault
end

