-- ==== Sys2Proof/Laws/Run.lean ====
section
/-! SUPPORT. Laws of running a command: what every command answers, and that it leaves the queue alone and the vault canonical. -/

namespace Sys2Proof.Machine

/-! ### The device with its vault writes taken -/

theorem Dev.flushed_eq (d : Dev) (h : d.vlt.writes = []) : d.flushed = d := by
  obtain ⟨w, _⟩ := d.vlt; cases d; simp_all [Dev.flushed]; rename_i v _ _ _ _ _ _ _; cases v; simp_all

@[simp] theorem State.settleTo_pending (s : State) (d : Dev) : (s.settleTo d).pending = s.pending := rfl
@[simp] theorem State.settleTo_vault (s : State) (d : Dev) : (s.settleTo d).vault = Vault.writeAll s.vault d.vlt.writes := rfl
theorem State.settleTo_dev (s : State) (d : Dev) : (s.settleTo d).dev = d.flushed := rfl

theorem State.settleTo_self (s : State) (h : s.dev.vlt.writes = []) : s.settleTo s.dev = s := by
  cases s; simp_all [State.settleTo, Dev.flushed_eq]

theorem Dev.settle_eq (d : Dev) (h : d.mgt.escrow.commit = none) : d.settle = d := by simp [Dev.settle, h]

theorem State.settled_eq (s : State) (h : s.Ready) : s.settled = s := by
  rw [State.settled, Dev.settle_eq _ h.2.1, State.settleTo_self _ h.2.2]

/-! ### Answers -/

/-- While SYS_RST_N is low nothing happens. -/
theorem State.runWith_low (s : State) (f : Vault → Dev → Dev) (h : s.dev.low = true) : s.runWith f = .next s := by
  simp [State.runWith, h]

/-- Otherwise the command acts on the settled state. -/
theorem State.runWith_high (s : State) (f : Vault → Dev → Dev) (h : s.dev.low = false) :
    s.runWith f = .next (s.settled.settleTo (f s.settled.vault s.settled.dev)) := by simp [State.runWith, h]

theorem State.runWith_ready (s : State) (f : Vault → Dev → Dev) (h : s.Ready) :
    s.runWith f = .next (s.settleTo (f s.vault s.dev)) := by
  rw [State.runWith_high s f h.1, State.settled_eq s h]

theorem State.run_ready (s : State) (f : Dev → Dev) (h : s.Ready) : s.run f = .next (s.settleTo (f s.dev)) :=
  State.runWith_ready s _ h

/-- Everything a command can answer: a next state, with the queue untouched and the vault the old one after writes. -/
theorem State.runWith_answers (s : State) (f : Vault → Dev → Dev) :
    ∃ t, s.runWith f = .next t ∧ t.pending = s.pending ∧ (s.Sound → t.Sound) := by
  by_cases h : s.dev.low = true
  · exact ⟨s, State.runWith_low s f h, rfl, id⟩
  · refine ⟨_, State.runWith_high s f (by simpa using h), rfl, fun hs => ⟨?_, rfl⟩⟩
    exact Vault.wf_writeAll _ _ (Vault.wf_writeAll _ _ hs.1)

theorem State.run_answers (s : State) (f : Dev → Dev) : ∃ t, s.run f = .next t ∧ t.pending = s.pending ∧ (s.Sound → t.Sound) :=
  State.runWith_answers s _

end Sys2Proof.Machine
end

