-- ==== Sys2Proof/Laws/Writes.lean ====
section
/-! SUPPORT. Laws of register writes: when a write reaches its register, and what a write of a command bit does. -/

namespace Sys2Proof.Machine

/-- A list of register addresses as a frame. -/
theorem State.Keeps.mono {s t : State} {p q : Nat → Prop} (h : s.Keeps t p) (hpq : ∀ a, p a → q a) : s.Keeps t q :=
  ⟨h.1, h.2.1, h.2.2.1, fun a ha => h.2.2.2 a fun hp => ha (hpq a hp)⟩

/-- A command that writes no byte of the vault keeps everything but the registers it changes. -/
theorem State.settleTo_keeps (s : State) (d : Dev) (p : Nat → Prop) (hw : d.vlt.writes = []) (ht : d.time = s.dev.time)
    (hr : ∀ a, ¬ p a → d.reg a = s.dev.reg a) : s.Keeps (s.settleTo d) p :=
  ⟨rfl, fun a => by rw [State.settleTo_vault, hw, Vault.writeAll_nil], ht, hr⟩

namespace Dev

@[simp] theorem flushed_reg (d : Dev) (a : Nat) : d.flushed.reg a = d.reg a := rfl
@[simp] theorem flushed_get (d : Dev) (f : Bits) : d.flushed.get f = d.get f := rfl
@[simp] theorem flushed_is (d : Dev) (f : Bits) : d.flushed.is f = d.is f := rfl
@[simp] theorem flushed_get64 (d : Dev) (a : Nat) : d.flushed.get64 a = d.get64 a := rfl
@[simp] theorem flushed_bitOf (d : Dev) (a i : Nat) : d.flushed.bitOf a i = d.bitOf a i := rfl

/-- Storing the word a register holds changes no register. -/
@[simp] theorem reg_setReg_self (d : Dev) (a b : Nat) : (d.setReg a (d.reg a)).reg b = d.reg b := by
  rw [reg_setReg]; split
  · next h => rw [h]
  · rfl

@[simp] theorem get_setReg_self (d : Dev) (a : Nat) (f : Bits) : (d.setReg a (d.reg a)).get f = d.get f := by rw [get, get, reg_setReg_self]
@[simp] theorem is_setReg_self (d : Dev) (a : Nat) (f : Bits) : (d.setReg a (d.reg a)).is f = d.is f := by rw [is, is, get_setReg_self]
@[simp] theorem get64_setReg_self (d : Dev) (a b : Nat) : (d.setReg a (d.reg a)).get64 b = d.get64 b := by
  rw [get64, get64, reg_setReg_self, reg_setReg_self]
@[simp] theorem bitOf_setReg_self (d : Dev) (a b i : Nat) : (d.setReg a (d.reg a)).bitOf b i = d.bitOf b i := by
  rw [bitOf, bitOf, reg_setReg_self]

/-- An admitted write passes the gate. -/
theorem gatePassed_admitted (d : Dev) (r : Requester) (off a : Nat) (val touch ones' : Word) (h : d.Admits r a) :
    d.gatePassed r off a val touch ones' = d.regWrite r off a val touch ones' := by
  unfold gatePassed
  by_cases hr : r = .host
  · obtain ⟨h1, h2, h3⟩ := h hr
    have : (!d.gateOpen && !d.ungated a) = false := by rcases h3 with h | h <;> simp [h]
    simp [hr, h1, h2, this]
  · simp [hr]

/-- A value equal to the one held passes every check. -/
theorem checked_same (d : Dev) (a : Nat) (w : Word) : d.checked a w w = (d, w) := by
  unfold checked
  generalize d.fieldChecks a = l
  induction l with
  | nil => rfl
  | cons c l ih => simpa using ih

/-- Whether a field is a command bit: a one-bit W1S field of a register without lockable fields. -/
def isCommand (f : Bits) : Bool :=
  match regRow f.off with
  | none => false
  | some row => f.w = 1 && decide (f.lo < 32) && f.off != DCT_LOCK.addr
      && (row.fields.all fun x => match x.access with | .rwl _ => false | _ => true)
      && row.mask (fun x => x = .rw || x = .wo) &&& f.mask = 0
      && f.mask &&& row.mask (· = .w1c) = 0 && f.mask &&& row.mask (· = .w1s) = f.mask
      && f.mask &&& row.mask (fun x => x = .w1c || x = .w1s) = f.mask

theorem mask_bit (f : Bits) (h : f.w = 1) (hl : f.lo < 32) (i : Nat) : f.mask.getLsbD i = decide (i = f.lo) := by
  rw [Bits.mask, h, word, BitVec.getLsbD_ofNat, Nat.testBit_shiftLeft]
  by_cases hi : i = f.lo
  · subst hi; simp [hl]
  · have : (2 ^ 1 - 1).testBit (i - f.lo) = decide (i - f.lo < 1) := Nat.testBit_two_pow_sub_one 1 _
    rw [this]
    by_cases h2 : f.lo ≤ i
    · have : ¬ i - f.lo < 1 := by omega
      simp [hi]; omega
    · simp [hi]; omega

theorem into_bit (f : Bits) (w : Word) (v i : Nat) (h : f.lo + f.w ≤ 32) :
    (f.into w v).getLsbD i = if f.lo ≤ i ∧ i < f.lo + f.w then v.testBit (i - f.lo) else w.getLsbD i :=
  testBit_replace w f.lo f.w v i h

theorem mask_foldl_congr (p q : Access → Bool) (l : List Field) (h : ∀ x ∈ l, p x.access = q x.access) (m : Word) :
    l.foldl (fun m f => if p f.access then m ||| f.mask else m) m = l.foldl (fun m f => if q f.access then m ||| f.mask else m) m := by
  induction l generalizing m with
  | nil => rfl
  | cons x t ih =>
    simp only [List.foldl_cons]
    rw [h x (by simp), ih fun y hy => h y (by simp [hy])]

theorem RegRow.mask_congr (row : RegRow) (p q : Access → Bool) (h : ∀ x ∈ row.fields, p x.access = q x.access) : row.mask p = row.mask q :=
  mask_foldl_congr p q row.fields h 0

/-- An admitted write of 1 to a command bit: the word held is stored again and the register's action runs. -/
theorem press_admitted (d : Dev) (r : Requester) (f : Bits) (h : d.Admits r f.off) (hf : isCommand f = true) :
    d.press r f = d.landWrite f.off (d.reg f.off) (d.reg f.off) f.mask f.mask := by
  unfold isCommand at hf
  split at hf
  · simp at hf
  · next row hrow =>
    simp only [Bool.and_eq_true, decide_eq_true_eq, bne_iff_ne, ne_eq, List.all_eq_true] at hf
    obtain ⟨⟨⟨⟨⟨⟨⟨hw, hlo⟩, hlock⟩, hall⟩, hrw⟩, hc⟩, hs⟩, ht⟩ := hf
    have hnl : ∀ x ∈ row.fields, ∀ n, x.access ≠ .rwl n := by
      intro x hx n he; have := hall x hx; rw [he] at this; simp at this
    have hm : f.mask &&& f.into (d.reg f.off) 1 = f.mask := by
      apply BitVec.eq_of_getLsbD_eq; intro i _
      rw [BitVec.getLsbD_and, mask_bit f hw hlo, into_bit _ _ _ _ (by omega), hw]
      by_cases hi : i = f.lo
      · subst hi; simp
      · simp [hi]
    have hin : ∀ m : Word, m &&& f.mask = 0 → f.into (d.reg f.off) 1 &&& m = d.reg f.off &&& m := by
      intro m hm0
      apply BitVec.eq_of_getLsbD_eq; intro i _
      rw [BitVec.getLsbD_and, BitVec.getLsbD_and, into_bit _ _ _ _ (by omega), hw]
      by_cases hi : i = f.lo
      · have : (m &&& f.mask).getLsbD i = false := by rw [hm0]; simp
        rw [BitVec.getLsbD_and, mask_bit f hw hlo] at this
        subst hi; simp at this; simp [this]
      · rw [if_neg (by omega)]
    rw [press, fieldWrite, gatePassed_admitted d r _ _ _ _ _ h, regWrite, hrow]
    have e1 : row.mask d.locks = 0 := by
      rw [RegRow.mask_congr row _ (fun _ => false)]
      · simp only [RegRow.mask]; generalize (0 : Word) = z; induction row.fields generalizing z <;> simp_all
      · intro x hx; have := hnl x hx; revert this; cases x.access <;> simp [locks]
    have e2 : row.mask d.stores = row.mask (fun x => x = .rw || x = .wo) := by
      apply RegRow.mask_congr
      intro x hx; have := hnl x hx; revert this; cases x.access <;> simp [stores]
    have z : ∀ x : Word, (x &&& (0 : Word) != 0) = false := by intro x; simp
    generalize hR : row.mask (fun x => decide (x = .rw) || decide (x = .wo)) = R at *
    simp only [e1, z, when_false, hlock, if_false, e2, hm, hs, hc]
    have hn : (d.reg f.off &&& ~~~R ||| f.into (d.reg f.off) 1 &&& R) &&& ~~~(0 : Word) = d.reg f.off := by
      rw [hin R hrw, show ~~~(0 : Word) = BitVec.allOnes 32 from rfl, BitVec.and_allOnes]
      ext j; simp only [BitVec.getElem_and, BitVec.getElem_or, BitVec.getElem_not]; cases (d.reg f.off)[j] <;> cases R[j] <;> rfl
    have ht2 : f.mask &&& (R ||| row.mask fun x => decide (x = .w1c) || decide (x = .w1s)) = f.mask := by
      have h1 : f.mask &&& R = 0 := by rw [BitVec.and_comm]; exact hrw
      rw [BitVec.and_or_distrib_left, h1, ht]; simp
    rw [show (0 : Word) &&& ~~~d.setsOf f.off = 0 by simp, hn, ht2]

/-- A command bit of an ordinary register: the register's action runs on a device whose registers read the same. -/
theorem press_runs (d : Dev) (r : Requester) (f : Bits) (h : d.Admits r f.off) (hf : isCommand f = true) (hst : isStaged f.off = false)
    (hw : d.wholeRefused f.off (d.reg f.off) = none)
    (hsp : d.specialWrite f.off (d.reg f.off) (d.reg f.off) f.mask f.mask = none) (hp : f.off < 0x7_0000 ∨ 0x7_0100 ≤ f.off) :
    d.press r f =
      ((d.noteWrite f.off f.mask).setReg f.off (d.reg f.off)).writeHook f.off (d.reg f.off) (d.reg f.off) f.mask f.mask := by
  rw [press_admitted d r f h hf, landWrite, hst, hw, hsp, checked_same]
  have : ¬ (0x7_0000 ≤ f.off ∧ f.off < 0x7_0100) := by omega
  simp [this]

end Dev
end Sys2Proof.Machine
end

