-- ==== Sys2Proof/Laws/Frame.lean ====
section
/-! SUPPORT. The frame of an operation on the device: the registers outside a set, device time and the vault writes outstanding stay.
One lemma per shared operation; the frame of a longer operation is their composition. -/

namespace Sys2Proof.Machine

/-- From `d` to `e`, only registers that `P` names change, device time stays and no vault write is added. -/
def Dev.Frame (P : Nat → Prop) (d e : Dev) : Prop :=
  e.vlt.writes = d.vlt.writes ∧ e.time = d.time ∧ e.low = d.low ∧ ∀ a, ¬ P a → e.reg a = d.reg a

namespace Dev.Frame

variable {P Q : Nat → Prop} {d e : Dev}

theorem refl (P : Nat → Prop) (d : Dev) : Frame P d d := ⟨rfl, rfl, rfl, fun _ _ => rfl⟩

theorem trans {g : Dev} (h : Frame P d e) (k : Frame P e g) : Frame P d g :=
  ⟨k.1.trans h.1, k.2.1.trans h.2.1, k.2.2.1.trans h.2.2.1, fun a ha => (k.2.2.2 a ha).trans (h.2.2.2 a ha)⟩

theorem mono (h : Frame P d e) (hpq : ∀ a, P a → Q a) : Frame Q d e :=
  ⟨h.1, h.2.1, h.2.2.1, fun a ha => h.2.2.2 a fun hp => ha (hpq a hp)⟩

theorem setReg {a : Nat} (v : Word) (h : Frame P d e) (ha : P a) : Frame P d (e.setReg a v) :=
  ⟨h.1, h.2.1, h.2.2.1, fun b hb => (reg_setReg_ne e v (fun he : a = b => hb (he ▸ ha))).trans (h.2.2.2 b hb)⟩

/-- Storing the word a register holds. -/
theorem setReg_self (a : Nat) (h : Frame P d e) : Frame P d (e.setReg a (e.reg a)) :=
  ⟨h.1, h.2.1, h.2.2.1, fun b hb => (reg_setReg_self e a b).trans (h.2.2.2 b hb)⟩

theorem put {f : Bits} (n : Nat) (h : Frame P d e) (ha : P f.off) : Frame P d (e.put f n) := h.setReg _ ha
theorem set1 {f : Bits} (h : Frame P d e) (ha : P f.off) : Frame P d (e.set1 f) := h.setReg _ ha
theorem unset {f : Bits} (h : Frame P d e) (ha : P f.off) : Frame P d (e.unset f) := h.setReg _ ha
theorem setBit {a : Nat} (i : Nat) (h : Frame P d e) (ha : P a) : Frame P d (e.setBit a i) := h.setReg _ ha
theorem clrBit {a : Nat} (i : Nat) (h : Frame P d e) (ha : P a) : Frame P d (e.clrBit a i) := h.setReg _ ha
theorem put64 {a : Nat} (n : Nat) (h : Frame P d e) (ha : P a) (hb : P (a + 4)) : Frame P d (e.put64 a n) := (h.setReg _ ha).setReg _ hb
theorem countBy {a : Nat} (k : Nat) (h : Frame P d e) (ha : P a) (hb : P (a + 4)) : Frame P d (e.countBy a k) := h.put64 _ ha hb
theorem count {a : Nat} (h : Frame P d e) (ha : P a) (hb : P (a + 4)) : Frame P d (e.count a) := h.put64 _ ha hb

/-- An operation on other state. -/
theorem other {g : Dev} (h : Frame P d e) (hw : g.vlt.writes = e.vlt.writes) (ht : g.time = e.time) (hl : g.low = e.low) (hr : g.regs = e.regs) :
    Frame P d g :=
  ⟨hw.trans h.1, ht.trans h.2.1, hl.trans h.2.2.1, fun a ha => by rw [← h.2.2.2 a ha, reg, reg, hr]⟩

theorem stamp (m : Mark) (h : Frame P d e) : Frame P d (e.stamp m) := h.other rfl rfl rfl rfl
theorem unmark (m : Mark) (h : Frame P d e) : Frame P d (e.unmark m) := h.other rfl rfl rfl rfl
theorem emit (o : Out) (h : Frame P d e) : Frame P d (e.emit o) := h.other rfl rfl rfl rfl
theorem draw (h : Frame P d e) : Frame P d e.draw := h.other rfl rfl rfl rfl
theorem notice (c : Cls) (b code arg : Nat) (h : Frame P d e) : Frame P d (e.notice c b code arg) := h.other rfl rfl rfl rfl
theorem setClassRing (q c : Nat) (l : List Notice) (h : Frame P d e) : Frame P d (e.setClassRing q c l) := h.other rfl rfl rfl rfl
theorem fireHop (src hop : Nat) (h : Frame P d e) : Frame P d (e.fireHop src hop) := h.other rfl rfl rfl rfl
theorem fire (src : Nat) (h : Frame P d e) : Frame P d (e.fire src) := h.other rfl rfl rfl rfl
theorem setEvr (f : EvrState → EvrState) (h : Frame P d e) : Frame P d (e.setEvr f) := h.other rfl rfl rfl rfl
theorem setNtq (f : NtqState → NtqState) (h : Frame P d e) : Frame P d (e.setNtq f) := h.other rfl rfl rfl rfl
theorem setAud (f : AudState → AudState) (h : Frame P d e) : Frame P d (e.setAud f) := h.other rfl rfl rfl rfl
theorem setClr (f : ClrState → ClrState) (h : Frame P d e) : Frame P d (e.setClr f) := h.other rfl rfl rfl rfl
theorem setVlt (f : VltState → VltState) (h : Frame P d e) (hf : (f e.vlt).writes = e.vlt.writes) : Frame P d (e.setVlt f) := h.other hf rfl rfl rfl
theorem setHep (f : HepState → HepState) (h : Frame P d e) : Frame P d (e.setHep f) := h.other rfl rfl rfl rfl
theorem setEnc (f : EncState → EncState) (h : Frame P d e) : Frame P d (e.setEnc f) := h.other rfl rfl rfl rfl
theorem setStp (f : StpState → StpState) (h : Frame P d e) : Frame P d (e.setStp f) := h.other rfl rfl rfl rfl
theorem toForce (a : Nat) (h : Frame P d e) : Frame P d (e.toForce a) := h.other rfl rfl rfl rfl
theorem unpoison (a n : Nat) (h : Frame P d e) : Frame P d (e.unpoison a n) := h.other rfl rfl rfl rfl
theorem setCad (f : CadState → CadState) (h : Frame P d e) : Frame P d (e.setCad f) := h.other rfl rfl rfl rfl
theorem setPort (p : Nat) (f : Port → Port) (h : Frame P d e) : Frame P d (e.setPort p f) := h.other rfl rfl rfl rfl
theorem setPk (p : Nat) (f : Packets → Packets) (h : Frame P d e) : Frame P d (e.setPk p f) := h.other rfl rfl rfl rfl
theorem setLink (p : Nat) (f : Link → Link) (h : Frame P d e) : Frame P d (e.setLink p f) := h.other rfl rfl rfl rfl
theorem setRng (p : Nat) (f : Ranging → Ranging) (h : Frame P d e) : Frame P d (e.setRng p f) := h.other rfl rfl rfl rfl
theorem setColumn (k : Nat) (f : Column → Column) (h : Frame P d e) : Frame P d (e.setColumn k f) := h.other rfl rfl rfl rfl
theorem setTeller (t : Nat) (f : Teller → Teller) (h : Frame P d e) : Frame P d (e.setTeller t f) := h.other rfl rfl rfl rfl
theorem storeSet (t i v : Nat) (h : Frame P d e) : Frame P d (e.storeSet t i v) := h.other rfl rfl rfl rfl
theorem setFrame (id : Nat) (f : Machine.Frame → Machine.Frame) (h : Frame P d e) : Frame P d (e.setFrame id f) := h.other rfl rfl rfl rfl
theorem setRing (r : Nat) (f : Ring → Ring) (h : Frame P d e) : Frame P d (e.setRing r f) := h.other rfl rfl rfl rfl
theorem setReplay (k : Nat) (f : Replay → Replay) (h : Frame P d e) : Frame P d (e.setReplay k f) := h.other rfl rfl rfl rfl
theorem setChan (c : Nat) (f : Chan → Chan) (h : Frame P d e) : Frame P d (e.setChan c f) := h.other rfl rfl rfl rfl
theorem setCfg (a : Nat) (w : Word) (h : Frame P d e) : Frame P d (e.setCfg a w) := h.other rfl rfl rfl rfl
theorem putCfgBit (a i : Nat) (b : Bool) (h : Frame P d e) : Frame P d (e.putCfgBit a i b) := h.other rfl rfl rfl rfl
theorem setEncChan (i : Nat) (f : EncChan → EncChan) (h : Frame P d e) : Frame P d (e.setEncChan i f) := h.other rfl rfl rfl rfl
theorem setPin (p : Nat) (f : FioPin → FioPin) (h : Frame P d e) : Frame P d (e.setPin p f) := h.other rfl rfl rfl rfl
theorem setStrike (k : Nat) (f : Strike → Strike) (h : Frame P d e) : Frame P d (e.setStrike k f) := h.other rfl rfl rfl rfl
theorem setMgt (f : MgtState → MgtState) (h : Frame P d e) : Frame P d (e.setMgt f) := h.other rfl rfl rfl rfl
theorem setSession (n : Nat) (f : Session → Session) (h : Frame P d e) : Frame P d (e.setSession n f) := h.other rfl rfl rfl rfl
theorem setKey (f : Key → Key) (h : Frame P d e) : Frame P d (e.setKey f) := h.other rfl rfl rfl rfl
theorem setEscrow (f : Escrow → Escrow) (h : Frame P d e) : Frame P d (e.setEscrow f) := h.other rfl rfl rfl rfl
theorem setAttest (f : Attest → Attest) (h : Frame P d e) : Frame P d (e.setAttest f) := h.other rfl rfl rfl rfl

theorem when' (c : Bool) (f : Dev → Dev) (h : Frame P d e) (hf : c = true → Frame P e (f e)) : Frame P d (e.when c f) := by
  unfold Dev.when; split
  · exact h.trans (hf ‹_›)
  · exact h

theorem atMost (m : Mark) (period : Nat) (f : Dev → Dev) (h : Frame P d e) (hf : Frame P e (f e)) : Frame P d (e.atMost m period f) :=
  h.when' _ _ fun _ => hf.stamp m

theorem forEach {α : Type} (l : List α) (f : α → Dev → Dev) (h : Frame P d e) (hf : ∀ a ∈ l, ∀ g, Frame P g (f a g)) :
    Frame P d (e.forEach l f) := by
  unfold Dev.forEach
  induction l generalizing e with
  | nil => exact h
  | cons a t ih => exact ih (h.trans (hf a (by simp) e)) fun b hb => hf b (by simp [hb])

/-- A command with a frame keeps what lies outside it. -/
theorem keeps {s : State} (h : Frame P s.dev e) (hw : s.dev.vlt.writes = []) : s.Keeps (s.settleTo e) P :=
  State.settleTo_keeps s e P (h.1.trans hw) h.2.1 h.2.2.2

end Dev.Frame
end Sys2Proof.Machine
end

