-- ==== Sys2Proof/WellFormed.lean ====
section
/-! DEFINITION. Which commands a sender can send: operands within what the buses and packets they travel in allow. A command that is
not well formed reaches no device; the machine gives it a meaning all the same. -/

namespace Sys2Proof

/-- A register access goes to an aligned 32-bit word (R31). -/
def aligned (off : BitVec 25) : Bool := off.toNat % 4 = 0

/-- A packet of an uplink is at least its header and CRC, and at most the longest packet (R125). -/
def RxPacket.wf (k : RxPacket) : Bool := 12 ≤ k.bytes.length && k.bytes.length ≤ 16396

/-- A datagram holds at most a message of 1,440 bytes beside what an Ethernet frame of 1,500 bytes lets through (R391). -/
def UmsalFrom.wf : UmsalFrom → Bool
  | .net _ _ _ l => l.length ≤ 1472
  | .slot _ => true

/-- An image slot is 32 MiB long (R432). -/
def SlotImage.wf (c : SlotImage) : Bool := c.bytes.length ≤ 2 ^ 25

/-- A page of the vault (R238). -/
def vaultPage (p : Nat) : Bool := p < 98304

namespace Instr

/-- The check of a command. -/
def wf : Instr → Bool
  | .registerWrite _ off _ _ => aligned off
  | .setAliasWrite _ off _ _ => aligned off
  | .clearAliasWrite _ off _ _ => aligned off
  | .toggleAliasWrite _ off _ _ => aligned off
  | .bitAliasWrite _ off _ _ => aligned off
  | .oversizeBar0Request off words _ => aligned off && 2 < words
  | .snapPairRead _ off => aligned off
  | .lowWordLatchRead _ off => aligned off
  | .capsReceive _ k => k.wf
  | .frameStartReceive _ k => k.wf
  | .lineDataReceive _ k => k.wf
  | .frameEndReceive _ k => k.wf
  | .statusReceive _ k => k.wf
  | .responseReceive _ k => k.wf
  | .timeEchoReceive _ k _ => k.wf
  | .vaultEccError w _ _ => w.toNat * 8 < 0x30_0000_0000
  | .retireRequest _ p => vaultPage p.toNat
  | .ringPayloadWrite _ n => 0 < n
  | .inboundRead _ len _ => 0 < len && len ≤ 4096
  | .inboundWrite _ l _ => 0 < l.length && l.length ≤ 4096
  | .msixTableAccess _ len _ => 0 < len
  | .configWrite off _ _ => off.toNat % 4 = 0
  | .channelConfigWrite _ _ off _ _ => off.toNat % 4 = 0
  | .shadowFieldWrite _ _ off _ _ => off.toNat % 4 = 0
  | .bootVerifyDone a b => a.wf && b.wf
  | .umsalOpen f | .umsalClose f | .umsalHeartbeat f | .umsalDescribe f | .umsalRead f | .umsalWrite f | .umsalClaim f
  | .umsalHandover f | .umsalResign f | .umsalSubscribe f | .escBegin f | .escCommit f | .escRollback f | .escStatus f
  | .parameterSave f | .firmwareUpdate f | .attestRequest f => f.wf
  | .noticeStore .. | .noticePop .. | .noticePeek .. | .noticeArm .. | .noticeFlush .. | .auditRequest .. | .auditCapture ..
  | .auditDone .. | .applyRequest .. | .applyLand .. | .tickBegin .. | .schedulePoint .. | .drainComplete ..
  | .drainTimeout .. | .drainLimitWrite .. | .discWrite .. | .discTimeout .. | .ref10mLoss .. | .busFrameSend ..
  | .busFrameReceive .. | .busSilenceTimeout .. | .portEnable .. | .portDisable .. | .portRetrain .. | .qualifyStart ..
  | .bitslip .. | .ulcStable .. | .ulcWrongRate .. | .ulcLost .. | .seekHoldEnd .. | .laneSignalLoss ..
  | .blockLockGained .. | .blockLockLost .. | .headerError .. | .slipEnd .. | .alignReceive .. | .deskewEnd ..
  | .capsOfferTimeout .. | .attemptTimeout .. | .degradeAlignTimeout .. | .qualifyEnd .. | .downlinkControlSend ..
  | .pllLockLoss .. | .frameTimeout .. | .gangBandTimeout .. | .lineConsumed .. | .creditSend .. | .lineBroadcast ..
  | .statusLost .. | .cameraCommandGo .. | .cameraCommandTimeout .. | .timeSend .. | .urgentFire .. | .urgentSend ..
  | .charterLoad .. | .loadComplete .. | .charterArm .. | .charterDisarm .. | .switchComplete .. | .groupRun ..
  | .runaway .. | .mintSegmentEmit .. | .mergerTake .. | .tellerResultSend .. | .streamLineFetch .. | .tellerStepError ..
  | .tellerSoftRetire .. | .spareRowWrite .. | .tellerStoreWrite .. | .encCapture .. | .tellerResultAccept ..
  | .ledgerEntryQueue .. | .clrItemError .. | .vaultInitDone .. | .pageCopyDone .. | .scrubLine .. | .recordBegin ..
  | .entryWrite .. | .ringCommitRequest .. | .ringArm .. | .overdraftMove .. | .ringViewLatch .. | .dmaStart ..
  | .dmaStop .. | .dmaAbort .. | .dmaOwnerWrite .. | .dringTailWrite .. | .dringHeadWrite .. | .shadowValidWrite ..
  | .descriptorFetch .. | .busReadCompletion .. | .descriptorComplete .. | .busError .. | .streamPayloadMove ..
  | .ledgerCopyIssue .. | .zeroLengthReadDone .. | .ledgerCopyAccepted .. | .flowAckWrite .. | .irqHoldoffExpire ..
  | .poisonedWrite .. | .windowCommit .. | .completionTimeout .. | .lateCompletion .. | .tagQuarantineEnd ..
  | .poisonedCompletion .. | .ecrcError .. | .hepInternalError .. | .containRelease .. | .releaseComplete ..
  | .pendingMsixSend .. | .ltrWindow .. | .ltrSend .. | .perstAssert .. | .perstRelease .. | .hotReset ..
  | .functionLevelReset .. | .hostResetComplete .. | .linkChange .. | .encoderEnable .. | .encoderDisable ..
  | .positionRead .. | .indexPulse .. | .standstillEnter .. | .standstillLeave .. | .settlingEnd .. | .overspeed ..
  | .wiringFault .. | .wiringFaultClear .. | .biasReversal .. | .clearDoubt .. | .fioEdge .. | .fioStuck .. | .fioSet ..
  | .fioClr .. | .fioTgl .. | .fioPulse .. | .fioPulseEnd .. | .outputShort .. | .outputRearm .. | .openLoad ..
  | .vfieldLow .. | .vfieldRestored .. | .strikeArm .. | .strikeDisarm .. | .timeStrikeLock .. | .positionStrikeLock ..
  | .strikeFire .. | .strikeMissCheck .. | .eventRoute .. | .taskAct .. | .softwareFire .. | .delayExpire ..
  | .noticeSend .. | .applyPendingTimeout .. | .escrowIdleTimeout .. | .sessionTimeout .. | .keySilence ..
  | .claimWindowEnd .. | .mailboxTxWrite .. | .mailboxSend .. | .mailboxReset .. | .mailboxRxRead .. | .arpRequestReceive ..
  | .neighborSolicitationReceive .. | .echoRequestReceive .. | .netFrameDrop .. | .ethLinkChange .. | .ptpMessageReceive ..
  | .queueBeatParity .. | .coreHeartbeatMiss .. | .coreLastingError .. | .standbyHeartbeatMiss .. | .standbyRebootDone ..
  | .updateVerifyDone .. | .updateTakeover .. | .probationHealthy .. | .probationTimeout .. | .flashCommitDone ..
  | .cameraIdCheck .. | .attestReportDone .. | .fuseBurn .. | .fuseBurnDone .. | .sysRstAssert .. | .sysRstRelease ..
  | .recoveryChunk .. | .recoveryVerify .. | .recoveryVerifyDone .. | .overtempAssert .. | .overtempRelease ..
  | .ref10mRestored .. | .equaliserAdapt .. | .reservedControlBlock .. | .portLogicFault .. | .pllRelockDone ..
  | .tellerSelfCheckFail .. | .unsupportedInboundRequest .. | .pcieLinkError .. | .stuckInputReturn ..
  | .recoveryFlashDone .. => true

end Instr
end Sys2Proof
end

