-- ==== Sys2Proof/Tests/Slice0.lean ====
section
/-! SUPPORT. Tests: the ill-formed terms that WellFormed refuses, small facts from the spec's own numbers, and for every statement a
concrete state and operands that meet its premises, with the effect the spec gives. -/

open Sys2Proof Sys2Proof.Machine

namespace Sys2Proof.Tests

set_option maxRecDepth 20000

/-- The state after reset with its device changed. -/
def at' (f : Dev → Dev) : State := { State.reset with dev := f Dev.reset }

/-- Whether a command answers a next state whose device meets a test. -/
def gives (s : State) (c : Instr) (p : Dev → Bool) : Bool :=
  match exec c s with
  | .next t => p t.dev
  | _ => false

/-- Whether a step on the empty queue answers a next state whose device meets a test. -/
def idles (s : State) (p : Dev → Bool) : Bool :=
  match step { s with pending := [] } with
  | .next t => p t.dev
  | _ => false

/-- A device whose host is up, out of PERST_N with Memory Space Enable set. -/
def hostOn (d : Dev) : Dev := (d.putCfgBit 0x04 1 true).setHep fun x => { x with perst := false, logBit := some 4 }

/-- A device that may send: Bus Master and MSI-X are enabled and vectors 0 and 2 are unmasked. -/
def msixOn (d : Dev) : Dev := ((d.putCfgBit 0x04 2 true).putCfgBit 0x48 31 true).setHep fun x => { x with msix := [(3, 0), (11, 0)] }

/-! ### Which commands are well formed

Each theorem shows a term that a check refuses beside one that it lets through. -/

/-- A packet of `n` zero bytes. -/
def pkt0 (n : Nat) : RxPacket := ⟨List.replicate n 0, true, true⟩
/-- A datagram of `n` zero bytes. -/
def dgram (n : Nat) : UmsalFrom := .net 0 1 47800 (List.replicate n 0)

theorem test_wf_aligned : (Instr.registerWrite .mca 0x102 0 15).wf = false ∧ (Instr.registerWrite .mca 0x104 0 15).wf = true := by decide
theorem test_wf_aliases : (Instr.setAliasWrite .mca 0x1101 0 15).wf = false ∧ (Instr.clearAliasWrite .mca 0x2102 0 15).wf = false
    ∧ (Instr.toggleAliasWrite .mca 0x3103 0 15).wf = false ∧ (Instr.bitAliasWrite .mca 0x14001 0 15).wf = false := by decide
theorem test_wf_reads : (Instr.snapPairRead .host 0x201).wf = false ∧ (Instr.lowWordLatchRead .host 0x202).wf = false := by decide
theorem test_wf_oversize : (Instr.oversizeBar0Request 0x100 2 false).wf = false ∧ (Instr.oversizeBar0Request 0x100 3 false).wf = true := by
  decide
theorem test_wf_packet_short : (Instr.lineDataReceive 0 (pkt0 11)).wf = false ∧ (Instr.lineDataReceive 0 (pkt0 12)).wf = true := by decide
theorem test_wf_packet_kinds : (Instr.capsReceive 0 (pkt0 11)).wf = false ∧ (Instr.frameStartReceive 0 (pkt0 11)).wf = false
    ∧ (Instr.frameEndReceive 0 (pkt0 11)).wf = false ∧ (Instr.statusReceive 0 (pkt0 11)).wf = false
    ∧ (Instr.responseReceive 0 (pkt0 11)).wf = false ∧ (Instr.timeEchoReceive 0 (pkt0 11) 0).wf = false := by decide
theorem test_wf_vault : (Instr.vaultEccError 0x6_0000_0000 true .lasting).wf = false
    ∧ (Instr.vaultEccError 0x5_FFFF_FFFF true .lasting).wf = true
    ∧ (Instr.retireRequest .mca 98304).wf = false ∧ (Instr.retireRequest .mca 98303).wf = true := by decide
theorem test_wf_burst : (Instr.ringPayloadWrite 0 0).wf = false ∧ (Instr.ringPayloadWrite 0 1).wf = true := by decide
theorem test_wf_inbound : (Instr.inboundRead 0 0 0).wf = false ∧ (Instr.inboundRead 0 4097 0).wf = false
    ∧ (Instr.inboundRead 0 4096 0).wf = true ∧ (Instr.inboundWrite 0 [] 0).wf = false
    ∧ (Instr.inboundWrite 0 [some 1] 0).wf = true ∧ (Instr.msixTableAccess 0 0 none).wf = false := by decide
theorem test_wf_words : (Instr.configWrite 0x006 0 15).wf = false ∧ (Instr.channelConfigWrite .mca 0 0x005 0 15).wf = false
    ∧ (Instr.shadowFieldWrite .mca 0 0x041 0 15).wf = false := by decide
theorem test_wf_slot (l : List Byte) : (l.length = 2 ^ 25 + 1 → (Instr.bootVerifyDone ⟨l, true⟩ ⟨[], true⟩).wf = false)
    ∧ (l.length = 2 ^ 25 → (Instr.bootVerifyDone ⟨[], true⟩ ⟨l, true⟩).wf = true) := by
  constructor <;> intro h <;> simp [Instr.wf, SlotImage.wf, h]
theorem test_wf_datagram : ∀ f ∈ [Instr.umsalOpen, .umsalRead, .escCommit, .firmwareUpdate, .attestRequest],
    (f (.net 0 1 47800 (List.replicate 1473 0))).wf = false ∧ (f (dgram 20)).wf = true := by decide

/-! ### The whole machine

The premises of the statements over whole steps, each with what it gives at a concrete state. -/

/-- A write of DCT_DRAIN_LIMIT. -/
def limit7 : Instr := .drainLimitWrite .mca 7 15
/-- Two commands that wait. -/
def waiting : State := { State.reset with pending := [limit7, .auditRequest .task] }

/-- Whether an outcome is a next state that meets a test. -/
def answers (o : Host.Outcome State Fault Refusal) (p : State → Bool) : Bool :=
  match o with
  | .next t => p t
  | _ => false

/-- StepRunsFront: the first of two waiting commands acts, and the second is left. -/
theorem witness_step_runs_front : waiting.pending = limit7 :: [.auditRequest .task]
    ∧ answers (step waiting) (fun t => t.dev.get DCT_DRAIN_LIMIT.LIMIT = 7 && t.pending = [.auditRequest .task]
      && !t.dev.is AUD_STAT.BUSY) = true := by decide

/-- IdleStep, from a state with a trim and a fraction: device time after the step. -/
def idleTime (trim : Word) (frac : BitVec 40) : Nat :=
  match step (at' fun d => { d.setReg CAD_TRIM.addr trim with frac, time := 100 }) with
  | .next t => t.dev.time
  | _ => 0
theorem witness_idle_ready : (at' fun d => { d.setReg CAD_TRIM.addr 0xFFFFFFFF with frac := 0, time := 100 }).Ready
    ∧ (at' fun d => d).pending = [] := by decide
/-- IdleStep: a negative trim below an empty fraction borrows one unit, a positive one above a full fraction carries one, and between
them a cycle is two units. -/
theorem witness_idle_clauses : idleTime 0xFFFFFFFF 0 = 101 ∧ idleTime 0xFFFFFFFF 1 = 101 ∧ idleTime 0xFFFFFFFF 2 = 102
    ∧ idleTime 0 0xFFFFFFFFFF = 102 ∧ idleTime 1 0xFFFFFFFFFD = 102 ∧ idleTime 1 0xFFFFFFFFFE = 103 := by decide

/-- IdleStep: a requested audit finds its instant once 200 ns have passed; a packet held for a full frame table counts a CLR cycle. -/
def idleAudit (n : Nat) : Option Nat :=
  match step (audit' n) with
  | .next t => t.dev.aud.instant
  | _ => none
where audit' (n : Nat) : State := at' fun d => { d.setAud (fun x => { x with since := some 0 }) with time := n }
theorem witness_idle_audit : idleAudit 797 = none ∧ idleAudit 798 = some 800 := by decide
theorem witness_idle_full : answers (step (at' fun d => d.setPort 3 fun x => { x with pk := { x.pk with held := [.packet (pkt0 12)] } }))
    (fun t => t.dev.get64 CLR_FULL_CNT.addr = 0 && t.dev.time = 2) = true := by decide

/-- The same two commands with the line low. -/
def waitingLow : State := { waiting with dev := { Dev.reset with low := true } }

/-- NothingWhileLow: neither command is the release. -/
theorem witness_nothing_while_low : waitingLow.dev.low = true ∧ waitingLow.pending = [limit7, .auditRequest .task]
    ∧ answers (Host.Core.run Sys2Proof.core 2 waitingLow) (fun t => t.pending = [] && t.dev.low
      && t.dev.get DCT_DRAIN_LIMIT.LIMIT = 10000 && !t.dev.is AUD_STAT.BUSY) = true := by decide
theorem witness_no_release : ∀ c ∈ waitingLow.pending, (∀ f k, c ≠ .sysRstRelease f k) ∧ (∀ ns, c ≠ .perstAssert ns)
    ∧ ∀ v ns, c ≠ .perstRelease v ns := by
  intro c hc
  simp [waitingLow, waiting, limit7] at hc
  rcases hc with rfl | rfl <;> simp

/-- StepKeepsSound: a sound state whose step answers a next state. -/
theorem witness_sound : waiting.Sound := ⟨by decide, by decide⟩
theorem witness_sound_next : ∃ t, step waiting = .next t := ⟨_, rfl⟩

/-- QueueRuns: both commands have acted and the queue is empty. -/
theorem witness_queue_runs : answers (Host.Core.run Sys2Proof.core 2 waiting)
    (fun t => t.pending = [] && t.dev.get DCT_DRAIN_LIMIT.LIMIT = 7 && t.dev.is AUD_STAT.BUSY) = true := by decide

/-- The word of no table row spells a command, so none comes to the queue that way. -/
theorem test_no_words : decodeTableWord 32 0 = none ∧ State.reset.withFetchWord 32 0 = State.reset := ⟨rfl, rfl⟩

/-! ### Chapter 02 -/

def wregisterWrite : State := at' fun d => d.setReg (NTQ_ROUTE.addr 0x12) 0x11223345

/-- RegisterAccess, RefusedHostRequests. -/
theorem witness_registerWrite : wregisterWrite.Ready ∧ (wregisterWrite.dev.Admits .mca (NTQ_ROUTE.addr 0x12))
    ∧ gives wregisterWrite (.registerWrite .mca (BitVec.ofNat 25 (NTQ_ROUTE.addr 0x12)) 0xAABBCCDF 5) (fun d => d.reg (NTQ_ROUTE.addr 0x12) = 0x11BB33DD) = true := by decide

/-- RegisterAccess. -/
theorem witness_setAliasWrite : wregisterWrite.Ready ∧ (True)
    ∧ gives wregisterWrite (.setAliasWrite .mca (BitVec.ofNat 25 (NTQ_ROUTE.addr 0x12 + 0x1000)) 0xFF000000 8) (fun d => d.reg (NTQ_ROUTE.addr 0x12) = 0xFF223345) = true := by decide

/-- RegisterAccess. -/
theorem witness_clearAliasWrite : wregisterWrite.Ready ∧ (True)
    ∧ gives wregisterWrite (.clearAliasWrite .mca (BitVec.ofNat 25 (NTQ_ROUTE.addr 0x12 + 0x2000)) 0xFF000000 15) (fun d => d.reg (NTQ_ROUTE.addr 0x12) = 0x00223345) = true := by decide

/-- RegisterAccess. -/
theorem witness_toggleAliasWrite : wregisterWrite.Ready ∧ (True)
    ∧ gives wregisterWrite (.toggleAliasWrite .mca (BitVec.ofNat 25 (NTQ_ROUTE.addr 0x12 + 0x3000)) 0x0F000000 15) (fun d => d.reg (NTQ_ROUTE.addr 0x12) = 0x1E223345) = true := by decide

def wbitAliasWrite : State := at' fun d => d.setReg DCT_FLAGS.addr 0x0000000C

/-- RegisterAccess. -/
theorem witness_bitAliasWrite : wbitAliasWrite.Ready ∧ (wbitAliasWrite.dev.Admits .mca DCT_FLAGS.addr ∧ aliasOf 0x1400C = some (.bit 3, DCT_FLAGS.addr)
    ∧ (regRow DCT_FLAGS.addr).map (fun r => r.fields.all fun f => f.access = .ro || f.access = .w1c) = some true)
    ∧ gives wbitAliasWrite (.bitAliasWrite .mca 0x1400C 1 1) (fun d => d.reg DCT_FLAGS.addr = 4) = true := by decide

def wflagOfTheCycle : State := at' fun d => d.set1 DCT_FLAGS.OVERTEMP |>.setReg DCT_FLAGS.addr 0xC

/-- RegisterAccess, RefusedHostRequests. -/
theorem witness_flagOfTheCycle : wflagOfTheCycle.Ready ∧ (wflagOfTheCycle.dev.Admits .mca DCT_FLAGS.addr ∧ aliasOf DCT_FLAGS.addr = some (.plain, DCT_FLAGS.addr))
    ∧ gives wflagOfTheCycle (.registerWrite .mca (BitVec.ofNat 25 DCT_FLAGS.addr) 0xFFFFFFFF 15) (fun d => d.reg DCT_FLAGS.addr = 8) = true := by decide

def wflagOfAChannel : State := at' fun d => d.setReg (ENC_FLAGS.addr 2) 0x2

/-- RegisterAccess, RefusedHostRequests. -/
theorem witness_flagOfAChannel : wflagOfAChannel.Ready ∧ (wflagOfAChannel.dev.Admits .mca (ENC_FLAGS.addr 2))
    ∧ gives wflagOfAChannel (.registerWrite .mca (BitVec.ofNat 25 (ENC_FLAGS.addr 2)) 2 15) (fun d => d.reg (ENC_FLAGS.addr 2) = 0) = true := by decide

def wlockBits : State := at' fun d => d.setReg DCT_LOCK.addr 1

/-- RegisterAccess, RefusedHostRequests. -/
theorem witness_lockBits : wlockBits.Ready ∧ (wlockBits.dev.Admits .mca DCT_LOCK.addr)
    ∧ gives wlockBits (.registerWrite .mca (BitVec.ofNat 25 DCT_LOCK.addr) 0x24 15) (fun d => d.reg DCT_LOCK.addr = 0x25) = true := by decide

def wlockedWrite : State := at' fun d => hostOn ((d.setReg DCT_LOCK.addr 4).setReg DCT_GATE.addr 1)

/-- RegisterAccess, RefusedHostRequests. -/
theorem witness_lockedWrite : wlockedWrite.Ready ∧ (wlockedWrite.dev.Admits .host (FIO_PIN_STUCK.addr 3) ∧ wlockedWrite.dev.bitOf DCT_LOCK.addr 2 = true ∧ wlockedWrite.dev.is DCT_FLAGS.LOCK_VIOL = false)
    ∧ gives wlockedWrite (.registerWrite .host (BitVec.ofNat 25 (FIO_PIN_STUCK.addr 3)) 9 15) (fun d => d.reg (FIO_PIN_STUCK.addr 3) = 0 && d.is DCT_FLAGS.LOCK_VIOL && d.get DCT_VIOL_ADDR.ADDR = 0x70034 && d.get DCT_VIOL_ADDR.REQ = 0
    && d.ntq.input.length = 1 && d.get64 DCT_LOCK_VIOL_CNT.addr = 1) = true := by decide

def wgatedHostWrite : State := at' fun d => hostOn d

/-- RegisterAccess, RefusedHostRequests. -/
theorem witness_gatedHostWrite : wgatedHostWrite.Ready ∧ (wgatedHostWrite.dev.Readable ∧ wgatedHostWrite.dev.gateOpen = false ∧ (blockOf (NTQ_ROUTE.addr 0x12)).isSome = true ∧ wgatedHostWrite.dev.ungated (NTQ_ROUTE.addr 0x12) = false)
    ∧ gives wgatedHostWrite (.registerWrite .host (BitVec.ofNat 25 (NTQ_ROUTE.addr 0x12)) 0xFFFFFFFF 15) (fun d => d.get64 DCT_GATED_CNT.addr = 1 && d.is DCT_FLAGS.GATED && d.reg (NTQ_ROUTE.addr 0x12) = regReset (NTQ_ROUTE.addr 0x12) && d.ntq.input.length = 1) = true := by decide

/-- RefusedHostRequests. -/
theorem witness_oversize : wgatedHostWrite.Ready ∧ (2 < 3 ∧ wgatedHostWrite.dev.Readable)
    ∧ gives wgatedHostWrite (.oversizeBar0Request 0x100 3 false) (fun d => d.get64 HEP_CA_CNT.addr = 1 && d.out.length = 1) = true := by decide

def wnoticeStore : State := at' fun d => { hostOn (((d.setReg (NTQ_ROUTE.addr 0x40) 0x0C00).set1 (NTQ_CTL.EN 2)).set1 (NTQ_CTL.EN 3)) with ntq := ⟨[⟨.alert, 0x40, 5, 6, 7⟩], [], [], [(3, ⟨1, none, none⟩)]⟩ }

/-- NoticeQueues. -/
theorem witness_noticeStore : wnoticeStore.Ready ∧ (wnoticeStore.dev.routeMask ⟨.alert, 0x40, 5, 6, 7⟩ = 0xC ∧ wnoticeStore.dev.takesNow ⟨.alert, 0x40, 5, 6, 7⟩ 2 = true ∧ wnoticeStore.dev.takesNow ⟨.alert, 0x40, 5, 6, 7⟩ 3 = false)
    ∧ gives wnoticeStore (.noticeStore 0x40 0) (fun d => d.classRing 2 1 = [⟨.alert, 0x40, 5, 6, 7⟩] && d.classRing 3 1 = [] && d.ntq.input.length = 1 && d.takenOf 0x40 = 4) = true := by decide

def wnoticeStoreRest : State := at' fun d => { hostOn ((d.setReg (NTQ_ROUTE.addr 0x40) 0x0C00).set1 (NTQ_CTL.EN 3)) with ntq := ⟨[⟨.alert, 0x40, 5, 6, 7⟩], [], [(0x40, 4)], []⟩ }

/-- NoticeQueues. -/
theorem witness_noticeStoreRest : wnoticeStoreRest.Ready ∧ (wnoticeStoreRest.dev.takesNow ⟨.alert, 0x40, 5, 6, 7⟩ 3 = true)
    ∧ gives wnoticeStoreRest (.noticeStore 0x40 0) (fun d => d.classRing 3 1 = [⟨.alert, 0x40, 5, 6, 7⟩] && d.ntq.input = [] && d.takenOf 0x40 = 0) = true := by decide

def wnoticeLost : State := at' fun d => { hostOn ((d.setReg (NTQ_ROUTE.addr 0x40) 0x0400).unset (NTQ_CTL.EN 2)) with ntq := ⟨[⟨.alert, 0x40, 5, 6, 7⟩], [], [], []⟩ }

/-- NoticeQueues. -/
theorem witness_noticeLost : wnoticeLost.Ready ∧ (wnoticeLost.dev.is (NTQ_CTL.EN 2) = false)
    ∧ gives wnoticeLost (.noticeStore 0x40 0) (fun d => d.classRing 2 1 = [] && d.get64 (NTQ_LOST.addr 2) = 1) = true := by decide

def wnoticePop : State := at' fun d => { hostOn d with ntq := ⟨[], [(4 * 2 + 1, [⟨.alert, 0x40, 5, 6, 7⟩, ⟨.alert, 0x40, 8, 9, 7⟩])], [], []⟩ }

/-- NoticeQueues. -/
theorem witness_noticePop : wnoticePop.Ready ∧ (wnoticePop.dev.Readable ∧ wnoticePop.dev.startRing 2 0 = [])
    ∧ gives wnoticePop (.noticePop .host 2 false) (fun d => d.classRing 2 1 = [⟨.alert, 0x40, 8, 9, 7⟩] && d.out = [.readData (NTQ_POP.addr 2) 0x60040005]) = true := by decide

/-- NoticeQueues. -/
theorem witness_noticePeek : wnoticePop.Ready ∧ (True)
    ∧ gives wnoticePop (.noticePeek .mca 2) (fun d => (d.classRing 2 1).length = 2 && d.out = [.readData (NTQ_POP.addr 2) 0x60040005]) = true := by decide

/-- NoticeQueues. -/
theorem witness_noticeReset : wnoticePop.Ready ∧ (True)
    ∧ gives wnoticePop (.noticePop .mca 2 true) (fun d => d.queueItems 2 = 0 && d.get64 (NTQ_LOST.addr 2) = 2 && d.get64 (NTQ_RESETS.addr 2) = 1 && d.ntq.input.length = 2
    && d.out = [.readData (NTQ_POP.addr 2) 0xE00FFFFF]) = true := by decide

def wnoticePushNotSeen : State := at' fun d => { hostOn d with ntq := ⟨[], [(4 * 2 + 1, [⟨.alert, 0x40, 5, 6, 7⟩])], [], [(2, ⟨1, some 1, none⟩)]⟩ }

/-- NoticeQueues. -/
theorem witness_noticePushNotSeen : wnoticePushNotSeen.Ready ∧ (wnoticePushNotSeen.dev.Readable ∧ wnoticePushNotSeen.dev.startRing 2 1 = [] ∧ wnoticePushNotSeen.dev.topClass 2 = none)
    ∧ gives wnoticePushNotSeen (.noticePop .host 2 false) (fun d => (d.classRing 2 1).length = 1 && d.out = [.readData (NTQ_POP.addr 2) 0xE00FFFFF]) = true := by decide

def wnoticeOverwritten : State := at' fun d => { hostOn (d.put64 (NTQ_LOST.addr 2) 1) with ntq := ⟨[], [(4 * 2 + 1, [⟨.alert, 0x40, 5, 6, 7⟩])], [], [(2, ⟨1, some 1, some ⟨.alert, 0x40, 4, 6, 7⟩⟩)]⟩ }

/-- NoticeQueues. -/
theorem witness_noticeOverwritten : wnoticeOverwritten.Ready ∧ (wnoticeOverwritten.dev.startRing 2 1 = [⟨.alert, 0x40, 4, 6, 7⟩])
    ∧ gives wnoticeOverwritten (.noticePop .mca 2 false) (fun d => (d.classRing 2 1).length = 1 && d.get64 (NTQ_LOST.addr 2) = 0 && d.out = [.readData (NTQ_POP.addr 2) 0x60040004]) = true := by decide

/-- NoticeQueues. -/
theorem witness_noticeFlush : wnoticeOverwritten.Ready ∧ (wnoticeOverwritten.dev.Admits .mca (NTQ_CTL.addr 2))
    ∧ gives wnoticeOverwritten (.noticeFlush .mca 2) (fun d => d.queueItems 2 = 0 && d.get64 (NTQ_LOST.addr 2) = 1) = true := by decide

def wnoticeArm : State := at' fun d => d.put (NTQ_CTL.IRQ_CLASS 2) 2

/-- NoticeQueues. -/
theorem witness_noticeArm : wnoticeArm.Ready ∧ (wnoticeArm.dev.classRing 2 1 = [])
    ∧ gives wnoticeArm (.noticeArm .mca 2) (fun d => d.is (NTQ_CTL.ARM 2) && d.out = []) = true := by decide

def wnoticeArmSignals : State := at' fun d => { (msixOn ((hostOn d).put (NTQ_CTL.IRQ_CLASS 2) 2)) with ntq := ⟨[], [(4 * 2 + 1, [⟨.alert, 0x40, 5, 6, 7⟩])], [], []⟩ }

/-- NoticeQueues. -/
theorem witness_noticeArmSignals : wnoticeArmSignals.Ready ∧ (wnoticeArmSignals.dev.msixEnable = true ∧ wnoticeArmSignals.dev.classRing 2 1 ≠ [] ∧ bit (wnoticeArmSignals.dev.get (NTQ_CTL.IRQ_CLASS 2)) 1 = true
    ∧ wnoticeArmSignals.dev.vectorHeld (wnoticeArmSignals.dev.get (NTQ_CTL.VECTOR 2)) = false ∧ wnoticeArmSignals.dev.signalled (wnoticeArmSignals.dev.get (NTQ_CTL.VECTOR 2)) = false)
    ∧ gives wnoticeArmSignals (.noticeArm .mca 2) (fun d => !d.is (NTQ_CTL.ARM 2) && d.out.length = 1) = true := by decide

def wauditRequest : State := at' id

/-- Audit, EventRoutingAndTasks. -/
theorem witness_auditRequest : wauditRequest.Ready ∧ (wauditRequest.dev.Admits .mca AUD_CTL.addr ∧ wauditRequest.dev.is AUD_STAT.BUSY = false)
    ∧ gives wauditRequest (.auditRequest (.write .mca)) (fun d => d.is AUD_STAT.BUSY && d.aud.since = some 0) = true := by decide

def wauditHeld : State := at' fun d => d.set1 AUD_STAT.BUSY

/-- Audit, EventRoutingAndTasks. -/
theorem witness_auditHeld : wauditHeld.Ready ∧ (wauditHeld.dev.is AUD_STAT.BUSY = true ∧ wauditHeld.dev.Causes .task AUD_CTL.addr 0x070)
    ∧ gives wauditHeld (.auditRequest .task) (fun d => d.is AUD_STAT.HELD && d.aud.heldHop = 1) = true := by decide

def wauditCapture : State := at' fun d => { d.put64 (NTQ_LOST.addr 2) 5 with time := ns 200, aud := ⟨some 0, none, false, 0, 0⟩ }

/-- Audit. -/
theorem witness_auditCapture : wauditCapture.Ready ∧ (wauditCapture.dev.auditInstant = some (ns 200) ∧ wauditCapture.dev.aud.captured = false)
    ∧ gives wauditCapture (.auditCapture) (fun d => d.get64 (NTQ_LOST.addr 2 + 0x200) = 5 && d.aud.captured && d.get64 AUD_TIME.addr = ns 200) = true := by decide

def wauditDone : State := at' fun d => { (d.set1 AUD_STAT.BUSY).set1 AUD_STAT.HELD with aud := ⟨some 0, some 800, true, 0, 0⟩ }

/-- Audit. -/
theorem witness_auditDone : wauditDone.Ready ∧ (wauditDone.dev.is AUD_STAT.BUSY = true ∧ wauditDone.dev.aud.captured = true)
    ∧ gives wauditDone (.auditDone) (fun d => d.get AUD_SEQ.SEQ = 1 && d.is AUD_STAT.BUSY && !d.is AUD_STAT.HELD) = true := by decide

def wsnapPairRead : State := at' fun d => hostOn (d.put64 (NTQ_LOST.addr 2 + 0x200) 0x500000006)

/-- RegisterAccess. -/
theorem witness_snapPairRead : wsnapPairRead.Ready ∧ (wsnapPairRead.dev.Readable)
    ∧ gives wsnapPairRead (.snapPairRead .host (BitVec.ofNat 25 (NTQ_LOST.addr 2 + 0x200))) (fun d => d.out = [.readData (NTQ_LOST.addr 2 + 0x200) 6, .readData (NTQ_LOST.addr 2 + 0x204) 5]) = true := by decide

def wlowWordLatchRead : State := at' fun d => { hostOn d with time := 0x500000006 }

/-- RegisterAccess. -/
theorem witness_lowWordLatchRead : wlowWordLatchRead.Ready ∧ (wlowWordLatchRead.dev.Readable)
    ∧ gives wlowWordLatchRead (.lowWordLatchRead .mca (BitVec.ofNat 25 CAD_TIME.addr)) (fun d => d.regRead (CAD_TIME.addr + 4) = 5) = true := by decide


/-! ### Chapter 03 -/

def wapplyGo : State := at' id

/-- Apply. -/
theorem witness_applyGo : wapplyGo.Ready ∧ (wapplyGo.dev.Admits .mca CAD_APPLY.addr ∧ wapplyGo.dev.is CAD_APPLY.PENDING = false ∧ wapplyGo.dev.ticking = false)
    ∧ gives wapplyGo (.applyRequest .mca) (fun d => d.is CAD_APPLY.PENDING && d.cad.apply = some ⟨0, none, some 8000⟩) = true := by decide

def wapplyBusy : State := at' fun d => (d.set1 CAD_APPLY.PENDING)

/-- Apply. -/
theorem witness_applyBusy : wapplyBusy.Ready ∧ (wapplyBusy.dev.is CAD_APPLY.PENDING = true)
    ∧ gives wapplyBusy (.applyRequest .mca) (fun d => d.is CAD_FLAGS.GO_BUSY) = true := by decide

def wapplyLand : State := at' fun d => { d.set1 CAD_APPLY.PENDING with time := 9000, cad := { d.cad with apply := some ⟨0, none, some 8000⟩ } }

/-- Apply. -/
theorem witness_applyLand : wapplyLand.Ready ∧ (∀ ring : Fin 64, wapplyLand.dev.streamsOn ring = [])
    ∧ gives wapplyLand (.applyLand) (fun d => !d.is CAD_APPLY.PENDING && d.get64 CAD_APPLY_TICK.addr = 2 ^ 64 - 1 && d.get64 CAD_APPLY_TIME.addr = 9000) = true := by decide

def wtickBegin : State := at' fun d => { d.set1 CAD_STAT.RUNNING with time := 9000, cad := { d.cad with startAt := some 8000 } }

/-- TicksAndTickBus. -/
theorem witness_tickBegin : wtickBegin.Ready ∧ (wtickBegin.dev.cad.apply = none ∧ wtickBegin.dev.nextTick = some (0, 8000) ∧ 8000 ≤ wtickBegin.dev.time ∧ wtickBegin.dev.actMode ≠ 5)
    ∧ gives wtickBegin (.tickBegin) (fun d => d.get64 CAD_TICK.addr = 0 && d.cad.budget = [(0, 2)] && d.evr.input = [⟨0x28, 0, []⟩]) = true := by decide

def wschedulePoint : State := at' fun d => { d.set1 CAD_STAT.RUNNING with time := 9000, force := (List.range 16).map fun p => (CAD_PORT.addr p, 0x00050001#32), cad := { d.cad with startAt := some 8000 } }

/-- TicksAndTickBus. -/
theorem witness_schedulePoint : wschedulePoint.Ready ∧ (wschedulePoint.dev.ticking = true ∧ wschedulePoint.dev.cad.planned = [] ∧ wschedulePoint.dev.nextSchedule = 0 ∧ wschedulePoint.dev.sourceFor 0 = 0 ∧ wschedulePoint.dev.pointPassed 0 = true
    ∧ wschedulePoint.dev.dueHeads 0 = [])
    ∧ gives wschedulePoint (.schedulePoint) (fun d => d.cad.scheduledTo = 1) = true := by decide

def wscheduleHeads : State := at' fun d => { ((((d.set1 CAD_STAT.RUNNING).put DCT_MODE.CUR 1).put (AVP_PORT_STAT.STATE 3) 5).set1 (AVP_RANGE_STAT.RANGED 3)) with
    force := (List.range 16).map fun p => (CAD_PORT.addr p, if p = 3 || p = 5 then 0x00000001#32 else 0x00050002#32)
    time := 9000, cad := { d.cad with planned := [⟨0, 10000, 8000, false, none⟩] } }

/-- TicksAndTickBus. -/
theorem witness_scheduleHeads : wscheduleHeads.Ready ∧ (wscheduleHeads.dev.ticking = true ∧ wscheduleHeads.dev.cad.planned.find? (!·.scheduled) = some ⟨0, 10000, 8000, false, none⟩ ∧ wscheduleHeads.dev.dueHeads 0 = [3, 5])
    ∧ gives wscheduleHeads (.schedulePoint) (fun d => d.cad.sentTo = [(3, 0), (5, 0)] && d.cad.exposures.length = 1 && (d.port 3).pk.ready.length = 1 && (d.port 5).pk.ready = []
    && d.is (AVP_PFLAGS.SCHED_WITHHELD 5) && !d.is (AVP_PFLAGS.SCHED_WITHHELD 3)) = true := by decide

def wdrainComplete : State := at' fun d => (d.put DCT_MODE.CUR 6).set1 CAD_STAT.RUNNING

/-- Drain. -/
theorem witness_drainComplete : wdrainComplete.Ready ∧ (wdrainComplete.dev.mode = 6 ∧ wdrainComplete.dev.drained = true ∧ wdrainComplete.dev.forceGet CAD_CTL.BUS_ROLE ≠ 1)
    ∧ gives wdrainComplete (.drainComplete) (fun d => d.mode = 0 && d.get DCT_MODE.PREV = 6 && !d.ticking && d.ntq.input = [⟨.event, idDCT, 0x010, 0x60#32, 0⟩]) = true := by decide

def wdrainTimeout : State := at' fun d => { (d.put DCT_MODE.CUR 6).set1 CAD_STAT.RUNNING with time := ms 10001, cad := { d.cad with drainAt := some 0 } }

/-- Drain. -/
theorem witness_drainTimeout : wdrainTimeout.Ready ∧ (wdrainTimeout.dev.mode = 6 ∧ ms (wdrainTimeout.dev.get DCT_DRAIN_LIMIT.LIMIT) ≤ wdrainTimeout.dev.time)
    ∧ gives wdrainTimeout (.drainTimeout) (fun d => d.mode = 0 && !d.ticking && d.ntq.input = [⟨.alert, idDCT, 0x012, 10001#32, ms 10001⟩, ⟨.event, idDCT, 0x010, 0x60#32, ms 10001⟩]) = true := by decide

def wdrainLimit : State := at' id

/-- Drain. -/
theorem witness_drainLimit : wdrainLimit.Ready ∧ (wdrainLimit.dev.Admits .mca DCT_DRAIN_LIMIT.addr ∧ wdrainLimit.dev.actMode ≠ 6)
    ∧ gives wdrainLimit (.drainLimitWrite .mca 600000#32 15#4) (fun d => d.get DCT_DRAIN_LIMIT.LIMIT = 600000) = true := by decide

/-- Drain. -/
theorem witness_drainLimitBad : wdrainLimit.Ready ∧ (True)
    ∧ gives wdrainLimit (.drainLimitWrite .mca 600001#32 15#4) (fun d => d.get DCT_DRAIN_LIMIT.LIMIT = 10000 && d.is DCT_FLAGS.BAD_VALUE) = true := by decide

/-- Drain. -/
theorem witness_drainLimitZero : wdrainLimit.Ready ∧ (True)
    ∧ gives wdrainLimit (.drainLimitWrite .mca 0#32 15#4) (fun d => d.get DCT_DRAIN_LIMIT.LIMIT = 10000 && d.is DCT_FLAGS.BAD_VALUE) = true := by decide

def wdisc : State := at' fun d => { d.set1 CAD_STAT.DISC_OK with time := 7 }

/-- Discipline. -/
theorem witness_disc : wdisc.Ready ∧ (wdisc.dev.get CAD_TIME_CTL.DISC ≠ 3)
    ∧ gives wdisc (.discWrite .mca 3#2) (fun d => d.get CAD_TIME_CTL.DISC = 3 && !d.is CAD_STAT.DISC_OK && d.cad.discAt = 7) = true := by decide

def wdiscTimeout : State := at' fun d => { (d.put CAD_TIME_CTL.DISC 1).set1 CAD_STAT.DISC_OK with time := ms 4000 }

/-- Discipline. -/
theorem witness_discTimeout : wdiscTimeout.Ready ∧ (wdiscTimeout.dev.get CAD_TIME_CTL.DISC = 1 ∧ wdiscTimeout.dev.cad.discTold = false ∧ wdiscTimeout.dev.cad.discAt + ms 4000 ≤ wdiscTimeout.dev.time)
    ∧ gives wdiscTimeout (.discTimeout) (fun d => !d.is CAD_STAT.DISC_OK && d.is CAD_FLAGS.DISC_LOST && d.ntq.input = [⟨.alert, idCAD, 0x014, 1#32, ms 4000⟩]) = true := by decide

def wrefLoss : State := at' fun d => (d.put CAD_TIME_CTL.DISC 3).set1 CAD_STAT.DISC_OK

/-- Discipline. -/
theorem witness_refLoss : wrefLoss.Ready ∧ (wrefLoss.dev.get CAD_TIME_CTL.DISC = 3 ∧ wrefLoss.dev.is CAD_STAT.DISC_OK = true)
    ∧ gives wrefLoss (.ref10mLoss) (fun d => !d.is CAD_STAT.DISC_OK && d.is CAD_FLAGS.DISC_LOST) = true := by decide

def wrefBack : State := at' fun d => d.put CAD_TIME_CTL.DISC 3

/-- Discipline. -/
theorem witness_refBack : wrefBack.Ready ∧ (wrefBack.dev.is CAD_STAT.DISC_OK = false ∧ (0xFFFFFFFF#32).toInt.natAbs ≤ 219902326)
    ∧ gives wrefBack (.ref10mRestored 0xFFFFFFFF#32) (fun d => d.is CAD_STAT.DISC_OK && d.reg CAD_TRIM.addr = 0xFFFFFFFF#32) = true := by decide

def wbusSend : State := at' fun d => { d.set1 CAD_STAT.RUNNING with time := 9000, force := [(CAD_CTL.addr, 0x00000204#32)], cad := { d.cad with startAt := some 10000 } }

/-- TicksAndTickBus. -/
theorem witness_busSend : wbusSend.Ready ∧ (wbusSend.dev.forceGet CAD_CTL.BUS_ROLE = 1 ∧ wbusSend.dev.ticking = true ∧ wbusSend.dev.sourceFor 0 = 0
    ∧ wbusSend.dev.timeOf 0 ≤ wbusSend.dev.time + wbusSend.dev.setting 0 CAD_BUS_LEAD.LEAD ∧ wbusSend.dev.cad.busStopDue = none ∧ wbusSend.dev.cad.planned = []
    ∧ Nat.max wbusSend.dev.cad.busSentTo wbusSend.dev.nextNum = 0)
    ∧ gives wbusSend (.busFrameSend) (fun d => d.out = [.busFrame 9000 (Dev.busWord 0 10000 9000 0)] && d.cad.busSentTo = 1) = true := by decide

def wbusReceive : State := at' fun d => { d with force := [(CAD_CTL.addr, 0x0000020A#32)] }

/-- TicksAndTickBus. -/
theorem witness_busReceive : wbusReceive.Ready ∧ (wbusReceive.dev.forceGet CAD_CTL.BUS_ROLE = 2 ∧ wbusReceive.dev.get CAD_TIME_CTL.DISC ≠ 2 ∧ wbusReceive.dev.nextNum ≤ 5)
    ∧ gives wbusReceive (.busFrameReceive 5#64 1000#64 900#64 1#16 (crc16 (Dev.busBytes 5 1000 900 1)) 910#64 0#32) (fun d => d.get64 CAD_DOMAIN_OFF.addr = 2 ^ 64 - 10 && d.is CAD_STAT.BUS_STOPPED && d.out = [.busFrame 1070 (Dev.busWord 5 1000 900 1)]
    && d.ntq.input = [⟨.info, idCAD, 0x017, 5#32, 0⟩]) = true := by decide

def wbusReceiveTick : State := at' fun d => { d.set1 CAD_STAT.RUNNING with force := [(CAD_CTL.addr, 0x0000020A#32)], cad := { d.cad with lastTick := some 4 } }

/-- TicksAndTickBus. -/
theorem witness_busReceiveTick : wbusReceiveTick.Ready ∧ (wbusReceiveTick.dev.ticking = true ∧ wbusReceiveTick.dev.sourceFor 5 = 2 ∧ wbusReceiveTick.dev.plannedNum ≤ 5 ∧ wbusReceiveTick.dev.nextNum ≤ 5 ∧ wbusReceiveTick.dev.cad.apply = none
    ∧ wbusReceiveTick.dev.cad.startAt = none ∧ wbusReceiveTick.dev.time + wbusReceiveTick.dev.forceGet CAD_SCHED_LEAD.LEAD + us 2 ≤ 1000000 ∧ wbusReceiveTick.dev.cad.held = false)
    ∧ gives wbusReceiveTick (.busFrameReceive 5#64 1000000#64 900#64 0#16 (crc16 (Dev.busBytes 5 1000000 900 0)) 900#64 0#32) (fun d => d.cad.planned = [⟨5, 1000000, 0, false, none⟩] && d.is CAD_STAT.BUS_OK && d.ntq.input = []) = true := by decide

def wbusDisciplines : State := at' fun d => { d.put CAD_TIME_CTL.DISC 2 with force := [(CAD_CTL.addr, 0x0000020A#32)] }

/-- TicksAndTickBus. -/
theorem witness_busDisciplines : wbusDisciplines.Ready ∧ (wbusDisciplines.dev.forceGet CAD_CTL.BUS_ROLE = 2 ∧ wbusDisciplines.dev.get CAD_TIME_CTL.DISC = 2 ∧ wbusDisciplines.dev.softWrote CAD_TRIM.RATE = false)
    ∧ gives wbusDisciplines (.busFrameReceive 5#64 1000#64 900#64 1#16 (crc16 (Dev.busBytes 5 1000 900 1)) 910#64 7#32) (fun d => d.get64 CAD_DOMAIN_OFF.addr = 2 ^ 64 - 10 && d.is CAD_STAT.DISC_OK && d.reg CAD_TRIM.addr = 7) = true := by decide

/-- TicksAndTickBus. -/
theorem witness_busBad : wbusDisciplines.Ready ∧ ((0#16) ≠ crc16 (Dev.busBytes 5 1000 900 1))
    ∧ gives wbusDisciplines (.busFrameReceive 5#64 1000#64 900#64 1#16 0#16 910#64 0#32) (fun d => d.get64 CAD_BUS_BAD_CNT.addr = 1 && d.is CAD_FLAGS.BUS_BAD && d.out = []) = true := by decide

def wbusSilence : State := at' fun d => { (d.put DCT_MODE.CUR 1).set1 CAD_STAT.BUS_OK with force := [(CAD_CTL.addr, 0x0000020A#32)], time := ms 10 }

/-- TicksAndTickBus. -/
theorem witness_busSilence : wbusSilence.Ready ∧ (wbusSilence.dev.capturing = true ∧ wbusSilence.dev.cad.busStopRx = false ∧ wbusSilence.dev.cad.busLost = false ∧ wbusSilence.dev.cad.busRxAt + ms 10 ≤ wbusSilence.dev.time)
    ∧ gives wbusSilence (.busSilenceTimeout) (fun d => !d.is CAD_STAT.BUS_OK && d.is CAD_FLAGS.BUS_LOST && d.ntq.input = [⟨.alert, idCAD, 0x012, 0#32, ms 10⟩]) = true := by decide


/-! ### Chapter 04 -/

def wportEnable : State := at' id

/-- PortControl. -/
theorem witness_portEnable : wportEnable.Ready ∧ (wportEnable.dev.is (AVP_PORT_CTL.EN 3) = false ∧ wportEnable.dev.portState 3 = 0)
    ∧ gives wportEnable (.portEnable .mca 3) (fun d => d.portState 3 = 1 && (d.port 3).link.running && d.ntq.input = [⟨.event, idAVP 3, 0x010, 1#32, 0⟩]) = true := by decide

/-- PortControl. -/
theorem witness_portRetrainDown : wportEnable.Ready ∧ (wportEnable.dev.portState 3 = 0)
    ∧ gives wportEnable (.portRetrain .mca 3) (fun d => d.is (AVP_FLAGS.BAD_STATE 3) && d.portState 3 = 0) = true := by decide

/-- PortControl. -/
theorem witness_qualifyDown : wportEnable.Ready ∧ (wportEnable.dev.portUp 3 = false)
    ∧ gives wportEnable (.qualifyStart .mca 3) (fun d => d.is (AVP_FLAGS.BAD_STATE 3) && d.portState 3 = 0) = true := by decide

/-- PortControl. -/
theorem witness_bitslipDown : wportEnable.Ready ∧ (wportEnable.dev.Admits .mca (AVP_LANE_CTL.addr 3 1) ∧ wportEnable.dev.portState 3 ≠ 2)
    ∧ gives wportEnable (.bitslip .mca 3 1) (fun d => d.is (AVP_FLAGS.BAD_STATE 3)) = true := by decide

def wportEnableAgain : State := at' fun d => d.set1 (AVP_PORT_CTL.EN 3)

/-- PortControl. -/
theorem witness_portEnableAgain : wportEnableAgain.Ready ∧ (wportEnableAgain.dev.is (AVP_PORT_CTL.EN 3) = true)
    ∧ gives wportEnableAgain (.portEnable .mca 3) (fun d => d.portState 3 = 0 && d.ntq.input = []) = true := by decide

def wportDisable : State := at' fun d => ((d.set1 (AVP_PORT_CTL.EN 3)).put (AVP_PORT_STAT.STATE 3) 5).put (AVP_PORT_STAT.MASK 3) 15

/-- PortControl. -/
theorem witness_portDisable : wportDisable.Ready ∧ (wportDisable.dev.is (AVP_PORT_CTL.EN 3) = true ∧ wportDisable.dev.portState 3 ≠ 0)
    ∧ gives wportDisable (.portDisable .mca 3) (fun d => d.portState 3 = 0 && d.ntq.input = [⟨.event, idAVP 3, 0x010, 0x50#32, 0⟩]) = true := by decide

/-- PortControl. -/
theorem witness_portRetrain : wportDisable.Ready ∧ (wportDisable.dev.portState 3 ≠ 0 ∧ wportDisable.dev.portState 3 ≠ 8)
    ∧ gives wportDisable (.portRetrain .mca 3) (fun d => d.portState 3 = 1 && d.get (AVP_PORT_STAT.CEILING 3) = 3 && (d.port 3).link.blocks = [.retrain]) = true := by decide

/-- PortControl. -/
theorem witness_qualifyStart : wportDisable.Ready ∧ (wportDisable.dev.portState 3 = 5)
    ∧ gives wportDisable (.qualifyStart .mca 3) (fun d => d.portState 3 = 6 && d.is (AVP_QUAL_STAT.RUN 3) && (d.port 3).link.blocks = [.qualStart 3 32]) = true := by decide

def wbitslip : State := at' fun d => ((d.set1 (AVP_PORT_CTL.SLIP_MODE 3)).put (AVP_PORT_STAT.STATE 3) 2).set1 (AVP_LANE_STAT.LOCK 3 1)

/-- PortControl. -/
theorem witness_bitslip : wbitslip.Ready ∧ (wbitslip.dev.portState 3 = 2 ∧ wbitslip.dev.is (AVP_PORT_CTL.SLIP_MODE 3) = true)
    ∧ gives wbitslip (.bitslip .mca 3 1) (fun d => (d.port 3).link.boundary = [(1, 1)] && !d.is (AVP_LANE_STAT.LOCK 3 1)) = true := by decide

def wslipEnd : State := at' fun d => Dev.forEach (d.put (AVP_PORT_STAT.STATE 3) 2) (List.range 4) fun l d => d.set1 (AVP_LANE_STAT.LOCK 3 l)

/-- PortBringUp. -/
theorem witness_slipEnd : wslipEnd.Ready ∧ (∀ l : Fin 4, wslipEnd.dev.is (AVP_LANE_STAT.EXCLUDED 3 l) = false ∧ wslipEnd.dev.is (AVP_LANE_STAT.LOCK 3 l) = true)
    ∧ gives wslipEnd (.slipEnd 3) (fun d => d.portState 3 = 3) = true := by decide

def wulcStable : State := at' fun d => d.put (AVP_PORT_STAT.STATE 3) 1

/-- PortBringUp. -/
theorem witness_ulcStable : wulcStable.Ready ∧ (wulcStable.dev.portState 3 = 1 ∧ (wulcStable.dev.port 3).link.hold = none)
    ∧ gives wulcStable (.ulcStable 3 0b0111#4) (fun d => d.portState 3 = 2 && d.is (AVP_LANE_STAT.EXCLUDED 3 3) && !d.is (AVP_LANE_STAT.EXCLUDED 3 0) && d.get64 (AVP_ATTEMPT_CNT.addr 3) = 1) = true := by decide

/-- PortFailures. -/
theorem witness_ulcWrongRate : wulcStable.Ready ∧ (True)
    ∧ gives wulcStable (.ulcWrongRate 3) (fun d => d.is (AVP_FLAGS.ULC_RATE_BAD 3) && d.portState 3 = 1) = true := by decide

def wdeskewEnd : State := at' fun d => (Dev.forEach (d.put (AVP_PORT_STAT.STATE 3) 3) (List.range 4) fun l d => d.set1 (AVP_LANE_STAT.LOCK 3 l)).setLink 3
    fun k => { k with markers := [(0, ⟨7, 10⟩), (1, ⟨7, 11⟩), (2, ⟨7, 10⟩), (3, ⟨7, 74⟩)] }

/-- PortBringUp. -/
theorem witness_deskewEnd : wdeskewEnd.Ready ∧ (wdeskewEnd.dev.portState 3 = 3 ∧ (wdeskewEnd.dev.port 3).link.kind = .fresh)
    ∧ gives wdeskewEnd (.deskewEnd 3) (fun d => d.portState 3 = 4 && d.get (AVP_PORT_STAT.MASK 3) = 15 && d.get (AVP_LANE_STAT.SKEW 3 3) = 64 && (d.port 3).pk.ready.length = 1) = true := by decide

def wcapsReceive : State := at' fun d => (d.put (AVP_PORT_STAT.STATE 3) 4).put (AVP_PORT_STAT.MASK 3) 15

/-- PortBringUp. -/
theorem witness_capsReceive : wcapsReceive.Ready ∧ (RxPacket.verdict ⟨mkPacket 0x07 0 0 ([0x03, 4, 0, 0x10, 8, 0] ++ le 2 1 ++ le 4 0 ++ le 12 0), true, true⟩ 0x07 (· = 36) true = .taken
    ∧ Dev.capsOk ([0x03, 4, 0, 0x10, 8, 0] ++ le 2 1 ++ le 4 0 ++ le 12 0) = true ∧ wcapsReceive.dev.get (AVP_PORT_CFG.VER_MAX 3) = 2
    ∧ wcapsReceive.dev.get (AVP_PORT_CFG.LANES_MAX 3) = 2 ∧ wcapsReceive.dev.get (AVP_PORT_STAT.RATE 3) = 0)
    ∧ gives wcapsReceive (.capsReceive 3 ⟨mkPacket 0x07 0 0 ([0x03, 4, 0, 0x10, 8, 0] ++ le 2 1 ++ le 4 0 ++ le 12 0), true, true⟩) (fun d => d.portState 3 = 5 && d.get (AVP_PORT_STAT.VERSION 3) = 2 && d.get (AVP_PORT_STAT.LANES 3) = 4 && d.out.length = 1) = true := by decide

def wulcLostSeek : State := at' fun d => (d.put (AVP_PORT_STAT.STATE 3) 1).put (AVP_PORT_STAT.CEILING 3) 1

/-- PortFailures. -/
theorem witness_ulcLostSeek : wulcLostSeek.Ready ∧ (wulcLostSeek.dev.portState 3 < 2)
    ∧ gives wulcLostSeek (.ulcLost 3) (fun d => d.get (AVP_PORT_STAT.CEILING 3) = 3 && d.portState 3 = 1) = true := by decide

def wofferAgain : State := at' fun d => { (d.put (AVP_PORT_STAT.STATE 3) 4).setLink 3 fun k => { k with offers := 3, attempt := some 0 } with time := ms 5 }

/-- PortFailures. -/
theorem witness_offerAgain : wofferAgain.Ready ∧ ((wofferAgain.dev.port 3).link.offers < 4)
    ∧ gives wofferAgain (.capsOfferTimeout 3) (fun d => (d.port 3).link.offers = 4 && (d.port 3).pk.ready.length = 1) = true := by decide

/-- PortFailures. -/
theorem witness_attemptTimeout : wofferAgain.Ready ∧ ((wofferAgain.dev.port 3).link.attempt = some 0 ∧ ms 5 ≤ wofferAgain.dev.time)
    ∧ gives wofferAgain (.attemptTimeout 3) (fun d => d.portState 3 = 1 && d.get (AVP_ATTEMPT.LAST_REASON 3) = 6 && (d.port 3).link.hold = some (ms 10)) = true := by decide

/-- PortFailures. -/
theorem witness_ulcLost : wofferAgain.Ready ∧ (True)
    ∧ gives wofferAgain (.ulcLost 3) (fun d => d.portState 3 = 1 && d.get (AVP_ATTEMPT.LAST_REASON 3) = 7 && d.get (AVP_ATTEMPT.FAILS 3) = 1) = true := by decide

def woffersEnd : State := at' fun d => { (d.put (AVP_PORT_STAT.STATE 3) 4).setLink 3 fun k => { k with offers := 4, attempt := some 0 } with time := ms 1 }

/-- PortFailures. -/
theorem witness_offersEnd : woffersEnd.Ready ∧ (4 ≤ (woffersEnd.dev.port 3).link.offers)
    ∧ gives woffersEnd (.capsOfferTimeout 3) (fun d => d.portState 3 = 1 && d.get (AVP_ATTEMPT.LAST_REASON 3) = 3) = true := by decide

def wdegradeTimeout : State := at' fun d => { (d.put (AVP_PORT_STAT.STATE 3) 7).setLink 3 fun k => { k with degrade := some ⟨3, 2, some 0, []⟩ } with time := us 20 }

/-- PortFailures. -/
theorem witness_degradeTimeout : wdegradeTimeout.Ready ∧ (wdegradeTimeout.dev.portUp 3 = true)
    ∧ gives wdegradeTimeout (.degradeAlignTimeout 3) (fun d => d.portState 3 = 1 && d.get (AVP_ATTEMPT.LAST_REASON 3) = 2) = true := by decide

/-- PortFailures. -/
theorem witness_ulcLostUp : wdegradeTimeout.Ready ∧ (5 ≤ wdegradeTimeout.dev.portState 3 ∧ wdegradeTimeout.dev.portState 3 ≤ 7)
    ∧ gives wdegradeTimeout (.ulcLost 3) (fun d => d.portState 3 = 1 && (d.port 3).link.hold = some (us 20 + ms 10) && d.get (AVP_ATTEMPT.FAILS 3) = 0) = true := by decide

/-- PortFailures. -/
theorem witness_portFault : wdegradeTimeout.Ready ∧ (True)
    ∧ gives wdegradeTimeout (.portLogicFault 3 2) (fun d => d.portState 3 = 8) = true := by decide

def wholdEnd : State := at' fun d => { d.setLink 3 fun k => { k with hold := some 5 } with time := 5 }

/-- PortFailures. -/
theorem witness_holdEnd : wholdEnd.Ready ∧ (True)
    ∧ gives wholdEnd (.seekHoldEnd 3) (fun d => (d.port 3).link.hold = none) = true := by decide

def wsignalLoss : State := at' fun d => ((d.put (AVP_PORT_STAT.STATE 3) 2).set1 (AVP_LANE_STAT.SIGNAL 3 0)).set1 (AVP_LANE_STAT.LOCK 3 0)

/-- PortLanesAndPlls. -/
theorem witness_signalLoss : wsignalLoss.Ready ∧ (True)
    ∧ gives wsignalLoss (.laneSignalLoss 3 0) (fun d => !d.is (AVP_LANE_STAT.SIGNAL 3 0) && d.is (AVP_LANE_STAT.EXCLUDED 3 0)) = true := by decide

/-- PortLanesAndPlls. -/
theorem witness_lockGained : wsignalLoss.Ready ∧ (True)
    ∧ gives wsignalLoss (.blockLockGained 3 1) (fun d => d.is (AVP_LANE_STAT.LOCK 3 1)) = true := by decide

/-- PortLanesAndPlls. -/
theorem witness_headerError : wsignalLoss.Ready ∧ (wsignalLoss.dev.is (AVP_LANE_STAT.LOCK 3 0) = true)
    ∧ gives wsignalLoss (.headerError 3 0) (fun d => d.get64 (AVP_HDR_ERR_CNT.addr 3 0) = 1) = true := by decide

/-- PortLanesAndPlls. -/
theorem witness_lockLost : wsignalLoss.Ready ∧ (wsignalLoss.dev.portUp 3 = false)
    ∧ gives wsignalLoss (.blockLockLost 3 0) (fun d => !d.is (AVP_LANE_STAT.LOCK 3 0) && d.get64 (AVP_LOCK_LOSS_CNT.addr 3) = 1) = true := by decide

/-- PortLanesAndPlls. -/
theorem witness_badControl : wsignalLoss.Ready ∧ (True)
    ∧ gives wsignalLoss (.reservedControlBlock 3) (fun d => d.get64 (AVP_CTRL_BAD_CNT.addr 3) = 1) = true := by decide

def wdegrade : State := at' fun d => Dev.forEach ((d.put (AVP_PORT_STAT.STATE 3) 5).put (AVP_PORT_STAT.MASK 3) 15) (List.range 4) fun l d => d.set1 (AVP_LANE_STAT.LOCK 3 l)

/-- PortLanesAndPlls. -/
theorem witness_degrade : wdegrade.Ready ∧ (wdegrade.dev.portUp 3 = true ∧ ∀ j : Fin 4, wdegrade.dev.is (AVP_LANE_STAT.LOCK 3 j) = true)
    ∧ gives wdegrade (.blockLockLost 3 1) (fun d => d.portState 3 = 7 && d.get (AVP_PORT_STAT.MASK 3) = 5 && d.get (AVP_PORT_STAT.LANES 3) = 2) = true := by decide

def walign : State := at' fun d => (d.put (AVP_PORT_STAT.STATE 3) 3).set1 (AVP_LANE_STAT.LOCK 3 1)

/-- PortLanesAndPlls. -/
theorem witness_align : walign.Ready ∧ (slice 0xA5C3_5A_1234_04_01_4B 16 4 = 4 ∧ slice 0xA5C3_5A_1234_04_01_4B 48 16 = 0xA5C3)
    ∧ gives walign (.alignReceive 3 1 0xA5C3_5A_1234_04_01_4B#64 9 0x5A#8) (fun d => (d.port 3).link.markers = [(1, ⟨0x1234, 9⟩)] && d.get64 (AVP_BIP_ERR_CNT.addr 3 1) = 0) = true := by decide

def wqualifyEnd : State := at' fun d => (d.put (AVP_PORT_STAT.STATE 3) 6).put (AVP_PORT_STAT.MASK 3) 15

/-- PortLanesAndPlls. -/
theorem witness_qualifyEnd : wqualifyEnd.Ready ∧ (wqualifyEnd.dev.get (AVP_QUAL_CTL.DUR 3) = 32)
    ∧ gives wqualifyEnd (.qualifyEnd 3 ⟨2 ^ 32, 1, true⟩ ⟨2 ^ 32, 0, true⟩ ⟨2 ^ 32, 0, true⟩ ⟨2 ^ 32, 0, true⟩) (fun d => d.portState 3 = 2 && d.get64 (AVP_QUAL_ERR.addr 3 0) = 1 && d.get64 (AVP_QUAL_BITS.addr 3 3) = 2 ^ 32) = true := by decide

def wcontrolSend : State := at' fun d => d.setLink 3 fun k => { k with blocks := [.rateGo 3], running := true }

/-- PortLanesAndPlls. -/
theorem witness_controlSend : wcontrolSend.Ready ∧ (True)
    ∧ gives wcontrolSend (.downlinkControlSend 3) (fun d => d.out = [.block 3 [0x66, 3, 0, 0, 0, 0, 0, 0]] && (d.port 3).link.blocks = []) = true := by decide

def wpllLoss : State := at' fun d => d.setReg LPH_PLL_STAT.addr 0x3F#32

/-- PortLanesAndPlls. -/
theorem witness_pllLoss : wpllLoss.Ready ∧ (wpllLoss.dev.pllLocked 2 = true)
    ∧ gives wpllLoss (.pllLockLoss 2) (fun d => d.reg LPH_PLL_STAT.addr = 0x35#32) = true := by decide

def wpllBack : State := at' fun d => d.setReg LPH_PLL_STAT.addr 0x35#32

/-- PortLanesAndPlls. -/
theorem witness_pllBack : wpllBack.Ready ∧ (wpllBack.dev.pllLocked 2 = false)
    ∧ gives wpllBack (.pllRelockDone 2 true) (fun d => d.reg LPH_PLL_STAT.addr = 0x3F#32) = true := by decide

def wadapt : State := at' fun d => ((d.set1 (AVP_LANE_CTL.ADAPT 3 1)).put (AVP_LANE_CTL.PEAK 3 1) 30).put (AVP_LANE_STAT.PEAK_NOW 3 1) 30

/-- PortLanesAndPlls. -/
theorem witness_adapt : wadapt.Ready ∧ (wadapt.dev.is (AVP_LANE_CTL.ADAPT 3 1) = true ∧ wadapt.dev.is (LPH_EQ_OVR.EN 3) = false)
    ∧ gives wadapt (.equaliserAdapt 3 1 true 4096) (fun d => d.get (AVP_LANE_STAT.PEAK_NOW 3 1) = 31) = true := by decide

/-- PortLanesAndPlls. -/
theorem witness_adaptDown : wadapt.Ready ∧ (True)
    ∧ gives wadapt (.equaliserAdapt 3 1 false 4096) (fun d => d.get (AVP_LANE_STAT.PEAK_NOW 3 1) = 29) = true := by decide


/-! ### Chapter 05 -/

/-- A port that is UP, ranged, with a command sent, in STREAM. -/
def up (f : Dev → Dev) : State := at' fun d =>
  f { ((((d.put (AVP_PORT_STAT.STATE 3) 5).set1 (AVP_RANGE_STAT.RANGED 3)).put DCT_MODE.CUR 1).setReg (AVP_CAM_CAPS.addr 3 0) 0x10000000#32).setPk 3
      fun k => { k with sent := [⟨0, 7, 5000, 7, none⟩] } with
    force := [(AVP_GEOM_W.addr 3, 0#32), (CHT_ASSIGN.addr 3, 0x1#32)] }
def fs : RxPacket := ⟨mkPacket 0x01 0 0 (le 8 9 ++ le 4 7 ++ le 2 16 ++ le 2 2 ++ le 1 0 ++ le 1 0 ++ le 2 0 ++ le 1 0 ++ le 3 0), true, true⟩
def line0 : RxPacket := ⟨mkPacket 0x02 1 (9 * 2 ^ 16) (List.replicate 16 3), true, true⟩
def band : Band := ⟨some 1, 3, 9, 0, 7, 16, 2, 0, 0, 2, 0, 0xFFFFFFFF#32, false, 0, [], 0, 5000, 7, false⟩
def rec1 : Machine.Frame := ⟨1, 3, 1, 0, 7, 0, 9, 5000, 7, [], [3], none, none, [], 0, 0, 0, 0, 1, [], none, none, []⟩

def wframeStart : State := up id

/-- FrameReceive. -/
theorem witness_frameStart : wframeStart.Ready ∧ (wframeStart.dev.portUp 3 = true ∧ fs.verdict 0x01 (· = 36) (field fs.body 16 1 ≤ 4) = .taken ∧ wframeStart.dev.headOf 3 = 3 ∧ wframeStart.dev.gangSize 3 = 1
    ∧ wframeStart.dev.gangMismatch 3 = false ∧ wframeStart.dev.idleColumn 3 7 = false ∧ wframeStart.dev.forceGet (AVP_GEOM_W.WIDTH 3) = 0
    ∧ wframeStart.dev.forceGet (AVP_GEOM_H.HEIGHT 3) = 0 ∧ wframeStart.dev.forceGet (AVP_GEOM_W.FORMAT 3) = field fs.body 16 1
    ∧ (wframeStart.dev.port 3).pk.sent.find? (fun c => c.source = field fs.body 20 1 && c.id = field fs.body 8 4) = some ⟨0, 7, 5000, 7, none⟩)
    ∧ gives wframeStart (.frameStartReceive 3 fs) (fun d => ((d.port 3).pk.band.map (·.lines)) = some 2 && d.clr.frames.length = 1 && d.evr.input = [⟨0x83, 0, []⟩]) = true := by decide

def wlineData : State := up fun d => (d.put (AVP_CREDIT_LIMIT.LIMIT 3) 4).setPk 3 fun k => { k with band := some band }

/-- FrameReceive. -/
theorem witness_lineData : wlineData.Ready ∧ (line0.verdict 0x02 (· = 12 + lineBytes 16 0) true = .taken ∧ slice line0.tag 16 16 = 9 ∧ slice line0.tag 0 16 = 0)
    ∧ gives wlineData (.lineDataReceive 3 line0) (fun d => (d.port 3).pk.buffer.length = 1 && ((d.port 3).pk.band.map (·.next)) = some 1) = true := by decide

def wframeEnd : State := up fun d => { d.setPk 3 fun k => { k with band := some { band with next := 2, crc := 5, counted := 2 } } with clr := ⟨64, [rec1], [], 2⟩ }

/-- FrameReceive. -/
theorem witness_frameEnd : wframeEnd.Ready ∧ (RxPacket.verdict ⟨mkPacket 0x03 3 0 (le 8 9 ++ le 4 0xFFFFFFFA ++ le 2 2 ++ le 2 0), true, true⟩ 0x03 (· = 28) true = .taken)
    ∧ gives wframeEnd (.frameEndReceive 3 ⟨mkPacket 0x03 3 0 (le 8 9 ++ le 4 0xFFFFFFFA ++ le 2 2 ++ le 2 0), true, true⟩) (fun d => (d.port 3).pk.band.isNone && d.get64 (AVP_FRAME_CNT.addr 3) = 1 && (d.clr.frames.map (·.flags)) = [0]) = true := by decide

def wframeTimeout : State := up fun d => { d.setPk 3 fun k => { k with band := some { band with next := 1, counted := 1 } } with clr := ⟨64, [rec1], [], 2⟩, time := us 2000000 }

/-- FrameReceive. -/
theorem witness_frameTimeout : wframeTimeout.Ready ∧ (wframeTimeout.dev.frameTmo 3 ≤ wframeTimeout.dev.time)
    ∧ gives wframeTimeout (.frameTimeout 3) (fun d => (d.port 3).pk.band.isNone && (d.clr.frames.map (·.flags)) = [3] && ((d.port 3).pk.buffer.map fun l => (l.line, l.missing)) = [(1, true)]) = true := by decide

def wgangBandTimeout : State := up fun d => { d with clr := ⟨64, [rec1], [], 2⟩, time := us 2000000 }

/-- FrameReceive. -/
theorem witness_gangBandTimeout : wgangBandTimeout.Ready ∧ (wgangBandTimeout.dev.frameTmo 3 ≤ wgangBandTimeout.dev.time)
    ∧ gives wgangBandTimeout (.gangBandTimeout 3) (fun d => (d.clr.frames.map (·.flags)) = [3] && (d.clr.frames.map (·.waiting)) = [[]]) = true := by decide

def wlineConsumed : State := up fun d => { d.setPk 3 fun k => { k with freed := 2, buffer := [⟨none, 0, [], 0, false, true, false⟩] } with time := us 100 }

/-- LineCredits. -/
theorem witness_lineConsumed : wlineConsumed.Ready ∧ (True)
    ∧ gives wlineConsumed (.lineConsumed 3) (fun d => (d.port 3).pk.freed = 1 && d.get (AVP_CREDIT_USED.USED 3) = 1) = true := by decide

/-- LineCredits. -/
theorem witness_creditSend : wlineConsumed.Ready ∧ (wlineConsumed.dev.portUp 3 = true ∧ wlineConsumed.dev.limitNow 3 = 4)
    ∧ gives wlineConsumed (.creditSend 3) (fun d => d.get (AVP_CREDIT_LIMIT.LIMIT 3) = 4 && (d.port 3).pk.ready.length = 1) = true := by decide

/-- LineCredits. -/
theorem witness_lineBroadcast : wlineConsumed.Ready ∧ (True)
    ∧ gives wlineConsumed (.lineBroadcast 3) (fun d => (d.port 3).pk.buffer.isEmpty && (d.port 3).pk.freed = 3) = true := by decide

def wlineBeat : State := up fun d => (d.setPk 3 fun k => { k with buffer := [⟨some 1, 0, List.replicate 40 3, 0, false, true, false⟩] }).setColumn 3
    fun c => { c with frames := [⟨1, 7, 3, 3, 1, 9, 16, 2, 0, 0, 2, ⟨1, 0, 0, 0, true, 0, 0, 0, 0, 0, 1, false, 0, 0, 0, 64, 0, [99], none⟩
    , [.a], [], [], [], [], Stats.reset, 0, [], 0⟩] }

/-- LineCredits. -/
theorem witness_lineBeat : wlineBeat.Ready ∧ (wlineBeat.dev.windowHeld 2 7 = false ∧ wlineBeat.dev.slotsFree 1 0 = true)
    ∧ gives wlineBeat (.lineBroadcast 3) (fun d => ((d.column 3).frames.map fun f => f.delivered.map fun l => (l.data.length, l.full)) = [[(32, false)]]
    && ((d.port 3).pk.buffer.map (·.gone)) = [32] && (d.port 3).pk.freed = 0) = true := by decide

def wstatus : State := up fun d => d

/-- StatusAndCommands. -/
theorem witness_status : wstatus.Ready ∧ (RxPacket.verdict ⟨mkPacket 0x04 0 0 (le 4 5 ++ le 16 0), true, true⟩ 0x04 (· = 32) true = .taken)
    ∧ gives wstatus (.statusReceive 3 ⟨mkPacket 0x04 0 0 (le 4 5 ++ le 16 0), true, true⟩) (fun d => (d.port 3).pk.drops = some 5 && d.reg (AVP_CAM_STATUS.addr 3 0) = 5 && d.get64 (AVP_CAM_DROP_CNT.addr 3) = 0) = true := by decide

/-- TimeAndUrgent, EventRoutingAndTasks. -/
theorem witness_urgentFire : wstatus.Ready ∧ (wstatus.dev.exposing = true)
    ∧ gives wstatus (.urgentFire .task 3) (fun d => (d.port 3).link.urgents = [0]) = true := by decide

/-- TimeAndUrgent. -/
theorem witness_timeSend : wstatus.Ready ∧ ((wstatus.dev.port 3).rng.sentSinceUp = 0)
    ∧ gives wstatus (.timeSend 3 7) (fun d => (d.port 3).rng.sent = [⟨0, 7⟩] && (d.port 3).pk.ready.length = 1) = true := by decide

def wcommandGo : State := up fun d => d.put (AVP_CMD_CTL.COUNT 3) 1

/-- StatusAndCommands. -/
theorem witness_commandGo : wcommandGo.Ready ∧ ((wcommandGo.dev.port 3).pk.cmdNext < 256 ∧ wcommandGo.dev.headOf 3 = 3)
    ∧ gives wcommandGo (.cameraCommandGo .mca 3) (fun d => d.is (AVP_CMD_STAT.BUSY 3) && d.get (AVP_CMD_STAT.CMD_ID 3) = 1 && (d.port 3).pk.ready.length = 1) = true := by decide

def wstatusLost : State := up fun d => { (d.set1 (AVP_CMD_STAT.BUSY 3)).put (AVP_CMD_STAT.CMD_ID 3) 4 |>.setPk 3 fun k => { k with cmdTag := 0x10104 } with time := ms 100 }

/-- StatusAndCommands. -/
theorem witness_statusLost : wstatusLost.Ready ∧ (True)
    ∧ gives wstatusLost (.statusLost 3) (fun d => d.is (AVP_PFLAGS.STATUS_LOST 3)) = true := by decide

/-- StatusAndCommands. -/
theorem witness_response : wstatusLost.Ready ∧ (RxPacket.verdict ⟨mkPacket 0x05 0 0x10004 (le 4 0), true, true⟩ 0x05 (· = 16) true = .taken)
    ∧ gives wstatusLost (.responseReceive 3 ⟨mkPacket 0x05 0 0x10004 (le 4 0), true, true⟩) (fun d => !d.is (AVP_CMD_STAT.BUSY 3) && d.get (AVP_CMD_STAT.RESULT 3) = 0) = true := by decide

/-- StatusAndCommands. -/
theorem witness_commandTimeout : wstatusLost.Ready ∧ (us (100 * Nat.max 1 (wstatusLost.dev.get (AVP_CMD_CTL.TMO 3))) ≤ wstatusLost.dev.time)
    ∧ gives wstatusLost (.cameraCommandTimeout 3) (fun d => d.is (AVP_CMD_STAT.BUSY 3) && d.get64 (AVP_CMD_RETRY_CNT.addr 3) = 1 && (d.port 3).pk.ready.length = 1) = true := by decide

def wcommandTimeout2 : State := up fun d => { (d.set1 (AVP_CMD_STAT.BUSY 3)).setPk 3 fun k => { k with cmdRetried := true } with time := ms 100 }

/-- StatusAndCommands. -/
theorem witness_commandTimeout2 : wcommandTimeout2.Ready ∧ (True)
    ∧ gives wcommandTimeout2 (.cameraCommandTimeout 3) (fun d => !d.is (AVP_CMD_STAT.BUSY 3) && d.get (AVP_CMD_STAT.RESULT 3) = 5 && d.is (AVP_PFLAGS.CMD_TIMEOUT 3)) = true := by decide

def wresponseRead : State := up fun d => ((d.set1 (AVP_CMD_STAT.BUSY 3)).put (AVP_CMD_STAT.CMD_ID 3) 4).setPk 3 fun k => { k with cmdTag := 0x20004 }

/-- StatusAndCommands. -/
theorem witness_responseRead : wresponseRead.Ready ∧ (RxPacket.verdict ⟨mkPacket 0x05 0 0x20004 (le 4 0 ++ le 4 7 ++ le 4 9), true, true⟩ 0x05 (· = 24) true = .taken)
    ∧ gives wresponseRead (.responseReceive 3 ⟨mkPacket 0x05 0 0x20004 (le 4 0 ++ le 4 7 ++ le 4 9), true, true⟩) (fun d => !d.is (AVP_CMD_STAT.BUSY 3) && d.reg (AVP_CMD_BUF.addr 3 1) = 9) = true := by decide

def wtimeEcho : State := at' fun d => (d.put (AVP_PORT_STAT.STATE 3) 5).setRng 3 fun r => { r with sent := [⟨6, 1000⟩] }

/-- TimeAndUrgent. -/
theorem witness_timeEcho : wtimeEcho.Ready ∧ (RxPacket.verdict ⟨mkPacket 0x06 0 6 (le 4 100 ++ le 4 0), true, true⟩ 0x06 (· = 20) true = .taken)
    ∧ gives wtimeEcho (.timeEchoReceive 3 ⟨mkPacket 0x06 0 6 (le 4 100 ++ le 4 0), true, true⟩ 1600) (fun d => d.get (AVP_RANGE_D.D 3) = 250 && d.get (AVP_RANGE_STAT.ACCEPTED 3) = 1) = true := by decide

/-- TimeAndUrgent, EventRoutingAndTasks. -/
theorem witness_urgentRefused : wtimeEcho.Ready ∧ (wtimeEcho.dev.is (AVP_RANGE_STAT.RANGED 3) = false)
    ∧ gives wtimeEcho (.urgentFire (.write .mca) 3) (fun d => d.get64 (AVP_URGENT_REFUSED_CNT.addr 3) = 1) = true := by decide

def wurgentPends : State := up fun d => d.setLink 3 fun l => { l with urgents := [0] }

/-- TimeAndUrgent, EventRoutingAndTasks. -/
theorem witness_urgentPends : wurgentPends.Ready ∧ ((wurgentPends.dev.taskPending 0x53).1 < 4)
    ∧ gives wurgentPends (.urgentFire (.write .mca) 3) (fun d => (d.taskPending 0x53).1 = 1 && (d.port 3).link.urgents = [0]) = true := by decide

def wurgentSend : State := up fun d => d.setLink 3 fun l => { l with urgents := [0] }

/-- TimeAndUrgent. -/
theorem witness_urgentSend : wurgentSend.Ready ∧ (True)
    ∧ gives wurgentSend (.urgentSend 3 0) (fun d => (d.port 3).link.urgents.isEmpty && d.get64 (AVP_URGENT_CNT.addr 3) = 1 && d.out = [.block 3 [0x2D, 0, 1, 0, 0, 0, 0, 0]]) = true := by decide


/-! ### Chapter 06 -/

def cfg1 : ColConfig := ⟨1, 0, 0, 0, true, 0, 0, 0, 0, 0, 1, true, 0x1000, 0x40, 0xFFFF, 64, 0, [132], none⟩
def cf1 : ColFrame := ⟨1, 7, 4, 4, 1, 0, 32, 3, 0, 0, 3, cfg1, [.a], [⟨0, List.replicate 32 5, true, false⟩, ⟨1, [], true, true⟩]
  , [], [], [], Stats.reset, 0, [], 0⟩
def cf2 : ColFrame := { cf1 with config := { cfg1 with streamOn := false } }
def ks1 : KernelSet := ⟨1, 8, 0, 0, 0, 0, 0, 0, 0, 0, [], [], 0, 1, 1, 0, 0, 0, 0xFFFF, 0, 0, 0, 0, 0⟩
/-- Column 4 with a frame in work on teller 132; its microword 0 is `w`: MOV of PIX to stream A with END, or a jump to itself. -/
def work (w : List Nat) (g : Teller → Teller) (f : ColFrame → ColFrame) : State := at' fun d =>
  let d := d.setColumn 4 fun c => { c with frames := [f cf1] }
  let d := d.setTeller 132 fun t => g { t with frame := some 1 }
  (w.zipIdx).foldl (fun d e => d.storeSet 132 (0xC000 + e.2) e.1) (d.set1 VLT_STAT.INIT_DONE)
/-- The result queues of the columns a number of beats long, one stream A waiting in that of column 4. -/
def shallow (n : Nat) (s : State) : State :=
  { s with dev := { s.dev.setColumn 4 fun c => { c with queue := [⟨1, 7, 4, .a, [], false, []⟩] } with cht := { (s.dev.setColumn 4
    fun c => { c with queue := [⟨1, 7, 4, .a, [], false, []⟩] }).cht with depth := n } } }
def ended : List Nat := [0, 0, 0, 0x4000, 0, 0, 0x8000, 0x8000]
def loops : List Nat := [0, 0, 0, 0, 0, 0, 0, 0x1000]

def wcharterLoad : State := at' fun d => (d.put (CHT_IMG_LO.ADDR 4) 0x100).put (CHT_COEF.HI 4) 32

/-- CharterControl. -/
theorem witness_charterLoad : wcharterLoad.Ready ∧ (wcharterLoad.dev.stagedHead 4 = 4 ∧ wcharterLoad.dev.stagedGang 4 = [4] ∧ wcharterLoad.dev.forceGet (CHT_ASSIGN.MODE (wcharterLoad.dev.headOf 4)) = 0)
    ∧ gives wcharterLoad (.charterLoad .mca 0x10#16) (fun d => d.is (CHT_COL_STAT.LOADING 4) && (d.column 4).load = some (0x4000, 0, 32)) = true := by decide

def wloadComplete : State := { at' (fun d => (d.set1 VLT_STAT.INIT_DONE).setColumn 4 fun c => { c with load := some (0x4000, 0, 2) }) with
    vault := [(0x400E, 0x80#8)] }

/-- CharterControl. -/
theorem witness_loadComplete : wloadComplete.Ready ∧ (wloadComplete.dev.imageReads 0x4000 0 2 = true) := by decide

/-- CharterControl. -/
theorem witness_loadError : wloadComplete.Ready ∧ (True)
    ∧ gives wloadComplete (.loadComplete 4 (some 133)) (fun d => !d.is (CHT_COL_STAT.LOADED 4) && d.is CHT_FLAGS.LOAD_ERR) = true := by decide

def wcharterArm : State := at' fun d => ((d.put (CHT_COEF.HI 4) 64).set1 (CHT_COL_STAT.LOADED 4)).setColumn 4 fun c => { c with stagedKernel := some ks1 }

/-- CharterControl. -/
theorem witness_charterArm : wcharterArm.Ready ∧ (wcharterArm.dev.armReason 4 = none ∧ wcharterArm.dev.stagedGang (wcharterArm.dev.stagedHead 4) = [4])
    ∧ gives wcharterArm (.charterArm .mca 0x10#16) (fun d => d.bitOf CHT_ARM.addr 4) = true := by decide

/-- CharterControl. -/
theorem witness_charterArmRefused : wcharterArm.Ready ∧ (wcharterArm.dev.stagedGang (wcharterArm.dev.stagedHead 5) = [5])
    ∧ gives wcharterArm (.charterArm .mca 0x20#16) (fun d => d.get (CHT_COL_STAT.REASON 5) = 1 && d.is CHT_FLAGS.ARM_REFUSED) = true := by decide

def wcharterDisarm : State := at' fun d => (d.setBit CHT_ARM.addr 4).set1 (CHT_COL_STAT.OLD_BUSY 4) |>.setColumn 4 fun c => { c with switchTick := some 9 }

/-- CharterControl. -/
theorem witness_charterDisarm : wcharterDisarm.Ready ∧ (wcharterDisarm.dev.bitOf CHT_ARM.addr 4 = true)
    ∧ gives wcharterDisarm (.charterDisarm .mca 0x10#16) (fun d => !d.bitOf CHT_ARM.addr 4) = true := by decide

/-- CharterControl. -/
theorem witness_switchComplete : wcharterDisarm.Ready ∧ (wcharterDisarm.dev.oldWork 4 9 = false)
    ∧ gives wcharterDisarm (.switchComplete 4) (fun d => !d.is (CHT_COL_STAT.OLD_BUSY 4) && !d.bitOf CHT_ARM.addr 4 && d.get64 CHT_SWITCH_CNT.addr = 1) = true := by decide

def wgroupRun : State := work ended id fun f => { f with delivered := [] }

/-- TellerWork. -/
theorem witness_groupRun : wgroupRun.Ready ∧ ((wgroupRun.dev.job 132).isSome = true ∧ (wgroupRun.dev.stallOf { cf1 with delivered := [] } 132 0 0 0).isSome = true)
    ∧ gives wgroupRun (.groupRun 132) (fun d => d.is (CHT_T_STAT.STALLED 132) && (d.teller 132).group = 0 && (d.teller 132).out = []) = true := by decide

def wgroupRun2 : State := work ended id fun f => { f with config := { f.config with streamOn := false } }

/-- TellerWork. -/
theorem witness_groupRun2 : wgroupRun2.Ready ∧ (wgroupRun2.dev.job 132 = some (4, cf2, 0) ∧ wgroupRun2.dev.stallOf cf2 132 0 0 0 = none
    ∧ (wgroupRun2.dev.runGroup cf2 132 0 0 0).2 = true ∧ Dev.fifoUsed (wgroupRun2.dev.runGroup cf2 132 0 0 0).1.t.out = 64) := by decide

def wgroupMissing : State := work ended (fun t => { t with line := 1 }) fun f => { f with config := { f.config with streamOn := false } }

/-- TellerWork. -/
theorem witness_groupMissing : wgroupMissing.Ready ∧ (True)
    ∧ gives wgroupMissing (.groupRun 132) (fun d => (d.teller 132).line = 2 && ((d.teller 132).out.map (·.vals)) = [List.replicate 32 0] && d.get64 (CHT_T_GROUP_CNT.addr 132) = 0) = true := by decide

def wgroupKernel : State := work ended id fun f => { f with config := { f.config with streamOn := false, kernel := some ks1 } }

/-- TellerWork. -/
theorem witness_groupKernel : wgroupKernel.Ready ∧ (True)
    ∧ gives wgroupKernel (.groupRun 132) (fun d => (d.teller 132).line = 1 && ((d.teller 132).out.map (·.vals)) = [List.replicate 32 5] && d.get64 (CHT_T_GROUP_CNT.addr 132) = 1) = true := by decide

def wrunaway : State := work loops id fun f => { f with config := { f.config with streamOn := false, stepLimit := 2 } }

/-- TellerWork. -/
theorem witness_runaway : wrunaway.Ready ∧ (wrunaway.dev.since (.runaway 4) (ms 1) = true ∧ (wrunaway.dev.runGroup (((wrunaway.dev.job 132).map fun j => j.2.1).getD cf1) 132 0 0 0).2 = false) := by decide

def wmintSegment : State := work ended (fun t => { t with mint := [⟨0, 0, List.replicate 257 4, List.replicate 257 0, 257, [], 9, false⟩] }) id

/-- TellerWork. -/
theorem witness_mintSegment : wmintSegment.Ready ∧ (True)
    ∧ gives wmintSegment (.mintSegmentEmit 132) (fun d => ((d.teller 132).mint.map (·.vals.length)) = [1]) = true := by decide

def wmintClosed : State := work ended (fun t => { t with mint := [⟨0, 0, [], [], 32, [[1#8]], 1, true⟩] }) id

/-- TellerWork. -/
theorem witness_mintClosed : wmintClosed.Ready ∧ (True)
    ∧ gives wmintClosed (.mintSegmentEmit 132) (fun d => (d.teller 132).mint.isEmpty && (d.teller 132).out.length = 1) = true := by decide

def wresultSend : State := work ended (fun t => { t with line := 3, bytes := [9, 0, 0, 0] }) id

/-- TellerWork. -/
theorem witness_resultSend : wresultSend.Ready ∧ (cf1.workLines 0 = [0, 1, 2])
    ∧ gives wresultSend (.tellerResultSend 132) (fun d => ((d.column 4).results.map (·.bytes)) = [[2, 0, 0, 0]] && d.get64 (CHT_T_WORK.addr 132) = 2 ^ 64 - 1) = true := by decide

def wstreamFetch : State := { work ended id id with vault := [(0x1002, 7)] }

/-- TellerWork. -/
theorem witness_streamFetch : wstreamFetch.Ready ∧ (wstreamFetch.dev.readsAs .teller 0x1000 64 = true)
    ∧ gives wstreamFetch (.streamLineFetch 132 false) (fun d => (d.teller 132).streamed = 1 && d.storeAt 132 0x6001 = 7) = true := by decide

def wmergerTake : State := work ended (fun t => { t with line := 1, out := [⟨1, .a, 0, 0, List.replicate 32 5, []⟩] }) id

/-- MergerTakes. -/
theorem witness_mergerTake : wmergerTake.Ready ∧ (wmergerTake.dev.passed cf1 0 0 0 = true ∧ wmergerTake.dev.bandTurn cf1 .a = true ∧ cf1.order[0]? = some 0)
    ∧ gives wmergerTake (.mergerTake 4 0) (fun d => ((d.column 4).frames.map fun f => (f.pos .a).lines) = [1] && (d.teller 132).out.isEmpty) = true := by decide

def wmergerGroup : State := work ended (fun t => { t with group := 1, out := [⟨1, .a, 0, 0, List.replicate 32 5, []⟩] }) fun f => { f with width := 64 }

/-- MergerTakes. -/
theorem witness_mergerGroup : wmergerGroup.Ready ∧ (True)
    ∧ gives wmergerGroup (.mergerTake 4 0) (fun d => ((d.column 4).frames.map fun f => (f.pos .a)) = [⟨0, 1, List.replicate 32 5, [], false⟩]) = true := by decide

def wmergerFull : State := shallow 0 (work ended (fun t => { t with line := 1, out := [⟨1, .a, 0, 0, List.replicate 32 5, []⟩] }) id)

/-- MergerTakes. -/
theorem witness_mergerFull : wmergerFull.Ready ∧ (True)
    ∧ gives wmergerFull (.mergerTake 4 0) (fun d => ((d.column 4).frames.map fun f => (f.pos .a).lines) = [0] && !(d.teller 132).out.isEmpty) = true := by decide

def wmergerWaits : State := work ended id id

/-- MergerTakes. -/
theorem witness_mergerWaits : wmergerWaits.Ready ∧ (wmergerWaits.dev.passed cf1 0 0 0 = false)
    ∧ gives wmergerWaits (.mergerTake 4 0) (fun d => ((d.column 4).frames.map fun f => (f.pos .a)) = [⟨0, 0, [], [], false⟩]) = true := by decide

/-- TellerFaults. -/
theorem witness_stepErrorTransient : wmergerWaits.Ready ∧ (wmergerWaits.dev.rowOf 132 = 0)
    ∧ gives wmergerWaits (.tellerStepError 132 .transient) (fun d => d.is (CHT_T_FLAGS.RETRIED 132) && d.get64 CHT_TRANSIENT_CNT.addr = 1) = true := by decide

/-- TellerFaults. -/
theorem witness_stepErrorLasting : wmergerWaits.Ready ∧ (wmergerWaits.dev.get (CHT_SPARE.ROW 4) = 63 ∧ wmergerWaits.dev.is (CHT_SPARE.AUTO 4) = true)
    ∧ gives wmergerWaits (.tellerStepError 132 .lasting) (fun d => d.is (CHT_T_CTL.RETIRE 132) && d.get (CHT_SPARE.ROW 4) = 0) = true := by decide

def wstepErrorOldRow : State := work ended id id |> fun s => { s with dev := s.dev.put (CHT_SPARE.ROW 4) 0 }

/-- TellerFaults. -/
theorem witness_stepErrorOldRow : wstepErrorOldRow.Ready ∧ (wstepErrorOldRow.dev.rowOf 132 = 63 ∧ (wstepErrorOldRow.dev.job 132).isSome = true)
    ∧ gives wstepErrorOldRow (.tellerStepError 132 .transient) (fun d => d.is (CHT_T_FLAGS.RETRIED 132) && d.get64 CHT_TRANSIENT_CNT.addr = 1) = true := by decide

def wselfCheckFail : State := at' id

/-- TellerFaults. -/
theorem witness_selfCheckFail : wselfCheckFail.Ready ∧ (True)
    ∧ gives wselfCheckFail (.tellerSelfCheckFail 132) (fun d => d.is (CHT_T_CTL.RETIRE 132) && d.get (CHT_SPARE.ROW 4) = 0 && d.get64 CHT_SWAP_CNT.addr = 1) = true := by decide

/-- TellerFaults. -/
theorem witness_stepErrorCorrected : wselfCheckFail.Ready ∧ (wselfCheckFail.dev.rowOf 132 ≠ 63)
    ∧ gives wselfCheckFail (.tellerStepError 132 .corrected) (fun d => d.get64 (CHT_T_RETRY_CNT.addr 132) = 1 && !d.is (CHT_T_FLAGS.RETRIED 132)) = true := by decide

/-- TellerFaults. -/
theorem witness_softRetire : wselfCheckFail.Ready ∧ (True)
    ∧ gives wselfCheckFail (.tellerSoftRetire .mca 132) (fun d => d.is (CHT_T_CTL.RETIRE 132) && (d.ntq.input.map (·.code)) = [0x015, 0x016, 0x020]) = true := by decide

def wpoolShrinks : State := at' fun d => d.unset (CHT_SPARE.AUTO 4)

/-- TellerFaults. -/
theorem witness_poolShrinks : wpoolShrinks.Ready ∧ (wpoolShrinks.dev.mode ≠ 7 ∧ wpoolShrinks.dev.rowOf 132 = 0)
    ∧ gives wpoolShrinks (.tellerSelfCheckFail 132) (fun d => d.mode = 7 && d.is CHT_FLAGS.POOL_SHRUNK) = true := by decide

/-- TellerFaults. -/
theorem witness_spareRow : wpoolShrinks.Ready ∧ (True)
    ∧ gives wpoolShrinks (.spareRowWrite .mca 4 31) (fun d => d.get (CHT_SPARE.ROW 4) = 31) = true := by decide

/-- TellerFaults. -/
theorem witness_spareRowBad : wpoolShrinks.Ready ∧ (True)
    ∧ gives wpoolShrinks (.spareRowWrite .mca 4 32) (fun d => d.get (CHT_SPARE.ROW 4) = 63 && d.is CHT_FLAGS.BAD_VALUE) = true := by decide

/-- TellerFaults. -/
theorem witness_storeWrite : wpoolShrinks.Ready ∧ (wpoolShrinks.dev.reaches .core true (storeAddr 132 (0x18000 / 4 * 4)) 4 = true ∧ wpoolShrinks.dev.storeInUse 132 0xC000 = false ∧ wpoolShrinks.dev.storeStaged 132 0xC000 = false)
    ∧ gives wpoolShrinks (.tellerStoreWrite ⟨.core, 132⟩ 0x18000 0x80000001 15) (fun d => d.storeAt 132 0xC000 = 1 && d.storeAt 132 0xC001 = 0x8000) = true := by decide

/-- TellerFaults. -/
theorem witness_storeLine : wpoolShrinks.Ready ∧ (True)
    ∧ gives wpoolShrinks (.tellerStoreWrite ⟨.core, 132⟩ 0xBFFC 1 15) (fun d => d.is CHT_FLAGS.WRITE_REFUSED) = true := by decide

def wspareSwapping : State := at' fun d => d.setColumn 4 fun c => { c with frames := [{ cf1 with config := { cfg1 with pool := [164] }, lost := [(0, 0, 3)] }] }

/-- TellerFaults. -/
theorem witness_spareSwapping : wspareSwapping.Ready ∧ (wspareSwapping.dev.swapping 4 = true)
    ∧ gives wspareSwapping (.spareRowWrite .mca 4 31) (fun d => d.is CHT_FLAGS.WRITE_REFUSED && d.get (CHT_SPARE.ROW 4) = 63) = true := by decide


/-! ### Chapter 08 -/

def rec8 : Machine.Frame := ⟨1, 3, 1, 0, 7, 0, 9, 5000, 7, [⟨3, 9, 5000, 7, 0, false⟩], [], some ⟨[0, 0, 0, 0], 4, 0⟩, none, [], 0, 0, 0, 2, 1, [.a], none, none, []⟩
def out8 : StreamOut := ⟨1, 7, 3, .a, List.replicate 70 9, true, [5]⟩
def ent8 : Entry := ⟨1, .a, 2, 0, 3, 1, 0x4000, 9, 5000, 7, [0, 0, 0x120, 0], 1, 0, false⟩
/-- A ring of four pages at page 2, ARMED, with a stream of 70 bytes waiting. -/
def ring8 (f : Ring → Ring) (g : Dev → Dev) : State := at' fun d =>
  g (((d.setRing 5 fun q => f { q with state := .armed, base := 2, size := 4 }).setColumn 3 fun c => { c with queue := [out8] }).setClr
    fun x => { x with queue := [ent8] })
def work8 : RingRec := ⟨1, .a, 7, 3, 0, 70, false, false, false⟩
/-- Channel 2 enabled, with two positions about the instant 5,000. -/
def enc8 (now : Nat) (f : Dev → Dev) : State := at' fun d => f { (d.set1 (ENC_CH_CTL.EN 2)).setEnc fun e => { e with
  hist := [(2, [(5050, 20), (4950, 10)])] } with time := now }

def wencCapture : State := enc8 6000 fun d => { d with clr := ⟨64, [{ rec8 with enc := none }], [], 2⟩ }

/-- Clearing. -/
theorem witness_encCapture : wencCapture.Ready ∧ (∀ a : Fin 100, wencCapture.dev.bracketed ⟨a, []⟩ 5000 = true)
    ∧ gives wencCapture (.encCapture ⟨0, []⟩ ⟨0, []⟩ ⟨50, []⟩ ⟨0, []⟩) (fun d => (d.clr.frames.map fun f => f.enc.map (·.valid)) = [some 4] && ((d.clr.frames.map fun f => f.enc.map fun e => e.pos.getD 2 0)) = [some 15]) = true := by decide

def wencExposure : State := enc8 6000 fun d => { d with cad := { d.cad with exposures := [⟨3, 0, 7, 7, 5000, none⟩] } }

/-- Clearing. -/
theorem witness_encExposure : wencExposure.Ready ∧ (True)
    ∧ gives wencExposure (.encCapture ⟨0, []⟩ ⟨0, []⟩ ⟨50, []⟩ ⟨0, []⟩) (fun d => (d.cad.exposures.map fun f => f.enc.map (·.valid)) = [some 4]) = true := by decide

def wencWaits : State := enc8 5000 fun d => { d with cad := { d.cad with exposures := [⟨3, 0, 7, 7, 5000, none⟩] } }

/-- Clearing. -/
theorem witness_encWaits : wencWaits.Ready ∧ (wencWaits.dev.bracketed ⟨0, []⟩ 5000 = false)
    ∧ gives wencWaits (.encCapture ⟨0, []⟩ ⟨0, []⟩ ⟨50, []⟩ ⟨0, []⟩) (fun d => (d.cad.exposures.map (·.enc)) = [none]) = true := by decide

def wresultFaulted : State := at' fun d => ({ d with clr := ⟨64, [{ rec8 with expect := [99] }], [], 2⟩ }).setColumn 3 fun c => { c with results := [⟨99, 1, 7, [], 0, Stats.reset, true⟩] }

/-- Clearing. -/
theorem witness_resultFaulted : wresultFaulted.Ready ∧ (wresultFaulted.dev.windowHeld 4 7 = false)
    ∧ gives wresultFaulted (.tellerResultAccept 3) (fun d => (d.clr.frames.map fun f => (f.expect, f.flags, f.faultId)) = [([], 0x20, 0x30)]) = true := by decide

def wresultAccept : State := at' fun d => ({ d with clr := ⟨64, [{ rec8 with expect := [99] }], [], 2⟩ }).setColumn 3 fun c => { c with results := [⟨99, 1, 7, [], 0, Stats.reset, false⟩] }

/-- Clearing. -/
theorem witness_resultAccept : wresultAccept.Ready ∧ (wresultAccept.dev.windowHeld 4 7 = false)
    ∧ gives wresultAccept (.tellerResultAccept 3) (fun d => (d.clr.frames.map (·.expect)) = [[]] && (d.column 3).results.isEmpty) = true := by decide

def wresultOrphan : State := at' fun d => d.setColumn 3 fun c => { c with results := [⟨99, 1, 7, [], 0, Stats.reset, false⟩] }

/-- Clearing. -/
theorem witness_resultOrphan : wresultOrphan.Ready ∧ (True)
    ∧ gives wresultOrphan (.tellerResultAccept 3) (fun d => d.is CLR_FLAGS.ORPHAN && d.get64 CLR_ORPHAN_CNT.addr = 1) = true := by decide

def wledgerEntryQueue : State := at' fun d => ({ d with clr := ⟨64, [rec8], [], 2⟩ }).setReg (CLR_SEQ.addr 3) 255#32 |>.setColumn 3 fun c => { c with queue := [out8] }

/-- Clearing. -/
theorem witness_ledgerEntryQueue : wledgerEntryQueue.Ready ∧ (wledgerEntryQueue.dev.complete rec8 = true ∧ rec8.kind .a = 0 ∧ (rec8.lead.map (·.frameNo)) = some 9)
    ∧ gives wledgerEntryQueue (.ledgerEntryQueue 3) (fun d => (d.clr.queue.map (·.flags)) = [0xFF004000] && d.clr.frames.isEmpty && d.get64 CLR_ENTRY_CNT.addr = 1 && d.reg (CLR_SEQ.addr 3) = 0#32) = true := by decide

def wledgerTwoStreams : State := at' fun d => ({ d with clr := ⟨64, [{ rec8 with streams := [.mint, .a] }], [], 2⟩ }).setColumn 3 fun c => { c with queue := [{ out8 with stream := .mint }, out8] }

/-- Clearing. -/
theorem witness_ledgerTwoStreams : wledgerTwoStreams.Ready ∧ (wledgerTwoStreams.dev.complete { rec8 with streams := [.mint, .a] } = true ∧ rec8.kind .a < rec8.kind .mint ∧ ∀ p : Fin 16, (wledgerTwoStreams.dev.port p).pk.held = [])
    ∧ gives wledgerTwoStreams (.ledgerEntryQueue 3) (fun d => (d.clr.queue.map fun e => (e.stream == .a)) = [true, false] && d.get64 CLR_ENTRY_CNT.addr = 2) = true := by decide

/-- Clearing. -/
theorem witness_itemTransient : wledgerTwoStreams.Ready ∧ (True)
    ∧ gives wledgerTwoStreams (.clrItemError 3 0 .tickNo .transient) (fun d => d.get64 CLR_TRANSIENT_CNT.addr = 1) = true := by decide

def witemLasting : State := at' fun d => { d with clr := ⟨64, [{ rec8 with waiting := [3] }], [], 2⟩ }

/-- Clearing. -/
theorem witness_itemLasting : witemLasting.Ready ∧ (witemLasting.dev.complete { rec8 with waiting := [3] } = false)
    ∧ gives witemLasting (.clrItemError 3 0 .tickNo .lasting) (fun d => (d.clr.frames.map (·.faultId)) = [0x40] && (d.ntq.input.map (·.code)) = [0x020] && !d.is CLR_FLAGS.ENTRY_FAULT) = true := by decide

/-- Clearing. -/
theorem witness_itemNone : witemLasting.Ready ∧ (True)
    ∧ gives witemLasting (.clrItemError 3 1 .tickNo .lasting) (fun d => (d.clr.frames.map (·.failed)) = [[]] && d.mgt.logCount = 0) = true := by decide

def witemCompletes : State := at' fun d => ({ d with clr := ⟨64, [{ rec8 with failed := [.tickNo] }], [], 2⟩ }).setColumn 3 fun c => { c with queue := [out8] }

/-- Clearing. -/
theorem witness_itemCompletes : witemCompletes.Ready ∧ (Machine.Frame.failsEntry { rec8 with failed := [.tickNo] } .a = true)
    ∧ gives witemCompletes (.ledgerEntryQueue 3) (fun d => (d.clr.queue.map (·.tick)) = [2 ^ 64 - 1] && d.is CLR_FLAGS.ENTRY_FAULT && d.get64 CLR_FAULT_CNT.addr = 1) = true := by decide

def wledgerFull : State := at' fun d => ({ d with clr := ⟨0, [rec8], [], 2⟩ }).setColumn 3 fun c => { c with queue := [out8] }

/-- Clearing. -/
theorem witness_ledgerFull : wledgerFull.Ready ∧ (True)
    ∧ gives wledgerFull (.ledgerEntryQueue 3) (fun d => d.clr.frames.length = 1 && d.clr.queue.isEmpty) = true := by decide

def wvaultInit : State := at' fun d => d.setMgt fun m => { m with firmware := .running }

/-- VaultCare. -/
theorem witness_vaultInit : wvaultInit.Ready ∧ (wvaultInit.dev.mgt.mram.saved = ⟨none, none⟩ ∧ wvaultInit.dev.mgt.restore ≠ 1 ∧ wvaultInit.dev.is VLT_STAT.INIT_DONE = false)
    ∧ gives wvaultInit (.vaultInitDone (true, true)) (fun d => d.is VLT_STAT.INIT_DONE && d.is DCT_LOCK.SEC_CFG && d.is (AVP_PORT_CTL.EN 15) && d.portState 15 = 1) = true := by decide

def wvaultInitLost : State := at' fun d => d.setMgt fun m => { m with firmware := .lost }

/-- VaultCare. -/
theorem witness_vaultInitLost : wvaultInitLost.Ready ∧ (True)
    ∧ gives wvaultInitLost (.vaultInitDone (true, true)) (fun d => d.is VLT_STAT.INIT_DONE && !d.is DCT_LOCK.SEC_CFG) = true := by decide

def weccTransient : State := at' fun d => d.setMgt fun m => { m with firmware := .running }

/-- VaultCare. -/
theorem witness_eccTransient : weccTransient.Ready ∧ (True)
    ∧ gives weccTransient (.vaultEccError 0x40000 false .transient) (fun d => d.get64 VLT_CE_CNT.addr = 1 && d.get64 VLT_TRANSIENT_CNT.addr = 1) = true := by decide

/-- VaultCare. -/
theorem witness_eccTransient2 : weccTransient.Ready ∧ (True)
    ∧ gives weccTransient (.vaultEccError 0x40000 true .transient) (fun d => d.get64 VLT_TRANSIENT_CNT.addr = 1 && d.vlt.copies = [] && d.vlt.poisoned = []) = true := by decide

/-- VaultCare. -/
theorem witness_eccCorrected : weccTransient.Ready ∧ (weccTransient.dev.pageRetired (poolTop - 0) = false ∧ weccTransient.dev.is (VLT_POOL.IN_USE 0) = false)
    ∧ gives weccTransient (.vaultEccError 0x40000 false .lasting) (fun d => d.vlt.copies = [(1, 0)] && d.vlt.poisoned = []) = true := by decide

/-- VaultCare. -/
theorem witness_eccLasting : weccTransient.Ready ∧ (True)
    ∧ gives weccTransient (.vaultEccError 0x40000 true .lasting) (fun d => d.vlt.copies = [(1, 0)] && d.vlt.poisoned = [0x40000] && d.is VLT_FLAGS.DATA_LOST) = true := by decide

def weccPoolEmpty : State := at' fun d => (List.range 128).foldl (fun d i => d.set1 (VLT_POOL.IN_USE i)) d

/-- VaultCare. -/
theorem witness_eccPoolEmpty : weccPoolEmpty.Ready ∧ (weccPoolEmpty.dev.mode ≠ 7)
    ∧ gives weccPoolEmpty (.vaultEccError 0x40000 true .lasting) (fun d => d.mode = 7 && d.is VLT_FLAGS.POOL_EMPTY) = true := by decide

def wcopyDone : State := at' fun d => d.setVlt fun v => { v with copies := [(1, 0)] }

/-- VaultCare. -/
theorem witness_copyDone : wcopyDone.Ready ∧ (True)
    ∧ gives wcopyDone (.pageCopyDone) (fun d => d.is (VLT_POOL.IN_USE 0) && d.get (VLT_POOL.PAGE 0) = 1 && d.vlt.copies.isEmpty) = true := by decide

/-- VaultCare. -/
theorem witness_retireRequest : wcopyDone.Ready ∧ (wcopyDone.dev.pageRetired 7 = false)
    ∧ gives wcopyDone (.retireRequest .mca 7) (fun d => d.vlt.copies = [(1, 0), (7, 1)]) = true := by decide

def wscrubLine : State := at' fun d => d.set1 VLT_STAT.INIT_DONE

/-- VaultCare. -/
theorem witness_scrubLine : wscrubLine.Ready ∧ (True)
    ∧ gives wscrubLine (.scrubLine []) (fun d => d.vlt.scrubAt = 64 && d.vlt.scrubNext = 400) = true := by decide

/-- VaultCare. -/
theorem witness_scrubFinds : wscrubLine.Ready ∧ (True)
    ∧ gives wscrubLine (.scrubLine [(3, false, .transient)]) (fun d => d.vlt.scrubAt = 64 && d.get64 VLT_CE_CNT.addr = 1) = true := by decide

def wscrubWraps : State := at' fun d => (d.set1 VLT_STAT.INIT_DONE).setVlt fun v => { v with scrubAt := vaultSize - 64 }

/-- VaultCare. -/
theorem witness_scrubWraps : wscrubWraps.Ready ∧ (vaultSize ≤ wscrubWraps.dev.vlt.scrubAt + 64)
    ∧ gives wscrubWraps (.scrubLine []) (fun d => d.vlt.scrubAt = 0 && d.get64 VLT_SCRUB_CNT.addr = 1) = true := by decide

def wrecordBegin : State := ring8 id id

/-- RingRecords. -/
theorem witness_recordBegin : wrecordBegin.Ready ∧ (wrecordBegin.dev.nextStream 5 = some out8 ∧ (wrecordBegin.dev.ring 5).slotFree = true ∧ wrecordBegin.dev.reserve 5 ≤ (wrecordBegin.dev.ring 5).free)
    ∧ gives wrecordBegin (.recordBegin 5) (fun d => ((d.ring 5).work.map (·.frame)) = some 1) = true := by decide

def wrecordDropped : State := ring8 (fun g => { g with state := .held }) id

/-- RingRecords. -/
theorem witness_recordDropped : wrecordDropped.Ready ∧ (True)
    ∧ gives wrecordDropped (.recordBegin 5) (fun d => ((d.ring 5).work.map (·.dropped)) = some true && d.get64 VLT_DROP_CNT.addr = 1) = true := by decide

def wrecordSlides : State := ring8 (fun g => { g with ent := 1, dataWr := 6291456, entWr := 1, entries := [⟨0, 0, 6291456, 7, false⟩] })
    fun d => { d with force := [(VLT_RING_TRIG.addr 5, (VLT_RING_TRIG.RESERVE 5).into 0 1)] }

/-- RingRecords. -/
theorem witness_recordSlides : wrecordSlides.Ready ∧ ((wrecordSlides.dev.ring 5).free < wrecordSlides.dev.reserve 5)
    ∧ gives wrecordSlides (.recordBegin 5) (fun d => (d.ring 5).entries.length = 0 && (d.ring 5).slides = 1 && d.is VLT_FLAGS.SLID && ((d.ring 5).work.map (·.slid)) = some true) = true := by decide

def wpayloadWrite : State := ring8 (fun g => { g with dataWr := 0x5FFFF0, markData := 0x5FFFF0, work := some { work8 with start := 0x5FFFF0, written := 0 } }) id

/-- RingRecords. -/
theorem witness_payloadWrite : wpayloadWrite.Ready ∧ (wpayloadWrite.dev.workStream { work8 with start := 0x5FFFF0, written := 0 } = some out8)
    ∧ gives wpayloadWrite (.ringPayloadWrite 5 32) (fun d => (d.ring 5).dataWr = 0x600010) = true := by decide

def wpayloadCut : State := ring8 (fun g => { g with state := .post, dataWr := 6291456 - 20, work := some { work8 with start := 6291456 - 20, written := 0 } }) id

/-- RingRecords. -/
theorem witness_payloadCut : wpayloadCut.Ready ∧ ((wpayloadCut.dev.ring 5).free = 20)
    ∧ gives wpayloadCut (.ringPayloadWrite 5 32) (fun d => ((d.ring 5).work.map fun w => (w.written, w.cut)) = some (20, true) && d.is VLT_FLAGS.TOO_SMALL) = true := by decide

def wentryWrite : State := ring8 (fun g => { g with dataWr := 70, work := some work8 }) id

/-- RingRecords. -/
theorem witness_entryWrite : wentryWrite.Ready ∧ (wentryWrite.dev.workStream work8 = some out8)
    ∧ gives wentryWrite (.entryWrite 5) (fun d => (d.ring 5).entWr = 1 && (d.ring 5).dataWr = 128 && (d.column 3).queue.isEmpty) = true := by decide

def wentryHeld : State := ring8 (fun g => { g with state := .post, post := 1, dataWr := 70, work := some work8 }) id

/-- RingRecords. -/
theorem witness_entryHeld : wentryHeld.Ready ∧ ((wentryHeld.dev.ring 5).post ≤ (wentryHeld.dev.ring 5).postDone + 1)
    ∧ gives wentryHeld (.entryWrite 5) (fun d => (d.ring 5).state = .held && d.is VLT_FLAGS.HELD && (d.ring 5).postDone = 1) = true := by decide

def wcommit : State := ring8 id id

/-- RingCommands. -/
theorem witness_commit : wcommit.Ready ∧ (∀ i : Fin 8, bit 5 i = true → wcommit.dev.Causes .task 0 (0x060 + i))
    ∧ gives wcommit (.ringCommitRequest .task 5) (fun d => d.vlt.commits = [⟨1, 2 ^ 64 - 1, 1⟩, ⟨4, 2 ^ 64 - 1, 1⟩] && !(d.ring 5).commitWait) = true := by decide

/-- RingCommands. -/
theorem witness_commitWrite : wcommit.Ready ∧ (True)
    ∧ gives wcommit (.ringCommitRequest (.write .mca) 5) (fun d => d.vlt.commits = [⟨5, 2 ^ 64 - 1, 0⟩]) = true := by decide

def wentryCut : State := ring8 (fun g => { g with dataWr := 70, work := some { work8 with written := 20, cut := true } }) id

/-- RingRecords. -/
theorem witness_entryCut : wentryCut.Ready ∧ (True)
    ∧ gives wentryCut (.entryWrite 5) (fun d => (d.ring 5).entWr = 1 && (d.ring 5).entries.map (·.bytes) = [20]) = true := by decide

def wringArm : State := ring8 (fun g => { g with state := .held, entWr := 3, dataWr := 70, work := some { work8 with dropped := true, start := 64 } }) id

/-- RingCommands. -/
theorem witness_ringArm : wringArm.Ready ∧ (True)
    ∧ gives wringArm (.ringArm (.write .mca) false 0x20) (fun d => (d.ring 5).state = .armed && (d.ring 5).markEnt = 3 && (d.ring 5).markData = 64) = true := by decide

def wringArmTask : State := ring8 (fun g => { g with state := .held, entWr := 3 }) id

/-- RingCommands. -/
theorem witness_ringArmTask : wringArmTask.Ready ∧ (bit 1 (wringArmTask.dev.ringGroup 5) = true ∧ ∀ i : Fin 8, bit 1 i = true → wringArmTask.dev.Causes .task 0 (0x068 + i))
    ∧ gives wringArmTask (.ringArm .task true 1) (fun d => (d.ring 5).state = .armed && (d.ring 5).markEnt = 3) = true := by decide

def woverdraftFull : State := ring8 (fun g => { g with state := .stream, orphaned := true, entries := [⟨0, 0, 2, 7, false⟩], entWr := 1, dataWr := 64 })
    (·.setRing 6 fun q => { q with state := .overdraft, base := 9, size := 2, dataWr := 2097152 })

/-- RingCommands. -/
theorem witness_overdraftFull : woverdraftFull.Ready ∧ ((woverdraftFull.dev.ring 6).free < 64)
    ∧ gives woverdraftFull (.overdraftMove) (fun d => d.is VLT_FLAGS.OVD_FULL && (d.ring 5).ovdTold && (d.ring 6).entWr = 0) = true := by decide

def woverdraftWaits : State := ring8 (fun g => { g with state := .stream, orphaned := true, entries := [⟨0, 0, 2, 7, false⟩], entWr := 1, dataWr := 64, blockedAt := some 0 })
    (·.setRing 6 fun q => { q with state := .overdraft, base := 9, size := 2 })

/-- RingCommands. -/
theorem witness_overdraftWaits : woverdraftWaits.Ready ∧ (woverdraftWaits.dev.isSource 6 = false)
    ∧ gives woverdraftWaits (.overdraftMove) (fun d => (d.ring 6).entWr = 0 && (d.ring 5).markEnt = 0) = true := by decide

def woverdraft : State := { ring8 (fun g => { g with state := .stream, orphaned := true, entries := [⟨0, 0, 2, 7, false⟩], entWr := 1, dataWr := 64 })
    (·.setRing 6 fun q => { q with state := .overdraft, base := 9, size := 2 }) with vault := [(0x400000, 5), (0x400001, 6)] }

/-- RingCommands. -/
theorem witness_overdraft : woverdraft.Ready ∧ (woverdraft.dev.overdraft = some 6 ∧ (woverdraft.dev.ring 6).slotFree = true ∧ Nat.max (woverdraft.dev.reserve 6) 64 ≤ (woverdraft.dev.ring 6).free)
    ∧ gives woverdraft (.overdraftMove) (fun d => (d.ring 6).entWr = 1 && (d.ring 6).dataWr = 64 && (d.ring 5).markEnt = 1) = true := by decide

def wringView : State := ring8 (fun g => { g with entWr := 3, drops := 2 }) id

/-- RingCommands. -/
theorem witness_ringView : wringView.Ready ∧ (True)
    ∧ gives wringView (.ringViewLatch .mca 5) (fun d => d.get64 VLT_RV_ENT_WR.addr = 3 && d.reg VLT_RV_DROPS.addr = 2) = true := by decide

/-- A commit of group 0 at tick 5 that waits for the end of its cycle, and ring 5 in group 0 with one record. -/
def commit8 (f : Ring → Ring) (post : Nat) : State := ring8 f fun d =>
  { (d.setVlt fun v => { v with commits := [⟨1, 5, 1⟩] }) with force := [(VLT_RING_TRIG.addr 5, word post)] }
/-- RingCommands. -/
theorem witness_commitActs : (commit8 id 2).Ready ∧ (commit8 id 2).dev.forceGet (VLT_RING_TRIG.POST 5) = 2
    ∧ idles (commit8 id 2) (fun d => (d.ring 5).commitWait && (d.ring 5).trigTick = 5 && (d.ring 5).hop = 1 && d.vlt.commits = []) = true := by
  decide
/-- RingCommands. -/
theorem witness_commitTrigger :
    idles (commit8 (fun g => { g with entries := [⟨8, 64, 10, 7, false⟩], markEnt := 8, entWr := 9 }) 2)
      (fun d => (d.ring 5).state = .post && (d.ring 5).markEnt = 8 && (d.ring 5).postDone = 1) = true
    ∧ idles (commit8 (fun g => { g with entries := [⟨8, 64, 10, 7, false⟩], markEnt := 8, entWr := 9 }) 1)
      (fun d => (d.ring 5).state = .held && d.is VLT_FLAGS.HELD && (d.ring 5).entries.length = 1) = true := by decide
/-- RingCommands. -/
theorem witness_commitDrops :
    idles (commit8 (fun g => { g with work := some { work8 with tick := 9 }, dataWr := 70 }) 0)
      (fun d => (d.ring 5).state = .held && ((d.ring 5).work.map (·.dropped)) = some true && (d.ring 5).dataWr = 0 && (d.ring 5).drops = 1) = true
    ∧ idles (commit8 (fun g => { g with work := some { work8 with tick := 9, dropped := true }, dataWr := 0 }) 0)
      (fun d => (d.ring 5).state = .armed && (d.ring 5).commitWait) = true := by decide
/-- RingCommands. -/
theorem witness_commitIgnored :
    idles (commit8 (fun g => { g with commitWait := true }) 2) (fun d => d.is VLT_FLAGS.COMMIT_IGNORED && (d.ring 5).commitWait) = true
    ∧ idles (commit8 (fun g => { g with state := .held, entWr := 3 }) 2) (fun d => d.is VLT_FLAGS.COMMIT_IGNORED) = true := by decide


/-! ### Chapter 10 -/

def desc10 : Desc := ⟨none, 0x1000, 0x2000, 64, 0x100000, 0⟩
def plain10 : Attr := ⟨false, false, false, false⟩
def read10 : ChanReq := ⟨.read, true, 0x1000, 64, plain10, some 3, 0, 0, false, none⟩
/-- Channel 3 with its page's fields set by `f` and its own state by `g`. -/
def dma10 (f : Dev → Dev) (g : Chan → Chan) : State := at' fun d => f (d.setChan 3 g)
def open10 (d : Dev) : Dev := (d.putCfgBit 0x04 2 true).set1 VLT_STAT.INIT_DONE
def ring10 (d : Dev) : Dev :=
  d.setRing 5 fun g => { g with state := .stream, base := 2, size := 4, entries := [⟨8, 64, 100, 7, false⟩], markEnt := 8, entWr := 9 }
def rec10 : StreamRec := ⟨8, 64, 0, some (0, 0), 0, none, 0x9000, 0x7000, false, false⟩
def sdesc10 : Desc := ⟨none, 0, 0x9000, 4096, 0x20080000, 0x7000⟩
/-- Channel 3 delivering record 8 of ring 5. -/
def stream10 (z : StreamRec) (g : Chan → Chan) : State :=
  dma10 (fun d => ring10 ((open10 d).set1 (DMA_CH_CFG.STREAM 3) |>.put (DMA_CH_STAT.STATE 3) 1))
    fun y => g { y with ring := some 5, recd := some z, desc := some sdesc10, dirty := some 0x9040, used := z.written }

def wdmaStartCopy : State := dma10 (·.set1 (DMA_CH_CFG.FEED 3)) id

/-- DmaControl, EventRoutingAndTasks. -/
theorem witness_dmaStartCopy : wdmaStartCopy.Ready ∧ (wdmaStartCopy.dev.chIdle 3 = true)
    ∧ gives wdmaStartCopy (.dmaStart .task 3) (fun d => d.chState 3 = 2 && d.bitOf DMA_RUN.addr 3) = true := by decide

def wdmaStartStream : State := dma10 (fun d => ring10 (((d.set1 (DMA_CH_CFG.FEED 3)).set1 (DMA_CH_CFG.STREAM 3)).put (DMA_CH_CFG.RING 3) 5)) id

/-- DmaControl, EventRoutingAndTasks. -/
theorem witness_dmaStartStream : wdmaStartStream.Ready ∧ (wdmaStartStream.dev.ringStarts 3 5 = true)
    ∧ gives wdmaStartStream (.dmaStart (.write .mca) 3) (fun d => d.chState 3 = 2 && (d.chan 3).ring = some 5) = true := by decide

def wdmaStartRing : State := dma10 (fun d => (d.put (DMA_CH_DRING_SIZE.LOG2 3) 2).put (DMA_CH_DRING_TAIL.TAIL 3) 1) id

/-- DmaControl, EventRoutingAndTasks. -/
theorem witness_dmaStartRing : wdmaStartRing.Ready ∧ (wdmaStartRing.dev.slots 3 = 4 ∧ wdmaStartRing.dev.ringBus 3 = false ∧ wdmaStartRing.dev.chIdle 3 = true)
    ∧ gives wdmaStartRing (.dmaStart (.write .mca) 3) (fun d => d.chState 3 = 2 && (d.chan 3).reqs = [⟨.fetch 0, false, wdmaStartRing.dev.ringBase 3, 32, wdmaStartRing.dev.plain, none, 0, 0, false, none⟩] && (d.chan 3).nextFetch = 1) = true := by decide

def wdmaStartSameCycle : State := dma10 (fun d => ring10 ((((d.set1 (DMA_CH_CFG.STREAM 3)).put (DMA_CH_CFG.RING 3) 5).set1 (DMA_CH_CFG.STREAM 4)).put (DMA_CH_STAT.STATE 4) 1)
    |>.setChan 4 fun y => { y with ring := some 5, startAt := some 0 }) id

/-- DmaControl, EventRoutingAndTasks. -/
theorem witness_dmaStartSameCycle : wdmaStartSameCycle.Ready ∧ (wdmaStartSameCycle.dev.streamsOn 5 = [4] ∧ wdmaStartSameCycle.dev.isSource 5 = false)
    ∧ gives wdmaStartSameCycle (.dmaStart (.write .mca) 3) (fun d => d.chState 4 = 5 && (d.chan 3).ring = some 5 && d.chState 3 = 1) = true := by decide

def wdmaStartBadRing : State := dma10 (·.set1 (DMA_CH_CFG.STREAM 3)) id

/-- DmaControl, EventRoutingAndTasks. -/
theorem witness_dmaStartBadRing : wdmaStartBadRing.Ready ∧ (wdmaStartBadRing.dev.ringStarts 3 0 = false)
    ∧ gives wdmaStartBadRing (.dmaStart (.write .mca) 3) (fun d => d.chState 3 = 5 && d.get64 (DMA_CH_STATUS.addr 3) = 7 * 2 ^ 32) = true := by decide

def wdmaStopHeld : State := dma10 (·.put (DMA_CH_STAT.STATE 3) 6) fun y => { y with fetched := [desc10] }

/-- DmaControl, EventRoutingAndTasks. -/
theorem witness_dmaStopHeld : wdmaStopHeld.Ready ∧ (True)
    ∧ gives wdmaStopHeld (.dmaStop (.write .mca) 3) (fun d => d.chState 3 = 4 && (d.chan 3).fetched = []) = true := by decide

def wdmaStopCircular : State := dma10 (fun d => (d.set1 (DMA_CH_CFG.STREAM 3)).put (DMA_CH_STAT.STATE 3) 1) fun y => { y with desc := some { sdesc10 with ctl := 0x30080000 } }

/-- DmaControl, EventRoutingAndTasks. -/
theorem witness_dmaStopCircular : wdmaStopCircular.Ready ∧ (wdmaStopCircular.dev.fmt2 3 = false)
    ∧ gives wdmaStopCircular (.dmaStop (.write .mca) 3) (fun d => d.chState 3 = 3 && (d.chan 3).ended = some ⟨0, 4096⟩) = true := by decide

def wdmaStopStream : State := dma10 (fun d => (d.set1 (DMA_CH_CFG.STREAM 3)).put (DMA_CH_STAT.STATE 3) 1) fun y => { y with desc := some sdesc10 }

/-- DmaControl, EventRoutingAndTasks. -/
theorem witness_dmaStopStream : wdmaStopStream.Ready ∧ (True)
    ∧ gives wdmaStopStream (.dmaStop (.write .mca) 3) (fun d => d.chState 3 = 3 && (d.chan 3).stopping) = true := by decide

def wdmaAbortWaits : State := dma10 (·.put (DMA_CH_STAT.STATE 3) 1) fun y => { y with desc := some desc10, reqs := [read10], asked := 64 }

/-- DmaControl. -/
theorem witness_dmaAbortWaits : wdmaAbortWaits.Ready ∧ (True)
    ∧ gives wdmaAbortWaits (.dmaAbort .mca 3) (fun d => d.chState 3 = 1 && (d.chan 3).aborting && (d.chan 3).reqs = [{ read10 with dead := true }]) = true := by decide

def wdmaAbortAfterStop : State := dma10 (·.put (DMA_CH_STAT.STATE 3) 4) (fun y => { y with stopped := some (0, none) }) |> fun s =>
    { s with dev := s.dev.notice .info idDMA 0x012 0x3000000 }

/-- DmaControl. -/
theorem witness_dmaAbortAfterStop : wdmaAbortAfterStop.Ready ∧ (wdmaAbortAfterStop.dev.ntq.input.length = 1)
    ∧ gives wdmaAbortAfterStop (.dmaAbort .mca 3) (fun d => (d.ntq.input.map (·.code)) = [0x011] && d.chState 3 = 4) = true := by decide

def wdmaStartBusy : State := dma10 (·.put (DMA_CH_STAT.STATE 3) 2) fun y => { y with desc := some desc10 }

/-- DmaControl, EventRoutingAndTasks. -/
theorem witness_dmaStartBusy : wdmaStartBusy.Ready ∧ (True)
    ∧ gives wdmaStartBusy (.dmaStart (.write .mca) 3) (fun d => d.is (DMA_CH_FLAGS.BAD_STATE 3)) = true := by decide

/-- DmaControl, EventRoutingAndTasks. -/
theorem witness_dmaStopLater : wdmaStartBusy.Ready ∧ (True)
    ∧ gives wdmaStartBusy (.dmaStop (.write .mca) 3) (fun d => d.chState 3 = 3) = true := by decide

/-- DmaControl. -/
theorem witness_dmaAbort : wdmaStartBusy.Ready ∧ (wdmaStartBusy.dev.abortResidue 3 = 64)
    ∧ gives wdmaStartBusy (.dmaAbort .mca 3) (fun d => d.chState 3 = 4 && d.get64 (DMA_CH_STATUS.addr 3) = 2 ^ 32 + 64) = true := by decide

/-- DmaControl. -/
theorem witness_ownerWrite : wdmaStartBusy.Ready ∧ (wdmaStartBusy.dev.chIdle 3 = false)
    ∧ gives wdmaStartBusy (.dmaOwnerWrite .mca 0x00FFFFF5 15) (fun d => d.reg DMA_OWNER.addr = 0x00FFFFFD && d.is DMA_FLAGS.BAD_STATE) = true := by decide

/-- DmaRegisters. -/
theorem witness_configBusy : wdmaStartBusy.Ready ∧ (True)
    ∧ gives wdmaStartBusy (.channelConfigWrite .mca 3 0x1C 5 15) (fun d => d.is (DMA_CH_FLAGS.BAD_STATE 3)) = true := by decide

/-- DmaRegisters. -/
theorem witness_tailRunning : wdmaStartBusy.Ready ∧ (wdmaStartBusy.dev.ringBus 3 = false)
    ∧ gives wdmaStartBusy (.dringTailWrite .mca 3 5 15) (fun d => d.get (DMA_CH_DRING_TAIL.TAIL 3) = 5) = true := by decide

def wdmaStop : State := dma10 (·.put (DMA_CH_STAT.STATE 3) 2) fun y => { y with irqDue := some 0 }

/-- DmaControl, EventRoutingAndTasks. -/
theorem witness_dmaStop : wdmaStop.Ready ∧ (True)
    ∧ gives wdmaStop (.dmaStop .task 3) (fun d => d.chState 3 = 4 && d.is (DMA_CH_FLAGS.STOPPED 3)) = true := by decide

/-- DmaControl. -/
theorem witness_holdoff : wdmaStop.Ready ∧ (True)
    ∧ gives wdmaStop (.irqHoldoffExpire 3) (fun d => (d.chan 3).irqDue.isNone) = true := by decide

def wholdoffSends : State := dma10 (fun d => (msixOn d).put (DMA_CH_IRQ.VECTOR 3) 2) fun y => { y with irqDue := some 0 }

/-- DmaControl. -/
theorem witness_holdoffSends : wholdoffSends.Ready ∧ (wholdoffSends.dev.msixEnable = true ∧ wholdoffSends.dev.signalled 2 = false ∧ wholdoffSends.dev.vectorHeld 2 = false)
    ∧ gives wholdoffSends (.irqHoldoffExpire 3) (fun d => d.out.length = wholdoffSends.dev.out.length + 1) = true := by decide

def wholdoffHeld : State := dma10 (fun d => (msixOn d).put (DMA_CH_IRQ.VECTOR 3) 1) fun y => { y with irqDue := some 0 }

/-- DmaControl. -/
theorem witness_holdoffHeld : wholdoffHeld.Ready ∧ (wholdoffHeld.dev.vectorHeld 1 = true)
    ∧ gives wholdoffHeld (.irqHoldoffExpire 3) (fun d => d.hep.pba = [1] && d.out = wholdoffHeld.dev.out) = true := by decide

def wchannelConfigWrite : State := dma10 (·.put64 (DMA_CH_PPOS.addr 3) 0x100) id

/-- DmaRegisters. -/
theorem witness_channelConfigWrite : wchannelConfigWrite.Ready ∧ (True)
    ∧ gives wchannelConfigWrite (.channelConfigWrite .mca 3 0x004 0x00500025 15) (fun d => d.is (DMA_CH_CFG.STREAM 3) && d.get (DMA_CH_CFG.RING 3) = 5 && d.get (DMA_CH_CFG.FMT 3) = 2) = true := by decide

/-- DmaRegisters. -/
theorem witness_configFmt0 : wchannelConfigWrite.Ready ∧ (True)
    ∧ gives wchannelConfigWrite (.channelConfigWrite .mca 3 0x004 0x00500005 15) (fun d => d.get (DMA_CH_CFG.FMT 3) = wchannelConfigWrite.dev.get (DMA_CH_CFG.FMT 3) && d.is (DMA_CH_FLAGS.BAD_STATE 3) && d.is (DMA_CH_CFG.STREAM 3)) = true := by decide

/-- DmaRegisters. -/
theorem witness_configCirc : wchannelConfigWrite.Ready ∧ (True)
    ∧ gives wchannelConfigWrite (.channelConfigWrite .mca 3 0x01C 0x000B0028 15) (fun d => d.get (DMA_CH_CIRC.DST_LOG2 3) = 40 && d.get (DMA_CH_CIRC.LDST_LOG2 3) != 11 && d.is (DMA_CH_FLAGS.BAD_STATE 3)) = true := by decide

/-- DmaRegisters. -/
theorem witness_configSize : wchannelConfigWrite.Ready ∧ (True)
    ∧ gives wchannelConfigWrite (.channelConfigWrite .mca 3 0x010 16 15) (fun d => d.slots 3 = 65536) = true := by decide

/-- DmaRegisters. -/
theorem witness_configShuf : wchannelConfigWrite.Ready ∧ (True)
    ∧ gives wchannelConfigWrite (.channelConfigWrite .mca 3 0x020 0x45304000 15) (fun d => d.reg (DMA_CH_SHUF.addr 3) = 0x45304000) = true := by decide

/-- DmaRegisters. -/
theorem witness_configDringLo : wchannelConfigWrite.Ready ∧ (True)
    ∧ gives wchannelConfigWrite (.channelConfigWrite .mca 3 0x008 0x00005001 15) (fun d => d.ringBus 3 && d.ringBase 3 = 0x5000) = true := by decide

/-- DmaRegisters. -/
theorem witness_dringHi : wchannelConfigWrite.Ready ∧ (True)
    ∧ gives wchannelConfigWrite (.channelConfigWrite .mca 3 0x00C 0xFFFFFFFF 15) (fun d => d.get (DMA_CH_DRING_HI.ADDR 3) = 0xFFFFFFFF) = true := by decide

/-- DmaRegisters. -/
theorem witness_tailIdle : wchannelConfigWrite.Ready ∧ (True)
    ∧ gives wchannelConfigWrite (.dringTailWrite .mca 3 0x10005 15) (fun d => d.get (DMA_CH_DRING_TAIL.TAIL 3) = 5) = true := by decide

/-- DmaRegisters. -/
theorem witness_headWrite : wchannelConfigWrite.Ready ∧ (True)
    ∧ gives wchannelConfigWrite (.dringHeadWrite .mca 3 2 15) (fun d => d.get (DMA_CH_DRING_HEAD.HEAD 3) = 2) = true := by decide

/-- DmaRegisters. -/
theorem witness_shadowValid : wchannelConfigWrite.Ready ∧ (True)
    ∧ gives wchannelConfigWrite (.shadowValidWrite .mca 3 1 15) (fun d => d.is (DMA_CH_SH_VALID.VALID 3)) = true := by decide

/-- DmaRegisters. -/
theorem witness_shadowField : wchannelConfigWrite.Ready ∧ (True)
    ∧ gives wchannelConfigWrite (.shadowFieldWrite .mca 3 0x90 77 15) (fun d => d.reg (DMA_CH_SH_LEN.addr 3) = 77) = true := by decide

/-- DmaRegisters. -/
theorem witness_flowAck : wchannelConfigWrite.Ready ∧ (True)
    ∧ gives wchannelConfigWrite (.flowAckWrite .mca 3 false false 0x100 15) (fun d => d.get64 (DMA_CH_PACK.addr 3) = 0x100) = true := by decide

/-- DmaRegisters. -/
theorem witness_flowAckAbove : wchannelConfigWrite.Ready ∧ (True)
    ∧ gives wchannelConfigWrite (.flowAckWrite .mca 3 false false 0x101 15) (fun d => d.get64 (DMA_CH_PACK.addr 3) = 0 && d.is (DMA_CH_FLAGS.BAD_STATE 3)) = true := by decide

def wshadowValidLate : State := dma10 (·.set1 (DMA_CH_SH_VALID.VALID 3)) id

/-- DmaRegisters. -/
theorem witness_shadowValidLate : wshadowValidLate.Ready ∧ (True)
    ∧ gives wshadowValidLate (.shadowValidWrite .mca 3 1 15) (fun d => d.is (DMA_CH_FLAGS.SHADOW_LATE 3)) = true := by decide

def wshadowSameCycle : State := dma10 id fun y => { y with eatenAt := some 0 }

/-- DmaRegisters. -/
theorem witness_shadowSameCycle : wshadowSameCycle.Ready ∧ (wshadowSameCycle.dev.shadowLocked 3 = true)
    ∧ gives wshadowSameCycle (.shadowFieldWrite .mca 3 0x90 1 15) (fun d => d.is (DMA_CH_FLAGS.SHADOW_LATE 3)) = true := by decide

def wshadowFieldLate : State := dma10 (·.set1 (DMA_CH_SH_VALID.VALID 3)) id

/-- DmaRegisters. -/
theorem witness_shadowFieldLate : wshadowFieldLate.Ready ∧ (True)
    ∧ gives wshadowFieldLate (.shadowFieldWrite .mca 3 0x9C 1 15) (fun d => d.is (DMA_CH_FLAGS.SHADOW_LATE 3) && d.reg (DMA_CH_SH_LINK.addr 3 + 4) = 0) = true := by decide

def wtailFetch : State := dma10 (fun d => (d.put (DMA_CH_DRING_SIZE.LOG2 3) 2).put (DMA_CH_STAT.STATE 3) 1) fun y => { y with desc := some desc10 }

/-- DmaRegisters. -/
theorem witness_tailFetch : wtailFetch.Ready ∧ ((wtailFetch.dev.chan 3).nextFetch = 0)
    ∧ gives wtailFetch (.dringTailWrite .mca 3 1 15) (fun d => (d.chan 3).nextFetch = 1 && (d.chan 3).reqs = [⟨.fetch 0, false, wtailFetch.dev.ringBase 3, 32, wtailFetch.dev.plain, none, 0, 0, false, none⟩]) = true := by decide

def wshadowConsumed : State := dma10 (fun d => ((((((d.set1 (DMA_CH_CFG.STREAM 3)).set1 (DMA_CH_CFG.FEED 3)).put (DMA_CH_CFG.FMT 3) 1)
    |>.put64 (DMA_CH_SH_DST.addr 3) 0x9000).setReg (DMA_CH_SH_LEN.addr 3) 4096).setReg (DMA_CH_SH_CTL.addr 3) 0x20080000)
    |>.put (DMA_CH_STAT.STATE 3) 2) id

/-- DmaRegisters. -/
theorem witness_shadowConsumed : wshadowConsumed.Ready ∧ (wshadowConsumed.dev.descOk 3 (wshadowConsumed.dev.shadowDesc 3) = true)
    ∧ gives wshadowConsumed (.shadowValidWrite .mca 3 1 15) (fun d => d.chState 3 = 1 && (d.chan 3).desc.isSome && !d.is (DMA_CH_SH_VALID.VALID 3)) = true := by decide

def wshadowBad : State := dma10 (fun d => ((((d.set1 (DMA_CH_CFG.FEED 3)).put (DMA_CH_CFG.FMT 3) 1).setReg (DMA_CH_SH_CTL.addr 3) 0x80000000)
    |>.put (DMA_CH_STAT.STATE 3) 2)) id

/-- DmaRegisters. -/
theorem witness_shadowBad : wshadowBad.Ready ∧ (wshadowBad.dev.descOk 3 (wshadowBad.dev.shadowDesc 3) = false)
    ∧ gives wshadowBad (.shadowValidWrite .mca 3 1 15) (fun d => d.chState 3 = 5 && slice (d.get64 (DMA_CH_STATUS.addr 3)) 32 8 = 4) = true := by decide

def wdescriptorFetch : State := dma10 (·.put (DMA_CH_STAT.STATE 3) 1) fun y => { y with desc := some desc10, reqs := [⟨.fetch 1, true, 0x20, 32, plain10, some 3, 0, 0, false, none⟩] }

/-- DmaCopy. -/
theorem witness_descriptorFetch : wdescriptorFetch.Ready ∧ (True)
    ∧ gives wdescriptorFetch (.descriptorFetch 3 (le 8 1 ++ le 8 2 ++ le 4 3 ++ le 4 4 ++ le 8 5)) (fun d => (d.chan 3).fetched = [⟨some 1, 1, 2, 3, 4, 5⟩]) = true := by decide

def wdescriptorOrder : State := dma10 (·.put (DMA_CH_STAT.STATE 3) 1) fun y => { y with desc := some desc10, reqs := [⟨.fetch 0, true, 0, 32, plain10, none, 1, 2, false, none⟩, ⟨.fetch 1, true, 0x20, 32, plain10, some 3, 0, 0, false, none⟩] }

/-- DmaCopy. -/
theorem witness_descriptorOrder : wdescriptorOrder.Ready ∧ (True)
    ∧ gives wdescriptorOrder (.descriptorFetch 3 (List.replicate 32 1)) (fun d => (d.chan 3).fetched = [] && ((d.chan 3).reqs.map (·.data)) = [none, some (List.replicate 32 1)]) = true := by decide

def wreadCompletion : State := dma10 (fun d => (open10 d).put (DMA_CH_STAT.STATE 3) 1) fun y => { y with desc := some desc10, reqs := [read10], asked := 64 }

/-- DmaCopy. -/
theorem witness_readCompletion : wreadCompletion.Ready ∧ (wreadCompletion.dev.reaches .dma true 0x2000 64 = true)
    ∧ gives wreadCompletion (.busReadCompletion 3 (List.replicate 64 7)) (fun d => (d.chan 3).written = 64 && d.get64 (DMA_CH_BYTES_CNT.addr 3) = 64) = true := by decide

/-- DmaCopy. -/
theorem witness_busErrorRetry : wreadCompletion.Ready ∧ (0 < wreadCompletion.dev.get (DMA_CH_CFG.RETRY 3) ∧ (wreadCompletion.dev.dropTag 3).freeTag = some 0)
    ∧ gives wreadCompletion (.busError 3 2 false 0) (fun d => (d.chan 3).reqs = [{ read10 with tag := some 0, tries := 1, err := 2 }] && d.out = [.memRead 0x1000 64 plain10] && d.get64 (DMA_CH_RETRY_CNT.addr 3) = 0) = true := by decide

def wbusErrorNoTag : State := dma10 (fun d => ((open10 d).put (DMA_CH_STAT.STATE 3) 1).setHep fun x => { x with quarantine := (List.range 32).map (·, 9) })
    fun y => { y with desc := some desc10, reqs := [read10], asked := 64 }

/-- DmaCopy. -/
theorem witness_busErrorNoTag : wbusErrorNoTag.Ready ∧ ((wbusErrorNoTag.dev.dropTag 3).freeTag = none)
    ∧ gives wbusErrorNoTag (.busError 3 2 false 0) (fun d => (d.chan 3).reqs = [{ read10 with tag := none, tries := 1, err := 2 }] && (d.chan 3).tagless && d.out = []) = true := by decide

def wbusErrorSecond : State := dma10 (fun d => (open10 d).put (DMA_CH_STAT.STATE 3) 1) fun y => { y with desc := some desc10, reqs := [read10, { read10 with tag := some 4, addr := 0x1040 }], asked := 64 }

/-- DmaCopy. -/
theorem witness_busErrorSecond : wbusErrorSecond.Ready ∧ ((wbusErrorSecond.dev.dropTag 4).freeTag = some 0)
    ∧ gives wbusErrorSecond (.busError 3 2 false 1) (fun d => (d.chan 3).reqs = [read10, { read10 with addr := 0x1040, tag := some 0, tries := 1, err := 2 }]) = true := by decide

def wbusErrorHalt : State := dma10 (fun d => (open10 d).put (DMA_CH_STAT.STATE 3) 1) fun y => { y with desc := some desc10, reqs := [{ read10 with tries := 3 }], asked := 64 }

/-- DmaCopy. -/
theorem witness_busErrorHalt : wbusErrorHalt.Ready ∧ (wbusErrorHalt.dev.get (DMA_CH_CFG.RETRY 3) = 3)
    ∧ gives wbusErrorHalt (.busError 3 2 false 0) (fun d => d.chState 3 = 5 && d.get64 (DMA_CH_STATUS.addr 3) = 3 * 2 ^ 40 + 2 * 2 ^ 32 + 64 && d.reg (DMA_CH_ERR_INFO.addr 3) = 5) = true := by decide

def wfetchHalt : State := dma10 (fun d => (open10 d).put (DMA_CH_STAT.STATE 3) 1) fun y => { y with desc := some desc10, reqs := [⟨.fetch 1, true, 0x20, 32, plain10, some 3, 3, 2, false, none⟩] }

/-- DmaCopy. -/
theorem witness_fetchHalt : wfetchHalt.Ready ∧ (True)
    ∧ gives wfetchHalt (.busError 3 2 true 0) (fun d => d.chState 3 = 5 && d.get64 (DMA_CH_STATUS.addr 3) = 3 * 2 ^ 40 + 5 * 2 ^ 32) = true := by decide

def wdescriptorComplete : State := dma10 (fun d => (d.set1 (DMA_CH_CFG.FEED 3)).put (DMA_CH_STAT.STATE 3) 1) fun y => { y with
    desc := some { desc10 with ctl := 0 }, asked := 64, written := 64, got := List.replicate 64 7 }

/-- DmaCopy. -/
theorem witness_descriptorComplete : wdescriptorComplete.Ready ∧ (True)
    ∧ gives wdescriptorComplete (.descriptorComplete 3) (fun d => d.chState 3 = 2 && d.get64 (DMA_CH_DESC_CNT.addr 3) = 1 && d.get64 (DMA_CH_STATUS.addr 3) = 0) = true := by decide

def wpayloadMove : State := stream10 rec10 id

/-- DmaStream. -/
theorem witness_payloadMove : wpayloadMove.Ready ∧ (wpayloadMove.dev.readsAs .dma ((wpayloadMove.dev.ring 5).dataAddr 64) 64 = true ∧ wpayloadMove.dev.cutRequest true 0x9000 100 4096 = 64)
    ∧ gives wpayloadMove (.streamPayloadMove 3) (fun d => (d.chan 3).used = 64 && d.out.length = 1) = true := by decide

def wpayloadWaits : State := dma10 (fun d => (ring10 ((open10 d).set1 (DMA_CH_CFG.STREAM 3))).setRing 5 (fun g => { g with entries := [], entWr := 8, work := some ⟨0, .a, 0, 0, 64, 10, false, false, false⟩ })
    |>.put (DMA_CH_STAT.STATE 3) 1) fun y => { y with ring := some 5, recd := some rec10, desc := some sdesc10 }

/-- DmaStream. -/
theorem witness_payloadWaits : wpayloadWaits.Ready ∧ (True)
    ∧ gives wpayloadWaits (.streamPayloadMove 3) (fun d => d.chState 3 = 2 && d.get (DMA_CH_STAT.WAIT_CAUSE 3) = 2) = true := by decide

def wledgerFlush : State := dma10 (fun d => ring10 (((open10 d).set1 (DMA_CH_CFG.STREAM 3)).set1 (DMA_CH_CFG.LFLUSH 3)) |>.put (DMA_CH_STAT.STATE 3) 1)
    fun y => { y with ring := some 5, recd := some { rec10 with written := 100 }, desc := some sdesc10, dirty := some 0x9040, used := 100 }

/-- DmaStream. -/
theorem witness_ledgerFlush : wledgerFlush.Ready ∧ (wledgerFlush.dev.freeTag = some 0)
    ∧ gives wledgerFlush (.ledgerCopyIssue 3) (fun d => d.out = [.memRead 0x9040 0 wledgerFlush.dev.plain] && (d.chan 3).reqs.length = 1 && d.get64 DMA_ZLR_CNT.addr = 1) = true := by decide

def wledgerIssue : State := stream10 { rec10 with written := 100 } id

/-- DmaStream. -/
theorem witness_ledgerIssue : wledgerIssue.Ready ∧ (True)
    ∧ gives wledgerIssue (.ledgerCopyIssue 3) (fun d => ((d.chan 3).recd.map (·.issued)) = some true && d.out.length = 1) = true := by decide

def wzeroLengthRead : State := stream10 { rec10 with written := 100 } fun y => { y with reqs := [⟨.flush, true, 0x9040, 0, plain10, some 3, 0, 0, false, none⟩] }

/-- DmaStream. -/
theorem witness_zeroLengthRead : wzeroLengthRead.Ready ∧ (True)
    ∧ gives wzeroLengthRead (.zeroLengthReadDone 3) (fun d => (d.chan 3).dirty.isNone && (d.chan 3).reqs = []) = true := by decide

def wledgerAccepted : State := stream10 { rec10 with written := 100, issued := true } id

/-- DmaStream. -/
theorem witness_ledgerAccepted : wledgerAccepted.Ready ∧ (True)
    ∧ gives wledgerAccepted (.ledgerCopyAccepted 3) (fun d => (d.ring 5).markEnt = 9 && ((d.chan 3).ended.map (·.residue)) = some 3996) = true := by decide

def wstatusBack : State := dma10 (fun d => ((open10 d).put (DMA_CH_CFG.FMT 3) 2).put (DMA_CH_DRING_SIZE.LOG2 3) 2 |>.put (DMA_CH_STAT.STATE 3) 1) fun y => { y with
    desc := some { desc10 with slot := some 3, ctl := 0x77 }, asked := 64, written := 64 }

/-- DmaCopy. -/
theorem witness_statusBack : wstatusBack.Ready ∧ (wstatusBack.dev.fmt2 3 = true ∧ wstatusBack.dev.ringBus 3 = false ∧ wstatusBack.dev.slotLeft 3 = false ∧ wstatusBack.dev.reaches .dma true 0x78 8 = true)
    ∧ gives wstatusBack (.descriptorComplete 3) (fun d => d.get64 (DMA_CH_STATUS.addr 3) = 0x77 * 2 ^ 48 && d.get (DMA_CH_DRING_HEAD.HEAD 3) = 0 && d.chState 3 = 2) = true := by decide

def wreshuffled : State := dma10 (fun d => ((((d.set1 (DMA_CH_CFG.FEED 3)).put (DMA_CH_STAT.STATE 3) 1).put (DMA_CH_SHUF.WIDTH 3) 8)).put (DMA_CH_SHUF.IN_FMT 3) 0) fun y => { y with
    desc := some { desc10 with ctl := 0x200000 }, asked := 64, written := 128 }

/-- DmaCopy. -/
theorem witness_reshuffled : wreshuffled.Ready ∧ ((let (g, k) := wreshuffled.dev.copyShape 3 { desc10 with ctl := 0x200000 }; g.taken k ≤ 64 ∧ g.lenOut k = 128))
    ∧ gives wreshuffled (.descriptorComplete 3) (fun d => d.chState 3 = 2 && d.get64 (DMA_CH_DESC_CNT.addr 3) = 1) = true := by decide

def wpayloadCirc : State := dma10 (fun d => (ring10 ((open10 d).set1 (DMA_CH_CFG.STREAM 3)) |>.put (DMA_CH_STAT.STATE 3) 1).put64 (DMA_CH_PPOS.addr 3) 0xFC0) fun y => { y with
    ring := some 5, recd := some rec10, desc := some { sdesc10 with ctl := 0x30080000 } }

/-- DmaStream. -/
theorem witness_payloadCirc : wpayloadCirc.Ready ∧ (wpayloadCirc.dev.streamPlace 3 { sdesc10 with ctl := 0x30080000 } 0 = (0x9FC0, 64, 4096))
    ∧ gives wpayloadCirc (.streamPayloadMove 3) (fun d => (d.chan 3).used = 0 && (d.out.map fun o => match o with | .memWrite a l _ => (a, l.length) | _ => (0, 0)) = [(0x9FC0, 64)]) = true := by decide

def wpayloadRoom : State := dma10 (fun d => (ring10 (((open10 d).set1 (DMA_CH_CFG.STREAM 3)).set1 (DMA_CH_CFG.FLOW 3)) |>.put (DMA_CH_STAT.STATE 3) 1).put64 (DMA_CH_PPOS.addr 3) 0xFF0)
    fun y => { y with ring := some 5, recd := some rec10, desc := some { sdesc10 with ctl := 0x30080000 } }

/-- DmaStream. -/
theorem witness_payloadRoom : wpayloadRoom.Ready ∧ (((wpayloadRoom.dev.streamPlace 3 { sdesc10 with ctl := 0x30080000 } 0).2.2) = 16)
    ∧ gives wpayloadRoom (.streamPayloadMove 3) (fun d => d.chState 3 = 1 && (d.chan 3).recd.map (·.written) = some 16) = true := by decide

def wpayloadRoomFull : State := dma10 (fun d => (ring10 (((open10 d).set1 (DMA_CH_CFG.STREAM 3)).set1 (DMA_CH_CFG.FLOW 3)) |>.put (DMA_CH_STAT.STATE 3) 1).put64 (DMA_CH_PPOS.addr 3) 0x1000)
    fun y => { y with ring := some 5, recd := some rec10, desc := some { sdesc10 with ctl := 0x30080000 } }

/-- DmaStream. -/
theorem witness_payloadRoomFull : wpayloadRoomFull.Ready ∧ (True)
    ∧ gives wpayloadRoomFull (.streamPayloadMove 3) (fun d => d.chState 3 = 2 && d.get (DMA_CH_STAT.WAIT_CAUSE 3) = 3 && d.out = []) = true := by decide

def wpayloadFull : State := stream10 rec10 fun y => { y with desc := some { sdesc10 with len := 64 } }

/-- DmaStream. -/
theorem witness_payloadFull : wpayloadFull.Ready ∧ (True)
    ∧ gives wpayloadFull (.streamPayloadMove 3) (fun d => (d.chan 3).ended = some ⟨0, 0⟩ && (d.chan 3).used = 64) = true := by decide

def wpayloadShuffled : State := { dma10 (fun d => (ring10 ((((open10 d).set1 (DMA_CH_CFG.STREAM 3)).put (DMA_CH_SHUF.WIDTH 3) 100).put (DMA_CH_SHUF.IN_FMT 3) 0) |>.put (DMA_CH_STAT.STATE 3) 1))
    (fun y => { y with ring := some 5, recd := some { rec10 with raw := none, shuf := 1 }, desc := some sdesc10 }) with vault := [(0x400040, 5)] }

/-- DmaStream. -/
theorem witness_payloadShuffled : wpayloadShuffled.Ready ∧ ((wpayloadShuffled.dev.recordReady 3 { rec10 with raw := none, shuf := 1 }).1 = 200 ∧ (wpayloadShuffled.dev.shuffleOf 3 1).fits 100 = true
    ∧ wpayloadShuffled.dev.recordKind wpayloadShuffled.vault 3 { rec10 with raw := none, shuf := 1 } = 0)
    ∧ gives wpayloadShuffled (.streamPayloadMove 3) (fun d => (d.out.map fun o => match o with | .memWrite a l _ => (a, l.length, l.take 4) | _ => (0, 0, [])) = [(0x9000, 128, [5, 0, 0, 0])]) = true := by decide

def wledgerCircFull : State := dma10 (fun d => (ring10 (((open10 d).set1 (DMA_CH_CFG.STREAM 3)).set1 (DMA_CH_CFG.FLOW 3)) |>.put (DMA_CH_STAT.STATE 3) 1).put64 (DMA_CH_LPOS.addr 3) 64)
    fun y => { y with ring := some 5, recd := some { rec10 with written := 100 }, desc := some { sdesc10 with ctl := 0x30080000 } }

/-- DmaStream. -/
theorem witness_ledgerCircFull : wledgerCircFull.Ready ∧ (wledgerCircFull.dev.circY 3 = 4096)
    ∧ gives wledgerCircFull (.ledgerCopyIssue 3) (fun d => d.chState 3 = 2 && d.get (DMA_CH_STAT.WAIT_CAUSE 3) = 3) = true := by decide

def wledgerCirc : State := dma10 (fun d => (ring10 ((open10 d).set1 (DMA_CH_CFG.STREAM 3)) |>.put (DMA_CH_STAT.STATE 3) 1).put64 (DMA_CH_LPOS.addr 3) 65)
    fun y => { y with ring := some 5, recd := some { rec10 with written := 100 }, desc := some { sdesc10 with ctl := 0x30080000 } }

/-- DmaStream. -/
theorem witness_ledgerCirc : wledgerCirc.Ready ∧ (True)
    ∧ gives wledgerCirc (.ledgerCopyIssue 3) (fun d => d.get64 (DMA_CH_LPOS.addr 3) = 66 && (d.out.map fun o => match o with | .memWrite a l _ => (a, l.length) | _ => (0, 0)) = [(0x7040, 64)]) = true := by decide

def wledgerAcceptedCirc : State := stream10 { rec10 with written := 100, issued := true } fun y => { y with desc := some { sdesc10 with ctl := 0x30080000, len := 1 } }

/-- DmaStream. -/
theorem witness_ledgerAcceptedCirc : wledgerAcceptedCirc.Ready ∧ (True)
    ∧ gives wledgerAcceptedCirc (.ledgerCopyAccepted 3) (fun d => d.get64 (DMA_CH_PPOS.addr 3) = 128 && (d.chan 3).ended = some ⟨0, 0⟩) = true := by decide

def wledgerAcceptedArmed : State := stream10 { rec10 with written := 100, issued := true } id |> fun s => { s with dev := s.dev.setRing 5 fun g => { g with state := .armed } }

/-- DmaStream. -/
theorem witness_ledgerAcceptedArmed : wledgerAcceptedArmed.Ready ∧ (True)
    ∧ gives wledgerAcceptedArmed (.ledgerCopyAccepted 3) (fun d => (d.ring 5).markEnt = 8 && (d.chan 3).recd = none) = true := by decide


/-! ### Chapter 11 -/

/-- A host that is up with Memory Space and Bus Master Enable, the vault initialised, and window 0 over the first 2 MiB of page 3. -/
def host11 (f : Dev → Dev) : State := at' fun d =>
  f (((((d.putCfgBit 0x04 1 true).putCfgBit 0x04 2 true).setHep fun x => { x with perst := false, logBit := some 4 }).set1 VLT_STAT.INIT_DONE).setReg
    (HEP_WIN_CUR_CFG.addr 0) 0xE0000015 |>.setReg (HEP_WIN_CUR_TGT.addr 0) 3)
def tag11 (k : ReqKind) (f : Dev → Dev) : State := host11 fun d => f
  (({ d with time := ms 50 }).setChan 3 (fun y => { y with reqs := [⟨k, true, 0x1000, 64, ⟨false, false, false, false⟩, some 9, 0, 0, false, none⟩] }) |>.setHep fun x => { x with tags := [⟨9, 3, 0⟩] })

def winboundRead : State := { host11 id with vault := [(0x600010, 7)] }

/-- HostMemory. -/
theorem witness_inboundRead : winboundRead.Ready ∧ (winboundRead.dev.Readable ∧ winboundRead.dev.contained = false ∧ winboundRead.dev.windowOf 0x10 = some 0 ∧ winboundRead.dev.vaultReach (winboundRead.dev.windowAddr 0 0x10) 8 = true
    ∧ 0x18 ≤ winboundRead.dev.bar2Size)
    ∧ gives winboundRead (.inboundRead 0x10 8 0x100) (fun d => d.out.length = 1) = true := by decide

/-- HostMemory. -/
theorem witness_inboundWrite : winboundRead.Ready ∧ (winboundRead.dev.windowOf 0x12 = some 0 ∧ winboundRead.dev.winGet (HEP_WIN_CUR_CFG.WR 0) = 1)
    ∧ gives winboundRead (.inboundWrite 0x12 [some 5, none, some 6] 0x100) (fun d => d.out.isEmpty) = true := by decide

/-- HostMemory. -/
theorem witness_inboundNoWindow : winboundRead.Ready ∧ (winboundRead.dev.windowOf 0x200000 = none)
    ∧ gives winboundRead (.inboundRead 0x200000 8 0x100) (fun d => d.is HEP_FLAGS.UR_WINDOW && d.get64 HEP_UR_CNT.addr = 1 && d.reg HEP_UR_INFO.addr = 0x200000) = true := by decide

def winboundWriteRefused : State := host11 (·.setReg (HEP_WIN_CUR_CFG.addr 0) 0xC0000015)

/-- HostMemory. -/
theorem witness_inboundWriteRefused : winboundWriteRefused.Ready ∧ (winboundWriteRefused.dev.windowOf 0x12 = some 0 ∧ winboundWriteRefused.dev.winGet (HEP_WIN_CUR_CFG.WR 0) = 0)
    ∧ gives winboundWriteRefused (.inboundWrite 0x12 [some 5] 0x100) (fun d => d.reg HEP_UR_INFO_HI.addr = 0x01000100) = true := by decide

def winboundOutside : State := host11 (·.setReg (HEP_WIN_CUR_TGT.addr 0) 0x18000)

/-- HostMemory. -/
theorem witness_inboundOutside : winboundOutside.Ready ∧ (winboundOutside.dev.windowOf 0x10 = some 0 ∧ winboundOutside.dev.winGet (HEP_WIN_CUR_CFG.RD 0) = 1 ∧ winboundOutside.dev.vaultReach (winboundOutside.dev.windowAddr 0 0x10) 8 = false)
    ∧ gives winboundOutside (.inboundRead 0x10 8 0x100) (fun d => d.reg HEP_UR_INFO_HI.addr = 0x01000200) = true := by decide

def winboundPoisoned : State := host11 (fun d => d.setVlt fun x => { x with poisoned := [0x600010 / 8] })

/-- HostMemory. -/
theorem witness_inboundPoisoned : winboundPoisoned.Ready ∧ (winboundPoisoned.dev.poisonIn 0x600010 8 = true)
    ∧ gives winboundPoisoned (.inboundRead 0x10 8 0x100) (fun d => d.out.length = 1) = true := by decide

/-- HostMemory. -/
theorem witness_poisonedWrite : winboundPoisoned.Ready ∧ (True)
    ∧ gives winboundPoisoned (.poisonedWrite 2) (fun d => d.cfgBit 0x104 12) = true := by decide

/-- HostMemory. -/
theorem witness_unsupportedInbound : winboundPoisoned.Ready ∧ (True)
    ∧ gives winboundPoisoned (.unsupportedInboundRequest false) (fun d => d.get64 HEP_UR_CNT.addr = 1) = true := by decide

/-- HostMemory. -/
theorem witness_msixRead : winboundPoisoned.Ready ∧ (True)
    ∧ gives winboundPoisoned (.msixTableAccess 0x3FC 4 none) (fun d => d.out = [.windowData [1, 0, 0, 0]]) = true := by decide

/-- HostMemory. -/
theorem witness_msixQword : winboundPoisoned.Ready ∧ (True)
    ∧ gives winboundPoisoned (.msixTableAccess 0x3F8 8 none) (fun d => d.out = [.windowData [0, 0, 0, 0, 1, 0, 0, 0]]) = true := by decide

/-- HostMemory. -/
theorem witness_msixWrite : winboundPoisoned.Ready ∧ (winboundPoisoned.dev.hep.pba = [])
    ∧ gives winboundPoisoned (.msixTableAccess 0x3FC 4 (some 0xFFFFFFFE)) (fun d => d.msixWord 63 3 = 0) = true := by decide

/-- HostMemory. -/
theorem witness_msixWidth : winboundPoisoned.Ready ∧ (True)
    ∧ gives winboundPoisoned (.msixTableAccess 0 2 none) (fun d => d.get64 HEP_CA_CNT.addr = 1) = true := by decide

/-- HostMemory. -/
theorem witness_windowCommit : winboundPoisoned.Ready ∧ (True)
    ∧ gives winboundPoisoned (.windowCommit .mca 31 0x80010026 15) (fun d => d.get (HEP_WIN_CUR_CFG.LOG2 31) = 38 && d.is (HEP_WIN_CUR_CFG.EN 31)) = true := by decide

/-- HostMemory. -/
theorem witness_windowRefused : winboundPoisoned.Ready ∧ (True)
    ∧ gives winboundPoisoned (.windowCommit .mca 31 0x80010027 15) (fun d => d.is HEP_FLAGS.WIN_REFUSED && d.get (HEP_WIN_CUR_CFG.LOG2 31) = 21) = true := by decide

def wwindowMisaligned : State := host11 (·.put (HEP_WIN_BAR.OFF 31) 1)

/-- HostMemory. -/
theorem witness_windowMisaligned : wwindowMisaligned.Ready ∧ (True)
    ∧ gives wwindowMisaligned (.windowCommit .mca 31 0x80010016 15) (fun d => d.is HEP_FLAGS.WIN_REFUSED && (d.ntq.input.map (·.arg)) = [31 + 2 * 2 ^ 8]) = true := by decide

def winboundContained : State := host11 (·.set1 HEP_CONTAIN_STAT.CONTAINED)

/-- HostMemory. -/
theorem witness_inboundContained : winboundContained.Ready ∧ (winboundContained.dev.Readable ∧ 0x18 ≤ winboundContained.dev.bar2Size)
    ∧ gives winboundContained (.inboundRead 0x10 8 0x100) (fun d => d.get64 HEP_CA_CNT.addr = 1) = true := by decide

/-- HostRelease. -/
theorem witness_containRelease : winboundContained.Ready ∧ (True)
    ∧ gives winboundContained (.containRelease .mca) (fun d => d.hep.releaseAt = some 0 && d.contained) = true := by decide

def wreleaseComplete : State := host11 fun d => (d.set1 HEP_CONTAIN_STAT.CONTAINED).setHep fun x => { x with releaseAt := some 0 }

/-- HostRelease. -/
theorem witness_releaseComplete : wreleaseComplete.Ready ∧ (True)
    ∧ gives wreleaseComplete (.releaseComplete) (fun d => !d.contained && d.is HEP_FLAGS.RELEASED) = true := by decide

def wreleaseBad : State := host11 fun d => (((d.setCfg 0x48 0x803F0000).setHep fun x => { x with pba := [5], msix := [(23, 0)], ltrWindowAt := 0 }).putCfgBit 0x88 10 true)

/-- HostRelease. -/
theorem witness_releaseBad : wreleaseBad.Ready ∧ (True)
    ∧ gives wreleaseBad (.containRelease .mca) (fun d => d.is HEP_FLAGS.BAD_STATE) = true := by decide

/-- HostRelease. -/
theorem witness_pendingMsix : wreleaseBad.Ready ∧ (wreleaseBad.dev.msixEnable = true ∧ wreleaseBad.dev.vectorHeld 5 = false)
    ∧ gives wreleaseBad (.pendingMsixSend 5) (fun d => d.hep.pba.isEmpty && d.out = [.msix 5 0 0 wreleaseBad.dev.plain]) = true := by decide

def wreleaseSameCycle : State := host11 fun d => (d.set1 HEP_CONTAIN_STAT.CONTAINED).setHep fun x => { x with causeAt := some 0 }

/-- HostRelease. -/
theorem witness_releaseSameCycle : wreleaseSameCycle.Ready ∧ (True)
    ∧ gives wreleaseSameCycle (.containRelease .mca) (fun d => d.hep.releaseAt.isNone && d.contained) = true := by decide

def wwindowSameCycle : State := host11 fun d => { d with time := 7 }.setHep fun x => { x with winAt := 7, winWas := [(HEP_WIN_CUR_CFG.addr 0, 0xC0000016), (HEP_WIN_CUR_TGT.addr 0, 5)] }

/-- HostMemory. -/
theorem witness_windowSameCycle : wwindowSameCycle.Ready ∧ (wwindowSameCycle.dev.windowOf 0x200000 = some 0 ∧ wwindowSameCycle.dev.windowAddr 0 0x200000 = 0xC00000)
    ∧ gives wwindowSameCycle (.inboundRead 0x200000 8 0x100) (fun d => d.out.length = 1 && !d.is HEP_FLAGS.UR_WINDOW) = true := by decide

def wltrSend : State := host11 fun d => ({ d with time := ms 1 }.setHep fun x => { x with ltrDue := true, ltrCount := [(1, 5)] }).putCfgBit 0x88 10 true

/-- HostRelease. -/
theorem witness_ltrSend : wltrSend.Ready ∧ (wltrSend.dev.ltrEnable = true ∧ wltrSend.dev.d3hot = false ∧ wltrSend.dev.hep.ltrSentAt = none)
    ∧ gives wltrSend (.ltrSend) (fun d => d.get HEP_LTR_NOW.K = 63 && d.get64 HEP_LTR_MSG_CNT.addr = 1 && d.out = [.ltr 0]) = true := by decide

def wltrRing : State := host11 fun d => (((({ d with time := ms 1 }.setHep fun x => { x with ltrDue := true, ltrLast := [(5, 1)] }).putCfgBit 0x88 10 true).set1 (DMA_CH_CFG.STREAM 3)).put
    (DMA_CH_STAT.STATE 3) 1).setChan 3 (fun y => { y with ring := some 5 }) |>.setRing 5 fun g => { g with size := 4, state := .stream }

/-- HostRelease. -/
theorem witness_ltrRing : wltrRing.Ready ∧ (0 < Tab.get (fun _ => 0) wltrRing.dev.hep.ltrLast 5 ∧ 0 < (wltrRing.dev.ring 5).free)
    ∧ gives wltrRing (.ltrSend) (fun d => d.get HEP_LTR_NOW.K = d.get HEP_LTR_CTL.MAX_K && d.get HEP_LTR_NOW.K != 63) = true := by decide

def wltrIdle : State := host11 fun d => (({ d with time := ms 1 }.setHep fun x => { x with ltrCount := [(1, 5)] }).putCfgBit 0x88 10 true).put HEP_LTR_NOW.K 20

/-- HostRelease. -/
theorem witness_ltrIdle : wltrIdle.Ready ∧ ((∀ c : Fin 32, (wltrIdle.dev.chan c).ring = none) ∧ wltrIdle.dev.get HEP_LTR_NOW.K = 20)
    ∧ gives wltrIdle (.ltrWindow) (fun d => d.hep.ltrDue && d.hep.ltrLast = [(1, 5)]) = true := by decide

def wltrRises : State := { wltrRing with dev := (wltrRing.dev.put HEP_LTR_NOW.K 10).setHep fun x => { x with ltrCount := [(5, 1)], ltrDue := false } }

/-- HostRelease. -/
theorem witness_ltrRises : wltrRises.Ready ∧ (True)
    ∧ gives wltrRises (.ltrWindow) (fun d => !d.hep.ltrDue && d.hep.ltrRiseAt = some (ms 1)) = true := by decide

def wltrOff : State := host11 fun d => { d with time := ms 1 }.setHep fun x => { x with ltrDue := true }

/-- HostRelease. -/
theorem witness_ltrOff : wltrOff.Ready ∧ (True)
    ∧ gives wltrOff (.ltrWindow) (fun d => !d.hep.ltrDue) = true := by decide

def wtimeoutRead : State := tag11 .read id

/-- HostErrors. -/
theorem witness_timeoutRead : wtimeoutRead.Ready ∧ (wtimeoutRead.dev.timeout = some (ms 30))
    ∧ gives wtimeoutRead (.completionTimeout 9) (fun d => (d.hep.quarantine.map (·.1)) = [9] && ((d.chan 3).reqs.map (·.tag)) = [some 0] && d.get64 HEP_CTO_CNT.addr = 1) = true := by decide

/-- HostErrors. -/
theorem witness_poisonedCompletion : wtimeoutRead.Ready ∧ (wtimeoutRead.dev.is HEP_CONTAIN_EN.POISON = true ∧ wtimeoutRead.dev.chRuns 3 = false)
    ∧ gives wtimeoutRead (.poisonedCompletion 9) (fun d => d.contained && d.reg HEP_CONTAIN_STAT.addr = 0x205) = true := by decide

def wtimeoutFetch : State := tag11 (.fetch 0) id

/-- HostErrors. -/
theorem witness_timeoutFetch : wtimeoutFetch.Ready ∧ (wtimeoutFetch.dev.is HEP_CONTAIN_EN.FETCH_TMO = true)
    ∧ gives wtimeoutFetch (.completionTimeout 9) (fun d => d.contained && d.reg HEP_CONTAIN_STAT.addr = 0x103) = true := by decide

def wpoisonedReissue : State := tag11 .read (·.unset HEP_CONTAIN_EN.POISON)

/-- HostErrors. -/
theorem witness_poisonedReissue : wpoisonedReissue.Ready ∧ (True)
    ∧ gives wpoisonedReissue (.poisonedCompletion 9) (fun d => !d.contained && ((d.chan 3).reqs.map (·.tag)) = [some 0]) = true := by decide

def wlateCompletion : State := host11 (·.setHep fun x => { x with quarantine := [(9, 0)] })

/-- HostErrors. -/
theorem witness_lateCompletion : wlateCompletion.Ready ∧ (True)
    ∧ gives wlateCompletion (.lateCompletion 9) (fun d => d.is HEP_FLAGS.LATE_CPL) = true := by decide

/-- HostErrors. -/
theorem witness_quarantineEnd : wlateCompletion.Ready ∧ (True)
    ∧ gives wlateCompletion (.tagQuarantineEnd 9) (fun d => d.hep.quarantine.isEmpty) = true := by decide

def wecrcError : State := host11 (·.putCfgBit 0x118 8 true)

/-- HostErrors. -/
theorem witness_ecrcError : wecrcError.Ready ∧ (wecrcError.dev.ecrcCheck = true ∧ wecrcError.dev.is HEP_CONTAIN_EN.ECRC = true)
    ∧ gives wecrcError (.ecrcError) (fun d => d.contained && d.reg HEP_CONTAIN_STAT.addr = 0x309) = true := by decide

def wecrcCounted : State := host11 fun d => (d.putCfgBit 0x118 8 true).unset HEP_CONTAIN_EN.ECRC

/-- HostErrors. -/
theorem witness_ecrcCounted : wecrcCounted.Ready ∧ (True)
    ∧ gives wecrcCounted (.ecrcError) (fun d => !d.contained && d.cfgBit 0x104 19) = true := by decide

def winternalLasting : State := host11 id

/-- HostErrors. -/
theorem witness_internalLasting : winternalLasting.Ready ∧ (True)
    ∧ gives winternalLasting (.hepInternalError .lasting) (fun d => d.reg HEP_CONTAIN_STAT.addr = 0x411) = true := by decide

/-- HostErrors. -/
theorem witness_internalTransient : winternalLasting.Ready ∧ (True)
    ∧ gives winternalLasting (.hepInternalError .transient) (fun d => d.mgt.hepTransient = 1) = true := by decide

/-- HostErrors. -/
theorem witness_linkErrorCor : winternalLasting.Ready ∧ (True)
    ∧ gives winternalLasting (.pcieLinkError 6 true) (fun d => d.cfgBit 0x110 6) = true := by decide

/-- HostErrors. -/
theorem witness_linkErrorUncor : winternalLasting.Ready ∧ (True)
    ∧ gives winternalLasting (.pcieLinkError 18 false) (fun d => d.cfgBit 0x104 18) = true := by decide

/-- HostResets. -/
theorem witness_configWrite : winternalLasting.Ready ∧ (True)
    ∧ gives winternalLasting (.configWrite 4 0xFFFFFFFF 3) (fun d => d.memEnable && d.busMaster && d.cfgBit 0x04 10) = true := by decide

def wconfigRetry : State := host11 (·.setHep fun x => { x with reset := some (2, 5) })

/-- HostResets. -/
theorem witness_configRetry : wconfigRetry.Ready ∧ (True)
    ∧ gives wconfigRetry (.configWrite 4 0xFFFFFFFF 15) (fun d => d.out = [.requestRetry] && d.busMaster && !d.cfgBit 0x04 10) = true := by decide

def wperstAssert : State := host11 id

/-- HostResets, NothingWhileLow. -/
theorem witness_perstAssert : wperstAssert.Ready ∧ (True)
    ∧ gives wperstAssert (.perstAssert 100) (fun d => d.hep.perst && !d.memEnable && d.hep.reset = some (1, 0)) = true := by decide

/-- HostResets, NothingWhileLow. -/
theorem witness_perstShort : wperstAssert.Ready ∧ (True)
    ∧ gives wperstAssert (.perstAssert 99) (fun d => !d.hep.perst && d.hep.reset.isNone) = true := by decide

/-- HostResets. -/
theorem witness_hotReset : wperstAssert.Ready ∧ (True)
    ∧ gives wperstAssert (.hotReset true) (fun d => !d.hep.perst && d.hep.reset = some (3, 0)) = true := by decide

/-- HostResets. -/
theorem witness_flr : wperstAssert.Ready ∧ (True)
    ∧ gives wperstAssert (.functionLevelReset false) (fun d => d.hep.reset = some (4, 0) && d.get64 HEP_FLR_CNT.addr = 1) = true := by decide

/-- HostResets. -/
theorem witness_linkChange : wperstAssert.Ready ∧ (True)
    ∧ gives wperstAssert (.linkChange 6 16 true) (fun d => d.get HEP_LINK_STAT.RATE = 6 && (d.ntq.input.map (·.arg)) = [0x306]) = true := by decide

def wlinkSame : State := host11 fun d => d.setHep fun x => { x with trained := (5, 4) }

/-- HostResets. -/
theorem witness_linkSame : wlinkSame.Ready ∧ (Dev.linkTrains 5 8 false = true)
    ∧ gives wlinkSame (.linkChange 5 8 false) (fun d => d.ntq.input = [] && d.is HEP_LINK_STAT.DL_UP) = true := by decide

def wflrContained : State := host11 fun d => (d.set1 HEP_CONTAIN_STAT.CONTAINED).setHep fun x => { x with reset := some (4, 5) }

/-- HostResets. -/
theorem witness_flrContained : wflrContained.Ready ∧ (wflrContained.dev.contained = true)
    ∧ gives wflrContained (.hostResetComplete) (fun d => !d.contained && (d.ntq.input.map (·.code)).getLast? = some 0x017) = true := by decide

def wperstRelease : State := at' fun d => d.setHep fun x => { x with perst := true, reset := some (1, 0) }

/-- HostResets, NothingWhileLow. -/
theorem witness_perstRelease : wperstRelease.Ready ∧ (True)
    ∧ gives wperstRelease (.perstRelease true 100) (fun d => !d.hep.perst && d.is HEP_LINK_STAT.SRIS) = true := by decide

def whostResetComplete : State := host11 (·.setHep fun x => { x with reset := some (2, 5) })

/-- HostResets. -/
theorem witness_hostResetComplete : whostResetComplete.Ready ∧ (True)
    ∧ gives whostResetComplete (.hostResetComplete) (fun d => (d.ntq.input.map (·.time)) = [5] && d.is HEP_FLAGS.HOST_RESET) = true := by decide


/-! ### Chapter 12 -/

/-- Encoder channel 2 enabled without AUTO_CORR, changed by `g`, in a device changed by `f`. -/
def enc12 (f : Dev → Dev) (g : EncChan → EncChan) : State := at' fun d =>
  f ((((hostOn d).unset (ENC_CH_CTL.AUTO_CORR 2)).set1 (ENC_CH_CTL.EN 2)).setEncChan 2 g)
/-- One sample of the two tracks, and `n` more of it. -/
def run12 (a b : BitVec 14) (n : Nat) : EncMotion := ⟨0, [⟨a, b, false, n⟩]⟩
def idx12 (a b : BitVec 14) (n : Nat) : EncMotion := ⟨0, [⟨a, b, true, n⟩]⟩
/-- The angle of a sample of 4,000 codes at four places of the line, of 4,096 counts. -/
theorem test_angle_quarters :
    (lineAngle 4000 0 + 2 ^ 16) / 2 ^ 17 % 2 ^ 15 = 0
      ∧ (lineAngle 0 4000 + 2 ^ 16) / 2 ^ 17 = 2 ^ 13 ∧ (lineAngle (-4000) 0 + 2 ^ 16) / 2 ^ 17 = 2 ^ 14
      ∧ (lineAngle 0 (-4000) + 2 ^ 16) / 2 ^ 17 = 3 * 2 ^ 13 := by decide
theorem test_angle_step : angleStep 4096 10 4090 = 16 ∧ angleStep 4096 2048 0 = -2048 ∧ angleStep 4096 2047 0 = 2047 := by decide
/-- An offset of 100 codes on track A, and a gain of B of 1/2. -/
theorem test_corrected : (let (x, y) := corrected 100#32 0x2000#32 1100 500; (x = y, angleCount 4096 x y)) = (true, 512) := by decide

def wencoderEnable : State := at' fun d => { (d.set1 (STP_SK_CTL.KIND 5)).put (STP_SK_CTL.ENC 5) 2 with stp := { d.stp with strikes := [(5, ⟨99, 0, 0, 0, 0, none⟩)] } }

/-- EncoderMotion. -/
theorem witness_encoderEnable : wencoderEnable.Ready ∧ (wencoderEnable.dev.is (ENC_CH_CTL.EN 2) = false)
    ∧ gives wencoderEnable (.encoderEnable .mca 2) (fun d => d.is (ENC_CH_CTL.EN 2) && (d.encChan 2).still && (d.strike 5).seen = 0) = true := by decide

def wencoderDisable : State := at' fun d => (((d.unset (ENC_CH_CTL.AUTO_CORR 2)).set1 (ENC_CH_CTL.EN 2)).setReg (ENC_POS.addr 2) 7).setEncChan 2 fun x => { x with pos := 7 }

/-- EncoderMotion. -/
theorem witness_encoderDisable : wencoderDisable.Ready ∧ (wencoderDisable.dev.is (ENC_CH_CTL.EN 2) = true)
    ∧ gives wencoderDisable (.encoderDisable .mca 2) (fun d => !d.is (ENC_CH_CTL.EN 2) && d.encChan 2 = EncChan.reset && d.get64 (ENC_POS.addr 2) = 0) = true := by decide

def wpositionRead : State := enc12 (fun d => { d.put (ENC_CH_CTL.SPD_K 2) 12 with time := 100, enc := { d.enc with hist := [(2, [(0, 2 ^ 40 - 10)])] } })
    fun x => { x with pos := 2 ^ 40 - 10, theta := some 0, seenAt := 0 }

/-- EncoderMotion, EncoderDoubt. -/
theorem witness_positionRead : wpositionRead.Ready ∧ (wpositionRead.dev.Readable ∧ (wpositionRead.dev.encChan 2).fault = false ∧ (wpositionRead.dev.encChan 2).seenAt + ns 25 = wpositionRead.dev.time ∧ (wpositionRead.dev.encChan 2).theta = some 0)
    ∧ gives wpositionRead (.positionRead .host 2 (run12 0 4000 0)) (fun d => d.get64 (ENC_POS.addr 2) = 1014 && (d.encChan 2).theta = some 1024 && d.get64 (ENC_SPEED.addr 2) = 2560000000 && d.get64 (ENC_POS_TIME.addr 2) = 100) = true := by decide

def wpositionSense : State := enc12 (fun d => { d.set1 (ENC_CH_CTL.DIR 2) with time := 100, enc := { d.enc with hist := [(2, [(0, 5000)])] } }) fun x => { x with pos := 5000, theta := some 4000 }

/-- EncoderMotion, EncoderDoubt. -/
theorem witness_positionSense : wpositionSense.Ready ∧ (True)
    ∧ gives wpositionSense (.positionRead .host 2 (run12 4000 0 0)) (fun d => d.get64 (ENC_POS.addr 2) = 4904 && d.get64 (ENC_SPEED.addr 2) = 0) = true := by decide

def wpositionFirst : State := enc12 (fun d => { d with time := 100 }) fun x => { x with pos := 7 }

/-- EncoderMotion, EncoderDoubt. -/
theorem witness_positionFirst : wpositionFirst.Ready ∧ ((wpositionFirst.dev.encChan 2).theta = none)
    ∧ gives wpositionFirst (.positionRead .host 2 (run12 4000 0 0)) (fun d => d.get64 (ENC_POS.addr 2) = 7 && (d.encChan 2).theta = some 0) = true := by decide

def wautoCorr : State := enc12 (fun d => { d.set1 (ENC_CH_CTL.AUTO_CORR 2) with time := 100 }) fun x => { x with
    theta := some 4000, moved := 4090, line := [(-3900, 4100), (-4000, 4000), (-5656, 5656), (-5656, 5656)] }

/-- EncoderMotion, EncoderDoubt. -/
theorem witness_autoCorr : wautoCorr.Ready ∧ (True)
    ∧ gives wautoCorr (.positionRead .mca 2 (run12 4000 0 0)) (fun d => d.get (ENC_CH_CORR0.OFF_A 2) = 100 && d.get (ENC_CH_CORR0.OFF_B 2) = 0 && d.get (ENC_CH_CORR1.GAIN_B 2) = 2 ^ 14 && d.get (ENC_CH_CORR1.PHASE 2) = 0) = true := by decide

def wstandstillEnter : State := enc12 (fun d => { d.put (ENC_CH_STILL.STILL 2) 10000 with time := ms 10 }) id

/-- EncoderMotion. -/
theorem witness_standstillEnter : wstandstillEnter.Ready ∧ ((wstandstillEnter.dev.encChan 2).still = false ∧ ((wstandstillEnter.dev.encSamples 2 ⟨0, []⟩).encChan 2).seenAt = ms 10)
    ∧ gives wstandstillEnter (.standstillEnter 2 ⟨0, []⟩) (fun d => (d.encChan 2).still && d.ntq.input = [⟨.info, idENC, 0x012, 0x0200_0001#32, ms 10⟩]) = true := by decide

def wstandstillLeave : State := enc12 (fun d => { d.put (ENC_CH_CTL.SPD_K 2) 12 with time := 100 }) fun x => { x with still := true, theta := some 4032 }

/-- EncoderMotion. -/
theorem witness_standstillLeave : wstandstillLeave.Ready ∧ ((wstandstillLeave.dev.encChan 2).still = true ∧ wstandstillLeave.dev.encBand 2 = 64 ∧ angleCount 4096 (4000 * 2 ^ 30) (3 * 2 ^ 30) = 0)
    ∧ gives wstandstillLeave (.standstillLeave 2 (run12 4000 3 0)) (fun d => (d.encChan 2).still && (d.encChan 2).pos = 64) = true := by decide

/-- EncoderMotion. -/
theorem witness_standstillLeaves : wstandstillLeave.Ready ∧ (angleCount 4096 (4000 * 2 ^ 30) (4 * 2 ^ 30) = 1)
    ∧ gives wstandstillLeave (.standstillLeave 2 (run12 4000 4 0)) (fun d => !(d.encChan 2).still && (d.encChan 2).settleEnd = 100 + 409600 && (d.encChan 2).pos = 65) = true := by decide

def wsettlingEnd : State := at' fun d => { d.setEncChan 2 fun x => { x with settling := true, settleEnd := 409600 } with time := 409600 }

/-- EncoderMotion. -/
theorem witness_settlingEnd : wsettlingEnd.Ready ∧ ((wsettlingEnd.dev.encChan 2).settling = true ∧ (wsettlingEnd.dev.encChan 2).settleEnd ≤ wsettlingEnd.dev.time)
    ∧ gives wsettlingEnd (.settlingEnd 2) (fun d => !(d.encChan 2).settling) = true := by decide

def windexPulseCable : State := enc12 (fun d => { ((d.set1 (ENC_CH_CTL.IDX_EN 2)).put (ENC_CH_CHK.NOMINAL 2) 16384).put (ENC_CH_CHK.TOL 2) 1 with
    time := 600, enc := { d.enc with hist := [(2, [(0, 16382 * 4096)])] } })
    fun x => { x with index := some (0, false), indexClean := true, pos := 16382 * 4096, extreme := 16382 * 4096, theta := some 0 }

/-- EncoderDoubt. -/
theorem witness_indexPulseCable : windexPulseCable.Ready ∧ (windexPulseCable.dev.is (ENC_CH_CTL.IDX_EN 2) = true ∧ diff40 (16382 * 4096) 0 = 16382 * windexPulseCable.dev.encLine 2 ∧ Dev.indexRun (idx12 4000 0 5).runs = 6)
    ∧ gives windexPulseCable (.indexPulse 2 (idx12 4000 0 5)) (fun d => (d.encChan 2).causes = [1] && d.get64 (ENC_CHECK_FAIL_CNT.addr 2) = 1 && d.reg (ENC_IDX_LINES.addr 2) = 16382 && d.evr.input = [⟨0x22, 0, []⟩]) = true := by decide

def windexPulsePasses : State := { windexPulseCable with dev := { windexPulseCable.dev.put (ENC_CH_CHK.TOL 2) 2 with enc := { windexPulseCable.dev.enc with past := [] } } }

/-- EncoderDoubt. -/
theorem witness_indexPulsePasses : windexPulsePasses.Ready ∧ (True)
    ∧ gives windexPulsePasses (.indexPulse 2 (idx12 4000 0 5)) (fun d => (d.encChan 2).causes = [] && d.get64 (ENC_CHECK_FAIL_CNT.addr 2) = 0 && (d.encChan 2).index = some (16382 * 4096, false)) = true := by decide

def windexPulseQuadrant : State := enc12 (fun d => { (d.set1 (ENC_CH_CTL.IDX_EN 2)).set1 (ENC_CH_CTL.IDX_QCHK 2) with time := 600 }) fun x => { x with causes := [4] }

/-- EncoderDoubt. -/
theorem witness_indexPulseQuadrant : windexPulseQuadrant.Ready ∧ (Dev.quadrant (-3000) (-3000) = 2 ∧ windexPulseQuadrant.dev.get (ENC_CH_CTL.IDX_QUAD 2) = 0)
    ∧ gives windexPulseQuadrant (.indexPulse 2 (idx12 (-3000) (-3000) 0)) (fun d => (d.encChan 2).causes = [8] && d.is (ENC_FLAGS.INDEX_PHASE 2)) = true := by decide

/-- EncoderDoubt. -/
theorem witness_indexPulseReversed : windexPulseQuadrant.Ready ∧ (True)
    ∧ gives windexPulseQuadrant (.indexPulse 2 (idx12 (-3000) 3000 0)) (fun d => (d.encChan 2).causes = [7] && d.is (ENC_FLAGS.REVERSED 2)) = true := by decide

def windexPulseOneWay : State := enc12 (fun d => { (d.set1 (ENC_CH_CTL.IDX_EN 2)).set1 (ENC_CH_CTL.ONE_WAY 2) with time := 600 }) fun x => { x with index := some (4096, true), negative := true }

/-- EncoderDoubt. -/
theorem witness_indexPulseOneWay : windexPulseOneWay.Ready ∧ ((windexPulseOneWay.dev.encChan 2).index = some (4096, true) ∧ (windexPulseOneWay.dev.encChan 2).negative = true)
    ∧ gives windexPulseOneWay (.indexPulse 2 (idx12 4000 0 0)) (fun d => (d.encChan 2).causes = [7]) = true := by decide

def woverspeed : State := enc12 (fun d => { d with time := 1600, enc := { d.enc with hist := [(2, [(1600, 3310), (0, 0)])] } }) fun x => { x with pos := 3310, theta := some 3310, seenAt := 1600 }

/-- EncoderDoubt. -/
theorem witness_overspeed : woverspeed.Ready ∧ ((woverspeed.dev.encChan 2).fast = false ∧ 404 * woverspeed.dev.encLine 2 < 500 * (woverspeed.dev.encDelta 2 16).natAbs)
    ∧ gives woverspeed (.overspeed 2 false ⟨0, []⟩) (fun d => (d.encChan 2).causes = [2] && d.ntq.input = [⟨.alert, idENC, 0x010, 0x2200_0000#32, 1600⟩]) = true := by decide

def woverspeedWithin : State := enc12 (fun d => { d with time := 1600, enc := { d.enc with hist := [(2, [(1600, 3300), (0, 0)])] } }) fun x => { x with pos := 3300, theta := some 3300, seenAt := 1600 }

/-- EncoderDoubt. -/
theorem witness_overspeedWithin : woverspeedWithin.Ready ∧ (396 * woverspeedWithin.dev.encLine 2 ≤ 500 * (woverspeedWithin.dev.encDelta 2 16).natAbs)
    ∧ gives woverspeedWithin (.overspeed 2 true ⟨0, []⟩) (fun d => (d.encChan 2).causes = [2]) = true := by decide

def woverspeedReturn : State := enc12 id fun x => { x with fast := true, causes := [2] }

/-- EncoderDoubt. -/
theorem witness_overspeedReturn : woverspeedReturn.Ready ∧ ((woverspeedReturn.dev.encChan 2).fast = true)
    ∧ gives woverspeedReturn (.overspeed 2 false ⟨0, []⟩) (fun d => (d.encChan 2).causes = [2] && !(d.encChan 2).fast) = true := by decide

def wwiringFault : State := enc12 (fun d => (d.set1 (ENC_CH_CTL.BIAS 2)).setEnc fun x => { x with rails := [(2, 1, true)], biasUp := false }) id

/-- EncoderDoubt. -/
theorem witness_wiringFault : wwiringFault.Ready ∧ ((wwiringFault.dev.encChan 2).wires = [] ∧ wwiringFault.dev.is (ENC_CH_CTL.BIAS 2) = true)
    ∧ gives wwiringFault (.wiringFault 2 1 (some false) false ⟨0, []⟩) (fun d => (d.encChan 2).fault && d.is (ENC_FLAGS.OPEN 2) && d.ntq.input = [⟨.alert, idENC, 0x010, 0x3200_0001#32, 0⟩]) = true := by decide

/-- EncoderDoubt. -/
theorem witness_wiringRail : wwiringFault.Ready ∧ (True)
    ∧ gives wwiringFault (.wiringFault 2 1 (some true) false ⟨0, []⟩) (fun d => (d.encChan 2).wires = [(4, 1)] && d.is (ENC_FLAGS.SHORT_RAIL 2)) = true := by decide

def wwiringPair : State := enc12 (fun d => d.put (ENC_CH_RAD.RAD_MIN 2) 1000) fun x => { x with a := 600, b := 700 }

/-- EncoderDoubt. -/
theorem witness_wiringPair : wwiringPair.Ready ∧ (True)
    ∧ gives wwiringPair (.wiringFault 2 3 none true ⟨0, []⟩) (fun d => (d.encChan 2).wires = [(5, 3)] && d.is (ENC_FLAGS.SHORT_PAIR 2)) = true := by decide

def wwiringSignal : State := enc12 (fun d => { d.put (ENC_CH_RAD.RAD_MIN 2) 1000 with time := 100000 }) fun x => { x with a := 600, b := 700, theta := some 0 }

/-- EncoderDoubt. -/
theorem witness_wiringSignal : wwiringSignal.Ready ∧ ((wwiringSignal.dev.encChan 2).wires = [] ∧ ((wwiringSignal.dev.encSamples 2 (run12 600 700 999)).encChan 2).radBad = 1000)
    ∧ gives wwiringSignal (.wiringFault 2 3 none false (run12 600 700 999)) (fun d => (d.encChan 2).fault && d.is (ENC_FLAGS.SIGNAL 2) && d.ntq.input.map (·.arg) = [0x6200_0000#32]) = true := by decide

/-- EncoderDoubt. -/
theorem witness_wiringSignalNot : wwiringSignal.Ready ∧ (((wwiringSignal.dev.encSamples 2 (run12 600 700 998)).encChan 2).radBad = 999)
    ∧ gives wwiringSignal (.wiringFault 2 3 none false (run12 600 700 998)) (fun d => !(d.encChan 2).fault) = true := by decide

def wpositionHeld : State := enc12 (fun d => { d with time := 100 }) fun x => { x with pos := 77, theta := some 5, fault := true, wires := [(3, 1)], causes := [3] }

/-- EncoderMotion, EncoderDoubt. -/
theorem witness_positionHeld : wpositionHeld.Ready ∧ (wpositionHeld.dev.Readable ∧ (wpositionHeld.dev.encChan 2).fault = true)
    ∧ gives wpositionHeld (.positionRead .host 2 (run12 0 4000 0)) (fun d => d.get64 (ENC_POS.addr 2) = 77 && d.get64 (ENC_SPEED.addr 2) = 0 && (d.encChan 2).theta = some 5) = true := by decide

def wwiringFaultClear : State := enc12 (fun d => { d with time := ms 1 }) fun x => { x with pos := 77, theta := some 5, fault := true, wires := [(3, 1)], causes := [3] }

/-- EncoderDoubt. -/
theorem witness_wiringFaultClear : wwiringFaultClear.Ready ∧ ((wwiringFaultClear.dev.encChan 2).fault = true)
    ∧ gives wwiringFaultClear (.wiringFaultClear 2 ⟨0, []⟩) (fun d => !(d.encChan 2).fault && (d.encChan 2).pos = 77 && (d.encChan 2).causes = [3]) = true := by decide

def wclearDoubtFault : State := wwiringFaultClear

/-- EncoderDoubt. -/
theorem witness_clearDoubtFault : wclearDoubtFault.Ready ∧ (wclearDoubtFault.dev.Admits .mca (ENC_CH_CMD.addr 2))
    ∧ gives wclearDoubtFault (.clearDoubt .mca 2) (fun d => d.is (ENC_FLAGS.BAD_STATE 2) && (d.encChan 2).causes = [3]) = true := by decide

def wclearDoubt : State := at' fun d => ((d.unset (ENC_CH_CTL.AUTO_CORR 2)).set1 (ENC_CH_CTL.EN 2)).setEncChan 2 fun x => { x with causes := [7, 2] }

/-- EncoderDoubt. -/
theorem witness_clearDoubt : wclearDoubt.Ready ∧ ((wclearDoubt.dev.encChan 2).causes ≠ [])
    ∧ gives wclearDoubt (.clearDoubt .mca 2) (fun d => (d.encChan 2).causes = [] && d.ntq.input = [⟨.event, idENC, 0x011, 0x0200_0000#32, 0⟩]) = true := by decide

def wbiasReversal : State := at' fun d => { d with time := us 100 }

/-- EncoderDoubt. -/
theorem witness_biasReversal : wbiasReversal.Ready ∧ (wbiasReversal.dev.enc.biasAt + us 100 ≤ wbiasReversal.dev.time)
    ∧ gives wbiasReversal (.biasReversal [(2, 1, true)]) (fun d => d.enc.biasAt = us 100 && d.enc.rails = [(2, 1, true)]) = true := by decide

def wfioEdge : State := at' fun d => { ((d.put (FIO_PIN_CTL.MODE 5) 1).setReg (EVR_CH.addr 9) 0x80150046#32).setPin 5 fun x => { x with edgeAt := some 1000 } with time := 1000 + ns 40 + 8 }

/-- FieldInputs. -/
theorem witness_fioEdge : wfioEdge.Ready ∧ (wfioEdge.dev.bitOf FIO_LEVEL.addr 5 = false ∧ true = (wfioEdge.dev.get (FIO_PIN_CTL.EDGE 5) != 1) ∧ 1000 + ns 40 ≤ wfioEdge.dev.time - 8)
    ∧ gives wfioEdge (.fioEdge 5 true 8) (fun d => d.bitOf FIO_LEVEL.addr 5 && d.get64 (FIO_EDGE_CNT.addr 5) = 1 && d.evr.input = [⟨0x15, 0, [(9, 0x46)]⟩]) = true := by decide

/-- FieldInputs. -/
theorem witness_fioEdgeNear : wfioEdge.Ready ∧ (wfioEdge.dev.time - 9 < 1000 + ns 40 ∧ (wfioEdge.dev.pin 5).edgeAt = some 1000)
    ∧ gives wfioEdge (.fioEdge 5 true 9) (fun d => d.get64 (FIO_FILT_CNT.addr 5) = 1 && d.evr.input = [] && d.ntq.input.length = 1) = true := by decide

def wfioEdgeOff : State := at' id

/-- FieldInputs. -/
theorem witness_fioEdgeOff : wfioEdgeOff.Ready ∧ (wfioEdgeOff.dev.get (FIO_PIN_CTL.MODE 5) ≠ 1)
    ∧ gives wfioEdgeOff (.fioEdge 5 true 9) (fun d => d.bitOf FIO_LEVEL.addr 5 && d.evr.input = []) = true := by decide

def wfioEdgeShort : State := at' fun d => (d.put (FIO_PIN_CTL.MODE 5) 1).put (FIO_PIN_CTL.FILT 5) 1

/-- FieldInputs. -/
theorem witness_fioEdgeShort : wfioEdgeShort.Ready ∧ ((19 : Nat) < wfioEdgeShort.dev.get (FIO_PIN_CTL.FILT 5) * ns 5)
    ∧ gives wfioEdgeShort (.fioEdge 5 true 19) (fun d => !d.bitOf FIO_LEVEL.addr 5 && d.evr.input = []) = true := by decide

def wfioStuck : State := at' fun d => { ((d.put (FIO_PIN_CTL.MODE 5) 1).put (FIO_PIN_STUCK.STUCK_T 5) 100).setBit FIO_LEVEL.addr 5 with time := us 100 }

/-- FieldInputs. -/
theorem witness_fioStuck : wfioStuck.Ready ∧ (wfioStuck.dev.get (FIO_PIN_STUCK.STUCK_T 5) ≠ 0 ∧ (wfioStuck.dev.pin 5).levelAt + us (wfioStuck.dev.get (FIO_PIN_STUCK.STUCK_T 5)) ≤ wfioStuck.dev.time)
    ∧ gives wfioStuck (.fioStuck 5) (fun d => d.bitOf FIO_STAT_STUCK.addr 5 && d.get64 FIO_STUCK_CNT.addr = 1) = true := by decide

def wstuckInputReturn : State := at' fun d => ((d.put (FIO_PIN_CTL.MODE 5) 1).setBit FIO_LEVEL.addr 5).setBit FIO_STAT_STUCK.addr 5

/-- FieldInputs. -/
theorem witness_stuckInputReturn : wstuckInputReturn.Ready ∧ (wstuckInputReturn.dev.bitOf FIO_STAT_STUCK.addr 5 = true)
    ∧ gives wstuckInputReturn (.stuckInputReturn 5) (fun d => !d.bitOf FIO_STAT_STUCK.addr 5 && !d.bitOf FIO_LEVEL.addr 5) = true := by decide

def wfioSet : State := at' fun d => (d.put (FIO_PIN_CTL.MODE 5) 2).setPin 5 fun x => { x with pulse := some (40, 1) }

/-- FieldOutputs, EventRoutingAndTasks. -/
theorem witness_fioSet : wfioSet.Ready ∧ (True)
    ∧ gives wfioSet (.fioSet 5) (fun d => d.is (FIO_PIN_CTL.OUT 5) && (d.pin 5).pulse = none && d.out = [.fioPin 5 (some true)]) = true := by decide

/-- FieldOutputs, EventRoutingAndTasks. -/
theorem witness_fioClr : wfioSet.Ready ∧ (True)
    ∧ gives wfioSet (.fioClr 5) (fun d => !d.is (FIO_PIN_CTL.OUT 5) && (d.pin 5).pulse = none && d.out = []) = true := by decide

/-- FieldOutputs, EventRoutingAndTasks. -/
theorem witness_fioTgl : wfioSet.Ready ∧ (True)
    ∧ gives wfioSet (.fioTgl 5) (fun d => d.is (FIO_PIN_CTL.OUT 5) && d.out = [.fioPin 5 (some true)]) = true := by decide

def wfioSetAfterClr : State := at' fun d => (d.put (FIO_PIN_CTL.MODE 5) 2).setPin 5 fun x => { x with acted := some ⟨0, 1, 1, none⟩ }

/-- FieldOutputs, EventRoutingAndTasks. -/
theorem witness_fioSetAfterClr : wfioSetAfterClr.Ready ∧ ((wfioSetAfterClr.dev.pin 5).acted = some ⟨0, 1, 1, none⟩ ∧ wfioSetAfterClr.dev.time = 0)
    ∧ gives wfioSetAfterClr (.fioSet 5) (fun d => !d.is (FIO_PIN_CTL.OUT 5) && d.out = []) = true := by decide

def wfioClrAfterPulse : State := at' fun d => (d.put (FIO_PIN_CTL.MODE 5) 2).put (FIO_PIN_CTL.OUT 5) 1 |>.setPin 5 fun x => { x with pulse := some (500, 0), acted := some ⟨0, 4, 0, none⟩ }

/-- FieldOutputs, EventRoutingAndTasks. -/
theorem witness_fioClrAfterPulse : wfioClrAfterPulse.Ready ∧ (True)
    ∧ gives wfioClrAfterPulse (.fioTgl 5) (fun d => d.is (FIO_PIN_CTL.OUT 5) && (d.pin 5).pulse.isNone) = true := by decide

def wfioPulseAgain : State := at' fun d => { ((d.put (FIO_PIN_CTL.MODE 5) 2).put (FIO_PIN_PULSE.PULSE_W 5) 500).setPin 5 fun x => { x with pulse := some (40, 1) } with time := 40 }

/-- FieldOutputs, EventRoutingAndTasks. -/
theorem witness_fioPulseAgain : wfioPulseAgain.Ready ∧ ((wfioPulseAgain.dev.pin 5).pulse = some (40, 1))
    ∧ gives wfioPulseAgain (.fioPulse 5) (fun d => (d.pin 5).pulse = some (540, 1) && d.out = []) = true := by decide

/-- FieldOutputs. -/
theorem witness_fioPulseEnd : wfioPulseAgain.Ready ∧ ((wfioPulseAgain.dev.pin 5).pulse = some (40, 1) ∧ 40 ≤ wfioPulseAgain.dev.time)
    ∧ gives wfioPulseAgain (.fioPulseEnd 5) (fun d => (d.pin 5).pulse = none && d.out = [.fioPin 5 (some true)]) = true := by decide

def wfioPulse : State := at' fun d => (d.put (FIO_PIN_CTL.MODE 5) 2).put (FIO_PIN_PULSE.PULSE_W 5) 500

/-- FieldOutputs, EventRoutingAndTasks. -/
theorem witness_fioPulse : wfioPulse.Ready ∧ ((wfioPulse.dev.pin 5).pulse = none)
    ∧ gives wfioPulse (.fioPulse 5) (fun d => (d.pin 5).pulse = some (500, 0) && d.out = [.fioPin 5 (some true)]) = true := by decide

def woutputShort : State := at' fun d => { (d.put (FIO_PIN_CTL.MODE 5) 2).set1 (FIO_PIN_CTL.OUT 5) with time := us 100 }

/-- FieldOutputs. -/
theorem witness_outputShort : woutputShort.Ready ∧ ((woutputShort.dev.pinDrive 5).isSome = true)
    ∧ gives woutputShort (.outputShort 5) (fun d => d.pinDrive 5 = none && d.out = [.fioPin 5 none] && d.get64 FIO_SHORT_CNT.addr = 1) = true := by decide

/-- FieldOutputs. -/
theorem witness_openLoad : woutputShort.Ready ∧ (woutputShort.dev.pinDrive 5 = some true)
    ∧ gives woutputShort (.openLoad 5) (fun d => d.bitOf FIO_FLAGS_OUT.addr 21 && d.ntq.input.length = 1) = true := by decide

def woutputShortSoon : State := at' fun d => { (d.put (FIO_PIN_CTL.MODE 5) 2).set1 (FIO_PIN_CTL.OUT 5) with time := us 10 - 1 }

/-- FieldOutputs. -/
theorem witness_outputShortSoon : woutputShortSoon.Ready ∧ (True)
    ∧ gives woutputShortSoon (.outputShort 5) (fun d => (d.pinDrive 5).isSome) = true := by decide

/-- FieldOutputs. -/
theorem witness_vfieldLow : woutputShortSoon.Ready ∧ (woutputShortSoon.dev.is FIO_OUT_STAT.VLOW = false)
    ∧ gives woutputShortSoon (.vfieldLow) (fun d => d.pinDrive 5 = none && d.out = [.fioPin 5 none] && d.is FIO_FLAGS.VFIELD_LOW) = true := by decide

def wvfieldRestored : State := at' fun d => ((d.put (FIO_PIN_CTL.MODE 5) 2).set1 (FIO_PIN_CTL.OUT 5)).set1 FIO_OUT_STAT.VLOW

/-- FieldOutputs. -/
theorem witness_vfieldRestored : wvfieldRestored.Ready ∧ (wvfieldRestored.dev.is FIO_OUT_STAT.VLOW = true)
    ∧ gives wvfieldRestored (.vfieldRestored) (fun d => d.pinDrive 5 = some true && d.out = [.fioPin 5 (some true)]) = true := by decide

def woutputRearm : State := at' fun d => ((d.put (FIO_PIN_CTL.MODE 5) 2).set1 (FIO_PIN_CTL.OUT 5)).setBit FIO_OUT_STAT.addr 5

/-- FieldOutputs. -/
theorem witness_outputRearm : woutputRearm.Ready ∧ (woutputRearm.dev.Admits .mca (FIO_PIN_CMD.addr 5))
    ∧ gives woutputRearm (.outputRearm .mca 5) (fun d => d.pinDrive 5 = some true && !d.bitOf FIO_OUT_STAT.addr 5) = true := by decide


/-! ### Chapter 13 -/

def wstrikeArm : State := at' fun d => { d.put (STP_SK_TGT_LO.TGT 5) 100 with time := 100 }

/-- StrikeArming, EventRoutingAndTasks. -/
theorem witness_strikeArm : wstrikeArm.Ready ∧ (wstrikeArm.dev.strikeState 5 = 0 ∧ wstrikeArm.dev.is (STP_SK_CTL.KIND 5) = false ∧ wstrikeArm.dev.time ≤ wstrikeArm.dev.get64 (STP_SK_TGT_LO.addr 5))
    ∧ gives wstrikeArm (.strikeArm (.write .mca) 5) (fun d => d.strikeState 5 = 1) = true := by decide

/-- StrikeArming, EventRoutingAndTasks. -/
theorem witness_strikeArmTask : wstrikeArm.Ready ∧ (wstrikeArm.dev.Causes .task STP_ARM_LO.addr 0x0C5)
    ∧ gives wstrikeArm (.strikeArm .task 5) (fun d => d.strikeState 5 = 1 && (d.strike 5).hop = 1) = true := by decide

def wstrikeArmPassed : State := at' fun d => { d.put (STP_SK_TGT_LO.TGT 40) 100 with time := 101 }

/-- StrikeArming, EventRoutingAndTasks. -/
theorem witness_strikeArmPassed : wstrikeArmPassed.Ready ∧ (wstrikeArmPassed.dev.get64 (STP_SK_TGT_LO.addr 40) < wstrikeArmPassed.dev.time ∧ wstrikeArmPassed.dev.is (STP_SK_CTL.FIRE_LATE 40) = false)
    ∧ gives wstrikeArmPassed (.strikeArm (.write .mca) 40) (fun d => d.strikeState 40 = 0 && d.is STP_FLAGS.PASSED && d.get64 STP_PASSED_CNT.addr = 1) = true := by decide

def wstrikeArmLate : State := at' fun d => { (d.put (STP_SK_TGT_LO.TGT 5) 100).set1 (STP_SK_CTL.FIRE_LATE 5) with time := 101 }

/-- StrikeArming, EventRoutingAndTasks. -/
theorem witness_strikeArmLate : wstrikeArmLate.Ready ∧ (wstrikeArmLate.dev.get64 (STP_SK_TGT_LO.addr 5) < wstrikeArmLate.dev.time ∧ wstrikeArmLate.dev.is (STP_SK_CTL.TICK 5) = false)
    ∧ gives wstrikeArmLate (.strikeArm .task 5) (fun d => d.strikeState 5 = 2 && (d.strike 5).tf = 101 && d.get64 STP_LATE_CNT.addr = 1 && !d.is STP_FLAGS.PASSED) = true := by decide

def wstrikeArmRefused : State := at' fun d => (d.set1 (STP_SK_CTL.REPEAT 5)).put (STP_SK_STEP.STEP 5) 399

/-- StrikeArming, EventRoutingAndTasks. -/
theorem witness_strikeArmRefused : wstrikeArmRefused.Ready ∧ (wstrikeArmRefused.dev.get (STP_SK_STEP.STEP 5) < 400)
    ∧ gives wstrikeArmRefused (.strikeArm .task 5) (fun d => d.strikeState 5 = 0 && d.is STP_FLAGS.REFUSED) = true := by decide

def wstrikeArmStep400 : State := at' fun d => (d.set1 (STP_SK_CTL.REPEAT 5)).put (STP_SK_STEP.STEP 5) 400

/-- StrikeArming, EventRoutingAndTasks. -/
theorem witness_strikeArmStep400 : wstrikeArmStep400.Ready ∧ (True)
    ∧ gives wstrikeArmStep400 (.strikeArm .task 5) (fun d => d.strikeState 5 = 1) = true := by decide

def wstrikeArmPosition : State := at' fun d => d.set1 (STP_SK_CTL.KIND 5)

/-- StrikeArming, EventRoutingAndTasks. -/
theorem witness_strikeArmPosition : wstrikeArmPosition.Ready ∧ (wstrikeArmPosition.dev.is (ENC_CH_CTL.EN 0) = false)
    ∧ gives wstrikeArmPosition (.strikeArm .task 5) (fun d => d.strikeState 5 = 1) = true := by decide

def wstrikeArmBusy : State := at' fun d => d.put (STP_SK_STAT.STATE 5) 1

/-- StrikeArming, EventRoutingAndTasks. -/
theorem witness_strikeArmBusy : wstrikeArmBusy.Ready ∧ (wstrikeArmBusy.dev.strikeState 5 ≠ 0)
    ∧ gives wstrikeArmBusy (.strikeArm .task 5) (fun d => d.strikeState 5 = 1) = true := by decide

def wstrikeArmSameCycle : State := at' fun d => { d with time := 100, stp := { d.stp with strikes := [(5, ⟨0, 0, 0, 0, 0, some 100⟩)] } }

/-- StrikeArming, EventRoutingAndTasks. -/
theorem witness_strikeArmSameCycle : wstrikeArmSameCycle.Ready ∧ (wstrikeArmSameCycle.dev.strikeState 5 = 0 ∧ (wstrikeArmSameCycle.dev.strike 5).off = some wstrikeArmSameCycle.dev.time)
    ∧ gives wstrikeArmSameCycle (.strikeArm .task 5) (fun d => d.strikeState 5 = 0) = true := by decide

def wstrikeDisarm : State := at' fun d => { d.put (STP_SK_STAT.STATE 5) 2 with stp := ⟨[(5, ⟨0, 900, 1, 0, 0, none⟩)], [⟨1, false, none⟩], [⟨5, 1, 2, 288, 64, 900⟩], 2⟩ }

/-- StrikeArming, EventRoutingAndTasks. -/
theorem witness_strikeDisarm : wstrikeDisarm.Ready ∧ (wstrikeDisarm.dev.strikeState 5 = 2)
    ∧ gives wstrikeDisarm (.strikeDisarm (.write .mca) 5) (fun d => d.strikeState 5 = 0 && d.stp.checks = [] && d.stp.locks = [⟨1, false, some false⟩]) = true := by decide

def wstrikeMissCheck : State := at' fun d => { (d.unset (ENC_CH_CTL.AUTO_CORR 2)).set1 (ENC_CH_CTL.EN 2) with
    time := 1000, enc := { d.enc with hist := [(2, [(900, 240), (800, 200)])], chans := [(2, { EncChan.reset with seenAt := 900, pos := 240 })] }
    stp := ⟨[(5, ⟨0, 850, 1, 0, 0, none⟩)], [⟨1, false, none⟩], [⟨5, 1, 2, 288, 64, 850⟩], 2⟩ }

/-- StrikeWork. -/
theorem witness_strikeMissCheck : wstrikeMissCheck.Ready ∧ (interpolate 200 240 50 = 220 ∧ diff40 220 288 = -68)
    ∧ gives wstrikeMissCheck (.strikeMissCheck 5 ⟨0, []⟩) (fun d => d.is STP_FLAGS.MISS && d.stp.checks = []) = true := by decide

def wstrikeMeets : State := { wstrikeMissCheck with dev := { wstrikeMissCheck.dev with enc := { wstrikeMissCheck.dev.enc with hist := [(2, [(900, 250), (800, 200)])] } } }

/-- StrikeWork. -/
theorem witness_strikeMeets : wstrikeMeets.Ready ∧ (interpolate 200 250 50 = 225 ∧ diff40 225 288 = -63)
    ∧ gives wstrikeMeets (.strikeMissCheck 5 ⟨0, []⟩) (fun d => !d.is STP_FLAGS.MISS && d.stp.checks = []) = true := by decide

def wstrikeMissSoon : State := { wstrikeMissCheck with dev := { wstrikeMissCheck.dev with time := 899 } }

/-- StrikeWork. -/
theorem witness_strikeMissSoon : wstrikeMissSoon.Ready ∧ (wstrikeMissSoon.dev.bracketed ⟨99, []⟩ 850 = false)
    ∧ gives wstrikeMissSoon (.strikeMissCheck 5 ⟨99, []⟩) (fun d => d.stp.checks.length = 1) = true := by decide

def wtimeStrikeEarly : State := at' fun d => { ((d.put (STP_SK_TGT_LO.TGT 5) 10000).put (STP_SK_PARAM.LEAD 5) 2).put (STP_SK_STAT.STATE 5) 1 with time := 1999 }

/-- TimeStrikeLocks. -/
theorem witness_timeStrikeEarly : wtimeStrikeEarly.Ready ∧ (wtimeStrikeEarly.dev.strikeState 5 = 1 ∧ wtimeStrikeEarly.dev.time < 10000 - 2 * 4000)
    ∧ gives wtimeStrikeEarly (.timeStrikeLock 5) (fun d => d.strikeState 5 = 1) = true := by decide

def wtimeStrikeLock : State := at' fun d => { ((d.put (STP_SK_TGT_LO.TGT 5) 10000).put (STP_SK_PARAM.LEAD 5) 2).put (STP_SK_STAT.STATE 5) 1 with time := 2000 }

/-- TimeStrikeLocks. -/
theorem witness_timeStrikeLock : wtimeStrikeLock.Ready ∧ (wtimeStrikeLock.dev.strikeState 5 = 1 ∧ 10000 - 2 * 4000 ≤ wtimeStrikeLock.dev.time)
    ∧ gives wtimeStrikeLock (.timeStrikeLock 5) (fun d => d.strikeState 5 = 2 && (d.strike 5).tf = 10000 && d.get64 (STP_SK_LAST.addr 5) = 10000 && d.get64 STP_LATE_CNT.addr = 0) = true := by decide

def wtimeStrikeTick : State := at' fun d => { (((d.set1 (STP_SK_CTL.TICK 5)).put (STP_SK_TGT_LO.TGT 5) 10000).put (STP_SK_PARAM.LEAD 5) 2).put (STP_SK_STAT.STATE 5) 1 with time := 6001 }

/-- TimeStrikeLocks. -/
theorem witness_timeStrikeTick : wtimeStrikeTick.Ready ∧ (10000 < wtimeStrikeTick.dev.time + 4000)
    ∧ gives wtimeStrikeTick (.timeStrikeLock 5) (fun d => (d.strike 5).tf = 10001 && d.get64 STP_LATE_CNT.addr = 1 && d.get64 STP_TICK_CNT.addr = 1) = true := by decide

/-- Strike 5 ARMED on channel 2, target 288, LEAD 100 us, in direction `dir`, last evaluated at `seen`; the channel enabled at position `pos`, moving,
with a window of 2^12 samples that began at position `old`. -/
def pos13 (dir seen pos old : Nat) : State := at' fun d =>
  let d := (((d.unset (ENC_CH_CTL.AUTO_CORR 2)).set1 (ENC_CH_CTL.EN 2)).put (ENC_CH_CTL.SPD_K 2) 12).set1 (STP_SK_CTL.KIND 5)
  { (((((d.put (STP_SK_CTL.ENC 5) 2).put (STP_SK_CTL.DIR 5) dir).put (STP_SK_TGT_LO.TGT 5) 288).put (STP_SK_PARAM.LEAD 5) 100).put
      (STP_SK_PARAM.TOL 5) 64).put (STP_SK_STAT.STATE 5) 1 with
    time := 500000, stp := { d.stp with strikes := [(5, ⟨seen, 0, 0, 0, 0, none⟩)] }
    enc := { d.enc with
      hist := [(2, [(500000, pos), (0, old)])], chans := [(2, { EncChan.reset with seenAt := 500000, pos := pos, extreme := pos, negative := dir = 1 })] } }

def wpositionStrikeCrossed : State := pos13 0 280 300 300

/-- StrikeWork. -/
theorem witness_positionStrikeCrossed : wpositionStrikeCrossed.Ready ∧ (wpositionStrikeCrossed.dev.strikeState 5 = 1 ∧ wpositionStrikeCrossed.dev.get (STP_SK_CTL.DIR 5) ≠ 1 ∧ diff40 (wpositionStrikeCrossed.dev.strike 5).seen 288 < 0 ∧ 0 ≤ diff40 300 288 ∧ wpositionStrikeCrossed.dev.encSpeed 2 = 0)
    ∧ gives wpositionStrikeCrossed (.positionStrikeLock 5 ⟨0, []⟩) (fun d => d.strikeState 5 = 2 && (d.strike 5).tf = 500000 && d.get64 STP_LATE_CNT.addr = 1 && d.stp.checks = [⟨5, 0, 2, 288, 64, 500000⟩]) = true := by decide

def wpositionStrikePredicted : State := pos13 0 100 200 104

/-- StrikeWork. -/
theorem witness_positionStrikePredicted : wpositionStrikePredicted.Ready ∧ (wpositionStrikePredicted.dev.encSpeed 2 = (240000000 : Nat) ∧ diff40 200 288 = -88 ∧ (2 * 88 * 1024000000000 + 240000000) / (2 * 240000000) = 375467)
    ∧ gives wpositionStrikePredicted (.positionStrikeLock 5 ⟨0, []⟩) (fun d => d.strikeState 5 = 2 && (d.strike 5).tf = 500000 + 375467 && d.get64 STP_LATE_CNT.addr = 0) = true := by decide

def wpositionStrikeFalling : State := pos13 1 400 376 472

/-- StrikeWork. -/
theorem witness_positionStrikeFalling : wpositionStrikeFalling.Ready ∧ (wpositionStrikeFalling.dev.encSpeed 2 = -240000000 ∧ diff40 376 288 = 88 ∧ wpositionStrikeFalling.dev.get (STP_SK_CTL.DIR 5) ≠ 0)
    ∧ gives wpositionStrikeFalling (.positionStrikeLock 5 ⟨0, []⟩) (fun d => d.strikeState 5 = 2 && (d.strike 5).tf = 500000 + 375467 && d.get64 STP_LATE_CNT.addr = 0) = true := by decide

def wpositionStrikeFar : State := pos13 0 100 200 199

/-- StrikeWork. -/
theorem witness_positionStrikeFar : wpositionStrikeFar.Ready ∧ (wpositionStrikeFar.dev.encSpeed 2 = (2500000 : Nat) ∧ 100 * 4000 < (2 * 88 * 1024000000000 + 2500000) / (2 * 2500000))
    ∧ gives wpositionStrikeFar (.positionStrikeLock 5 ⟨0, []⟩) (fun d => d.strikeState 5 = 1 && (d.strike 5).seen = 200) = true := by decide

def wstrikeFire : State := at' fun d => { d.put (STP_SK_STAT.STATE 5) 2 with time := 900, stp := ⟨[(5, ⟨0, 900, 1, 0, 3, none⟩)], [⟨1, false, none⟩], [], 2⟩ }

/-- StrikeWork. -/
theorem witness_strikeFire : wstrikeFire.Ready ∧ (wstrikeFire.dev.strikeState 5 = 2 ∧ (wstrikeFire.dev.strike 5).tf ≤ wstrikeFire.dev.time ∧ wstrikeFire.dev.is (STP_SK_CTL.REPEAT 5) = false)
    ∧ gives wstrikeFire (.strikeFire 5) (fun d => d.strikeState 5 = 0 && d.evr.input = [⟨0x45, 3, []⟩] && d.get (STP_SK_STAT.FIRED 5) = 1) = true := by decide

def wstrikeFireRepeat : State := at' fun d => { (((d.put (STP_SK_STAT.STATE 5) 2).set1 (STP_SK_CTL.REPEAT 5)).put (STP_SK_STEP.STEP 5) 400).put (STP_SK_TGT_LO.TGT 5) 900 with
    time := 900, stp := ⟨[(5, ⟨0, 900, 1, 0, 3, none⟩)], [⟨1, false, none⟩], [], 2⟩ }

/-- StrikeWork. -/
theorem witness_strikeFireRepeat : wstrikeFireRepeat.Ready ∧ (wstrikeFireRepeat.dev.get (STP_SK_COUNT.COUNT 5) = 0 ∧ wstrikeFireRepeat.dev.time ≤ (900 + 400) % 2 ^ 64)
    ∧ gives wstrikeFireRepeat (.strikeFire 5) (fun d => d.strikeState 5 = 1 && d.get64 (STP_SK_TGT_LO.addr 5) = 1300 && d.evr.input = [⟨0x45, 3, []⟩]) = true := by decide

def wstrikeFirePosition : State := at' fun d => { ((((d.put (STP_SK_STAT.STATE 5) 2).set1 (STP_SK_CTL.REPEAT 5)).set1 (STP_SK_CTL.KIND 5)).put (STP_SK_STEP.STEP 5) 0x1000_0000).put
    (STP_SK_TGT_LO.TGT 5) 288 |>.put (STP_SK_TGT_HI.TGT 5) 0xFF with stp := ⟨[(5, ⟨0, 0, 1, 0, 3, none⟩)], [⟨1, false, none⟩], [], 2⟩ }

/-- StrikeWork. -/
theorem witness_strikeFirePosition : wstrikeFirePosition.Ready ∧ (wstrikeFirePosition.dev.is (ENC_CH_CTL.EN 0) = false)
    ∧ gives wstrikeFirePosition (.strikeFire 5) (fun d => d.strikeState 5 = 1 && d.get64 (STP_SK_TGT_LO.addr 5) = 0xFF10000120) = true := by decide

def wsoftwareFire : State := at' fun d => (d.set1 (EVR_CH.EN 33)).put (EVR_CH.TASK 33) 0x46

/-- SoftwareFires. -/
theorem witness_softwareFire : wsoftwareFire.Ready ∧ (wsoftwareFire.dev.Admits .mca (EVR_FIRE.addr 1) ∧ wsoftwareFire.dev.is (EVR_CH.EN 33) = true ∧ (wsoftwareFire.dev.taskPending 0x46).1 < 4)
    ∧ gives wsoftwareFire (.softwareFire .mca 33) (fun d => d.taskPending 0x46 = (1, 0) && d.get64 EVR_SW_CNT.addr = 1) = true := by decide

def wsoftwareFireLost : State := at' fun d => { (d.set1 (EVR_CH.EN 33)).put (EVR_CH.TASK 33) 0x46 with evr := { d.evr with pending := [(0x46, (4, 2))] } }

/-- SoftwareFires. -/
theorem witness_softwareFireLost : wsoftwareFireLost.Ready ∧ (4 ≤ (wsoftwareFireLost.dev.taskPending 0x46).1)
    ∧ gives wsoftwareFireLost (.softwareFire .mca 33) (fun d => d.taskPending 0x46 = (4, 2) && d.is EVR_FLAGS.LOST && d.get EVR_LAST.TASK = 0x46) = true := by decide

def wsoftwareFireOff : State := at' id

/-- SoftwareFires. -/
theorem witness_softwareFireOff : wsoftwareFireOff.Ready ∧ (wsoftwareFireOff.dev.is (EVR_CH.EN 33) = false)
    ∧ gives wsoftwareFireOff (.softwareFire .mca 33) (fun d => d.get64 EVR_SW_CNT.addr = 0) = true := by decide

/-- Channels 0 and 7 from STP_FIRE_SK0 to TASK_FIO_P6_PULSE, with three activations already pending. -/
def evr13 (hop : Nat) : State := at' fun d =>
  { (((d.setReg (EVR_CH.addr 0) 0x80400046#32).setReg (EVR_CH.addr 7) 0x80400046#32)) with
    evr := { d.evr with input := [⟨0x40, hop, [(0, 0x46), (7, 0x46)]⟩, ⟨0x28, 0, []⟩], pending := [(0x46, (3, 2))] } }

def weventRoute : State := evr13 8

/-- EventRoutingAndTasks. -/
theorem witness_eventRoute : weventRoute.Ready ∧ ((8 : Nat) ≤ 8 ∧ weventRoute.dev.routesOf 0x40 = [(0, 0x46), (7, 0x46)] ∧ (weventRoute.dev.taskPending 0x46).1 ≤ 4)
    ∧ gives weventRoute (.eventRoute) (fun d => d.taskPending 0x46 = (4, 8) && d.get64 EVR_ROUTED_CNT.addr = 2 && d.is EVR_FLAGS.LOST && d.evr.input = [⟨0x28, 0, []⟩]) = true := by decide

def weventRouteCut : State := evr13 9

/-- EventRoutingAndTasks. -/
theorem witness_eventRouteCut : weventRouteCut.Ready ∧ ((8 : Nat) < 9)
    ∧ gives weventRouteCut (.eventRoute) (fun d => d.taskPending 0x46 = (3, 2) && d.get64 EVR_LOOP_CUT_CNT.addr = 1 && d.is EVR_FLAGS.LOOP_CUT && d.evr.input = [⟨0x28, 0, []⟩]) = true := by decide

def wdelayExpire : State := at' fun d => { d with time := 80, evr := { d.evr with timers := [(3, (80, 4))] } }

/-- EventRoutingAndTasks. -/
theorem witness_delayExpire : wdelayExpire.Ready ∧ (wdelayExpire.dev.evr.timers = [(3, (80, 4))])
    ∧ gives wdelayExpire (.delayExpire 3) (fun d => d.evr.timers = [] && d.evr.input = [⟨0x33, 4, []⟩]) = true := by decide

def wtaskFio : State := evr13 0

/-- EventRoutingAndTasks. -/
theorem witness_taskFio : wtaskFio.Ready ∧ ((wtaskFio.dev.taskPending 0x46).1 ≠ 0)
    ∧ gives wtaskFio (.taskAct 0x46) (fun d => d.taskPending 0x46 = (2, 2) && (d.pin 6).pulse.isSome && d.evr.hop = 0) = true := by decide

def wtaskDelay : State := at' fun d => { d.put (EVR_DLY.DELAY 3) 70 with time := 10, evr := { d.evr with pending := [(0x7B, (1, 2))] } }

/-- EventRoutingAndTasks. -/
theorem witness_taskDelay : wtaskDelay.Ready ∧ ((wtaskDelay.dev.taskPending 0x7B).1 ≠ 0 ∧ (wtaskDelay.dev.evr.timers.filter (·.1 = 3)).length < 4)
    ∧ gives wtaskDelay (.taskAct 0x7B) (fun d => d.evr.timers = [(3, (80, 3))] && d.taskPending 0x7B = (0, 0)) = true := by decide

def wtaskDelayFull : State := at' fun d => { d with evr := { d.evr with pending := [(0x7B, (1, 2))], timers := [(3, (80, 4)), (3, (81, 4)), (3, (82, 4)), (3, (83, 4))] } }

/-- EventRoutingAndTasks. -/
theorem witness_taskDelayFull : wtaskDelayFull.Ready ∧ (4 ≤ (wtaskDelayFull.dev.evr.timers.filter (·.1 = 3)).length)
    ∧ gives wtaskDelayFull (.taskAct 0x7B) (fun d => d.evr.timers.length = 4 && d.is EVR_FLAGS.LOST && d.get EVR_LAST.TASK = 0x7B) = true := by decide

def wtaskStrike : State := at' fun d => { d with evr := { d.evr with pending := [(0xC5, (1, 2))] } }

/-- EventRoutingAndTasks. -/
theorem witness_taskStrike : wtaskStrike.Ready ∧ ((wtaskStrike.dev.taskPending 0xC5).1 ≠ 0)
    ∧ gives wtaskStrike (.taskAct 0xC5) (fun d => d.strikeState 5 = 1 && (d.strike 5).hop = 3) = true := by decide

def wtaskSignal : State := at' fun d => { d with evr := { d.evr with pending := [(0x169, (1, 2))] } }

/-- EventRoutingAndTasks. -/
theorem witness_taskSignal : wtaskSignal.Ready ∧ ((wtaskSignal.dev.taskPending (0x140 + 41)).1 ≠ 0)
    ∧ gives wtaskSignal (.taskAct 0x169) (fun d => d.taskPending 0x169 = (0, 0)) = true := by decide

def wtaskTwice : State := at' fun d => { d with evr := { d.evr with pending := [(0x169, (2, 2))], acted := [0x169] } }

/-- EventRoutingAndTasks. -/
theorem witness_taskTwice : wtaskTwice.Ready ∧ (wtaskTwice.dev.actedNow 0x169 = true)
    ∧ gives wtaskTwice (.taskAct 0x169) (fun d => d.taskPending 0x169 = (2, 2)) = true := by decide

def wtaskUrgentWaits : State := at' fun d => { d.setPort 3 (fun x => { x with link := { x.link with urgents := [5] } }) with evr := { d.evr with pending := [(0x53, (1, 2))] } }

/-- EventRoutingAndTasks. -/
theorem witness_taskUrgentWaits : wtaskUrgentWaits.Ready ∧ ((wtaskUrgentWaits.dev.port 3).link.urgents ≠ [])
    ∧ gives wtaskUrgentWaits (.taskAct 0x53) (fun d => d.taskPending 0x53 = (1, 2)) = true := by decide

def wtaskNone : State := at' fun d => { d with evr := { d.evr with pending := [(0x071, (1, 2))] } }

/-- EventRoutingAndTasks. -/
theorem witness_taskNone : wtaskNone.Ready ∧ (True)
    ∧ gives wtaskNone (.taskAct 0x071) (fun d => d.evr.input = []) = true := by decide


/-! ### Chapter 14 -/

/-- A link-local client of Ethernet port 0, with session 3 after its request 4 has been answered. -/
def peer14 : Peer := ⟨0, 0xFE80 * 2 ^ 112 + 7, 5000⟩
/-- The link-local address of port 0 where its MAC address is 00:06:00:00:00:05. -/
def own14 : Nat := 0xFE80 * 2 ^ 112 + 0x020600FFFE000005
def sess14 : Session := { Session.fresh 99 1 (some peer14) 0 with lastSeq := 4, own := own14 }
def from14 (l : List Byte) : UmsalFrom := .net 0 (BitVec.ofNat 128 peer14.addr) 5000#16 l
def req14 (typ : Nat) (body : List Byte) : UmsalFrom := from14 (message 1 typ 3 5 99 body)
def msg14 (typ : Nat) (body : List Byte) : Msg := ⟨1, 1, typ, false, 3, 5, 99, body⟩
def mgt14 (f : MgtState → MgtState) : State := at' fun d =>
  let d := (d.set1 (NET_PORT_CTL.EN 0)).setMgt fun m => f { m with firmware := .running, sessions := [(3, sess14)] }
  { d with regs := d.regs ++ [(NET_MAC_LO.addr 0, 5), (NET_MAC_HI.addr 0, 6)] }
/-- The keyholder is session 3. -/
def held14 (f : MgtState → MgtState) : State := mgt14 fun m => f { m with key := { m.key with holder := some 3 } }
def open14 (f : Escrow → Escrow) : State := held14 fun m => { m with escrow := f { Escrow.reset with state := 1, id := 7 } }
/-- A change of a state's device. -/
def State.onDev (s : State) (f : Dev → Dev) : State := { s with dev := f s.dev }
/-- The STATUS of the last response of session 3. -/
def status14 (d : Dev) : Option Nat := (d.session 3).map fun y => field y.lastResp 16 2

def wumsalOpen : State := mgt14 id

/-- UmsalSessions. -/
theorem witness_umsalOpen : wumsalOpen.Ready ∧ (wumsalOpen.dev.Hears (from14 (message 1 1 0xFF 9 0 [])) ∧ Msg.parse (message 1 1 0xFF 9 0 []) = some ⟨1, 1, 1, false, 0xFF, 9, 0, []⟩
    ∧ (wumsalOpen.dev.mgt.sessions.all fun e => e.2.peer != some peer14 || !e.2.unused || e.2.openedAt + ms 1000 ≤ wumsalOpen.dev.time) = false)
    ∧ gives wumsalOpen (.umsalOpen (from14 (message 1 1 0xFF 9 0 []))) (fun d => d.out.length = 1) = true := by decide

def wumsalOpenNew : State := mgt14 fun m => { m with sessions := [(0, { sess14 with peer := none })] }

/-- UmsalSessions. -/
theorem witness_umsalOpenNew : wumsalOpenNew.Ready ∧ (wumsalOpenNew.dev.session 1 = none ∧ wumsalOpenNew.dev.session 0 ≠ none ∧ ∀ e ∈ wumsalOpenNew.dev.mgt.sessions, e.2.peer ≠ some peer14)
    ∧ gives wumsalOpenNew (.umsalOpen (from14 (message 1 1 0xFF 9 0 []))) (fun d => (d.session 1).isSome && d.out.length = 1 && d.ntq.input = [⟨.info, idMGT, 0x010, 1#32, 0⟩]) = true := by decide

def wumsalOpenFull : State := mgt14 fun m => { m with sessions := (List.range 8).map fun n => (n, { sess14 with peer := none }) }

/-- UmsalSessions. -/
theorem witness_umsalOpenFull : wumsalOpenFull.Ready ∧ (∀ n, n < 8 → wumsalOpenFull.dev.session n ≠ none)
    ∧ gives wumsalOpenFull (.umsalOpen (from14 (message 1 1 0xFF 9 0 []))) (fun d => d.mgt.sessions.length = 8 && d.out.length = 1) = true := by decide

def wumsalOpenVersion : State := mgt14 id

/-- UmsalSessions. -/
theorem witness_umsalOpenVersion : wumsalOpenVersion.Ready ∧ (wumsalOpenVersion.dev.Hears (from14 []) ∧ Msg.parse (le 2 0x4D55 ++ [2, 0, 1, 0, 16, 0, 0xFF, 0, 9, 0, 0, 0, 0, 0]) = some ⟨2, 0, 1, false, 0xFF, 9, 0, []⟩)
    ∧ gives wumsalOpenVersion (.umsalOpen (from14 (le 2 0x4D55 ++ [2, 0, 1, 0, 16, 0, 0xFF, 0, 9, 0, 0, 0, 0, 0]))) (fun d => d.mgt.sessions.length = 1 && d.out.length = 1) = true := by decide

def wumsalOpenSlot : State := mgt14 fun m => { m with slots := [(1, ⟨[], [], some (Dev.wordsOf (message 1 1 0xFF 9 0 [])), (0, 0)⟩)] }

/-- UmsalSessions. -/
theorem witness_umsalOpenSlot : wumsalOpenSlot.Ready ∧ (wumsalOpenSlot.dev.Hears (.slot 1) ∧ Msg.parse (wumsalOpenSlot.dev.messageOf (.slot 1)) = some ⟨1, 1, 1, false, 0xFF, 9, 0, []⟩ ∧ wumsalOpenSlot.dev.holder ≠ some 9)
    ∧ gives wumsalOpenSlot (.umsalOpen (.slot 1)) (fun d => (d.session 9).isSome && (d.slot 1).rx.length = 7 && (d.slot 1).request = none) = true := by decide

def wumsalClose : State := mgt14 id

/-- UmsalSessions. -/
theorem witness_umsalClose : wumsalClose.Ready ∧ (wumsalClose.dev.Takes (req14 2 []) (msg14 2 []) sess14 ∧ wumsalClose.dev.holder ≠ some 3)
    ∧ gives wumsalClose (.umsalClose (req14 2 [])) (fun d => d.session 3 = none && d.out.length = 1 && d.ntq.input = [⟨.info, idMGT, 0x011, 0x103#32, 0⟩]) = true := by decide

/-- UmsalSessions. -/
theorem witness_umsalHeartbeat : wumsalClose.Ready ∧ (wumsalClose.dev.Takes (req14 3 []) (msg14 3 []) sess14)
    ∧ gives wumsalClose (.umsalHeartbeat (req14 3 [])) (fun d => status14 d = some 0 && d.get64 MGT_UMSAL_MSG_CNT.addr = 1 && d.out.length = 1) = true := by decide

/-- UmsalSessions. -/
theorem witness_umsalNonce : wumsalClose.Ready ∧ (wumsalClose.dev.Hears (from14 (message 1 3 3 5 98 [])) ∧ Msg.parse (message 1 3 3 5 98 []) = some ⟨1, 1, 3, false, 3, 5, 98, []⟩ ∧ sess14.nonce ≠ 98)
    ∧ gives wumsalClose (.umsalHeartbeat (from14 (message 1 3 3 5 98 []))) (fun d => d.get64 MGT_UMSAL_DISCARD_CNT.addr = 1 && d.out = []) = true := by decide

/-- EscrowCourse. -/
theorem witness_umsalRepeat : wumsalClose.Ready ∧ (Msg.parse (message 1 0x30 3 4 99 []) = some ⟨1, 1, 0x30, false, 3, 4, 99, []⟩ ∧ Dev.fromSession (from14 []) 3 sess14 = true)
    ∧ gives wumsalClose (.escBegin (from14 (message 1 0x30 3 4 99 []))) (fun d => d.out.length = 1 && d.mgt.escrow.state = 0 && d.get64 MGT_UMSAL_MSG_CNT.addr = 0) = true := by decide

/-- UmsalSessions. -/
theorem witness_umsalSubscribe : wumsalClose.Ready ∧ (wumsalClose.dev.Takes (req14 0x40 [2, 0, 0, 0]) (msg14 0x40 [2, 0, 0, 0]) sess14 ∧ sess14.peer ≠ none ∧ sess14.minor ≠ 0)
    ∧ gives wumsalClose (.umsalSubscribe (req14 0x40 [2, 0, 0, 0])) (fun d => ((d.session 3).map (·.queue)) = some (some 2)) = true := by decide

/-- UmsalSessions. -/
theorem witness_umsalSubscribeNone : wumsalClose.Ready ∧ (wumsalClose.dev.Takes (req14 0x40 [0xFF, 0, 0, 0]) (msg14 0x40 [0xFF, 0, 0, 0]) sess14)
    ∧ gives wumsalClose (.umsalSubscribe (req14 0x40 [0xFF, 0, 0, 0])) (fun d => status14 d = some 0) = true := by decide

/-- UmsalSessions. -/
theorem witness_umsalSubscribeRange : wumsalClose.Ready ∧ (wumsalClose.dev.Takes (req14 0x40 [1, 0, 0, 0]) (msg14 0x40 [1, 0, 0, 0]) sess14)
    ∧ gives wumsalClose (.umsalSubscribe (req14 0x40 [1, 0, 0, 0])) (fun d => status14 d = some 8) = true := by decide

def wumsalSubscribeMailbox : State := mgt14 fun m => { m with
    sessions := [(9, { Session.fresh 99 1 none 0 with lastSeq := 4 })], slots := [(1, ⟨[], [], some (Dev.wordsOf (message 1 0x40 9 5 99 [2, 0, 0, 0])), (0, 0)⟩)] }

/-- UmsalSessions. -/
theorem witness_umsalSubscribeMailbox : wumsalSubscribeMailbox.Ready ∧ (wumsalSubscribeMailbox.dev.Takes (.slot 1) ⟨1, 1, 0x40, false, 9, 5, 99, [2, 0, 0, 0]⟩ { Session.fresh 99 1 none 0 with lastSeq := 4 })
    ∧ gives wumsalSubscribeMailbox (.umsalSubscribe (.slot 1)) (fun d => (d.session 9).map (fun y => field y.lastResp 16 2) = some 16 && (d.slot 1).rx.length = 5) = true := by decide

def wumsalHandoverNot : State := mgt14 id

/-- HandoverRefused, KeyAndElections. -/
theorem witness_umsalHandoverNot : wumsalHandoverNot.Ready ∧ (wumsalHandoverNot.dev.Takes (req14 0x21 [4, 0, 0, 0]) (msg14 0x21 [4, 0, 0, 0]) sess14 ∧ wumsalHandoverNot.dev.holder ≠ some 3)
    ∧ gives wumsalHandoverNot (.umsalHandover (req14 0x21 [4, 0, 0, 0])) (fun d => status14 d = some 4) = true := by decide

/-- HandoverRefused, KeyAndElections. -/
theorem witness_umsalResignNot : wumsalHandoverNot.Ready ∧ (wumsalHandoverNot.dev.Takes (req14 0x22 []) (msg14 0x22 []) sess14)
    ∧ gives wumsalHandoverNot (.umsalResign (req14 0x22 [])) (fun d => status14 d = some 4) = true := by decide

def wumsalHandoverRange : State := held14 id

/-- HandoverRefused, KeyAndElections. -/
theorem witness_umsalHandoverRange : wumsalHandoverRange.Ready ∧ (wumsalHandoverRange.dev.holder = some 3 ∧ wumsalHandoverRange.dev.mgt.escrow.state = 0 ∧ wumsalHandoverRange.dev.session 4 = none)
    ∧ gives wumsalHandoverRange (.umsalHandover (req14 0x21 [4, 0, 0, 0])) (fun d => status14 d = some 8 && d.holder = some 3) = true := by decide

def wumsalHandoverOpen : State := open14 id

/-- HandoverRefused, KeyAndElections. -/
theorem witness_umsalHandoverOpen : wumsalHandoverOpen.Ready ∧ (wumsalHandoverOpen.dev.mgt.escrow.state = 1)
    ∧ gives wumsalHandoverOpen (.umsalHandover (req14 0x21 [4, 0, 0, 0])) (fun d => status14 d = some 10) = true := by decide

def whandoverBusy : State := State.onDev (open14 fun e => { e with state := 2, commit := some ⟨some 3, 99, 4, none, [], true, true, some 0⟩ }) (·.set1 CAD_APPLY.PENDING)
theorem witness_handoverWaits : whandoverBusy.settled = whandoverBusy := rfl
theorem witness_umsalHandoverBusy : whandoverBusy.dev.low = false ∧ whandoverBusy.dev.vlt.writes = [] ∧ whandoverBusy.dev.is CAD_APPLY.PENDING = true
    ∧ whandoverBusy.settled.dev.mgt.escrow.state = 2 ∧ whandoverBusy.settled.dev.holder = some 3
    ∧ whandoverBusy.settled.dev.Takes (req14 0x21 [3, 0, 0, 0]) (msg14 0x21 [3, 0, 0, 0]) sess14
    ∧ gives whandoverBusy (.umsalHandover (req14 0x21 [3, 0, 0, 0])) (fun d => status14 d = some 15) = true := by decide

def wumsalClaim : State := mgt14 id

/-- KeyAndElections. -/
theorem witness_umsalClaim : wumsalClaim.Ready ∧ (wumsalClaim.dev.Takes (req14 0x20 [5, 0, 0, 0]) (msg14 0x20 [5, 0, 0, 0]) sess14 ∧ wumsalClaim.dev.holder = none)
    ∧ gives wumsalClaim (.umsalClaim (req14 0x20 [5, 0, 0, 0])) (fun d => d.mgt.key.claims = [⟨3, 5, some 5⟩] && d.mgt.key.gatherAt = some 0 && d.out = []) = true := by decide

def wumsalClaimWithdraw : State := mgt14 fun m => { m with key := { m.key with claims := [⟨3, 5, none⟩], gatherAt := some 0 } }

/-- KeyAndElections. -/
theorem witness_umsalClaimWithdraw : wumsalClaimWithdraw.Ready ∧ (wumsalClaimWithdraw.dev.Takes (req14 0x20 [0x80, 0, 0, 0]) (msg14 0x20 [0x80, 0, 0, 0]) sess14)
    ∧ gives wumsalClaimWithdraw (.umsalClaim (req14 0x20 [0x80, 0, 0, 0])) (fun d => d.mgt.key.claims = [] && d.mgt.key.gatherAt = none && status14 d = some 0) = true := by decide

def wumsalClaimOwn : State := held14 id

/-- KeyAndElections. -/
theorem witness_umsalClaimOwn : wumsalClaimOwn.Ready ∧ (wumsalClaimOwn.dev.holder = some 3)
    ∧ gives wumsalClaimOwn (.umsalClaim (req14 0x20 [5, 0, 0, 0])) (fun d => d.mgt.key.claims = [] && status14 d = some 0) = true := by decide

def wumsalClaimHeld : State := mgt14 fun m => { m with key := { m.key with holder := some 8 } }

/-- KeyAndElections. -/
theorem witness_umsalClaimHeld : wumsalClaimHeld.Ready ∧ (wumsalClaimHeld.dev.holder = some 8)
    ∧ gives wumsalClaimHeld (.umsalClaim (req14 0x20 [5, 0, 0, 0])) (fun d => d.mgt.key.claims = [⟨3, 5, none⟩] && status14 d = some 13 && d.holder = some 8) = true := by decide

def wumsalHandover : State := held14 fun m => { m with sessions := m.sessions ++ [(8, Session.fresh 1 1 none 0)], key := { m.key with claims := [⟨8, 2, none⟩] } }

/-- HandoverRefused, KeyAndElections. -/
theorem witness_umsalHandover : wumsalHandover.Ready ∧ ((wumsalHandover.dev.session 8).isSome = true ∧ wumsalHandover.dev.Takes (req14 0x21 [8, 0, 0, 0]) (msg14 0x21 [8, 0, 0, 0]) sess14)
    ∧ gives wumsalHandover (.umsalHandover (req14 0x21 [8, 0, 0, 0])) (fun d => d.holder = some 8 && d.is DCT_GATE.OPEN && d.mgt.key.claims = [] && status14 d = some 0) = true := by decide

def wumsalResign : State := held14 id

/-- HandoverRefused, KeyAndElections. -/
theorem witness_umsalResign : wumsalResign.Ready ∧ (wumsalResign.dev.holder = some 3 ∧ wumsalResign.dev.mgt.key.claims = [])
    ∧ gives wumsalResign (.umsalResign (req14 0x22 [])) (fun d => d.holder = none && d.is DCT_GATE.NOKEY && status14 d = some 0) = true := by decide

def wkeySilence : State := { open14 id with dev := { (open14 id).dev with time := ms 2000 } }

/-- KeyAndElections. -/
theorem witness_keySilence : wkeySilence.Ready ∧ (wkeySilence.dev.holder = some 3 ∧ wkeySilence.dev.mgt.key.heardAt + ms 2000 ≤ wkeySilence.dev.time ∧ wkeySilence.dev.mgt.key.claims = [])
    ∧ gives wkeySilence (.keySilence) (fun d => d.holder = none && d.mgt.escrow.state = 0 && d.ntq.input.length = 2) = true := by decide

def wclaimWindowEnd : State := { at' id with dev := { (mgt14 fun m => { m with key := { m.key with claims := [⟨4, 2, none⟩, ⟨3, 2, some 5⟩], gatherAt := some 0 } }).dev with time := ms 100 } }

/-- KeyAndElections. -/
theorem witness_claimWindowEnd : wclaimWindowEnd.Ready ∧ (wclaimWindowEnd.dev.mgt.key.gatherAt = some 0 ∧ 0 + ms 100 ≤ wclaimWindowEnd.dev.time ∧ ∀ c ∈ wclaimWindowEnd.dev.mgt.key.claims, c.prio < 2 ∨ c.prio = 2 ∧ (3 < c.session ∨ c = ⟨3, 2, some 5⟩))
    ∧ gives wclaimWindowEnd (.claimWindowEnd) (fun d => d.holder = some 3 && d.mgt.key.claims = [⟨4, 2, none⟩] && status14 d = some 0) = true := by decide

def wsessionTimeout : State := { at' id with dev := { (held14 id).dev with time := ms 1000 * 300 } }

/-- KeyAndElections. -/
theorem witness_sessionTimeout : wsessionTimeout.Ready ∧ (sess14.lastAt + ms 1000 * wsessionTimeout.dev.appliedNum 0x9010 1 ≤ wsessionTimeout.dev.time ∧ wsessionTimeout.dev.holder = some 3)
    ∧ gives wsessionTimeout (.sessionTimeout 3) (fun d => d.session 3 = none && d.holder = none) = true := by decide

def wumsalDescribe : State := mgt14 id

/-- DictionaryRequests. -/
theorem witness_umsalDescribe : wumsalDescribe.Ready ∧ (wumsalDescribe.dev.Takes (req14 8 [0x10, 0xA0, 1, 0]) (msg14 8 [0x10, 0xA0, 1, 0]) sess14 ∧ (objAt 0xA010 1).isSome = true)
    ∧ gives wumsalDescribe (.umsalDescribe (req14 8 [0x10, 0xA0, 1, 0])) (fun d => d.out.length = 1) = true := by decide

/-- DictionaryRequests. -/
theorem witness_umsalDescribeAbsent : wumsalDescribe.Ready ∧ (wumsalDescribe.dev.Takes (req14 8 [0x0F, 0xA0, 1, 0]) (msg14 8 [0x0F, 0xA0, 1, 0]) sess14 ∧ (objAt 0xA00F 1).isNone = true)
    ∧ gives wumsalDescribe (.umsalDescribe (req14 8 [0x0F, 0xA0, 1, 0])) (fun d => status14 d = some 5) = true := by decide

/-- DictionaryRequests. -/
theorem witness_umsalRead : wumsalDescribe.Ready ∧ (wumsalDescribe.dev.Takes (req14 0x10 [0x10, 0xA0, 1, 0, 0, 0, 0, 0, 8, 0, 0, 0]) (msg14 0x10 [0x10, 0xA0, 1, 0, 0, 0, 0, 0, 8, 0, 0, 0]) sess14
    ∧ (objAt 0xA010 1).map (·.acc) = some 2)
    ∧ gives wumsalDescribe (.umsalRead (req14 0x10 [0x10, 0xA0, 1, 0, 0, 0, 0, 0, 8, 0, 0, 0])) (fun d => status14 d = some 0 && (d.session 3).map (fun y => field y.lastResp 28 2) = some 8) = true := by decide

/-- DictionaryRequests. -/
theorem witness_umsalReadWriteOnly : wumsalDescribe.Ready ∧ ((objAt 0x1010 1).map (·.acc) = some 3)
    ∧ gives wumsalDescribe (.umsalRead (req14 0x10 [0x10, 0x10, 1, 0, 0, 0, 0, 0, 8, 0, 0, 0])) (fun d => status14 d = some 6) = true := by decide

/-- DictionaryRequests. -/
theorem witness_umsalReadOffset : wumsalDescribe.Ready ∧ (True)
    ∧ gives wumsalDescribe (.umsalRead (req14 0x10 [0x10, 0xA0, 1, 0, 1, 0, 0, 0, 8, 0, 0, 0])) (fun d => status14 d = some 8) = true := by decide

/-- DictionaryRequests. -/
theorem witness_umsalReadPass : wumsalDescribe.Ready ∧ (True)
    ∧ gives wumsalDescribe (.umsalRead (req14 0x10 [0, 0xE0, 1, 0, 0, 0, 0, 0, 8, 0, 0, 0])) (fun d => status14 d = some 4) = true := by decide

/-- DictionaryRequests, EscrowCourse. -/
theorem witness_umsalWriteNoKey : wumsalDescribe.Ready ∧ (True)
    ∧ gives wumsalDescribe (.umsalWrite (req14 0x11 [0x10, 0xA0, 1, 5, 0, 0, 0, 0, 8, 0, 0, 0, 0, 0, 0x40, 0, 0, 0, 0, 0])) (fun d => status14 d = some 4) = true := by decide

def wumsalWrite : State := held14 id

/-- DictionaryRequests, EscrowCourse. -/
theorem witness_umsalWrite : wumsalWrite.Ready ∧ (wumsalWrite.dev.Takes (req14 0x11 [0x10, 0xA0, 1, 5, 0, 0, 0, 0, 8, 0, 0, 0, 0, 0, 0x40, 0, 0, 0, 0, 0])
    (msg14 0x11 [0x10, 0xA0, 1, 5, 0, 0, 0, 0, 8, 0, 0, 0, 0, 0, 0x40, 0, 0, 0, 0, 0]) sess14 ∧ wumsalWrite.dev.holder = some 3
    ∧ ((objAt 0xA010 1).all fun o => o.within (o.toInt [0, 0, 0x40, 0, 0, 0, 0, 0])) = true)
    ∧ gives wumsalWrite (.umsalWrite (req14 0x11 [0x10, 0xA0, 1, 5, 0, 0, 0, 0, 8, 0, 0, 0, 0, 0, 0x40, 0, 0, 0, 0, 0])) (fun d => status14 d = some 0 && d.applied 0xA010 1 = [0, 0, 0x40, 0, 0, 0, 0, 0]) = true := by decide

/-- DictionaryRequests, EscrowCourse. -/
theorem witness_umsalWriteAbsent : wumsalWrite.Ready ∧ (True)
    ∧ gives wumsalWrite (.umsalWrite (req14 0x11 [0x0F, 0xA0, 1, 5, 0, 0, 0, 0, 8, 0, 0, 0, 0, 0, 0x40, 0, 0, 0, 0, 0])) (fun d => status14 d = some 5) = true := by decide

/-- DictionaryRequests, EscrowCourse. -/
theorem witness_umsalWriteConst : wumsalWrite.Ready ∧ ((objAt 0x2000 1).map (·.acc) = some 4)
    ∧ gives wumsalWrite (.umsalWrite (req14 0x11 [0, 0x20, 1, 2, 0, 0, 0, 0, 1, 0, 0, 0, 1, 0, 0, 0])) (fun d => status14 d = some 6) = true := by decide

/-- DictionaryRequests, EscrowCourse. -/
theorem witness_umsalWriteType : wumsalWrite.Ready ∧ (True)
    ∧ gives wumsalWrite (.umsalWrite (req14 0x11 [0x10, 0xA0, 1, 4, 0, 0, 0, 0, 8, 0, 0, 0, 0, 0, 0x40, 0, 0, 0, 0, 0])) (fun d => status14 d = some 7) = true := by decide

/-- DictionaryRequests, EscrowCourse. -/
theorem witness_umsalWriteRange : wumsalWrite.Ready ∧ (True)
    ∧ gives wumsalWrite (.umsalWrite (req14 0x11 [0x10, 0x10, 1, 4, 0, 0, 0, 0, 4, 0, 0, 0, 0, 0, 0, 0])) (fun d => status14 d = some 8) = true := by decide

def wparameterSave : State := held14 fun m => { m with dict := [(objKey 0xA010 1, [0, 0, 0x40, 0, 0, 0, 0, 0])] }

/-- DictionaryRequests. -/
theorem witness_parameterSave : wparameterSave.Ready ∧ (fromLe [0x73, 0x61, 0x76, 0x65] = 0x65766173 ∧ newest savedBytes wparameterSave.dev.mgt.mram.saved = none)
    ∧ gives wparameterSave (.parameterSave (req14 0x11 [0x10, 0x10, 1, 4, 0, 0, 0, 0, 4, 0, 0, 0, 0x73, 0x61, 0x76, 0x65])) (fun d => status14 d = some 0 && (d.mgt.mram.saved.one.map (·.value.length)) = some 17) = true := by decide

def wescBeginNoKey : State := mgt14 id

/-- EscrowCourse. -/
theorem witness_escBeginNoKey : wescBeginNoKey.Ready ∧ (wescBeginNoKey.dev.Takes (req14 0x30 []) (msg14 0x30 []) sess14)
    ∧ gives wescBeginNoKey (.escBegin (req14 0x30 [])) (fun d => status14 d = some 4) = true := by decide

def wescBegin : State := held14 id

/-- EscrowCourse. -/
theorem witness_escBegin : wescBegin.Ready ∧ (wescBegin.dev.mgt.escrow.commit = none ∧ sess14.timedOut = none)
    ∧ gives wescBegin (.escBegin (req14 0x30 [])) (fun d => status14 d = some 0 && d.mgt.escrow.state = 1 && d.mgt.escrow.id = 1) = true := by decide

/-- EscrowCourse. -/
theorem witness_escRollbackNone : wescBegin.Ready ∧ (wescBegin.dev.Takes (req14 0x32 []) (msg14 0x32 []) sess14)
    ∧ gives wescBegin (.escRollback (req14 0x32 [])) (fun d => status14 d = some 9) = true := by decide

/-- EscrowCourse. -/
theorem witness_escCommitNone : wescBegin.Ready ∧ (wescBegin.dev.Takes (req14 0x31 []) (msg14 0x31 []) sess14)
    ∧ gives wescBegin (.escCommit (req14 0x31 [])) (fun d => status14 d = some 9) = true := by decide

def wescBeginOpen : State := open14 id

/-- EscrowCourse. -/
theorem witness_escBeginOpen : wescBeginOpen.Ready ∧ (True)
    ∧ gives wescBeginOpen (.escBegin (req14 0x30 [])) (fun d => status14 d = some 10) = true := by decide

/-- EscrowCourse. -/
theorem witness_escStatus : wescBeginOpen.Ready ∧ (wescBeginOpen.dev.Takes (req14 0x33 []) (msg14 0x33 []) sess14)
    ∧ gives wescBeginOpen (.escStatus (req14 0x33 [])) (fun d => d.out.length = 1 && d.mgt.escrow.state = 1) = true := by decide

/-- EscrowCourse. -/
theorem witness_escRollback : wescBeginOpen.Ready ∧ (True)
    ∧ gives wescBeginOpen (.escRollback (req14 0x32 [])) (fun d => status14 d = some 0 && d.mgt.escrow.state = 0 && d.ntq.input = [⟨.info, idMGT, 0x015, 0x70001#32, 0⟩]) = true := by decide

def wescTimedOut : State := held14 fun m => { m with sessions := [(3, { sess14 with timedOut := some 7 })] }

/-- EscrowCourse. -/
theorem witness_escTimedOut : wescTimedOut.Ready ∧ (wescTimedOut.dev.Takes (req14 0x30 []) (msg14 0x30 []) { sess14 with timedOut := some 7 })
    ∧ gives wescTimedOut (.escBegin (req14 0x30 [])) (fun d => status14 d = some 14 && d.mgt.escrow.state = 0) = true := by decide

def wescWrite : State := open14 id

/-- DictionaryRequests, EscrowCourse. -/
theorem witness_escWrite : wescWrite.Ready ∧ (wescWrite.dev.mgt.escrow.count < 1024 ∧ (wescWrite.dev.checkWrite (msg14 0x11 [0, 0x20, 1, 2, 0, 0, 0, 0, 1, 0, 0, 0, 1, 0, 0, 0])).toOption = some [1])
    ∧ gives wescWrite (.umsalWrite (req14 0x11 [0, 0x20, 1, 2, 0, 0, 0, 0, 1, 0, 0, 0, 1, 0, 0, 0])) (fun d => status14 d = some 0 && d.mgt.escrow.writes = [⟨0x2000, 1, 0, [1]⟩] && d.mgt.escrow.count = 1) = true := by decide

def wescWriteFull : State := open14 fun e => { e with count := 1024 }

/-- DictionaryRequests, EscrowCourse. -/
theorem witness_escWriteFull : wescWriteFull.Ready ∧ (1024 ≤ wescWriteFull.dev.mgt.escrow.count)
    ∧ gives wescWriteFull (.umsalWrite (req14 0x11 [0, 0x20, 1, 2, 0, 0, 0, 0, 1, 0, 0, 0, 1, 0, 0, 0])) (fun d => status14 d = some 11 && d.mgt.escrow.state = 1) = true := by decide

def wescCommitRejected : State := open14 fun e => { e with writes := [⟨0x2000, 1, 0, [6]⟩], count := 1, bytes := 1 }

/-- EscrowCourse. -/
theorem witness_escCommitRejected : wescCommitRejected.Ready ∧ (Failure.first (wescCommitRejected.dev.failures wescCommitRejected.dev.mgt.escrow.writes) = some ⟨0x2000, 1, 5, 6⟩)
    ∧ gives wescCommitRejected (.escCommit (req14 0x31 [])) (fun d => d.mgt.escrow.state = 0 && d.get64 MGT_ESC_REJECT_CNT.addr = 1) = true := by decide

def wescCommitWaits : State := State.onDev (open14 fun e => { e with writes := [⟨0x2000, 1, 0, [1]⟩], count := 1, bytes := 1 }) (·.set1 CAD_APPLY.PENDING)

/-- EscrowCourse. -/
theorem witness_escCommitWaits : wescCommitWaits.Ready ∧ (Failure.first (wescCommitWaits.dev.failures wescCommitWaits.dev.mgt.escrow.writes) = none ∧ wescCommitWaits.dev.is CAD_APPLY.PENDING = true)
    ∧ gives wescCommitWaits (.escCommit (req14 0x31 [])) (fun d => d.mgt.escrow.state = 2 && (d.session 3).map (·.busy) = some (some 5)) = true := by decide

def wescCommitApplies : State := open14 id

/-- EscrowCourse. -/
theorem witness_escCommitApplies : wescCommitApplies.Ready ∧ (Failure.first (wescCommitApplies.dev.failures wescCommitApplies.dev.mgt.escrow.writes) = none ∧ wescCommitApplies.dev.is CAD_APPLY.PENDING = false
    ∧ wescCommitApplies.dev.rebuilt wescCommitApplies.dev.mgt.escrow.writes = [] ∧ wescCommitApplies.dev.basicBindings wescCommitApplies.dev.mgt.escrow.writes [] = [])
    ∧ gives wescCommitApplies (.escCommit (req14 0x31 [])) (fun d => d.mgt.escrow.state = 2 && d.is CAD_APPLY.PENDING && (d.cad.apply.map (·.goAt)) = some 0) = true := by decide

def wescCommitWrites : State := open14 fun e => { e with writes := [⟨0x2001, 2, 0, le 4 4000⟩] }

/-- EscrowCourse. -/
theorem witness_escCommitWrites : wescCommitWrites.Ready ∧ (Failure.first (wescCommitWrites.dev.failures wescCommitWrites.dev.mgt.escrow.writes) = none ∧ wescCommitWrites.dev.rebuilt wescCommitWrites.dev.mgt.escrow.writes = []
    ∧ wescCommitWrites.dev.basicBindings wescCommitWrites.dev.mgt.escrow.writes [] = [])
    ∧ gives wescCommitWrites (.escCommit (req14 0x31 [])) (fun d => d.get CAD_PERIOD.PERIOD = 4000 && d.is CAD_APPLY.PENDING && d.mgt.dict = []) = true := by decide

def wescCommitPass : State := open14 fun e => { e with writes := [⟨0xE000, 2, 0xB0_0100, le 4 0x01020304⟩] }

/-- EscrowCourse. -/
theorem witness_escCommitPass : wescCommitPass.Ready ∧ (aliasOf 0xB0_0100 = some (.plain, 0xB0_0100) ∧ 0xB0_0100 ∈ plainRegs ∧ Failure.first (wescCommitPass.dev.failures wescCommitPass.dev.mgt.escrow.writes) = none)
    ∧ gives wescCommitPass (.escCommit (req14 0x31 [])) (fun d => d.reg 0xB0_0100 = 0x01020306 && d.is CAD_APPLY.PENDING) = true := by decide

def wescrowIdleTimeout : State := { open14 id with dev := { (open14 id).dev with time := ms 10000 + 1 } }

/-- EscrowCourse. -/
theorem witness_escrowIdleTimeout : wescrowIdleTimeout.Ready ∧ (wescrowIdleTimeout.dev.mgt.escrow.state = 1 ∧ wescrowIdleTimeout.dev.mgt.escrow.lastAt + ms 10000 < wescrowIdleTimeout.dev.time)
    ∧ gives wescrowIdleTimeout (.escrowIdleTimeout) (fun d => d.mgt.escrow.state = 0 && (d.session 3).map (·.timedOut) = some (some 7)) = true := by decide

def commit14 (waitAt applies : Option Nat) (written : Bool) (writes : List StagedWrite) (g : Dev → Dev) : State :=
  let s := open14 fun e => { e with state := 2, writes := writes, commit := some ⟨some 3, 99, 5, waitAt, [], true, written, applies⟩ }
  { s with dev := g s.dev }
def wwait : State := commit14 (some 0) none false [] fun d => { d.set1 CAD_APPLY.PENDING with time := ms 1000 }
theorem witness_applyPendingTimeout : wwait.dev.is CAD_APPLY.PENDING = true ∧ gives wwait .applyPendingTimeout (fun d =>
    d.mgt.escrow.state = 0 && d.get64 MGT_ESC_REJECT_CNT.addr = 1) = true := by decide
/-- Whether a step answers a next state whose device meets a test. -/
def stepGives (s : State) (p : Dev → Bool) : Bool :=
  match step s with
  | .next t => p t.dev
  | _ => false
def wland (writes : List StagedWrite) : State := commit14 none (some 0) true writes fun d => d.put64 CAD_APPLY_CNT.addr 1
theorem witness_commitLands : (wland [⟨0x2001, 2, 0, le 4 4000⟩]).dev.is CAD_APPLY.PENDING = false ∧ (wland [⟨0x2001, 2, 0, le 4 4000⟩]).dev.get64 CAD_APPLY_CNT.addr ≠ 0
    ∧ Dev.isRWE 0x2001 2 = true
    ∧ stepGives (wland [⟨0x2001, 2, 0, le 4 4000⟩]) (fun d => d.mgt.escrow.state = 0 && d.get64 MGT_ESC_COMMIT_CNT.addr = 1 && d.applied 0x2001 2 = le 4 4000) = true := by decide
theorem witness_commitLandsRw : stepGives (wland [⟨0x4001, 7, 0, le 4 300⟩]) (fun d => d.mgt.escrow.state = 0
    && d.get (ENC_CH_CHK.NOMINAL 1) = 300 && d.applied 0x4001 7 = le 4 300) = true := by decide
theorem witness_commitLandsWo : (wland [⟨0x5110, 1, 0, le 8 4⟩]).dev.strikeState 2 = 0 ∧ (wland [⟨0x5110, 1, 0, le 8 4⟩]).dev.time ≤ (wland []).dev.skTarget 2
    ∧ stepGives (wland [⟨0x5110, 1, 0, le 8 4⟩]) (fun d => d.mgt.escrow.state = 0 && d.strikeState 2 = 1) = true := by decide
def wcancel : State := commit14 none (some 0) true [⟨0x2001, 2, 0, le 4 4000⟩] fun d => d.put CAD_PERIOD.PERIOD 4000
theorem witness_commitCancelled : wcancel.dev.get64 CAD_APPLY_CNT.addr = 0 ∧ wcancel.dev.basicBindings wcancel.dev.mgt.escrow.writes (wcancel.dev.rebuilt wcancel.dev.mgt.escrow.writes) = []
    ∧ stepGives wcancel (fun d => d.mgt.escrow.state = 0 && d.get64 MGT_ESC_REJECT_CNT.addr = 1 && d.get CAD_PERIOD.PERIOD = d.forceGet CAD_PERIOD.PERIOD) = true := by decide

def wmailboxTxWrite : State := mgt14 id

/-- Mailbox. -/
theorem witness_mailboxTxWrite : wmailboxTxWrite.Ready ∧ (wmailboxTxWrite.dev.Admits .mca (MGT_MBX_TX.addr 1) ∧ (wmailboxTxWrite.dev.slot 1).tx.length < 360)
    ∧ gives wmailboxTxWrite (.mailboxTxWrite .mca 1 0x12345678 15) (fun d => d.slot 1 = ⟨[0x12345678], [], none, (0, 0)⟩ && d.get (MGT_MBX_STAT.TX 1) = 1) = true := by decide

def wmailboxTxFull : State := mgt14 fun m => { m with slots := [(1, ⟨List.replicate 360 0, [], none, (0, 0)⟩)] }

/-- Mailbox. -/
theorem witness_mailboxTxFull : wmailboxTxFull.Ready ∧ (360 ≤ (wmailboxTxFull.dev.slot 1).tx.length)
    ∧ gives wmailboxTxFull (.mailboxTxWrite .mca 1 0x12345678 15) (fun d => (d.slot 1).tx.length = 360 && d.is (Dev.slotFlag MGT_MBX_FLAGS.OVERFLOW0 1)) = true := by decide

def wmailboxSend : State := mgt14 fun m => { m with slots := [(1, ⟨[5], [6], none, (0, 0)⟩)] }

/-- Mailbox. -/
theorem witness_mailboxSend : wmailboxSend.Ready ∧ ((wmailboxSend.dev.slot 1).request = none)
    ∧ gives wmailboxSend (.mailboxSend .mca 1) (fun d => d.slot 1 = ⟨[], [6], some [5], (0, 0)⟩ && d.is (MGT_MBX_STAT.BUSY 1)) = true := by decide

/-- Mailbox. -/
theorem witness_mailboxReset : wmailboxSend.Ready ∧ (True)
    ∧ gives wmailboxSend (.mailboxReset .mca 1) (fun d => d.slot 1 = ⟨[], [], none, (0, 0)⟩) = true := by decide

def wmailboxSendBusy : State := mgt14 fun m => { m with slots := [(1, ⟨[5], [], some [6], (0, 0)⟩)] }

/-- Mailbox. -/
theorem witness_mailboxSendBusy : wmailboxSendBusy.Ready ∧ ((wmailboxSendBusy.dev.slot 1).request ≠ none)
    ∧ gives wmailboxSendBusy (.mailboxSend .mca 1) (fun d => d.slot 1 = ⟨[5], [], some [6], (0, 0)⟩ && d.is (Dev.slotFlag MGT_MBX_FLAGS.BAD_STATE0 1)) = true := by decide

def wmailboxRxRead : State := { at' id with dev := hostOn (mgt14 fun m => { m with slots := [(1, ⟨[5], [6, 7], none, (0, 0)⟩)] }).dev }

/-- Mailbox. -/
theorem witness_mailboxRxRead : wmailboxRxRead.Ready ∧ (wmailboxRxRead.dev.Readable)
    ∧ gives wmailboxRxRead (.mailboxRxRead 1) (fun d => d.slot 1 = ⟨[5], [7], none, (0, 0)⟩ && d.out.length = 1) = true := by decide

def wnoticeSend : State := { at' id with dev := { (mgt14 fun m => { m with sessions := [(3, { sess14 with queue := some 2 })] }).dev with
    ntq := ⟨[], [(4 * 2 + 1, [⟨.event, 5, 6, 7, 8⟩])], [], []⟩ } }

/-- Mailbox. -/
theorem witness_noticeSend : wnoticeSend.Ready ∧ (wnoticeSend.dev.session 3 = some { sess14 with queue := some 2 } ∧ wnoticeSend.dev.queueItems 2 ≠ 0 ∧ (wnoticeSend.dev.lastPush 2).cycle ≠ wnoticeSend.dev.mgtCycle)
    ∧ gives wnoticeSend (.noticeSend 3) (fun d => d.queueItems 2 = 0 && (d.session 3).map (·.noticeSeq) = some 1 && d.out.length = 1) = true := by decide

def warpRequest : State := mgt14 fun m => { m with dict := [(objKey 0x9000 3, [1, 0, 0, 10])] }

/-- NetworkPorts. -/
theorem witness_arpRequest : warpRequest.Ready ∧ (warpRequest.dev.netOn 0 = true ∧ warpRequest.dev.netIp4 0 = 0x0A000001)
    ∧ gives warpRequest (.arpRequestReceive 0 5 0x0A000002 0x0A000001) (fun d => d.out.length = 1 && d.get64 (NET_RX_CNT.addr 0) = 1) = true := by decide

/-- NetworkPorts. -/
theorem witness_arpRequestOther : warpRequest.Ready ∧ (warpRequest.dev.netIp4 0 ≠ 0x0A000003)
    ∧ gives warpRequest (.arpRequestReceive 0 5 0x0A000002 0x0A000003) (fun d => d.out = [] && d.get64 (NET_RX_DROP_CNT.addr 0) = 1) = true := by decide

/-- NetworkPorts. -/
theorem witness_neighborSolicitation : warpRequest.Ready ∧ (warpRequest.dev.netLinkLocal 0 = own14)
    ∧ gives warpRequest (.neighborSolicitationReceive 0 9 (BitVec.ofNat 128 own14)) (fun d => d.out.length = 1) = true := by decide

/-- NetworkPorts. -/
theorem witness_neighborOther : warpRequest.Ready ∧ (2 ^ 100 ≠ warpRequest.dev.netLinkLocal 0 ∧ warpRequest.dev.netIp6 0 ≠ some (2 ^ 100))
    ∧ gives warpRequest (.neighborSolicitationReceive 0 9 (BitVec.ofNat 128 (2 ^ 100))) (fun d => d.out = [] && d.get64 (NET_RX_DROP_CNT.addr 0) = 1) = true := by decide

/-- NetworkPorts. -/
theorem witness_echoRequest : warpRequest.Ready ∧ (warpRequest.dev.netOwn 0 0x0A000001 = true ∧ Dev.isLinkLocal (0xFE80 * 2 ^ 112 + 7) = true)
    ∧ gives warpRequest (.echoRequestReceive 0 (BitVec.ofNat 128 (0xFE80 * 2 ^ 112 + 7)) 0x0A000001 [1, 2]) (fun d => d.out = [.ethernet 0 3 [1, 2]]) = true := by decide

/-- NetworkPorts. -/
theorem witness_echoOther : warpRequest.Ready ∧ (warpRequest.dev.netOwn 0 0x0A000009 = false)
    ∧ gives warpRequest (.echoRequestReceive 0 9 0x0A000009 [1, 2]) (fun d => d.out = [] && d.get64 (NET_RX_DROP_CNT.addr 0) = 1) = true := by decide

/-- NetworkPorts. -/
theorem witness_netFrameDrop : warpRequest.Ready ∧ (True)
    ∧ gives warpRequest (.netFrameDrop 0) (fun d => d.out = [] && d.get64 (NET_RX_DROP_CNT.addr 0) = 1) = true := by decide

def wptpAnnounce : State := { at' id with dev := (mgt14 id).dev.put NET_PTP_STAT.STATE 1 }

/-- NetworkPorts. -/
theorem witness_ptpAnnounce : wptpAnnounce.Ready ∧ (wptpAnnounce.dev.ptpOn 0 = true ∧ wptpAnnounce.dev.ptpState = 1 ∧ wptpAnnounce.dev.get64 NET_PTP_GM.addr ≠ 77)
    ∧ gives wptpAnnounce (.ptpMessageReceive 0 ⟨0, 0, (.announce 77)⟩) (fun d => d.ptpState = 2 && d.get64 NET_PTP_GM.addr = 77) = true := by decide

/-- NetworkPorts. -/
theorem witness_ptpSyncDrop : wptpAnnounce.Ready ∧ (True)
    ∧ gives wptpAnnounce (.ptpMessageReceive 0 ⟨0, 0, (.sync 3 4 5)⟩) (fun d => d.ptpState = 1 && d.get64 NET_PTP_DROP_CNT.addr = 1) = true := by decide

/-- NetworkPorts. -/
theorem witness_ptpDelay : wptpAnnounce.Ready ∧ (True)
    ∧ gives wptpAnnounce (.ptpMessageReceive 0 ⟨0, 0, (.delay 4)⟩) (fun d => d.get NET_PTP_MPD.MPD = 4) = true := by decide

/-- NetworkPorts. -/
theorem witness_ptpDropped : wptpAnnounce.Ready ∧ (True)
    ∧ gives wptpAnnounce (.ptpMessageReceive 0 ⟨0, 0, .dropped⟩) (fun d => d.get64 NET_PTP_DROP_CNT.addr = 1) = true := by decide

def wptpSync : State := { at' id with dev := (mgt14 id).dev.put NET_PTP_STAT.STATE 2 }

/-- NetworkPorts. -/
theorem witness_ptpSync : wptpSync.Ready ∧ (wptpSync.dev.get CAD_TIME_CTL.DISC ≠ 1)
    ∧ gives wptpSync (.ptpMessageReceive 0 ⟨0, 0, (.sync 3 4 5)⟩) (fun d => d.ptpState = 3 && d.get64 NET_PTP_OFFSET.addr = 3 && d.get64 NET_PTP_SYNC_CNT.addr = 1) = true := by decide

def wptpSyncDisc : State := { at' id with dev := ((mgt14 id).dev.put NET_PTP_STAT.STATE 2).put CAD_TIME_CTL.DISC 1 }

/-- NetworkPorts. -/
theorem witness_ptpSyncDisc : wptpSyncDisc.Ready ∧ (wptpSyncDisc.dev.get CAD_TIME_CTL.DISC = 1 ∧ wptpSyncDisc.dev.softWrote ⟨CAD_DOMAIN_OFF.addr, 0, 32⟩ = false ∧ wptpSyncDisc.dev.cad.held = false)
    ∧ gives wptpSyncDisc (.ptpMessageReceive 0 ⟨0, 0, (.sync 3 4 5)⟩) (fun d => d.ptpState = 3 && d.get64 CAD_DOMAIN_OFF.addr = 4 && d.is CAD_STAT.DISC_OK) = true := by decide

def wptpTimeout : State := { at' id with dev := (mgt14 id).dev.put NET_PTP_STAT.STATE 3 }

/-- NetworkPorts. -/
theorem witness_ptpTimeout : wptpTimeout.Ready ∧ (wptpTimeout.dev.ptpState = 3 ∧ wptpTimeout.dev.ptpOn 0 = true)
    ∧ gives wptpTimeout (.ptpMessageReceive 0 ⟨0, 0, .announceTimeout⟩) (fun d => d.ptpState = 1) = true := by decide

def wptpPdelay : State := { at' id with dev := (mgt14 fun m => { m with dict := [(objKey 0x9020 1, [1])] }).dev.put NET_PTP_STAT.STATE 3 }

/-- NetworkPorts. -/
theorem witness_ptpPdelay : wptpPdelay.Ready ∧ (wptpPdelay.dev.appliedNum 0x9020 1 = 1)
    ∧ gives wptpPdelay (.ptpMessageReceive 0 ⟨0, 0, .pdelayReq⟩) (fun d => d.out = [.ethernet 0 4 [0, 0], .ethernet 0 5 [0, 0]]) = true := by decide

/-- NetworkPorts. -/
theorem witness_ptpTransport : wptpPdelay.Ready ∧ ((1 : Nat) ≠ wptpPdelay.dev.appliedNum 0x9020 4)
    ∧ gives wptpPdelay (.ptpMessageReceive 0 ⟨0, 1, .pdelayReq⟩) (fun d => d.out = [] && d.get64 (NET_RX_DROP_CNT.addr 0) = 1) = true := by decide

/-- NetworkPorts. -/
theorem witness_ptpDomain : wptpPdelay.Ready ∧ ((1 : Nat) ≠ wptpPdelay.dev.appliedNum 0x9020 2)
    ∧ gives wptpPdelay (.ptpMessageReceive 0 ⟨1, 0, .pdelayReq⟩) (fun d => d.out = [] && d.get64 NET_PTP_DROP_CNT.addr = 1) = true := by decide

/-- NetworkPorts. -/
theorem witness_ptpInterval : wptpPdelay.Ready ∧ (True)
    ∧ gives wptpPdelay (.ptpMessageReceive 0 ⟨0, 0, .interval⟩) (fun d => d.out = [.ethernet 0 7 [0, 0]] && d.get64 (NET_TX_CNT.addr 0) = 1) = true := by decide

def wptpIntervalEnd : State := { at' id with dev := (mgt14 id).dev.put NET_PTP_STAT.STATE 2 }

/-- NetworkPorts. -/
theorem witness_ptpIntervalEnd : wptpIntervalEnd.Ready ∧ (wptpIntervalEnd.dev.appliedNum 0x9020 1 ≠ 1 ∧ 2 ≤ wptpIntervalEnd.dev.ptpState)
    ∧ gives wptpIntervalEnd (.ptpMessageReceive 0 ⟨0, 0, .interval⟩) (fun d => d.out = [.ethernet 0 6 [0, 0]]) = true := by decide

/-- NetworkPorts. -/
theorem witness_ptpPart : wptpIntervalEnd.Ready ∧ (True)
    ∧ gives wptpIntervalEnd (.ptpMessageReceive 0 ⟨0, 0, .part⟩) (fun d => d.out = [] && d.ptpState = 2) = true := by decide

def wethLinkChange : State := mgt14 id

/-- NetworkPorts. -/
theorem witness_ethLinkChange : wethLinkChange.Ready ∧ ((5 : Nat) ≤ wethLinkChange.dev.get (NET_PORT_CTL.SPEED_MAX 0))
    ∧ gives wethLinkChange (.ethLinkChange 0 5 true) (fun d => d.get (NET_PORT_STAT.RATE 0) = 5 && d.is (NET_PORT_STAT.LINK 0) && d.ntq.input.length = 1) = true := by decide


/-! ### Chapter 15 -/

def wqueueBeatParity : State := at' fun d => { (d.put DCT_MODE.CUR 1) with clr := ⟨64, [⟨1, 3, 1, 0, 7, 0, 9, 5000, 7, [], [3], none, none, [], 0, 0, 0, 0, 1, [], none, none, []⟩], [], 2⟩ }

/-- FaultsCoresAndTemperature. -/
theorem witness_queueBeatParity : wqueueBeatParity.Ready ∧ (5 ∉ wqueueBeatParity.dev.mgt.rows)
    ∧ gives wqueueBeatParity (.queueBeatParity 5 0x40 ⟨some 1, none⟩ .lasting) (fun d => d.mgt.rows = [5] && d.mode = 1 && d.mgt.faultLog.length = 1 && (d.clr.frames.all fun r => bit r.flags 5)) = true := by decide

def wqueueBeatTwice : State := at' fun d => ((d.put DCT_MODE.CUR 1).set1 CAD_APPLY.PENDING).setMgt fun m => { m with rows := [5] }

/-- FaultsCoresAndTemperature. -/
theorem witness_queueBeatTwice : wqueueBeatTwice.Ready ∧ (5 ∈ wqueueBeatTwice.dev.mgt.rows ∧ wqueueBeatTwice.dev.mode ≠ 7)
    ∧ gives wqueueBeatTwice (.queueBeatParity 5 0x40 ⟨none, none⟩ .lasting) (fun d => d.mode = 7 && d.mgt.safeCause = 3 && !d.is CAD_APPLY.PENDING && d.get DCT_MODE.BASE = 1) = true := by decide

def wqueueBeatSafe : State := at' fun d => (d.put DCT_MODE.CUR 7).setMgt fun m => { m with rows := [5], safeCause := 4 }

/-- FaultsCoresAndTemperature. -/
theorem witness_queueBeatSafe : wqueueBeatSafe.Ready ∧ (wqueueBeatSafe.dev.mode = 7)
    ∧ gives wqueueBeatSafe (.queueBeatParity 5 0x40 ⟨none, none⟩ .lasting) (fun d => d.mode = 7 && d.mgt.safeCause = 4 && d.mgt.faultLog.length = 1) = true := by decide

def wqueueBeatNoBlock : State := at' id

/-- FaultsCoresAndTemperature. -/
theorem witness_queueBeatNoBlock : wqueueBeatNoBlock.Ready ∧ (isBlock 0xFF = false)
    ∧ gives wqueueBeatNoBlock (.queueBeatParity 5 0xFF ⟨none, none⟩ .lasting) (fun d => d.mgt.rows = [] && d.mgt.faultLog = []) = true := by decide

def wqueueBeatZeroed : State := at' fun d => d.setColumn 3 fun c => { c with queue := [⟨1, 7, 3, .b, List.replicate 40 9, false, []⟩] }

/-- FaultsCoresAndTemperature. -/
theorem witness_queueBeatZeroed : wqueueBeatZeroed.Ready ∧ (True)
    ∧ gives wqueueBeatZeroed (.queueBeatParity 5 0x40 ⟨some 1, (some (.stream 3 1))⟩ .lasting) (fun d => ((d.column 3).queue.map (·.bytes)) = [List.replicate 32 9 ++ List.replicate 8 0]) = true := by decide

/-- FaultsCoresAndTemperature. -/
theorem witness_queueBeatTransient : wqueueBeatZeroed.Ready ∧ (isBlock 0x40 = true)
    ∧ gives wqueueBeatZeroed (.queueBeatParity 5 0x40 ⟨some 1, (some (.stream 3 1))⟩ .transient) (fun d => ((d.column 3).queue.map (·.bytes)) = [List.replicate 40 9] && d.transientCount 0x30 = 0 && Tab.get (fun _ => 0) d.mgt.transients 0x40 = 1) = true := by decide

def wcoreLastUpdating : State := at' fun d => (d.set1 MGT_ROLE.STBY_OK).setMgt fun m => { m with
    firmware := .running, update := some ⟨0x1000, 0x4000, { ImageInfo.reset with svn := 2 }, 0, 0, 3⟩ }

/-- FaultsCoresAndTemperature. -/
theorem witness_coreLastUpdating : wcoreLastUpdating.Ready ∧ (wcoreLastUpdating.dev.mgt.firmware = .running ∧ wcoreLastUpdating.dev.mgt.update = some ⟨0x1000, 0x4000, { ImageInfo.reset with svn := 2 }, 0, 0, 3⟩)
    ∧ gives wcoreLastUpdating (.coreLastingError .lasting) (fun d => d.mgt.update = none && d.get MGT_ROLE.UPDATE = 5 && d.mgt.image.svn = 2) = true := by decide

def wcoreLastAlone : State := at' fun d => ((d.unset MGT_ROLE.STBY_OK).put DCT_MODE.CUR 7).setMgt fun m => { m with firmware := .running }

/-- FaultsCoresAndTemperature. -/
theorem witness_coreLastAlone : wcoreLastAlone.Ready ∧ (wcoreLastAlone.dev.mode = 7)
    ∧ gives wcoreLastAlone (.coreLastingError .lasting) (fun d => d.mgt.firmware = .lost && d.mgt.faultLog.length = 1) = true := by decide

def wcoreHeartbeatMiss : State := at' fun d => (d.set1 MGT_ROLE.STBY_OK).setMgt fun m => { m with firmware := .running }

/-- FaultsCoresAndTemperature. -/
theorem witness_coreHeartbeatMiss : wcoreHeartbeatMiss.Ready ∧ (wcoreHeartbeatMiss.dev.mgt.update = none ∧ wcoreHeartbeatMiss.dev.mgt.firmware = .running)
    ∧ gives wcoreHeartbeatMiss (.coreHeartbeatMiss) (fun d => d.is MGT_ROLE.ACTIVE && !d.is MGT_ROLE.STBY_OK && d.get64 MGT_FAILOVER_CNT.addr = 1) = true := by decide

/-- FaultsCoresAndTemperature. -/
theorem witness_standbyHeartbeatMiss : wcoreHeartbeatMiss.Ready ∧ (wcoreHeartbeatMiss.dev.is MGT_ROLE.STBY_OK = true)
    ∧ gives wcoreHeartbeatMiss (.standbyHeartbeatMiss) (fun d => !d.is MGT_ROLE.STBY_OK && d.ntq.input = [⟨.alert, idMGT, 0x023, 1#32, 0⟩]) = true := by decide

def wcoreLastingError : State := at' fun d => (d.unset MGT_ROLE.STBY_OK).setMgt fun m => { m with firmware := .running }

/-- FaultsCoresAndTemperature. -/
theorem witness_coreLastingError : wcoreLastingError.Ready ∧ (wcoreLastingError.dev.is MGT_ROLE.STBY_OK = false ∧ wcoreLastingError.dev.mode ≠ 7)
    ∧ gives wcoreLastingError (.coreLastingError .lasting) (fun d => d.mgt.firmware = .lost && d.mode = 7 && d.mgt.safeCause = 4) = true := by decide

/-- FaultsCoresAndTemperature. -/
theorem witness_standbyRebootPassed : wcoreLastingError.Ready ∧ (wcoreLastingError.dev.is MGT_ROLE.OUT = false)
    ∧ gives wcoreLastingError (.standbyRebootDone true) (fun d => d.is MGT_ROLE.STBY_OK) = true := by decide

def wstandbyRebootFailed : State := at' fun d => (d.unset MGT_ROLE.STBY_OK).setMgt fun m => { m with firmware := .running, failed := [(1, 1)] }

/-- FaultsCoresAndTemperature. -/
theorem witness_standbyRebootFailed : wstandbyRebootFailed.Ready ∧ (wstandbyRebootFailed.dev.is MGT_ROLE.ACTIVE = false)
    ∧ gives wstandbyRebootFailed (.standbyRebootDone false) (fun d => !d.is MGT_ROLE.STBY_OK && d.is MGT_ROLE.OUT) = true := by decide

def upd15 (phase : Nat) (f : Dev → Dev) (m : Vault) : State := { (at' fun d =>
  let d := (d.set1 MGT_ROLE.STBY_OK).put MGT_ROLE.UPDATE phase
  f (d.setMgt fun m => { m with firmware := .running, update := some ⟨0x1000, 0x4000, ImageInfo.reset, 0, 0, phase⟩ })) with vault := m }
def write15 : List Byte := [0x10, 0xA0, 3, 4, 0, 0, 0, 0, 4, 0, 0, 0, 0x75, 0x70, 0x64, 0x74]
def attest15 : List Byte := [0x20, 0xA0, 1, 0xD, 0, 0, 0, 0, 32, 0, 0, 0] ++ List.replicate 32 7

def wfirmwareUpdate : State := State.onDev (held14 fun m => { m with dict := [(objKey 0xA010 1, [0, 16, 0, 0, 0, 0, 0, 0]), (objKey 0xA010 2, [0, 64, 0, 0])] }) (·.set1 MGT_ROLE.STBY_OK)

/-- LiveUpdate. -/
theorem witness_firmwareUpdate : wfirmwareUpdate.Ready ∧ (wfirmwareUpdate.dev.Takes (req14 0x11 write15) (msg14 0x11 write15) sess14 ∧ wfirmwareUpdate.dev.appliedNum 0xA010 1 = 0x1000 ∧ wfirmwareUpdate.dev.mgt.update = none
    ∧ field write15 12 4 = 0x74647075)
    ∧ gives wfirmwareUpdate (.firmwareUpdate (req14 0x11 write15)) (fun d => d.mgt.update = some ⟨0x1000, 0x4000, ImageInfo.reset, 0, 0, 1⟩ && d.get MGT_ROLE.UPDATE = 1 && status14 d = some 0) = true := by decide

def wfirmwareUpdateRange : State := held14 fun m => { m with dict := [(objKey 0xA010 1, [0, 16, 0, 0, 0, 0, 0, 0]), (objKey 0xA010 2, [1, 0, 0, 2])] }

/-- LiveUpdate. -/
theorem witness_firmwareUpdateRange : wfirmwareUpdateRange.Ready ∧ (32 * 2 ^ 20 < wfirmwareUpdateRange.dev.appliedNum 0xA010 2)
    ∧ gives wfirmwareUpdateRange (.firmwareUpdate (req14 0x11 write15)) (fun d => d.get MGT_ROLE.UPDATE = 5 && d.mgt.update = none) = true := by decide

def wfirmwareUpdateBusy : State := held14 fun m => { m with update := some ⟨0x1000, 0x4000, ImageInfo.reset, 0, 0, 1⟩ }

/-- LiveUpdate. -/
theorem witness_firmwareUpdateBusy : wfirmwareUpdateBusy.Ready ∧ (wfirmwareUpdateBusy.dev.mgt.update ≠ none)
    ∧ gives wfirmwareUpdateBusy (.firmwareUpdate (req14 0x11 write15)) (fun d => d.get MGT_ROLE.UPDATE = 5) = true := by decide

def wfirmwareUpdateAlone : State := State.onDev (held14 id) (·.unset MGT_ROLE.STBY_OK)

/-- LiveUpdate. -/
theorem witness_firmwareUpdateAlone : wfirmwareUpdateAlone.Ready ∧ (wfirmwareUpdateAlone.dev.is MGT_ROLE.STBY_OK = false)
    ∧ gives wfirmwareUpdateAlone (.firmwareUpdate (req14 0x11 write15)) (fun d => d.get MGT_ROLE.UPDATE = 5 && d.mgt.update = none) = true := by decide

/-- The image of a slot, of SVN `svn` and with an empty body and a key of zeros: its first 32 bytes, and the SHA3-256 of them, computed outside. -/
def head16 (svn : Byte) : List Byte := List.replicate 6 0 ++ [svn, 0] ++ List.replicate 24 0
def digest16 (svn : Byte) : List Byte :=
  if svn = 9 then [56, 84, 72, 192, 123, 30, 44, 185, 77, 165, 171, 136, 60, 60, 136, 243, 221, 211, 27, 253, 16, 180, 79, 181, 108, 44, 231, 244, 18, 68, 63, 173]
  else [76, 162, 157, 239, 116, 196, 195, 198, 255, 216, 12, 125, 189, 59, 155, 167, 121, 122, 44, 163, 118, 244, 186, 225, 11, 187, 32, 237, 111, 191, 24, 6]
def image16 (svn : Byte) : List Byte := head16 svn ++ (digest16 svn ++ List.replicate 8128 0)
theorem image16_length (svn : Byte) (h : (digest16 svn).length = 32) : (image16 svn).length = 8192 := by
  have e : (head16 svn).length = 32 := rfl
  rw [image16, List.length_append, List.length_append, List.length_replicate, e, h]
theorem test_sha3_9 : sha3 (head16 9) = digest16 9 := by decide +kernel
theorem test_sha3_3 : sha3 (head16 3) = digest16 3 := by decide +kernel
theorem witness_digest (svn : Byte) (h : (digest16 svn).length = 32) (e : sha3 (head16 svn) = digest16 svn) : ImageDigest (image16 svn) := by
  have l : bodyLength (image16 svn) = 0 := rfl
  have d : (ImageInfo.ofHeader (image16 svn)).digest = digest16 svn := by simp [ImageInfo.ofHeader, image16, head16, h, List.drop_append]
  have b : imageBody (image16 svn) = [] := by simp [imageBody, l]
  refine ⟨by rw [image16_length svn h, l]; decide, ?_⟩
  rw [d, b, List.append_nil, ← e]
  congr 1
/-- A device whose slot 0 has the image's key and is not revoked. -/
def fused16 (d : Dev) : Dev := d.setMgt fun m => { m with fuses := { m.fuses with keys := [sha3 (imageKey (image16 9))], revoked := [false] } }
theorem witness_imageHolds (d : Dev) : (fused16 d).ImageHolds (image16 9) true :=
  ⟨witness_digest 9 (by decide) test_sha3_9, rfl, rfl, rfl⟩
/-- The same image in the vault, at 0x1000. -/
def updateGood : State := let s := upd15 1 (fun d => fused16 (d.set1 VLT_STAT.INIT_DONE)) []
  { s with vault := Vault.write [] 0x1000 (image16 9), dev := s.dev.setMgt fun m => { m with update := some ⟨0x1000, 8192, ImageInfo.reset, 0, 0, 1⟩ } }
theorem witness_updateImage : Vault.read updateGood.vault 0x1000 8192 = image16 9 := by
  have v : updateGood.vault = Vault.write [] 0x1000 (image16 9) := by dsimp only [updateGood]
  have n : (image16 9).length = 8192 := image16_length 9 (by decide)
  have r := Vault.read_write [] 0x1000 (image16 9)
  rw [n] at r
  rw [v]
  exact r
theorem witness_updateVerifyDone : updateGood.Ready ∧ updateGood.dev.mgt.update = some ⟨0x1000, 8192, ImageInfo.reset, 0, 0, 1⟩
    ∧ updateGood.dev.mgt.firmware = .running ∧ updateGood.dev.readsAs .core 0x1000 8192 = true ∧ updateGood.dev.fusedSvn ≤ (ImageInfo.ofHeader (image16 9)).svn
    ∧ (ImageInfo.ofHeader (image16 9)).journal / 256 = updateGood.dev.mgt.image.journal / 256 := by decide

def wupdateVerifyFail : State := upd15 1 id []

/-- LiveUpdate. -/
theorem witness_updateVerifyFail : wupdateVerifyFail.Ready ∧ (wupdateVerifyFail.dev.mgt.update.map (·.phase) = some 1 ∧ wupdateVerifyFail.dev.readsAs .core 0x1000 0x4000 = false)
    ∧ gives wupdateVerifyFail (.updateVerifyDone true) (fun d => d.mgt.update = none && d.get MGT_ROLE.UPDATE = 5 && d.is SEC_FLAGS.VERIFY_FAIL) = true := by decide

def wupdateTakeover : State := upd15 2 id []

/-- LiveUpdate. -/
theorem witness_updateTakeover : wupdateTakeover.Ready ∧ (wupdateTakeover.dev.coreBoundary = true ∧ wupdateTakeover.dev.mgt.update = some ⟨0x1000, 0x4000, ImageInfo.reset, 0, 0, 2⟩ ∧ wupdateTakeover.dev.mgt.escrow.state ≠ 2)
    ∧ gives wupdateTakeover (.updateTakeover) (fun d => d.get MGT_ROLE.UPDATE = 3 && d.is MGT_ROLE.ACTIVE) = true := by decide

def wprobationHealthy : State := upd15 3 (fun d => { d with time := ms 1000 }) []

/-- LiveUpdate. -/
theorem witness_probationHealthy : wprobationHealthy.Ready ∧ (0 + ms 1000 ≤ wprobationHealthy.dev.time ∧ wprobationHealthy.dev.time ≤ 0 + ms 5000)
    ∧ gives wprobationHealthy (.probationHealthy) (fun d => d.get MGT_ROLE.UPDATE = 4 && !d.is MGT_ROLE.STBY_OK) = true := by decide

def wprobationTimeout : State := upd15 3 (fun d => { d with time := ms 5000 }) []

/-- LiveUpdate. -/
theorem witness_probationTimeout : wprobationTimeout.Ready ∧ (0 + ms 5000 ≤ wprobationTimeout.dev.time ∧ wprobationTimeout.dev.coreBoundary = true)
    ∧ gives wprobationTimeout (.probationTimeout) (fun d => d.get MGT_ROLE.UPDATE = 5 && d.is MGT_ROLE.ACTIVE && d.mgt.update = none) = true := by decide

def wflashCommitDone : State := upd15 4 (fun d => d.setMgt fun m => { m with image := { m.image with svn := 3 } }) []

/-- LiveUpdate. -/
theorem witness_flashCommitDone : wflashCommitDone.Ready ∧ (True)
    ∧ gives wflashCommitDone (.flashCommitDone true) (fun d => d.get MGT_ROLE.UPDATE = 0 && d.mgt.preferred = 1 && d.fusedSvn = 3 && d.get64 MGT_UPDATE_CNT.addr = 1) = true := by decide

/-- LiveUpdate. -/
theorem witness_flashCommitFail : wflashCommitDone.Ready ∧ (True)
    ∧ gives wflashCommitDone (.flashCommitDone false) (fun d => d.get MGT_ROLE.UPDATE = 0 && d.mgt.preferred = 0 && d.fusedSvn = 0) = true := by decide

def wcameraIdCheck : State := at' fun d => (((d.put SEC_CFG.CAM_POLICY 2).set1 (AVP_PORT_CTL.EN 3)).put (AVP_PORT_STAT.STATE 3) 5).setMgt fun m => { m with firmware := .running }

/-- SecurityServices. -/
theorem witness_cameraIdCheck : wcameraIdCheck.Ready ∧ (wcameraIdCheck.dev.headOf 3 = 3 ∧ wcameraIdCheck.dev.portUp 3 = true ∧ wcameraIdCheck.dev.cameraVerdict 3 0 (some []) 0 = 2 ∧ wcameraIdCheck.dev.gang 3 = [3])
    ∧ gives wcameraIdCheck (.cameraIdCheck 3 0 (some []) 0) (fun d => !d.is (AVP_PORT_CTL.EN 3) && d.portState 3 = 0) = true := by decide

def wcameraIdReport : State := at' fun d => (((d.put SEC_CFG.CAM_POLICY 1).set1 (AVP_PORT_CTL.EN 3)).put (AVP_PORT_STAT.STATE 3) 5).setMgt fun m => { m with firmware := .running }

/-- SecurityServices. -/
theorem witness_cameraIdReport : wcameraIdReport.Ready ∧ (wcameraIdReport.dev.cameraVerdict 3 0 none 0 = 5 ∧ wcameraIdReport.dev.get SEC_CFG.CAM_POLICY = 1)
    ∧ gives wcameraIdReport (.cameraIdCheck 3 0 none 0) (fun d => d.portState 3 = 5 && d.ntq.input = [⟨.alert, idSEC, 0x013, 0x53#32, 0⟩]) = true := by decide

def wcameraIdOff : State := at' fun d => ((d.put SEC_CFG.CAM_POLICY 0).put (AVP_PORT_STAT.STATE 3) 5).setMgt fun m => { m with firmware := .running }

/-- SecurityServices. -/
theorem witness_cameraIdOff : wcameraIdOff.Ready ∧ (wcameraIdOff.dev.get SEC_CFG.CAM_POLICY ≠ 1 ∧ wcameraIdOff.dev.get SEC_CFG.CAM_POLICY ≠ 2)
    ∧ gives wcameraIdOff (.cameraIdCheck 3 0 none 0) (fun d => d.ntq.input = []) = true := by decide

/-- A blob of 2,484 bytes whose fields match CAPS of zeros, and a key of the same maker in slot 0. -/
def blob15 : List Byte := List.replicate 4 0 ++ [1, 0] ++ List.replicate 2478 0
def wcamera : Dev := (at' fun d => d.setMgt fun m => { m with dict := [(objKey 0xA031 2, List.replicate 1312 5)] }).dev
theorem witness_cameraPasses : wcamera.cameraVerdict 3 2484 (some blob15) 1 = 1 := by decide

def wattestRequest : State := held14 id

/-- SecurityServices. -/
theorem witness_attestRequest : wattestRequest.Ready ∧ (wattestRequest.dev.Takes (req14 0x11 attest15) (msg14 0x11 attest15) sess14 ∧ wattestRequest.dev.holder = some 3 ∧ wattestRequest.dev.mgt.escrow.state = 0)
    ∧ gives wattestRequest (.attestRequest (req14 0x11 attest15)) (fun d => d.mgt.attest.nonces = [List.replicate 32 7] && status14 d = some 0) = true := by decide

def wattestReportDone : State := at' fun d => d.setMgt fun m => { m with firmware := .running, attest := ⟨[List.replicate 32 7], 0, [], []⟩ }

/-- SecurityServices. -/
theorem witness_attestReportDone : wattestReportDone.Ready ∧ (wattestReportDone.dev.mgt.attest.nonces = List.replicate 32 7 :: []) := by decide

def wfuseBurn : State := at' fun d => d.setReg SEC_FUSE_DATA.addr 0x55

/-- SecurityServices. -/
theorem witness_fuseBurn : wfuseBurn.Ready ∧ (wfuseBurn.dev.is DCT_LOCK.FUSE_PROG = false ∧ wfuseBurn.dev.is SEC_STAT.BOARD = false ∧ wfuseBurn.dev.mgt.fuses.burning = none)
    ∧ gives wfuseBurn (.fuseBurn .mca) (fun d => d.mgt.fuses.burning = some (0x55, 0) && d.mgt.fuses.board = none) = true := by decide

def wfuseBurnLocked : State := at' fun d => d.set1 DCT_LOCK.FUSE_PROG

/-- SecurityServices. -/
theorem witness_fuseBurnLocked : wfuseBurnLocked.Ready ∧ (wfuseBurnLocked.dev.is DCT_LOCK.FUSE_PROG = true)
    ∧ gives wfuseBurnLocked (.fuseBurn .mca) (fun d => d.mgt.fuses.burning = none && d.mgt.fuses.board = none) = true := by decide

def wfuseBurnAgain : State := at' fun d => d.set1 SEC_STAT.BOARD

/-- SecurityServices. -/
theorem witness_fuseBurnAgain : wfuseBurnAgain.Ready ∧ (wfuseBurnAgain.dev.is SEC_STAT.BOARD = true)
    ∧ gives wfuseBurnAgain (.fuseBurn .mca) (fun d => d.is SEC_FLAGS.BURN_REFUSED) = true := by decide

def wfuseBurnDone : State := at' fun d => d.setMgt fun m => { m with fuses := { m.fuses with burning := some (0x55, 0) } }

/-- SecurityServices. -/
theorem witness_fuseBurnDone : wfuseBurnDone.Ready ∧ (wfuseBurnDone.dev.mgt.fuses.burning = some (0x55, 0))
    ∧ gives wfuseBurnDone (.fuseBurnDone) (fun d => d.mgt.fuses.board = some 0x55 && d.mgt.fuses.burning = none && d.is SEC_STAT.BOARD && d.is SEC_FLAGS.BURN_DONE) = true := by decide


/-! ### Chapter 16 -/

def wsysRstAssert : State := { at' (fun d => ((d.put SEC_STAT.SVN 9).put DCT_MODE.CUR 3).setMgt fun m => { m with bootCount := 4, preferred := 1 }) with vault := [(5, 6)] }

/-- SystemReset. -/
theorem witness_sysRstAssert : wsysRstAssert.Ready ∧ (True)
    ∧ gives wsysRstAssert (.sysRstAssert 1000) (fun d => d.low && d.fusedSvn = 9 && d.mode = 0 && d.mgt.bootCount = 4 && d.mgt.preferred = 1) = true := by decide

/-- SystemReset. -/
theorem witness_sysRstShort : wsysRstAssert.Ready ∧ (True)
    ∧ gives wsysRstAssert (.sysRstAssert 999) (fun d => !d.low && d.mode = 3) = true := by decide

def wsysRstPins : State := at' fun d => ((d.put (FIO_PIN_CTL.MODE 5) 2).set1 (FIO_PIN_CTL.OUT 5)).set1 DCT_TEMP.THERM

/-- SystemReset. -/
theorem witness_sysRstPins : wsysRstPins.Ready ∧ ((wsysRstPins.dev.pinDrive 5).isSome = true)
    ∧ gives wsysRstPins (.sysRstAssert 1000) (fun d => d.low && d.out = [.fioPin 5 none, .therm false]) = true := by decide

def wlow : State := at' fun d => { d with low := true }
theorem witness_sysRstRelease : wlow.dev.low = true ∧ gives wlow (.sysRstRelease true (true, true)) (fun d =>
    !d.low && d.mgt.firmware = .recovery && d.get MGT_RCV_STAT.CAUSE = 2 && d.mgt.bootCount = 1) = true
    ∧ gives wlow (.sysRstRelease false (true, true)) (fun d => !d.low && d.mgt.firmware = .boot) = true := by decide
/-- Two copies of the boot control: the newer says slot 1 and 7 boots. -/
def wcopies (again : Nat) : State := at' fun d => { d with low := true }.setMgt fun m => { m with
  again := again, mram := { m.mram with control := writeCopy controlBytes (writeCopy controlBytes ⟨none, none⟩ (0, 6)) (1, 7) } }
theorem witness_sysRstCopies : gives (wcopies 0) (.sysRstRelease false (true, true)) (fun d => d.mgt.preferred = 1 && d.mgt.bootCount = 8
      && (newest controlBytes d.mgt.mram.control).map (·.value) = some (1, 8)) = true
    ∧ gives (wcopies 0) (.sysRstRelease false (true, false)) (fun d => d.mgt.preferred = 0 && d.mgt.bootCount = 7) = true
    ∧ gives (wcopies 0) (.sysRstRelease false (false, false)) (fun d => d.mgt.preferred = 0 && d.mgt.bootCount = 1 && d.mgt.controlBad) = true
    ∧ gives (wcopies 1) (.sysRstRelease false (true, true)) (fun d => d.mgt.firmware = .recovery && d.get MGT_RCV_STAT.CAUSE = 1) = true := by decide
/-- A slot that holds a good image, and one that holds nothing. -/
def slot16 (svn : Byte) : SlotImage := ⟨image16 svn, true⟩
def bad16 : SlotImage := ⟨[], true⟩
def boot16 : State := at' fun d => fused16 ((d.put SEC_STAT.SVN 3).setMgt fun m => { m with preferred := 1 })
theorem witness_imageHolds3 (d : Dev) : (fused16 d).ImageHolds (slot16 3).bytes (slot16 3).sigOk :=
  ⟨witness_digest 3 (by decide) test_sha3_3, rfl, rfl, rfl⟩
theorem witness_bootVerifyDone : boot16.Ready ∧ boot16.dev.mgt.firmware = .boot ∧ boot16.dev.mgt.preferred % 2 = 1
    ∧ boot16.dev.fusedSvn = 3 ∧ (ImageInfo.ofHeader (slot16 3).bytes).svn = 3 ∧ (ImageInfo.ofHeader (slot16 9).bytes).svn = 9 := by decide
theorem witness_badImage : ¬ ImageDigest bad16.bytes := by decide

def wbootNeither : State := boot16

/-- BootAndRecovery. -/
theorem witness_bootNeither : wbootNeither.Ready ∧ (bad16.bytes = [])
    ∧ gives wbootNeither (.bootVerifyDone bad16 bad16) (fun d => d.mgt.firmware = .recovery && d.get MGT_RCV_STAT.CAUSE = 1 && d.get64 SEC_VERIFY_FAIL_CNT.addr = 2) = true := by decide

def rec16 (f : MgtState → MgtState) : State := at' fun d => d.setMgt fun m => f { m with firmware := .recovery }

def wrecoveryChunk : State := rec16 fun m => { m with slots := [(0, ⟨[], [], some [8, 0x04030201], (0, 0)⟩)] }

/-- BootAndRecovery. -/
theorem witness_recoveryChunk : wrecoveryChunk.Ready ∧ ((wrecoveryChunk.dev.slot 0).request = some (8 :: [0x04030201]))
    ∧ gives wrecoveryChunk (.recoveryChunk) (fun d => d.mgt.staging = [(8, 1), (9, 2), (10, 3), (11, 4)] && (d.slot 0).rx = [0]) = true := by decide

def wrecoveryChunkBeyond : State := rec16 fun m => { m with slots := [(0, ⟨[], [], some [0x01FFFFFD, 0], (0, 0)⟩)] }

/-- BootAndRecovery. -/
theorem witness_recoveryChunkBeyond : wrecoveryChunkBeyond.Ready ∧ (32 * 2 ^ 20 < 0x01FFFFFD + 4)
    ∧ gives wrecoveryChunkBeyond (.recoveryChunk) (fun d => d.mgt.staging = [] && (d.slot 0).rx = [1]) = true := by decide

def wrecoveryChunkEmpty : State := rec16 fun m => { m with slots := [(0, ⟨[], [], some [8], (0, 0)⟩)] }

/-- BootAndRecovery. -/
theorem witness_recoveryChunkEmpty : wrecoveryChunkEmpty.Ready ∧ (True)
    ∧ gives wrecoveryChunkEmpty (.recoveryChunk) (fun d => d.mgt.staging = [] && (d.slot 0).rx = [2]) = true := by decide

def wrecoveryVerify : State := rec16 id

/-- BootAndRecovery. -/
theorem witness_recoveryVerify : wrecoveryVerify.Ready ∧ ((0x80002000 : Word).getLsbD 31 = true ∧ wrecoveryVerify.dev.is MGT_RCV_STAT.VERIFYING = false)
    ∧ gives wrecoveryVerify (.recoveryVerify .mca 0x80002000) (fun d => d.is MGT_RCV_STAT.VERIFYING && d.mgt.verifyLen = 8192) = true := by decide

/-- BootAndRecovery. -/
theorem witness_recoveryVerifyLong : wrecoveryVerify.Ready ∧ (True)
    ∧ gives wrecoveryVerify (.recoveryVerify .mca 0x83FFFFFF) (fun d => d.is MGT_RCV_STAT.VERIFYING && d.mgt.verifyLen = 0x3FFFFFF) = true := by decide

def wrecoveryVerifyOutside : State := at' id

/-- BootAndRecovery. -/
theorem witness_recoveryVerifyOutside : wrecoveryVerifyOutside.Ready ∧ (wrecoveryVerifyOutside.dev.mgt.firmware ≠ .recovery)
    ∧ gives wrecoveryVerifyOutside (.recoveryVerify .mca 0x80002000) (fun d => !d.is MGT_RCV_STAT.VERIFYING) = true := by decide

/-- A recovery whose staging area holds the first `n` bytes of a list from a byte on. -/
def chk16 (n : Nat) (l : List Byte) (svn : Nat) : State := State.onDev (rec16 fun m => { m with verifyLen := n, staging := (List.range l.length).zip l }) fun d =>
  fused16 ((d.set1 MGT_RCV_STAT.VERIFYING).put SEC_STAT.SVN svn)
/-- The 64 bytes of the header that are not 0 stand for the whole image. -/
def stage16 : List (Nat × Byte) := (List.range 64).zip (head16 9 ++ digest16 9)
theorem stage16_read : (List.range 64).map (fun i => Tab.get (fun _ => (0 : Byte)) stage16 i) = head16 9 ++ digest16 9 := by decide +kernel
theorem stage16_keys : ∀ e ∈ stage16, e.1 < 64 := by decide +kernel
theorem witness_staged : (List.range 8192).map (fun i => Tab.get (fun _ => (0 : Byte)) (chk16 8192 (head16 9 ++ digest16 9) 3).dev.mgt.staging i) = image16 9 := by
  have e : (chk16 8192 (head16 9 ++ digest16 9) 3).dev.mgt.staging = stage16 := rfl
  rw [e, show 8192 = 64 + 8128 from rfl, List.range_add, List.map_append, stage16_read, image16, ← List.append_assoc]
  refine congrArg (head16 9 ++ digest16 9 ++ ·) ?_
  rw [List.map_map, List.eq_replicate_iff]
  refine ⟨by simp, fun b hb => ?_⟩
  obtain ⟨i, -, rfl⟩ := List.mem_map.1 hb
  exact Tab.get_past _ stage16_keys (Nat.le_add_right 64 i)
theorem witness_recoveryVerifyDone : (chk16 8192 (head16 9 ++ digest16 9) 3).Ready ∧ (chk16 8192 (head16 9 ++ digest16 9) 3).dev.is MGT_RCV_STAT.VERIFYING = true
    ∧ (chk16 8192 (head16 9 ++ digest16 9) 3).dev.mgt.verifyLen = 8192 ∧ (chk16 8192 (head16 9 ++ digest16 9) 3).dev.fusedSvn = 3
    ∧ (chk16 8192 (head16 9 ++ digest16 9) 10).dev.fusedSvn = 10 := by decide

def wrecoveryVerifyShort : State := chk16 8188 [] 3

/-- BootAndRecovery. -/
theorem witness_recoveryVerifyShort : wrecoveryVerifyShort.Ready ∧ (wrecoveryVerifyShort.dev.mgt.verifyLen < 8192)
    ∧ gives wrecoveryVerifyShort (.recoveryVerifyDone true) (fun d => d.get MGT_RCV_STAT.RESULT = 6 && d.mgt.firmware = .recovery) = true := by decide

theorem witness_recoveryVerifyFails : gives (chk16 8192 [0, 0, 0, 0, 0, 0, 0, 0, 0, 0, 0, 0, 1] 3) (.recoveryVerifyDone true)
    (fun d => d.get MGT_RCV_STAT.RESULT = 1 && d.mgt.firmware = .recovery) = true := by decide +kernel

def wrecoveryFlashDone : State := State.onDev (rec16 fun m => { m with firmware := .running, staging := [(6, 9)], preferred := 1 }) (fun d => (d.set1 MGT_RCV_STAT.ACTIVE).put MGT_RCV_STAT.CAUSE 2)

/-- BootAndRecovery. -/
theorem witness_recoveryFlashDone : wrecoveryFlashDone.Ready ∧ (wrecoveryFlashDone.dev.mgt.staging ≠ [] ∧ wrecoveryFlashDone.dev.is MGT_RCV_STAT.ACTIVE = true)
    ∧ gives wrecoveryFlashDone (.recoveryFlashDone true) (fun d => !d.is MGT_RCV_STAT.ACTIVE && d.mgt.preferred = 0 && d.mgt.staging = []) = true := by decide

/-- BootAndRecovery. -/
theorem witness_recoveryFlashFails : wrecoveryFlashDone.Ready ∧ (True)
    ∧ gives wrecoveryFlashDone (.recoveryFlashDone false) (fun d => d.is MGT_RCV_STAT.ACTIVE && d.mgt.preferred = 1 && d.mgt.staging = [] && d.mgt.again = 2) = true := by decide

def wovertempAssert : State := at' id

/-- FaultsCoresAndTemperature. -/
theorem witness_overtempAssert : wovertempAssert.Ready ∧ (wovertempAssert.dev.is DCT_TEMP.THERM = false)
    ∧ gives wovertempAssert (.overtempAssert 106 20) (fun d => d.is DCT_TEMP.THERM && d.out = [.therm true] && d.get DCT_TEMP.DIE = 106) = true := by decide

/-- FaultsCoresAndTemperature. -/
theorem witness_overtempBelow : wovertempAssert.Ready ∧ (True)
    ∧ gives wovertempAssert (.overtempAssert 105 95) (fun d => !d.is DCT_TEMP.THERM && d.out = []) = true := by decide

def wovertempRelease : State := at' fun d => d.set1 DCT_TEMP.THERM

/-- FaultsCoresAndTemperature. -/
theorem witness_overtempRelease : wovertempRelease.Ready ∧ (wovertempRelease.dev.is DCT_TEMP.THERM = true)
    ∧ gives wovertempRelease (.overtempRelease 100 90) (fun d => !d.is DCT_TEMP.THERM && d.out = [.therm false]) = true := by decide

/-- FaultsCoresAndTemperature. -/
theorem witness_overtempStays : wovertempRelease.Ready ∧ (True)
    ∧ gives wovertempRelease (.overtempRelease 101 90) (fun d => d.is DCT_TEMP.THERM && d.out = []) = true := by decide


end Sys2Proof.Tests
end

section
/-! SUPPORT. More laws of the shared updates: one-bit fields, parts of the state that operations along a list keep, fields and pairs outside a
frame, and notices that come at most once per period. -/

open Sys2Proof Sys2Proof.Machine

namespace Sys2Proof.Machine
namespace Dev

/-! ### Fields and parts of the state -/

theorem get64_set1_ne (d : Dev) (f : Bits) {b : Nat} (h : f.off ≠ b) (h' : f.off ≠ b + 4) : (d.set1 f).get64 b = d.get64 b :=
  get64_put_ne _ f 1 h h'

/-- A one-bit field that has been set. -/
theorem is_set1_same (d : Dev) (f : Bits) (hw : f.w = 1) (hl : f.lo < 32) : (d.set1 f).is f = true := by
  have : (d.set1 f).get f = 1 % 2 ^ f.w := get_put_same _ f 1 (by omega)
  rw [is, this, hw]; rfl

/-- Setting a one-bit field leaves every other bit of its register. -/
theorem bitOf_set1_ne (d : Dev) (f : Bits) (hw : f.w = 1) (hl : f.lo < 32) {i : Nat} (hi : i ≠ f.lo) :
    (d.set1 f).bitOf f.off i = d.bitOf f.off i := by
  have : ((d.noteSet f).put f 1).bitOf f.off i = _ := reg_put_bit (d.noteSet f) f 1 i (by omega)
  rw [set1, this, if_neg (by omega)]; rfl

/-- Whether a period has passed depends on the marks and device time alone. -/
theorem since_congr {d e : Dev} (hm : e.marks = d.marks) (ht : e.time = d.time) (m : Mark) (p : Nat) : e.since m p = d.since m p := by
  rw [since, since, markAt, markAt, hm, ht]

/-- What every application of an operation keeps, applying it along a list keeps. -/
theorem forEach_keeps {α β : Type} (part : Dev → β) (l : List α) (f : α → Dev → Dev) (hf : ∀ a e, part (f a e) = part e) (d : Dev) :
    part (d.forEach l f) = part d := by
  unfold forEach
  induction l generalizing d with
  | nil => rfl
  | cons a t ih => exact (ih (f a d)).trans (hf a d)

/-- Fields, pairs and bits read alike on devices with the same register table. -/
theorem get64_congr {d e : Dev} (h : e.regs = d.regs) (a : Nat) : e.get64 a = d.get64 a := by rw [get64, get64, reg, reg, reg, reg, h]
theorem is_congr {d e : Dev} (h : e.regs = d.regs) (f : Bits) : e.is f = d.is f := by rw [is, is, get, get, reg, reg, h]
theorem bitOf_congr {d e : Dev} (h : e.regs = d.regs) (a i : Nat) : e.bitOf a i = d.bitOf a i := by rw [bitOf, bitOf, reg, reg, h]

/-- Columns are parts of CHT's state. -/
theorem column_congr {d e : Dev} (h : e.cht = d.cht) (k : Nat) : e.column k = d.column k := by rw [column, column, h]

/-! ### Outside a frame -/

/-- A field outside a frame. -/
theorem Frame.get {P : Nat → Prop} {d e : Dev} (h : Frame P d e) {g : Bits} (hg : ¬ P g.off) : e.get g = d.get g := by
  obtain ⟨-, -, -, hr⟩ := h
  rw [Dev.get, Dev.get, hr _ hg]

/-- A pair outside a frame. -/
theorem Frame.get64 {P : Nat → Prop} {d e : Dev} (h : Frame P d e) {a : Nat} (ha : ¬ P a) (ha' : ¬ P (a + 4)) : e.get64 a = d.get64 a := by
  obtain ⟨-, -, -, hr⟩ := h
  rw [Dev.get64, Dev.get64, hr a ha, hr _ ha']

/-! ### Notices that come at most once per period (R32, R47) -/

theorem atMost_notice (d : Dev) (m : Mark) (p : Nat) (c : Cls) (b code arg : Nat) :
    (d.atMost m p fun d => d.notice c b code arg) = if d.since m p then (d.notice c b code arg).stamp m else d := rfl

theorem atMost_notice_input (d : Dev) (m : Mark) (p : Nat) (c : Cls) (b code arg : Nat) :
    (d.atMost m p fun d => d.notice c b code arg).ntq.input
      = d.ntq.input ++ if d.since m p then [⟨c, b, code, word arg, d.time⟩] else [] := by
  rw [atMost_notice]; split <;> simp

@[simp] theorem atMost_notice_regs (d : Dev) (m : Mark) (p : Nat) (c : Cls) (b code arg : Nat) :
    (d.atMost m p fun d => d.notice c b code arg).regs = d.regs := by
  rw [atMost_notice]; split <;> rfl

@[simp] theorem atMost_notice_out (d : Dev) (m : Mark) (p : Nat) (c : Cls) (b code arg : Nat) :
    (d.atMost m p fun d => d.notice c b code arg).out = d.out := by
  rw [atMost_notice]; split <;> rfl

@[simp] theorem atMost_notice_clr (d : Dev) (m : Mark) (p : Nat) (c : Cls) (b code arg : Nat) :
    (d.atMost m p fun d => d.notice c b code arg).clr = d.clr := by
  rw [atMost_notice]; split <;> rfl

@[simp] theorem atMost_notice_cht (d : Dev) (m : Mark) (p : Nat) (c : Cls) (b code arg : Nat) :
    (d.atMost m p fun d => d.notice c b code arg).cht = d.cht := by
  rw [atMost_notice]; split <;> rfl

end Dev
end Sys2Proof.Machine
end

section
/-! PROOFS. The state after reset (R14, R85, R110, R365, R373, R450). -/

open Sys2Proof Sys2Proof.Machine

namespace Sys2Proof.Machine

/-- After reset the register table lists no register, so that each reads as its reset value (R14). -/
theorem reset_reg (a : Nat) : Dev.reset.reg a = regReset a := rfl

/-- The fields of single registers: mode, gate, apply and the vault's initialisation (R41, R75, R85, R240). -/
theorem reset_fields : Dev.reset.mode = 0 ∧ Dev.reset.get DCT_MODE.BASE = 0 ∧ Dev.reset.get DCT_MODE.NEXT = 0
    ∧ Dev.reset.is CAD_APPLY.PENDING = false ∧ Dev.reset.gateOpen = false ∧ Dev.reset.is VLT_STAT.INIT_DONE = false := by decide +kernel

/-- Every port is DOWN and disabled (R110). -/
theorem reset_portDown (p : Fin 16) : Dev.reset.portState p = 0 ∧ Dev.reset.is (AVP_PORT_CTL.EN p) = false := by
  revert p; decide +kernel

/-- Every strike is IDLE (R365). -/
theorem reset_strikeIdle (k : Fin 64) : Dev.reset.strikeState k = 0 := by revert k; decide +kernel

/-- Every channel of EVR is disabled (R373). -/
theorem reset_channelDisabled (e : Fin 128) : Dev.reset.is (EVR_CH.EN e) = false := by revert e; decide +kernel

/-- The empty vault is canonical, and no write of it is outstanding. -/
theorem reset_sound : State.reset.Sound := ⟨rfl, rfl⟩

end Sys2Proof.Machine

/-- Settles O56: the registers read as their reset values, the fields named are evaluated there, and the rest of the state is listed in the
reset state as it stands. -/
theorem resetState : Obligations.ResetState := by
  obtain ⟨hmode, hbase, hnext, hpending, hgate, hinit⟩ := reset_fields
  exact ⟨⟨rfl, rfl, rfl, reset_reg, hmode, hbase, hnext, hpending, reset_portDown, fun k => ⟨reset_strikeIdle k, rfl⟩,
    reset_channelDisabled, rfl, rfl, rfl, hgate, hinit, rfl⟩, reset_sound⟩
end

section
/-! PROOFS. Host requests that reach no register: a write that the closed gate stops, and a request of more than two words
(R13, R26, R31, R32, R41). -/

open Sys2Proof Sys2Proof.Machine

namespace Sys2Proof.Machine
namespace Dev

/-! ### The write gate (R32, R41) -/

/-- A host write of a gated register stops at the closed gate. -/
theorem gatePassed_gated (d : Dev) (off a : Nat) (val touch ones' : Word) (hr : d.Readable) (hg : d.gateOpen = false)
    (hu : d.ungated a = false) : d.gatePassed .host off a val touch ones' = d.gatedWrite off := by
  obtain ⟨hup, hmem⟩ := hr
  simp [gatePassed, hup, hmem, hg, hu]

theorem beMask_ne_zero (be : BitVec 4) (h : be ≠ 0#4) : word (beMask be.toNat) ≠ 0 := by revert be; decide

/-- The register that a write at an offset is for. -/
def writeTarget (off : Nat) : Nat := match aliasOf off with | some (_, a) => a | none => off / 4 * 4

/-- By whatever offset, a host write of a gated register comes to the gate and no further. -/
theorem busWrite_gated (d : Dev) (off : Nat) (data : Word) (be : BitVec 4) (hr : d.Readable) (hg : d.gateOpen = false) (hbe : be ≠ 0#4)
    (hb : (blockOf off).isSome = true) (hu : d.ungated (writeTarget off) = false) :
    d.busWrite .host off data be.toNat = d.gatedWrite off := by
  have hstop : ∀ a, d.ungated a = false → ∀ val touch ones', d.gatePassed .host off a val touch ones' = d.gatedWrite off :=
    fun a ha val touch ones' => gatePassed_gated d off a val touch ones' hr hg ha
  have hnone : (blockOf off).isNone = false := by simpa using hb
  unfold writeTarget at hu
  simp only [busWrite, hr.2, beMask_ne_zero be hbe, hnone]
  cases hk : aliasOf off with
  | none => rw [hk] at hu; simp [hstop _ hu]
  | some ka =>
    obtain ⟨k, a⟩ := ka
    rw [hk] at hu
    cases k <;> simp [hstop a hu]

/-- What the gate stops changes DCT_GATED_CNT and DCT_FLAGS alone. -/
theorem gatedWrite_frame (d : Dev) (off : Nat) :
    Frame (fun x => x = DCT_GATED_CNT.addr ∨ x = DCT_GATED_CNT.addr + 4 ∨ x = DCT_FLAGS.addr) d (d.gatedWrite off) :=
  (((Frame.refl _ d).count (.inl rfl) (.inr (.inl rfl))).set1 (.inr (.inr rfl))).atMost _ _ _ ((Frame.refl _ _).notice _ _ _ _)

/-- The registers after a write that the gate stops. -/
theorem gatedWrite_regs (d : Dev) (off : Nat) : (d.gatedWrite off).regs = ((d.count DCT_GATED_CNT.addr).set1 DCT_FLAGS.GATED).regs :=
  atMost_notice_regs _ _ _ _ _ _ _

theorem gatedWrite_counts (d : Dev) (off : Nat) :
    (d.gatedWrite off).get64 DCT_GATED_CNT.addr = (d.get64 DCT_GATED_CNT.addr + 1) % 2 ^ 64 := by
  rw [get64_congr (gatedWrite_regs d off), get64_set1_ne _ _ (by decide) (by decide), get64_count_same]

theorem gatedWrite_flag (d : Dev) (off : Nat) : (d.gatedWrite off).is DCT_FLAGS.GATED = true := by
  rw [is_congr (gatedWrite_regs d off), is_set1_same _ _ rfl (by decide)]

theorem gatedWrite_otherFlags (d : Dev) (off : Nat) {i : Nat} (hi : i ≠ DCT_FLAGS.GATED.lo) :
    (d.gatedWrite off).bitOf DCT_FLAGS.addr i = d.bitOf DCT_FLAGS.addr i := by
  rw [bitOf_congr (gatedWrite_regs d off), show DCT_FLAGS.addr = DCT_FLAGS.GATED.off from rfl, bitOf_set1_ne _ _ rfl (by decide) hi, bitOf, bitOf,
    reg_count_ne d (by decide) (by decide)]

theorem gatedWrite_out (d : Dev) (off : Nat) : (d.gatedWrite off).out = d.out := by simp [gatedWrite]

/-- GATED_WRITE names the block of the page written, at most once per millisecond. -/
theorem gatedWrite_input (d : Dev) (off : Nat) {b : BlockRow} (hb : blockOf off = some b) :
    (d.gatedWrite off).ntq.input
      = d.ntq.input ++ if d.since .gated (ms 1) then [⟨.alert, b.idOf off, 0x002, word off, d.time⟩] else [] := by
  have hs : ((d.count DCT_GATED_CNT.addr).set1 DCT_FLAGS.GATED).since .gated (ms 1) = d.since .gated (ms 1) := since_congr (by simp) (by simp) _ _
  simp [gatedWrite, atMost_notice_input, hs, hb]

/-! ### Errors of the host port (R325-R327) -/

namespace Frame

variable {P : Nat → Prop} {d e : Dev}

theorem errMessage (sev : Nat) (h : Frame P d e) : Frame P d (e.errMessage sev) :=
  h.when' _ _ fun _ => (((Frame.refl P e).when' _ _ fun _ => (Frame.refl P e).putCfgBit _ _ _)).emit _

theorem logHeader (hd : List (Nat × Nat)) (h : Frame P d e) : Frame P d (e.logHeader hd) :=
  (h.forEach _ _ fun _ _ g => (Frame.refl P g).setCfg _ _).draw

/-- An uncorrectable error counts, and sets MULTIPLE where the header log is occupied. -/
theorem aerErrorOf (hd : List (Nat × Nat)) (b : Nat) (adv : Bool) (h : Frame P d e) (hf : P HEP_FLAGS.addr) (hc : P HEP_UNCOR_CNT.addr)
    (hc' : P (HEP_UNCOR_CNT.addr + 4)) : Frame P d (e.aerErrorOf hd b adv) := by
  unfold Dev.aerErrorOf
  extract_lets fatal advisory masked log multiple counted logged headed status advised advisoryTold told
  have hcounted : Frame P d counted := ((h.when' _ _ fun _ => (Frame.refl P e).set1 hf).putCfgBit _ _ _).count hc hc'
  have hheaded : Frame P d headed := by
    show Frame P d (if log then _ else _)
    split
    · exact ((hcounted.setHep _).setCfg _ _).logHeader _
    · exact hcounted
  have hstatus : Frame P d status := hheaded.putCfgBit _ _ _
  split
  · exact ((hstatus.putCfgBit _ _ _).when' _ _ fun _ => (Frame.refl P _).errMessage _).notice _ _ _ _
  · have htold : Frame P d told := hstatus.when' _ _ fun _ => (Frame.refl P _).errMessage _
    split <;> exact htold.notice _ _ _ _

end Frame

/-! #### What an error sends comes after what has been sent -/

theorem out_when {d : Dev} (c : Bool) (f : Dev → Dev) (h : d.out <+: (f d).out) : d.out <+: (d.when c f).out := by
  cases c
  · exact List.prefix_rfl
  · exact h

theorem out_errMessage (d : Dev) (sev : Nat) : d.out <+: (d.errMessage sev).out := by
  refine out_when _ _ ?_
  simp only [emit_out, when]
  split <;> exact List.prefix_append _ _

theorem logHeader_out (d : Dev) (hd : List (Nat × Nat)) : (d.logHeader hd).out = d.out :=
  forEach_keeps out _ _ (fun _ _ => setCfg_out _ _ _) d

theorem out_aerErrorOf (d : Dev) (hd : List (Nat × Nat)) (b : Nat) (adv : Bool) : d.out <+: (d.aerErrorOf hd b adv).out := by
  unfold Dev.aerErrorOf
  extract_lets fatal advisory masked log multiple counted logged headed status advised advisoryTold told
  have hcounted : d.out <+: counted.out := by
    rw [show counted.out = multiple.out from count_out _ _]
    exact out_when _ _ List.prefix_rfl
  have hheaded : d.out <+: headed.out := by
    show _ <+: (if log then _ else _ : Dev).out
    split
    · rw [logHeader_out]; exact hcounted
    · exact hcounted
  have hstatus : d.out <+: status.out := hheaded
  split
  · exact hstatus.trans (out_when (d := advised) _ _ (out_errMessage _ _))
  · have htold : d.out <+: told.out := hstatus.trans (out_when _ _ (out_errMessage _ _))
    split <;> exact htold

/-! #### A Completer Abort (R13, R31, R32) -/

theorem completerAbort_frame (d : Dev) (posted : Bool) :
    Frame (fun x => x = HEP_CA_CNT.addr ∨ x = HEP_CA_CNT.addr + 4 ∨ x = HEP_UNCOR_CNT.addr ∨ x = HEP_UNCOR_CNT.addr + 4 ∨ x = HEP_FLAGS.addr)
      d (d.completerAbort posted) :=
  ((((Frame.refl _ d).when' _ _ fun _ => (Frame.refl _ d).emit _).count (by simp) (by simp)).putCfgBit _ _ _).aerErrorOf _ _ _
    (by simp) (by simp) (by simp)

theorem completerAbort_out (d : Dev) : d.out ++ [d.sealed .completerAbort] <+: (d.completerAbort false).out := by
  refine List.IsPrefix.trans (l₂ := (((d.emit (d.sealed .completerAbort)).count HEP_CA_CNT.addr).putCfgBit 0x04 27 true).out) ?_ (out_aerErrorOf _ _ _ _)
  simp

theorem completerAbort_counts (d : Dev) :
    (d.completerAbort false).get64 HEP_CA_CNT.addr = (d.get64 HEP_CA_CNT.addr + 1) % 2 ^ 64 := by
  have hf : Frame (fun x => x = HEP_UNCOR_CNT.addr ∨ x = HEP_UNCOR_CNT.addr + 4 ∨ x = HEP_FLAGS.addr)
      (((d.emit (d.sealed .completerAbort)).count HEP_CA_CNT.addr).putCfgBit 0x04 27 true) (d.completerAbort false) :=
    (Frame.refl _ _).aerErrorOf _ _ _ (by simp) (by simp) (by simp)
  rw [hf.get64 (by decide) (by decide), putCfgBit_get64, get64_count_same, emit_get64]

end Dev

/-! ### The commands (R31, R36) -/

theorem exec_registerWrite (r : Requester) (off : BitVec 25) (data : Word) (be : BitVec 4) (s : State) :
    exec (.registerWrite r off data be) s = s.run fun d => d.busWrite r off.toNat data be.toNat := rfl

/-- A request of more than two words by a host that the device answers (R31). -/
theorem exec_oversizeBar0Request (s : State) (off : BitVec 25) {words : Nat} (posted : Bool) (hs : s.Ready) (hr : s.dev.Readable)
    (hw : 2 < words) : exec (.oversizeBar0Request off words posted) s = .next (s.settleTo (s.dev.completerAbort posted)) := by
  obtain ⟨hup, hmem⟩ := hr
  have hnot : ¬ words ≤ 2 := by omega
  calc exec (.oversizeBar0Request off words posted) s
      = s.run fun d => if !d.hostUp || words ≤ 2 then d else if !d.memEnable then d.unsupported posted else d.completerAbort posted := rfl
    _ = .next (s.settleTo (s.dev.completerAbort posted)) := by rw [State.run_ready s _ hs]; simp [hup, hmem, hnot]

end Sys2Proof.Machine

/-- Settles O2: at whatever offset the gated write comes to `gatedWrite`, the oversize request to `completerAbort`, and each has its frame. -/
theorem refusedHostRequests : Obligations.RefusedHostRequests := by
  refine ⟨fun s off data be b hs hr hg hbe hb hu => ?_, fun s off words hs hr hw => ?_⟩
  · have hw : s.dev.busWrite .host off.toNat data be.toNat = s.dev.gatedWrite off.toNat :=
      Dev.busWrite_gated _ _ _ _ hr hg hbe (by simp [hb]) hu
    refine ⟨s.settleTo (s.dev.gatedWrite off.toNat), ?_, Dev.gatedWrite_counts _ _, Dev.gatedWrite_flag _ _,
      fun i hi => Dev.gatedWrite_otherFlags _ _ hi, Dev.gatedWrite_input _ _ hb, Dev.gatedWrite_out _ _,
      (Dev.gatedWrite_frame s.dev off.toNat).keeps hs.2.2⟩
    rw [exec_registerWrite, State.run_ready s _ hs, hw]
  · obtain ⟨l, hl⟩ := Dev.completerAbort_out s.dev
    exact ⟨_, exec_oversizeBar0Request s off false hs hr hw, ⟨l, hl.symm.trans (List.append_cons _ _ _).symm⟩,
      Dev.completerAbort_counts _, (Dev.completerAbort_frame s.dev false).keeps hs.2.2⟩
end

section
/-! PROOFS. The merger (R20, R169): a frame whose head is none of the 16 columns, which the statement allows, is taken whatever the length of
the result queue, since MERGER_TAKE looks at the queues of columns 0 to 15. -/

open Sys2Proof Sys2Proof.Machine

namespace Sys2Proof.Machine

/-- A frame in work in column 0, one group wide and two lines high, that names 16 as the head of its gang; teller 0 has ended its part. -/
def strayHeadFrame : ColFrame :=
  { frame := 1, tick := 0, port := 0, head := 16, size := 1, frameNo := 0, width := 32, height := 2, format := 0, first := 0, lines := 2
    config := { mode := 0, ctxB := 0, ctxA := 0, entry := 0, clrFrame := false, aFmt := 0, bFmt := 0, statSh := 0, winSh := 0, streamBase := 0
                streamLen := 0, streamOn := false, ssrc := 0, pitch := 0, satLevel := 0, stepLimit := 0, bank := 0, pool := [0], kernel := none }
    streams := [.a], delivered := [], sent := [0], lost := [], merge := [], stats := Stats.reset, tallies := 0, held := [], mintRecs := 0 }

/-- Teller 0 holds the first line's group of that frame, 32 bytes packed; the head's result queue, of length 0, awaits the stream. -/
def strayHead : State :=
  { State.reset with dev := { Dev.reset with cht := ⟨0
      , [(0, { Column.reset with frames := [strayHeadFrame] }), (16, { Column.reset with queue := [⟨1, 0, 16, .a, [], false, []⟩] })]
      , [(0, { Teller.reset with out := [⟨1, .a, 0, 0, List.replicate 32 5, []⟩] })], []⟩ } }

theorem strayHead_ready : strayHead.Ready := by decide

/-- The merger takes the group all the same. -/
theorem strayHead_taken : (strayHead.dev.mergerTake strayHead.vault 0 .a).cht ≠ strayHead.dev.cht := by decide

theorem exec_mergerTake (k : Fin 16) (stream : Fin 5) (s : State) (hs : s.Ready) :
    exec (.mergerTake k stream) s = .next (s.settleTo (s.dev.mergerTake s.vault k (Stream.all.getD stream .a))) :=
  State.runWith_ready s (fun m d => d.mergerTake m k (Stream.all.getD stream .a)) hs

end Sys2Proof.Machine

/-- Refutes O19: nothing bounds the head of the frame, and for a head of 16 or above MERGER_TAKE does not look at the head's result queue; in
`strayHead` that queue has no room for the packed bytes of the line, and the merger takes them. -/
theorem not_mergerTakes : ¬ Obligations.MergerTakes := by
  unfold Obligations.MergerTakes
  intro h
  have htakes := (h strayHead 0 strayHeadFrame 0 0 0 0 strayHead_ready rfl (by decide) (by decide) (by decide) (by decide) (by decide)
    (by decide) (by decide)).1 (by decide)
  obtain ⟨t, ht, hcht, -⟩ := (htakes.2 (by decide) (by decide) (by decide)).2 (by decide)
  rw [exec_mergerTake _ _ _ strayHead_ready] at ht
  injection ht with ht
  subst ht
  exact strayHead_taken hcht
end

section
/-! PROOFS. The encoder capture (R219, R225, R353): what the samples of a command change, what a capture holds, and whose it is. -/

open Sys2Proof Sys2Proof.Machine

namespace Sys2Proof.Machine
namespace Dev

/-! ### The samples of a command (R339-R341) -/

/-- The device once the four channels have taken the samples that a command carries. -/
def sampled (d : Dev) (l : List EncMotion) : Dev := d.forEach (List.range 4) fun i d => d.encSamples i (l.getD i ⟨0, []⟩)

namespace Frame

variable {P : Nat → Prop} {d e : Dev}

theorem stepEncChan (i t : Nat) (on : Bool) (f : EncChan → EncChan) (h : Frame P d e) : Frame P d (e.stepEncChan i t on f) :=
  h.other rfl rfl rfl rfl
theorem notePos (i t p : Nat) (h : Frame P d e) : Frame P d (e.notePos i t p) := h.setEnc _
theorem standstillNotice (i : Nat) (entered : Bool) (h : Frame P d e) : Frame P d (e.standstillNotice i entered) :=
  h.atMost _ _ _ ((Frame.refl P e).notice _ _ _ _)

theorem encMove (i t : Nat) (m : Int) (h : Frame P d e) : Frame P d (e.encMove i t m) := by
  unfold Dev.encMove
  extract_lets _ _ _ _ _ _ _ moved
  have hmoved : Frame P d moved := (h.stepEncChan _ _ _ _).notePos _ _ _
  exact hmoved.when' _ _ fun _ => (Frame.refl P _).standstillNotice _ _

theorem hwPut (f : Bits) (n : Nat) (h : Frame P d e) (ha : P f.off) : Frame P d (e.hwPut f n) := by
  unfold Dev.hwPut; split
  · exact h
  · exact h.put n ha

/-- The estimates write ENC_CH_CORR0 and ENC_CH_CORR1 (R340). -/
theorem encEstimate (i : Nat) (h : Frame P d e) (hP : ∀ a, P a) : Frame P d (e.encEstimate i) := by
  unfold Dev.encEstimate
  extract_lets _ _ _ d1 d2 d3
  have h1 : Frame P d d1 := h.hwPut _ _ (hP _)
  have h2 : Frame P d d2 := h1.hwPut _ _ (hP _)
  have h3 : Frame P d d3 := h2.hwPut _ _ (hP _)
  exact h3.hwPut _ _ (hP _)

theorem encExtremes (i : Nat) (a b step : Int) (h : Frame P d e) (hP : ∀ a, P a) : Frame P d (e.encExtremes i a b step) := by
  unfold Dev.encExtremes
  extract_lets _ _ _ _ _ noted
  have hnoted : Frame P d noted := h.setEnc _
  exact hnoted.when' _ _ fun _ => (Frame.refl P _).encEstimate _ hP

theorem encRun (i t : Nat) (r : EncRun) (h : Frame P d e) (hP : ∀ a, P a) : Frame P d (e.encRun i t r) := by
  unfold Dev.encRun
  extract_lets
  split
  extract_lets angle step noted
  have hnoted : Frame P d noted := h.setEnc _
  split
  · exact hnoted
  · exact (hnoted.when' _ _ fun _ => (Frame.refl P _).encMove _ _ _).encExtremes _ _ _ _ hP

/-- Samples may change registers; a motion without samples changes none. -/
theorem encSamples (i : Nat) (m : EncMotion) (h : Frame P d e) (hP : m.runs = [] ∨ ∀ a, P a) : Frame P d (e.encSamples i m) := by
  unfold Dev.encSamples
  extract_lets x last n l given start
  split
  · exact h
  · have hstart : Frame P d start := h.setEnc _
    refine hstart.forEach _ _ fun r hr g => ?_
    rcases hP with hnone | hP
    · have : l = [] := by simp only [l, hnone, lastSamples]
      simp [this] at hr
    · exact (Frame.refl P g).encRun _ _ _ hP

theorem sampled (l : List EncMotion) (h : Frame P d e) (hP : (∀ i < 4, (l.getD i ⟨0, []⟩).runs = []) ∨ ∀ a, P a) :
    Frame P d (e.sampled l) :=
  h.forEach _ _ fun i hi g => (Frame.refl P g).encSamples _ _ (hP.imp_left fun hn => hn i (List.mem_range.1 hi))

end Frame

/-! ### What a capture holds (R225, R353) -/

/-- The numbers below 4 that a test selects, as a word of bits. -/
theorem bit_sum_range4 (p : Nat → Bool) (i : Fin 4) : bit (((List.range 4).filter p).map (2 ^ ·)).sum i = p i := by
  have hr : List.range 4 = [0, 1, 2, 3] := rfl
  fin_cases i <;> simp only [hr, List.filter] <;> cases p 0 <;> cases p 1 <;> cases p 2 <;> cases p 3 <;> rfl

section
variable (d : Dev) (t : Nat) (l : List EncMotion)

/-- The valid bit of a channel: it was enabled at both samples. -/
theorem captureAt_valid (i : Fin 4) : bit (d.captureAt t l).valid i = d.encOnAt i t (l.getD i ⟨0, []⟩) :=
  bit_sum_range4 (fun i => d.encOnAt i t (l.getD i ⟨0, []⟩)) i

theorem captureAt_pos (i : Fin 4) : (d.captureAt t l).pos[i.val]? =
    some (if d.encOnAt i t (l.getD i ⟨0, []⟩) = true then d.encPosAt i t (l.getD i ⟨0, []⟩) else 0) := by
  have hi : i.val < 4 := i.isLt
  simp [captureAt, hi]

/-- Whether one of the channels of a capture meets a test at either of its two samples. -/
def anySample (p : EncPast → Bool) : Prop :=
  ∃ i : Fin 4, d.encOnAt i t (l.getD i ⟨0, []⟩) = true
    ∧ (p (d.encAt i (d.sampleBefore (l.getD i ⟨0, []⟩) t)) = true ∨ p (d.encAt i (d.sampleBefore (l.getD i ⟨0, []⟩) t + ns 25)) = true)

theorem any_filter_iff_anySample (p : EncPast → Bool) :
    (((List.range 4).filter fun i => d.encOnAt i t (l.getD i ⟨0, []⟩)).any fun i =>
      p (d.encAt i (d.sampleBefore (l.getD i ⟨0, []⟩) t)) || p (d.encAt i (d.sampleBefore (l.getD i ⟨0, []⟩) t + ns 25))) = true
    ↔ d.anySample t l p := by
  simp only [List.any_eq_true, List.mem_filter, List.mem_range, Bool.or_eq_true, anySample, Fin.exists_iff, and_assoc, exists_prop]

/-- The two flags of a capture stand at bits 6 and 7. -/
theorem bit_captureFlags (a b : Bool) : bit ((if a then 0x40 else 0) + if b then 0x80 else 0) 6 = a
    ∧ bit ((if a then 0x40 else 0) + if b then 0x80 else 0) 7 = b := by
  cases a <;> cases b <;> decide

theorem captureAt_doubt : bit (d.captureAt t l).flags 6 = true ↔ d.anySample t l (·.doubt) := by
  rw [← any_filter_iff_anySample]; exact iff_of_eq (congrArg (· = true) (bit_captureFlags _ _).1)

theorem captureAt_settling : bit (d.captureAt t l).flags 7 = true ↔ d.anySample t l (·.settling) := by
  rw [← any_filter_iff_anySample]; exact iff_of_eq (congrArg (· = true) (bit_captureFlags _ _).2)

end

/-- A capture `c` at an instant as R225 and R353 give it: the channels enabled at both samples about the instant are valid, each with its
position interpolated between them, the others read 0, and doubt and settling of those samples stand in the flags. -/
def CaptureHolds (d : Dev) (l : List EncMotion) (t : Nat) (c : EncCapture) : Prop :=
  let before (i : Fin 4) := d.sampleBefore (l.getD i ⟨0, []⟩) t
  let b (i : Fin 4) := d.encAt i (before i)
  let a (i : Fin 4) := d.encAt i (before i + ns 25)
  let on (i : Fin 4) : Prop := (b i).on = true ∧ (a i).on = true
  (∀ i : Fin 4, bit c.valid i = true ↔ on i) ∧ (∀ i : Fin 4, ¬ on i → c.pos[i.val]? = some 0)
    ∧ (∀ i : Fin 4, on i → c.pos[i.val]? = some (interpolate (d.posAt i (before i)) (d.posAt i (before i + ns 25)) (t - before i)))
    ∧ (bit c.flags 6 = true ↔ ∃ i : Fin 4, on i ∧ ((b i).doubt = true ∨ (a i).doubt = true))
    ∧ (bit c.flags 7 = true ↔ ∃ i : Fin 4, on i ∧ ((b i).settling = true ∨ (a i).settling = true))

/-- A channel takes part in a capture where it was enabled at both samples. -/
theorem encOnAt_iff (d : Dev) (i t : Nat) (m : EncMotion) : d.encOnAt i t m = true
    ↔ (d.encAt i (d.sampleBefore m t)).on = true ∧ (d.encAt i (d.sampleBefore m t + ns 25)).on = true := Bool.and_eq_true_iff

theorem captureAt_holds (d : Dev) (t : Nat) (l : List EncMotion) : d.CaptureHolds l t (d.captureAt t l) := by
  refine ⟨fun i => ?_, fun i hoff => ?_, fun i hon => ?_, ?_, ?_⟩
  · rw [captureAt_valid, encOnAt_iff]
  · rw [captureAt_pos, if_neg (mt (encOnAt_iff d i t _).1 hoff)]
  · rw [captureAt_pos, if_pos ((encOnAt_iff d i t _).2 hon)]; rfl
  · simp only [captureAt_doubt, anySample, encOnAt_iff]
  · simp only [captureAt_settling, anySample, encOnAt_iff]

/-! ### Whose capture it is (R225) -/

/-- Both samples about an instant are there for every channel. -/
theorem all_bracketed (d : Dev) (l : List EncMotion) (t : Nat) :
    ((List.range 4).all fun i => d.bracketed (l.getD i ⟨0, []⟩) t) = true ↔ ∀ i : Fin 4, d.bracketed (l.getD i ⟨0, []⟩) t = true := by
  simp [Fin.forall_iff]

/-- The capture of the only commanded exposure, which has none yet (R225). -/
theorem encCapture_exposure (d : Dev) (l : List EncMotion) {e : Exposure} (he : (d.sampled l).cad.exposures = [e]) (hn : e.enc = none)
    (hb : ∀ i : Fin 4, (d.sampled l).bracketed (l.getD i ⟨0, []⟩) e.time = true) :
    d.encCapture l =
      let c := (d.sampled l).captureAt e.time l
      ((d.sampled l).setCad fun x => { x with exposures := [{ e with enc := some c }] }).forEach
        (((d.sampled l).clr.frames.filter fun f => f.enc.isNone && f.head = e.head && f.source = e.source && f.cmd = e.id).map (·.id))
        fun id d => d.setFrame id fun g => { g with enc := some c } := by
  have hfind : ((d.sampled l).cad.exposures.find? fun x => x.enc.isNone
      && (List.range 4).all fun i => (d.sampled l).bracketed (l.getD i ⟨0, []⟩) x.time) = some e := by
    rw [he, List.find?_singleton, if_pos]
    simpa [hn] using (all_bracketed _ _ _).2 hb
  unfold encCapture
  simp only [← sampled.eq_def]
  rw [hfind]
  simp [he, setCad]

/-- No exposure to capture and no open frame: nothing but the samples. -/
theorem encCapture_none (d : Dev) (l : List EncMotion)
    (he : ∀ e ∈ (d.sampled l).cad.exposures, ∃ i : Fin 4, (d.sampled l).bracketed (l.getD i ⟨0, []⟩) e.time = false)
    (hf : (d.sampled l).clr.frames = []) : d.encCapture l = d.sampled l := by
  have hfind : ((d.sampled l).cad.exposures.find? fun x => x.enc.isNone
      && (List.range 4).all fun i => (d.sampled l).bracketed (l.getD i ⟨0, []⟩) x.time) = none := by
    rw [List.find?_eq_none]
    intro e hmem hthere
    obtain ⟨i, hi⟩ := he e hmem
    have := (all_bracketed _ _ _).1 (Bool.and_eq_true_iff.1 hthere).2 i
    rw [hi] at this
    cases this
  unfold encCapture
  simp only [← sampled.eq_def]
  rw [hfind, hf]
  rfl

/-- The capture of the only open frame, which has none yet, where no exposure is commanded (R225). -/
theorem encCapture_openFrame (d : Dev) (l : List EncMotion) {f : Machine.Frame} (he : (d.sampled l).cad.exposures = [])
    (hf : (d.sampled l).clr.frames = [f]) (hn : f.enc = none)
    (hb : ∀ i : Fin 4, (d.sampled l).bracketed (l.getD i ⟨0, []⟩) f.expose = true) :
    d.encCapture l = (d.sampled l).setFrame f.id fun g => { g with enc := some ((d.sampled l).captureAt f.expose l) } := by
  have hfind : ((d.sampled l).clr.frames.find? fun x => x.enc.isNone
      && (List.range 4).all fun i => (d.sampled l).bracketed (l.getD i ⟨0, []⟩) x.expose) = some f := by
    rw [hf, List.find?_singleton, if_pos]
    simpa [hn] using (all_bracketed _ _ _).2 hb
  unfold encCapture
  simp only [← sampled.eq_def]
  rw [he, List.find?_nil, hfind]

/-- A change of the only open frame. -/
theorem setFrame_single (d : Dev) {f : Machine.Frame} (hf : d.clr.frames = [f]) (g : Machine.Frame → Machine.Frame) :
    (d.setFrame f.id g).clr = { d.clr with frames := [g f] } := by simp [setFrame, hf]

/-- The frames of an exposure, at most one, take its capture. -/
theorem clr_setFrames (d : Dev) (p : Machine.Frame → Bool) (g : Machine.Frame → Machine.Frame) (hl : d.clr.frames.length ≤ 1)
    (hp : ∀ f, d.clr.frames = [f] → p f = true) :
    (d.forEach ((d.clr.frames.filter p).map (·.id)) fun id d => d.setFrame id g).clr = { d.clr with frames := d.clr.frames.map g } := by
  match hf : d.clr.frames with
  | [] => exact congrArg (fun x => { d.clr with frames := x }) hf
  | [f] => simpa [forEach, hp f hf] using setFrame_single d hf g
  | _ :: _ :: _ => simp [hf] at hl

/-! ### The machine after a capture -/

/-- What a capture leaves to the samples: every register as they left it, and all else but the records of exposures and frames. -/
theorem encCapture_frame (P : Nat → Prop) (d : Dev) (l : List EncMotion) : Frame P (d.sampled l) (d.encCapture l) := by
  unfold encCapture
  simp only [← sampled.eq_def]
  split
  · exact ((Frame.refl P _).setCad _).forEach _ _ fun _ _ g => (Frame.refl P g).setFrame _ _
  · split
    · exact Frame.refl P _
    · exact (Frame.refl P _).setFrame _ _

end Dev

theorem exec_encCapture (m0 m1 m2 m3 : EncMotion) (s : State) (hs : s.Ready) :
    exec (.encCapture m0 m1 m2 m3) s = .next (s.settleTo (s.dev.encCapture [m0, m1, m2, m3])) :=
  State.run_ready s (fun d => d.encCapture [m0, m1, m2, m3]) hs

/-- What a capture leaves alone: the queue, the vault, device time, and the registers as the samples left them; without samples all of them. -/
def State.LeftToSamples (s t : State) (l : List EncMotion) : Prop :=
  t.pending = s.pending ∧ t.vault = s.vault ∧ t.dev.time = s.dev.time ∧ (∀ a, t.dev.reg a = (s.dev.sampled l).reg a)
    ∧ ((∀ i : Fin 4, (l.getD i ⟨0, []⟩).runs = []) → s.Keeps t fun _ => False)

theorem encCapture_leftToSamples (s : State) (hs : s.Ready) (l : List EncMotion) :
    s.LeftToSamples (s.settleTo (s.dev.encCapture l)) l := by
  obtain ⟨-, -, hwrites⟩ := hs
  have hany : Dev.Frame (fun _ => True) s.dev (s.dev.sampled l) := (Dev.Frame.refl _ _).sampled l (.inr fun _ => trivial)
  obtain ⟨hw, ht, -, hr⟩ := Dev.encCapture_frame (fun _ => False) s.dev l
  obtain ⟨hw', ht', -, -⟩ := hany
  refine ⟨rfl, ?_, ht.trans ht', fun a => hr a id, fun hnone => ?_⟩
  · rw [State.settleTo_vault, hw, hw', hwrites, Vault.writeAll_nil]
  · have hsame : Dev.Frame (fun _ => False) s.dev (s.dev.sampled l) :=
      (Dev.Frame.refl _ _).sampled l (.inl fun i hi => hnone ⟨i, hi⟩)
    exact (hsame.trans (Dev.encCapture_frame _ _ _)).keeps hwrites

section
variable (s : State) (hs : s.Ready) (m0 m1 m2 m3 : EncMotion)
include hs

/-- The capture of a commanded exposure, and of its frame where that is open. -/
theorem exec_encCapture_exposure (e : Exposure) (he : (s.dev.sampled [m0, m1, m2, m3]).cad.exposures = [e]) (hn : e.enc = none)
    (hb : ∀ i : Fin 4, (s.dev.sampled [m0, m1, m2, m3]).bracketed ([m0, m1, m2, m3].getD i ⟨0, []⟩) e.time = true)
    (hf : ∀ f, (s.dev.sampled [m0, m1, m2, m3]).clr.frames = [f] → f.enc = none ∧ f.head = e.head ∧ f.source = e.source ∧ f.cmd = e.id)
    (hl : (s.dev.sampled [m0, m1, m2, m3]).clr.frames.length ≤ 1) :
    ∃ t c, exec (.encCapture m0 m1 m2 m3) s = .next t ∧ (s.dev.sampled [m0, m1, m2, m3]).CaptureHolds [m0, m1, m2, m3] e.time c
      ∧ t.dev.cad = { (s.dev.sampled [m0, m1, m2, m3]).cad with exposures := [{ e with enc := some c }] }
      ∧ t.dev.clr = { (s.dev.sampled [m0, m1, m2, m3]).clr with
          frames := (s.dev.sampled [m0, m1, m2, m3]).clr.frames.map fun f => { f with enc := some c } }
      ∧ s.LeftToSamples t [m0, m1, m2, m3] := by
  have hcap := Dev.encCapture_exposure s.dev _ he hn hb
  refine ⟨_, _, exec_encCapture m0 m1 m2 m3 s hs, Dev.captureAt_holds _ _ _, ?_, ?_, encCapture_leftToSamples s hs _⟩
  · refine (congrArg Dev.cad hcap).trans ?_
    exact Dev.forEach_keeps Dev.cad _ _ (fun _ _ => Dev.setFrame_cad _ _ _) _
  · refine (congrArg Dev.clr hcap).trans ?_
    exact Dev.clr_setFrames (Dev.setCad _ _) _ _ hl fun f h => by simp [hf f h]

/-- An exposure whose samples are not all there yet waits. -/
theorem exec_encCapture_waits (e : Exposure) (he : (s.dev.sampled [m0, m1, m2, m3]).cad.exposures = [e])
    (hf : (s.dev.sampled [m0, m1, m2, m3]).clr.frames = [])
    (hb : ∃ i : Fin 4, (s.dev.sampled [m0, m1, m2, m3]).bracketed ([m0, m1, m2, m3].getD i ⟨0, []⟩) e.time = false) :
    ∃ t, exec (.encCapture m0 m1 m2 m3) s = .next t ∧ t.dev.cad = (s.dev.sampled [m0, m1, m2, m3]).cad
      ∧ t.dev.clr = (s.dev.sampled [m0, m1, m2, m3]).clr ∧ s.LeftToSamples t [m0, m1, m2, m3] := by
  have hcap := Dev.encCapture_none s.dev [m0, m1, m2, m3] (fun x hx => by rw [he, List.mem_singleton] at hx; exact hx ▸ hb) hf
  exact ⟨_, exec_encCapture m0 m1 m2 m3 s hs, (congrArg Dev.cad hcap :), (congrArg Dev.clr hcap :), encCapture_leftToSamples s hs _⟩

/-- The capture of an open frame whose exposure has ended. -/
theorem exec_encCapture_openFrame (f : Frame) (he : (s.dev.sampled [m0, m1, m2, m3]).cad.exposures = [])
    (hf : (s.dev.sampled [m0, m1, m2, m3]).clr.frames = [f]) (hn : f.enc = none)
    (hb : ∀ i : Fin 4, (s.dev.sampled [m0, m1, m2, m3]).bracketed ([m0, m1, m2, m3].getD i ⟨0, []⟩) f.expose = true) :
    ∃ t c, exec (.encCapture m0 m1 m2 m3) s = .next t ∧ (s.dev.sampled [m0, m1, m2, m3]).CaptureHolds [m0, m1, m2, m3] f.expose c
      ∧ t.dev.cad = (s.dev.sampled [m0, m1, m2, m3]).cad
      ∧ t.dev.clr = { (s.dev.sampled [m0, m1, m2, m3]).clr with frames := [{ f with enc := some c }] }
      ∧ s.LeftToSamples t [m0, m1, m2, m3] := by
  have hcap := Dev.encCapture_openFrame s.dev _ he hf hn hb
  exact ⟨_, _, exec_encCapture m0 m1 m2 m3 s hs, Dev.captureAt_holds _ _ _, (congrArg Dev.cad hcap :),
    ((congrArg Dev.clr hcap).trans (Dev.setFrame_single _ hf _) :), encCapture_leftToSamples s hs _⟩

end

end Sys2Proof.Machine
end

section
/-! PROOFS. Teller results at the clearing unit (R221, R226, R228, R231). -/

open Sys2Proof Sys2Proof.Machine

namespace Sys2Proof.Machine
namespace Dev

theorem column_setColumn_same (d : Dev) (k : Nat) (g : Column → Column) : (d.setColumn k g).column k = g (d.column k) :=
  Tab.get_upd_same _ _ _ _

/-- A frame record that a block's fault marks at an instant (R220, R221). -/
def marked (d : Dev) (f : Machine.Frame) (block : Nat) : Machine.Frame :=
  { f with
    flags := f.flags ||| 0x20, faultId := d.faultBlock (bit f.flags 5) f.faultAt f.faultId block
    faultAt := if bit f.flags 5 then f.faultAt else d.time }

theorem markFault_frames (d : Dev) {f : Machine.Frame} (hf : d.clr.frames = [f]) (block : Nat) :
    (d.markFault f.id block).clr.frames = [d.marked f block] := by
  show (d.setFrame f.id _).clr.frames = _
  rw [setFrame_single d hf]; rfl

theorem Frame.markFault {P : Nat → Prop} {d e : Dev} (id block : Nat) (h : Frame P d e) : Frame P d (e.markFault id block) :=
  (h.setFrame _ _).setClr _

/-- A result of an open frame is taken, its teller awaited no more, and the frame marked where it is faulted. -/
theorem resultAccept_awaited (d : Dev) (k : Nat) {r : TellerResult} {rest : List TellerResult} {f : Machine.Frame}
    (hr : (d.column k).results = r :: rest) (hf : d.clr.frames = [f]) (hid : f.id = r.frame) (hw : d.windowHeld 4 f.tick = false) :
    d.resultAccept k = ((d.setColumn k fun c => { c with results := rest }).setFrame f.id
      fun g => { g with expect := g.expect.filter (· != r.teller) }).when r.faulted (·.markFault f.id idCHT) := by
  have hof : d.frameOf r.frame = some f := by simp [frameOf, hf, hid]
  unfold resultAccept
  rw [hr]
  simp only [hof, hw]
  rfl

/-- A result of no open frame is discarded, counted and reported (R231). -/
theorem resultAccept_orphan (d : Dev) (k : Nat) {r : TellerResult} {rest : List TellerResult}
    (hr : (d.column k).results = r :: rest) (hf : ∀ f ∈ d.clr.frames, f.id ≠ r.frame) :
    d.resultAccept k = ((((d.setColumn k fun c => { c with results := rest }).count CLR_ORPHAN_CNT.addr).set1 CLR_FLAGS.ORPHAN).atMost
      .orphanResult (ms 1) fun d => d.notice .alert idCLR 0x011 (r.teller * 2 ^ 16 + r.tick % 2 ^ 16)) := by
  have hof : d.frameOf r.frame = none := by simpa [frameOf] using hf
  unfold resultAccept
  rw [hr]
  simp only [hof]

end Dev

theorem exec_tellerResultAccept (k : Fin 16) (s : State) (hs : s.Ready) :
    exec (.tellerResultAccept k) s = .next (s.settleTo (s.dev.resultAccept k)) := State.run_ready s (fun d => d.resultAccept k) hs

section
variable (s : State) (hs : s.Ready) (k : Fin 16) {r : TellerResult} {rest : List TellerResult} (hr : (s.dev.column k).results = r :: rest)
include hs hr

/-- A result that its frame awaits. -/
theorem exec_tellerResultAccept_awaited (f : Frame) (hf : s.dev.clr.frames = [f]) (hid : f.id = r.frame)
    (hw : s.dev.windowHeld 4 f.tick = false) :
    let left := { f with expect := f.expect.filter (· != r.teller) }
    ∃ t, exec (.tellerResultAccept k) s = .next t ∧ (r.faulted = false → t.dev.clr = { s.dev.clr with frames := [left] })
      ∧ (r.faulted = true → t.dev.clr.frames = [s.dev.marked left idCHT])
      ∧ (t.dev.column k).results = rest ∧ s.Keeps t fun _ => False := by
  intro left
  have hacc := Dev.resultAccept_awaited s.dev k hr hf hid hw
  let taken := (s.dev.setColumn k fun c => { c with results := rest }).setFrame f.id fun g => { g with expect := g.expect.filter (· != r.teller) }
  have hclr : taken.clr = { s.dev.clr with frames := [left] } := Dev.setFrame_single _ hf _
  have hcol : (taken.column k).results = rest := congrArg Column.results (Dev.column_setColumn_same s.dev k _)
  have hframe : Dev.Frame (fun _ => False) s.dev taken := ((Dev.Frame.refl _ _).setColumn _ _).setFrame _ _
  refine ⟨s.settleTo (taken.when r.faulted (·.markFault f.id idCHT)), ?_, fun h => ?_, fun h => ?_, ?_, ?_⟩
  · rw [exec_tellerResultAccept k s hs, hacc]
  · rw [h]; exact hclr
  · rw [h]; exact Dev.markFault_frames taken (f := left) (congrArg ClrState.frames hclr) idCHT
  · rw [← hcol]; cases r.faulted <;> rfl
  · exact (hframe.when' _ _ fun _ => (Dev.Frame.refl _ _).markFault _ _).keeps hs.2.2

/-- A result of no open frame. -/
theorem exec_tellerResultAccept_orphan (hf : ∀ f ∈ s.dev.clr.frames, f.id ≠ r.frame) :
    ∃ t, exec (.tellerResultAccept k) s = .next t ∧ t.dev.clr = s.dev.clr ∧ (t.dev.column k).results = rest
      ∧ t.dev.get64 CLR_ORPHAN_CNT.addr = (s.dev.get64 CLR_ORPHAN_CNT.addr + 1) % 2 ^ 64 ∧ t.dev.is CLR_FLAGS.ORPHAN = true
      ∧ t.dev.ntq.input = s.dev.ntq.input ++ (if s.dev.since .orphanResult (ms 1)
          then [⟨.alert, idCLR, 0x011, word (r.teller * 2 ^ 16 + r.tick % 2 ^ 16), s.dev.time⟩] else [])
      ∧ s.Keeps t fun a => a = CLR_ORPHAN_CNT.addr ∨ a = CLR_ORPHAN_CNT.addr + 4 ∨ a = CLR_FLAGS.addr := by
  let flagged := ((s.dev.setColumn k fun c => { c with results := rest }).count CLR_ORPHAN_CNT.addr).set1 CLR_FLAGS.ORPHAN
  let t := s.settleTo (flagged.atMost .orphanResult (ms 1) fun d => d.notice .alert idCLR 0x011 (r.teller * 2 ^ 16 + r.tick % 2 ^ 16))
  have hregs : t.dev.regs = flagged.regs := Dev.atMost_notice_regs _ _ _ _ _ _ _
  have hcht : t.dev.cht = (s.dev.setColumn k fun c => { c with results := rest }).cht := by simp [t, flagged, State.settleTo_dev, Dev.flushed]
  have hsince : flagged.since .orphanResult (ms 1) = s.dev.since .orphanResult (ms 1) := Dev.since_congr (by simp [flagged]) (by simp [flagged]) _ _
  have hframe : Dev.Frame (fun a => a = CLR_ORPHAN_CNT.addr ∨ a = CLR_ORPHAN_CNT.addr + 4 ∨ a = CLR_FLAGS.addr) s.dev flagged :=
    (((Dev.Frame.refl _ _).setColumn _ _).count (by simp) (by simp)).set1 (.inr (.inr rfl))
  refine ⟨t, ?_, ?_, ?_, ?_, ?_, ?_, ?_⟩
  · rw [exec_tellerResultAccept k s hs, Dev.resultAccept_orphan s.dev k hr hf]
  · exact (Dev.atMost_notice_clr _ _ _ _ _ _ _).trans (by simp [flagged])
  · rw [Dev.column_congr hcht, Dev.column_setColumn_same]
  · rw [Dev.get64_congr hregs, Dev.get64_set1_ne _ _ (by decide) (by decide), Dev.get64_count_same]; rfl
  · rw [Dev.is_congr hregs, Dev.is_set1_same _ _ rfl (by decide)]
  · exact (Dev.atMost_notice_input _ _ _ _ _ _ _).trans (by simp [hsince, flagged])
  · exact (hframe.atMost _ _ _ ((Dev.Frame.refl _ _).notice _ _ _ _)).keeps hs.2.2

end
end Sys2Proof.Machine
end

section
/-! PROOFS. Ledger entries of a complete frame (R218-R222, R226, R227, R229): the layout of FLAGS, what one queued entry changes, and the
frame's entries in ascending KIND. -/

open Sys2Proof Sys2Proof.Machine

namespace Sys2Proof.Machine

/-! ### The streams of a frame (R218, R226) -/

theorem Frame.kind_lt (f : Frame) (s : Stream) : f.kind s < 8 := by
  have hlines : ∀ k < 8, f.lines k < 8 := fun k hk => by unfold Frame.lines; split <;> omega
  cases s with
  | a => exact hlines _ (Nat.mod_lt _ (by decide))
  | b => exact hlines _ (Nat.mod_lt _ (by decide))
  | mint | tally | stat => simp [Frame.kind]

/-- One stream stands at its KIND. -/
theorem flatMap_range8_single {α : Type} (x : α) {a : Nat} (ha : a < 8) : ((List.range 8).flatMap fun k => if a = k then [x] else []) = [x] := by
  interval_cases a <;> rfl

/-- Two streams stand in the order of their KINDs. -/
theorem flatMap_range8_pair {α : Type} (x y : α) {a b : Nat} (hab : a < b) (hb : b < 8) :
    ((List.range 8).flatMap fun k => (if a = k then [x] else []) ++ if b = k then [y] else []) = [x, y] := by
  interval_cases b <;> interval_cases a <;> rfl

theorem Frame.ordered_single {f : Frame} {s : Stream} (hs : f.streams = [s]) : f.ordered = [s] := by
  simp only [Frame.ordered, hs, List.filter_singleton, Bool.cond_decide, flatMap_range8_single s (f.kind_lt s)]

theorem Frame.ordered_pair {f : Frame} {s s' : Stream} (hs : f.streams = [s, s'] ∨ f.streams = [s', s]) (hlt : f.kind s < f.kind s') :
    f.ordered = [s, s'] := by
  have hfilter : ∀ k, (f.streams.filter fun x => f.kind x = k) = (if f.kind s = k then [s] else []) ++ if f.kind s' = k then [s'] else [] := by
    intro k
    by_cases h : f.kind s = k
    · have h' : f.kind s' ≠ k := by omega
      rcases hs with hs | hs <;> simp [hs, h, h']
    · rcases hs with hs | hs <;> simp [hs, h, List.filter_cons]
  simp only [Frame.ordered, hfilter, flatMap_range8_pair s s' hlt (f.kind_lt s')]

/-! ### The layout of FLAGS (R220) -/

/-- The fields of FLAGS above twelve bits of conditions: valid channels, FAULT_ID, ENTRY_SEQ. -/
theorem flags_layout {own valid fault seq : Nat} (ho : own < 2 ^ 12) (hv : valid < 16) (hf : fault < 256) (hs : seq < 256) :
    let n := own + valid * 2 ^ 12 + fault * 2 ^ 16 + seq * 2 ^ 24
    slice n 24 8 = seq ∧ slice n 12 4 = valid ∧ slice n 16 8 = fault ∧ ∀ i < 12, bit n i = bit own i := by
  intro n
  refine ⟨?_, ?_, ?_, fun i hi => ?_⟩
  · simp only [slice, n, Nat.shiftRight_eq_div_pow]; omega
  · simp only [slice, n, Nat.shiftRight_eq_div_pow]; omega
  · simp only [slice, n, Nat.shiftRight_eq_div_pow]; omega
  · have : n = 2 ^ 12 * (valid + fault * 2 ^ 4 + seq * 2 ^ 12) + own := by simp only [n]; omega
    rw [bit, this, Nat.testBit_two_pow_mul_add _ ho, if_pos hi, bit]

namespace Dev

/-- The conditions in FLAGS of a frame without a recorded entry, below bit 12 (R220, R221, R230). -/
def conditions (d : Dev) (f : Machine.Frame) (c : EncCapture) : Nat :=
  (f.flags % 2 ^ 12)
    ||| (if (match (f.parts.filter (!·.missing)).map (·.frameNo) with | n :: t => t.any (· != n) | [] => false) then 2 else 0)
    ||| (if d.lateStrike f then 8 else 0) ||| c.flags

theorem conditions_lt (d : Dev) (f : Machine.Frame) {c : EncCapture} (hc : c.flags < 2 ^ 12) : d.conditions f c < 2 ^ 12 := by
  have h2 : ∀ b : Bool, (if b then 2 else 0 : Nat) < 2 ^ 12 := by decide
  have h8 : ∀ b : Bool, (if b then 8 else 0 : Nat) < 2 ^ 12 := by decide
  exact Nat.or_lt_two_pow (Nat.or_lt_two_pow (Nat.or_lt_two_pow (Nat.mod_lt _ (by decide)) (h2 _)) (h8 _)) hc

/-- LATE_STRIKE stands at bit 3, where frame and capture may have set it too. -/
theorem bit3_conditions (d : Dev) (f : Machine.Frame) (c : EncCapture) :
    bit (d.conditions f c) 3 = true ↔ d.lateStrike f = true ∨ bit f.flags 3 = true ∨ bit c.flags 3 = true := by
  have h2 : ∀ b : Bool, (if b then 2 else 0 : Nat).testBit 3 = false := by decide
  have h8 : ∀ b : Bool, (if b then 8 else 0 : Nat).testBit 3 = b := by decide
  simp only [bit, conditions, Nat.testBit_or, h2, h8, Nat.testBit_mod_two_pow, Bool.or_eq_true,
    show (3 < 12) = True by simp, decide_true, Bool.true_and, Bool.false_eq_true, or_false]
  tauto

theorem frameFlags_live (d : Dev) {f : Machine.Frame} {c : EncCapture} (hr : f.replay = none) (he : f.enc = some c) (format : Nat) :
    d.frameFlags f format = d.conditions f c + (if format = 2 then c.valid else 0) * 2 ^ 12
      + (if bit (d.conditions f c) 5 then f.faultId else 0) * 2 ^ 16 := by
  unfold frameFlags
  simp only [hr, he]
  show (d.conditions f c ||| 0 &&& 0x9FF) + (if format = 2 then c.valid * 2 ^ 12 else 0)
    + (if bit (d.conditions f c ||| 0 &&& 0x9FF) 5 then f.faultId * 2 ^ 16 else 0) = _
  rw [Nat.zero_and, Nat.or_zero, ite_mul, ite_mul, Nat.zero_mul, Nat.zero_mul]

/-! ### One entry (R222, R226, R229) -/

/-- The entry of a stream as a complete frame gives it. -/
def entryOf (d : Dev) (f : Machine.Frame) (s : Stream) : Entry :=
  let format := slice f.cfg.toNat 0 2
  let lead := f.lead.getD ⟨f.head, f.frameNo, f.expose, f.tick, 0, false⟩
  let recorded := fun (i k v : Nat) => match f.replay with | some l => field l i k | none => v
  let enc := f.enc.getD ⟨[], 0, 0⟩
  { frame := f.id, stream := s, format := format, kind := f.kind s, head := recorded 2 1 f.head, size := recorded 3 1 f.size
    flags := d.frameFlags f format + (if format = 2 then d.get (seqBits f.head (f.kind s)) * 2 ^ 24 else 0)
    frameNo := f.item .frameNo 64 (recorded 8 8 lead.frameNo), expose := f.item .exposeTime 64 (recorded 0x10 8 lead.expose)
    tick := f.item .tickNo 64 f.tick, faultAt := f.faultAt, bytesFailed := f.failsBytes s
    enc := (List.finRange 4).map fun i => f.item (.position i) 40 (recorded (0x20 + 5 * i) 5 (enc.pos.getD i 0)), mode := f.mode }

/-- The flags of an entry are counted one by one (R220). -/
def countFlags (d : Dev) (base : Nat) : Dev :=
  d.forEach ((List.range 12).filter fun b => bit base b && b != 4 && b != 9 && b != 10) fun b d => d.count (CLR_FLAG_CNT.addr b)

/-- The steps of ENTRY_SEQ and CLR_ENTRY_CNT. -/
def seqTaken (d : Dev) (f : Machine.Frame) (s : Stream) : Dev :=
  (d.put (seqBits f.head (f.kind s)) (d.get (seqBits f.head (f.kind s)) + 1)).count CLR_ENTRY_CNT.addr

/-- The registers that queueing an entry changes: ENTRY_SEQ, the counts of entries and flags, and those of an entry that fails. -/
def entryCounted (d : Dev) (f : Machine.Frame) (s : Stream) : Dev :=
  ((d.seqTaken f s).when (f.failsEntry s) (·.entryFault f)).countFlags (d.frameFlags f (slice f.cfg.toNat 0 2))

theorem queueEntry_eq (d : Dev) (f : Machine.Frame) (s : Stream) :
    d.queueEntry f s = (d.entryCounted f s).when ((d.entryCounted f s).entryAwaited f s)
      fun e => e.setClr fun x => { x with queue := e.clr.queue ++ [d.entryOf f s] } := rfl

/-- What counting flags keeps: every part of the state that a count keeps. -/
theorem countFlags_keeps {β : Type} (part : Dev → β) (hp : ∀ e a, part (Dev.count e a) = part e) (d : Dev) (base : Nat) :
    part (d.countFlags base) = part d := forEach_keeps part _ _ (fun _ e => hp e _) d

/-- Every part of the state outside registers and notices that a count and a set flag keep. -/
theorem entryCounted_keeps {β : Type} (part : Dev → β) (hr : ∀ e a v, part (setReg e a v) = part e) (hc : ∀ e a, part (Dev.count e a) = part e)
    (hs : ∀ e g, part (Dev.set1 e g) = part e) (hn : ∀ e c b k a, part (Dev.notice e c b k a) = part e) (d : Dev) (f : Machine.Frame) (s : Stream) :
    part (d.entryCounted f s) = part d := by
  rw [entryCounted, countFlags_keeps part hc, seqTaken, when]
  split
  · rw [entryFault, hn, hs, hc, hc]; exact hr _ _ _
  · rw [hc]; exact hr _ _ _

theorem entryCounted_clr (d : Dev) (f : Machine.Frame) (s : Stream) : (d.entryCounted f s).clr = d.clr :=
  entryCounted_keeps clr (fun _ _ _ => rfl) (fun _ _ => count_clr _ _) (fun _ _ => rfl) (fun _ _ _ _ _ => rfl) d f s
theorem entryCounted_cht (d : Dev) (f : Machine.Frame) (s : Stream) : (d.entryCounted f s).cht = d.cht :=
  entryCounted_keeps cht (fun _ _ _ => rfl) (fun _ _ => count_cht _ _) (fun _ _ => rfl) (fun _ _ _ _ _ => rfl) d f s
theorem entryCounted_ports (d : Dev) (f : Machine.Frame) (s : Stream) : (d.entryCounted f s).ports = d.ports :=
  entryCounted_keeps ports (fun _ _ _ => rfl) (fun _ _ => count_ports _ _) (fun _ _ => rfl) (fun _ _ _ _ _ => rfl) d f s

/-- Queueing an entry that a ring writer waits for. -/
theorem queueEntry_awaited (d : Dev) (f : Machine.Frame) (s : Stream) (ha : d.entryAwaited f s = true) :
    d.queueEntry f s = (d.entryCounted f s).setClr fun _ => { d.clr with queue := d.clr.queue ++ [d.entryOf f s] } := by
  have ha' : (d.entryCounted f s).entryAwaited f s = true := by
    rw [entryAwaited, column_congr (entryCounted_cht d f s)]; exact ha
  rw [queueEntry_eq, ha', when_true, setClr, setClr, entryCounted_clr]

theorem queueEntry_clr (d : Dev) (f : Machine.Frame) (s : Stream) (ha : d.entryAwaited f s = true) :
    (d.queueEntry f s).clr = { d.clr with queue := d.clr.queue ++ [d.entryOf f s] } := by
  rw [queueEntry_awaited d f s ha, setClr_clr]

/-- Queueing changes registers as counting does. -/
theorem queueEntry_regs (d : Dev) (f : Machine.Frame) (s : Stream) : (d.queueEntry f s).regs = (d.entryCounted f s).regs := by
  rw [queueEntry_eq, when]; split <;> rfl
theorem queueEntry_ntq (d : Dev) (f : Machine.Frame) (s : Stream) : (d.queueEntry f s).ntq = (d.entryCounted f s).ntq := by
  rw [queueEntry_eq, when]; split <;> rfl
theorem queueEntry_cht (d : Dev) (f : Machine.Frame) (s : Stream) : (d.queueEntry f s).cht = d.cht := by
  rw [queueEntry_eq, when]; split <;> simp [entryCounted_cht]
theorem queueEntry_frames (d : Dev) (f : Machine.Frame) (s : Stream) : (d.queueEntry f s).clr.frames = d.clr.frames := by
  rw [queueEntry_eq, when]; split <;> simp [entryCounted_clr]

theorem queueEntry_ports (d : Dev) (f : Machine.Frame) (s : Stream) : (d.queueEntry f s).ports = d.ports := by
  rw [queueEntry_eq, when]; split <;> simp [entryCounted_ports]

/-- The second of two entries. -/
theorem queueEntry_twice_clr (d : Dev) {f : Machine.Frame} {s s' : Stream} (ha : d.entryAwaited f s = true) (ha' : d.entryAwaited f s' = true) :
    ((d.queueEntry f s).queueEntry f s').clr
      = { d.clr with queue := d.clr.queue ++ [d.entryOf f s, (d.queueEntry f s).entryOf f s'] } := by
  have haw : (d.queueEntry f s).entryAwaited f s' = true := by rw [entryAwaited, column_congr (queueEntry_cht d f s)]; exact ha'
  rw [queueEntry_clr _ _ _ haw, queueEntry_clr _ _ _ ha]
  simp

/-! #### Its registers -/

/-- ENTRY_SEQ of a head stands in CLR_SEQ and CLR_SEQ_HI. -/
theorem seqBits_spec {h : Nat} (hh : h < 16) (k : Nat) :
    0x800980 ≤ (seqBits h k).off ∧ (seqBits h k).off < 0x800A00 ∧ (seqBits h k).lo + (seqBits h k).w ≤ 32 ∧ (seqBits h k).w = 8 := by
  have h1 : CLR_SEQ.addr h = 0x800980 + h * 8 := rfl
  have h2 : CLR_SEQ_HI.addr h = 0x800984 + h * 8 := rfl
  have hoff : (seqBits h k).off = if k ≤ 3 then CLR_SEQ.addr h else CLR_SEQ_HI.addr h := rfl
  have hlo : (seqBits h k).lo = 8 * (k % 4) := rfl
  have hw : (seqBits h k).w = 8 := rfl
  refine ⟨?_, ?_, ?_, hw⟩
  · rw [hoff]; split <;> omega
  · rw [hoff]; split <;> omega
  · omega

/-- The ENTRY_SEQ of two KINDs share no bit. -/
theorem seqBits_apart (h : Nat) {k k' : Nat} (hk : k < 8) (hk' : k' < 8) (hne : k ≠ k') : apart (seqBits h k) (seqBits h k') := by
  have h1 : CLR_SEQ.addr h = 0x800980 + h * 8 := rfl
  have h2 : CLR_SEQ_HI.addr h = 0x800984 + h * 8 := rfl
  have hoff : ∀ k, (seqBits h k).off = if k ≤ 3 then CLR_SEQ.addr h else CLR_SEQ_HI.addr h := fun _ => rfl
  have hlo : ∀ k, (seqBits h k).lo = 8 * (k % 4) := fun _ => rfl
  have hw : ∀ k, (seqBits h k).w = 8 := fun _ => rfl
  unfold apart
  rw [hoff, hoff, hlo, hlo, hw, hw]
  split <;> split <;> omega

theorem countFlags_frame (d : Dev) (base : Nat) : Frame (fun a => 0x800A40 ≤ a ∧ a < 0x800AA0) d (d.countFlags base) :=
  (Frame.refl _ d).forEach _ _ fun b hb e => by
    have hb : b < 12 := List.mem_range.1 (List.mem_filter.1 hb).1
    have : CLR_FLAG_CNT.addr b = 0x800A40 + b * 8 := rfl
    exact (Frame.refl _ e).count (by omega) (by omega)

theorem entryFault_frame (d : Dev) (f : Machine.Frame) :
    Frame (fun a => a = CLR_FAULT_CNT.addr ∨ a = CLR_FAULT_CNT.addr + 4 ∨ a = CLR_FLAGS.addr) d (d.entryFault f) :=
  (((Frame.refl _ d).count (.inl rfl) (.inr (.inl rfl))).set1 (.inr (.inr rfl))).notice _ _ _ _

/-- What comes after the steps of ENTRY_SEQ and CLR_ENTRY_CNT touches neither. -/
theorem seqTaken_frame_queueEntry (d : Dev) (f : Machine.Frame) (s : Stream) :
    Frame (fun a => a = CLR_FAULT_CNT.addr ∨ a = CLR_FAULT_CNT.addr + 4 ∨ a = CLR_FLAGS.addr ∨ 0x800A40 ≤ a ∧ a < 0x800AA0)
      (d.seqTaken f s) (d.queueEntry f s) := by
  refine Frame.when' (e := d.entryCounted f s) _ _ ?_ fun _ => (Frame.refl _ _).setClr _
  exact ((Frame.refl _ _).when' _ _ fun _ => (entryFault_frame _ f).mono fun a h => by tauto).trans
    ((countFlags_frame _ _).mono fun a h => by tauto)

section
variable (d : Dev) (f : Machine.Frame) (s : Stream) (hh : f.head < 16)
include hh

/-- Queueing an entry changes registers of CLR alone. -/
theorem queueEntry_frame : Frame (fun a => a / 0x1_0000 = 0x80) d (d.queueEntry f s) := by
  obtain ⟨hlo, hhi, -⟩ := seqBits_spec hh (f.kind s)
  refine (((Frame.refl _ d).put _ (by omega)).count (by decide) (by decide)).trans
    ((seqTaken_frame_queueEntry d f s).mono fun a h => ?_)
  rcases h with rfl | rfl | rfl | h
  · decide
  · decide
  · decide
  · omega

/-- A field of the sequence registers keeps what taking the sequence number has left in it. -/
theorem queueEntry_get_seqBits (k : Nat) : (d.queueEntry f s).get (seqBits f.head k)
    = (d.put (seqBits f.head (f.kind s)) (d.get (seqBits f.head (f.kind s)) + 1)).get (seqBits f.head k) := by
  have hfault : CLR_FAULT_CNT.addr = 0x800A10 := rfl
  have hflags : CLR_FLAGS.addr = 0x800800 := rfl
  have hcount : CLR_ENTRY_CNT.addr = 0x800A00 := rfl
  obtain ⟨hlo, hhi, -⟩ := seqBits_spec hh k
  rw [(seqTaken_frame_queueEntry d f s).get (by omega), seqTaken, get_count_ne _ _ (by omega) (by omega)]

/-- ENTRY_SEQ steps modulo 256 (R222). -/
theorem queueEntry_seq : (d.queueEntry f s).get (seqBits f.head (f.kind s)) = (d.get (seqBits f.head (f.kind s)) + 1) % 256 := by
  obtain ⟨-, -, hfit, hw⟩ := seqBits_spec hh (f.kind s)
  rw [queueEntry_get_seqBits d f s hh, get_put_same _ _ _ hfit, hw]; rfl

/-- Each KIND has an ENTRY_SEQ of its own (R222). -/
theorem queueEntry_seq_ne {k : Nat} (hk : k < 8) (hne : f.kind s ≠ k) : (d.queueEntry f s).get (seqBits f.head k) = d.get (seqBits f.head k) := by
  obtain ⟨-, -, hfit, -⟩ := seqBits_spec hh (f.kind s)
  rw [queueEntry_get_seqBits d f s hh, get_put_apart _ _ _ _ hfit (seqBits_apart _ (f.kind_lt s) hk hne)]

theorem queueEntry_entries : (d.queueEntry f s).get64 CLR_ENTRY_CNT.addr = (d.get64 CLR_ENTRY_CNT.addr + 1) % 2 ^ 64 := by
  have hcount : CLR_ENTRY_CNT.addr = 0x800A00 := rfl
  obtain ⟨hlo, hhi, -⟩ := seqBits_spec hh (f.kind s)
  rw [(seqTaken_frame_queueEntry d f s).get64 (by decide) (by decide), seqTaken, get64_count_same, get64_put_ne _ _ _ (by omega) (by omega)]

theorem seqTaken_faults : (d.seqTaken f s).get64 CLR_FAULT_CNT.addr = d.get64 CLR_FAULT_CNT.addr := by
  have hfault : CLR_FAULT_CNT.addr = 0x800A10 := rfl
  obtain ⟨hlo, hhi, -⟩ := seqBits_spec hh (f.kind s)
  rw [seqTaken, get64_count_ne _ (by decide) (by decide) (by decide), get64_put_ne _ _ _ (by omega) (by omega)]

/-- An entry without a lasting error counts no fault and reports none. -/
theorem queueEntry_sound (hf : f.failsEntry s = false) :
    (d.queueEntry f s).ntq = d.ntq ∧ (d.queueEntry f s).get64 CLR_FAULT_CNT.addr = d.get64 CLR_FAULT_CNT.addr := by
  have h : d.entryCounted f s = (d.seqTaken f s).countFlags (d.frameFlags f (slice f.cfg.toNat 0 2)) := by
    rw [entryCounted, hf, when_false]
  rw [queueEntry_ntq, get64_congr (queueEntry_regs d f s), h]
  constructor
  · rw [countFlags_keeps ntq fun e a => count_ntq e a, seqTaken, count_ntq, put_ntq]
  · rw [(countFlags_frame _ _).get64 (by decide) (by decide), seqTaken_faults d f s hh]

/-- An entry completed under a lasting error is counted, flagged and pushed (R229). -/
theorem queueEntry_failed (hf : f.failsEntry s = true) :
    (d.queueEntry f s).is CLR_FLAGS.ENTRY_FAULT = true
      ∧ (d.queueEntry f s).get64 CLR_FAULT_CNT.addr = (d.get64 CLR_FAULT_CNT.addr + 1) % 2 ^ 64
      ∧ (d.queueEntry f s).ntq.input = d.ntq.input ++ [⟨.fault, idCLR, 0x010, word (f.head * 2 ^ 16 + f.tick % 2 ^ 16), d.time⟩] := by
  have h : d.entryCounted f s = ((d.seqTaken f s).entryFault f).countFlags (d.frameFlags f (slice f.cfg.toNat 0 2)) := by
    rw [entryCounted, hf, when_true]
  rw [queueEntry_ntq, is_congr (queueEntry_regs d f s), get64_congr (queueEntry_regs d f s), h]
  refine ⟨?_, ?_, ?_⟩
  · rw [is, (countFlags_frame _ _).get (by decide), ← is, entryFault, notice_is, is_set1_same _ _ rfl (by decide)]
  · rw [(countFlags_frame _ _).get64 (by decide) (by decide), entryFault, notice_get64,
      get64_set1_ne _ _ (by decide) (by decide), get64_count_same, seqTaken_faults d f s hh]
  · rw [countFlags_keeps ntq fun e a => count_ntq e a]
    simp [entryFault, seqTaken]

end

/-! #### What it holds -/

theorem get_lt (d : Dev) (g : Bits) : d.get g < 2 ^ g.w := Nat.mod_lt _ (Nat.two_pow_pos _)

section
variable (d : Dev) {f : Machine.Frame} (s : Stream) (hr : f.replay = none)
include hr

theorem entryOf_head : (d.entryOf f s).head = f.head := by simp only [entryOf, hr]
theorem entryOf_size : (d.entryOf f s).size = f.size := by simp only [entryOf, hr]

omit hr in
theorem entryOf_tick : (d.entryOf f s).tick = if ClrItem.tickNo ∈ f.failed then 2 ^ 64 - 1 else f.tick := by
  simp [entryOf, Frame.item]

variable {l : BandPart} (hl : f.lead = some l)
include hl

theorem entryOf_frameNo : (d.entryOf f s).frameNo = if ClrItem.frameNo ∈ f.failed then 2 ^ 64 - 1 else l.frameNo := by
  simp [entryOf, Frame.item, hr, hl]
theorem entryOf_expose : (d.entryOf f s).expose = if ClrItem.exposeTime ∈ f.failed then 2 ^ 64 - 1 else l.expose := by
  simp [entryOf, Frame.item, hr, hl]

omit hl
variable {c : EncCapture} (hc : f.enc = some c)
include hc

theorem entryOf_enc (i : Fin 4) :
    (d.entryOf f s).enc[i.val]? = some (if ClrItem.position i ∈ f.failed then 2 ^ 40 - 1 else c.pos.getD i.val 0) := by
  simp [entryOf, Frame.item, hr, hc]

/-- FLAGS of an entry (R220): the conditions; with FORMAT 2 the valid channels and ENTRY_SEQ; FAULT_ID under FAULT_MARKED. -/
theorem entryOf_flags (hflags : c.flags < 2 ^ 12) (hvalid : c.valid < 16) (hfault : f.faultId < 256) :
    slice (d.entryOf f s).flags 24 8 = (if slice f.cfg.toNat 0 2 = 2 then d.get (seqBits f.head (f.kind s)) else 0)
      ∧ slice (d.entryOf f s).flags 12 4 = (if slice f.cfg.toNat 0 2 = 2 then c.valid else 0)
      ∧ slice (d.entryOf f s).flags 16 8 = (if bit (d.entryOf f s).flags 5 then f.faultId else 0)
      ∧ (bit (d.entryOf f s).flags 3 = true ↔ d.lateStrike f = true ∨ bit f.flags 3 = true ∨ bit c.flags 3 = true) := by
  have hseq : d.get (seqBits f.head (f.kind s)) < 256 := get_lt d _
  obtain ⟨h24, h12, h16, hbit⟩ := flags_layout (d.conditions_lt f hflags)
    (valid := if slice f.cfg.toNat 0 2 = 2 then c.valid else 0) (fault := if bit (d.conditions f c) 5 then f.faultId else 0)
    (seq := if slice f.cfg.toNat 0 2 = 2 then d.get (seqBits f.head (f.kind s)) else 0)
    (by split <;> omega) (by split <;> omega) (by split <;> omega)
  have hsum : (d.entryOf f s).flags = d.conditions f c + (if slice f.cfg.toNat 0 2 = 2 then c.valid else 0) * 2 ^ 12
      + (if bit (d.conditions f c) 5 then f.faultId else 0) * 2 ^ 16
      + (if slice f.cfg.toNat 0 2 = 2 then d.get (seqBits f.head (f.kind s)) else 0) * 2 ^ 24 := by
    simp only [entryOf, frameFlags_live d hr hc, ite_mul, Nat.zero_mul]
  rw [hsum]
  refine ⟨h24, h12, ?_, ?_⟩
  · rw [h16, hbit 5 (by decide)]
  · rw [hbit 3 (by decide), bit3_conditions]

end

theorem entryOf_bytesFailed (d : Dev) {f : Machine.Frame} (s : Stream) (hf : f.failed = []) : (d.entryOf f s).bytesFailed = false := by
  simp [entryOf, Frame.failsBytes, hf]

/-! ### The entries of a frame (R226) -/

/-- Where no port holds a FRAME_START back, a frame that leaves the table lets none go on (R228). -/
theorem releaseTable_idle (d : Dev) (h : ∀ p : Fin 16, (d.port p).pk.held = []) : d.releaseTable = d := by
  have : ((List.range 16).filter fun p => !(d.port p).pk.held.isEmpty) = [] := by
    rw [List.filter_eq_nil_iff]
    intro p hp
    simp [h ⟨p, List.mem_range.1 hp⟩]
  rw [releaseTable, this]; rfl

/-- The table of frames is empty. -/
def tableEmptied (d : Dev) : Dev := (d.setClr fun x => { x with frames := [] }).put CLR_STAT.OPEN 0

section
variable (d : Dev) {h : Nat} {f : Machine.Frame} (hf : d.clr.frames = [f]) (hh : f.head = h) (hc : d.complete f = true)
include hf hh hc

theorem entryQueue_room (hroom : d.clr.queue.length + f.ordered.length ≤ d.clr.depth) (hheld : ∀ p : Fin 16, (d.port p).pk.held = []) :
    d.entryQueue h = (d.forEach f.ordered fun s d => d.queueEntry f s).tableEmptied := by
  have hfind : d.clr.frames.find? (·.head = h) = some f := by simp [hf, hh]
  have hlen := List.length_filter_le (d.entryAwaited f) f.ordered
  have hfull : ¬ d.clr.depth < d.clr.queue.length + (f.ordered.filter (d.entryAwaited f)).length := by omega
  have hframes : (d.forEach f.ordered fun s d => d.queueEntry f s).clr.frames = [f] :=
    (forEach_keeps (·.clr.frames) _ _ (fun s e => queueEntry_frames e f s) d).trans hf
  have hports : (d.forEach f.ordered fun s d => d.queueEntry f s).ports = d.ports :=
    forEach_keeps (·.ports) _ _ (fun s e => queueEntry_ports e f s) d
  unfold entryQueue
  rw [hfind]
  simp only [hc, hfull]
  generalize (d.forEach f.ordered fun s d => d.queueEntry f s) = e at *
  have hgone : e.clr.frames.filter (·.id != f.id) = [] := by simp [hframes]
  have hidle : ((e.setClr fun x => { x with frames := [] }).put CLR_STAT.OPEN 0).releaseTable = e.tableEmptied :=
    releaseTable_idle _ fun p => by rw [port, put_ports, setClr_ports, hports]; exact hheld p
  simpa [hgone] using hidle

omit hc in
theorem entryQueue_full (hawaited : ∀ s ∈ f.ordered, d.entryAwaited f s = true) (hfull : d.clr.depth < d.clr.queue.length + f.ordered.length) :
    d.entryQueue h = d := by
  have hfind : d.clr.frames.find? (·.head = h) = some f := by simp [hf, hh]
  unfold entryQueue
  rw [hfind]
  simp [List.filter_eq_self.2 hawaited, hfull]

end

/-! ### The device after one or two entries -/

theorem tableEmptied_frame (d : Dev) : Frame (fun a => a = CLR_STAT.addr) d d.tableEmptied := ((Frame.refl _ d).setClr _).put _ rfl

theorem tableEmptied_open (d : Dev) : d.tableEmptied.get CLR_STAT.OPEN = 0 := get_put_same _ CLR_STAT.OPEN 0 (by decide)
theorem tableEmptied_get (d : Dev) {g : Bits} (hg : g.off ≠ CLR_STAT.addr) : d.tableEmptied.get g = d.get g := (tableEmptied_frame d).get hg
theorem tableEmptied_get64 (d : Dev) {a : Nat} (h : a ≠ CLR_STAT.addr) (h' : a + 4 ≠ CLR_STAT.addr) : d.tableEmptied.get64 a = d.get64 a :=
  (tableEmptied_frame d).get64 h h'
theorem tableEmptied_is (d : Dev) {g : Bits} (hg : g.off ≠ CLR_STAT.addr) : d.tableEmptied.is g = d.is g := by rw [is, is, tableEmptied_get d hg]
@[simp] theorem tableEmptied_clr (d : Dev) : d.tableEmptied.clr = { d.clr with frames := [] } := rfl

/-- ENTRY_SEQ is not touched as the table is emptied. -/
theorem tableEmptied_seq (d : Dev) {h : Nat} (hh : h < 16) (k : Nat) : d.tableEmptied.get (seqBits h k) = d.get (seqBits h k) := by
  have hstat : CLR_STAT.addr = 0x800900 := rfl
  obtain ⟨hlo, -⟩ := seqBits_spec hh k
  exact tableEmptied_get d (by omega)

end Dev

theorem exec_ledgerEntryQueue (h : Fin 16) (s : State) (hs : s.Ready) :
    exec (.ledgerEntryQueue h) s = .next (s.settleTo (s.dev.entryQueue h)) := State.run_ready s (fun d => d.entryQueue h) hs

/-- A complete frame, the only one in the table, that has all its contributions from its own bands and whose streams ring writers await. -/
structure Dev.Closes (d : Dev) (h : Fin 16) (f : Machine.Frame) (l : BandPart) (c : EncCapture) : Prop where
  only : d.clr.frames = [f]
  head : f.head = h.val
  complete : d.complete f = true
  awaited : ∀ st ∈ f.streams, d.entryAwaited f st = true
  lead : f.lead = some l
  enc : f.enc = some c
  live : f.replay = none
  flags : c.flags < 2 ^ 12
  valid : c.valid < 16
  fault : f.faultId < 256
  held : ∀ p : Fin 16, (d.port p).pk.held = []

section
variable (s : State) (hs : s.Ready) {h : Fin 16} {f : Frame} {l : BandPart} {c : EncCapture} (hf : s.dev.Closes h f l c)
include hs hf

/-- A frame with one stream gives its entry and closes. -/
theorem exec_ledgerEntryQueue_single (st : Stream) (hst : f.streams = [st]) (hroom : s.dev.clr.queue.length < s.dev.clr.depth) :
    exec (.ledgerEntryQueue h) s = .next (s.settleTo (s.dev.queueEntry f st).tableEmptied) := by
  have hord := Frame.ordered_single hst
  rw [exec_ledgerEntryQueue h s hs, s.dev.entryQueue_room hf.only hf.head hf.complete (by rw [hord]; exact hroom) hf.held, hord]
  rfl

/-- A frame with two streams gives the entry of the lower KIND first. -/
theorem exec_ledgerEntryQueue_pair (st st' : Stream) (hst : f.streams = [st, st'] ∨ f.streams = [st', st]) (hlt : f.kind st < f.kind st')
    (hroom : s.dev.clr.queue.length + 2 ≤ s.dev.clr.depth) :
    exec (.ledgerEntryQueue h) s = .next (s.settleTo ((s.dev.queueEntry f st).queueEntry f st').tableEmptied) := by
  have hord := Frame.ordered_pair hst hlt
  rw [exec_ledgerEntryQueue h s hs, s.dev.entryQueue_room hf.only hf.head hf.complete (by rw [hord]; exact hroom) hf.held, hord]
  rfl

theorem exec_ledgerEntryQueue_full (st : Stream) (hst : f.streams = [st]) (hfull : s.dev.clr.depth ≤ s.dev.clr.queue.length) :
    exec (.ledgerEntryQueue h) s = .next s := by
  have hord := Frame.ordered_single hst
  rw [exec_ledgerEntryQueue h s hs, s.dev.entryQueue_full hf.only hf.head (by rw [hord, ← hst]; exact hf.awaited)
    (by rw [hord]; exact Nat.lt_succ_of_le hfull), State.settleTo_self s hs.2.2]

end

end Sys2Proof.Machine
end

section
/-! PROOFS. Errors of the clearing unit's items (R229, R417), and the clearing unit as a whole. -/

open Sys2Proof Sys2Proof.Machine

namespace Sys2Proof.Machine
namespace Dev

/-! ### The fault log (R417, R431) -/

theorem Frame.faultLog {P : Nat → Prop} {d e : Dev} (block : Nat) (action : Option Nat) (unit arg : Nat) (h : Frame P d e) :
    Frame P d (e.faultLog block action unit arg) := by
  unfold Dev.faultLog
  extract_lets a drawn m record logged
  have hdrawn : Frame P d drawn := by
    show Frame P d (if action.isNone then _ else _)
    split
    · exact h.draw
    · exact h
  exact (hdrawn.setMgt _).notice _ _ _ _

theorem faultLog_none (d : Dev) (block unit arg : Nat) : ∃ x,
    (d.faultLog block none unit arg).mgt.logCount = d.mgt.logCount + 1
      ∧ (d.faultLog block none unit arg).ntq.input = d.ntq.input ++ [⟨.info, idMGT, 0x020, x, d.time⟩]
      ∧ (d.faultLog block none unit arg).clr = d.clr ∧ (d.faultLog block none unit arg).stp = d.stp := ⟨_, rfl, rfl, rfl, rfl⟩

/-! ### Items that fail (R229) -/

/-- Whether a frame is complete depends on its contributions and on the strikes. -/
theorem complete_congr {d e : Dev} (h : e.stp = d.stp) (f : Machine.Frame) : e.complete f = d.complete f := by
  simp only [complete, lockOf, h]

theorem complete_marked_failed (d e : Dev) (f : Machine.Frame) (l : List ClrItem) (block : Nat) :
    d.complete (e.marked { f with failed := l } block) = d.complete f := rfl

section
variable (d : Dev) {h : Nat} {f : Machine.Frame} (hf : d.clr.frames = [f]) (hh : f.head = h)
include hf hh

theorem entryQueue_incomplete (hc : d.complete f = false) : d.entryQueue h = d := by
  have hfind : d.clr.frames.find? (·.head = h) = some f := by simp [hf, hh]
  unfold entryQueue
  rw [hfind]
  simp [hc]

/-- The open frames of a head are the one. -/
theorem frames_of_head : d.clr.frames.filter (·.head = h) = [f] := by simp [hf, hh]

theorem itemError_transient (i : ClrItem) : d.itemError h 0 i .transient = d.count CLR_TRANSIENT_CNT.addr := by
  unfold itemError; rw [frames_of_head d hf hh]; rfl

theorem itemError_beyond {n : Nat} (hn : 0 < n) (i : ClrItem) (o : Retry) : d.itemError h n i o = d := by
  have hnone : (d.clr.frames.filter (·.head = h))[n]? = none := by rw [frames_of_head d hf hh]; simp; omega
  unfold itemError; rw [hnone]

/-- The frame with an item that has failed, marked with CLR's block ID. -/
def itemFailed (d : Dev) (f : Machine.Frame) (i : ClrItem) : Dev :=
  (d.setFrame f.id fun g => { g with failed := i :: g.failed }).markFault f.id idCLR

omit hh in
theorem itemFailed_frames (i : ClrItem) : (d.itemFailed f i).clr.frames = [d.marked { f with failed := i :: f.failed } idCLR] :=
  markFault_frames (f := { f with failed := i :: f.failed }) _ (congrArg ClrState.frames (setFrame_single d hf _)) idCLR

/-- While contributions are still to come the entries wait for them (log entry 104). -/
theorem itemError_lasting (i : ClrItem) (hc : d.complete f = false) :
    d.itemError h 0 i .lasting = (d.itemFailed f i).faultLog idCLR none 0 0 := by
  obtain ⟨-, -, -, hclr, hstp⟩ := faultLog_none (d.itemFailed f i) idCLR 0 0
  have hwait : ((d.itemFailed f i).faultLog idCLR none 0 0).entryQueue h = (d.itemFailed f i).faultLog idCLR none 0 0 :=
    entryQueue_incomplete _ (f := d.marked { f with failed := i :: f.failed } idCLR)
      ((congrArg ClrState.frames hclr).trans (itemFailed_frames d hf i)) hh
      ((complete_congr (hstp.trans rfl) _).trans ((complete_marked_failed _ _ _ _ _).trans hc))
  unfold itemError
  rw [frames_of_head d hf hh]
  exact hwait

end
end Dev

theorem exec_clrItemError (h : Fin 16) (n : Nat) (i : ClrItem) (o : Retry) (s : State) (hs : s.Ready) :
    exec (.clrItemError h n i o) s = .next (s.settleTo (s.dev.itemError h n i o)) := State.run_ready s (fun d => d.itemError h n i o) hs

section
variable (s : State) (hs : s.Ready) (h : Fin 16) (i : ClrItem) (f : Frame) (hf : s.dev.clr.frames = [f]) (hh : f.head = h.val)
include hs hf hh

/-- An item that reads well again. -/
theorem exec_clrItemError_transient :
    ∃ t, exec (.clrItemError h 0 i .transient) s = .next t ∧ t.dev.clr = s.dev.clr
      ∧ t.dev.get64 CLR_TRANSIENT_CNT.addr = (s.dev.get64 CLR_TRANSIENT_CNT.addr + 1) % 2 ^ 64
      ∧ s.Keeps t fun a => a = CLR_TRANSIENT_CNT.addr ∨ a = CLR_TRANSIENT_CNT.addr + 4 := by
  have hexec := exec_clrItemError h 0 i .transient s hs
  rw [s.dev.itemError_transient hf hh] at hexec
  exact ⟨_, hexec, (Dev.count_clr s.dev CLR_TRANSIENT_CNT.addr :), (Dev.get64_count_same s.dev CLR_TRANSIENT_CNT.addr :),
    ((Dev.Frame.refl _ s.dev).count (.inl rfl) (.inr rfl)).keeps hs.2.2⟩

/-- An item of a frame that is not there. -/
theorem exec_clrItemError_beyond (n : Nat) (o : Retry) (hn : 0 < n) :
    ∃ t, exec (.clrItemError h n i o) s = .next t ∧ t.dev.clr = s.dev.clr ∧ s.Keeps t fun _ => False := by
  have hexec := exec_clrItemError h n i o s hs
  rw [s.dev.itemError_beyond hf hh hn] at hexec
  exact ⟨_, hexec, rfl, (Dev.Frame.refl _ s.dev).keeps hs.2.2⟩

/-- An item that fails twice while its frame is not complete. -/
theorem exec_clrItemError_lasting (hc : s.dev.complete f = false) :
    ∃ t x, exec (.clrItemError h 0 i .lasting) s = .next t
      ∧ t.dev.clr.frames = [s.dev.marked { f with failed := i :: f.failed } idCLR] ∧ t.dev.mgt.logCount = s.dev.mgt.logCount + 1
      ∧ t.dev.ntq.input = s.dev.ntq.input ++ [⟨.info, idMGT, 0x020, x, s.dev.time⟩] ∧ s.Keeps t fun _ => False := by
  obtain ⟨x, hcount, hinput, hclr, -⟩ := Dev.faultLog_none (s.dev.itemFailed f i) idCLR 0 0
  have hframe : Dev.Frame (fun _ => False) s.dev ((s.dev.itemFailed f i).faultLog idCLR none 0 0) :=
    (((Dev.Frame.refl _ _).setFrame _ _).markFault _ _).faultLog _ _ _ _
  have hframes := (congrArg ClrState.frames hclr).trans (s.dev.itemFailed_frames hf i)
  have hexec := exec_clrItemError h 0 i .lasting s hs
  rw [s.dev.itemError_lasting hf hh i hc] at hexec
  generalize (s.dev.itemFailed f i).faultLog idCLR none 0 0 = logged at *
  exact ⟨_, x, hexec, hframes, hcount, hinput, hframe.keeps hs.2.2⟩

end

/-! ### The entries of a frame, for the machine -/

namespace Dev

/-- The table empties after entries were queued: registers of CLR alone have changed since. -/
theorem Frame.tableEmptied {d e : Dev} (h : Frame (fun a => a / 0x1_0000 = 0x80) d e) : Frame (fun a => a / 0x1_0000 = 0x80) d e.tableEmptied :=
  h.trans ((tableEmptied_frame e).mono fun a ha => by subst ha; decide)

end Dev

section
variable (s : State) (hs : s.Ready) {h : Fin 16} {f : Frame} {l : BandPart} {c : EncCapture} (hf : s.dev.Closes h f l c)
include hs hf

/-- The one stream's entry: what it holds, and the machine once the frame has closed. -/
theorem ledgerEntryQueue_single (st : Stream) (hst : f.streams = [st]) (hroom : s.dev.clr.queue.length < s.dev.clr.depth) :
    let format := slice f.cfg.toNat 0 2
    let seq := s.dev.get (Dev.seqBits h (f.kind st))
    ∃ t e, exec (.ledgerEntryQueue h) s = .next t ∧ t.dev.clr = { s.dev.clr with frames := [], queue := s.dev.clr.queue ++ [e] }
      ∧ e.frame = f.id ∧ e.stream = st ∧ e.format = format ∧ e.kind = f.kind st ∧ e.head = h.val ∧ e.size = f.size
      ∧ e.frameNo = (if ClrItem.frameNo ∈ f.failed then 2 ^ 64 - 1 else l.frameNo)
      ∧ e.expose = (if ClrItem.exposeTime ∈ f.failed then 2 ^ 64 - 1 else l.expose)
      ∧ e.tick = (if ClrItem.tickNo ∈ f.failed then 2 ^ 64 - 1 else f.tick)
      ∧ (∀ i : Fin 4, e.enc[i.val]? = some (if ClrItem.position i ∈ f.failed then 2 ^ 40 - 1 else c.pos.getD i.val 0))
      ∧ slice e.flags 24 8 = (if format = 2 then seq else 0) ∧ slice e.flags 12 4 = (if format = 2 then c.valid else 0)
      ∧ (bit e.flags 3 = true ↔ s.dev.lateStrike f = true ∨ bit f.flags 3 = true ∨ bit c.flags 3 = true)
      ∧ slice e.flags 16 8 = (if bit e.flags 5 then f.faultId else 0)
      ∧ t.dev.get (Dev.seqBits h (f.kind st)) = (seq + 1) % 256
      ∧ t.dev.get64 CLR_ENTRY_CNT.addr = (s.dev.get64 CLR_ENTRY_CNT.addr + 1) % 2 ^ 64 ∧ t.dev.get CLR_STAT.OPEN = 0
      ∧ (f.failed = [] → e.bytesFailed = false ∧ t.dev.ntq = s.dev.ntq ∧ t.dev.get64 CLR_FAULT_CNT.addr = s.dev.get64 CLR_FAULT_CNT.addr)
      ∧ (f.failsEntry st = true → e.bytesFailed = f.failsBytes st ∧ t.dev.is CLR_FLAGS.ENTRY_FAULT = true
        ∧ t.dev.get64 CLR_FAULT_CNT.addr = (s.dev.get64 CLR_FAULT_CNT.addr + 1) % 2 ^ 64
        ∧ t.dev.ntq.input = s.dev.ntq.input ++ [⟨.fault, idCLR, 0x010, word (h.val * 2 ^ 16 + f.tick % 2 ^ 16), s.dev.time⟩])
      ∧ s.Keeps t fun a => a / 0x1_0000 = 0x80 := by
  intro format seq
  have hexec := exec_ledgerEntryQueue_single s hs hf st hst hroom
  obtain ⟨-, hhead, -, hawaited, hlead, henc, hlive, hflags, hvalid, hfault, -⟩ := hf
  have hh : f.head < 16 := hhead ▸ h.isLt
  obtain ⟨h24, h12, h16, h3⟩ := s.dev.entryOf_flags st hlive henc hflags hvalid hfault
  have hclr := s.dev.queueEntry_clr f st (hawaited st (by simp [hst]))
  have hseq := (s.dev.queueEntry f st).tableEmptied_seq hh (f.kind st)
  rw [s.dev.queueEntry_seq f st hh] at hseq
  rw [hhead] at h24 hseq
  have hentries := s.dev.queueEntry_entries f st hh
  have hsound : f.failed = [] → _ := fun hnone => s.dev.queueEntry_sound f st hh (by simp [Frame.failsEntry, hnone])
  have hfailed := s.dev.queueEntry_failed f st hh
  have hframe := (s.dev.queueEntry_frame f st hh).tableEmptied.keeps hs.2.2
  -- from here on the device with the entry queued is known by these facts alone
  generalize s.dev.queueEntry f st = queued at *
  refine ⟨_, s.dev.entryOf f st, hexec, ?_, rfl, rfl, rfl, rfl, ?_, s.dev.entryOf_size st hlive, s.dev.entryOf_frameNo st hlive hlead,
    s.dev.entryOf_expose st hlive hlead, s.dev.entryOf_tick st, s.dev.entryOf_enc st hlive henc, h24, h12, h3, h16, hseq, ?_,
    queued.tableEmptied_open, fun hnone => ?_, fun hfails => ?_, hframe⟩
  · exact queued.tableEmptied_clr.trans (by rw [hclr])
  · rw [s.dev.entryOf_head st hlive, hhead]
  · exact (queued.tableEmptied_get64 (by decide) (by decide)).trans hentries
  · obtain ⟨hntq, hcount⟩ := hsound hnone
    exact ⟨s.dev.entryOf_bytesFailed st hnone, hntq, (queued.tableEmptied_get64 (by decide) (by decide)).trans hcount⟩
  · obtain ⟨hflag, hcount, hinput⟩ := hfailed hfails
    rw [hhead] at hinput
    exact ⟨rfl, (queued.tableEmptied_is (by decide)).trans hflag, (queued.tableEmptied_get64 (by decide) (by decide)).trans hcount, hinput⟩

/-- The entries of two streams, the lower KIND first, each under the ENTRY_SEQ of its own KIND. -/
theorem ledgerEntryQueue_pair (st st' : Stream) (hst : f.streams = [st, st'] ∨ f.streams = [st', st]) (hlt : f.kind st < f.kind st')
    (hroom : s.dev.clr.queue.length + 2 ≤ s.dev.clr.depth) :
    let format := slice f.cfg.toNat 0 2
    let seq (st : Stream) := s.dev.get (Dev.seqBits h (f.kind st))
    ∃ t e e', exec (.ledgerEntryQueue h) s = .next t ∧ t.dev.clr = { s.dev.clr with frames := [], queue := s.dev.clr.queue ++ [e, e'] }
      ∧ e.stream = st ∧ e.kind = f.kind st ∧ e'.stream = st' ∧ e'.kind = f.kind st'
      ∧ slice e.flags 24 8 = (if format = 2 then seq st else 0) ∧ slice e'.flags 24 8 = (if format = 2 then seq st' else 0)
      ∧ t.dev.get64 CLR_ENTRY_CNT.addr = (s.dev.get64 CLR_ENTRY_CNT.addr + 2) % 2 ^ 64 ∧ s.Keeps t fun a => a / 0x1_0000 = 0x80 := by
  intro format seq
  have hexec := exec_ledgerEntryQueue_pair s hs hf st st' hst hlt hroom
  obtain ⟨-, hhead, -, hawaited, -, henc, hlive, hflags, hvalid, hfault, -⟩ := hf
  have hh : f.head < 16 := hhead ▸ h.isLt
  have hmem : st ∈ f.streams ∧ st' ∈ f.streams := by rcases hst with hst | hst <;> simp [hst]
  have hclr := s.dev.queueEntry_twice_clr (hawaited st hmem.1) (hawaited st' hmem.2)
  obtain ⟨hfirst, -⟩ := s.dev.entryOf_flags st hlive henc hflags hvalid hfault
  obtain ⟨hsecond, -⟩ := (s.dev.queueEntry f st).entryOf_flags st' hlive henc hflags hvalid hfault
  rw [s.dev.queueEntry_seq_ne f st hh (f.kind_lt st') (by omega)] at hsecond
  rw [hhead] at hfirst hsecond
  have hframe := ((s.dev.queueEntry_frame f st hh).trans ((s.dev.queueEntry f st).queueEntry_frame f st' hh)).tableEmptied.keeps hs.2.2
  refine ⟨_, s.dev.entryOf f st, (s.dev.queueEntry f st).entryOf f st', hexec, ?_, rfl, rfl, rfl, rfl, hfirst, hsecond, ?_, hframe⟩
  · exact (Dev.tableEmptied_clr _).trans (by rw [hclr])
  · refine (Dev.tableEmptied_get64 _ (by decide) (by decide)).trans ?_
    rw [(s.dev.queueEntry f st).queueEntry_entries f st' hh, s.dev.queueEntry_entries f st hh, Nat.mod_add_mod]

/-- Without room in the ledger queue the frame stays as it is. -/
theorem ledgerEntryQueue_full (st : Stream) (hst : f.streams = [st]) (hfull : s.dev.clr.depth ≤ s.dev.clr.queue.length) :
    ∃ t, exec (.ledgerEntryQueue h) s = .next t ∧ t.dev.clr = s.dev.clr ∧ s.Keeps t fun _ => False :=
  ⟨s, exec_ledgerEntryQueue_full s hs hf st hst hfull, rfl, rfl, fun _ => rfl, rfl, fun _ _ => rfl⟩

end
end Sys2Proof.Machine

/-- Settles O21: clause by clause, the capture of `encCapture`, the result of `resultAccept`, the entries of `queueEntry` in the order of
`Frame.ordered`, and the failed item of `itemError`. -/
theorem clearing : Obligations.Clearing := by
  intro s hs
  refine ⟨fun m0 m1 m2 m3 => ⟨exec_encCapture_exposure s hs m0 m1 m2 m3, exec_encCapture_waits s hs m0 m1 m2 m3,
      exec_encCapture_openFrame s hs m0 m1 m2 m3⟩,
    fun k r rest hr => ⟨exec_tellerResultAccept_awaited s hs k hr, exec_tellerResultAccept_orphan s hs k hr⟩,
    fun h f l c hf hh hc ha hl he hr hcf hcv hfi hp => ?_,
    fun h i f hf hh => ⟨exec_clrItemError_transient s hs h i f hf hh, exec_clrItemError_beyond s hs h i f hf hh,
      exec_clrItemError_lasting s hs h i f hf hh⟩⟩
  have hclose : s.dev.Closes h f l c :=
    ⟨hf, hh, hc, fun st hst => by rw [Dev.entryAwaited, hh]; exact ha st hst, hl, he, hr, hcf, hcv, hfi, hp⟩
  exact ⟨ledgerEntryQueue_single s hs hclose, fun st st' _ => ledgerEntryQueue_pair s hs hclose st st', ledgerEntryQueue_full s hs hclose⟩
end

section
/-! SUPPORT. Writes of registers that store what is written (R26-R28, R36): registers that no check, lock or apply keeps from taking a value, and
the word that a write past the gate stores. -/

open Sys2Proof Sys2Proof.Machine

namespace Sys2Proof.Machine

/-- The registers, by place, whose writes can be refused whole. -/
abbrev Refusable (a : Nat) : Prop :=
  (0x3_0100 ≤ a ∧ a < 0x3_0300) ∨ (0x5_0000 ≤ a ∧ a < 0x5_0600)
    ∨ (0x10_0000 ≤ a ∧ a < 0x20_0000 ∧ (a % 0x1_0000 = 0x04 ∨ a % 0x1_0000 = 0x18)) ∨ (0x40_0040 ≤ a ∧ a < 0x40_0080)
    ∨ (0x80_0100 ≤ a ∧ a < 0x80_0140) ∨ (0xA1_0000 ≤ a ∧ a < 0xA3_0000 ∧ a % 0x1000 < 0x800)

/-- The registers, by place, whose writes keep rules of their own. -/
abbrev SpecialWritten (a : Nat) : Prop :=
  a = CHT_ARM.addr ∨ a = DMA_OWNER.addr ∨ (0x50_0000 ≤ a ∧ a < 0x71_0000 ∧ a % 0x1000 = 0)
    ∨ (0xA1_0000 ≤ a ∧ a < 0xA3_0000 ∧ a % 0x1000 < 0x800) ∨ a = MGT_MBX_TX.addr 0 ∨ a = MGT_MBX_TX.addr 1

/-- Registers that take a value as it is written: the status half of a page, and of the configuration half the window sets, the nominal
position and tolerance of a channel, AVP_RANGE_ASYM, AVP_CMD_ADDR, NTQ_CTL and NTQ_ROUTE, DCT_LOCK, CAD_TIME_CTL and AUD_CTL. -/
abbrev Direct (a : Nat) : Prop :=
  (0x800 ≤ a % 0x1000 ∧ a ≠ MGT_MBX_TX.addr 0 ∧ a ≠ MGT_MBX_TX.addr 1) ∨ a = DCT_LOCK.addr ∨ a = CAD_TIME_CTL.addr ∨ a = AUD_CTL.addr
    ∨ (0x2_0100 ≤ a ∧ a < 0x2_0300) ∨ (0x6_0000 ≤ a ∧ a < 0x7_0000 ∧ a % 0x20 = 4)
    ∨ (0x10_0000 ≤ a ∧ a < 0x20_0000 ∧ (a % 0x1_0000 = 0x20 ∨ a % 0x1_0000 = 0x30)) ∨ (0xB0_0000 ≤ a ∧ a < 0xB0_0500)

/-- A mask of access codes that no field of the register has. -/
theorem RegRow.mask_none (row : RegRow) (p : Access → Bool) (h : ∀ f ∈ row.fields, p f.access = false) : row.mask p = 0 := by
  rw [Dev.RegRow.mask_congr row p (fun _ => false) h, RegRow.mask]
  generalize row.fields = l
  induction l with
  | nil => rfl
  | cons f l ih => simp

/-- A register without lockable fields. -/
abbrev RegRow.Unlocked (row : RegRow) : Prop := ∀ f ∈ row.fields, ∀ n, f.access ≠ .rwl n

/-- Registers whose writes act on no register beside their own. -/
abbrev Silent (a : Nat) : Prop :=
  (0x800 ≤ a % 0x1000 ∧ a ≠ MGT_MBX_TX.addr 0 ∧ a ≠ MGT_MBX_TX.addr 1 ∧ a ≠ VLT_RSEL.addr) ∨ a = DCT_LOCK.addr
    ∨ (0x2_0100 ≤ a ∧ a < 0x2_0300 ∧ a % 0x10 ≠ 0) ∨ (0x6_0000 ≤ a ∧ a < 0x7_0000 ∧ a % 0x20 = 4)
    ∨ (0x10_0000 ≤ a ∧ a < 0x20_0000 ∧ (a % 0x1_0000 = 0x20 ∨ a % 0x1_0000 = 0x30)) ∨ (0xB0_0100 ≤ a ∧ a < 0xB0_0500)

theorem Silent.direct {a : Nat} (h : Silent a) : Direct a := by
  rcases h with ⟨hst, h0, h1, -⟩ | h | ⟨hl, hu, -⟩ | h | h | ⟨hl, hu⟩
  · exact .inl ⟨hst, h0, h1⟩
  · exact .inr (.inl h)
  · exact .inr (.inr (.inr (.inr (.inl ⟨hl, hu⟩))))
  · exact .inr (.inr (.inr (.inr (.inr (.inl h)))))
  · exact .inr (.inr (.inr (.inr (.inr (.inr (.inl h))))))
  · exact .inr (.inr (.inr (.inr (.inr (.inr (.inr ⟨by omega, hu⟩))))))

namespace Dev

theorem not_direct_of_mem_stagedRegs : ∀ x ∈ stagedRegs, ¬ Direct x := by decide +kernel

/-! #### Where a write is refused whole, and where it keeps rules of its own -/

theorem wholeRefused_none {a : Nat} (h : ¬ Refusable a) (d : Dev) (new : Word) : d.wholeRefused a new = none := by
  have hevr : ¬ (0x3_0100 ≤ a ∧ a < 0x3_0300) := by omega
  have hstp : ¬ (0x5_0000 ≤ a ∧ a < 0x5_0600) := by omega
  have hcfg : 0x10_0000 ≤ a ∧ a < 0x20_0000 → a ≠ AVP_PORT_CFG.addr ((a - 0x10_0000) / 0x1_0000)
      ∧ a ≠ AVP_GANG_CFG.addr ((a - 0x10_0000) / 0x1_0000) := by
    simp only [AVP_PORT_CFG.addr, AVP_GANG_CFG.addr]; omega
  have hcht : ¬ (0x40_0040 ≤ a ∧ a < 0x40_0080) := by omega
  have hclr : ¬ (0x80_0100 ≤ a ∧ a < 0x80_0140) := by omega
  have hdma : 0xA1_0000 ≤ a ∧ a < 0xA3_0000 → 0x800 ≤ a % 0x1000 := by omega
  simp only [wholeRefused, Bool.and_eq_true, decide_eq_true_eq, hevr, hstp, hcht, hclr, if_false]
  split
  · next hp => simp [hcfg hp]
  · split
    · next hp =>
      have := hdma hp
      simp; omega
    · rfl

theorem specialWrite_none {a : Nat} (h : ¬ SpecialWritten a) (d : Dev) (old new cmd touch : Word) : d.specialWrite a old new cmd touch = none := by
  simp only [SpecialWritten, not_or] at h
  obtain ⟨harm, howner, hteller, hdma, htx⟩ := h
  rw [← and_assoc] at hteller
  have hoff : 0xA1_0000 ≤ a ∧ a < 0xA3_0000 → ¬ a % 0x1000 < 0xA4 ∧ ¬ a % 0x1000 < 0x38 := by omega
  simp only [specialWrite, Bool.and_eq_true, decide_eq_true_eq, harm, howner, hteller, htx, Bool.or_false, decide_false, if_false]
  split
  · next hp => simp [hoff hp]
  · rfl

section
variable {a : Nat} (h : Direct a)
include h

theorem isStaged_direct : isStaged a = false := by
  have hlist : a ∉ stagedRegs := fun hm => not_direct_of_mem_stagedRegs a hm h
  have hcad : a ≠ CAD_CTL.addr := by rintro rfl; revert h; decide
  have hmode : a ≠ DCT_MODE.addr := by rintro rfl; revert h; decide
  have harm : a ≠ CHT_ARM.addr := by rintro rfl; revert h; decide
  have hcol : ¬ (0x40_0100 ≤ a ∧ a < 0x40_0400) := by
    simp only [Direct, MGT_MBX_TX.addr, DCT_LOCK.addr, CAD_TIME_CTL.addr, AUD_CTL.addr] at h; omega
  simp [isStaged, hlist, hcad, hmode, harm]; omega

theorem wholeRefused_direct (d : Dev) (new : Word) : d.wholeRefused a new = none :=
  wholeRefused_none (by simp only [Direct, MGT_MBX_TX.addr, DCT_LOCK.addr, CAD_TIME_CTL.addr, AUD_CTL.addr] at h; omega) d new

theorem specialWrite_direct (d : Dev) (old new cmd touch : Word) : d.specialWrite a old new cmd touch = none :=
  specialWrite_none (by
    simp only [Direct, SpecialWritten, MGT_MBX_TX.addr, DCT_LOCK.addr, CAD_TIME_CTL.addr, AUD_CTL.addr, CHT_ARM.addr, DMA_OWNER.addr] at h ⊢
    omega) d old new cmd touch

/-- No field of the register has a check of its value. -/
theorem fieldChecks_direct (d : Dev) : ∀ c ∈ d.fieldChecks a, c.field.off ≠ a := by
  rcases h with ⟨hst, -⟩ | rfl | rfl | rfl | ⟨hl, hu⟩ | ⟨hl, hu, hm⟩ | ⟨hl, hu, hm⟩ | ⟨hl, hu⟩
  · rw [fieldChecks, if_pos hst]; exact List.forall_mem_nil _
  · exact List.forall_mem_cons.2 ⟨by decide, List.forall_mem_singleton.2 (by decide)⟩
  · show ∀ c ∈ [_, _, _, _, _], _
    simp only [List.forall_mem_cons]
    exact ⟨by decide, by decide, by decide, by decide, by decide, List.forall_mem_nil _⟩
  · exact List.forall_mem_nil _
  · rw [fieldChecks, if_neg (by omega), if_neg (by omega), if_pos (by omega)]
    refine List.forall_mem_cons.2 ⟨?_, List.forall_mem_singleton.2 ?_⟩ <;> (show HEP_LTR_CTL.addr ≠ a) <;> (unfold HEP_LTR_CTL.addr; omega)
  · have hctl : ∀ c, ENC_CH_CTL.addr c ≠ a := fun c => by unfold ENC_CH_CTL.addr; omega
    have hstill : ∀ c, ENC_CH_STILL.addr c ≠ a := fun c => by unfold ENC_CH_STILL.addr; omega
    by_cases hst : 0x800 ≤ a % 0x1000
    · rw [fieldChecks, if_pos hst]; exact List.forall_mem_nil _
    · rw [fieldChecks, if_neg hst, if_neg (by omega), if_neg (by omega), if_neg (by omega), if_neg (by omega), if_neg (by omega),
        if_pos (by omega)]
      show ∀ c ∈ [_, _, _, _, _], _
      simp only [List.forall_mem_cons]
      exact ⟨hctl _, hctl _, hctl _, hctl _, hstill _, List.forall_mem_nil _⟩
  · have hqual : ∀ p, AVP_QUAL_CTL.addr p ≠ a := fun p => by unfold AVP_QUAL_CTL.addr; omega
    have hgeom : ∀ p, AVP_GEOM_W.addr p ≠ a := fun p => by unfold AVP_GEOM_W.addr; omega
    have hrange : ∀ p, AVP_RANGE_CTL.addr p ≠ a := fun p => by unfold AVP_RANGE_CTL.addr; omega
    have htmo : ∀ p, AVP_FRAME_TMO.addr p ≠ a := fun p => by unfold AVP_FRAME_TMO.addr; omega
    rw [fieldChecks, if_neg (by omega), if_neg (by omega), if_neg (by omega), if_neg (by omega), if_neg (by omega), if_neg (by omega),
      if_neg (by omega), if_neg (by omega), if_neg (by simp; omega), if_neg (by simp; omega), if_pos (by simp; omega)]
    show ∀ c ∈ [_, _, _, _, _], _
    simp only [List.forall_mem_cons]
    exact ⟨hqual _, hqual _, hgeom _, hrange _, htmo _, List.forall_mem_nil _⟩
  · rw [fieldChecks, if_neg (by omega), if_neg (by omega), if_neg (by omega), if_neg (by omega), if_neg (by omega), if_neg (by omega),
      if_neg (by omega), if_neg (by omega), if_neg (by simp; omega), if_neg (by simp; omega), if_neg (by simp; omega), if_neg (by simp; omega),
      if_neg (by simp; omega), if_neg (by simp; omega)]
    exact List.forall_mem_nil _

theorem checked_direct (d : Dev) (old new : Word) : d.checked a old new = (d, new) := by
  have hoff := fieldChecks_direct h d
  unfold checked
  generalize d.fieldChecks a = l at hoff
  induction l with
  | nil => rfl
  | cons c l ih =>
    obtain ⟨hc, hl⟩ := List.forall_mem_cons.1 hoff
    simpa [hc] using ih hl

/-- A write past gate and locks: the word is stored, and the register's action runs. -/
theorem landWrite_direct (d : Dev) (old new cmd touch : Word) :
    d.landWrite a old new cmd touch = ((d.noteWrite a touch).setReg a new).writeHook a old new cmd touch := by
  have hpin : ¬ (0x7_0000 ≤ a ∧ a < 0x7_0100) := by
    simp only [Direct, MGT_MBX_TX.addr, DCT_LOCK.addr, CAD_TIME_CTL.addr, AUD_CTL.addr] at h; omega
  unfold landWrite
  rw [isStaged_direct h, wholeRefused_direct h, specialWrite_direct h, checked_direct h]
  simp [hpin]

end
/-! ### What a write does beside storing its value -/

theorem updateIntx_frame (P : Nat → Prop) (d : Dev) : Frame P d d.updateIntx := by
  unfold updateIntx
  extract_lets pend before cleared level
  have hcleared : Frame P d cleared := (Frame.refl P d).putCfgBit _ _ _
  split
  · exact hcleared
  · exact (hcleared.setHep _).emit _

namespace Frame
variable {P : Nat → Prop} {d : Dev}

/-- A choice between two operations, each with the frame where it is taken. -/
theorem ite {c : Prop} [Decidable c] {e g : Dev} (he : c → Frame P d e) (hg : ¬ c → Frame P d g) : Frame P d (if c then e else g) := by
  split
  · next h => exact he h
  · next h => exact hg h

/-- An operation whose condition does not hold. -/
theorem never {c : Bool} (f : Dev → Dev) (h : ¬ c = true) : Frame P d (d.when c f) :=
  (Frame.refl P d).when' c f fun hc => absurd hc h

end Frame

section
variable {a : Nat} (P : Nat → Prop) (d : Dev) (old new cmd touch : Word)

/-- The registers of a port's page whose writes act on nothing: all but PORT_CTL, GEOM_W, GEOM_H, GANG_CFG, CMD_CTL, URGENT and the lanes'. -/
theorem portHook_silent (h : 0x800 ≤ a % 0x1000 ∨ (0x10_0000 ≤ a ∧ (a % 0x1_0000 = 0x20 ∨ a % 0x1_0000 = 0x30))) :
    Frame P d (d.portHook a old new cmd) := by
  unfold portHook
  refine .ite (fun hc => absurd hc ?_) fun _ => .ite (fun hc => absurd hc ?_) fun _ => .ite (fun hc => absurd hc ?_) fun _ =>
    .ite (fun hc => absurd hc ?_) fun _ => .never _ ?_
  · unfold AVP_PORT_CTL.addr; omega
  · unfold AVP_CMD_CTL.addr; omega
  · unfold AVP_URGENT.addr; omega
  · simp only [Bool.or_eq_true, decide_eq_true_eq]; unfold AVP_GEOM_W.addr AVP_GEOM_H.addr AVP_GANG_CFG.addr; omega
  · simp only [Bool.and_eq_true, decide_eq_true_eq]; omega

theorem laneHook_silent (h : 0x800 ≤ a % 0x1000 ∨ (0x10_0000 ≤ a ∧ (a % 0x1_0000 = 0x20 ∨ a % 0x1_0000 = 0x30))) :
    d.laneHook a old new touch = d := by
  unfold laneHook
  rw [if_neg (by simp only [Bool.and_eq_true, decide_eq_true_eq]; omega), if_neg (by simp only [Bool.and_eq_true, decide_eq_true_eq]; omega)]

theorem chanHook_status (h : 0x800 ≤ a % 0x1000) : Frame P d (d.chanHook a cmd) := by
  unfold chanHook
  refine .ite (fun hc => absurd hc ?_) fun _ => .ite (fun hc => absurd hc ?_) fun _ => .ite (fun hc => absurd hc ?_) fun _ => .refl P d
  · unfold DMA_CH_CTL.addr; omega
  · unfold DMA_CH_SH_VALID.addr; omega
  · unfold DMA_CH_DRING_TAIL.addr; omega

/-- A write in the status half of a page, but for VLT_RSEL, acts on no register beside its own. -/
theorem writeHook_status (h : 0x800 ≤ a % 0x1000) (hr : a ≠ VLT_RSEL.addr) : Frame P d (d.writeHook a old new cmd touch) := by
  have hne : ∀ x, x % 0x1000 < 0x800 → a ≠ x := by rintro x hx rfl; omega
  have hport := portHook_silent P d old new cmd (.inl h)
  unfold writeHook
  rw [laneHook_silent d old new touch (.inl h)]
  refine .ite (fun _ => .never _ ?drain) fun _ =>
    .ite (fun _ => .ite (absurd · (hne _ (by decide))) fun _ => .ite (fun _ => updateIntx_frame P d) fun _ => .never _ ?window) fun _ =>
    .ite (fun _ => .ite (absurd · (by omega)) fun _ => .never _ ?channel) fun _ =>
    .ite (fun _ => .ite (absurd · (hne _ (by decide))) fun _ => .never _ ?disc) fun _ =>
    .ite (fun _ => .ite (absurd · ?arm) fun _ => .never _ ?disarm) fun _ =>
    .ite (fun _ => .never _ (by simpa using h)) fun _ => .ite (fun _ => hport) fun _ => .ite (fun _ => .refl P d) fun _ =>
    .ite (fun _ => .ite (absurd · (hne _ (by decide))) fun _ => .never _ ?column) fun _ =>
    .ite (fun _ => .ite (absurd · (hne _ (by decide))) fun _ => .ite (absurd · ?armRing) fun _ => .ite (absurd · (hne _ (by decide))) fun _ =>
      .never _ (by simpa using hr)) fun _ =>
    .ite (fun _ => chanHook_status P d cmd h) fun _ => .ite (absurd · ?queue) fun _ => .ite (absurd · ?slot) fun _ =>
    .ite (absurd · (hne _ (by decide))) fun _ => .ite (absurd · (hne _ (by decide))) fun _ =>
      .ite (absurd · (hne _ (by decide))) fun _ => .refl P d
  case drain => simp [hne DCT_DRAIN_LIMIT.addr (by decide)]
  case disc => simp [hne CAD_TIME_CTL.addr (by decide)]
  case arm => simp [hne STP_ARM_LO.addr (by decide), hne STP_ARM_HI.addr (by decide)]
  case disarm => simp [hne STP_DISARM_LO.addr (by decide), hne STP_DISARM_HI.addr (by decide)]
  case armRing => simp [hne VLT_ARM_LO.addr (by decide), hne VLT_ARM_HI.addr (by decide)]
  all_goals simp only [Bool.and_eq_true, decide_eq_true_eq]; omega

theorem fieldHook_check (h : a % 0x20 = 4) (hu : a < 0x7_0000) : d.fieldHook a old new cmd touch = d := by
  unfold fieldHook
  rw [if_pos hu]
  extract_lets i en
  rw [if_neg (by unfold ENC_CH_CTL.addr; omega), if_neg (by unfold ENC_CH_CMD.addr; omega)]

theorem writeHook_silent (h : Silent a) : Frame P d (d.writeHook a old new cmd touch) := by
  rcases h with ⟨hst, -, -, hr⟩ | rfl | ⟨hl, hu, hm⟩ | ⟨hl, hu, hm⟩ | ⟨hl, hu, hm⟩ | ⟨hl, hu⟩
  · exact writeHook_status P d old new cmd touch hst hr
  · exact .refl P d
  · unfold writeHook
    rw [if_neg (by omega), if_pos (by omega), if_neg (by unfold HEP_CONTAIN.addr; omega)]
    exact .ite (fun _ => updateIntx_frame P d) fun _ => .never _ (by simp [hm])
  · unfold writeHook
    rw [if_neg (by omega), if_neg (by omega), if_neg (by omega), if_neg (by omega), if_neg (by omega), if_pos (by omega)]
    exact (Frame.refl P d).when' _ _ fun _ => (fieldHook_check d old new cmd touch hm hu).symm ▸ .refl P d
  · unfold writeHook
    rw [if_neg (by omega), if_neg (by omega), if_neg (by omega), if_neg (by omega), if_neg (by omega), if_neg (by omega), if_pos (by omega),
      laneHook_silent d old new touch (.inr ⟨hl, hm⟩)]
    exact portHook_silent P d old new cmd (.inr ⟨hl, hm⟩)
  · unfold writeHook
    rw [if_neg (by omega), if_neg (by omega), if_neg (by omega), if_neg (by omega), if_neg (by omega), if_neg (by omega), if_neg (by omega),
      if_neg (by omega), if_neg (by simp; omega), if_neg (by simp; omega), if_neg (by simp; omega), if_neg (by simp; omega),
      if_neg (by simp; omega), if_neg (by unfold MGT_RCV_CTL.addr; omega), if_neg (by unfold AUD_CTL.addr; omega),
      if_neg (by unfold SEC_FUSE_CMD.addr; omega)]
    exact .refl P d
end

/-! ### The word that a write stores (R10, R27, R28, R35) -/

/-- The word that a write by access code leaves in a register without lockable fields: `val` in its RW and WO bits, and its W1C bits cleared
that are written 1 and that hardware has not set in the same cycle. -/
def storedWord (d : Dev) (a : Nat) (row : RegRow) (val ones' : Word) : Word :=
  let w := row.mask fun x => x = .rw || x = .wo
  ((d.reg a &&& ~~~w) ||| (val &&& w)) &&& ~~~(ones' &&& row.mask (· = .w1c) &&& ~~~d.setsOf a)

/-- Nothing stored, and nothing cleared. -/
theorem store_none (old val : Word) : (old &&& ~~~(0 : Word)) ||| (val &&& (0 : Word)) = old := by
  rw [show val &&& (0 : Word) = 0 by simp, show old &&& ~~~(0 : Word) = old from BitVec.and_allOnes]; simp

theorem clear_none (old ones' keep : Word) : old &&& ~~~(ones' &&& (0 : Word) &&& keep) = old := by
  rw [show ones' &&& (0 : Word) &&& keep = 0 by simp]; exact BitVec.and_allOnes

theorem regWrite_unlocked (d : Dev) (r : Requester) (off a : Nat) (val touch ones' : Word) {row : RegRow} (hrow : regRow a = some row)
    (hl : row.Unlocked) : d.regWrite r off a val touch ones' =
      d.landWrite a (d.reg a)
        (if a = DCT_LOCK.addr then d.storedWord a row val ones' ||| (ones' &&& row.mask (· = .w1s)) else d.storedWord a row val ones')
        (ones' &&& row.mask (· = .w1s)) (touch &&& ((row.mask fun x => x = .rw || x = .wo) ||| row.mask fun x => x = .w1c || x = .w1s)) := by
  have hlocks : row.mask d.locks = 0 := row.mask_none _ fun f hf => by
    have := hl f hf
    cases hacc : f.access <;> simp_all [locks]
  have hstores : row.mask d.stores = row.mask fun x => x = .rw || x = .wo := RegRow.mask_congr row _ _ fun f hf => by
    have := hl f hf
    cases hacc : f.access <;> simp_all [stores]
  rw [regWrite, hrow]
  have hnone : ∀ x : Word, (x &&& (0 : Word) != 0) = false := fun x => by simp
  simp only [hlocks, hstores, hnone, when_false, storedWord]

/-- The value, the bits written, and those written 1 to W1C and W1S fields, of a write of `data` with the byte enables `em`, through one of its
aliases, to a register that holds `old`. -/
def aliasWrite (k : Alias) (old em data : Word) : Word × Word × Word :=
  let x := data &&& em
  match k with
  | .plain => ((old &&& ~~~em) ||| x, em, x)
  | .set => (old ||| x, x, 0)
  | .clear => (old &&& ~~~x, x, 0)
  | .toggle => (old ^^^ x, x, 0)
  | .bit b =>
    let m := if em.getLsbD 0 then 1#32 <<< b else 0
    if data.getLsbD 0 then (old ||| m, m, m) else (old &&& ~~~m, m, 0)

/-- An admitted write reaches its register, through any of its aliases. -/
theorem busWrite_admitted (d : Dev) (r : Requester) (off : Nat) (data : Word) (be : Nat) {k : Alias} {a : Nat}
    (hk : aliasOf off = some (k, a)) (h : d.Admits r a) (hbe : word (beMask be) ≠ 0) :
    d.busWrite r off data be =
      let w := aliasWrite k (d.reg a) (word (beMask be)) data
      d.regWrite r off a w.1 w.2.1 w.2.2 := by
  have hblock : (blockOf off).isNone = false := by
    rw [aliasOf, Option.bind_eq_some_iff] at hk
    obtain ⟨b, hb, -⟩ := hk
    rw [hb]; rfl
  have hmem : (decide (r = .host) && d.hostUp && !d.memEnable) = false := by
    by_cases hr : r = .host
    · simp [h hr]
    · simp [hr]
  unfold busWrite
  simp only [hmem, hblock, hbe, hk, gatePassed_admitted d r off a _ _ _ h]
  cases k with
  | bit b => cases hd : data.getLsbD 0 <;> simp only [aliasWrite, hd, Bool.false_eq_true, decide_false, Bool.or_false, if_false, if_true]
  | _ => simp [aliasWrite]

/-- A write of no byte. -/
theorem busWrite_noBytes (d : Dev) (r : Requester) (off : Nat) (data : Word) (be : Nat) {a : Nat} (h : d.Admits r a)
    (hbe : word (beMask be) = 0) : d.busWrite r off data be = d := by
  have hmem : (decide (r = .host) && d.hostUp && !d.memEnable) = false := by
    by_cases hr : r = .host
    · simp [h hr]
    · simp [hr]
  unfold busWrite
  simp [hmem, hbe]

/-- A write that acts on nothing beside its register: the word it leaves there, and that it changes no other register. -/
theorem regWrite_silent (d : Dev) (r : Requester) (off : Nat) {a : Nat} (val touch ones' : Word) (h : Silent a) {row : RegRow}
    (hrow : regRow a = some row) (hl : row.Unlocked) :
    Frame (· = a) d (d.regWrite r off a val touch ones') ∧ (d.regWrite r off a val touch ones').reg a
      = if a = DCT_LOCK.addr then d.storedWord a row val ones' ||| (ones' &&& row.mask (· = .w1s)) else d.storedWord a row val ones' := by
  rw [regWrite_unlocked d r off a val touch ones' hrow hl, landWrite_direct h.direct]
  generalize (if a = DCT_LOCK.addr then _ else _) = new
  generalize touch &&& _ = touched, (ones' &&& row.mask (· = .w1s)) = cmd
  have hstored : Frame (· = a) d ((d.noteWrite a touched).setReg a new) := ((Frame.refl _ d).other rfl rfl rfl rfl).setReg new rfl
  have hhook := writeHook_silent (fun _ => False) ((d.noteWrite a touched).setReg a new) (d.reg a) new cmd touched h
  refine ⟨hstored.trans (hhook.mono fun _ => False.elim), ?_⟩
  obtain ⟨-, -, -, hreg⟩ := hhook
  rw [hreg a id, reg_setReg_same]

/-- A write of no byte leaves the value of a register as it is, through any of its aliases. -/
theorem aliasWrite_noBytes (k : Alias) (old data : Word) : (aliasWrite k old 0 data).1 = old := by
  have hones : old &&& 0xFFFFFFFF#32 = old := BitVec.and_allOnes
  cases k with
  | bit b => simp only [aliasWrite]; split <;> simp [hones]
  | _ => simp [aliasWrite, hones]

/-- A write of no byte writes no 1. -/
theorem aliasWrite_noBytes_ones (k : Alias) (old data : Word) : (aliasWrite k old 0 data).2.2 = 0 := by
  cases k with
  | bit b => simp only [aliasWrite]; split <;> simp
  | _ => simp [aliasWrite]

/-- Through the bit aliases the 1 of bit 0 is written to the bit, where the first byte is enabled. -/
theorem aliasWrite_bit_ones (i : Nat) (old em data : Word) :
    (aliasWrite (.bit i) old em data).2.2 = if (data &&& em).getLsbD 0 then 1#32 <<< i else 0 := by
  rw [BitVec.getLsbD_and, aliasWrite]
  cases data.getLsbD 0 <;> cases em.getLsbD 0 <;> rfl

end Dev

/-! ### The commands (R27, R28) -/

theorem exec_setAliasWrite (r : Requester) {off : BitVec 25} (data : Word) (be : BitVec 4) (s : State) {a : Nat}
    (hk : aliasOf off.toNat = some (.set, a)) :
    exec (.setAliasWrite r off data be) s = s.run fun d => d.busWrite r off.toNat data be.toNat := by
  show execSetAliasWrite r off data be s = _
  rw [execSetAliasWrite, hk]

theorem exec_clearAliasWrite (r : Requester) {off : BitVec 25} (data : Word) (be : BitVec 4) (s : State) {a : Nat}
    (hk : aliasOf off.toNat = some (.clear, a)) :
    exec (.clearAliasWrite r off data be) s = s.run fun d => d.busWrite r off.toNat data be.toNat := by
  show execClearAliasWrite r off data be s = _
  rw [execClearAliasWrite, hk]

theorem exec_toggleAliasWrite (r : Requester) {off : BitVec 25} (data : Word) (be : BitVec 4) (s : State) {a : Nat}
    (hk : aliasOf off.toNat = some (.toggle, a)) :
    exec (.toggleAliasWrite r off data be) s = s.run fun d => d.busWrite r off.toNat data be.toNat := by
  show execToggleAliasWrite r off data be s = _
  rw [execToggleAliasWrite, hk]

theorem exec_bitAliasWrite (r : Requester) {off : BitVec 25} (data : Word) (be : BitVec 4) (s : State) {i a : Nat}
    (hk : aliasOf off.toNat = some (.bit i, a)) :
    exec (.bitAliasWrite r off data be) s = s.run fun d => d.busWrite r off.toNat data be.toNat := by
  show execBitAliasWrite r off data be s = _
  rw [execBitAliasWrite, hk]

end Sys2Proof.Machine
end

section
/-! PROOFS. Registers: plain writes and writes through aliases, flags and lock bits, locked registers, and two-word reads (R26-R40, R57). -/

open Sys2Proof Sys2Proof.Machine

namespace Sys2Proof.Machine

/-! ### Ordinary registers (R26, R27, R36) -/

/-- What is known of the ordinary registers: they hold RW and RO fields, and where their aliases stand. -/
theorem plainRegs_spec : ∀ a ∈ plainRegs, (Silent a ∧ a ≠ DCT_LOCK.addr
    ∧ ((regRow a).all fun row => row.fields.all fun f => f.access = .rw || f.access = .ro) = true)
    ∧ aliasOf (BitVec.ofNat 25 a).toNat = some (.plain, a) ∧ aliasOf (BitVec.ofNat 25 (a + 0x1000)).toNat = some (.set, a)
    ∧ aliasOf (BitVec.ofNat 25 (a + 0x2000)).toNat = some (.clear, a)
    ∧ aliasOf (BitVec.ofNat 25 (a + 0x3000)).toNat = some (.toggle, a) := by decide +kernel

namespace Dev

/-- A write of an ordinary register, through any of its aliases: the value in its RW bits. -/
theorem busWrite_plain (d : Dev) (r : Requester) (data : Word) (be : Nat) {off a : Nat} {k : Alias} {row : RegRow} (ha : a ∈ plainRegs)
    (hrow : regRow a = some row) (h : d.Admits r a) (hk : aliasOf off = some (k, a)) :
    Frame (· = a) d (d.busWrite r off data be) ∧ (d.busWrite r off data be).reg a
      = (d.reg a &&& ~~~row.mask (· = .rw)) ||| ((aliasWrite k (d.reg a) (word (beMask be)) data).1 &&& row.mask (· = .rw)) := by
  obtain ⟨⟨hsilent, hlock, hall⟩, -⟩ := plainRegs_spec a ha
  have haccess : ∀ f ∈ row.fields, f.access = .rw ∨ f.access = .ro := by simpa [hrow] using hall
  by_cases hbe : word (beMask be) = 0
  · rw [busWrite_noBytes d r off data be h hbe, hbe, aliasWrite_noBytes]
    refine ⟨.refl _ d, ?_⟩
    ext i
    simp only [BitVec.getElem_or, BitVec.getElem_and, BitVec.getElem_not]
    cases (d.reg a)[i] <;> simp
  · have hl : row.Unlocked := fun f hf n => by rcases haccess f hf with he | he <;> simp [he]
    have hw1c : row.mask (· = .w1c) = 0 := row.mask_none _ fun f hf => by rcases haccess f hf with he | he <;> simp [he]
    have hrw : (row.mask fun x => x = .rw || x = .wo) = row.mask (· = .rw) :=
      RegRow.mask_congr row _ _ fun f hf => by rcases haccess f hf with he | he <;> simp [he]
    rw [busWrite_admitted d r off data be hk h hbe]
    obtain ⟨hframe, hreg⟩ := regWrite_silent d r off (aliasWrite k (d.reg a) (word (beMask be)) data).1
      (aliasWrite k (d.reg a) (word (beMask be)) data).2.1 (aliasWrite k (d.reg a) (word (beMask be)) data).2.2 hsilent hrow hl
    refine ⟨hframe, hreg.trans ?_⟩
    rw [if_neg hlock, storedWord, hrw, hw1c, clear_none]

end Dev

/-! #### The word that each of the aliases leaves -/

section
variable (old em rw data : Word)

theorem store_plain : (old &&& ~~~rw) ||| (((old &&& ~~~em) ||| (data &&& em)) &&& rw) = (old &&& ~~~(em &&& rw)) ||| (data &&& (em &&& rw)) := by
  ext i; simp only [BitVec.getElem_or, BitVec.getElem_and, BitVec.getElem_not]; cases old[i] <;> cases em[i] <;> cases rw[i] <;> simp

theorem store_set : (old &&& ~~~rw) ||| ((old ||| (data &&& em)) &&& rw) = old ||| (data &&& (em &&& rw)) := by
  ext i; simp only [BitVec.getElem_or, BitVec.getElem_and, BitVec.getElem_not]; cases old[i] <;> cases rw[i] <;> simp

theorem store_clear : (old &&& ~~~rw) ||| ((old &&& ~~~(data &&& em)) &&& rw) = old &&& ~~~(data &&& (em &&& rw)) := by
  ext i; simp only [BitVec.getElem_or, BitVec.getElem_and, BitVec.getElem_not]; cases old[i] <;> cases rw[i] <;> simp

theorem store_toggle : (old &&& ~~~rw) ||| ((old ^^^ (data &&& em)) &&& rw) = old ^^^ (data &&& (em &&& rw)) := by
  ext i; simp only [BitVec.getElem_or, BitVec.getElem_and, BitVec.getElem_not, BitVec.getElem_xor]; cases old[i] <;> cases rw[i] <;> simp

end

/-- A command that is a write on the bus, with what the write does. -/
theorem State.busWrite_answers {s : State} (hs : s.Ready) {i : Instr} {r : Requester} {off : Nat} {data : Word} {be a : Nat} {w : Word}
    (hexec : exec i s = s.run fun d => d.busWrite r off data be)
    (hw : Dev.Frame (· = a) s.dev (s.dev.busWrite r off data be) ∧ (s.dev.busWrite r off data be).reg a = w) :
    ∃ t, exec i s = .next t ∧ t.dev.reg a = w ∧ s.Keeps t (· = a) :=
  ⟨_, hexec.trans (State.run_ready s _ hs), hw.2, hw.1.keeps hs.2.2⟩

section
variable {s : State} (hs : s.Ready) (r : Requester) (data : Word) (be : BitVec 4) {a : Nat} {row : RegRow} (ha : a ∈ plainRegs)
  (hrow : regRow a = some row) (h : s.dev.Admits r a)
include hs ha hrow h

/-- A command that writes an ordinary register through one of its aliases, with the word that this leaves. -/
theorem aliasWrite_plain {i : Instr} {off : Nat} {k : Alias} {w : Word} (hexec : exec i s = s.run fun d => d.busWrite r off data be.toNat)
    (hk : aliasOf off = some (k, a)) (hw : (s.dev.reg a &&& ~~~row.mask (· = .rw))
      ||| ((Dev.aliasWrite k (s.dev.reg a) (word (Dev.beMask be.toNat)) data).1 &&& row.mask (· = .rw)) = w) :
    ∃ t, exec i s = .next t ∧ t.dev.reg a = w ∧ s.Keeps t (· = a) :=
  State.busWrite_answers hs hexec (hw ▸ s.dev.busWrite_plain r data be.toNat ha hrow h hk)

/-- A write of an ordinary register and of its three aliases (R26, R27). -/
theorem writes_plain : let m := word (Dev.beMask be.toNat) &&& row.mask (· = .rw)
    (∃ t, exec (.registerWrite r (BitVec.ofNat 25 a) data be) s = .next t ∧ t.dev.reg a = (s.dev.reg a &&& ~~~m) ||| (data &&& m)
      ∧ s.Keeps t (· = a))
    ∧ (∃ t, exec (.setAliasWrite r (BitVec.ofNat 25 (a + 0x1000)) data be) s = .next t ∧ t.dev.reg a = s.dev.reg a ||| (data &&& m)
      ∧ s.Keeps t (· = a))
    ∧ (∃ t, exec (.clearAliasWrite r (BitVec.ofNat 25 (a + 0x2000)) data be) s = .next t ∧ t.dev.reg a = s.dev.reg a &&& ~~~(data &&& m)
      ∧ s.Keeps t (· = a))
    ∧ ∃ t, exec (.toggleAliasWrite r (BitVec.ofNat 25 (a + 0x3000)) data be) s = .next t ∧ t.dev.reg a = s.dev.reg a ^^^ (data &&& m)
      ∧ s.Keeps t (· = a) := by
  obtain ⟨-, hplain, hset, hclear, htoggle⟩ := plainRegs_spec a ha
  exact ⟨aliasWrite_plain hs r data be ha hrow h (exec_registerWrite _ _ _ _ s) hplain (store_plain _ _ _ _),
    aliasWrite_plain hs r data be ha hrow h (exec_setAliasWrite r data be s hset) hset (store_set _ _ _ _),
    aliasWrite_plain hs r data be ha hrow h (exec_clearAliasWrite r data be s hclear) hclear (store_clear _ _ _ _),
    aliasWrite_plain hs r data be ha hrow h (exec_toggleAliasWrite r data be s htoggle) htoggle (store_toggle _ _ _ _)⟩

end

/-! ### Registers of RO, W1C and SNAP fields (R10, R28, R35) -/

/-- A register of the status half of a page that holds RO, W1C and SNAP fields alone. -/
structure IsStatus (a : Nat) (row : RegRow) : Prop where
  isRow : regRow a = some row
  half : 0x800 ≤ a % 0x1000
  access : ∀ f ∈ row.fields, f.access = .ro ∨ f.access = .w1c ∨ f.access = .snap

namespace IsStatus
variable {a : Nat} {row : RegRow} (h : IsStatus a row)
include h

/-- The two transmit FIFOs hold WO fields, VLT_RSEL an RW one. -/
theorem silent : Silent a := by
  have hfields : ¬ ∃ x, regRow a = some x ∧ ∃ f ∈ x.fields, f.access = .rw ∨ f.access = .wo := by
    rintro ⟨x, hx, f, hf, he⟩
    obtain rfl : row = x := Option.some.inj (h.isRow.symm.trans hx)
    rcases h.access f hf with ha | ha | ha <;> simp [ha] at he
  refine .inl ⟨h.half, ?_, ?_, ?_⟩ <;> rintro rfl <;> exact hfields ⟨_, rfl, _, List.mem_cons_self, by decide⟩

theorem unlocked : row.Unlocked := fun f hf n => by rcases h.access f hf with ha | ha | ha <;> simp [ha]

/-- No bit of the register takes a written value. -/
theorem storedWord (d : Dev) (val ones' : Word) :
    d.storedWord a row val ones' = d.reg a &&& ~~~(ones' &&& row.mask (· = .w1c) &&& ~~~d.setsOf a) := by
  have hrw : (row.mask fun x => x = .rw || x = .wo) = 0 := row.mask_none _ fun f hf => by rcases h.access f hf with ha | ha | ha <;> simp [ha]
  rw [Dev.storedWord, hrw, Dev.store_none]

/-- A write of the register, through any of its aliases: of those written 1 the W1C bits are cleared. -/
theorem busWrite (d : Dev) (r : Requester) (data : Word) (be : Nat) {off : Nat} {k : Alias} (hadm : d.Admits r a)
    (hk : aliasOf off = some (k, a)) :
    Dev.Frame (· = a) d (d.busWrite r off data be) ∧ (d.busWrite r off data be).reg a
      = d.reg a &&& ~~~((Dev.aliasWrite k (d.reg a) (word (Dev.beMask be)) data).2.2 &&& row.mask (· = .w1c) &&& ~~~d.setsOf a) := by
  by_cases hbe : word (Dev.beMask be) = 0
  · have hones : (Dev.aliasWrite k (d.reg a) 0 data).2.2 = 0 := Dev.aliasWrite_noBytes_ones k (d.reg a) data
    rw [Dev.busWrite_noBytes d r off data be hadm hbe, hbe, hones, show ∀ x y : Word, (0 : Word) &&& x &&& y = 0 from fun x y => by simp]
    exact ⟨.refl _ d, BitVec.and_allOnes.symm⟩
  · rw [Dev.busWrite_admitted d r off data be hk hadm hbe]
    obtain ⟨hframe, hreg⟩ := d.regWrite_silent r off (Dev.aliasWrite k (d.reg a) (word (Dev.beMask be)) data).1
      (Dev.aliasWrite k (d.reg a) (word (Dev.beMask be)) data).2.1 (Dev.aliasWrite k (d.reg a) (word (Dev.beMask be)) data).2.2 h.silent
      h.isRow h.unlocked
    have hlock : a ≠ DCT_LOCK.addr := by
      rintro rfl
      exact absurd h.half (by decide)
    exact ⟨hframe, by rw [hreg, if_neg hlock, h.storedWord]⟩

variable {s : State} (hs : s.Ready) (r : Requester) (hadm : s.dev.Admits r a) (data : Word) (be : BitVec 4)
include hs hadm

theorem registerWrite (ha : a < 2 ^ 25) (hk : aliasOf a = some (.plain, a)) :
    ∃ t, exec (.registerWrite r (BitVec.ofNat 25 a) data be) s = .next t
      ∧ t.dev.reg a = s.dev.reg a &&& ~~~(data &&& word (Dev.beMask be.toNat) &&& row.mask (· = .w1c) &&& ~~~s.dev.setsOf a)
      ∧ s.Keeps t (· = a) := by
  have hoff : (BitVec.ofNat 25 a).toNat = a := by rw [BitVec.toNat_ofNat]; exact Nat.mod_eq_of_lt ha
  exact State.busWrite_answers hs (exec_registerWrite _ _ _ _ s)
    (h.busWrite s.dev r data be.toNat (k := .plain) hadm (by rw [hoff]; exact hk))

theorem bitAliasWrite (off : BitVec 25) (i : Nat) (hk : aliasOf off.toNat = some (.bit i, a)) :
    ∃ t, exec (.bitAliasWrite r off data be) s = .next t
      ∧ t.dev.reg a = s.dev.reg a &&& ~~~((if (data &&& word (Dev.beMask be.toNat)).getLsbD 0 then 1#32 <<< i else 0)
          &&& row.mask (· = .w1c) &&& ~~~s.dev.setsOf a)
      ∧ s.Keeps t (· = a) := by
  rw [← Dev.aliasWrite_bit_ones i (s.dev.reg a)]
  exact State.busWrite_answers hs (exec_bitAliasWrite r data be s hk) (h.busWrite s.dev r data be.toNat hadm hk)

end IsStatus

/-- The bit aliases of DCT_FLAGS and of the ports' AVP_FLAGS (R28). -/
theorem aliasOf_flags : ∀ i : Fin 32, aliasOf (0x1_4000 + 4 * i.val) = some (.bit i, DCT_FLAGS.addr)
    ∧ ∀ p : Fin 16, aliasOf (0x10_0000 + 0x1_0000 * p.val + 0x4000 + 4 * i.val) = some (.bit i, AVP_FLAGS.addr p) := by decide +kernel

/-! ### Lock bits (R37, R38) -/

/-- The row of DCT_LOCK. -/
def lockRow : RegRow :=
  ⟨0x40, 1, 0x4, [⟨5, 5, .w1s, 0⟩, ⟨4, 4, .w1s, 0⟩, ⟨3, 3, .w1s, 0⟩, ⟨2, 2, .w1s, 0⟩, ⟨1, 1, .w1s, 0⟩, ⟨0, 0, .w1s, 0⟩]⟩

theorem regRow_lock : regRow DCT_LOCK.addr = some lockRow := by decide +kernel

theorem lockWrite {s : State} (hs : s.Ready) (r : Requester) (data : Word) (be : BitVec 4) (h : s.dev.Admits r DCT_LOCK.addr) :
    ∃ t, exec (.registerWrite r (BitVec.ofNat 25 DCT_LOCK.addr) data be) s = .next t
      ∧ t.dev.reg DCT_LOCK.addr = s.dev.reg DCT_LOCK.addr ||| (data &&& word (Dev.beMask be.toNat) &&& 0x3F#32)
      ∧ s.Keeps t (· = DCT_LOCK.addr) := by
  refine State.busWrite_answers hs (exec_registerWrite _ _ _ _ s) ?_
  by_cases hbe : word (Dev.beMask be.toNat) = 0
  · rw [Dev.busWrite_noBytes s.dev r _ data be.toNat h hbe, hbe]
    exact ⟨.refl _ _, by simp⟩
  · rw [Dev.busWrite_admitted s.dev r _ data be.toNat (k := .plain) (a := DCT_LOCK.addr) (by decide +kernel) h hbe]
    obtain ⟨hframe, hreg⟩ := s.dev.regWrite_silent r (BitVec.ofNat 25 DCT_LOCK.addr).toNat
      ((s.dev.reg DCT_LOCK.addr &&& ~~~word (Dev.beMask be.toNat)) ||| (data &&& word (Dev.beMask be.toNat))) (word (Dev.beMask be.toNat))
      (data &&& word (Dev.beMask be.toNat)) (.inr (.inl rfl)) regRow_lock
      (by simp [RegRow.Unlocked, lockRow])
    refine ⟨hframe, hreg.trans ?_⟩
    have hmask : lockRow.mask (fun x => x = .rw || x = .wo) = 0 ∧ lockRow.mask (· = .w1c) = 0 ∧ lockRow.mask (· = .w1s) = 0x3F#32 := by decide
    obtain ⟨hrw, hw1c, hw1s⟩ := hmask
    rw [if_pos rfl, Dev.storedWord, hrw, hw1c, hw1s, Dev.store_none, Dev.clear_none]

/-! ### Locked registers (R37, R38, R40) -/

/-- Where the registers of `lockedRegs` stand. -/
abbrev Lockable (a : Nat) : Prop :=
  (0x20_0100 ≤ a ∧ a < 0x20_0140) ∨ a = 0x90_0654 ∨ (0x7_0000 ≤ a ∧ a < 0x7_0100 ∧ a % 0x10 = 4) ∨ a = SEC_FUSE_DATA.addr
    ∨ a = SEC_CFG.addr ∨ (0x50_0000 ≤ a ∧ a < 0x71_0000 ∧ a % 0x1000 = 0)

/-- The registers that a violation changes are not among them. -/
theorem Lockable.notViolation {a : Nat} (h : Lockable a) :
    ¬ (a = DCT_FLAGS.addr ∨ a = DCT_VIOL_ADDR.addr ∨ a = DCT_LOCK_VIOL_CNT.addr ∨ a = DCT_LOCK_VIOL_CNT.addr + 4) := by
  simp only [Lockable, SEC_FUSE_DATA.addr, SEC_CFG.addr] at h
  unfold DCT_FLAGS.addr DCT_VIOL_ADDR.addr DCT_LOCK_VIOL_CNT.addr
  omega

/-- The lockable registers: the operand that names each, and that its fields are all of its lock group. -/
theorem lockedRegs_spec : ∀ e ∈ lockedRegs, Lockable e.1 ∧ (BitVec.ofNat 25 e.1).toNat = e.1 ∧ aliasOf e.1 = some (.plain, e.1)
    ∧ ((regRow e.1).all fun row => row.fields.all fun f => f.access = .rwl e.2) = true := by decide +kernel

theorem not_lockable_of_mem_stagedRegs : ∀ x ∈ Dev.stagedRegs, ¬ Lockable x := by decide +kernel

namespace Dev

/-- The word a register holds, stored again: a pin drives what it drove. -/
theorem withDrive_setReg_self (d : Dev) (p a : Nat) : d.withDrive p (fun e => e.setReg a (d.reg a)) = d.setReg a (d.reg a) := by
  have hdrive : (d.setReg a (d.reg a)).pinDrive p = d.pinDrive p := by simp only [pinDrive, get_setReg_self, is_setReg_self, bitOf_setReg_self]
  unfold withDrive
  simp only [hdrive, if_true]

section
variable {a : Nat} (h : Lockable a) (d : Dev)
include h

theorem isStaged_lockable : isStaged a = false := by
  have hlist : a ∉ stagedRegs := fun hm => not_lockable_of_mem_stagedRegs a hm h
  simp only [Lockable, SEC_FUSE_DATA.addr, SEC_CFG.addr] at h
  have hother : a ≠ CAD_CTL.addr ∧ a ≠ DCT_MODE.addr ∧ a ≠ CHT_ARM.addr := by unfold CAD_CTL.addr DCT_MODE.addr CHT_ARM.addr; omega
  simp [isStaged, hlist, hother]; omega

/-- A write that changes no bit acts on nothing. -/
theorem writeHook_lockable (old : Word) (hteller : ¬ (0x50_0000 ≤ a ∧ a < 0x71_0000 ∧ a % 0x1000 = 0)) : d.writeHook a old old 0 0 = d := by
  simp only [Lockable, SEC_FUSE_DATA.addr, SEC_CFG.addr] at h
  unfold writeHook
  rcases h with ⟨hl, hu⟩ | rfl | ⟨hl, hu, hm⟩ | rfl | rfl | h
  · rw [if_neg (by omega), if_neg (by omega), if_neg (by omega), if_neg (by omega), if_neg (by omega), if_neg (by omega), if_neg (by omega),
      if_pos (by omega), laneHook, if_pos (by simp; omega)]
    simp
  · rfl
  · rw [if_neg (by omega), if_neg (by omega), if_neg (by omega), if_neg (by omega), if_neg (by omega), if_pos (by omega)]
    have hfield : d.fieldHook a old old 0 0 = d := by
      rw [fieldHook, if_neg (by omega)]
      have hgains : (decide (old = 0#32) && old != 0#32) = false := by by_cases hold : old = 0#32 <;> simp [hold]
      simp [Bool.and_assoc, hgains]
    cases decide (a % 0x1000 < 0x800)
    · rfl
    · exact hfield
  · rfl
  · rfl
  · exact absurd h hteller

/-- A write that stores nothing in a lockable register: at most its word is stored again. -/
theorem landWrite_lockable : d.landWrite a (d.reg a) (d.reg a) 0 0 = d
    ∨ d.landWrite a (d.reg a) (d.reg a) 0 0 = (d.noteWrite a 0).setReg a (d.reg a) := by
  have hrefuse : ¬ Refusable a := by simp only [Lockable, SEC_FUSE_DATA.addr, SEC_CFG.addr] at h; omega
  unfold landWrite
  rw [isStaged_lockable h, wholeRefused_none hrefuse]
  by_cases hteller : 0x50_0000 ≤ a ∧ a < 0x71_0000 ∧ a % 0x1000 = 0
  · left
    obtain ⟨hl, hu, hm⟩ := hteller
    have harm : a ≠ CHT_ARM.addr := by unfold CHT_ARM.addr; omega
    have howner : a ≠ DMA_OWNER.addr := by unfold DMA_OWNER.addr; omega
    have hchan : ¬ (0xA1_0000 ≤ a ∧ a < 0xA3_0000) := by omega
    simp [specialWrite, harm, howner, hchan, hl, hu, hm]
  · right
    have hspecial : ¬ SpecialWritten a := by
      simp only [Lockable, SpecialWritten, SEC_FUSE_DATA.addr, SEC_CFG.addr, CHT_ARM.addr, DMA_OWNER.addr, MGT_MBX_TX.addr] at h ⊢
      omega
    have hhook := writeHook_lockable h ((d.noteWrite a 0).setReg a (d.reg a)) (d.reg a) hteller
    rw [specialWrite_none hspecial, checked_same]
    have hdrive : ∀ p, (d.noteWrite a 0).withDrive p (fun e => e.setReg a (d.reg a)) = (d.noteWrite a 0).setReg a (d.reg a) :=
      fun p => withDrive_setReg_self (d.noteWrite a 0) p a
    simp only [hdrive, ite_self, Bool.false_and, Bool.false_eq_true, if_false, hhook]

/-- Such a write is not seen in any register. -/
theorem landWrite_lockable_kept : Frame (fun _ => False) d (d.landWrite a (d.reg a) (d.reg a) 0 0)
    ∧ (d.landWrite a (d.reg a) (d.reg a) 0 0).ntq = d.ntq := by
  obtain hland | hland := landWrite_lockable h d
  · exact hland.symm ▸ ⟨.refl _ d, rfl⟩
  · exact hland.symm ▸ ⟨((Frame.refl _ d).other (g := d.noteWrite a 0) rfl rfl rfl rfl).setReg_self a, rfl⟩

end

/-! #### The violation (R40) -/

section
variable (d : Dev) (r : Requester) (off : Nat)

/-- The device once DCT_VIOL_ADDR has taken the violation, if it is the first. -/
def violNoted : Dev := d.when (!d.is DCT_FLAGS.LOCK_VIOL) fun d => (d.put DCT_VIOL_ADDR.ADDR off).put DCT_VIOL_ADDR.REQ r.code

theorem lockViolation_eq : d.lockViolation r off = (((d.violNoted r off).set1 DCT_FLAGS.LOCK_VIOL).count DCT_LOCK_VIOL_CNT.addr).notice .alert
    (((blockOf off).map fun b => b.idOf off).getD 0) 0x001 off := rfl

theorem violNoted_frame : Frame (· = DCT_VIOL_ADDR.addr) d (d.violNoted r off) := by
  unfold violNoted
  have hrefl : Frame (· = DCT_VIOL_ADDR.addr) d d := .refl _ d
  exact hrefl.when' _ _ fun _ => (hrefl.put _ rfl).put _ rfl

theorem violNoted_ntq : (d.violNoted r off).ntq = d.ntq := by
  unfold violNoted
  cases d.is DCT_FLAGS.LOCK_VIOL <;> simp

theorem lockViolation_frame : Frame (fun x => x = DCT_FLAGS.addr ∨ x = DCT_VIOL_ADDR.addr ∨ x = DCT_LOCK_VIOL_CNT.addr
    ∨ x = DCT_LOCK_VIOL_CNT.addr + 4) d (d.lockViolation r off) :=
  ((((violNoted_frame d r off).mono fun _ h => .inr (.inl h)).set1 (.inl rfl)).count (.inr (.inr (.inl rfl))) (.inr (.inr (.inr rfl)))).notice _ _ _ _

theorem lockViolation_regs : (d.lockViolation r off).regs = (((d.violNoted r off).set1 DCT_FLAGS.LOCK_VIOL).count DCT_LOCK_VIOL_CNT.addr).regs := by
  rw [lockViolation_eq, notice_regs]

theorem lockViolation_flag : (d.lockViolation r off).is DCT_FLAGS.LOCK_VIOL = true := by
  rw [is_congr (lockViolation_regs d r off), is, get_count_ne _ _ (by decide) (by decide), ← is, is_set1_same _ _ rfl (by decide)]

theorem lockViolation_otherFlags {i : Nat} (hi : i ≠ 0) : (d.lockViolation r off).bitOf DCT_FLAGS.addr i = d.bitOf DCT_FLAGS.addr i := by
  obtain ⟨-, -, -, hreg⟩ := violNoted_frame d r off
  rw [bitOf_congr (lockViolation_regs d r off), bitOf, reg_count_ne _ (by decide) (by decide), ← bitOf,
    show DCT_FLAGS.addr = DCT_FLAGS.LOCK_VIOL.off from rfl, bitOf_set1_ne _ _ rfl (by decide) hi, bitOf, bitOf, hreg _ (by decide)]

theorem lockViolation_counts : (d.lockViolation r off).get64 DCT_LOCK_VIOL_CNT.addr = (d.get64 DCT_LOCK_VIOL_CNT.addr + 1) % 2 ^ 64 := by
  rw [get64_congr (lockViolation_regs d r off), get64_count_same, get64_set1_ne _ _ (by decide) (by decide),
    (violNoted_frame d r off).get64 (by decide) (by decide)]

theorem lockViolation_reg_violAddr : (d.lockViolation r off).reg DCT_VIOL_ADDR.addr = (d.violNoted r off).reg DCT_VIOL_ADDR.addr := by
  rw [lockViolation_eq, notice_reg, reg_count_ne _ (by decide) (by decide)]
  exact reg_put_ne _ _ _ (by decide)

theorem code_lt (r : Requester) : r.code < 4 := by cases r <;> decide

/-- The first violation is recorded, a later one is not. -/
theorem lockViolation_violAddr (hoff : off < 2 ^ 25) :
    if d.is DCT_FLAGS.LOCK_VIOL = true then (d.lockViolation r off).reg DCT_VIOL_ADDR.addr = d.reg DCT_VIOL_ADDR.addr
    else (d.lockViolation r off).get DCT_VIOL_ADDR.ADDR = off ∧ (d.lockViolation r off).get DCT_VIOL_ADDR.REQ = r.code := by
  have hget : ∀ f : Bits, f.off = DCT_VIOL_ADDR.addr → (d.lockViolation r off).get f = (d.violNoted r off).get f := fun f hf => by
    rw [get, get, hf, lockViolation_reg_violAddr]
  split
  · next hv => rw [lockViolation_reg_violAddr, violNoted, hv]; rfl
  · next hv =>
    have hnoted : d.violNoted r off = (d.put DCT_VIOL_ADDR.ADDR off).put DCT_VIOL_ADDR.REQ r.code := by simp [violNoted, hv]
    rw [hget _ rfl, hget _ rfl, hnoted, get_put_same _ _ _ (by decide), get_put_apart _ _ _ _ (by decide) (.inr (.inr (by decide))),
      get_put_same _ _ _ (by decide)]
    exact ⟨Nat.mod_eq_of_lt hoff, Nat.mod_eq_of_lt (code_lt r)⟩

theorem lockViolation_input {b : BlockRow} (hb : blockOf off = some b) :
    (d.lockViolation r off).ntq.input = d.ntq.input ++ [⟨.alert, b.idOf off, 0x001, word off, d.time⟩] := by
  obtain ⟨-, htime, -⟩ := violNoted_frame d r off
  rw [lockViolation_eq, notice_input, hb]
  simp [violNoted_ntq, htime]

end

/-- A write of a locked register: a violation, and the word stays. -/
theorem regWrite_locked (d : Dev) (r : Requester) (off : Nat) {a n : Nat} (val touch ones' : Word) {row : RegRow} (h : Lockable a)
    (hrow : regRow a = some row) (hall : ∀ f ∈ row.fields, f.access = .rwl n) (hn : d.bitOf DCT_LOCK.addr n = true)
    (ht : touch &&& row.mask (fun _ => true) ≠ 0) :
    d.regWrite r off a val touch ones' = (d.lockViolation r off).landWrite a ((d.lockViolation r off).reg a) ((d.lockViolation r off).reg a) 0 0 := by
  have hlocks : row.mask d.locks = row.mask (fun _ => true) := RegRow.mask_congr row _ _ fun f hf => by simp [hall f hf, locks, hn]
  have hstores : row.mask d.stores = 0 := row.mask_none _ fun f hf => by simp [hall f hf, stores, hn]
  have hw1c : row.mask (· = .w1c) = 0 := row.mask_none _ fun f hf => by simp [hall f hf]
  have hw1s : row.mask (· = .w1s) = 0 := row.mask_none _ fun f hf => by simp [hall f hf]
  have hboth : (row.mask fun x => x = .w1c || x = .w1s) = 0 := row.mask_none _ fun f hf => by simp [hall f hf]
  have hlock : a ≠ DCT_LOCK.addr := by rintro rfl; revert h; decide
  have hviol : (touch &&& row.mask (fun _ => true) != 0) = true := bne_iff_ne.2 ht
  rw [regWrite, hrow]
  simp only [hlocks, hstores, hw1c, hw1s, hboth, hlock, hviol, when_true, store_none, clear_none, if_false]
  congr 1 <;> simp

end Dev
/-- A write of a locked register, as the machine makes it. -/
theorem registerWrite_locked {s : State} (hs : s.Ready) (r : Requester) (data : Word) (be : BitVec 4) {a n : Nat} {row : RegRow} {b : BlockRow}
    (ha : (a, n) ∈ lockedRegs) (hrow : regRow a = some row) (hb : blockOf a = some b) (h : s.dev.Admits r a)
    (hn : s.dev.bitOf DCT_LOCK.addr n = true) (ht : word (Dev.beMask be.toNat) &&& row.mask (fun _ => true) ≠ 0) :
    ∃ t, exec (.registerWrite r (BitVec.ofNat 25 a) data be) s = .next t ∧ t.dev.reg a = s.dev.reg a
      ∧ t.dev.is DCT_FLAGS.LOCK_VIOL = true ∧ (∀ i, i ≠ 0 → t.dev.bitOf DCT_FLAGS.addr i = s.dev.bitOf DCT_FLAGS.addr i)
      ∧ t.dev.get64 DCT_LOCK_VIOL_CNT.addr = (s.dev.get64 DCT_LOCK_VIOL_CNT.addr + 1) % 2 ^ 64
      ∧ (if s.dev.is DCT_FLAGS.LOCK_VIOL = true then t.dev.reg DCT_VIOL_ADDR.addr = s.dev.reg DCT_VIOL_ADDR.addr
        else t.dev.get DCT_VIOL_ADDR.ADDR = a ∧ t.dev.get DCT_VIOL_ADDR.REQ = r.code)
      ∧ t.dev.ntq.input = s.dev.ntq.input ++ [⟨.alert, b.idOf a, 0x001, word a, s.dev.time⟩]
      ∧ s.Keeps t fun x => x = DCT_FLAGS.addr ∨ x = DCT_VIOL_ADDR.addr ∨ x = DCT_LOCK_VIOL_CNT.addr ∨ x = DCT_LOCK_VIOL_CNT.addr + 4 := by
  obtain ⟨hplace, hoff, hk, hall⟩ := lockedRegs_spec _ ha
  dsimp only at hplace hoff hk hall
  simp only [hrow, Option.all_some, List.all_eq_true, decide_eq_true_eq] at hall
  have hlt : a < 2 ^ 25 := hoff ▸ (BitVec.ofNat 25 a).isLt
  have hbe : word (Dev.beMask be.toNat) ≠ 0 := fun h0 => ht (by rw [h0]; exact BitVec.zero_and)
  have hexec := exec_registerWrite r (BitVec.ofNat 25 a) data be s
  rw [hoff, State.run_ready s _ hs, (Dev.busWrite_admitted s.dev r a data be.toNat hk h hbe).trans
    (Dev.regWrite_locked s.dev r a _ _ _ hplace hrow hall hn ht)] at hexec
  have hframe := s.dev.lockViolation_frame r a
  have hword : (s.dev.lockViolation r a).reg a = s.dev.reg a := hframe.2.2.2 a hplace.notViolation
  have hland := Dev.landWrite_lockable_kept hplace (s.dev.lockViolation r a)
  revert hexec hland
  generalize (s.dev.lockViolation r a).landWrite a _ _ 0 0 = e
  intro hexec ⟨hkept, hntq⟩
  have hreg : ∀ x, (s.settleTo e).dev.reg x = (s.dev.lockViolation r a).reg x := fun x => hkept.2.2.2 x id
  have hget : ∀ f, (s.settleTo e).dev.get f = (s.dev.lockViolation r a).get f := fun f => by rw [Dev.get, Dev.get, hreg]
  refine ⟨_, hexec, (hreg a).trans hword, ?_, fun i hi => ?_, ?_, ?_, ?_, (hframe.trans (hkept.mono fun _ => False.elim)).keeps hs.2.2⟩
  · rw [Dev.is, hget]; exact s.dev.lockViolation_flag r a
  · rw [Dev.bitOf, hreg]; exact s.dev.lockViolation_otherFlags r a hi
  · rw [Dev.get64, hreg, hreg]; exact s.dev.lockViolation_counts r a
  · rw [hreg, hget, hget]; exact s.dev.lockViolation_violAddr r a hlt
  · rw [← s.dev.lockViolation_input r a hb, ← hntq]; rfl

/-! ### Two-word reads (R33, R35, R57) -/

/-- A read that the device answers: what `f` transmits are words of registers, and the requester gets each as it gets completions. -/
theorem Dev.readBy_answers {d : Dev} {r : Requester} (hr : d.Reads r) {f : Dev → Dev} (ws : List (Nat × Word))
    (hout : (f d).out = d.out ++ ws.map fun x => .readData x.1 x.2) (hcfg : (f d).hep.cfg = d.hep.cfg) :
    d.readBy r f = { f d with out := d.out ++ ws.map fun x => d.toward r (.readData x.1 x.2) } := by
  have hecrc : (f d).cfgBit 0x118 6 = d.cfgBit 0x118 6 := by rw [cfgBit, cfgBit, cfg, cfg, hcfg]
  have hsealed : ∀ o, (f d).sealed o = d.sealed o := fun o => by rw [sealed, sealed, hecrc]
  unfold readBy toward
  by_cases hhost : r = .host
  · obtain ⟨hup, hmem⟩ := hr hhost
    simp [hhost, hostRead, hup, hmem, answersHost, hout, hsealed, Function.comp_def]
  · simp only [hhost, if_false, ← hout]

/-- A command that is such a read. -/
theorem State.readBy_answers {s : State} (hs : s.Ready) {r : Requester} (hr : s.dev.Reads r) {i : Instr} {f : Dev → Dev}
    (hexec : exec i s = s.run fun d => d.readBy r f) (ws : List (Nat × Word))
    (hout : (f s.dev).out = s.dev.out ++ ws.map fun x => .readData x.1 x.2) (hcfg : (f s.dev).hep.cfg = s.dev.hep.cfg) :
    exec i s = .next (s.settleTo { f s.dev with out := s.dev.out ++ ws.map fun x => s.dev.toward r (.readData x.1 x.2) }) := by
  rw [hexec, State.run_ready s _ hs, Dev.readBy_answers hr ws hout hcfg]

/-- Where the latching low words stand, and what the high word of one is not. -/
theorem latchLows_spec : ∀ a ∈ Dev.latchLows, (BitVec.ofNat 25 a).toNat = a
    ∧ ¬ (0x4_0E00 ≤ a + 4 && a + 4 < 0x4_0FFC) ∧ ¬ (0x40_0400 ≤ a + 4 && a + 4 < 0x40_0700)
    ∧ ¬ (0x80_0140 ≤ a + 4 && a + 4 < 0x80_0180)
    ∧ a + 4 ≠ CAD_TIME.addr ∧ ¬ (0xA00 ≤ Dev.pageOff (a + 4) && Dev.pageOff (a + 4) < 0xC00) := by decide +kernel

/-- The high word that a read of a latching low word latches. -/
def Dev.highWord (d : Dev) (a : Nat) : Word := if a = CAD_TIME.addr then word (d.time / 2 ^ 32) else d.reg (a + 4)

/-- A read of the high word of a latching register returns the word latched. -/
theorem Dev.regRead_latched (d : Dev) {a : Nat} (ha : a ∈ latchLows) :
    d.regRead (a + 4) = Tab.get (fun k => regReset (k + 4)) d.latch a := by
  obtain ⟨-, hcol, hcht, hclr, htime, hcount⟩ := latchLows_spec a ha
  rw [regRead, if_neg hcol, if_neg hcht, if_neg hclr, if_neg htime, if_neg hcount, if_pos (by simp [ha]), Nat.add_sub_cancel]

section
variable {s : State} (hs : s.Ready) {r : Requester} (hr : s.dev.Reads r)
include hs hr

theorem snapPairRead_answers (a : BitVec 25) (hal : a.toNat % 8 = 0) (hl : 0xC00 ≤ a.toNat % 0x1000) (hu : a.toNat % 0x1000 < 0xE00)
    (hb : (blockOf a.toNat).isSome = true) :
    ∃ t, exec (.snapPairRead r a) s = .next t
      ∧ t.dev.out = s.dev.out ++ [s.dev.toward r (.readData a.toNat (s.dev.reg a.toNat)),
          s.dev.toward r (.readData (a.toNat + 4) (s.dev.reg (a.toNat + 4)))]
      ∧ s.Keeps t fun _ => False := by
  have hexec : exec (.snapPairRead r a) s = s.run fun d => d.readBy r (·.snapPairRead a.toNat) := by
    show execSnapPairRead r a s = _
    simp only [execSnapPairRead, hal, hl, hu, hb, decide_true, Bool.and_self, Dev.when_true]
  refine ⟨_, State.readBy_answers hs hr hexec [(a.toNat, s.dev.reg a.toNat), (a.toNat + 4, s.dev.reg (a.toNat + 4))] ?_ rfl, rfl,
    ((Dev.Frame.refl _ s.dev).other rfl rfl rfl rfl).keeps hs.2.2⟩
  simp [Dev.snapPairRead, Dev.emit, Dev.reg]

theorem lowWordLatchRead_answers {a : Nat} (ha : a ∈ Dev.latchLows) :
    ∃ t, exec (.lowWordLatchRead r (BitVec.ofNat 25 a)) s = .next t
      ∧ t.dev.out = s.dev.out ++ [s.dev.toward r (.readData a (s.dev.regRead a))]
      ∧ t.dev.regRead (a + 4) = (if a = CAD_TIME.addr then word (s.dev.time / 2 ^ 32) else s.dev.reg (a + 4))
      ∧ s.Keeps t fun _ => False := by
  obtain ⟨hoff, -⟩ := latchLows_spec a ha
  have hlatch : s.dev.latchRead a = ({ s.dev with latch := Tab.set (fun k => regReset (k + 4)) s.dev.latch a (s.dev.highWord a) }).emit
      (.readData a (s.dev.regRead a)) := by simp [Dev.latchRead, Dev.when, ha, Dev.highWord]
  have hexec : exec (.lowWordLatchRead r (BitVec.ofNat 25 a)) s = s.run fun d => d.readBy r (·.latchRead a) := by
    show execLowWordLatchRead r (BitVec.ofNat 25 a) s = _
    rw [execLowWordLatchRead, hoff]
  refine ⟨_, State.readBy_answers hs hr hexec [(a, s.dev.regRead a)] (by rw [hlatch]; rfl) (by rw [hlatch]; rfl), rfl, ?_,
    ((Dev.Frame.refl _ s.dev).other (by rw [hlatch]; rfl) (by rw [hlatch]; rfl) (by rw [hlatch]; rfl) (by rw [hlatch]; rfl)).keeps hs.2.2⟩
  rw [Dev.regRead_latched _ ha]
  simp [State.settleTo_dev, Dev.flushed, hlatch, Dev.emit, Dev.highWord]

end

end Sys2Proof.Machine

/-- Settles O1, clause by clause: the writes go through one law of an admitted write, the reads through one law of an answered read. -/
theorem registerAccess : Obligations.RegisterAccess := by
  unfold Obligations.RegisterAccess
  intro s r data be hs
  refine ⟨fun a row ha hrow hadm => writes_plain hs r data be ha hrow hadm, fun a row hrow hadm ha hhalf haccess => ?_, aliasOf_flags,
    fun hadm => lockWrite hs r data be hadm,
    fun a n row b ha hrow hb hadm hn ht => registerWrite_locked hs r data be ha hrow hb hadm hn ht,
    fun hr => ⟨fun a hal hl hu hb => snapPairRead_answers hs hr a hal hl hu hb, fun a ha => lowWordLatchRead_answers hs hr ha⟩⟩
  have hstatus : IsStatus a row := ⟨hrow, hhalf, haccess⟩
  exact ⟨fun hk => hstatus.registerWrite hs r hadm data be ha hk, fun off i _ hk => hstatus.bitAliasWrite hs r hadm data be off i hk⟩
end

section
/-! PROOFS. The discipline of device time: a change of its source, the loss of the source, and its updates (R35, R59, R60, R62). -/

open Sys2Proof Sys2Proof.Machine

namespace Sys2Proof.Machine

/-- A command that acts on the device alone answers with what it does. -/
theorem State.answers_run {s : State} (hs : s.Ready) {i : Instr} {f : Dev → Dev} {e : Dev} (hexec : exec i s = s.run f) (hf : f s.dev = e) :
    exec i s = .next (s.settleTo e) := hf ▸ hexec.trans (State.run_ready s f hs)

/-! ### A write of DISC (R26, R62) -/

theorem getLsbD_mask (f : Bits) (h : f.lo + f.w ≤ 32) (i : Nat) : f.mask.getLsbD i = decide (f.lo ≤ i ∧ i < f.lo + f.w) := by
  rw [Bits.mask, word, BitVec.getLsbD_ofNat, Nat.testBit_shiftLeft, Nat.testBit_two_pow_sub_one]
  by_cases hi : f.lo ≤ i ∧ i < f.lo + f.w
  · obtain ⟨hl, hu⟩ := hi
    simp [hl, hu, show i < 32 by omega, show i - f.lo < f.w by omega]
  · by_cases hl : f.lo ≤ i
    · simp [hi, show ¬ i - f.lo < f.w by omega]
    · simp [hl]

/-- A field's value stored in the field's bits is the word with the field replaced. -/
theorem store_into (f : Bits) (w : Word) (v : Nat) (h : f.lo + f.w ≤ 32) : (w &&& ~~~f.mask) ||| (f.into w v &&& f.mask) = f.into w v := by
  refine BitVec.eq_of_getLsbD_eq fun i hi => ?_
  rw [BitVec.getLsbD_or, BitVec.getLsbD_and, BitVec.getLsbD_and, BitVec.getLsbD_not, getLsbD_mask f h, Dev.into_bit f w v i h]
  by_cases hin : f.lo ≤ i ∧ i < f.lo + f.w <;> simp only [hin, hi] <;> simp

namespace Dev
variable (d : Dev)

/-- The row of CAD_TIME_CTL. -/
def timeCtlRow : RegRow := ⟨0x20, 1, 0x4, [⟨1, 0, .rw, 0⟩]⟩

theorem regRow_timeCtl : regRow CAD_TIME_CTL.addr = some timeCtlRow := by decide +kernel

theorem writeHook_timeCtl (old new cmd touch : Word) :
    d.writeHook CAD_TIME_CTL.addr old new cmd touch = d.when (old != new) (·.discChanged) := by
  simp [writeHook, CAD_TIME_CTL.addr, CAD_APPLY.addr]

theorem discWrite_admitted (r : Requester) (v : Nat) (h : d.Admits r CAD_TIME_CTL.addr) :
    d.fieldWrite r CAD_TIME_CTL.DISC v = ((d.noteWrite CAD_TIME_CTL.addr 3).put CAD_TIME_CTL.DISC v).when
      (d.reg CAD_TIME_CTL.addr != CAD_TIME_CTL.DISC.into (d.reg CAD_TIME_CTL.addr) v) (·.discChanged) := by
  have hmask : (timeCtlRow.mask fun x => x = .rw || x = .wo) = CAD_TIME_CTL.DISC.mask ∧ timeCtlRow.mask (· = .w1c) = 0
      ∧ timeCtlRow.mask (· = .w1s) = 0 ∧ (timeCtlRow.mask fun x => x = .w1c || x = .w1s) = 0 := by decide
  obtain ⟨hrw, hw1c, hw1s, hw1⟩ := hmask
  have hlock : CAD_TIME_CTL.addr ≠ DCT_LOCK.addr := by decide
  rw [fieldWrite, show CAD_TIME_CTL.DISC.off = CAD_TIME_CTL.addr from rfl, gatePassed_admitted d r _ _ _ _ _ h,
    regWrite_unlocked d r _ _ _ _ _ regRow_timeCtl (by simp [RegRow.Unlocked, timeCtlRow]), if_neg hlock, storedWord, hrw, hw1c, hw1s, hw1,
    clear_none, store_into _ _ _ (by decide), landWrite_direct (.inr (.inr (.inl rfl))), writeHook_timeCtl]
  rfl

/-! ### The loss of the source, and an update (R59, R60, R62) -/

theorem is_unset_same (f : Bits) (h : f.lo + f.w ≤ 32) : (d.unset f).is f = false := by
  rw [is, unset, get_put_same d f 0 h, Nat.zero_mod]; rfl

theorem discChanged_ok : d.discChanged.is CAD_STAT.DISC_OK = false := is_unset_same d CAD_STAT.DISC_OK (by decide)

theorem discChanged_frame : Frame (· = CAD_STAT.addr) d d.discChanged :=
  ((Frame.refl (· = CAD_STAT.addr) d).unset (f := CAD_STAT.DISC_OK) rfl).setCad _

theorem discLost_ok : d.discLost.is CAD_STAT.DISC_OK = false :=
  (is_put_apart ((d.unset CAD_STAT.DISC_OK).noteSet CAD_FLAGS.DISC_LOST) CAD_FLAGS.DISC_LOST CAD_STAT.DISC_OK 1 (by decide) (.inl (by decide))).trans
    (is_unset_same d CAD_STAT.DISC_OK (by decide))

theorem discLost_flag : d.discLost.is CAD_FLAGS.DISC_LOST = true := is_set1_same (d.unset CAD_STAT.DISC_OK) _ rfl (by decide)

theorem discLost_input : d.discLost.ntq.input
    = d.ntq.input ++ [⟨.alert, idCAD, 0x014, word (d.get CAD_TIME_CTL.DISC), d.time⟩] := rfl

theorem discLost_frame : Frame (fun a => a = CAD_STAT.addr ∨ a = CAD_FLAGS.addr) d d.discLost :=
  ((((Frame.refl _ d).unset (.inl rfl)).set1 (.inr rfl)).notice _ _ _ _).setCad _

/-- A register that is one field. -/
theorem reg_put_whole (f : Bits) (n : Nat) (hlo : f.lo = 0) (hw : f.w = 32) : (d.put f n).reg f.off = word n := by
  refine BitVec.eq_of_getLsbD_eq fun i hi => ?_
  rw [reg_put_bit d f n i (by omega), if_pos (by omega), hlo, word, BitVec.getLsbD_ofNat]
  simp [hi]

theorem word_unsigned (v : Word) : word (unsigned 32 v.toInt) = v := by
  refine BitVec.eq_of_toInt_eq ?_
  have hnat : ((unsigned 32 v.toInt : Nat) : Int) = v.toInt % 2 ^ 32 := by
    rw [unsigned]; exact Int.toNat_of_nonneg (Int.emod_nonneg _ (by decide))
  rw [word, BitVec.toInt_ofNat', hnat, show (2 ^ 32 : Int) = ((2 ^ 32 : Nat) : Int) from rfl, Int.emod_bmod]
  exact BitVec.toInt_bmod_cancel v

/-- A trim within the limit, where software has written none in the cycle. -/
theorem servoTrim_taken (v : Word) (hv : v.toInt.natAbs ≤ 219902326) (hsoft : d.softWrote CAD_TRIM.RATE = false) :
    d.servoTrim v.toInt = d.put CAD_TRIM.RATE (unsigned 32 v.toInt) := by
  rw [servoTrim, if_neg (by omega), hwPut, hsoft]; rfl

variable {d} {v : Word} (hv : v.toInt.natAbs ≤ 219902326) (hsoft : d.softWrote CAD_TRIM.RATE = false)
include hv hsoft

theorem discUpdate_eq : d.discUpdate v.toInt = ((d.put CAD_TRIM.RATE (unsigned 32 v.toInt)).set1 CAD_STAT.DISC_OK).setCad
    fun c => { c with discAt := d.time, discTold := false } := by rw [discUpdate, servoTrim_taken d v hv hsoft]

theorem discUpdate_trim : (d.discUpdate v.toInt).reg CAD_TRIM.addr = v := by
  rw [discUpdate_eq hv hsoft]
  exact (reg_setReg_ne _ _ (by decide)).trans ((reg_put_whole d CAD_TRIM.RATE _ rfl rfl).trans (word_unsigned v))

theorem discUpdate_ok : (d.discUpdate v.toInt).is CAD_STAT.DISC_OK = true := by
  rw [discUpdate_eq hv hsoft]; exact is_set1_same _ _ rfl (by decide)

theorem discUpdate_frame : Frame (fun a => a = CAD_STAT.addr ∨ a = CAD_TRIM.addr) d (d.discUpdate v.toInt) := by
  rw [discUpdate_eq hv hsoft]
  exact (((Frame.refl _ d).put _ (.inr rfl)).set1 (.inl rfl)).setCad _

end Dev

section
variable {s : State} (hs : s.Ready)
include hs

theorem discWrite_clears (r : Requester) (v : BitVec 2) (h : s.dev.Admits r CAD_TIME_CTL.addr) (hne : s.dev.get CAD_TIME_CTL.DISC ≠ v.toNat) :
    ∃ t, exec (.discWrite r v) s = .next t ∧ t.dev.get CAD_TIME_CTL.DISC = v.toNat ∧ t.dev.is CAD_STAT.DISC_OK = false
      ∧ t.dev.cad = { s.dev.cad with discAt := s.dev.time, discTold := false, held := false }
      ∧ s.Keeps t fun a => a = CAD_TIME_CTL.addr ∨ a = CAD_STAT.addr := by
  let d := (s.dev.noteWrite CAD_TIME_CTL.addr 3).put CAD_TIME_CTL.DISC v.toNat
  have hget : d.get CAD_TIME_CTL.DISC = v.toNat := (Dev.get_put_same _ _ _ (by decide)).trans (Nat.mod_eq_of_lt v.isLt)
  have hword : d.reg CAD_TIME_CTL.addr = CAD_TIME_CTL.DISC.into (s.dev.reg CAD_TIME_CTL.addr) v.toNat := Dev.reg_setReg_same _ _ _
  have hchanged : (s.dev.reg CAD_TIME_CTL.addr != CAD_TIME_CTL.DISC.into (s.dev.reg CAD_TIME_CTL.addr) v.toNat) = true := by
    rw [← hword, bne_iff_ne]
    exact fun heq => hne (hget ▸ congrArg (fun w : Word => slice w.toNat 0 2) heq)
  have hwrite : s.dev.fieldWrite r CAD_TIME_CTL.DISC v.toNat = d.discChanged := by
    rw [Dev.discWrite_admitted s.dev r v.toNat h, hchanged]; rfl
  have hexec : exec (.discWrite r v) s = .next (s.settleTo d.discChanged) :=
    State.answers_run hs (f := fun d => d.fieldWrite r CAD_TIME_CTL.DISC v.toNat) rfl hwrite
  have hwritten : Dev.Frame (fun a => a = CAD_TIME_CTL.addr ∨ a = CAD_STAT.addr) s.dev d :=
    ((Dev.Frame.refl _ s.dev).other (g := s.dev.noteWrite CAD_TIME_CTL.addr 3) rfl rfl rfl rfl).put _ (.inl rfl)
  exact ⟨_, hexec, (d.discChanged_frame.get (by decide)).trans hget, d.discChanged_ok, rfl,
    (hwritten.trans (d.discChanged_frame.mono fun _ => .inr)).keeps hs.2.2⟩

/-- A command that finds the source lost. -/
theorem discLost_answers {i : Instr} {f : Dev → Dev} (hexec : exec i s = s.run f) (hf : f s.dev = s.dev.discLost) :
    ∃ t, exec i s = .next t ∧ t.dev.is CAD_STAT.DISC_OK = false ∧ t.dev.is CAD_FLAGS.DISC_LOST = true
      ∧ t.dev.ntq.input = s.dev.ntq.input ++ [⟨.alert, idCAD, 0x014, word (s.dev.get CAD_TIME_CTL.DISC), s.dev.time⟩]
      ∧ s.Keeps t fun a => a = CAD_STAT.addr ∨ a = CAD_FLAGS.addr :=
  ⟨_, State.answers_run hs hexec hf, s.dev.discLost_ok, s.dev.discLost_flag, s.dev.discLost_input, s.dev.discLost_frame.keeps hs.2.2⟩

end

end Sys2Proof.Machine

/-- Settles O8: a write of DISC runs `discChanged`, a loss `discLost`, an update of the reference `discUpdate`. -/
theorem discipline : Obligations.Discipline := by
  unfold Obligations.Discipline
  intro s hs
  refine ⟨fun r v hadm hne => discWrite_clears hs r v hadm hne, fun hsource htold hdue => ?_, fun hsource hok => ?_,
    fun v hsource hv hsoft => ?_⟩
  · refine discLost_answers hs (f := (·.discTimeout)) rfl ?_
    have hdisc : (s.dev.get CAD_TIME_CTL.DISC = 1 || s.dev.get CAD_TIME_CTL.DISC = 2) = true := by simpa using hsource
    simp [Dev.discTimeout, Dev.when, htold, hdue, hdisc]
  · have harg : word (s.dev.get CAD_TIME_CTL.DISC) = 3#32 := by rw [hsource]; rfl
    exact harg ▸ discLost_answers hs (i := .ref10mLoss) (f := (·.ref10mLoss)) rfl (by simp [Dev.ref10mLoss, Dev.when, hsource, hok])
  · have hupdate : s.dev.ref10mRestored v.toInt = s.dev.discUpdate v.toInt := by simp [Dev.ref10mRestored, Dev.when, hsource]
    have hexec : exec (.ref10mRestored v) s = .next (s.settleTo (s.dev.discUpdate v.toInt)) :=
      State.answers_run hs (f := (·.ref10mRestored v.toInt)) rfl hupdate
    exact ⟨_, hexec, Dev.discUpdate_ok hv hsoft, Dev.discUpdate_trim hv hsoft, by rw [Dev.discUpdate_eq hv hsoft]; rfl,
      (Dev.discUpdate_frame hv hsoft).keeps hs.2.2⟩
end

section
/-! PROOFS. An audit: its request, its capture and its end (R30, R55, R56). -/

open Sys2Proof Sys2Proof.Machine

namespace Sys2Proof.Machine
namespace Dev

/-! ### The request (R55) -/

/-- What a request at `d` does, whose source events carry the hop count `hop`. -/
structure Requested (d e : Dev) (hop : Nat) : Prop where
  busy : e.is AUD_STAT.BUSY = true
  request : if d.is AUD_STAT.BUSY = true
    then e.is AUD_STAT.HELD = true ∧ e.aud.since = d.aud.since ∧ e.aud.captured = d.aud.captured ∧ e.aud.heldHop = Nat.max d.aud.heldHop hop
    else e.is AUD_STAT.HELD = d.is AUD_STAT.HELD ∧ e.aud.since = some d.time ∧ e.aud.instant = none ∧ e.aud.captured = false ∧ e.aud.hop = hop
  ntq : e.ntq = d.ntq
  input : e.evr.input = d.evr.input
  frame : Frame (· = AUD_STAT.addr) d e

/-- A one-bit field of a register beside one that is set. -/
theorem is_set1_apart (d : Dev) (f g : Bits) (hf : f.lo + f.w ≤ 32) (h : apart f g) : (d.set1 f).is g = d.is g :=
  is_put_apart (d.noteSet f) f g 1 hf h

theorem auditRequest_requested (d : Dev) : Requested d d.auditRequest d.evr.hop := by
  unfold auditRequest
  cases hbusy : d.is AUD_STAT.BUSY
  · exact ⟨is_set1_same d _ rfl (by decide),
      by simp [hbusy, is_set1_apart d AUD_STAT.BUSY AUD_STAT.HELD (by decide) (.inr (.inl (by decide)))], rfl, rfl,
      ((Frame.refl (· = AUD_STAT.addr) d).set1 (f := AUD_STAT.BUSY) rfl).setAud _⟩
  · exact ⟨(is_set1_apart d AUD_STAT.HELD AUD_STAT.BUSY (by decide) (.inr (.inr (by decide)))).trans hbusy,
      by simp [hbusy, is_set1_same d AUD_STAT.HELD rfl (by decide)], rfl, rfl,
      ((Frame.refl (· = AUD_STAT.addr) d).set1 (f := AUD_STAT.HELD) rfl).setAud _⟩

/-- A request that a device differing in nothing a request reads takes. -/
theorem Requested.of_like {d g e : Dev} {hop : Nat} (h : Requested g e hop) (hg : Frame (fun _ => False) d g) (haud : g.aud = d.aud)
    (hntq : g.ntq = d.ntq) (hinput : g.evr.input = d.evr.input) : Requested d e hop := by
  have hbit : ∀ f, g.is f = d.is f := fun f => by rw [is, is, hg.get id]
  have htime : g.time = d.time := hg.2.1
  exact ⟨h.busy, by have := h.request; rwa [hbit, hbit, haud, htime] at this, h.ntq.trans hntq, h.input.trans hinput,
    (hg.mono fun _ => False.elim).trans h.frame⟩

/-- A write of SNAP. -/
theorem press_snap (d : Dev) (r : Requester) (h : d.Admits r AUD_CTL.addr) : Requested d (d.press r AUD_CTL.SNAP) d.evr.hop := by
  have hdirect : Direct AUD_CTL.addr := .inr (.inr (.inr (.inl rfl)))
  have hpress : d.press r AUD_CTL.SNAP
      = ((d.noteWrite AUD_CTL.addr AUD_CTL.SNAP.mask).setReg AUD_CTL.addr (d.reg AUD_CTL.addr)).auditRequest :=
    (press_admitted d r AUD_CTL.SNAP h (by decide +kernel)).trans (landWrite_direct hdirect d _ _ _ _)
  rw [hpress]
  exact (auditRequest_requested _).of_like (((Frame.refl _ d).other (g := d.noteWrite AUD_CTL.addr AUD_CTL.SNAP.mask) rfl rfl rfl rfl).setReg_self _)
    rfl rfl rfl

/-- An activation of the task. -/
theorem activated_audit (d : Dev) (hp : d.taskPending 0x070 = (0, 0)) (ha : d.actedNow 0x070 = false) : Requested d (d.activated 0x070) 1 := by
  let g := d.setEvr fun e => { e with pending := Tab.set (fun _ => (0, 0)) e.pending 0x070 (1, 0) }
  have hactivate : d.activate 0x070 0 = g := by simp [activate, hp, g]
  have hpending : g.taskPending 0x070 = (1, 0) := by simp [taskPending, g, setEvr]
  have hacted : g.actedNow 0x070 = false := by
    rw [← ha, actedNow, actedNow, evrNow, evrNow]
    by_cases hc : d.evr.cycle = d.time <;> simp [g, setEvr, hc]
  let k := (g.noteAct 0x070).setEvr fun e => { e with pending := Tab.set (fun _ => (0, 0)) e.pending 0x070 (0, 0), hop := 1 }
  have hact : g.taskAct 0x070 = k.auditRequest.setEvr fun e => { e with hop := 0 } := by
    simp [taskAct, hpending, hacted, k, runTask]
  have hinput : k.evr.input = d.evr.input := by
    show g.evrNow.input = d.evr.input
    unfold evrNow; split <;> rfl
  have hk : Requested d k.auditRequest 1 := (auditRequest_requested k).of_like ((Frame.refl _ d).other rfl rfl rfl rfl) rfl rfl hinput
  rw [activated, hactivate, hact]
  exact ⟨hk.busy, hk.request, hk.ntq, hk.input, hk.frame.setEvr _⟩

end Dev

theorem auditRequest_sets {s : State} (hs : s.Ready) (c : Cause) (h : s.dev.Causes c AUD_CTL.addr 0x070) :
    ∃ e, exec (.auditRequest c) s = .next (s.settleTo e) ∧ s.dev.Requested e (s.dev.hopOf c) := by
  cases c with
  | write r => exact ⟨_, State.answers_run hs (f := fun d => d.press r AUD_CTL.SNAP) rfl rfl, s.dev.press_snap r h⟩
  | task => exact ⟨_, State.answers_run hs (f := fun d => d.activated 0x070) rfl rfl, s.dev.activated_audit h.1 h.2⟩

/-! ### The capture (R30, R55) -/

/-- Every register stands in the first 4 KiB of its page, and one that does not read 0 after reset stands outside the counters and their copies. -/
theorem resets_apart : ∀ b ∈ blocks, b.base % 0x1000 = 0 ∧ 2 ^ b.log2 % 0x1000 = 0 ∧ ∀ row ∈ b.regs,
    row.off + (row.count - 1) * row.stride < 0x1000
      ∧ (row.reset = 0 ∨ row.off + (row.count - 1) * row.stride < 0xA00 ∨ 0xE00 ≤ row.off) := by decide +kernel

/-- The page offsets of a row's registers. -/
theorem RegRow.holds_range {row : RegRow} {o : Nat} (h : row.holds o = true) : row.off ≤ o ∧ o ≤ row.off + (row.count - 1) * row.stride := by
  simp only [RegRow.holds, Bool.and_eq_true, decide_eq_true_eq] at h
  obtain ⟨⟨hle, hmod⟩, hdiv⟩ := h
  have hmul : (o - row.off) / row.stride * row.stride = o - row.off := by
    rw [Nat.mul_comm]; exact Nat.mul_div_cancel' (Nat.dvd_of_mod_eq_zero hmod)
  have hbound := Nat.mul_le_mul_right row.stride (Nat.le_sub_one_of_lt hdiv)
  omega

/-- The counters and their copies read 0 after reset. -/
theorem regReset_counters {a : Nat} (ha : 0x1_0000 ≤ a) (hl : 0xA00 ≤ a % 0x1000) (hu : a % 0x1000 < 0xE00) : regReset a = 0 := by
  rw [regReset, if_neg (by omega), if_neg (by simp; omega), if_neg (by simp; omega), if_neg (by simp; omega), if_neg (by simp; omega)]
  cases hrow : regRow a with
  | none => rfl
  | some row =>
    obtain ⟨b, hb, hfind⟩ := Option.bind_eq_some_iff.1 hrow
    obtain ⟨hbase, hpage, hrows⟩ := resets_apart b (List.mem_of_find?_eq_some hb)
    obtain ⟨hlast, hreset⟩ := hrows row (List.mem_of_find?_eq_some hfind)
    have hholds : row.holds (b.pageOff a) = true := List.find?_some (p := fun x : RegRow => x.holds (b.pageOff a)) hfind
    obtain ⟨hfirst, hoff⟩ := RegRow.holds_range hholds
    have hle : b.base ≤ a := by have := List.find?_some hb; simp at this; omega
    have hmod : b.pageOff a % 0x1000 = (a - b.base) % 0x1000 := Nat.mod_mod_of_dvd (a - b.base) (Nat.dvd_of_mod_eq_zero hpage)
    rcases hreset with hzero | hbelow | habove
    · exact hzero
    · omega
    · omega

/-- The register that a copy copies stands 0x200 below it. -/
def copied (a : Nat) : Nat := a - 0x200

@[simp] theorem copied_add (a : Nat) : copied (a + 0x200) = a := by unfold copied; omega

namespace Dev

/-- A key that a table does not list. -/
theorem get_unlisted {α : Type} (z : Nat → α) {t : Tab α} {k : Nat} (h : k ∉ t.map (·.1)) : Tab.get z t k = z k := by
  induction t with
  | nil => rfl
  | cons e t ih =>
    rw [List.map_cons, List.mem_cons, not_or] at h
    rw [Tab.get, if_neg (Ne.symm h.1), ih h.2]

/-- Copies along a list of registers of which none is copied. -/
theorem reg_copies (l : List Nat) (hl : ∀ x ∈ l, copied x ∉ l) (d : Dev) (y : Nat) :
    (d.forEach l fun x d => d.setReg x (d.reg (copied x))).reg y = if y ∈ l then d.reg (copied y) else d.reg y := by
  unfold forEach
  induction l generalizing d with
  | nil => rfl
  | cons x l ih =>
    rw [List.foldl_cons, ih fun z hz hmem => hl z (List.mem_cons_of_mem x hz) (List.mem_cons_of_mem x hmem)]
    by_cases hy : y ∈ l
    · have hne : x ≠ copied y := fun he => hl y (List.mem_cons_of_mem x hy) (he ▸ List.mem_cons_self)
      rw [if_pos hy, if_pos (List.mem_cons_of_mem x hy), reg_setReg_ne _ _ hne]
    · rw [if_neg hy]
      by_cases hx : x = y
      · rw [if_pos (hx ▸ List.mem_cons_self), hx, reg_setReg_same]
      · rw [if_neg (by simp [hy, Ne.symm hx]), reg_setReg_ne _ _ hx]

/-- The copies of counters that the register table lists. -/
def listedCopies (d : Dev) : List Nat :=
  (d.regs.filter fun e => 0xC00 ≤ pageOff e.1 && pageOff e.1 < 0xE00 && e.1 < 0x200_0000).map (·.1)

/-- The copies of the counters that the register table lists. -/
def listedCounters (d : Dev) : List Nat := (d.regs.filter fun e => 0xA00 ≤ pageOff e.1 && pageOff e.1 < 0xC00).map (·.1 + 0x200)

theorem mem_listedCopies (d : Dev) {a : Nat} (h : a ∈ d.listedCopies) : 0xC00 ≤ a % 0x1000 ∧ a % 0x1000 < 0xE00 := by
  simp only [listedCopies, List.mem_map, List.mem_filter, Bool.and_eq_true, decide_eq_true_eq] at h
  obtain ⟨e, ⟨-, ⟨hl, hu⟩, -⟩, rfl⟩ := h
  exact ⟨hl, hu⟩

theorem mem_listedCounters (d : Dev) {a : Nat} (h : a ∈ d.listedCounters) : 0xC00 ≤ a % 0x1000 ∧ a % 0x1000 < 0xE00 := by
  simp only [listedCounters, List.mem_map, List.mem_filter, Bool.and_eq_true, decide_eq_true_eq] at h
  obtain ⟨e, ⟨-, hl, hu⟩, rfl⟩ := h
  unfold pageOff at hl hu
  omega

/-- Where a copy copies from is no copy. -/
theorem copied_apart {a b : Nat} (ha : 0xC00 ≤ a % 0x1000 ∧ a % 0x1000 < 0xE00) (hb : 0xC00 ≤ b % 0x1000 ∧ b % 0x1000 < 0xE00) :
    copied a ≠ b := by
  unfold copied; omega

/-- The copies taken, before CAD_DOMAIN_SNAP. -/
def snapCounters (d : Dev) : Dev :=
  let copy := fun x (d : Dev) => d.setReg x (d.reg (copied x))
  (d.forEach d.listedCopies copy).forEach d.listedCounters copy

theorem snapAll_eq (d : Dev) : d.snapAll = d.snapCounters.put64 CAD_DOMAIN_SNAP.addr (d.snapCounters.get64 CAD_DOMAIN_OFF.addr) := by
  have h : d.snapCounters = (d.forEach (d.regs.filter fun e => 0xC00 ≤ pageOff e.1 && pageOff e.1 < 0xE00 && e.1 < 0x200_0000)
      fun e d => d.setReg e.1 (d.reg (e.1 - 0x200))).forEach (d.regs.filter fun e => 0xA00 ≤ pageOff e.1 && pageOff e.1 < 0xC00)
      fun e d => d.setReg (e.1 + 0x200) (d.reg e.1) := by
    simp only [snapCounters, forEach, listedCopies, listedCounters, List.foldl_map, copied_add]
    rfl
  rw [h]; rfl

theorem snapCounters_reg (d : Dev) (y : Nat) :
    d.snapCounters.reg y = if y ∈ d.listedCounters ∨ y ∈ d.listedCopies then d.reg (copied y) else d.reg y := by
  have hcopies : ∀ x ∈ d.listedCopies, copied x ∉ d.listedCopies := fun x hx hmem =>
    copied_apart (d.mem_listedCopies hx) (d.mem_listedCopies hmem) rfl
  have hcounters : ∀ x ∈ d.listedCounters, copied x ∉ d.listedCounters := fun x hx hmem =>
    copied_apart (d.mem_listedCounters hx) (d.mem_listedCounters hmem) rfl
  rw [snapCounters, reg_copies _ hcounters, reg_copies _ hcopies, reg_copies _ hcopies]
  by_cases hy : y ∈ d.listedCounters
  · have hnot : copied y ∉ d.listedCopies := fun hmem => copied_apart (d.mem_listedCounters hy) (d.mem_listedCopies hmem) rfl
    rw [if_pos hy, if_neg hnot, if_pos (.inl hy)]
  · simp [hy]

/-- A counter's copy holds the counter. -/
theorem snapCounters_copy (d : Dev) {a : Nat} (ha : 0x1_0000 ≤ a) (hu : a < 0x1FF_FE00) (hl : 0xA00 ≤ a % 0x1000) (hh : a % 0x1000 < 0xC00) :
    d.snapCounters.reg (a + 0x200) = d.reg a := by
  rw [snapCounters_reg, copied_add]
  split
  · rfl
  · next hnone =>
    obtain ⟨hcounter, hcopy⟩ := not_or.1 hnone
    have hunlisted : a ∉ d.regs.map (·.1) := fun hmem => hcounter (by
      obtain ⟨e, he, rfl⟩ := List.mem_map.1 hmem
      exact List.mem_map_of_mem (List.mem_filter.2 ⟨he, by simp only [pageOff, hl, hh, decide_true, Bool.and_self]⟩))
    have hunlisted' : a + 0x200 ∉ d.regs.map (·.1) := fun hmem => hcopy (by
      obtain ⟨e, he, hea⟩ := List.mem_map.1 hmem
      refine List.mem_map.2 ⟨e, List.mem_filter.2 ⟨he, ?_⟩, hea⟩
      simp only [pageOff, hea, Bool.and_eq_true, decide_eq_true_eq]
      omega)
    rw [reg, reg, get_unlisted _ hunlisted, get_unlisted _ hunlisted', regReset_counters ha hl (by omega),
      regReset_counters (by omega) (by omega) (by omega)]

theorem snapCounters_frame (d : Dev) : Frame (fun x => 0xC00 ≤ x % 0x1000 ∧ x % 0x1000 < 0xE00) d d.snapCounters := by
  have hcopies := (Frame.refl (fun x => 0xC00 ≤ x % 0x1000 ∧ x % 0x1000 < 0xE00) d).forEach d.listedCopies
    (fun x d => d.setReg x (d.reg (copied x))) fun x hx g => (Frame.refl _ g).setReg _ (d.mem_listedCopies hx)
  exact hcopies.forEach _ _ fun x hx g => (Frame.refl _ g).setReg _ (d.mem_listedCounters hx)

/-- The copies change registers alone. -/
theorem snapCounters_keeps {β : Type} (part : Dev → β) (hpart : ∀ (d : Dev) a v, part (d.setReg a v) = part d) (d : Dev) :
    part d.snapCounters = part d :=
  (forEach_keeps part _ _ (fun _ _ => hpart _ _ _) _).trans (forEach_keeps part _ _ (fun _ _ => hpart _ _ _) d)

theorem auditCapture_eq (d : Dev) {at' instant : Nat} (hs : d.aud.since = some at') (hi : d.auditInstant = some instant)
    (hc : d.aud.captured = false) :
    d.auditCapture = (d.snapAll.put64 AUD_TIME.addr instant).setAud fun x => { x with captured := true } := by
  simp [auditCapture, hi, hs, hc, when]

theorem auditInstant_due (d : Dev) {at' : Nat} (hs : d.aud.since = some at') (hi : d.aud.instant = none) :
    d.auditInstant = if at' + ns 200 ≤ d.time then some d.time else none := by
  rw [auditInstant, hs, hi]

theorem get64_lt (d : Dev) (a : Nat) : d.get64 a < 2 ^ 64 := BitVec.isLt _

/-! ### The end (R56) -/

/-- A source's channels depend on EVR and on its registers alone. -/
theorem sourceEvent_frame {P : Nat → Prop} {d e : Dev} (h : Frame P d e) (hP : ∀ i < 128, ¬ P (EVR_CH.addr i)) (hevr : e.evr = d.evr)
    (src hop : Nat) : e.sourceEvent src hop = d.sourceEvent src hop := by
  obtain ⟨-, htime, -, hreg⟩ := h
  have hnow : e.evrNow = d.evrNow := by rw [evrNow, evrNow, hevr, htime]
  have hword : ∀ i ∈ List.range 128, e.channelWord i = d.channelWord i := fun i hi => by
    rw [channelWord, channelWord, hnow, hreg _ (hP i (List.mem_range.1 hi))]
  rw [sourceEvent, sourceEvent, routesOf, routesOf, List.filter_congr fun i hi => by rw [hword i hi]]
  exact congrArg _ (List.map_congr_left fun i hi => by rw [hword i (List.mem_of_mem_filter hi)])

/-- The end of an audit before the next one: it is counted, reported and fires its source. -/
def auditCounted (d : Dev) : Dev :=
  ((d.put AUD_SEQ.SEQ (d.get AUD_SEQ.SEQ + 1)).notice .info idAUD 0x004 ((d.put AUD_SEQ.SEQ (d.get AUD_SEQ.SEQ + 1)).get AUD_SEQ.SEQ)).fireHop
    0x29 d.aud.hop

theorem auditDone_eq (d : Dev) (hb : d.is AUD_STAT.BUSY = true) (hc : d.aud.captured = true) :
    d.auditDone = if d.is AUD_STAT.HELD = true then (d.auditCounted.unset AUD_STAT.HELD).setAud fun x =>
        { since := some d.time, instant := none, captured := false, hop := x.heldHop, heldHop := 0 }
      else (d.auditCounted.unset AUD_STAT.BUSY).setAud fun _ => { since := none, instant := none, captured := false, hop := 0, heldHop := 0 } := by
  have hheld : d.auditCounted.is AUD_STAT.HELD = d.is AUD_STAT.HELD := is_put_apart d AUD_SEQ.SEQ AUD_STAT.HELD _ (by decide) (.inl (by decide))
  rw [auditDone, hb, hc, ← hheld]
  rfl

theorem auditCounted_frame (d : Dev) : Frame (· = AUD_SEQ.addr) d d.auditCounted :=
  (((Frame.refl (· = AUD_SEQ.addr) d).put (f := AUD_SEQ.SEQ) _ rfl).notice _ _ _ _).fireHop _ _

theorem auditCounted_seq (d : Dev) : d.auditCounted.get AUD_SEQ.SEQ = (d.get AUD_SEQ.SEQ + 1) % 2 ^ 32 := get_put_same d AUD_SEQ.SEQ _ (by decide)

theorem auditCounted_notice (d : Dev) : d.auditCounted.ntq.input
    = d.ntq.input ++ [⟨.info, idAUD, 0x004, word ((d.get AUD_SEQ.SEQ + 1) % 2 ^ 32), d.time⟩] := by
  rw [← auditCounted_seq]; rfl

theorem auditCounted_event (d : Dev) : d.auditCounted.evr.input = d.evr.input ++ [d.sourceEvent 0x29 d.aud.hop] := by
  have hframe : Frame (· = AUD_SEQ.addr) d ((d.put AUD_SEQ.SEQ (d.get AUD_SEQ.SEQ + 1)).notice .info idAUD 0x004
      ((d.put AUD_SEQ.SEQ (d.get AUD_SEQ.SEQ + 1)).get AUD_SEQ.SEQ)) :=
    ((Frame.refl (· = AUD_SEQ.addr) d).put (f := AUD_SEQ.SEQ) _ rfl).notice _ _ _ _
  rw [← sourceEvent_frame hframe (fun i hi => by unfold EVR_CH.addr AUD_SEQ.addr; omega) rfl]
  rfl

end Dev

section
variable {s : State} (hs : s.Ready)
include hs

theorem auditCapture_copies {at' instant : Nat} (hsince : s.dev.aud.since = some at') (hinst : s.dev.auditInstant = some instant)
    (hcap : s.dev.aud.captured = false) :
    ∃ t, exec .auditCapture s = .next t ∧ t.dev.get64 AUD_TIME.addr = instant % 2 ^ 64 ∧ t.dev.aud.captured = true
      ∧ (∀ a, 0x1_0000 ≤ a → a < 0x1FF_FE00 → 0xA00 ≤ a % 0x1000 → a % 0x1000 < 0xC00 → a / 8 ≠ (AUD_TIME.addr - 0x200) / 8 →
        a / 8 ≠ (CAD_DOMAIN_SNAP.addr - 0x200) / 8 → t.dev.reg (a + 0x200) = s.dev.reg a)
      ∧ t.dev.get64 CAD_DOMAIN_SNAP.addr = s.dev.get64 CAD_DOMAIN_OFF.addr
      ∧ t.dev.ntq = s.dev.ntq ∧ t.dev.evr.input = s.dev.evr.input ∧ s.Keeps t fun x => 0xC00 ≤ x % 0x1000 ∧ x % 0x1000 < 0xE00 := by
  let P := fun x : Nat => 0xC00 ≤ x % 0x1000 ∧ x % 0x1000 < 0xE00
  let e := s.dev.snapCounters
  have hframe : Dev.Frame P s.dev e := s.dev.snapCounters_frame
  have hoff : e.get64 CAD_DOMAIN_OFF.addr = s.dev.get64 CAD_DOMAIN_OFF.addr := hframe.get64 (by decide) (by decide)
  have hsnap : s.dev.snapAll = e.put64 CAD_DOMAIN_SNAP.addr (s.dev.get64 CAD_DOMAIN_OFF.addr) := hoff ▸ s.dev.snapAll_eq
  refine ⟨_, State.answers_run hs (f := (·.auditCapture)) rfl (s.dev.auditCapture_eq hsince hinst hcap),
    Dev.get64_put64_same s.dev.snapAll _ _, rfl, fun a ha hu hl hh htime hdom => ?_, ?_, ?_, ?_, ?_⟩
  · show (s.dev.snapAll.put64 AUD_TIME.addr instant).reg (a + 0x200) = _
    rw [Dev.reg_put64_ne _ _ (by unfold AUD_TIME.addr at htime ⊢; omega) (by unfold AUD_TIME.addr at htime ⊢; omega), hsnap,
      Dev.reg_put64_ne _ _ (by unfold CAD_DOMAIN_SNAP.addr at hdom ⊢; omega) (by unfold CAD_DOMAIN_SNAP.addr at hdom ⊢; omega)]
    exact s.dev.snapCounters_copy ha hu hl hh
  · show (s.dev.snapAll.put64 AUD_TIME.addr instant).get64 CAD_DOMAIN_SNAP.addr = _
    rw [Dev.get64_put64_ne _ _ (by decide) (by decide) (by decide), hsnap, Dev.get64_put64_same, Nat.mod_eq_of_lt (Dev.get64_lt _ _)]
  · have hntq : s.dev.snapAll.ntq = s.dev.ntq := by rw [hsnap]; exact Dev.snapCounters_keeps Dev.ntq (fun _ _ _ => rfl) s.dev
    exact hntq
  · have hevr : s.dev.snapAll.evr = s.dev.evr := by rw [hsnap]; exact Dev.snapCounters_keeps Dev.evr (fun _ _ _ => rfl) s.dev
    exact congrArg EvrState.input hevr
  · have hall : Dev.Frame P s.dev s.dev.snapAll := hsnap ▸ hframe.put64 _ (by decide) (by decide)
    exact ((hall.put64 instant (a := AUD_TIME.addr) (by decide) (by decide)).setAud _).keeps hs.2.2

theorem auditDone_ends (hb : s.dev.is AUD_STAT.BUSY = true) (hc : s.dev.aud.captured = true) :
    ∃ t, exec .auditDone s = .next t ∧ t.dev.get AUD_SEQ.SEQ = (s.dev.get AUD_SEQ.SEQ + 1) % 2 ^ 32
      ∧ t.dev.ntq.input = s.dev.ntq.input ++ [⟨.info, idAUD, 0x004, word ((s.dev.get AUD_SEQ.SEQ + 1) % 2 ^ 32), s.dev.time⟩]
      ∧ t.dev.evr.input = s.dev.evr.input ++ [s.dev.sourceEvent 0x29 s.dev.aud.hop]
      ∧ t.dev.is AUD_STAT.BUSY = s.dev.is AUD_STAT.HELD ∧ t.dev.is AUD_STAT.HELD = false
      ∧ t.dev.aud.since = (if s.dev.is AUD_STAT.HELD = true then some s.dev.time else none) ∧ t.dev.aud.captured = false
      ∧ s.Keeps t fun x => x = AUD_SEQ.addr ∨ x = AUD_STAT.addr := by
  have hbit : ∀ f : Bits, f.off = AUD_STAT.addr → s.dev.auditCounted.is f = s.dev.is f := fun f hf => by
    rw [Dev.is, Dev.is, s.dev.auditCounted_frame.get (by rw [hf]; decide)]
  have hframe : Dev.Frame (fun x => x = AUD_SEQ.addr ∨ x = AUD_STAT.addr) s.dev s.dev.auditCounted :=
    s.dev.auditCounted_frame.mono fun _ => .inl
  have hdone := s.dev.auditDone_eq hb hc
  by_cases hheld : s.dev.is AUD_STAT.HELD = true
  · rw [if_pos hheld] at hdone
    exact ⟨_, State.answers_run hs (f := (·.auditDone)) rfl hdone,
      (Dev.get_put_apart s.dev.auditCounted AUD_STAT.HELD AUD_SEQ.SEQ _ (by decide) (.inl (by decide))).trans s.dev.auditCounted_seq,
      s.dev.auditCounted_notice, s.dev.auditCounted_event,
      ((Dev.is_put_apart s.dev.auditCounted AUD_STAT.HELD AUD_STAT.BUSY 0 (by decide) (.inr (.inr (by decide)))).trans (hbit _ rfl)).trans
        (hb.trans hheld.symm),
      Dev.is_unset_same s.dev.auditCounted AUD_STAT.HELD (by decide), (if_pos hheld).symm, rfl,
      ((hframe.unset (f := AUD_STAT.HELD) (.inr rfl)).setAud _).keeps hs.2.2⟩
  · rw [if_neg hheld] at hdone
    have hfree : s.dev.is AUD_STAT.HELD = false := by simpa using hheld
    exact ⟨_, State.answers_run hs (f := (·.auditDone)) rfl hdone,
      (Dev.get_put_apart s.dev.auditCounted AUD_STAT.BUSY AUD_SEQ.SEQ _ (by decide) (.inl (by decide))).trans s.dev.auditCounted_seq,
      s.dev.auditCounted_notice, s.dev.auditCounted_event,
      (Dev.is_unset_same s.dev.auditCounted AUD_STAT.BUSY (by decide)).trans hfree.symm,
      ((Dev.is_put_apart s.dev.auditCounted AUD_STAT.BUSY AUD_STAT.HELD 0 (by decide) (.inr (.inl (by decide)))).trans (hbit _ rfl)).trans hfree,
      (if_neg hheld).symm, rfl, ((hframe.unset (f := AUD_STAT.BUSY) (.inr rfl)).setAud _).keeps hs.2.2⟩

end

end Sys2Proof.Machine

/-- Settles O4: the request, the instant, the capture and the end, one law each. -/
theorem audit : Obligations.Audit := by
  unfold Obligations.Audit
  intro s hs
  refine ⟨fun c hcause => ?_, fun at' hsince hnone => s.dev.auditInstant_due hsince hnone,
    fun at' instant hsince hinst hcap => auditCapture_copies hs hsince hinst hcap, fun hb hc => auditDone_ends hs hb hc⟩
  obtain ⟨e, hexec, h⟩ := auditRequest_sets hs c hcause
  exact ⟨_, hexec, h.busy, h.request, h.ntq, h.input, h.frame.keeps hs.2.2⟩
end

section
/-! SUPPORT. Laws of the notice queues (R46-R54): what each shared operation on a queue changes, and what it leaves. -/

open Sys2Proof Sys2Proof.Machine

namespace Sys2Proof.Machine

theorem Cls.code_lt (c : Cls) : c.code < 4 := by cases c <;> decide

namespace Dev

/-! ### Fields and registers kept -/

/-- A field reads the same on two devices that hold the same word in its register. -/
theorem get_of_reg {d e : Dev} {f : Bits} (h : e.reg f.off = d.reg f.off) : e.get f = d.get f := by rw [get, get, h]
theorem is_of_reg {d e : Dev} {f : Bits} (h : e.reg f.off = d.reg f.off) : e.is f = d.is f := by rw [is, is, get_of_reg h]

/-! ### Signals (R322-R324) -/

/-- The page of HEP. -/
abbrev HepPage (x : Nat) : Prop := x / 0x1_0000 = 2

theorem signal_frame (d : Dev) (v : Nat) : Frame HepPage d (d.signal v) := by
  unfold signal
  refine .ite (fun _ => .refl _ d) fun _ => ?_
  extract_lets marked
  have hmarked : Frame HepPage d marked := (Frame.refl _ d).setHep _
  refine .ite (fun _ => .ite (fun _ => hmarked.setHep _) fun _ => ?message) fun _ => ?level
  case message => exact (hmarked.emit _).count (a := HEP_MSIX_CNT.addr) (by decide) (by decide)
  case level =>
    refine Frame.trans ?_ (updateIntx_frame HepPage _)
    refine .ite (fun hl => hmarked.setBit v (by decide)) fun hh => hmarked.setBit (v - 32) (by decide)

theorem updateIntx_ntq (d : Dev) : d.updateIntx.ntq = d.ntq := by
  unfold updateIntx
  extract_lets pend before cleared level
  split <;> rfl

theorem signal_ntq (d : Dev) (v : Nat) : (d.signal v).ntq = d.ntq := by
  unfold signal
  split
  · rfl
  · extract_lets marked
    split
    · split <;> rfl
    · rw [updateIntx_ntq]; split <;> simp [marked]

/-! ### Class rings (R46) -/

theorem classRing_congr {d e : Dev} (h : e.ntq.rings = d.ntq.rings) (q c : Nat) : e.classRing q c = d.classRing q c := by
  rw [classRing, classRing, h]

theorem classRing_setClassRing (d : Dev) (q c : Nat) (l : List Notice) (p c' : Nat) :
    (d.setClassRing q c l).classRing p c' = if 4 * q + c = 4 * p + c' then l else d.classRing p c' := Tab.get_set _ _ _ _ _

theorem classRing_setClassRing_same (d : Dev) (q c : Nat) (l : List Notice) : (d.setClassRing q c l).classRing q c = l := by
  rw [classRing_setClassRing, if_pos rfl]

/-- The rings of other queues and classes. -/
theorem classRing_setClassRing_ne (d : Dev) {q c p c' : Nat} (l : List Notice) (hc : c < 4) (hc' : c' < 4) (h : (p, c') ≠ (q, c)) :
    (d.setClassRing q c l).classRing p c' = d.classRing p c' := by
  rw [classRing_setClassRing, if_neg]
  intro he
  exact h (by rw [Prod.mk.injEq]; omega)

theorem depths_ntq (d : Dev) (q : Nat) : (d.depths q).ntq = d.ntq := rfl

@[simp] theorem depths_classRing (d : Dev) (q p c : Nat) : (d.depths q).classRing p c = d.classRing p c := rfl
@[simp] theorem setPush_classRing (d : Dev) (q : Nat) (x : Push) (p c : Nat) : (d.setPush q x).classRing p c = d.classRing p c := rfl

theorem depths_regs (d : Dev) (q : Nat) :
    (d.depths q).reg (NTQ_DEPTH01.addr q) = word ((d.classRing q 1).length * 2 ^ 16 + (d.classRing q 0).length)
      ∧ (d.depths q).reg (NTQ_DEPTH23.addr q) = word ((d.classRing q 3).length * 2 ^ 16 + (d.classRing q 2).length) := by
  have hne : NTQ_DEPTH23.addr q ≠ NTQ_DEPTH01.addr q := by unfold NTQ_DEPTH23.addr NTQ_DEPTH01.addr; omega
  exact ⟨(reg_setReg_ne _ _ hne).trans (reg_setReg_same _ _ _), reg_setReg_same _ _ _⟩

theorem Frame.depths {P : Nat → Prop} {d e : Dev} (q : Nat) (h : Frame P d e) (h01 : P (NTQ_DEPTH01.addr q)) (h23 : P (NTQ_DEPTH23.addr q)) :
    Frame P d (e.depths q) := (h.setReg _ h01).setReg _ h23

theorem Frame.setPush {P : Nat → Prop} {d e : Dev} (q : Nat) (p : Push) (h : Frame P d e) : Frame P d (e.setPush q p) := h.other rfl rfl rfl rfl

/-! ### Emptying a queue (R49, R54) -/

theorem emptyQueue_classRing (d : Dev) (q p c : Nat) (hc : c < 4) :
    (d.emptyQueue q).classRing p c = if p = q then [] else d.classRing p c := by
  show ((((d.setClassRing q 0 []).setClassRing q 1 []).setClassRing q 2 []).setClassRing q 3 []).classRing p c = _
  simp only [classRing_setClassRing]
  split
  · rw [if_pos (by omega)]
  · split
    · rw [if_pos (by omega)]
    · split
      · rw [if_pos (by omega)]
      · split
        · rw [if_pos (by omega)]
        · rw [if_neg (by omega)]

theorem emptyQueue_frame (d : Dev) (q : Nat) : Frame (fun x => x = NTQ_DEPTH01.addr q ∨ x = NTQ_DEPTH23.addr q) d (d.emptyQueue q) :=
  (((Frame.refl _ d).forEach (List.range 4) (fun c d => d.setClassRing q c []) fun c _ g => (Frame.refl _ g).setClassRing q c []).setPush q
    ⟨(d.lastPush q).cycle, none, none⟩).depths q (.inl rfl) (.inr rfl)

/-- The depth registers of a queue that has been emptied. -/
theorem emptyQueue_depths (d : Dev) (q : Nat) : (d.emptyQueue q).reg (NTQ_DEPTH01.addr q) = 0 ∧ (d.emptyQueue q).reg (NTQ_DEPTH23.addr q) = 0 := by
  let e := (d.forEach (List.range 4) fun c d => d.setClassRing q c []).setPush q ⟨(d.lastPush q).cycle, none, none⟩
  have hring : ∀ c < 4, e.classRing q c = [] := fun c hc => (d.emptyQueue_classRing q q c hc).trans (if_pos rfl)
  have hdepths := e.depths_regs q
  rw [hring 0 (by decide), hring 1 (by decide), hring 2 (by decide), hring 3 (by decide)] at hdepths
  exact hdepths

theorem emptyQueue_input (d : Dev) (q : Nat) : (d.emptyQueue q).ntq.input = d.ntq.input :=
  forEach_keeps (fun d => d.ntq.input) (List.range 4) (fun c d => d.setClassRing q c []) (fun _ _ => rfl) d

end Dev
end Sys2Proof.Machine
end

section
/-! PROOFS. Storing, popping, peeking, arming and flushing notices (R46-R54). -/

open Sys2Proof Sys2Proof.Machine

namespace Sys2Proof.Machine
namespace Dev

/-! ### A push (R46, R49, R50, R53) -/

/-- A queue as it was: its class rings, its control word and its count of lost items. -/
structure SameQueue (d e : Dev) (q : Nat) : Prop where
  ring : ∀ c < 4, e.classRing q c = d.classRing q c
  ctl : e.reg (NTQ_CTL.addr q) = d.reg (NTQ_CTL.addr q)
  lost : e.get64 (NTQ_LOST.addr q) = d.get64 (NTQ_LOST.addr q)

theorem SameQueue.trans {d e g : Dev} {q : Nat} (h : SameQueue d e q) (k : SameQueue e g q) : SameQueue d g q :=
  ⟨fun c hc => (k.ring c hc).trans (h.ring c hc), k.ctl.trans h.ctl, k.lost.trans h.lost⟩

section
variable (d : Dev) (q : Nat) (n : Notice)

/-- The ring an item goes into is full. -/
def ringFull : Bool := ringRoom q ≤ (d.classRing q n.cls.code).length

/-- A push of the item signals. -/
def pushSignals : Bool := d.is (NTQ_CTL.EN q) && d.is (NTQ_CTL.ARM q) && bit (d.get (NTQ_CTL.IRQ_CLASS q)) n.cls.code

/-- The registers a push changes. -/
def PushRegs (x : Nat) : Prop := x = NTQ_DEPTH01.addr q ∨ x = NTQ_DEPTH23.addr q ∨ x = NTQ_LOST.addr q ∨ x = NTQ_LOST.addr q + 4
  ∨ d.pushSignals q n = true ∧ (x = NTQ_CTL.addr q ∨ HepPage x)

end

/-- What becomes of a queue that takes an item, or does not. -/
structure Stored (d e : Dev) (q : Nat) (n : Notice) (takes : Bool) : Prop where
  ring : e.classRing q n.cls.code = if (takes && d.is (NTQ_CTL.EN q)) = true
    then (d.classRing q n.cls.code).drop (ofBool (d.ringFull q n)) ++ [n] else d.classRing q n.cls.code
  rings : ∀ c < 4, c ≠ n.cls.code → e.classRing q c = d.classRing q c
  lost : e.get64 (NTQ_LOST.addr q)
    = (d.get64 (NTQ_LOST.addr q) + ofBool (takes && (!d.is (NTQ_CTL.EN q) || d.ringFull q n))) % 2 ^ 64
  arm : e.is (NTQ_CTL.ARM q) = (d.is (NTQ_CTL.ARM q) && !(takes && d.pushSignals q n))

theorem SameQueue.stored {d e : Dev} {q : Nat} (h : SameQueue d e q) (n : Notice) : Stored d e q n false :=
  ⟨h.ring _ n.cls.code_lt, fun c hc _ => h.ring c hc, by rw [h.lost]; exact (Nat.mod_eq_of_lt (get64_lt d _)).symm, by
    rw [is_of_reg (f := NTQ_CTL.ARM q) h.ctl]; simp⟩

/-- The facts of the item and the queue that a push reads. -/
theorem SameQueue.reads {d e : Dev} {q : Nat} (h : SameQueue d e q) (n : Notice) :
    e.is (NTQ_CTL.EN q) = d.is (NTQ_CTL.EN q) ∧ e.is (NTQ_CTL.ARM q) = d.is (NTQ_CTL.ARM q) ∧ e.ringFull q n = d.ringFull q n
      ∧ e.pushSignals q n = d.pushSignals q n := by
  have hen : e.is (NTQ_CTL.EN q) = d.is (NTQ_CTL.EN q) := is_of_reg h.ctl
  have harm : e.is (NTQ_CTL.ARM q) = d.is (NTQ_CTL.ARM q) := is_of_reg h.ctl
  have hirq : e.get (NTQ_CTL.IRQ_CLASS q) = d.get (NTQ_CTL.IRQ_CLASS q) := get_of_reg h.ctl
  exact ⟨hen, harm, by rw [ringFull, ringFull, h.ring _ n.cls.code_lt], by rw [pushSignals, pushSignals, hen, harm, hirq]⟩

theorem Stored.before {d e g : Dev} {q : Nat} {n : Notice} {b : Bool} (h : SameQueue d e q) (k : Stored e g q n b) : Stored d g q n b := by
  obtain ⟨hen, harm, hfull, hsig⟩ := h.reads n
  obtain ⟨hring, hrings, hlost, hg⟩ := k
  rw [hen, hfull, h.ring _ n.cls.code_lt] at hring
  rw [hen, hfull, h.lost] at hlost
  rw [harm, hsig] at hg
  exact ⟨hring, fun c hc hne => (hrings c hc hne).trans (h.ring c hc), hlost, hg⟩

theorem Stored.after {d e g : Dev} {q : Nat} {n : Notice} {b : Bool} (h : Stored d e q n b) (k : SameQueue e g q) : Stored d g q n b :=
  ⟨(k.ring _ n.cls.code_lt).trans h.ring, fun c hc hne => (k.ring c hc).trans (h.rings c hc hne), k.lost.trans h.lost,
    (is_of_reg (f := NTQ_CTL.ARM q) k.ctl).trans h.arm⟩

section
variable (d : Dev) (q : Nat) (n : Notice)

/-- The item in its class ring, before any signal. -/
def ringPushed : Dev :=
  let l := d.classRing q n.cls.code
  let full := ringRoom q ≤ l.length
  let counted := d.when full (·.count (NTQ_LOST.addr q))
  ((counted.setPush q ⟨counted.mgtCycle, some n.cls.code, if full then l.head? else none⟩).setClassRing q n.cls.code
    ((if full then l.drop 1 else l) ++ [n])).depths q

theorem ringPushed_classRing : (d.ringPushed q n).classRing q n.cls.code
    = (d.classRing q n.cls.code).drop (ofBool (d.ringFull q n)) ++ [n] := by
  rw [ringPushed, depths_classRing, classRing_setClassRing_same]
  unfold ringFull
  by_cases hfull : ringRoom q ≤ (d.classRing q n.cls.code).length <;> simp [hfull, ofBool]

theorem ringPushed_otherRing {p c : Nat} (hc : c < 4) (h : (p, c) ≠ (q, n.cls.code)) : (d.ringPushed q n).classRing p c = d.classRing p c := by
  rw [ringPushed, depths_classRing, classRing_setClassRing_ne _ _ n.cls.code_lt hc h, setPush_classRing]
  refine classRing_congr ?_ p c
  unfold Dev.when
  split <;> simp

/-- Of a full ring one item is lost. -/
theorem ringPushed_lost (hq : q < 8) :
    (d.ringPushed q n).get64 (NTQ_LOST.addr q) = (d.get64 (NTQ_LOST.addr q) + ofBool (d.ringFull q n)) % 2 ^ 64 := by
  have hdepths : ∀ e : Dev, (e.depths q).get64 (NTQ_LOST.addr q) = e.get64 (NTQ_LOST.addr q) := fun e => by
    refine ((Frame.refl (fun x => x = NTQ_DEPTH01.addr q ∨ x = NTQ_DEPTH23.addr q) e).depths q (.inl rfl) (.inr rfl)).get64 ?_ ?_ <;>
      unfold NTQ_DEPTH01.addr NTQ_DEPTH23.addr NTQ_LOST.addr <;> omega
  refine (hdepths _).trans ?_
  show (d.when (d.ringFull q n) (·.count (NTQ_LOST.addr q))).get64 (NTQ_LOST.addr q) = _
  cases d.ringFull q n
  · exact (Nat.mod_eq_of_lt (get64_lt d _)).symm
  · exact get64_count_same d _

theorem ringPushed_frame : Frame (fun x => x = NTQ_DEPTH01.addr q ∨ x = NTQ_DEPTH23.addr q ∨ x = NTQ_LOST.addr q ∨ x = NTQ_LOST.addr q + 4)
    d (d.ringPushed q n) :=
  (((((Frame.refl _ d).when' _ _ fun _ => (Frame.refl _ d).count (.inr (.inr (.inl rfl))) (.inr (.inr (.inr rfl)))).setPush _ _).setClassRing
    _ _ _).depths q (.inl rfl) (.inr (.inl rfl)))

theorem ringPushed_ctl : (d.ringPushed q n).reg (NTQ_CTL.addr q) = d.reg (NTQ_CTL.addr q) := by
  obtain ⟨-, -, -, hreg⟩ := d.ringPushed_frame q n
  refine hreg _ ?_
  unfold NTQ_CTL.addr NTQ_DEPTH01.addr NTQ_DEPTH23.addr NTQ_LOST.addr
  omega

theorem queuePush_disabled (h : d.is (NTQ_CTL.EN q) = false) :
    d.queuePush q n false = (d.setPush q ⟨d.mgtCycle, none, none⟩).count (NTQ_LOST.addr q) := by
  have hen : (d.setPush q ⟨d.mgtCycle, none, none⟩).is (NTQ_CTL.EN q) = false := h
  rw [queuePush]
  simp only [hen]
  rfl

theorem queuePush_enabled (h : d.is (NTQ_CTL.EN q) = true) :
    d.queuePush q n false = ((d.setPush q ⟨d.mgtCycle, none, none⟩).ringPushed q n).when (d.pushSignals q n) (·.queueSignal q) := by
  let e := d.setPush q ⟨d.mgtCycle, none, none⟩
  have hen : e.is (NTQ_CTL.EN q) = true := h
  have hsignals : ((e.ringPushed q n).is (NTQ_CTL.ARM q) && bit ((e.ringPushed q n).get (NTQ_CTL.IRQ_CLASS q)) n.cls.code) = d.pushSignals q n := by
    have hctl : (e.ringPushed q n).reg (NTQ_CTL.addr q) = d.reg (NTQ_CTL.addr q) := e.ringPushed_ctl q n
    rw [pushSignals, h, is_of_reg (f := NTQ_CTL.ARM q) hctl, get_of_reg (f := NTQ_CTL.IRQ_CLASS q) hctl, Bool.true_and]
  have hpush : d.queuePush q n false = (e.ringPushed q n).when
      ((e.ringPushed q n).is (NTQ_CTL.ARM q) && bit ((e.ringPushed q n).get (NTQ_CTL.IRQ_CLASS q)) n.cls.code) (·.queueSignal q) := by
    rw [queuePush]
    simp only [show (d.setPush q ⟨d.mgtCycle, none, none⟩).is (NTQ_CTL.EN q) = true from h, Bool.not_true, Bool.false_eq_true, if_false]
    rfl
  rw [hpush, hsignals]

/-! #### The signal of a queue (R50) -/

theorem queueSignal_frame : Frame (fun x => x = NTQ_CTL.addr q ∨ HepPage x) d (d.queueSignal q) :=
  ((Frame.refl _ d).unset (f := NTQ_CTL.ARM q) (.inl rfl)).trans ((signal_frame _ _).mono fun _ => .inr)

theorem queueSignal_ntq : (d.queueSignal q).ntq = d.ntq := signal_ntq _ _

theorem queueSignal_arm : (d.queueSignal q).is (NTQ_CTL.ARM q) = false := by
  have hpage : ¬ HepPage (NTQ_CTL.ARM q).off := by show ¬ NTQ_CTL.addr q / 0x1_0000 = 2; unfold NTQ_CTL.addr; omega
  refine Eq.trans ?_ (is_unset_same d (NTQ_CTL.ARM q) (by show 1 + 1 ≤ 32; decide))
  rw [queueSignal, is, is, (signal_frame _ _).get hpage]

/-! #### The push -/

theorem queuePush_frame : Frame (d.PushRegs q n) d (d.queuePush q n false) := by
  cases hen : d.is (NTQ_CTL.EN q)
  · rw [queuePush_disabled d q n hen]
    exact ((Frame.refl _ d).setPush _ _).count (.inr (.inr (.inl rfl))) (.inr (.inr (.inr (.inl rfl))))
  · rw [queuePush_enabled d q n hen]
    have hring : Frame (d.PushRegs q n) d ((d.setPush q ⟨d.mgtCycle, none, none⟩).ringPushed q n) := by
      refine ((Frame.refl _ d).setPush _ _).trans ((ringPushed_frame _ q n).mono fun x hx => ?_)
      rcases hx with h | h | h | h
      · exact .inl h
      · exact .inr (.inl h)
      · exact .inr (.inr (.inl h))
      · exact .inr (.inr (.inr (.inl h)))
    exact hring.when' _ _ fun hs => (queueSignal_frame _ q).mono fun x hx => .inr (.inr (.inr (.inr ⟨hs, hx⟩)))

/-- A push leaves the input queues, and which queues have stored what. -/
theorem queuePush_input : (d.queuePush q n false).ntq.input = d.ntq.input ∧ (d.queuePush q n false).ntq.taken = d.ntq.taken := by
  cases hen : d.is (NTQ_CTL.EN q)
  · rw [queuePush_disabled d q n hen]
    simp [setPush]
  · rw [queuePush_enabled d q n hen]
    have hsignal : ∀ e : Dev, (e.when (d.pushSignals q n) (·.queueSignal q)).ntq = e.ntq := fun e => by
      cases d.pushSignals q n <;> simp [Dev.when, queueSignal_ntq]
    rw [hsignal, ringPushed, depths_ntq]
    cases hfull : decide (ringRoom q ≤ ((d.setPush q ⟨d.mgtCycle, none, none⟩).classRing q n.cls.code).length) <;>
      simp [Dev.when, setClassRing, setPush]

theorem queuePush_otherRing {p c : Nat} (hc : c < 4) (h : (p, c) ≠ (q, n.cls.code)) : (d.queuePush q n false).classRing p c = d.classRing p c := by
  cases hen : d.is (NTQ_CTL.EN q)
  · rw [queuePush_disabled d q n hen]; exact classRing_congr (by simp [setPush]) p c
  · rw [queuePush_enabled d q n hen]
    refine Eq.trans ?_ (ringPushed_otherRing (d.setPush q ⟨d.mgtCycle, none, none⟩) q n hc h)
    exact classRing_congr (by cases d.pushSignals q n <;> simp [Dev.when, queueSignal_ntq]) p c

variable {q}

/-- What a push leaves of the other queues. -/
theorem queuePush_other (hq : q < 8) {p : Nat} (hp : p < 8) (h : p ≠ q) : SameQueue d (d.queuePush q n false) p := by
  have hframe := d.queuePush_frame q n
  have hout : ∀ x, x = NTQ_CTL.addr p ∨ x = NTQ_LOST.addr p ∨ x = NTQ_LOST.addr p + 4 → ¬ d.PushRegs q n x := fun x hx => by
    unfold PushRegs HepPage NTQ_DEPTH01.addr NTQ_DEPTH23.addr NTQ_LOST.addr NTQ_CTL.addr at *
    omega
  exact ⟨fun c hc => queuePush_otherRing d q n hc fun he => h (congrArg Prod.fst he), hframe.2.2.2 _ (hout _ (.inl rfl)),
    hframe.get64 (hout _ (.inr (.inl rfl))) (hout _ (.inr (.inr rfl)))⟩

theorem queuePush_stored (hq : q < 8) : Stored d (d.queuePush q n false) q n true := by
  have hrings : ∀ c < 4, c ≠ n.cls.code → (d.queuePush q n false).classRing q c = d.classRing q c := fun c hc hne =>
    queuePush_otherRing d q n hc fun he => hne (congrArg Prod.snd he)
  cases hen : d.is (NTQ_CTL.EN q)
  · have hpush := queuePush_disabled d q n hen
    refine ⟨?_, hrings, ?_, ?_⟩
    · rw [hpush, hen]; exact classRing_congr (by simp [setPush]) q _
    · rw [hpush, hen]; exact get64_count_same _ _
    · have hctl : ((d.setPush q ⟨d.mgtCycle, none, none⟩).count (NTQ_LOST.addr q)).reg (NTQ_CTL.addr q) = d.reg (NTQ_CTL.addr q) :=
        reg_count_ne _ (by unfold NTQ_LOST.addr NTQ_CTL.addr; omega) (by unfold NTQ_LOST.addr NTQ_CTL.addr; omega)
      rw [hpush, pushSignals, hen, is_of_reg (f := NTQ_CTL.ARM q) hctl]
      simp
  · have hpush := queuePush_enabled d q n hen
    let pushed := (d.setPush q ⟨d.mgtCycle, none, none⟩).ringPushed q n
    have hring : (d.queuePush q n false).classRing q n.cls.code = pushed.classRing q n.cls.code :=
      classRing_congr (by rw [hpush]; cases d.pushSignals q n <;> simp [Dev.when, queueSignal_ntq, pushed]) _ _
    have hlost : (d.queuePush q n false).get64 (NTQ_LOST.addr q) = pushed.get64 (NTQ_LOST.addr q) := by
      rw [hpush]
      refine ((Frame.refl _ pushed).when' _ _ fun _ => queueSignal_frame pushed q).get64 ?_ ?_ <;>
        unfold HepPage NTQ_CTL.addr NTQ_LOST.addr <;> omega
    have harm : pushed.is (NTQ_CTL.ARM q) = d.is (NTQ_CTL.ARM q) := is_of_reg (f := NTQ_CTL.ARM q) (ringPushed_ctl _ q n)
    refine ⟨?_, hrings, ?_, ?_⟩
    · rw [hring, hen]; exact ringPushed_classRing _ q n
    · rw [hlost, hen]; exact ringPushed_lost _ q n hq
    · rw [hpush]
      cases d.pushSignals q n
      · simpa [Dev.when] using harm
      · simpa [Dev.when] using queueSignal_arm pushed q

end

/-! ### The queues that take an item in one cycle (R47) -/

/-- The item into every queue of a list. -/
def pushes (d : Dev) (l : List Nat) (n : Notice) : Dev := d.forEach l fun q d => d.queuePush q n false

theorem SameQueue.refl (d : Dev) (q : Nat) : SameQueue d d q := ⟨fun _ _ => rfl, rfl, rfl⟩

theorem pushes_other {l : List Nat} (hl : ∀ q ∈ l, q < 8) (d : Dev) (n : Notice) {p : Nat} (hp : p < 8) (h : p ∉ l) :
    SameQueue d (d.pushes l n) p := by
  induction l generalizing d with
  | nil => exact .refl d p
  | cons q l ih =>
    obtain ⟨hq, hl⟩ := List.forall_mem_cons.1 hl
    rw [List.mem_cons, not_or] at h
    exact (d.queuePush_other n hq hp h.1).trans (ih hl _ h.2)

theorem pushes_stored {l : List Nat} (hl : ∀ q ∈ l, q < 8) (hnodup : l.Nodup) (d : Dev) (n : Notice) {p : Nat} (hp : p < 8) (h : p ∈ l) :
    Stored d (d.pushes l n) p n true := by
  induction l generalizing d with
  | nil => exact absurd h List.not_mem_nil
  | cons q l ih =>
    obtain ⟨hq, hl⟩ := List.forall_mem_cons.1 hl
    obtain ⟨hnot, hnodup⟩ := List.nodup_cons.1 hnodup
    by_cases he : p = q
    · rw [he]
      exact (d.queuePush_stored n hq).after (pushes_other hl _ n hq hnot)
    · exact (ih hl hnodup _ ((List.mem_cons.1 h).resolve_left he)).before (d.queuePush_other n hq hp he)

theorem pushes_frame {l : List Nat} (hl : ∀ q ∈ l, q < 8) (hnodup : l.Nodup) (d : Dev) (n : Notice) :
    Frame (fun x => ∃ q ∈ l, d.PushRegs q n x) d (d.pushes l n) := by
  induction l generalizing d with
  | nil => exact .refl _ d
  | cons q l ih =>
    obtain ⟨hq, hl⟩ := List.forall_mem_cons.1 hl
    obtain ⟨hnot, hnodup⟩ := List.nodup_cons.1 hnodup
    refine ((d.queuePush_frame q n).mono fun x hx => ⟨q, List.mem_cons_self, hx⟩).trans ((ih hl hnodup _).mono fun x hx => ?_)
    obtain ⟨p, hp, hregs⟩ := hx
    have hne : p ≠ q := fun he => hnot (he ▸ hp)
    obtain ⟨-, -, -, hsig⟩ := (d.queuePush_other n hq (hl p hp) hne).reads n
    exact ⟨p, List.mem_cons_of_mem q hp, by rwa [PushRegs, hsig] at hregs⟩

theorem pushes_input (l : List Nat) (d : Dev) (n : Notice) :
    (d.pushes l n).ntq.input = d.ntq.input ∧ (d.pushes l n).ntq.taken = d.ntq.taken :=
  ⟨forEach_keeps (fun d => d.ntq.input) l _ (fun q d => (d.queuePush_input q n).1) d,
    forEach_keeps (fun d => d.ntq.taken) l _ (fun q d => (d.queuePush_input q n).2) d⟩

/-! ### Storing the oldest item of a block (R47, R48) -/

/-- The queues that take an item now. -/
def takers (d : Dev) (n : Notice) : List Nat := (List.range 8).filter (d.takesNow n)

/-- The queues, as bits, that have the item then. -/
def doneMask (d : Dev) (n : Notice) : Nat := d.takenOf n.block ||| ((d.takers n).map (2 ^ ·)).sum

theorem bit_doneMask (d : Dev) (n : Notice) {q : Nat} (hq : q < 8) :
    bit (d.doneMask n) q = (bit (d.takenOf n.block) q || d.takesNow n q) := by
  have hsorted : (d.takers n).SortedLT := (List.pairwise_lt_range.filter _).sortedLT
  have htaker : bit ((d.takers n).map (2 ^ ·)).sum q = d.takesNow n q := by
    rw [bit, Bool.eq_iff_iff, ← Nat.mem_bitIndices, Nat.bitIndices_sum_map_two_pow hsorted, takers, List.mem_filter]
    simp [hq]
  rw [doneMask, bit, Nat.testBit_or]
  exact congrArg _ htaker

theorem routeMask_lt (d : Dev) (n : Notice) : d.routeMask n < 2 ^ 8 := by
  unfold routeMask
  split
  · split <;> decide
  · exact Nat.mod_lt _ (by decide)

/-- All queues of the item's mask have it. -/
def AllTaken (d : Dev) (n : Notice) : Prop := ∀ q : Fin 8, bit (d.routeMask n) q = true → (d.takesNow n q || bit (d.takenOf n.block) q) = true

theorem allTaken_iff (d : Dev) (n : Notice) : d.AllTaken n ↔ d.routeMask n &&& d.doneMask n = d.routeMask n := by
  constructor
  · intro h
    refine Nat.eq_of_testBit_eq fun i => ?_
    rw [Nat.testBit_and]
    by_cases hi : i < 8
    · cases hmask : (d.routeMask n).testBit i
      · rfl
      · have htaken := h ⟨i, hi⟩ hmask
        rw [Bool.or_comm] at htaken
        exact (Bool.true_and _).trans ((d.bit_doneMask n hi).trans htaken)
    · rw [Nat.testBit_lt_two_pow (Nat.lt_of_lt_of_le (d.routeMask_lt n) (Nat.pow_le_pow_right (by decide) (by omega))), Bool.false_and]
  · intro h q hmask
    have hboth : ((d.routeMask n).testBit q && (d.doneMask n).testBit q) = (d.routeMask n).testBit q := by rw [← Nat.testBit_and, h]
    rw [show (d.routeMask n).testBit q = true from hmask, Bool.true_and] at hboth
    rw [Bool.or_comm, ← d.bit_doneMask n q.isLt]
    exact hboth

/-- The device once the queues that take the item now are noted: the item leaves its block where all have it. -/
def storeNoted (d : Dev) (n : Notice) : Dev :=
  if d.routeMask n &&& d.doneMask n = d.routeMask n
  then (d.setNtq fun x => { x with input := d.ntq.input.eraseP (·.block = n.block) }).setTaken n.block 0
  else d.setTaken n.block (d.doneMask n)

theorem noticeStore_eq (d : Dev) {n : Notice} {block : Nat} (h : d.ntq.input.find? (·.block = block) = some n) :
    n.block = block ∧ d.noticeStore block 0 = (d.storeNoted n).pushes (d.takers n) n := by
  have hblock : n.block = block := by simpa using List.find?_some h
  refine ⟨hblock, ?_⟩
  rw [noticeStore, h, ← hblock]
  simp only [bit, Nat.zero_testBit]
  rfl

theorem takenOf_setTaken (d : Dev) (block mask : Nat) : (d.setTaken block mask).takenOf block = mask := Tab.get_set_same (fun _ => 0) _ _ _

/-- Noting the queues changes no queue. -/
theorem storeNoted_same (d : Dev) (n : Notice) (q : Nat) : SameQueue d (d.storeNoted n) q := by
  unfold storeNoted
  split <;> exact ⟨fun _ _ => rfl, rfl, rfl⟩

theorem storeNoted_frame (P : Nat → Prop) (d : Dev) (n : Notice) : Frame P d (d.storeNoted n) := by
  unfold storeNoted
  split <;> exact (Frame.refl P d).other rfl rfl rfl rfl

theorem storeNoted_all {d : Dev} {n : Notice} (h : d.AllTaken n) : (d.storeNoted n).ntq.input = d.ntq.input.eraseP (·.block = n.block)
    ∧ (d.storeNoted n).takenOf n.block = 0 := by
  rw [storeNoted, if_pos ((d.allTaken_iff n).1 h)]
  exact ⟨rfl, takenOf_setTaken _ _ _⟩

theorem storeNoted_some {d : Dev} {n : Notice} (h : ¬ d.AllTaken n) : (d.storeNoted n).ntq.input = d.ntq.input
    ∧ (d.storeNoted n).takenOf n.block = d.doneMask n := by
  rw [storeNoted, if_neg fun hm => h ((d.allTaken_iff n).2 hm)]
  exact ⟨rfl, takenOf_setTaken _ _ _⟩

theorem noticeStore_stored (d : Dev) (n : Notice) (q : Fin 8) :
    Stored d ((d.storeNoted n).pushes (d.takers n) n) q n (d.takesNow n q) := by
  have hl : ∀ p ∈ d.takers n, p < 8 := fun p hp => List.mem_range.1 (List.mem_of_mem_filter hp)
  have hnodup : (d.takers n).Nodup := List.nodup_range.filter _
  have hmem : q.val ∈ d.takers n ↔ d.takesNow n q = true := by simp [takers]
  cases htakes : d.takesNow n q
  · have hnot : q.val ∉ d.takers n := by rw [hmem, htakes]; simp
    exact ((d.storeNoted_same n q).trans (pushes_other hl _ n q.isLt hnot)).stored n
  · exact (pushes_stored hl hnodup _ n q.isLt (hmem.2 htakes)).before (d.storeNoted_same n q)

theorem noticeStore_frame (d : Dev) (n : Notice) :
    Frame (fun x => ∃ q : Fin 8, d.takesNow n q = true ∧ d.PushRegs q n x) d ((d.storeNoted n).pushes (d.takers n) n) := by
  have hl : ∀ p ∈ d.takers n, p < 8 := fun p hp => List.mem_range.1 (List.mem_of_mem_filter hp)
  refine (d.storeNoted_frame _ n).trans ((pushes_frame hl (List.nodup_range.filter _) _ n).mono fun x hx => ?_)
  obtain ⟨q, hq, hregs⟩ := hx
  obtain ⟨-, -, -, hsig⟩ := (d.storeNoted_same n q).reads n
  exact ⟨⟨q, hl q hq⟩, (List.mem_filter.1 hq).2, by rwa [PushRegs, hsig] at hregs⟩

end Dev

/-- NOTICE_STORE, for the machine. -/
theorem noticeStore_stores {s : State} (hs : s.Ready) {block : BitVec 8} {n : Notice}
    (h : s.dev.ntq.input.find? (·.block = block.toNat) = some n) :
    let c := n.cls.code
    let takes := fun q : Nat => s.dev.takesNow n q
    let stores := fun q : Nat => takes q && s.dev.is (NTQ_CTL.EN q)
    let full := fun q : Nat => decide (Dev.ringRoom q ≤ (s.dev.classRing q c).length)
    let signals := fun q : Nat => stores q && s.dev.is (NTQ_CTL.ARM q) && bit (s.dev.get (NTQ_CTL.IRQ_CLASS q)) c
    ∃ t, exec (.noticeStore block 0#8) s = .next t
      ∧ (s.dev.AllTaken n → t.dev.ntq.input = s.dev.ntq.input.eraseP (·.block = block.toNat) ∧ t.dev.takenOf n.block = 0)
      ∧ (¬ s.dev.AllTaken n → t.dev.ntq.input = s.dev.ntq.input
        ∧ ∀ q : Fin 8, bit (t.dev.takenOf n.block) q = (bit (s.dev.takenOf n.block) q || takes q))
      ∧ (∀ q : Fin 8, t.dev.classRing q c
            = (if stores q = true then (s.dev.classRing q c).drop (ofBool (full q)) ++ [n] else s.dev.classRing q c)
          ∧ (∀ c' : Nat, c' < 4 → c' ≠ c → t.dev.classRing q c' = s.dev.classRing q c')
          ∧ t.dev.get64 (NTQ_LOST.addr q)
            = (s.dev.get64 (NTQ_LOST.addr q) + ofBool (takes q && (!s.dev.is (NTQ_CTL.EN q) || full q))) % 2 ^ 64
          ∧ t.dev.is (NTQ_CTL.ARM q) = (s.dev.is (NTQ_CTL.ARM q) && !signals q))
      ∧ s.Keeps t fun x => ∃ q : Fin 8, takes q = true ∧ (x = NTQ_DEPTH01.addr q ∨ x = NTQ_DEPTH23.addr q ∨ x = NTQ_LOST.addr q
        ∨ x = NTQ_LOST.addr q + 4 ∨ signals q = true ∧ (x = NTQ_CTL.addr q ∨ x / 0x1_0000 = 2)) := by
  intro c takes stores full signals
  obtain ⟨hblock, hstore⟩ := s.dev.noticeStore_eq h
  let e := (s.dev.storeNoted n).pushes (s.dev.takers n) n
  obtain ⟨hinput, htaken⟩ := Dev.pushes_input (s.dev.takers n) (s.dev.storeNoted n) n
  have htakenOf : e.takenOf n.block = (s.dev.storeNoted n).takenOf n.block := by rw [Dev.takenOf, Dev.takenOf, htaken]
  have hsignals : ∀ q, signals q = (takes q && s.dev.pushSignals q n) := fun q => by simp only [signals, stores, Dev.pushSignals, Bool.and_assoc, c]
  refine ⟨s.settleTo e, State.answers_run hs (f := fun d => d.noticeStore block.toNat 0) rfl hstore, fun hall => ?_, fun hsome => ?_,
    fun q => ?_, ?_⟩
  · obtain ⟨hleft, hnone⟩ := Dev.storeNoted_all hall
    exact ⟨hblock ▸ hinput.trans hleft, htakenOf.trans hnone⟩
  · obtain ⟨hstays, hdone⟩ := Dev.storeNoted_some hsome
    refine ⟨hinput.trans hstays, fun q => ?_⟩
    rw [← s.dev.bit_doneMask n q.isLt, ← hdone]
    exact congrArg (bit · q) htakenOf
  · obtain ⟨hring, hrings, hlost, harm⟩ := s.dev.noticeStore_stored n q
    exact ⟨hring, hrings, hlost, by rw [hsignals]; exact harm⟩
  · refine ((s.dev.noticeStore_frame n).mono fun x hx => ?_).keeps hs.2.2
    obtain ⟨q, htakes, hregs⟩ := hx
    refine ⟨q, htakes, ?_⟩
    rw [hsignals, show takes q = true from htakes, Bool.true_and]
    exact hregs
namespace Dev

/-! ### The LAST registers (R51, R52) -/

theorem setLast_frame (d : Dev) (q : Nat) (w3 w2 : Word) (time : Nat) :
    Frame (fun x => NTQ_LAST2.addr q ≤ x ∧ x < NTQ_DEPTH01.addr q) d (d.setLast q w3 w2 time) := by
  have hin : ∀ x, x = NTQ_LAST0.addr q ∨ x = NTQ_LAST1.addr q ∨ x = NTQ_LAST2.addr q ∨ x = NTQ_LAST3.addr q →
      NTQ_LAST2.addr q ≤ x ∧ x < NTQ_DEPTH01.addr q := fun x hx => by
    unfold NTQ_LAST0.addr NTQ_LAST1.addr NTQ_LAST2.addr NTQ_LAST3.addr NTQ_DEPTH01.addr at *
    omega
  exact ((((Frame.refl _ d).setReg _ (hin _ (by simp))).setReg _ (hin _ (by simp))).setReg _ (hin _ (by simp))).setReg _ (hin _ (by simp))

theorem setLast_regs (d : Dev) (q : Nat) (w3 w2 : Word) (time : Nat) :
    (d.setLast q w3 w2 time).reg (NTQ_LAST3.addr q) = w3 ∧ (d.setLast q w3 w2 time).reg (NTQ_LAST2.addr q) = w2
      ∧ (d.setLast q w3 w2 time).get64 (NTQ_LAST0.addr q) = time % 2 ^ 64 := by
  have hne : NTQ_LAST1.addr q ≠ NTQ_LAST3.addr q ∧ NTQ_LAST0.addr q ≠ NTQ_LAST3.addr q ∧ NTQ_LAST2.addr q ≠ NTQ_LAST3.addr q
      ∧ NTQ_LAST1.addr q ≠ NTQ_LAST2.addr q ∧ NTQ_LAST0.addr q ≠ NTQ_LAST2.addr q := by
    unfold NTQ_LAST0.addr NTQ_LAST1.addr NTQ_LAST2.addr NTQ_LAST3.addr
    omega
  obtain ⟨h13, h03, h23, h12, h02⟩ := hne
  refine ⟨?_, ?_, ?_⟩
  · rw [setLast, reg_setReg_ne _ _ h13, reg_setReg_ne _ _ h03, reg_setReg_ne _ _ h23, reg_setReg_same]
  · rw [setLast, reg_setReg_ne _ _ h12, reg_setReg_ne _ _ h02, reg_setReg_same]
  · have hhigh : word (time / 2 ^ 32) = BitVec.extractLsb' 32 32 (BitVec.ofNat 64 time) := by
      refine BitVec.eq_of_getLsbD_eq fun i hi => ?_
      rw [word, BitVec.getLsbD_ofNat, BitVec.getLsbD_extractLsb', BitVec.getLsbD_ofNat, Nat.testBit_div_two_pow, Nat.add_comm]
      simp [hi, show 32 + i < 64 by omega]
    have hpair : d.setLast q w3 w2 time = ((d.setReg (NTQ_LAST3.addr q) w3).setReg (NTQ_LAST2.addr q) w2).put64 (NTQ_LAST0.addr q) time := by
      have hnext : NTQ_LAST1.addr q = NTQ_LAST0.addr q + 4 := by unfold NTQ_LAST1.addr NTQ_LAST0.addr; omega
      rw [setLast, hhigh, hnext]
      rfl
    rw [hpair, get64_put64_same]

theorem setLast_ntq (d : Dev) (q : Nat) (w3 w2 : Word) (time : Nat) : (d.setLast q w3 w2 time).ntq = d.ntq := rfl
theorem setLast_out (d : Dev) (q : Nat) (w3 w2 : Word) (time : Nat) : (d.setLast q w3 w2 time).out = d.out := rfl
theorem setLast_hep (d : Dev) (q : Nat) (w3 w2 : Word) (time : Nat) : (d.setLast q w3 w2 time).hep = d.hep := rfl
theorem setLast_mgt (d : Dev) (q : Nat) (w3 w2 : Word) (time : Nat) : (d.setLast q w3 w2 time).mgt = d.mgt := rfl

/-! ### A pop (R46, R52, R53) -/

section
variable (d : Dev) (q c : Nat)

/-- A push of the cycle has overwritten the oldest item of the ring. -/
def beaten : Bool := ((d.pushNow q c).bind (·.lost)).isSome

theorem dropOldest_beaten (h : d.beaten q c = true) :
    d.dropOldest q c = (d.setPush q ⟨d.mgtCycle, some c, none⟩).countBy (NTQ_LOST.addr q) (2 ^ 64 - 1) := by
  unfold beaten at h
  rw [dropOldest]
  match hp : d.pushNow q c with
  | none => simp [hp] at h
  | some ⟨_, _, none⟩ => simp [hp] at h
  | some ⟨_, _, some _⟩ => rfl

theorem dropOldest_unbeaten (h : d.beaten q c = false) : d.dropOldest q c = (d.setClassRing q c ((d.classRing q c).drop 1)).depths q := by
  unfold beaten at h
  rw [dropOldest]
  match hp : d.pushNow q c with
  | none => rfl
  | some ⟨_, _, none⟩ => rfl
  | some ⟨_, _, some _⟩ => simp [hp] at h

theorem dropOldest_classRing : (d.dropOldest q c).classRing q c = (d.classRing q c).drop (if d.beaten q c = true then 0 else 1) := by
  cases h : d.beaten q c
  · rw [dropOldest_unbeaten d q c h, depths_classRing, classRing_setClassRing_same]; rfl
  · rw [dropOldest_beaten d q c h]; exact classRing_congr (by simp [setPush]) q c

theorem dropOldest_otherRing {p c' : Nat} (hc : c < 4) (hc' : c' < 4) (hne : (p, c') ≠ (q, c)) :
    (d.dropOldest q c).classRing p c' = d.classRing p c' := by
  cases h : d.beaten q c
  · rw [dropOldest_unbeaten d q c h, depths_classRing, classRing_setClassRing_ne d _ hc hc' hne]
  · rw [dropOldest_beaten d q c h]; exact classRing_congr (by simp [setPush]) p c'

theorem dropOldest_frame : Frame (fun x => x = NTQ_DEPTH01.addr q ∨ x = NTQ_DEPTH23.addr q
    ∨ d.beaten q c = true ∧ (x = NTQ_LOST.addr q ∨ x = NTQ_LOST.addr q + 4)) d (d.dropOldest q c) := by
  cases h : d.beaten q c
  · rw [dropOldest_unbeaten d q c h]
    exact ((Frame.refl _ d).setClassRing _ _ _).depths q (.inl rfl) (.inr (.inl rfl))
  · rw [dropOldest_beaten d q c h]
    exact ((Frame.refl _ d).setPush _ _).countBy _ (.inr (.inr ⟨rfl, .inl rfl⟩)) (.inr (.inr ⟨rfl, .inr rfl⟩))

/-- The item overwritten is not lost. -/
theorem dropOldest_lost (h : d.beaten q c = true) :
    (d.dropOldest q c).get64 (NTQ_LOST.addr q) = (d.get64 (NTQ_LOST.addr q) + (2 ^ 64 - 1)) % 2 ^ 64 := by
  rw [dropOldest_beaten d q c h]; exact get64_countBy_same _ _ _

theorem dropOldest_path : (d.dropOldest q c).out = d.out ∧ (d.dropOldest q c).hep = d.hep := by
  cases h : d.beaten q c
  · rw [dropOldest_unbeaten d q c h]; exact ⟨rfl, rfl⟩
  · rw [dropOldest_beaten d q c h]; simp [setPush]

end

/-- The class a pop serves. -/
theorem topClass_eq (d : Dev) (q : Nat) {c : Nat} {n : Notice} {l : List Notice} (hc : c < 4) (hlow : ∀ c' < c, d.startRing q c' = [])
    (h : d.startRing q c = n :: l) : d.topClass q = some c := by
  rw [topClass, List.find?_range_eq_some]
  exact ⟨by rw [h]; rfl, List.mem_range.2 hc, fun c' hc' => by rw [hlow c' hc']; rfl⟩

theorem topClass_none (d : Dev) (q : Nat) (h : ∀ c < 4, d.startRing q c = []) : d.topClass q = none := by
  rw [topClass, List.find?_eq_none]
  intro c hc
  rw [h c (List.mem_range.1 hc)]
  decide

/-! ### The answers of a pop and of a peek (R33, R52) -/

theorem noticePop_top (d : Dev) (q : Nat) {c : Nat} {n : Notice} {l : List Notice} (htop : d.topClass q = some c) (h : d.startRing q c = n :: l) :
    d.noticePop q false = ((d.dropOldest q c).setLast q n.head n.arg n.time).emit (.readData (NTQ_POP.addr q) n.head) := by
  simp [noticePop, htop, h]

theorem noticePeek_top (d : Dev) (q : Nat) {c : Nat} {n : Notice} {l : List Notice} (htop : d.topClass q = some c) (h : d.startRing q c = n :: l) :
    d.noticePeek q = d.emit (.readData (NTQ_POP.addr q) n.head) := by
  simp [noticePeek, htop, h]

theorem noticePop_none (d : Dev) (q : Nat) (htop : d.topClass q = none) :
    d.noticePop q false = (d.setLast q (emptyWord q) 0 0).emit (.readData (NTQ_POP.addr q) (emptyWord q)) := by
  simp [noticePop, htop]

theorem get64_countBy_ne (d : Dev) {a b : Nat} (k : Nat) (h : a ≠ b) (h1 : a + 4 ≠ b) (h2 : a ≠ b + 4) :
    (d.countBy a k).get64 b = d.get64 b := get64_put64_ne (d.noteWas a) _ h h1 h2

/-! ### A mismatch of the pointer copies (R54, R417, R431) -/

/-- A queue emptied and counted, before the fault is logged. -/
def queueCleared (d : Dev) (q : Nat) : Dev :=
  (((d.emptyQueue q).countBy (NTQ_LOST.addr q) (d.queueItems q)).count (NTQ_RESETS.addr q)).notice .fault idNTQ 0x003
    (q * 2 ^ 24 + Nat.min 0xFFFFFF (d.queueItems q))

theorem queueReset_eq (d : Dev) (q : Nat) : d.queueReset q 0 = (d.queueCleared q).faultLog idNTQ none q 0 := rfl

/-- The fault log changes neither the queues' rings nor what is on its way to the host. -/
theorem faultLog_path (d : Dev) (block unit arg : Nat) : (d.faultLog block none unit arg).ntq.rings = d.ntq.rings
    ∧ (d.faultLog block none unit arg).out = d.out ∧ (d.faultLog block none unit arg).hep = d.hep := ⟨rfl, rfl, rfl⟩

/-- The registers of a queue that a mismatch changes, beside the LAST registers. -/
def ResetRegs (q x : Nat) : Prop := (x = NTQ_DEPTH01.addr q ∨ x = NTQ_DEPTH23.addr q)
  ∨ (x = NTQ_LOST.addr q ∨ x = NTQ_LOST.addr q + 4) ∨ (x = NTQ_RESETS.addr q ∨ x = NTQ_RESETS.addr q + 4)

section
variable (d : Dev) (q : Nat)

theorem queueCleared_frame : Frame (ResetRegs q) d (d.queueCleared q) :=
  ((((d.emptyQueue_frame q).mono fun _ => .inl).countBy _ (.inr (.inl (.inl rfl))) (.inr (.inl (.inr rfl)))).count (.inr (.inr (.inl rfl)))
    (.inr (.inr (.inr rfl)))).notice _ _ _ _

theorem queueReset_frame : Frame (ResetRegs q) d (d.queueReset q 0) := by
  rw [queueReset_eq]; exact (d.queueCleared_frame q).faultLog _ _ _ _

theorem queueCleared_ntq : (d.queueCleared q).ntq.rings = (d.emptyQueue q).ntq.rings
    ∧ (d.queueCleared q).ntq.input = d.ntq.input
      ++ [⟨.fault, idNTQ, 0x003, word (q * 2 ^ 24 + Nat.min 0xFFFFFF (d.queueItems q)), d.time⟩] := by
  have htime : (d.emptyQueue q).time = d.time := (d.emptyQueue_frame q).2.1
  simp [queueCleared, emptyQueue_input, htime]

theorem queueReset_classRing {c : Nat} (hc : c < 4) : (d.queueReset q 0).classRing q c = [] := by
  obtain ⟨hlogged, -⟩ := faultLog_path (d.queueCleared q) idNTQ q 0
  obtain ⟨hcleared, -⟩ := d.queueCleared_ntq q
  rw [queueReset_eq, classRing_congr (hlogged.trans hcleared), emptyQueue_classRing d q q c hc, if_pos rfl]

theorem queueReset_input : ∃ arg, (d.queueReset q 0).ntq.input = d.ntq.input
    ++ [⟨.fault, idNTQ, 0x003, word (q * 2 ^ 24 + Nat.min 0xFFFFFF (d.queueItems q)), d.time⟩, ⟨.info, idMGT, 0x020, arg, d.time⟩] := by
  obtain ⟨x, -, hlogged, -⟩ := faultLog_none (d.queueCleared q) idNTQ q 0
  obtain ⟨-, hcleared⟩ := d.queueCleared_ntq q
  have htime : (d.queueCleared q).time = d.time := (d.queueCleared_frame q).2.1
  exact ⟨x, by rw [queueReset_eq, hlogged, hcleared, htime, List.append_assoc]; rfl⟩

theorem emptyQueue_other {β : Type} (part : Dev → β) (hring : ∀ e c l, part (e.setClassRing q c l) = part e)
    (hpush : ∀ e p, part (e.setPush q p) = part e) (hreg : ∀ e a w, part (e.setReg a w) = part e) : part (d.emptyQueue q) = part d :=
  (hreg _ _ _).trans ((hreg _ _ _).trans ((hpush _ _).trans (forEach_keeps part _ _ (fun _ _ => hring _ _ _) d)))

theorem queueReset_counts (hq : q < 8) :
    (d.queueReset q 0).get64 (NTQ_LOST.addr q) = (d.get64 (NTQ_LOST.addr q) + d.queueItems q) % 2 ^ 64
      ∧ (d.queueReset q 0).get64 (NTQ_RESETS.addr q) = (d.get64 (NTQ_RESETS.addr q) + 1) % 2 ^ 64
      ∧ (d.queueReset q 0).mgt.logCount = d.mgt.logCount + 1 := by
  have hlogged : ∀ a, (d.queueReset q 0).get64 a = (d.queueCleared q).get64 a := fun a =>
    ((Frame.refl (fun _ => False) (d.queueCleared q)).faultLog idNTQ none q 0).get64 id id
  have hempty : ∀ a, a = NTQ_LOST.addr q ∨ a = NTQ_RESETS.addr q → (d.emptyQueue q).get64 a = d.get64 a := fun a ha =>
    (d.emptyQueue_frame q).get64 (by unfold NTQ_LOST.addr NTQ_RESETS.addr NTQ_DEPTH01.addr NTQ_DEPTH23.addr at *; omega)
      (by unfold NTQ_LOST.addr NTQ_RESETS.addr NTQ_DEPTH01.addr NTQ_DEPTH23.addr at *; omega)
  have happart : NTQ_RESETS.addr q ≠ NTQ_LOST.addr q ∧ NTQ_RESETS.addr q + 4 ≠ NTQ_LOST.addr q
      ∧ NTQ_RESETS.addr q ≠ NTQ_LOST.addr q + 4 := by
    unfold NTQ_RESETS.addr NTQ_LOST.addr; omega
  obtain ⟨h1, h2, h3⟩ := happart
  obtain ⟨x, hcount, -⟩ := faultLog_none (d.queueCleared q) idNTQ q 0
  have hmgt : (d.queueCleared q).mgt = d.mgt := by
    have hempty : (d.emptyQueue q).mgt = d.mgt := d.emptyQueue_other q Dev.mgt (fun _ _ _ => rfl) (fun _ _ => rfl) fun _ _ _ => rfl
    simp [queueCleared, hempty]
  refine ⟨?_, ?_, by rw [queueReset_eq, hcount, hmgt]⟩
  · rw [hlogged, queueCleared, notice_get64, get64_count_ne _ h1 h2 h3, get64_countBy_same, hempty _ (.inl rfl)]
  · rw [hlogged, queueCleared, notice_get64, get64_count_same, get64_countBy_ne _ _ h1.symm h3.symm h2.symm, hempty _ (.inr rfl)]

theorem queueReset_path : (d.queueReset q 0).out = d.out ∧ (d.queueReset q 0).hep = d.hep := by
  obtain ⟨-, hout, hhep⟩ := faultLog_path (d.queueCleared q) idNTQ q 0
  have hempty : (d.emptyQueue q).out = d.out ∧ (d.emptyQueue q).hep = d.hep :=
    ⟨d.emptyQueue_other q Dev.out (fun _ _ _ => rfl) (fun _ _ => rfl) fun _ _ _ => rfl,
      d.emptyQueue_other q Dev.hep (fun _ _ _ => rfl) (fun _ _ => rfl) fun _ _ _ => rfl⟩
  rw [queueReset_eq, hout, hhep]
  simp [queueCleared, hempty]

end

end Dev

section
variable {s : State} (hs : s.Ready) {r : Requester} (hr : s.dev.Reads r) (q : Fin 8)
include hs hr

/-- A pop that leaves the device as `e` and answers with a word. -/
theorem noticePop_answers {bad : Bool} {e : Dev} {w : Word} (hpop : s.dev.noticePop q bad = e.emit (.readData (NTQ_POP.addr q) w))
    (hout : e.out = s.dev.out) (hhep : e.hep = s.dev.hep) :
    ∃ t, exec (.noticePop r q bad) s = .next t ∧ (∀ a, t.dev.reg a = e.reg a) ∧ t.dev.ntq = e.ntq ∧ t.dev.mgt = e.mgt
      ∧ t.dev.out = s.dev.out ++ [s.dev.toward r (.readData (NTQ_POP.addr q) w)] ∧ ∀ P, Dev.Frame P s.dev e → s.Keeps t P := by
  have hrun : exec (.noticePop r q bad) s = s.run fun d => d.readBy r fun d => d.noticePop q bad := rfl
  have hout' : (s.dev.noticePop q bad).out = s.dev.out ++ [(NTQ_POP.addr q, w)].map fun x => .readData x.1 x.2 := by
    rw [hpop, Dev.emit, hout]; rfl
  have hcfg' : (s.dev.noticePop q bad).hep.cfg = s.dev.hep.cfg := by rw [hpop, Dev.emit, hhep]
  have hexec := State.readBy_answers hs hr hrun [(NTQ_POP.addr q, w)] hout' hcfg'
  rw [hpop] at hexec
  exact ⟨_, hexec, fun _ => rfl, rfl, rfl, rfl, fun P hframe => (hframe.other rfl rfl rfl rfl).keeps hs.2.2⟩

/-- A pop of a queue that holds an item. -/
theorem noticePop_item {c : Fin 4} {n : Notice} {l : List Notice} (hlow : ∀ c' : Nat, c' < c.val → s.dev.startRing q c' = [])
    (h : s.dev.startRing q c = n :: l) :
    ∃ t, exec (.noticePop r q false) s = .next t
      ∧ t.dev.classRing q c = (s.dev.classRing q c).drop (if s.dev.beaten q c = true then 0 else 1)
      ∧ (∀ p c' : Nat, c' < 4 → (p, c') ≠ (q.val, c.val) → t.dev.classRing p c' = s.dev.classRing p c')
      ∧ (s.dev.beaten q c = true → t.dev.get64 (NTQ_LOST.addr q) = (s.dev.get64 (NTQ_LOST.addr q) + (2 ^ 64 - 1)) % 2 ^ 64)
      ∧ t.dev.out = s.dev.out ++ [s.dev.toward r (.readData (NTQ_POP.addr q) n.head)]
      ∧ t.dev.reg (NTQ_LAST3.addr q) = n.head ∧ t.dev.reg (NTQ_LAST2.addr q) = n.arg ∧ t.dev.get64 (NTQ_LAST0.addr q) = n.time % 2 ^ 64
      ∧ s.Keeps t fun x => (NTQ_LAST2.addr q ≤ x ∧ x ≤ NTQ_DEPTH23.addr q)
        ∨ s.dev.beaten q c = true ∧ (x = NTQ_LOST.addr q ∨ x = NTQ_LOST.addr q + 4) := by
  obtain ⟨hout, hhep⟩ := s.dev.dropOldest_path q c
  have hpop := s.dev.noticePop_top q (s.dev.topClass_eq q c.isLt hlow h) h
  have hring := s.dev.dropOldest_classRing q c
  have hrings : ∀ p c' : Nat, c' < 4 → (p, c') ≠ (q.val, c.val) → _ := fun p c' => s.dev.dropOldest_otherRing q c c.isLt
  have hcount := s.dev.dropOldest_lost q c
  have hdrop := s.dev.dropOldest_frame q c
  generalize s.dev.dropOldest q c = dropped at *
  have hlast := dropped.setLast_frame q n.head n.arg n.time
  have hntq := dropped.setLast_ntq q n.head n.arg n.time
  obtain ⟨h3, h2, h0⟩ := dropped.setLast_regs q n.head n.arg n.time
  obtain ⟨t, hexec, hreg, htntq, -, htout, hkeeps⟩ := noticePop_answers hs hr q hpop
    ((Dev.setLast_out _ _ _ _ _).trans hout) ((Dev.setLast_hep _ _ _ _ _).trans hhep)
  have hrings' : t.dev.ntq.rings = dropped.ntq.rings := congrArg NtqState.rings (htntq.trans hntq)
  have hlost : t.dev.get64 (NTQ_LOST.addr q) = dropped.get64 (NTQ_LOST.addr q) := by
    rw [Dev.get64, hreg, hreg, ← Dev.get64]
    exact hlast.get64 (by unfold NTQ_LAST2.addr NTQ_LOST.addr NTQ_DEPTH01.addr; omega)
      (by unfold NTQ_LAST2.addr NTQ_LOST.addr NTQ_DEPTH01.addr; omega)
  refine ⟨t, hexec, (Dev.classRing_congr hrings' _ _).trans hring,
    fun p c' hc' hne => (Dev.classRing_congr hrings' _ _).trans (hrings p c' hc' hne),
    fun hb => hlost.trans (hcount hb), htout, (hreg _).trans h3, (hreg _).trans h2, by rw [Dev.get64, hreg, hreg]; exact h0, hkeeps _ ?_⟩
  refine (hdrop.mono fun x hx => ?_).trans (hlast.mono fun x hx => .inl ?_)
  · rcases hx with hx | hx | hx
    · exact .inl (by unfold NTQ_LAST2.addr NTQ_DEPTH23.addr; unfold NTQ_DEPTH01.addr at hx; omega)
    · exact .inl (by unfold NTQ_LAST2.addr NTQ_DEPTH23.addr; unfold NTQ_DEPTH23.addr at hx; omega)
    · exact .inr hx
  · unfold NTQ_LAST2.addr NTQ_DEPTH01.addr at hx
    unfold NTQ_LAST2.addr NTQ_DEPTH23.addr
    omega

/-- A peek of a queue that holds an item. -/
theorem noticePeek_item {c : Fin 4} {n : Notice} {l : List Notice} (hlow : ∀ c' : Nat, c' < c.val → s.dev.startRing q c' = [])
    (h : s.dev.startRing q c = n :: l) :
    ∃ t, exec (.noticePeek r q) s = .next t ∧ t.dev.ntq = s.dev.ntq
      ∧ t.dev.out = s.dev.out ++ [s.dev.toward r (.readData (NTQ_POP.addr q) n.head)] ∧ s.Keeps t fun _ => False := by
  have hpeek := s.dev.noticePeek_top q (s.dev.topClass_eq q c.isLt hlow h) h
  have hexec := State.readBy_answers hs hr (i := .noticePeek r q) (f := fun d => d.noticePeek q) rfl [(NTQ_POP.addr q, n.head)]
    (by rw [hpeek]; rfl) (by rw [hpeek]; rfl)
  rw [hpeek] at hexec
  exact ⟨_, hexec, rfl, rfl, ((Dev.Frame.refl _ s.dev).other rfl rfl rfl rfl).keeps hs.2.2⟩

/-- A pop of a queue that holds none. -/
theorem noticePop_empty (h : ∀ c : Nat, c < 4 → s.dev.startRing q c = []) :
    let w := if q = 0 then 0#32 else 0xE00FFFFF#32
    ∃ t, exec (.noticePop r q false) s = .next t ∧ t.dev.ntq = s.dev.ntq
      ∧ t.dev.out = s.dev.out ++ [s.dev.toward r (.readData (NTQ_POP.addr q) w)]
      ∧ t.dev.reg (NTQ_LAST3.addr q) = w ∧ t.dev.reg (NTQ_LAST2.addr q) = 0 ∧ t.dev.get64 (NTQ_LAST0.addr q) = 0
      ∧ s.Keeps t fun x => NTQ_LAST2.addr q ≤ x ∧ x < NTQ_DEPTH01.addr q := by
  intro w
  have hword : Dev.emptyWord q = w := by simp only [Dev.emptyWord, w, Fin.ext_iff, Fin.val_zero]; rfl
  have hpop := s.dev.noticePop_none q (s.dev.topClass_none q h)
  rw [hword] at hpop
  obtain ⟨h3, h2, h0⟩ := s.dev.setLast_regs q w 0 0
  obtain ⟨t, hexec, hreg, hntq, -, hout, hkeeps⟩ := noticePop_answers hs hr q hpop (Dev.setLast_out _ _ _ _ _) (Dev.setLast_hep _ _ _ _ _)
  exact ⟨t, hexec, hntq, hout, (hreg _).trans h3, (hreg _).trans h2, by rw [Dev.get64, hreg, hreg]; exact h0,
    hkeeps _ (s.dev.setLast_frame q w 0 0)⟩

/-- A pop that finds the pointer copies unequal. -/
theorem noticePop_mismatch : ∃ t, exec (.noticePop r q true) s = .next t
    ∧ (∀ c : Nat, c < 4 → t.dev.classRing q c = [])
    ∧ t.dev.get64 (NTQ_LOST.addr q) = (s.dev.get64 (NTQ_LOST.addr q) + s.dev.queueItems q) % 2 ^ 64
    ∧ t.dev.get64 (NTQ_RESETS.addr q) = (s.dev.get64 (NTQ_RESETS.addr q) + 1) % 2 ^ 64
    ∧ (∃ arg, t.dev.ntq.input = s.dev.ntq.input ++ [⟨.fault, idNTQ, 0x003, word (q.val * 2 ^ 24 + Nat.min 0xFFFFFF (s.dev.queueItems q)),
        s.dev.time⟩, ⟨.info, idMGT, 0x020, arg, s.dev.time⟩])
    ∧ t.dev.mgt.logCount = s.dev.mgt.logCount + 1
    ∧ s.Keeps t fun x => (NTQ_LAST2.addr q ≤ x ∧ x ≤ NTQ_DEPTH23.addr q) ∨ x / 8 = NTQ_LOST.addr q / 8
      ∨ x / 8 = NTQ_RESETS.addr q / 8 := by
  obtain ⟨hout, hhep⟩ := s.dev.queueReset_path q
  obtain ⟨hlost, hresets, hlog⟩ := s.dev.queueReset_counts q q.isLt
  have hempty : ∀ c < 4, _ := fun c hc => s.dev.queueReset_classRing q (c := c) hc
  have hinput := s.dev.queueReset_input q
  have hreset := s.dev.queueReset_frame q
  have hpop : s.dev.noticePop q true = ((s.dev.queueReset q 0).setLast q (Dev.emptyWord q) 0 0).emit
      (.readData (NTQ_POP.addr q) (Dev.emptyWord q)) := if_pos rfl
  generalize s.dev.queueReset q 0 = reset at *
  have hlast := reset.setLast_frame q (Dev.emptyWord q) 0 0
  have hntq := reset.setLast_ntq q (Dev.emptyWord q) 0 0
  have hmgt := reset.setLast_mgt q (Dev.emptyWord q) 0 0
  obtain ⟨t, hexec, hreg, htntq, htmgt, -, hkeeps⟩ := noticePop_answers hs hr q hpop
    ((Dev.setLast_out _ _ _ _ _).trans hout) ((Dev.setLast_hep _ _ _ _ _).trans hhep)
  have hrings : t.dev.ntq = reset.ntq := htntq.trans hntq
  have hpair : ∀ a, a = NTQ_LOST.addr q ∨ a = NTQ_RESETS.addr q → t.dev.get64 a = reset.get64 a := fun a ha => by
    rw [Dev.get64, hreg, hreg, ← Dev.get64]
    exact hlast.get64 (by unfold NTQ_LAST2.addr NTQ_LOST.addr NTQ_RESETS.addr NTQ_DEPTH01.addr at *; omega)
      (by unfold NTQ_LAST2.addr NTQ_LOST.addr NTQ_RESETS.addr NTQ_DEPTH01.addr at *; omega)
  refine ⟨t, hexec, fun c hc => (Dev.classRing_congr (congrArg _ hrings) q c).trans (hempty c hc), (hpair _ (.inl rfl)).trans hlost,
    (hpair _ (.inr rfl)).trans hresets, hrings ▸ hinput, (htmgt.trans hmgt) ▸ hlog, hkeeps _ ?_⟩
  refine (hreset.mono fun x hx => ?_).trans (hlast.mono fun x hx => .inl ?_)
  · rcases hx with hx | hx | hx
    · exact .inl (by unfold NTQ_LAST2.addr NTQ_DEPTH23.addr; unfold NTQ_DEPTH01.addr NTQ_DEPTH23.addr at hx; omega)
    · exact .inr (.inl (by unfold NTQ_LOST.addr at hx ⊢; omega))
    · exact .inr (.inr (by unfold NTQ_RESETS.addr at hx ⊢; omega))
  · unfold NTQ_LAST2.addr NTQ_DEPTH01.addr at hx
    unfold NTQ_LAST2.addr NTQ_DEPTH23.addr
    omega

end
namespace Dev

/-! ### Commands of NTQ_CTL (R49, R50) -/

theorem ntqCtl_commands : ∀ q : Fin 8, isCommand (NTQ_CTL.ARM q) = true ∧ isCommand (NTQ_CTL.FLUSH q) = true
    ∧ (NTQ_CTL.ARM q).mask = 2#32 ∧ (NTQ_CTL.FLUSH q).mask = 1#32 := by decide +kernel

theorem writeHook_ntqCtl (d : Dev) (q : Fin 8) (old new cmd touch : Word) : d.writeHook (NTQ_CTL.addr q) old new cmd touch
    = (d.when (cmd.getLsbD 0) (·.emptyQueue q)).when (cmd.getLsbD 1) (·.noticeArm q) := by
  have hq := q.isLt
  have hindex : (NTQ_CTL.addr q - 0xB0_0000) / 4 = q := by unfold NTQ_CTL.addr; omega
  have hl : 0xB0_0000 ≤ NTQ_CTL.addr q := by unfold NTQ_CTL.addr; omega
  have hu : NTQ_CTL.addr q < 0xB0_0020 := by unfold NTQ_CTL.addr; omega
  unfold writeHook
  rw [if_neg (by simp; omega), if_neg (by simp; omega), if_neg (by simp; omega), if_neg (by simp; omega), if_neg (by simp; omega),
    if_neg (by simp; omega), if_neg (by simp; omega), if_neg (by simp; omega), if_neg (by simp; omega), if_neg (by simp; omega),
    if_neg (by simp; omega), if_pos (by simp [hl, hu])]
  simp only [hindex]

/-- The device on which the action of a command bit of NTQ_CTL runs: its registers read the same. -/
def ctlPressed (d : Dev) (q : Nat) (f : Bits) : Dev := (d.noteWrite (NTQ_CTL.addr q) f.mask).setReg (NTQ_CTL.addr q) (d.reg (NTQ_CTL.addr q))

theorem ctlPressed_frame (P : Nat → Prop) (d : Dev) (q : Nat) (f : Bits) : Frame P d (d.ctlPressed q f) :=
  ((Frame.refl P d).other (g := d.noteWrite (NTQ_CTL.addr q) f.mask) rfl rfl rfl rfl).setReg_self _

theorem direct_ntqCtl (q : Fin 8) : Direct (NTQ_CTL.addr q) := by
  have hq := q.isLt
  exact .inr (.inr (.inr (.inr (.inr (.inr (.inr ⟨by unfold NTQ_CTL.addr; omega, by unfold NTQ_CTL.addr; omega⟩))))))

theorem press_arm (d : Dev) (r : Requester) (q : Fin 8) (h : d.Admits r (NTQ_CTL.addr q)) :
    d.press r (NTQ_CTL.ARM q) = (d.ctlPressed q (NTQ_CTL.ARM q)).noticeArm q := by
  obtain ⟨hcmd, -, hmask, -⟩ := ntqCtl_commands q
  have hpress := (press_admitted d r (NTQ_CTL.ARM q) h hcmd).trans (landWrite_direct (direct_ntqCtl q) d _ _ _ _)
  refine hpress.trans ((writeHook_ntqCtl _ q _ _ _ _).trans ?_)
  rw [hmask]
  rfl

theorem press_flush (d : Dev) (r : Requester) (q : Fin 8) (h : d.Admits r (NTQ_CTL.addr q)) :
    d.press r (NTQ_CTL.FLUSH q) = (d.ctlPressed q (NTQ_CTL.FLUSH q)).emptyQueue q := by
  obtain ⟨-, hcmd, -, hmask⟩ := ntqCtl_commands q
  have hpress := (press_admitted d r (NTQ_CTL.FLUSH q) h hcmd).trans (landWrite_direct (direct_ntqCtl q) d _ _ _ _)
  refine hpress.trans ((writeHook_ntqCtl _ q _ _ _ _).trans ?_)
  rw [hmask]
  rfl

/-! ### Arming (R50) -/

section
variable (d : Dev) (q : Nat)

/-- A queue holds an item of a class that it is to signal for. -/
def HoldsEnabled : Prop := ∃ c < 4, bit (d.get (NTQ_CTL.IRQ_CLASS q)) c = true ∧ d.classRing q c ≠ []

theorem noticeArm_idle (h : ¬ d.HoldsEnabled q) : d.noticeArm q = d.set1 (NTQ_CTL.ARM q) := by
  have hheld : ((List.range 4).any fun c => bit (d.get (NTQ_CTL.IRQ_CLASS q)) c && !(d.classRing q c).isEmpty) = false := by
    rw [List.any_eq_false]
    intro c hc
    simp only [Bool.and_eq_true, Bool.not_eq_true', List.isEmpty_eq_false_iff]
    exact fun ⟨hbit, hring⟩ => h ⟨c, List.mem_range.1 hc, hbit, hring⟩
  rw [noticeArm, hheld]
  rfl

theorem noticeArm_held (h : d.HoldsEnabled q) : d.noticeArm q = (d.set1 (NTQ_CTL.ARM q)).queueSignal q := by
  obtain ⟨c, hc, hbit, hring⟩ := h
  have hheld : ((List.range 4).any fun c => bit (d.get (NTQ_CTL.IRQ_CLASS q)) c && !(d.classRing q c).isEmpty) = true :=
    List.any_eq_true.2 ⟨c, List.mem_range.2 hc, by simpa [hbit] using hring⟩
  rw [noticeArm, hheld]
  rfl

end

/-- A signal that nothing holds back and that is the first of its HOST cycle: one message. -/
theorem signal_sent (d : Dev) (v : Nat) (hs : d.signalled v = false) (he : d.msixEnable = true) (hh : d.vectorHeld v = false) :
    Frame (fun x => x = HEP_MSIX_CNT.addr ∨ x = HEP_MSIX_CNT.addr + 4) d (d.signal v)
      ∧ ∃ addr data, (d.signal v).out = d.out ++ [.msix v addr data d.plain] := by
  let marked := d.setHep fun x => { x with signalled := Tab.set (fun _ => 0) x.signalled v d.hostCycle }
  have he' : marked.msixEnable = true := he
  have hh' : marked.vectorHeld v = false := hh
  have hsignal : d.signal v = marked.sendMsix v := by
    rw [signal]
    simp only [hs, Bool.false_eq_true, if_false]
    rw [if_pos he', if_neg (by rw [hh']; decide)]
  rw [hsignal]
  exact ⟨(((Frame.refl _ d).setHep _).emit _).count (.inl rfl) (.inr rfl), _, _, count_out _ _⟩

/-- What a signal reads of the host port. -/
theorem signal_reads {d e : Dev} (hhep : e.hep = d.hep) (htime : e.time = d.time)
    (hreg : e.reg HEP_CONTAIN_STAT.addr = d.reg HEP_CONTAIN_STAT.addr) (v : Nat) :
    e.signalled v = d.signalled v ∧ e.msixEnable = d.msixEnable ∧ e.vectorHeld v = d.vectorHeld v ∧ e.plain = d.plain := by
  have hbit : ∀ a i, e.cfgBit a i = d.cfgBit a i := fun a i => by rw [cfgBit, cfgBit, cfg, cfg, hhep]
  have hlow : e.d3hot = d.d3hot := by rw [d3hot, d3hot, cfgField, cfgField, cfg, cfg, hhep]
  have hcontained : e.contained = d.contained := is_of_reg (f := HEP_CONTAIN_STAT.CONTAINED) hreg
  refine ⟨?_, hbit _ _, ?_, by rw [plain, plain, hbit]⟩
  · rw [signalled, signalled, hostCycle, hostCycle, hhep, htime]
  · have hmask : e.msixWord v 3 = d.msixWord v 3 := by rw [msixWord, msixWord, hhep]
    rw [vectorHeld, vectorHeld, hbit, hmask, busHeld, busHeld, busMaster, busMaster, hbit, hlow, hcontained]

end Dev

section
variable {s : State} (hs : s.Ready) {r : Requester} {q : Fin 8} (h : s.dev.Admits r (NTQ_CTL.addr q))
include hs h

/-- Arming a queue that holds no item of an enabled class. -/
theorem noticeArm_waits (hnone : ∀ c : Nat, c < 4 → bit (s.dev.get (NTQ_CTL.IRQ_CLASS q)) c = true → s.dev.classRing q c = []) :
    ∃ t, exec (.noticeArm r q) s = .next t ∧ t.dev.is (NTQ_CTL.ARM q) = true ∧ t.dev.out = s.dev.out ∧ s.Keeps t (· = NTQ_CTL.addr q) := by
  let d := s.dev.ctlPressed q (NTQ_CTL.ARM q)
  have hirq : d.get (NTQ_CTL.IRQ_CLASS q) = s.dev.get (NTQ_CTL.IRQ_CLASS q) := (s.dev.ctlPressed_frame (fun _ => False) q _).get id
  have hidle : ¬ d.HoldsEnabled q := fun ⟨c, hc, hbit, hring⟩ => hring (hnone c hc (hirq ▸ hbit))
  have harm := (s.dev.press_arm r q h).trans (d.noticeArm_idle q hidle)
  exact ⟨_, State.answers_run hs (i := .noticeArm r q) (f := fun d => d.press r (NTQ_CTL.ARM q)) rfl harm,
    Dev.is_set1_same d _ rfl (by show 1 < 32; decide),
    rfl, ((s.dev.ctlPressed_frame (· = NTQ_CTL.addr q) q _).set1 (f := NTQ_CTL.ARM q) rfl).keeps hs.2.2⟩

/-- Arming a queue that holds one. -/
theorem noticeArm_signals {c : Fin 4} (hbit : bit (s.dev.get (NTQ_CTL.IRQ_CLASS q)) c = true) (hring : s.dev.classRing q c ≠ [])
    (he : s.dev.msixEnable = true) (hheld : s.dev.vectorHeld (s.dev.get (NTQ_CTL.VECTOR q)) = false)
    (hsig : s.dev.signalled (s.dev.get (NTQ_CTL.VECTOR q)) = false) :
    ∃ t, exec (.noticeArm r q) s = .next t ∧ t.dev.is (NTQ_CTL.ARM q) = false
      ∧ (∃ addr data, t.dev.out = s.dev.out ++ [.msix (s.dev.get (NTQ_CTL.VECTOR q)) addr data s.dev.plain])
      ∧ s.Keeps t fun x => x = NTQ_CTL.addr q ∨ x = HEP_MSIX_CNT.addr ∨ x = HEP_MSIX_CNT.addr + 4 := by
  let d := s.dev.ctlPressed q (NTQ_CTL.ARM q)
  let armed := d.set1 (NTQ_CTL.ARM q)
  let e := armed.unset (NTQ_CTL.ARM q)
  have hpressed := s.dev.ctlPressed_frame (fun _ => False) q (NTQ_CTL.ARM q)
  have hirq : d.get (NTQ_CTL.IRQ_CLASS q) = s.dev.get (NTQ_CTL.IRQ_CLASS q) := hpressed.get id
  have hholds : d.HoldsEnabled q := ⟨c, c.isLt, hirq.symm ▸ hbit, hring⟩
  have hvector : armed.get (NTQ_CTL.VECTOR q) = s.dev.get (NTQ_CTL.VECTOR q) :=
    (Dev.get_put_apart (d.noteSet _) (NTQ_CTL.ARM q) (NTQ_CTL.VECTOR q) 1 (by show 1 + 1 ≤ 32; decide)
      (.inr (.inl (by show 1 + 1 ≤ 16; decide)))).trans (hpressed.get id)
  have harm := (s.dev.press_arm r q h).trans (d.noticeArm_held q hholds)
  have hframe : Dev.Frame (· = NTQ_CTL.addr q) s.dev e :=
    ((s.dev.ctlPressed_frame (· = NTQ_CTL.addr q) q _).set1 (f := NTQ_CTL.ARM q) rfl).unset (f := NTQ_CTL.ARM q) rfl
  obtain ⟨hsignalled, henable, hvheld, hplain⟩ := Dev.signal_reads (d := s.dev) (e := e) rfl hframe.2.1
    (hframe.2.2.2 _ (by unfold NTQ_CTL.addr HEP_CONTAIN_STAT.addr; omega)) (s.dev.get (NTQ_CTL.VECTOR q))
  obtain ⟨hsent, addr, data, hout⟩ := e.signal_sent (s.dev.get (NTQ_CTL.VECTOR q)) (hsignalled.trans hsig) (henable.trans he) (hvheld.trans hheld)
  have hqueue : armed.queueSignal q = e.signal (s.dev.get (NTQ_CTL.VECTOR q)) := by rw [Dev.queueSignal, hvector]
  have hoff := armed.queueSignal_arm q
  rw [hqueue] at harm hoff
  exact ⟨_, State.answers_run hs (i := .noticeArm r q) (f := fun d => d.press r (NTQ_CTL.ARM q)) rfl harm, hoff, ⟨addr, data, hplain ▸ hout⟩,
    ((hframe.mono fun _ => .inl).trans (hsent.mono fun _ => .inr)).keeps hs.2.2⟩

/-- FLUSH. -/
theorem noticeFlush_empties : ∃ t, exec (.noticeFlush r q) s = .next t ∧ (∀ c : Nat, c < 4 → t.dev.classRing q c = [])
    ∧ t.dev.reg (NTQ_DEPTH01.addr q) = 0 ∧ t.dev.reg (NTQ_DEPTH23.addr q) = 0
    ∧ s.Keeps t fun x => x = NTQ_DEPTH01.addr q ∨ x = NTQ_DEPTH23.addr q := by
  have hexec := State.answers_run hs (i := .noticeFlush r q) (f := fun d => d.press r (NTQ_CTL.FLUSH q)) rfl (s.dev.press_flush r q h)
  have hframe := (s.dev.ctlPressed_frame _ q (NTQ_CTL.FLUSH q)).trans (Dev.emptyQueue_frame _ q)
  obtain ⟨h01, h23⟩ := (s.dev.ctlPressed q (NTQ_CTL.FLUSH q)).emptyQueue_depths q
  have hempty : ∀ c < 4, ((s.dev.ctlPressed q (NTQ_CTL.FLUSH q)).emptyQueue q).classRing q c = [] := fun c hc =>
    (Dev.emptyQueue_classRing _ q q c hc).trans (if_pos rfl)
  generalize (s.dev.ctlPressed q (NTQ_CTL.FLUSH q)).emptyQueue q = e at *
  exact ⟨_, hexec, hempty, h01, h23, hframe.keeps hs.2.2⟩

end

end Sys2Proof.Machine

/-- Settles O3: the stores are pushes along the queues that take the item, the pops and the commands of NTQ_CTL one law each. -/
theorem noticeQueues : Obligations.NoticeQueues := by
  unfold Obligations.NoticeQueues
  refine ⟨fun s block n hs h => ⟨fun _ => rfl, noticeStore_stores hs h⟩, fun s r q hs hr => ⟨fun _ => rfl, fun c n l hlow h => ?_,
    fun h => noticePop_empty hs hr q h, noticePop_mismatch hs hr q⟩, fun s r q hs h => ?_⟩
  · exact ⟨noticePop_item hs hr q hlow h, noticePeek_item hs hr q hlow h⟩
  · exact ⟨fun hnone => noticeArm_waits hs h hnone, fun c hbit hring he hheld hsig => noticeArm_signals hs h hbit hring he hheld hsig,
      noticeFlush_empties hs h⟩
end

section
/-! SUPPORT. Operations that add notices and leave the channels and CAD's values in force alone, with a frame; and changes of the mode (R85, R87). -/

open Sys2Proof Sys2Proof.Machine

namespace Sys2Proof.Machine
namespace Dev

/-- From `d` to `e`, only registers that `P` names change, notices are only added, the DMA channels stay, and so do the values in force of the
blocks below the charter (CAD and the ports). -/
structure Grows (P : Nat → Prop) (d e : Dev) : Prop where
  frame : Frame P d e
  told : d.ntq.input <+: e.ntq.input
  dma : e.dma = d.dma
  force : ∀ a < 0x40_0000, e.force1 a = d.force1 a

namespace Grows
variable {P Q : Nat → Prop} {d e : Dev}

theorem refl (P : Nat → Prop) (d : Dev) : Grows P d d := ⟨.refl P d, List.prefix_rfl, rfl, fun _ _ => rfl⟩

theorem trans {g : Dev} (h : Grows P d e) (k : Grows P e g) : Grows P d g :=
  ⟨h.frame.trans k.frame, h.told.trans k.told, k.dma.trans h.dma, fun a ha => (k.force a ha).trans (h.force a ha)⟩

theorem mono (h : Grows P d e) (hpq : ∀ a, P a → Q a) : Grows Q d e := ⟨h.frame.mono hpq, h.told, h.dma, h.force⟩

/-- An operation on other state. -/
theorem other {g : Dev} (h : Grows P d e) (hw : g.vlt.writes = e.vlt.writes) (ht : g.time = e.time) (hl : g.low = e.low) (hr : g.regs = e.regs)
    (hn : g.ntq = e.ntq) (hd : g.dma = e.dma) (hf : g.force = e.force) : Grows P d g :=
  h.trans ⟨(Frame.refl P e).other hw ht hl hr, hn ▸ List.prefix_rfl, hd, fun a _ => by rw [force1, force1, hf]⟩

theorem setReg {a : Nat} (v : Word) (h : Grows P d e) (ha : P a) : Grows P d (e.setReg a v) := ⟨h.frame.setReg v ha, h.told, h.dma, h.force⟩
theorem put {f : Bits} (n : Nat) (h : Grows P d e) (ha : P f.off) : Grows P d (e.put f n) := h.setReg _ ha
theorem set1 {f : Bits} (h : Grows P d e) (ha : P f.off) : Grows P d (e.set1 f) := (h.other (g := e.noteSet f) rfl rfl rfl rfl rfl rfl rfl).put 1 ha
theorem unset {f : Bits} (h : Grows P d e) (ha : P f.off) : Grows P d (e.unset f) := h.setReg _ ha
theorem put64 {a : Nat} (n : Nat) (h : Grows P d e) (ha : P a) (hb : P (a + 4)) : Grows P d (e.put64 a n) := (h.setReg _ ha).setReg _ hb
theorem count {a : Nat} (h : Grows P d e) (ha : P a) (hb : P (a + 4)) : Grows P d (e.count a) :=
  (h.other (g := e.noteWas a) rfl rfl rfl rfl rfl rfl rfl).put64 _ ha hb

theorem hwPut {f : Bits} (n : Nat) (h : Grows P d e) (ha : P f.off) : Grows P d (e.hwPut f n) := by
  unfold Dev.hwPut; split
  · exact h
  · exact h.put n ha

theorem notice (c : Cls) (b code arg : Nat) (h : Grows P d e) : Grows P d (e.notice c b code arg) :=
  ⟨h.frame.notice c b code arg, h.told.trans (List.prefix_append _ _), h.dma, h.force⟩

theorem stamp (m : Mark) (h : Grows P d e) : Grows P d (e.stamp m) := h.other rfl rfl rfl rfl rfl rfl rfl
theorem setCad (f : CadState → CadState) (h : Grows P d e) : Grows P d (e.setCad f) := h.other rfl rfl rfl rfl rfl rfl rfl
theorem setClr (f : ClrState → ClrState) (h : Grows P d e) : Grows P d (e.setClr f) := h.other rfl rfl rfl rfl rfl rfl rfl
theorem setPk (p : Nat) (f : Packets → Packets) (h : Grows P d e) : Grows P d (e.setPk p f) := h.other rfl rfl rfl rfl rfl rfl rfl
theorem setColumn (k : Nat) (f : Column → Column) (h : Grows P d e) : Grows P d (e.setColumn k f) := h.other rfl rfl rfl rfl rfl rfl rfl
theorem setTeller (t : Nat) (f : Teller → Teller) (h : Grows P d e) : Grows P d (e.setTeller t f) := h.other rfl rfl rfl rfl rfl rfl rfl
theorem setFrame (id : Nat) (f : Machine.Frame → Machine.Frame) (h : Grows P d e) : Grows P d (e.setFrame id f) := h.other rfl rfl rfl rfl rfl rfl rfl
theorem setRing (r : Nat) (f : Ring → Ring) (h : Grows P d e) : Grows P d (e.setRing r f) := h.other rfl rfl rfl rfl rfl rfl rfl
theorem setReplay (k : Nat) (f : Replay → Replay) (h : Grows P d e) : Grows P d (e.setReplay k f) := h.other rfl rfl rfl rfl rfl rfl rfl
theorem setMgt (f : MgtState → MgtState) (h : Grows P d e) : Grows P d (e.setMgt f) := h.other rfl rfl rfl rfl rfl rfl rfl
theorem emit (o : Out) (h : Grows P d e) : Grows P d (e.emit o) := h.other rfl rfl rfl rfl rfl rfl rfl
theorem pushHistory (n : Nat) (h : Grows P d e) : Grows P d (e.pushHistory n) := h.other rfl rfl rfl rfl rfl rfl rfl

theorem ite {c : Prop} [Decidable c] {e g : Dev} (he : c → Grows P d e) (hg : ¬ c → Grows P d g) : Grows P d (if c then e else g) := by
  split
  · exact he ‹_›
  · exact hg ‹_›

theorem when' (c : Bool) (f : Dev → Dev) (h : Grows P d e) (hf : c = true → Grows P d (f e)) : Grows P d (e.when c f) := ite hf fun _ => h

theorem atMost (m : Mark) (period : Nat) (f : Dev → Dev) (h : Grows P d e) (hf : Grows P d (f e)) : Grows P d (e.atMost m period f) :=
  h.when' _ _ fun _ => hf.stamp m

theorem forEach {α : Type} (l : List α) (f : α → Dev → Dev) (h : Grows P d e) (hf : ∀ a ∈ l, ∀ g, Grows P d g → Grows P d (f a g)) :
    Grows P d (e.forEach l f) := by
  unfold Dev.forEach
  induction l generalizing e with
  | nil => exact h
  | cons a t ih => exact ih (hf a (by simp) e h) fun b hb => hf b (by simp [hb])

end Grows

/-! ### Fields outside a frame -/

theorem Frame.is {P : Nat → Prop} {d e : Dev} (h : Frame P d e) {g : Bits} (hg : ¬ P g.off) : e.is g = d.is g := by
  rw [Dev.is, Dev.is, h.get hg]

theorem Frame.pushHistory {P : Nat → Prop} {d e : Dev} (n : Nat) (h : Frame P d e) : Frame P d (e.pushHistory n) := h.other rfl rfl rfl rfl

/-! ### What software has written in the cycle (R35) -/

theorem softWrote_congr {d e : Dev} (hc : e.cyc = d.cyc) (ht : e.time = d.time) (f : Bits) : e.softWrote f = d.softWrote f := by
  rw [softWrote, softWrote, cycNow, cycNow, hc, ht]

/-! ### The mode (R85, R87) -/

section
variable (d : Dev) (m : Nat)

theorem mode_lt : d.mode < 16 := Nat.mod_lt _ (by decide)

/-- DCT_MODE after a change of CUR, but for NEXT. -/
def modePut : Dev := ((d.put DCT_MODE.PREV d.mode).put DCT_MODE.BASE (if m = 7 then d.actMode else m)).put DCT_MODE.CUR m

/-- A change of CUR before it is reported. -/
def modeEntered : Dev :=
  if m = 7 then (d.modePut m).hwPut DCT_MODE.NEXT m else ((d.modePut m).hwPut DCT_MODE.NEXT m).setMgt fun x => { x with safeCause := 0 }

theorem setMode_eq : d.setMode m = (d.modeEntered m).notice .event idDCT 0x010 (d.mode * 16 + m) := rfl

/-- What software and the cause of SAFE do not concern. -/
theorem modeEntered_keeps {β : Type} (part : Dev → β) (h : ∀ e f, part (setMgt e f) = part e) :
    part (d.modeEntered m) = part ((d.modePut m).hwPut DCT_MODE.NEXT m) := by
  unfold modeEntered; split
  · rfl
  · exact h _ _

theorem setMode_grows : Grows (· = DCT_MODE.addr) d (d.setMode m) := by
  have hput : Grows (· = DCT_MODE.addr) d (d.modePut m) :=
    (((Grows.refl (· = DCT_MODE.addr) d).put (f := DCT_MODE.PREV) _ rfl).put (f := DCT_MODE.BASE) _ rfl).put (f := DCT_MODE.CUR) _ rfl
  have hnext := hput.hwPut (f := DCT_MODE.NEXT) m rfl
  rw [setMode_eq]
  exact (Grows.ite (fun _ => hnext) fun _ => hnext.setMgt _).notice _ _ _ _

theorem setMode_get (f : Bits) : (d.setMode m).get f = ((d.modePut m).hwPut DCT_MODE.NEXT m).get f := by
  rw [setMode_eq, notice_get]
  exact d.modeEntered_keeps m (·.get f) fun _ _ => rfl

theorem hwPut_get_apart (f g : Bits) (hf : f.lo + f.w ≤ 32) (h : apart f g) : (d.hwPut f m).get g = d.get g := by
  unfold hwPut; split
  · rfl
  · exact get_put_apart d f g m hf h

theorem setMode_mode : (d.setMode m).mode = m % 16 := by
  rw [mode, setMode_get, hwPut_get_apart _ _ _ _ (by decide) (.inr (.inl (by decide)))]
  exact get_put_same _ _ _ (by decide)

theorem setMode_prev : (d.setMode m).get DCT_MODE.PREV = d.mode := by
  rw [setMode_get, hwPut_get_apart _ _ _ _ (by decide) (.inr (.inl (by decide))), modePut,
    get_put_apart _ DCT_MODE.CUR _ _ (by decide) (.inr (.inl (by decide))),
    get_put_apart _ DCT_MODE.BASE _ _ (by decide) (.inr (.inr (by decide))), get_put_same _ _ _ (by decide)]
  exact Nat.mod_eq_of_lt d.mode_lt

theorem setMode_next (h : d.softWrote DCT_MODE.NEXT = false) : (d.setMode m).get DCT_MODE.NEXT = m % 16 := by
  have hsoft : (d.modePut m).softWrote DCT_MODE.NEXT = false := (softWrote_congr (by simp [modePut]) (by simp [modePut]) _).trans h
  rw [setMode_get, hwPut, hsoft]
  exact get_put_same _ _ _ (by decide)

theorem modeEntered_ntq : (d.modeEntered m).ntq = d.ntq := by
  rw [d.modeEntered_keeps m (·.ntq) fun _ _ => rfl]; simp [modePut]
theorem modeEntered_time : (d.modeEntered m).time = d.time := by
  rw [d.modeEntered_keeps m (·.time) fun _ _ => rfl]; simp [modePut]

theorem setMode_input : (d.setMode m).ntq.input = d.ntq.input ++ [⟨.event, idDCT, 0x010, word (d.mode * 16 + m), d.time⟩] := by
  rw [setMode_eq, ← modeEntered_ntq d m, ← modeEntered_time d m]; rfl

theorem setMode_out : (d.setMode m).out = d.out := by
  rw [setMode_eq, notice_out, d.modeEntered_keeps m (·.out) fun _ _ => rfl]; simp [modePut]

end
end Dev
end Sys2Proof.Machine
end

section
/-! PROOFS. Drains: the stop of the cadence, the work that a timeout abandons, and the limit (R80, R85, R87, R88). -/

open Sys2Proof Sys2Proof.Machine

namespace Sys2Proof.Machine
namespace Dev

/-! ### The stop of the cadence (R80, R87) -/

section
variable (d : Dev)

theorem busStop_grows (P : Nat → Prop) (n t : Nat) : Grows P d (d.busStop n t) := by
  have hsent : Grows P d ((d.busEmit n t true).setCad fun c => { c with busStopDue := none }) := (((Grows.refl P d).emit _).setCad _).setCad _
  unfold busStop
  split
  · exact .ite (fun _ => (Grows.refl P d).setCad _) fun _ => hsent
  · exact hsent

theorem busStop_ntq (n t : Nat) : (d.busStop n t).ntq = d.ntq := by
  unfold busStop
  split
  · split <;> rfl
  · rfl

/-- The number and time of the STOP frame; with ANGLE the time is drawn. -/
def stopNext : Nat × Nat := d.nextTick.getD (d.nextNum, Config.openValue d.fresh 0 % 2 ^ 64)
def stopDrawn : Dev := if d.forceGet CAD_CTL.BUS_ROLE = 1 && d.nextTick.isNone then d.draw else d

/-- What the leader tells the followers as the cadence stops. -/
def stopTold : Dev := d.stopDrawn.when (d.forceGet CAD_CTL.BUS_ROLE = 1) fun e => e.busStop d.stopNext.1 d.stopNext.2

theorem stopTold_grows (P : Nat → Prop) : Grows P d d.stopTold := by
  have hdrawn : Grows P d d.stopDrawn := .ite (fun _ => (Grows.refl P d).other rfl rfl rfl rfl rfl rfl rfl) fun _ => .refl P d
  exact hdrawn.when' _ _ fun _ => hdrawn.trans (busStop_grows _ P _ _)

theorem stopTold_ntq : d.stopTold.ntq = d.ntq := by
  have hdrawn : d.stopDrawn.ntq = d.ntq := by unfold stopDrawn; split <;> rfl
  unfold stopTold when
  split
  · exact (busStop_ntq _ _ _).trans hdrawn
  · exact hdrawn

/-- A board that is no leader tells nothing. -/
theorem stopTold_alone (h : d.forceGet CAD_CTL.BUS_ROLE ≠ 1) : d.stopTold = d := by simp [stopTold, stopDrawn, when, h]

/-- The cadence's own state after its stop. -/
def cadStopped (c : CadState) (time : Nat) : CadState :=
  { c with
    startAt := none, planned := [], drainAt := none
    apply := c.apply.map fun a => { a with tick := none, standbyAt := some (ceil4000 (Nat.max (a.goAt + us 2) time)) } }

theorem stopCadence_eq : d.stopCadence = ((d.stopTold.pushHistory d.stopTold.nextNum).unset CAD_STAT.RUNNING).setCad
    fun c => cadStopped c (d.stopTold.pushHistory d.stopTold.nextNum).time := rfl

theorem stopCadence_grows : Grows (· = CAD_STAT.addr) d d.stopCadence := by
  rw [stopCadence_eq]
  exact (((d.stopTold_grows (· = CAD_STAT.addr)).pushHistory _).unset (f := CAD_STAT.RUNNING) rfl).setCad _

theorem stopCadence_ntq : d.stopCadence.ntq = d.ntq := by rw [stopCadence_eq]; exact d.stopTold_ntq

theorem stopCadence_ticking : d.stopCadence.ticking = false := by
  rw [stopCadence_eq]; exact is_unset_same (d.stopTold.pushHistory d.stopTold.nextNum) CAD_STAT.RUNNING (by decide)

/-! ### The end of a drain (R87) -/

theorem drainEnd_frame : Frame (fun a => a = DCT_MODE.addr ∨ a = CAD_STAT.addr) d d.drainEnd :=
  ((d.stopCadence_grows.frame.mono fun _ => .inr).trans ((setMode_grows _ _).frame.mono fun _ => .inl)).setCad _

theorem drainEnd_get (f : Bits) : d.drainEnd.get f = (d.stopCadence.setMode 0).get f := setCad_get _ _ _

theorem drainEnd_mode : d.drainEnd.mode = 0 := (d.drainEnd_get _).trans (setMode_mode d.stopCadence 0)

theorem stopCadence_mode : d.stopCadence.mode = d.mode := d.stopCadence_grows.frame.get (by decide)

theorem drainEnd_prev : d.drainEnd.get DCT_MODE.PREV = d.mode :=
  (d.drainEnd_get _).trans ((setMode_prev d.stopCadence 0).trans d.stopCadence_mode)

theorem drainEnd_ticking : d.drainEnd.ticking = false := by
  have hkept : d.drainEnd.get CAD_STAT.RUNNING = d.stopCadence.get CAD_STAT.RUNNING :=
    (d.drainEnd_get _).trans ((setMode_grows d.stopCadence 0).frame.get (by decide))
  rw [ticking, is, hkept]
  exact d.stopCadence_ticking

/-- MODE_CHANGED of a drain's end. -/
theorem drainEnd_input (h : d.mode = 6) : d.drainEnd.ntq.input = d.ntq.input ++ [⟨.event, idDCT, 0x010, 0x60#32, d.time⟩] := by
  rw [drainEnd, setCad_ntq, setMode_input, stopCadence_ntq, stopCadence_mode, h, d.stopCadence_grows.frame.2.1]; rfl

/-- Where the board is no leader, its stop changes the cadence alone. -/
theorem stopCadence_alone (h : d.forceGet CAD_CTL.BUS_ROLE ≠ 1) : d.stopCadence = ((d.pushHistory d.nextNum).unset CAD_STAT.RUNNING).setCad
    fun c => cadStopped c d.time := by rw [stopCadence_eq, stopTold_alone d h]; rfl

theorem drainEnd_out (h : d.forceGet CAD_CTL.BUS_ROLE ≠ 1) : d.drainEnd.out = d.out := by
  rw [drainEnd, setCad_out, setMode_out, stopCadence_alone d h, setCad_out, unset_out]; rfl

theorem drainEnd_next (h : d.forceGet CAD_CTL.BUS_ROLE ≠ 1) (hsoft : d.softWrote DCT_MODE.NEXT = false) : d.drainEnd.get DCT_MODE.NEXT = 0 := by
  have hcyc : d.stopCadence.cyc = d.cyc := by rw [stopCadence_alone d h, setCad_cyc, unset_cyc]; rfl
  exact (d.drainEnd_get _).trans (setMode_next d.stopCadence 0 ((softWrote_congr hcyc d.stopCadence_grows.frame.2.1 _).trans hsoft))

theorem drainEnd_exposures : d.drainEnd.cad.exposures = [] := rfl

/-! ### The work that a timeout abandons (R87) -/

/-- The registers of the ports, the tellers and what lies behind them. -/
abbrev WorkRegs (a : Nat) : Prop := (0x10 ≤ a / 0x1_0000 ∧ a / 0x1_0000 < 0x20) ∨ 0x50_0000 ≤ a

theorem noteAdvance_grows (P : Nat → Prop) (p : Nat) : Grows P d (d.noteAdvance p) :=
  (Grows.refl P d).when' _ _ fun _ => (Grows.refl P d).setPk _ _

theorem consume_grows {P : Nat → Prop} {p : Nat} (hp : P (AVP_CREDIT_USED.addr p)) (n : Nat) : Grows P d (d.consume p n) :=
  ((Grows.refl P d).put (f := AVP_CREDIT_USED.USED p) _ hp).trans (noteAdvance_grows _ P p)

theorem endExposure_grows (P : Nat → Prop) (h source id : Nat) : Grows P d (d.endExposure h source id) := (Grows.refl P d).setCad _

theorem discardEnds_grows (P : Nat → Prop) (h source id : Nat) : Grows P d (d.discardEnds h source id) :=
  (Grows.refl P d).when' _ _ fun _ => d.endExposure_grows P h source id

theorem addPart_grows (P : Nat → Prop) (id : Nat) (part : BandPart) : Grows P d (d.addPart id part) := by
  unfold addPart
  extract_lets e
  have hpart : Grows P d e := (Grows.refl P d).setFrame _ _
  split
  · exact hpart.when' _ _ fun _ => hpart.trans (endExposure_grows _ P _ _ _)
  · exact hpart

/-- The close of a band touches registers of its port alone (R136). -/
theorem closeBand_grows {P : Nat → Prop} {p : Nat} (hused : P (AVP_CREDIT_USED.addr p)) (hcnt : P (AVP_FRAME_CNT.addr p))
    (hcnt' : P (AVP_FRAME_CNT.addr p + 4)) (trunc crc : Bool) (sent : Option (Nat × Nat)) : Grows P d (d.closeBand p trunc crc sent) := by
  unfold closeBand
  split
  · exact .refl P d
  · next b _ =>
    extract_lets rest stays d1 d2 d3 flags
    have h1 : Grows P d d1 := (Grows.refl P d).setPk _ _
    have h3 : Grows P d d3 := (h1.trans (d1.consume_grows hused _)).count hcnt hcnt'
    split
    · exact h3.trans (d3.addPart_grows P _ _)
    · exact .ite (fun _ => h3.trans (d3.endExposure_grows P _ _ _)) fun _ =>
        (h3.setPk _ _).trans (discardEnds_grows _ P _ _ _)

/-- The work that a timeout abandons touches registers of the ports and the tellers, and no notice is lost. -/
theorem abandon_grows : Grows WorkRegs d d.abandon := by
  unfold abandon
  extract_lets d1 d2 d3
  have h1 : Grows WorkRegs d d1 := (Grows.refl _ d).forEach _ _ fun p hp g hg => by
    have hp := List.mem_range.1 hp
    exact (hg.trans (closeBand_grows g (by unfold AVP_CREDIT_USED.addr; omega) (by unfold AVP_FRAME_CNT.addr; omega)
      (by unfold AVP_FRAME_CNT.addr; omega) true false none)).setPk _ _
  have h2 : Grows WorkRegs d d2 := h1.forEach _ _ fun e _ g hg =>
    (hg.put64 _ (.inr (by unfold CHT_T_WORK.addr; omega)) (.inr (by unfold CHT_T_WORK.addr; omega))).setTeller _ _
  exact (h2.forEach _ _ fun k _ g hg => hg.setColumn _ _).setClr _

/-! ### A timeout (R85, R87) -/

variable {d} {e : Dev}

theorem actMode_of (h : d.mode = 6) : d.actMode = 6 := by rw [actMode, if_neg (by omega), h]

theorem actMode_frame {P : Nat → Prop} (h : Frame P d e) (hP : ¬ P DCT_MODE.addr) : e.actMode = d.actMode := by
  have hmode : e.mode = d.mode := h.get hP
  rw [actMode, actMode, hmode, h.get (g := DCT_MODE.BASE) hP]

/-- What the stages abandon, and its report. -/
def timedOut (d : Dev) (since' : Nat) : Dev := d.abandon.notice .alert idDCT 0x012 ((d.time - since') / ms 1)

theorem drainTimeout_due {since' : Nat} (hm : d.mode = 6) (hat : d.cad.drainAt = some since')
    (hdue : since' + ms (d.get DCT_DRAIN_LIMIT.LIMIT) ≤ d.time) : d.drainTimeout = (d.timedOut since').drainEnd := by
  simp [drainTimeout, hat, hdue, actMode_of hm, timedOut, when]

/-- Outside DRAIN nothing times out. -/
theorem drainTimeout_idle (h : d.actMode ≠ 6) : d.drainTimeout = d := by
  unfold drainTimeout
  split
  · rfl
  · simp [h, when]

theorem timedOut_frame (since' : Nat) : Frame WorkRegs d (d.timedOut since') := d.abandon_grows.frame.notice _ _ _ _

theorem timedOut_mode (since' : Nat) : (d.timedOut since').mode = d.mode := (timedOut_frame since').get (by decide)

theorem timedOut_input (since' : Nat) : ∃ l, (d.timedOut since').ntq.input
    = d.ntq.input ++ l ++ [⟨.alert, idDCT, 0x012, word ((d.time - since') / ms 1), d.time⟩] := by
  obtain ⟨l, hl⟩ := d.abandon_grows.told
  have htime : d.abandon.time = d.time := d.abandon_grows.frame.2.1
  have htold : (d.timedOut since').ntq.input
    = d.abandon.ntq.input ++ [⟨.alert, idDCT, 0x012, word ((d.time - since') / ms 1), d.abandon.time⟩] := rfl
  exact ⟨l, by rw [htold, hl, htime]⟩

/-! ### A write of the limit (R36, R85) -/

end

section
variable {f : Bits} (hf : f.lo + f.w ≤ 32)
include hf

/-- A field of a word in which it is replaced. -/
theorem of_into (w : Word) (n : Nat) : f.of (f.into w n) = n % 2 ^ f.w := by
  apply Nat.eq_of_testBit_eq; intro i
  rw [Bits.of, testBit_slice, BitVec.testBit_toNat, into_bit f w n _ hf, Nat.testBit_mod_two_pow]
  by_cases hi : i < f.w
  · rw [if_pos (by omega)]; simp [hi]
  · simp [hi]

/-- A field put back to what it was. -/
theorem into_into_of (w : Word) (n : Nat) : f.into (f.into w n) (f.of w) = w := by
  refine BitVec.eq_of_getLsbD_eq fun i _ => ?_
  rw [into_bit f _ _ i hf, into_bit f w n i hf, Bits.of, testBit_slice, BitVec.testBit_toNat]
  split
  · next h => simp [show i - f.lo < f.w by omega, show f.lo + (i - f.lo) = i by omega]
  · rfl

/-- A word stored in the bits of its lowest field. -/
theorem store_mask (hlo : f.lo = 0) (w v : Word) : (w &&& ~~~f.mask) ||| (v &&& f.mask) = f.into w v.toNat := by
  refine BitVec.eq_of_getLsbD_eq fun i hi => ?_
  rw [BitVec.getLsbD_or, BitVec.getLsbD_and, BitVec.getLsbD_and, BitVec.getLsbD_not, getLsbD_mask f hf, into_bit f w _ i hf, BitVec.testBit_toNat, hlo]
  by_cases hin : 0 ≤ i ∧ i < 0 + f.w <;> simp only [hin, hi] <;> simp

end

/-- A write past gate and locks of a register that no apply, refusal or rule of its own concerns: the checked word is stored, and the register's
action runs. -/
theorem landWrite_ordinary (d : Dev) {a : Nat} (hst : isStaged a = false) (href : ¬ Refusable a) (hsp : ¬ SpecialWritten a)
    (hpin : ¬ (0x7_0000 ≤ a ∧ a < 0x7_0100)) (old new cmd touch : Word) :
    d.landWrite a old new cmd touch
      = (((d.noteWrite a touch).checked a old new).1.setReg a ((d.noteWrite a touch).checked a old new).2).writeHook a old
        ((d.noteWrite a touch).checked a old new).2 cmd touch := by
  unfold landWrite
  rw [hst, wholeRefused_none href, specialWrite_none hsp]
  simp [hpin]

/-- The row of DCT_DRAIN_LIMIT. -/
def limitRow : RegRow := ⟨0x14, 1, 0x4, [⟨19, 0, .rw, 0x2710⟩]⟩

theorem regRow_limit : regRow DCT_DRAIN_LIMIT.addr = some limitRow := by decide +kernel

section
variable (d : Dev) (r : Requester) (v : Word) (h : d.Admits r DCT_DRAIN_LIMIT.addr) (hv : v.toNat < 2 ^ 20)

/-- The word that a write of the limit would store, and the device that has noted the write. -/
def limitWord : Word := DCT_DRAIN_LIMIT.LIMIT.into (d.reg DCT_DRAIN_LIMIT.addr) v.toNat
def limitNoted : Dev := d.noteWrite DCT_DRAIN_LIMIT.addr DCT_DRAIN_LIMIT.LIMIT.mask

include h in
theorem limitWrite_admitted : d.busWrite r DCT_DRAIN_LIMIT.addr v 15
    = ((d.limitNoted.checked DCT_DRAIN_LIMIT.addr (d.reg DCT_DRAIN_LIMIT.addr) (d.limitWord v)).1.setReg DCT_DRAIN_LIMIT.addr
      (d.limitNoted.checked DCT_DRAIN_LIMIT.addr (d.reg DCT_DRAIN_LIMIT.addr) (d.limitWord v)).2).drainTimeout := by
  have hmask : (limitRow.mask fun x => x = .rw || x = .wo) = DCT_DRAIN_LIMIT.LIMIT.mask ∧ limitRow.mask (· = .w1c) = 0
      ∧ limitRow.mask (· = .w1s) = 0 ∧ (limitRow.mask fun x => x = .w1c || x = .w1s) = 0 := by decide
  obtain ⟨hrw, hw1c, hw1s, hw1⟩ := hmask
  have hbytes : word (beMask 15) = BitVec.allOnes 32 := by decide
  have hlock : DCT_DRAIN_LIMIT.addr ≠ DCT_LOCK.addr := by decide
  have hvalue : (d.reg DCT_DRAIN_LIMIT.addr &&& ~~~BitVec.allOnes 32) ||| (v &&& BitVec.allOnes 32) = v := by
    rw [BitVec.not_allOnes, BitVec.and_zero, BitVec.zero_or, BitVec.and_allOnes]
  have htouch : BitVec.allOnes 32 &&& (DCT_DRAIN_LIMIT.LIMIT.mask ||| (0 : Word)) = DCT_DRAIN_LIMIT.LIMIT.mask := by decide
  rw [busWrite_admitted d r _ v 15 (k := .plain) (a := DCT_DRAIN_LIMIT.addr) (by decide +kernel) h (by decide)]
  simp only [aliasWrite, hbytes, hvalue]
  rw [regWrite_unlocked d r _ _ _ _ _ regRow_limit (by simp [RegRow.Unlocked, limitRow]), if_neg hlock, storedWord, hrw, hw1c, hw1s, hw1, clear_none,
    store_mask (by decide) rfl, htouch, landWrite_ordinary d (by decide +kernel) (by decide) (by decide) (by decide)]
  rfl

include hv

theorem of_limitWord : DCT_DRAIN_LIMIT.LIMIT.of (d.limitWord v) = v.toNat := (of_into (by decide) _ _).trans (Nat.mod_eq_of_lt hv)

theorem limit_checked (e : Dev) : e.checked DCT_DRAIN_LIMIT.addr (d.reg DCT_DRAIN_LIMIT.addr) (d.limitWord v)
    = if v.toNat ≠ d.get DCT_DRAIN_LIMIT.LIMIT ∧ between 1 600000 v.toNat = false then (e.set1 DCT_FLAGS.BAD_VALUE, d.reg DCT_DRAIN_LIMIT.addr)
      else (e, d.limitWord v) := by
  have hchecks : e.fieldChecks DCT_DRAIN_LIMIT.addr
      = [⟨DCT_MODE.NEXT, (· < 8), DCT_FLAGS.BAD_VALUE⟩, ⟨DCT_DRAIN_LIMIT.LIMIT, between 1 600000, DCT_FLAGS.BAD_VALUE⟩] := rfl
  have hnext : ¬ DCT_MODE.NEXT.off = DCT_DRAIN_LIMIT.addr := by decide
  have hback : DCT_DRAIN_LIMIT.LIMIT.into (d.limitWord v) (d.get DCT_DRAIN_LIMIT.LIMIT) = d.reg DCT_DRAIN_LIMIT.addr :=
    into_into_of (by decide) _ _
  have hlimit : DCT_DRAIN_LIMIT.LIMIT.off = DCT_DRAIN_LIMIT.addr := rfl
  have hold : DCT_DRAIN_LIMIT.LIMIT.of (d.reg DCT_DRAIN_LIMIT.addr) = d.get DCT_DRAIN_LIMIT.LIMIT := rfl
  simp [checked, hchecks, hnext, hlimit, hback, d.of_limitWord v hv, hold]

include h

/-- The write takes a limit from 1 to 600,000 ms. -/
theorem limitWrite_taken (hm : d.actMode ≠ 6) (hok : between 1 600000 v.toNat = true) :
    d.busWrite r DCT_DRAIN_LIMIT.addr v 15 = d.limitNoted.put DCT_DRAIN_LIMIT.LIMIT v.toNat := by
  rw [limitWrite_admitted d r v h, limit_checked d v hv, if_neg (by simp [hok])]
  have hidle : (d.limitNoted.put DCT_DRAIN_LIMIT.LIMIT v.toNat).actMode ≠ 6 :=
    (actMode_frame (P := (· = DCT_DRAIN_LIMIT.addr)) (((Frame.refl _ d).other (g := d.limitNoted) rfl rfl rfl rfl).put _ rfl) (by decide)).trans_ne hm
  exact drainTimeout_idle hidle

/-- Any other value leaves the limit as it is. -/
theorem limitWrite_ignored (hm : d.actMode ≠ 6) (hbad : between 1 600000 v.toNat = false) (hne : v.toNat ≠ d.get DCT_DRAIN_LIMIT.LIMIT) :
    d.busWrite r DCT_DRAIN_LIMIT.addr v 15
      = (d.limitNoted.set1 DCT_FLAGS.BAD_VALUE).setReg DCT_DRAIN_LIMIT.addr (d.reg DCT_DRAIN_LIMIT.addr) := by
  rw [limitWrite_admitted d r v h, limit_checked d v hv, if_pos ⟨hne, hbad⟩]
  have hidle : ((d.limitNoted.set1 DCT_FLAGS.BAD_VALUE).setReg DCT_DRAIN_LIMIT.addr (d.reg DCT_DRAIN_LIMIT.addr)).actMode ≠ 6 :=
    (actMode_frame (P := fun a => a = DCT_FLAGS.addr ∨ a = DCT_DRAIN_LIMIT.addr)
      ((((Frame.refl _ d).other (g := d.limitNoted) rfl rfl rfl rfl).set1 (.inl rfl)).setReg _ (.inr rfl)) (by decide)).trans_ne hm
  exact drainTimeout_idle hidle

end
end Dev

/-! ### The commands -/

section
variable {s : State} (hs : s.Ready)
include hs

theorem drainComplete_ends (hm : s.dev.mode = 6) (hd : s.dev.drained = true) (hrole : s.dev.forceGet CAD_CTL.BUS_ROLE ≠ 1) :
    ∃ t, exec .drainComplete s = .next t ∧ t.dev.mode = 0 ∧ t.dev.get DCT_MODE.PREV = 6
      ∧ (s.dev.softWrote DCT_MODE.NEXT = false → t.dev.get DCT_MODE.NEXT = 0)
      ∧ t.dev.ticking = false ∧ t.dev.ntq.input = s.dev.ntq.input ++ [⟨.event, idDCT, 0x010, 0x60#32, s.dev.time⟩]
      ∧ t.dev.out = s.dev.out ∧ s.Keeps t fun a => a = DCT_MODE.addr ∨ a = CAD_STAT.addr := by
  have hend : s.dev.drainComplete = s.dev.drainEnd := by simp [Dev.drainComplete, Dev.when, Dev.actMode_of hm, hd]
  have hexec := State.answers_run hs (i := .drainComplete) (f := (·.drainComplete)) rfl hend
  have hmode := s.dev.drainEnd_mode
  have hprev := s.dev.drainEnd_prev.trans hm
  have hnext := s.dev.drainEnd_next hrole
  have hticking := s.dev.drainEnd_ticking
  have hinput := s.dev.drainEnd_input hm
  have hout := s.dev.drainEnd_out hrole
  have hframe := s.dev.drainEnd_frame
  generalize s.dev.drainEnd = e at *
  exact ⟨_, hexec, hmode, hprev, hnext, hticking, hinput, hout, hframe.keeps hs.2.2⟩

theorem drainTimeout_ends {since' : Nat} (hm : s.dev.mode = 6) (hat : s.dev.cad.drainAt = some since')
    (hdue : since' + ms (s.dev.get DCT_DRAIN_LIMIT.LIMIT) ≤ s.dev.time) :
    ∃ t l, exec .drainTimeout s = .next t ∧ t.dev.mode = 0 ∧ t.dev.get DCT_MODE.PREV = 6 ∧ t.dev.ticking = false
      ∧ t.dev.cad.exposures = []
      ∧ t.dev.ntq.input = s.dev.ntq.input ++ l ++ [⟨.alert, idDCT, 0x012, word ((s.dev.time - since') / ms 1), s.dev.time⟩,
          ⟨.event, idDCT, 0x010, 0x60#32, s.dev.time⟩]
      ∧ s.Keeps t fun a => a / 0x1_0000 = 1 ∨ a / 0x1_0000 = 4 ∨ (0x10 ≤ a / 0x1_0000 ∧ a / 0x1_0000 < 0x20)
        ∨ 0x50_0000 ≤ a := by
  let e := s.dev.timedOut since'
  have hmode : e.mode = 6 := (Dev.timedOut_mode since').trans hm
  have hframe : Dev.Frame Dev.WorkRegs s.dev e := Dev.timedOut_frame since'
  have htime : e.time = s.dev.time := hframe.2.1
  obtain ⟨l, hl⟩ := s.dev.timedOut_input since'
  have hexec := State.answers_run hs (i := .drainTimeout) (f := (·.drainTimeout)) rfl (Dev.drainTimeout_due hm hat hdue)
  have hended := e.drainEnd_mode
  have hprev := e.drainEnd_prev.trans hmode
  have hticking := e.drainEnd_ticking
  have hexposures := e.drainEnd_exposures
  have hinput := e.drainEnd_input hmode
  have hall := hframe.mono (Q := fun a => (a = DCT_MODE.addr ∨ a = CAD_STAT.addr) ∨ Dev.WorkRegs a) (fun _ => .inr) |>.trans
    (e.drainEnd_frame.mono fun _ => .inl)
  change e.ntq.input = _ at hl
  rw [htime, hl, List.append_assoc] at hinput
  change exec .drainTimeout s = .next (s.settleTo e.drainEnd) at hexec
  generalize e.drainEnd = g at *
  refine ⟨_, l, hexec, hended, hprev, hticking, hexposures, hinput, (hall.mono fun a ha => ?_).keeps hs.2.2⟩
  rcases ha with (rfl | rfl) | hwork
  · exact .inl rfl
  · exact .inr (.inl rfl)
  · exact .inr (.inr hwork)

variable (r : Requester) {v : Word} (h : s.dev.Admits r DCT_DRAIN_LIMIT.addr) (hm : s.dev.actMode ≠ 6) (hv : v.toNat < 2 ^ 20)
include h hm hv

theorem drainLimitWrite_taken (hl : 1 ≤ v.toNat) (hu : v.toNat ≤ 600000) :
    ∃ t, exec (.drainLimitWrite r v 15#4) s = .next t ∧ t.dev.get DCT_DRAIN_LIMIT.LIMIT = v.toNat ∧ s.Keeps t (· = DCT_DRAIN_LIMIT.addr) := by
  have hwrite := s.dev.limitWrite_taken r v h hv hm (by simp [between, hl, hu])
  have hframe : Dev.Frame (· = DCT_DRAIN_LIMIT.addr) s.dev (s.dev.limitNoted.put DCT_DRAIN_LIMIT.LIMIT v.toNat) :=
    ((Dev.Frame.refl _ s.dev).other (g := s.dev.limitNoted) rfl rfl rfl rfl).put _ rfl
  exact ⟨_, State.answers_run hs (f := fun d => d.busWrite r DCT_DRAIN_LIMIT.addr v 15) rfl hwrite,
    (Dev.get_put_same s.dev.limitNoted _ _ (by decide)).trans (Nat.mod_eq_of_lt hv), hframe.keeps hs.2.2⟩

theorem drainLimitWrite_ignored (hbad : v.toNat = 0 ∨ 600000 < v.toNat) (hne : s.dev.get DCT_DRAIN_LIMIT.LIMIT ≠ v.toNat) :
    ∃ t, exec (.drainLimitWrite r v 15#4) s = .next t ∧ t.dev.is DCT_FLAGS.BAD_VALUE = true ∧ s.Keeps t (· = DCT_FLAGS.addr) := by
  have hout : between 1 600000 v.toNat = false := by simp [between]; omega
  have hwrite := s.dev.limitWrite_ignored r v h hv hm hout hne.symm
  let e := s.dev.limitNoted.set1 DCT_FLAGS.BAD_VALUE
  have hflag : Dev.Frame (· = DCT_FLAGS.addr) s.dev e := ((Dev.Frame.refl _ s.dev).other (g := s.dev.limitNoted) rfl rfl rfl rfl).set1 rfl
  have hword : s.dev.reg DCT_DRAIN_LIMIT.addr = e.reg DCT_DRAIN_LIMIT.addr := (hflag.2.2.2 _ (by decide)).symm
  rw [hword] at hwrite
  exact ⟨_, State.answers_run hs (f := fun d => d.busWrite r DCT_DRAIN_LIMIT.addr v 15) rfl hwrite,
    (Dev.is_setReg_self e _ _).trans (Dev.is_set1_same s.dev.limitNoted _ rfl (by decide)), (hflag.setReg_self _).keeps hs.2.2⟩

end
end Sys2Proof.Machine

/-- Settles O7: a drain's end and its timeout run `drainEnd`, a timeout after the work is abandoned; the limit is checked as it is written. -/
theorem drain : Obligations.Drain := by
  unfold Obligations.Drain
  intro s hs
  exact ⟨fun hm hd hrole => drainComplete_ends hs hm hd hrole, fun _ hm hat hdue => drainTimeout_ends hs hm hat hdue,
    fun r v hadm hm hv => ⟨fun ⟨hl, hu⟩ => drainLimitWrite_taken hs r hadm hm hv hl hu,
      fun hbad hne => drainLimitWrite_ignored hs r hadm hm hv hbad hne⟩⟩
end

section
/-! PROOFS. An apply: its request, and its landing in STANDBY, where everything staged moves into force (R74-R78, R87, R182, R252). -/

open Sys2Proof Sys2Proof.Machine

namespace Sys2Proof.Machine

theorem ceil4000_spec (t : Nat) : ceil4000 t % 4000 = 0 ∧ t ≤ ceil4000 t ∧ ceil4000 t < t + 4000 := by unfold ceil4000; omega

namespace Dev

/-! ### GO (R75, R76) -/

section
variable (d : Dev) (r : Requester)

theorem writeHook_apply (old new cmd touch : Word) : d.writeHook CAD_APPLY.addr old new cmd touch = d.when (cmd.getLsbD 0) (·.applyRequest) := by
  simp [writeHook, CAD_APPLY.addr]

/-- The device on which GO acts: its registers read the same. -/
def goNoted : Dev := (d.noteWrite CAD_APPLY.addr CAD_APPLY.GO.mask).setReg CAD_APPLY.addr (d.reg CAD_APPLY.addr)

theorem goNoted_frame (P : Nat → Prop) : Frame P d d.goNoted :=
  ((Frame.refl P d).other (g := d.noteWrite CAD_APPLY.addr CAD_APPLY.GO.mask) rfl rfl rfl rfl).setReg_self _

theorem press_go (h : d.Admits r CAD_APPLY.addr) : d.press r CAD_APPLY.GO = d.goNoted.applyRequest := by
  rw [press_runs d r CAD_APPLY.GO h (by decide +kernel) (by decide +kernel) (wholeRefused_none (by decide) d _)
    (specialWrite_none (by decide) d _ _ _ _) (.inl (by decide))]
  exact writeHook_apply _ _ _ _ _

variable {d}

/-- GO while none is pending, with the cadence stopped. -/
theorem applyRequest_stopped (hp : d.is CAD_APPLY.PENDING = false) (ht : d.ticking = false) :
    d.applyRequest = (d.set1 CAD_APPLY.PENDING).setCad fun c => { c with apply := some ⟨d.time, none, some (ceil4000 (d.time + us 2))⟩ } := by
  have hstopped : (d.set1 CAD_APPLY.PENDING).ticking = false := (((Frame.refl (· = CAD_APPLY.addr) d).set1 rfl).is (by decide)).trans ht
  unfold applyRequest
  rw [hp]
  simp [hstopped]

theorem applyRequest_pending (hp : d.is CAD_APPLY.PENDING = true) : d.applyRequest = d.set1 CAD_FLAGS.GO_BUSY := by rw [applyRequest, hp]; rfl

end

/-! ### What moves into force (R74, R77) -/

section
variable (d : Dev)

theorem force1_toForce (a b : Nat) : (d.toForce a).force1 b = if a = b then d.reg b else d.force1 b := by
  rw [force1, force1, toForce, Tab.get_set]
  split
  · next h => rw [h]
  · rfl

theorem force1_forEach_toForce (l : List Nat) {b : Nat} (hb : b ∈ l) : (d.forEach l fun r d => d.toForce r).force1 b = d.reg b := by
  have hkept : ∀ (l : List Nat) (e : Dev), e.regs = d.regs → (e.force1 b = d.reg b ∨ b ∈ l) →
      (e.forEach l fun r d => d.toForce r).force1 b = d.reg b := by
    intro l
    induction l with
    | nil => intro e _ h; exact h.resolve_right List.not_mem_nil
    | cons a t ih =>
      intro e he h
      refine ih (e.toForce a) he ?_
      rw [force1_toForce, reg, he, ← reg]
      rcases h with h | h
      · left; split <;> [rfl; exact h]
      · rcases List.mem_cons.1 h with rfl | h
        · left; rw [if_pos rfl]
        · exact .inr h
  exact hkept l d rfl (.inr hb)

/-- What no register of the table, channel, notice or vault write concerns. -/
theorem grows_forEach_toForce (P : Nat → Prop) (l : List Nat) (hl : ∀ a ∈ l, 0x40_0000 ≤ a) : Grows P d (d.forEach l fun r d => d.toForce r) :=
  (Grows.refl P d).forEach _ _ fun a ha g hg =>
    hg.trans ⟨(Frame.refl P g).toForce a, List.prefix_rfl, rfl, fun b hb => by rw [force1_toForce, if_neg (by have := hl a ha; omega)]⟩

/-- The registers that what follows the transfer may change: those of DCT, CHT and VLT, CAD_STAT, and the flags
of the ports. -/
abbrev ApplyRegs (a : Nat) : Prop :=
  a / 0x1_0000 = 1 ∨ a = CAD_STAT.addr ∨ a / 0x1_0000 = 0x40 ∨ a / 0x1_0000 = 0x90 ∨ ∃ p : Fin 16, a = AVP_PFLAGS.addr p

/-- The registers that a landing may change. -/
abbrev LandRegs (a : Nat) : Prop :=
  a / 0x1_0000 = 1 ∨ a / 0x1_0000 = 4 ∨ a / 0x1_0000 = 0x40 ∨ a / 0x1_0000 = 0x90 ∨ ∃ p : Fin 16, a = AVP_PFLAGS.addr p

theorem ApplyRegs.lands (a : Nat) (h : ApplyRegs a) : LandRegs a := h.imp_right fun h => h.imp_left fun h => by rw [h]; rfl

/-- A value in force of a column's bank or rows, beside those of the blocks below the charter. -/
theorem grows_bankForce (P : Nat → Prop) {a : Nat} (ha : 0x40_0000 ≤ a) (v : Word) : Grows P d { d with force := Tab.set regReset d.force a v } :=
  ⟨(Frame.refl P d).other rfl rfl rfl rfl, List.prefix_rfl, rfl, fun b hb => Tab.get_set_ne _ _ _ (by omega)⟩

theorem charterSwitch_grows (n : Nat) : Grows ApplyRegs d (d.charterSwitch n) :=
  (Grows.refl ApplyRegs d).forEach _ _ fun k hk g hg => by
    have hstat : ApplyRegs (CHT_COL_STAT.addr k) := by
      have := List.mem_range.1 (List.mem_filter.1 hk).1
      unfold CHT_COL_STAT.addr; omega
    have hregs : ∀ a ∈ chartRegs k, 0x40_0000 ≤ a := by
      simp only [chartRegs, List.mem_cons, List.not_mem_nil, or_false]
      rintro a (rfl | rfl | rfl | rfl | rfl | rfl | rfl | rfl | rfl) <;> exact Nat.le_trans (by decide) (Nat.le_add_right _ _)
    extract_lets bank left g1 g2 g3 g4
    have h1 : Grows ApplyRegs d g1 := hg.trans (g.grows_forEach_toForce ApplyRegs (chartRegs k) hregs)
    have h2 : Grows ApplyRegs d g2 := h1.trans (g1.grows_bankForce _ (by unfold bankKey; omega) _)
    have h3 : Grows ApplyRegs d g3 := h2.forEach _ _ fun j _ e he => he.trans (e.grows_bankForce _ (by unfold rowsKey; omega) _)
    exact ((h3.unset (f := CHT_COL_STAT.LOADED k) hstat).set1 (f := CHT_COL_STAT.OLD_BUSY k) hstat).setColumn _ _

/-! ### The rings of an apply that no channel delivers (R252, R257) -/

theorem streamTaken_grows (P : Nat → Prop) (r frame head : Nat) (s : Stream) : Grows P d (d.streamTaken r frame head s) := by
  unfold streamTaken
  extract_lets hit taken e gone
  have hcolumn : Grows P d e := (Grows.refl P d).setColumn _ _
  exact hcolumn.when' _ _ fun _ => (hcolumn.setColumn _ _).setClr _

variable {d} {e : Dev}

/-- What an apply changes does not concern the channels. -/
theorem streamsOn_congr (h : Frame LandRegs d e) (hd : e.dma = d.dma) (r : Nat) : e.streamsOn r = d.streamsOn r := by
  have hchan : ∀ c, e.chan c = d.chan c := fun c => by rw [chan, chan, hd]
  have hdma : ∀ {a c : Nat}, 0xA1_0000 ≤ a → c < 32 → a < 0xA2_0000 → ¬ LandRegs (a + c * 0x1000) := fun {a c} ha hc hb => by
    have hflags : ∀ p : Fin 16, AVP_PFLAGS.addr p < 0x40_0000 := by decide
    rintro (h | h | h | h | ⟨p, h⟩)
    case inr.inr.inr.inr => have := hflags p; omega
    all_goals omega
  refine List.filter_congr fun c hc => ?_
  have hc := List.mem_range.1 hc
  have hstream : e.isStream c = d.isStream c := h.is (hdma (by decide) hc (by decide))
  have hstate : e.chState c = d.chState c := h.get (hdma (by decide) hc (by decide))
  rw [hstream, hchan, chIdle, chIdle, hstate]

theorem ringEnds_grows {r : Nat} (h : d.streamsOn r = []) : Grows ApplyRegs d (d.ringEnds r) := by
  unfold ringEnds
  extract_lets e
  have hwork : Grows ApplyRegs d e := by
    unfold e
    split
    · exact d.streamTaken_grows _ _ _ _ _
    · exact .refl _ d
  rw [streamsOn_congr (hwork.frame.mono ApplyRegs.lands) hwork.dma, h]
  exact hwork

theorem ringStreams_grows (P : Nat → Prop) (r : Nat) : Grows P d (d.ringStreams r) :=
  (Grows.refl P d).forEach _ _ fun _ _ g hg => hg.trans (g.streamTaken_grows P _ _ _ _)

theorem ringOff_grows {r : Nat} (h : d.streamsOn r = []) : Grows ApplyRegs d (d.ringOff r) :=
  ((ringEnds_grows h).trans (ringStreams_grows _ r)).setRing _ _

theorem applyRing_grows {r : Nat} (h : d.streamsOn r = []) : Grows ApplyRegs d (d.applyRing r) := by
  have hends := ringEnds_grows h
  have hoff := (Grows.refl ApplyRegs d).when' ((d.ring r).state != .off) (·.ringOff r) fun _ => ringOff_grows h
  unfold applyRing
  refine .ite (fun _ => hoff) fun _ => ?_
  split
  · exact (hoff.set1 (f := VLT_FLAGS.RING_REFUSED) (by decide)).notice _ _ _ _
  · refine .ite (fun _ => (Grows.refl _ d).when' _ _ fun _ => ?_) fun _ => ?_
    · exact (((Grows.refl _ d).when' _ _ fun _ => hends).trans (ringStreams_grows _ r)).setRing _ _
    · exact ((Grows.refl _ d).when' _ _ fun _ => hends).setRing _ _

theorem applyRings_grows (h : ∀ ring : Fin 64, d.streamsOn ring = []) : Grows ApplyRegs d d.applyRings := by
  unfold applyRings
  extract_lets d1 l d2
  have h1 : Grows ApplyRegs d d1 := (Grows.refl _ d).forEach _ _ fun r hr g hg =>
    hg.trans (applyRing_grows ((streamsOn_congr (hg.frame.mono ApplyRegs.lands) hg.dma r).trans (h ⟨r, List.mem_range.1 hr⟩)))
  have h2 : Grows ApplyRegs d d2 := h1.forEach _ _ fun _ _ _ hg => (hg.set1 (f := VLT_FLAGS.BIND_CONFLICT) (by decide)).notice _ _ _ _
  exact (h2.forEach _ _ fun _ _ _ hg => hg.when' _ _ fun _ => hg.setRing _ _).put (f := VLT_STAT.MOVER) _ (by decide)

/-! ### The mode of an apply (R67, R87, R241) -/

theorem startCadence_grows : Grows ApplyRegs d d.startCadence := by
  unfold startCadence; exact ((Grows.refl _ d).set1 (f := CAD_STAT.RUNNING) (by decide)).setCad _

theorem replayStart_grows : Grows ApplyRegs d d.replayStart :=
  (Grows.refl _ d).forEach _ _ fun _ _ _ hg => (hg.when' _ _ fun _ =>
    ((hg.set1 (f := VLT_FLAGS.REPLAY_SKIP) (by decide)).notice _ _ _ _).stamp _).setReplay _ _

theorem applyMode_grows : Grows ApplyRegs d d.applyMode := by
  have henter : ∀ m, Grows ApplyRegs d (d.setMode m) := fun m => (setMode_grows d m).mono fun a ha => ha ▸ by decide
  unfold applyMode
  extract_lets next base
  refine .ite (fun _ => .refl _ d) fun _ => .ite (fun _ => henter base) fun _ => ?_
  split
  · exact (((Grows.refl _ d).setCad _).hwPut (f := DCT_MODE.NEXT) _ (by decide)).notice _ _ _ _
  · next q _ =>
    extract_lets d1 d2 d3
    have h2 : Grows ApplyRegs d d2 := (henter q).when' _ _ fun _ => (henter q).trans startCadence_grows
    have h3 : Grows ApplyRegs d d3 := h2.when' _ _ fun _ => h2.trans replayStart_grows
    exact h3.when' _ _ fun _ => h3.setCad _

theorem checkGang_grows {p : Nat} (hp : p < 16) : Grows ApplyRegs d (d.checkGang p) :=
  (Grows.refl _ d).when' _ _ fun _ =>
    (((Grows.refl _ d).set1 (f := AVP_PFLAGS.GANG_MISMATCH p) (.inr (.inr (.inr (.inr ⟨⟨p, hp⟩, rfl⟩))))).notice _ _ _ _).setPk _ _

/-! ### The landing (R76, R77) -/

variable (d)

/-- Everything staged in force, in STANDBY. -/
def appliedForce : Dev :=
  let role := d.forceGet CAD_CTL.BUS_ROLE
  let d := (d.setCad fun c => { c with refused := false }).pushHistory d.nextNum
  let d := if d.ctlBad then d.set1 CAD_FLAGS.BAD_VALUE else d.toForce CAD_CTL.addr
  let d := d.when (role != 2 && d.forceGet CAD_CTL.BUS_ROLE = 2) fun d =>
    d.setCad fun c => { c with busRxAt := d.time, busStopRx := false, busLost := false }
  d.forEach stagedRegs fun r d => d.toForce r

/-- What then follows in the blocks. -/
def appliedBlocks (n : Nat) : Dev :=
  let d := d.charterSwitch n
  let d := d.put CAD_STAT.SRC (d.forceGet CAD_CTL.SRC)
  d.applyRings.applyMode.forEach (List.range 16) fun p d => (d.noteAdvance p).checkGang p

/-- The apply is over. -/
def applyCleared : Dev := (d.unset CAD_APPLY.PENDING).setCad fun c => { c with apply := none }

/-- Its record and its report. -/
def applyRecorded : Dev :=
  let d := d.put64 CAD_APPLY_TICK.addr (2 ^ 64 - 1)
  let d := (d.put64 CAD_APPLY_TIME.addr d.time).count CAD_APPLY_CNT.addr
  d.notice .info idCAD 0x015 (2 ^ 32 - 1)

theorem landApply_standby : d.landApply none = ((d.appliedForce.appliedBlocks d.nextNum).applyCleared).applyRecorded := rfl

/-! The transfer into force. -/

/-- Before the lists are transferred: only the flags of CAD have changed. -/
def forceChosen : Dev :=
  let role := d.forceGet CAD_CTL.BUS_ROLE
  let d := (d.setCad fun c => { c with refused := false }).pushHistory d.nextNum
  let d := if d.ctlBad then d.set1 CAD_FLAGS.BAD_VALUE else d.toForce CAD_CTL.addr
  d.when (role != 2 && d.forceGet CAD_CTL.BUS_ROLE = 2) fun d =>
    d.setCad fun c => { c with busRxAt := d.time, busStopRx := false, busLost := false }

theorem forceChosen_frame : Frame (· = CAD_FLAGS.addr) d d.forceChosen := by
  unfold forceChosen
  extract_lets role e g
  have he : Frame (· = CAD_FLAGS.addr) d e := ((Frame.refl _ d).setCad _).pushHistory _
  have hg : Frame (· = CAD_FLAGS.addr) d g := by
    unfold g; split
    · exact he.set1 (f := CAD_FLAGS.BAD_VALUE) rfl
    · exact he.toForce _
  exact hg.when' _ _ fun _ => (Frame.refl _ g).setCad _

/-- The transfer is CAD's own matter. -/
theorem forceChosen_keeps {β : Type} (part : Dev → β) (hcad : ∀ e f, part (setCad e f) = part e)
    (hhist : ∀ e n, part (pushHistory e n) = part e) (hflag : ∀ e, part (set1 e CAD_FLAGS.BAD_VALUE) = part e) (hforce : ∀ e a, part (toForce e a) = part e) : part d.forceChosen = part d := by
  unfold forceChosen when
  extract_lets role e g
  have he : part e = part d := (hhist _ _).trans (hcad _ _)
  have hg : part g = part d := by
    unfold g; split
    · exact (hflag e).trans he
    · exact (hforce e _).trans he
  split
  · exact (hcad _ _).trans hg
  · exact hg

theorem appliedForce_frame : Frame (· = CAD_FLAGS.addr) d d.appliedForce :=
  d.forceChosen_frame.forEach _ _ fun r _ g => (Frame.refl _ g).toForce r

theorem appliedForce_ntq : d.appliedForce.ntq = d.ntq :=
  (forEach_keeps (·.ntq) stagedRegs (fun r d => d.toForce r) (fun _ _ => rfl) _).trans
    (d.forceChosen_keeps (·.ntq) (fun _ _ => rfl) (fun _ _ => rfl) (fun _ => rfl) fun _ _ => rfl)

theorem appliedForce_dma : d.appliedForce.dma = d.dma :=
  (forEach_keeps (·.dma) stagedRegs (fun r d => d.toForce r) (fun _ _ => rfl) _).trans
    (d.forceChosen_keeps (·.dma) (fun _ _ => rfl) (fun _ _ => rfl) (fun _ => rfl) fun _ _ => rfl)

theorem appliedForce_force1 {a : Nat} (ha : a ∈ stagedRegs) (hne : a ≠ CAD_FLAGS.addr) : d.appliedForce.force1 a = d.reg a :=
  (d.forceChosen.force1_forEach_toForce stagedRegs ha).trans (d.forceChosen_frame.2.2.2 a hne)

/-! What the blocks do with it. -/

variable {d} in
theorem appliedBlocks_grows (h : ∀ ring : Fin 64, d.streamsOn ring = []) (n : Nat) : Grows ApplyRegs d (d.appliedBlocks n) := by
  unfold appliedBlocks
  extract_lets d1 d2
  have h1 : Grows ApplyRegs d d1 := d.charterSwitch_grows n
  have h2 : Grows ApplyRegs d d2 := h1.put (f := CAD_STAT.SRC) _ (by decide)
  have h3 : Grows ApplyRegs d d2.applyRings :=
    h2.trans (applyRings_grows fun ring => (streamsOn_congr (h2.frame.mono ApplyRegs.lands) h2.dma ring).trans (h ring))
  exact (h3.trans applyMode_grows).forEach _ _ fun p hp g hg =>
    (hg.trans (noteAdvance_grows g _ p)).trans (checkGang_grows (List.mem_range.1 hp))

/-! Its record. -/

theorem applyCleared_frame : Frame (· = CAD_APPLY.addr) d d.applyCleared :=
  ((Frame.refl (· = CAD_APPLY.addr) d).unset (f := CAD_APPLY.PENDING) rfl).setCad _
theorem applyCleared_ntq : d.applyCleared.ntq = d.ntq := rfl
theorem applyCleared_force1 (a : Nat) : d.applyCleared.force1 a = d.force1 a := rfl
theorem applyCleared_cad : d.applyCleared.cad.apply = none := rfl
theorem applyCleared_pending : d.applyCleared.is CAD_APPLY.PENDING = false := is_unset_same d CAD_APPLY.PENDING (by decide)

/-- The registers of the record of an apply. -/
abbrev RecordRegs (a : Nat) : Prop :=
  a = CAD_APPLY_TICK.addr ∨ a = CAD_APPLY_TICK.addr + 4 ∨ a = CAD_APPLY_TIME.addr ∨ a = CAD_APPLY_TIME.addr + 4
    ∨ a = CAD_APPLY_CNT.addr ∨ a = CAD_APPLY_CNT.addr + 4

theorem applyRecorded_grows : Grows RecordRegs d d.applyRecorded :=
  ((((Grows.refl _ d).put64 _ (by decide) (by decide)).put64 _ (by decide) (by decide)).count (by decide) (by decide)).notice _ _ _ _

theorem applyRecorded_tick : d.applyRecorded.get64 CAD_APPLY_TICK.addr = 2 ^ 64 - 1 := by
  rw [applyRecorded, notice_get64, get64_count_ne _ (by decide) (by decide) (by decide), get64_put64_ne _ _ (by decide) (by decide) (by decide),
    get64_put64_same, Nat.mod_eq_of_lt (by decide)]

theorem applyRecorded_time : d.applyRecorded.get64 CAD_APPLY_TIME.addr = d.time % 2 ^ 64 := by
  rw [applyRecorded, notice_get64, get64_count_ne _ (by decide) (by decide) (by decide), get64_put64_same, put64_time]

theorem applyRecorded_cnt : d.applyRecorded.get64 CAD_APPLY_CNT.addr = (d.get64 CAD_APPLY_CNT.addr + 1) % 2 ^ 64 := by
  rw [applyRecorded, notice_get64, get64_count_same, get64_put64_ne _ _ (by decide) (by decide) (by decide),
    get64_put64_ne _ _ (by decide) (by decide) (by decide)]

theorem applyRecorded_cad : d.applyRecorded.cad = d.cad := rfl

theorem applyRecorded_input : d.applyRecorded.ntq.input = d.ntq.input ++ [⟨.info, idCAD, 0x015, 0xFFFFFFFF#32, d.time⟩] := rfl

/-! A landing in STANDBY, of an apply that moves no ring a channel delivers. -/

section
variable {d} (h : ∀ ring : Fin 64, d.streamsOn ring = [])
include h

/-- The blocks' part of it. -/
theorem landed_blocks : Grows ApplyRegs d.appliedForce (d.appliedForce.appliedBlocks d.nextNum) :=
  appliedBlocks_grows (fun ring => (streamsOn_congr (d.appliedForce_frame.mono fun _ ha => .inr (.inl (ha ▸ rfl))) d.appliedForce_dma ring).trans
    (h ring)) _

theorem landed_frame : Frame LandRegs d (d.landApply none) := by
  rw [landApply_standby]
  refine (((d.appliedForce_frame.mono fun a ha => ?_).trans ((landed_blocks h).frame.mono ApplyRegs.lands)).trans
    ((applyCleared_frame _).mono fun a ha => ?_)).trans ((applyRecorded_grows _).frame.mono fun a ha => ?_)
  · exact .inr (.inl (ha ▸ rfl))
  · exact .inr (.inl (ha ▸ rfl))
  · exact .inr (.inl (by rcases ha with rfl | rfl | rfl | rfl | rfl | rfl <;> rfl))

theorem landed_cleared_time : (d.appliedForce.appliedBlocks d.nextNum).applyCleared.time = d.time :=
  (applyCleared_frame _).2.1.trans ((landed_blocks h).frame.2.1.trans d.appliedForce_frame.2.1)

theorem landed_time : (d.landApply none).get64 CAD_APPLY_TIME.addr = d.time % 2 ^ 64 := by
  rw [landApply_standby, applyRecorded_time, landed_cleared_time h]

theorem landed_cnt : (d.landApply none).get64 CAD_APPLY_CNT.addr = (d.get64 CAD_APPLY_CNT.addr + 1) % 2 ^ 64 := by
  rw [landApply_standby, applyRecorded_cnt, (applyCleared_frame _).get64 (by decide) (by decide),
    (landed_blocks h).frame.get64 (by decide) (by decide), d.appliedForce_frame.get64 (by decide) (by decide)]

theorem landed_input : ∃ l, (d.landApply none).ntq.input = d.ntq.input ++ l ++ [⟨.info, idCAD, 0x015, 0xFFFFFFFF#32, d.time⟩] := by
  obtain ⟨l, hl⟩ := (landed_blocks h).told
  rw [d.appliedForce_ntq] at hl
  rw [landApply_standby, applyRecorded_input, landed_cleared_time h, applyCleared_ntq, ← hl]
  exact ⟨l, rfl⟩

/-- A staged register of the blocks below the charter is in force. -/
theorem landed_force1 {a : Nat} (ha : a ∈ stagedRegs) (hlow : a < 0x40_0000) (hne : a ≠ CAD_FLAGS.addr) :
    (d.landApply none).force1 a = d.reg a := by
  rw [landApply_standby, (applyRecorded_grows _).force a hlow, applyCleared_force1, (landed_blocks h).force a hlow, d.appliedForce_force1 ha hne]

end

theorem landed_pending : (d.landApply none).is CAD_APPLY.PENDING = false := by
  rw [landApply_standby, (applyRecorded_grows _).frame.is (by decide), applyCleared_pending]

theorem landed_cad : (d.landApply none).cad.apply = none := by rw [landApply_standby, applyRecorded_cad, applyCleared_cad]

theorem landed_tick : (d.landApply none).get64 CAD_APPLY_TICK.addr = 2 ^ 64 - 1 := by rw [landApply_standby, applyRecorded_tick]

theorem phase_staged (p : Fin 16) : CAD_PHASE.addr p ∈ stagedRegs :=
  List.mem_append_left _ (List.mem_append_left _ (List.mem_append_right _ (List.mem_flatMap.2 ⟨p, List.mem_range.2 p.2, by simp⟩)))

theorem period_staged : CAD_PERIOD.addr ∈ stagedRegs := List.mem_append_left _ (List.mem_append_left _ (List.mem_append_left _ (by simp)))

theorem landed_period (h : ∀ ring : Fin 64, d.streamsOn ring = []) : (d.landApply none).force1 CAD_PERIOD.addr = d.reg CAD_PERIOD.addr :=
  landed_force1 h period_staged (by decide) (by decide)

theorem landed_phase (h : ∀ ring : Fin 64, d.streamsOn ring = []) (p : Fin 16) :
    (d.landApply none).force1 (CAD_PHASE.addr p) = d.reg (CAD_PHASE.addr p) :=
  landed_force1 h (phase_staged p) (by revert p; decide) (by revert p; decide)

end
end Dev

/-! ### The commands -/

section
variable {s : State} (hs : s.Ready) (r : Requester)
include hs

theorem applyRequest_taken (h : s.dev.Admits r CAD_APPLY.addr) (hp : s.dev.is CAD_APPLY.PENDING = false) (ht : s.dev.ticking = false) :
    ∃ t T, exec (.applyRequest r) s = .next t ∧ t.dev.is CAD_APPLY.PENDING = true
      ∧ t.dev.cad = { s.dev.cad with apply := some ⟨s.dev.time, none, some T⟩ }
      ∧ T % 4000 = 0 ∧ s.dev.time + us 2 ≤ T ∧ T < s.dev.time + us 2 + 4000
      ∧ s.Keeps t (· = CAD_APPLY.addr) := by
  have hnoted : ∀ P, Dev.Frame P s.dev s.dev.goNoted := fun P => s.dev.goNoted_frame P
  have hpress := (s.dev.press_go r h).trans (Dev.applyRequest_stopped (((hnoted fun _ => False).is id).trans hp)
    (((hnoted fun _ => False).is id).trans ht))
  obtain ⟨hmul, hle, hlt⟩ := ceil4000_spec (s.dev.time + us 2)
  exact ⟨_, _, State.answers_run hs (f := fun d => d.press r CAD_APPLY.GO) rfl hpress, Dev.is_set1_same s.dev.goNoted _ rfl (by decide), rfl,
    hmul, hle, hlt, (((hnoted (· = CAD_APPLY.addr)).set1 (f := CAD_APPLY.PENDING) rfl).setCad _).keeps hs.2.2⟩

theorem applyRequest_busy (h : s.dev.Admits r CAD_APPLY.addr) (hp : s.dev.is CAD_APPLY.PENDING = true) :
    ∃ t, exec (.applyRequest r) s = .next t ∧ t.dev.is CAD_FLAGS.GO_BUSY = true ∧ t.dev.cad = s.dev.cad
      ∧ t.dev.is CAD_APPLY.PENDING = true ∧ s.Keeps t (· = CAD_FLAGS.addr) := by
  have hnoted : ∀ P, Dev.Frame P s.dev s.dev.goNoted := fun P => s.dev.goNoted_frame P
  have hpress := (s.dev.press_go r h).trans (Dev.applyRequest_pending (((hnoted fun _ => False).is id).trans hp))
  have hframe := (hnoted (· = CAD_FLAGS.addr)).set1 (f := CAD_FLAGS.GO_BUSY) rfl
  exact ⟨_, State.answers_run hs (f := fun d => d.press r CAD_APPLY.GO) rfl hpress, Dev.is_set1_same s.dev.goNoted _ rfl (by decide), rfl,
    (hframe.is (by decide)).trans hp, hframe.keeps hs.2.2⟩

theorem applyLand_standby {g T : Nat} (ha : s.dev.cad.apply = some ⟨g, none, some T⟩) (hdue : T ≤ s.dev.time)
    (hquiet : ∀ ring : Fin 64, s.dev.streamsOn ring = []) :
    ∃ t l, exec .applyLand s = .next t ∧ t.dev.is CAD_APPLY.PENDING = false ∧ t.dev.cad.apply = none
      ∧ t.dev.get64 CAD_APPLY_TICK.addr = 2 ^ 64 - 1 ∧ t.dev.get64 CAD_APPLY_TIME.addr = s.dev.time % 2 ^ 64
      ∧ t.dev.get64 CAD_APPLY_CNT.addr = (s.dev.get64 CAD_APPLY_CNT.addr + 1) % 2 ^ 64
      ∧ t.dev.ntq.input = s.dev.ntq.input ++ l ++ [⟨.info, idCAD, 0x015, 0xFFFFFFFF#32, s.dev.time⟩]
      ∧ t.dev.force1 CAD_PERIOD.addr = s.dev.reg CAD_PERIOD.addr
      ∧ (∀ p : Fin 16, t.dev.force1 (CAD_PHASE.addr p) = s.dev.reg (CAD_PHASE.addr p))
      ∧ s.Keeps t fun a => a / 0x1_0000 = 1 ∨ a / 0x1_0000 = 4 ∨ a / 0x1_0000 = 0x40 ∨ a / 0x1_0000 = 0x90
        ∨ ∃ p : Fin 16, a = AVP_PFLAGS.addr p := by
  have hland : s.dev.applyLand = s.dev.landApply none := by simp [Dev.applyLand, Dev.dueApply, ha, hdue]
  have hexec : exec .applyLand s = .next (s.settleTo (s.dev.landApply none)) := State.answers_run hs (i := .applyLand) (f := (·.applyLand)) rfl hland
  have hpending := s.dev.landed_pending
  have hcad := s.dev.landed_cad
  have htick := s.dev.landed_tick
  have hat := Dev.landed_time hquiet
  have hcnt := Dev.landed_cnt hquiet
  obtain ⟨l, htold⟩ := Dev.landed_input hquiet
  have hperiod := s.dev.landed_period hquiet
  have hphase := s.dev.landed_phase hquiet
  have hframe := Dev.landed_frame hquiet
  obtain ⟨e, he⟩ : ∃ e, s.dev.landApply none = e := ⟨_, rfl⟩
  rw [he] at hexec hpending hcad htick hat hcnt htold hperiod hphase hframe
  exact ⟨_, l, hexec, hpending, hcad, htick, hat, hcnt, htold, hperiod, hphase, hframe.keeps hs.2.2⟩

end
end Sys2Proof.Machine

/-- Settles O5: GO sets PENDING or GO_BUSY; the landing in STANDBY transfers the staged registers into force before the blocks act on them, and
then records the apply. -/
theorem apply : Obligations.Apply := by
  unfold Obligations.Apply
  intro s r hs
  exact ⟨applyRequest_taken hs r, applyRequest_busy hs r, fun _ _ ha hdue hquiet => applyLand_standby hs ha hdue hquiet⟩
end

section
/-! PROOFS. The Ethernet ports: ARP, neighbour solicitation, echo, dropped frames and links, and the PTP port (R63, R401-R405). -/

open Sys2Proof Sys2Proof.Machine

namespace Sys2Proof.Machine
namespace Dev

/-! ### What software has written in the cycle, through hardware's own writes (R35) -/

theorem softWrote_of_wrote {d e : Dev} (h : e.cycNow.wrote = d.cycNow.wrote) (f : Bits) : e.softWrote f = d.softWrote f := by
  rw [softWrote, softWrote, h]

theorem cycNow_at (d : Dev) : d.cycNow.at' = d.time := by
  unfold cycNow; split
  · assumption
  · rfl

theorem cycNow_of_at {d : Dev} (h : d.cyc.at' = d.time) : d.cycNow = d.cyc := if_pos h

theorem softWrote_set1 (d : Dev) (f g : Bits) : (d.set1 f).softWrote g = d.softWrote g :=
  softWrote_of_wrote (by rw [cycNow_of_at (d := d.set1 f) d.cycNow_at]; rfl) g

theorem softWrote_count (d : Dev) (a : Nat) (g : Bits) : (d.count a).softWrote g = d.softWrote g :=
  softWrote_of_wrote (by rw [cycNow_of_at (d := d.count a) d.cycNow_at]; rfl) g

/-! ### A frame received (R401) -/

/-- The counter of received frames, and the counters that a frame received can move besides. -/
abbrev RxRegs (n : Fin 2) (a : Nat) : Prop := a = NET_RX_CNT.addr n ∨ a = NET_RX_CNT.addr n + 4
abbrev DropRegs (n : Fin 2) (a : Nat) : Prop :=
  a = NET_RX_CNT.addr n ∨ a = NET_RX_CNT.addr n + 4 ∨ a = NET_RX_DROP_CNT.addr n ∨ a = NET_RX_DROP_CNT.addr n + 4
abbrev SendRegs (n : Fin 2) (a : Nat) : Prop :=
  a = NET_RX_CNT.addr n ∨ a = NET_RX_CNT.addr n + 4 ∨ a = NET_TX_CNT.addr n ∨ a = NET_TX_CNT.addr n + 4

/-- The registers of the Ethernet ports, and those of them that no frame's own count moves. -/
abbrev NetRegs (a : Nat) : Prop := a / 0x1_0000 = 0xD0
abbrev PtpRegs (a : Nat) : Prop := a / 0x1_0000 = 0xD0 ∧ (a < 0xD0_0A00 ∨ 0xD0_0A10 ≤ a)

theorem not_rxRegs {n : Fin 2} {a : Nat} (h : a < 0xD0_0A00 ∨ 0xD0_0A10 ≤ a) : ¬ RxRegs n a := by
  unfold RxRegs NET_RX_CNT.addr; omega

section
variable (d : Dev) (n : Fin 2)

/-- A frame received, counted. -/
def received : Dev := d.count (NET_RX_CNT.addr n)

theorem received_frame : Frame (RxRegs n) d (d.received n) := (Frame.refl _ d).count (.inl rfl) (.inr rfl)
theorem received_rx : (d.received n).get64 (NET_RX_CNT.addr n) = (d.get64 (NET_RX_CNT.addr n) + 1) % 2 ^ 64 := get64_count_same d _

theorem received_out : (d.received n).out = d.out := rfl
theorem received_cad : (d.received n).cad = d.cad := rfl

theorem received_net (a : Nat) (h : RxRegs n a) : NetRegs a := by
  rcases h with rfl | rfl <;> (unfold NetRegs NET_RX_CNT.addr; omega)

theorem received_get {f : Bits} (h : f.off < 0xD0_0A00) : (d.received n).get f = d.get f := (d.received_frame n).get (not_rxRegs (.inl h))
theorem received_is {f : Bits} (h : f.off < 0xD0_0A00) : (d.received n).is f = d.is f := (d.received_frame n).is (not_rxRegs (.inl h))

theorem received_appliedNum (i s : Nat) : (d.received n).appliedNum i s = d.appliedNum i s := rfl
theorem received_ip4 (m : Nat) : (d.received n).netIp4 m = d.netIp4 m := rfl
theorem received_ip6 (m : Nat) : (d.received n).netIp6 m = d.netIp6 m := rfl

theorem received_mac : (d.received n).netMac n = d.netMac n := by
  rw [netMac, netMac, received_get d n (by simp only [NET_MAC_LO.MAC, NET_MAC_LO.addr]; omega),
    received_get d n (by simp only [NET_MAC_HI.MAC, NET_MAC_HI.addr]; omega)]

theorem received_linkLocal : (d.received n).netLinkLocal n = d.netLinkLocal n := by rw [netLinkLocal, netLinkLocal, received_mac]

theorem received_own (a : Nat) : (d.received n).netOwn n a = d.netOwn n a := by
  rw [netOwn, netOwn, received_ip4, received_ip6, received_linkLocal]

theorem received_on : (d.received n).netOn n = d.netOn n :=
  received_is d n (by simp only [NET_PORT_CTL.EN, NET_PORT_CTL.addr]; omega)

theorem received_ptpState : (d.received n).ptpState = d.ptpState := received_get d n (by decide)
theorem received_ptpOn : (d.received n).ptpOn n = d.ptpOn n := by rw [ptpOn, ptpOn, received_ptpState, received_get d n (by decide)]

variable {d n} (hup : d.netOn n = true)
include hup

theorem frameDrop_up : d.frameDrop n = (d.received n).netDrop n := by rw [frameDrop, netRx, hup]; rfl

variable (hrun : d.mgt.firmware = .running)
include hrun

theorem netTake_running (f : Dev → Dev) : d.netTake n f = f (d.received n) := by
  rw [netTake, netRx, hup]
  exact if_pos hrun

theorem arpRequest_own (mac ip : Nat) {target : Nat} (hne : target ≠ 0) (h4 : isIp4 target = true) (h : target = d.netIp4 n) :
    d.arpRequest n mac ip target = ((d.received n).count (NET_TX_CNT.addr n)).emit
      (.ethernet n 1 (be 6 (d.netMac n) ++ be 4 target ++ be 6 mac ++ be 4 ip)) := by
  rw [arpRequest, netTake_running hup hrun, received_own, received_mac, if_pos (by simp [netOwn, h4, hne, ← h])]

theorem arpRequest_other (mac ip : Nat) {target : Nat} (h : target = 0 ∨ target ≠ d.netIp4 n) :
    d.arpRequest n mac ip target = (d.received n).netDrop n := by
  rw [arpRequest, netTake_running hup hrun, received_own, if_neg]
  intro hown
  obtain ⟨h4, hown⟩ := Bool.and_eq_true_iff.1 hown
  simp [netOwn, h4] at hown
  exact h.elim hown.1 (· hown.2)

theorem neighborSolicit_own (source : Nat) {target : Nat} (h6 : isIp4 target = false) (h : target = d.netLinkLocal n ∨ d.netIp6 n = some target) :
    d.neighborSolicit n source target = ((d.received n).count (NET_TX_CNT.addr n)).emit
      (.ethernet n 2 (be 16 target ++ be 6 (d.netMac n) ++ be 16 source)) := by
  rw [neighborSolicit, netTake_running hup hrun, received_own, received_mac, if_pos (by simp [netOwn, h6, h])]

theorem neighborSolicit_other (source : Nat) {target : Nat} (h6 : isIp4 target = false) (h : target ≠ d.netLinkLocal n)
    (h' : d.netIp6 n ≠ some target) : d.neighborSolicit n source target = (d.received n).netDrop n := by
  rw [neighborSolicit, netTake_running hup hrun, received_own, if_neg (by simp [netOwn, h6, h, h'])]

theorem echoRequest_own {source dest : Nat} (data : List Byte) (hown : d.netOwn n dest = true) (h6 : isIp4 source = false)
    (hlink : isLinkLocal source = true) :
    d.echoRequest n source dest data = ((d.received n).count (NET_TX_CNT.addr n)).emit (.ethernet n 3 data) := by
  rw [echoRequest, netTake_running hup hrun, received_own, if_pos hown]
  simp [netSend, received_on, hup, h6, hlink]

theorem echoRequest_other {source dest : Nat} (data : List Byte) (hown : d.netOwn n dest = false) :
    d.echoRequest n source dest data = (d.received n).netDrop n := by
  rw [echoRequest, netTake_running hup hrun, received_own, if_neg (by simp [hown])]

end

/-! ### The state of the PTP port (R403, R404) -/

section
variable (d : Dev) {m : Nat}

theorem setPtp_state (hm : m < 8) : (d.setPtp m).ptpState = m := by
  unfold setPtp
  split
  · assumption
  · have hput : (d.put NET_PTP_STAT.STATE m).get NET_PTP_STAT.STATE = m := (get_put_same d _ m (by decide)).trans (Nat.mod_eq_of_lt hm)
    exact (get_put_apart _ NET_FLAGS.PTP_STATE NET_PTP_STAT.STATE 1 (by decide) (.inl (by decide))).trans hput

theorem setPtp_frame (m : Nat) : Frame (fun a => a = NET_PTP_STAT.addr ∨ a = NET_FLAGS.addr) d (d.setPtp m) := by
  unfold setPtp
  split
  · exact .refl _ d
  · exact (((Frame.refl _ d).put (f := NET_PTP_STAT.STATE) m (.inl rfl)).set1 (f := NET_FLAGS.PTP_STATE) (.inr rfl)).notice _ _ _ _

theorem setPtp_cad (m : Nat) : (d.setPtp m).cad = d.cad := by unfold setPtp; split <;> simp
theorem setPtp_softWrote (m : Nat) (f : Bits) : (d.setPtp m).softWrote f = d.softWrote f := by
  unfold setPtp
  split
  · rfl
  · exact (softWrote_set1 _ _ f).trans (softWrote_congr (by simp) (by simp) f)

theorem setPtp_input (h : d.ptpState ≠ m) : (d.setPtp m).ntq.input = d.ntq.input ++ [⟨.event, idNET, 0x011, word m, d.time⟩] := by
  rw [setPtp, if_neg h]; simp

theorem setPtp_net (m : Nat) : Frame PtpRegs d (d.setPtp m) := (d.setPtp_frame m).mono fun a ha => by rcases ha with rfl | rfl <;> decide

end

/-! ### The offset and the trim of an update (R59, R60, R62) -/

section
variable (d : Dev)

theorem servoTrim_frame (req : Int) : Frame (fun a => a = CAD_TRIM.addr ∨ a = CAD_FLAGS.addr) d (d.servoTrim req) := by
  have hput : ∀ m, Frame (fun a => a = CAD_TRIM.addr ∨ a = CAD_FLAGS.addr) d (d.hwPut CAD_TRIM.RATE m) := fun m => by
    unfold hwPut; split
    · exact .refl _ d
    · exact (Frame.refl _ d).put (f := CAD_TRIM.RATE) m (.inl rfl)
  unfold servoTrim
  split
  · exact ((hput _).set1 (f := CAD_FLAGS.TRIM_LIMIT) (.inr rfl)).atMost _ _ _ ((Frame.refl _ _).notice _ _ _ _)
  · exact hput _

/-- The registers of an update. -/
abbrev UpdateRegs (a : Nat) : Prop := a = CAD_TRIM.addr ∨ a = CAD_FLAGS.addr ∨ a = CAD_STAT.addr

theorem discUpdate_keeps (trim : Int) : Frame UpdateRegs d (d.discUpdate trim) :=
  (((d.servoTrim_frame trim).mono fun _ h => h.imp_right .inl).set1 (f := CAD_STAT.DISC_OK) (.inr (.inr rfl))).setCad _

theorem discUpdate_valid (trim : Int) : (d.discUpdate trim).is CAD_STAT.DISC_OK = true := is_set1_same (d.servoTrim trim) _ rfl (by decide)

theorem discUpdate_cad (trim : Int) : (d.discUpdate trim).cad.discAt = d.time ∧ (d.discUpdate trim).cad.discTold = false :=
  ⟨rfl, rfl⟩

theorem discOffset_frame (off : Nat) : Frame (fun a => a = CAD_DOMAIN_OFF.addr ∨ a = CAD_DOMAIN_OFF.addr + 4) d (d.discOffset off) := by
  unfold discOffset domainOff
  split
  · exact (Frame.refl _ d).setCad _
  · split
    · exact .refl _ d
    · exact (Frame.refl _ d).put64 _ (.inl rfl) (.inr rfl)

/-- An offset that is held after a loss stays; another one is replaced. -/
theorem discOffset_off (off : Nat) (hlo : d.softWrote ⟨CAD_DOMAIN_OFF.addr, 0, 32⟩ = false)
    (hhi : d.softWrote ⟨CAD_DOMAIN_OFF.addr + 4, 0, 32⟩ = false) :
    (d.discOffset off).get64 CAD_DOMAIN_OFF.addr = if d.cad.held then d.get64 CAD_DOMAIN_OFF.addr else off % 2 ^ 64 := by
  unfold discOffset domainOff
  rw [hlo, hhi]
  split
  · exact setCad_get64 _ _ _
  · exact get64_put64_same d _ _

end

/-! ### A message of the PTP port (R63, R403, R404) -/

section
variable (d : Dev) (n : Fin 2)

/-- A grandmaster that is taken, and one that is announced. -/
def gmTaken (gm : Nat) : Dev := ((d.put64 NET_PTP_GM.addr gm).set1 NET_FLAGS.GM_CHANGE).notice .alert idNET 0x012 (gm % 2 ^ 32)
def announced (gm : Nat) : Dev := (d.when (d.get64 NET_PTP_GM.addr != gm) (·.gmTaken gm)).when
  ((d.when (d.get64 NET_PTP_GM.addr != gm) (·.gmTaken gm)).ptpState = 1) (·.setPtp 2)

/-- A Sync that is counted, with its offset. -/
def synced (off : Nat) : Dev := ((d.count NET_PTP_SYNC_CNT.addr).put64 NET_PTP_OFFSET.addr off).setPtp 3

/-- What the PTP port makes of a message of its transport and domain, but for the two that no frame brings. -/
def ptpHeard : PtpMsg → Dev
  | .announce gm => d.announced gm.toNat
  | .sync off domain trim =>
    if d.ptpState != 2 && d.ptpState != 3 then d.count NET_PTP_DROP_CNT.addr
    else (d.synced off.toNat).when ((d.synced off.toNat).get CAD_TIME_CTL.DISC = 1) fun d => (d.discOffset domain.toNat).discUpdate trim.toInt
  | .delay mpd => d.put NET_PTP_MPD.MPD (Nat.min (2 ^ 32 - 1) mpd)
  | .pdelayReq => d.when (d.appliedNum 0x9020 1 = 1) fun d => (d.ptpSend n 4).ptpSend n 5
  | .dropped => d.count NET_PTP_DROP_CNT.addr
  | .part | .announceTimeout | .interval => d

variable {d n} (hup : d.netOn n = true) (hrun : d.mgt.firmware = .running) (hon : d.ptpOn n = true) {dom tr : Nat} {m : PtpMsg}

include hrun hon in
theorem ptpMessage_timeout : d.ptpMessage n dom tr .announceTimeout = d.setPtp 1 := by simp [ptpMessage, when, hrun, hon]

include hrun hon in
theorem ptpMessage_interval : d.ptpMessage n dom tr .interval = d.ptpInterval n := by simp [ptpMessage, when, hrun, hon]

variable (hframe : m ≠ .announceTimeout) (hframe' : m ≠ .interval)
include hup hrun hon hframe hframe'

theorem ptpMessage_received : d.ptpMessage n dom tr m
    = if tr ≠ d.appliedNum 0x9020 4 then (d.received n).netDrop n
      else if dom ≠ d.appliedNum 0x9020 2 then (d.received n).count NET_PTP_DROP_CNT.addr else (d.received n).ptpHeard n m := by
  have htaken : d.ptpMessage n dom tr m = d.netTake n fun d => if !d.ptpOn n || tr != d.appliedNum 0x9020 4 then d.netDrop n
      else if dom != d.appliedNum 0x9020 2 then d.count NET_PTP_DROP_CNT.addr else d.ptpHeard n m := by
    cases m with
    | announceTimeout => exact absurd rfl hframe
    | interval => exact absurd rfl hframe'
    | announce | sync | delay | pdelayReq | part | dropped => rfl
  rw [htaken, netTake_running hup hrun, received_ptpOn, hon]
  simp [received_appliedNum]

theorem ptpMessage_transport (ht : tr ≠ d.appliedNum 0x9020 4) : d.ptpMessage n dom tr m = (d.received n).netDrop n := by
  rw [ptpMessage_received hup hrun hon hframe hframe', if_pos ht]

theorem ptpMessage_domain (ht : tr = d.appliedNum 0x9020 4) (hd : dom ≠ d.appliedNum 0x9020 2) :
    d.ptpMessage n dom tr m = (d.received n).count NET_PTP_DROP_CNT.addr := by
  rw [ptpMessage_received hup hrun hon hframe hframe', if_neg (by simp [ht]), if_pos hd]

theorem ptpMessage_heard (ht : tr = d.appliedNum 0x9020 4) (hd : dom = d.appliedNum 0x9020 2) :
    d.ptpMessage n dom tr m = (d.received n).ptpHeard n m := by
  rw [ptpMessage_received hup hrun hon hframe hframe', if_neg (by simp [ht]), if_neg (by simp [hd])]

end

/-! What the port makes of it. -/

section
variable (d : Dev)

theorem ptpSend_sent (n : Fin 2) (kind : Nat) : (d.ptpSend n kind).get64 (NET_TX_CNT.addr n) = (d.get64 (NET_TX_CNT.addr n) + 1) % 2 ^ 64 := by
  rw [ptpSend, emit_get64, get64_count_same]

/-- The two answers to a Pdelay_Req. -/
theorem ptpSend_twice (n : Fin 2) : ((d.ptpSend n 4).ptpSend n 5).out = d.out
    ++ [.ethernet n 4 (le 1 (d.appliedNum 0x9020 2) ++ le 1 (d.appliedNum 0x9020 4)),
      .ethernet n 5 (le 1 (d.appliedNum 0x9020 2) ++ le 1 (d.appliedNum 0x9020 4))] := List.append_assoc _ _ _

theorem gmTaken_frame (gm : Nat) : Frame (fun a => a = NET_PTP_GM.addr ∨ a = NET_PTP_GM.addr + 4 ∨ a = NET_FLAGS.addr) d (d.gmTaken gm) :=
  (((Frame.refl _ d).put64 gm (.inl rfl) (.inr (.inl rfl))).set1 (f := NET_FLAGS.GM_CHANGE) (.inr (.inr rfl))).notice _ _ _ _

variable {d} in
/-- A new grandmaster, in LISTENING. -/
theorem announced_listening {gm : Nat} (hs : d.ptpState = 1) (hne : d.get64 NET_PTP_GM.addr ≠ gm) : d.announced gm = (d.gmTaken gm).setPtp 2 := by
  have hstate : (d.gmTaken gm).ptpState = 1 := ((d.gmTaken_frame gm).get (by decide)).trans hs
  simp [announced, when, hne, hstate]

theorem gmTaken_setPtp_gm {gm : Nat} (hgm : gm < 2 ^ 64) : ((d.gmTaken gm).setPtp 2).get64 NET_PTP_GM.addr = gm := by
  rw [(setPtp_frame _ 2).get64 (by decide) (by decide), gmTaken, notice_get64, get64_set1_ne _ _ (by decide) (by decide), get64_put64_same,
    Nat.mod_eq_of_lt hgm]

theorem gmTaken_setPtp_change (gm : Nat) : ((d.gmTaken gm).setPtp 2).is NET_FLAGS.GM_CHANGE = true := by
  have htaken : (d.gmTaken gm).is NET_FLAGS.GM_CHANGE = true :=
    (is_congr (d := (d.put64 NET_PTP_GM.addr gm).set1 NET_FLAGS.GM_CHANGE) (notice_regs _ _ _ _ _) _).trans (is_set1_same _ _ rfl (by decide))
  unfold setPtp
  split
  · exact htaken
  · exact (is_congr (notice_regs _ _ _ _ _) _).trans ((is_set1_apart _ _ _ (by decide) (.inr (.inl (by decide)))).trans
      ((is_put_apart _ _ _ _ (by decide) (.inl (by decide))).trans htaken))

theorem gmTaken_setPtp_frame (gm : Nat) : Frame PtpRegs d ((d.gmTaken gm).setPtp 2) :=
  ((d.gmTaken_frame gm).mono fun a ha => by rcases ha with rfl | rfl | rfl <;> decide).trans ((d.gmTaken gm).setPtp_net 2)

theorem synced_frame (off : Nat) : Frame PtpRegs d (d.synced off) :=
  (((Frame.refl PtpRegs d).count (by decide) (by decide)).put64 _ (by decide) (by decide)).trans (setPtp_net _ 3)

theorem synced_state (off : Nat) : (d.synced off).ptpState = 3 := setPtp_state _ (by decide)

theorem synced_offset {off : Nat} (h : off < 2 ^ 64) : (d.synced off).get64 NET_PTP_OFFSET.addr = off := by
  rw [synced, (setPtp_frame _ 3).get64 (by decide) (by decide), get64_put64_same, Nat.mod_eq_of_lt h]

theorem synced_count (off : Nat) : (d.synced off).get64 NET_PTP_SYNC_CNT.addr = (d.get64 NET_PTP_SYNC_CNT.addr + 1) % 2 ^ 64 := by
  rw [synced, (setPtp_frame _ 3).get64 (by decide) (by decide), get64_put64_ne _ _ (by decide) (by decide) (by decide), get64_count_same]

theorem synced_cad (off : Nat) : (d.synced off).cad = d.cad := (setPtp_cad _ 3).trans rfl

theorem synced_softWrote (off : Nat) (f : Bits) : (d.synced off).softWrote f = d.softWrote f :=
  (setPtp_softWrote _ 3 f).trans ((softWrote_congr (d := d.count NET_PTP_SYNC_CNT.addr) (by simp) (by simp) f).trans (softWrote_count d _ f))

end

/-! ### A link (R402, R405) -/

section
variable (d : Dev) (n : Fin 2) (code : Nat) (lock : Bool)

/-- The link as it now is. -/
def linkPut : Dev := ((d.put (NET_PORT_STAT.LOCK n) (ofBool lock)).put (NET_PORT_STAT.RATE n) code).put (NET_PORT_STAT.LINK n) (ofBool (code != 0))

/-- Its report, and the link with it, where the rate has changed. -/
def linkTold : Dev := (d.set1 NET_FLAGS.LINK_CHG).notice .event idNET 0x010 (code * 16 + n)
def linkNow : Dev := (d.linkPut n code lock).when (d.get (NET_PORT_STAT.RATE n) != code) (·.linkTold n code)

theorem linkPut_frame : Frame (· = NET_PORT_STAT.addr n) d (d.linkPut n code lock) :=
  (((Frame.refl (· = NET_PORT_STAT.addr n) d).put (f := NET_PORT_STAT.LOCK n) _ rfl).put (f := NET_PORT_STAT.RATE n) _ rfl).put
    (f := NET_PORT_STAT.LINK n) _ rfl

theorem linkTold_frame : Frame (· = NET_FLAGS.addr) d (d.linkTold n code) :=
  ((Frame.refl (· = NET_FLAGS.addr) d).set1 (f := NET_FLAGS.LINK_CHG) rfl).notice _ _ _ _

theorem linkNow_keeps : Frame (· = NET_FLAGS.addr) (d.linkPut n code lock) (d.linkNow n code lock) :=
  (Frame.refl _ _).when' _ _ fun _ => linkTold_frame _ n code

theorem linkNow_frame : Frame (fun a => a = NET_PORT_STAT.addr n ∨ a = NET_FLAGS.addr) d (d.linkNow n code lock) :=
  ((d.linkPut_frame n code lock).mono fun _ => .inl).trans ((d.linkNow_keeps n code lock).mono fun _ => .inr)

theorem portStat_ne : NET_PORT_STAT.addr n ≠ NET_FLAGS.addr := by unfold NET_PORT_STAT.addr NET_FLAGS.addr; omega

variable {code} in
theorem linkNow_rate (h : code ≤ 5) : (d.linkNow n code lock).get (NET_PORT_STAT.RATE n) = code := by
  rw [(d.linkNow_keeps n code lock).get (portStat_ne n), linkPut,
    get_put_apart _ (NET_PORT_STAT.LINK n) (NET_PORT_STAT.RATE n) _ (show 1 + 1 ≤ 32 by decide) (.inr (.inl (show 1 + 1 ≤ 2 by decide))),
    get_put_same _ _ _ (show 2 + 3 ≤ 32 by decide)]
  exact Nat.mod_eq_of_lt (Nat.lt_of_le_of_lt h (show 5 < 2 ^ 3 by decide))

theorem is_put_ofBool (f : Bits) (b : Bool) (hf : f.lo + f.w ≤ 32) (hw : f.w = 1) : (d.put f (ofBool b)).is f = b := by
  rw [is, get_put_same _ _ _ hf, hw]
  cases b <;> rfl

theorem linkNow_link : (d.linkNow n code lock).is (NET_PORT_STAT.LINK n) = (code != 0) := by
  rw [(d.linkNow_keeps n code lock).is (portStat_ne n), linkPut, is_put_ofBool _ _ _ (show 1 + 1 ≤ 32 by decide) rfl]

theorem linkNow_lock : (d.linkNow n code lock).is (NET_PORT_STAT.LOCK n) = lock := by
  rw [(d.linkNow_keeps n code lock).is (portStat_ne n), linkPut,
    is_put_apart _ (NET_PORT_STAT.LINK n) (NET_PORT_STAT.LOCK n) _ (show 1 + 1 ≤ 32 by decide) (.inr (.inr (show 0 + 1 ≤ 1 by decide))),
    is_put_apart _ (NET_PORT_STAT.RATE n) (NET_PORT_STAT.LOCK n) _ (show 2 + 3 ≤ 32 by decide) (.inr (.inr (show 0 + 1 ≤ 2 by decide))),
    is_put_ofBool _ _ _ (show 0 + 1 ≤ 32 by decide) rfl]

theorem linkNow_input : (d.linkNow n code lock).ntq.input = d.ntq.input ++ (if d.get (NET_PORT_STAT.RATE n) = code then []
    else [⟨.event, idNET, 0x010, word (code * 16 + n), d.time⟩]) := by
  unfold linkNow linkTold linkPut when
  split
  · next h => simp at h; simp [h]
  · next h => simp at h; simp [h]

variable {d n code} in
theorem ethLink_possible (hup : d.netOn n = true) (hspeed : code ≤ d.get (NET_PORT_CTL.SPEED_MAX n)) (hcode : code ≤ 5) :
    d.ethLink n code lock = d.linkNow n code lock := by
  rw [ethLink, if_neg (by simp [hup]; omega)]
  rfl

end
end Dev

/-! ### The commands -/

section
variable {s : State} (hs : s.Ready) {n : Fin 2}

/-- A command whose frame is counted; that drops it, that answers it with a message, and that the PTP port ignores. -/
abbrev State.Counts (s t : State) (n : Fin 2) : Prop := t.dev.get64 (NET_RX_CNT.addr n) = (s.dev.get64 (NET_RX_CNT.addr n) + 1) % 2 ^ 64

abbrev State.Drops (s : State) (n : Fin 2) (c : Instr) : Prop := ∃ t, exec c s = .next t ∧ s.Counts t n ∧ t.dev.out = s.dev.out
  ∧ t.dev.get64 (NET_RX_DROP_CNT.addr n) = (s.dev.get64 (NET_RX_DROP_CNT.addr n) + 1) % 2 ^ 64 ∧ s.Keeps t (Dev.DropRegs n)

abbrev State.Sends (s : State) (n : Fin 2) (c : Instr) (o : Out) : Prop := ∃ t, exec c s = .next t ∧ s.Counts t n ∧ t.dev.out = s.dev.out ++ [o]
  ∧ t.dev.get64 (NET_TX_CNT.addr n) = (s.dev.get64 (NET_TX_CNT.addr n) + 1) % 2 ^ 64 ∧ s.Keeps t (Dev.SendRegs n)

abbrev State.Ignores (s : State) (n : Fin 2) (c : Instr) : Prop := ∃ t, exec c s = .next t ∧ s.Counts t n ∧ t.dev.ptpState = s.dev.ptpState
  ∧ t.dev.get64 NET_PTP_DROP_CNT.addr = (s.dev.get64 NET_PTP_DROP_CNT.addr + 1) % 2 ^ 64
  ∧ s.Keeps t fun a => a = NET_RX_CNT.addr n ∨ a = NET_RX_CNT.addr n + 4 ∨ a = NET_PTP_DROP_CNT.addr ∨ a = NET_PTP_DROP_CNT.addr + 4

include hs

theorem drops_of {c : Instr} {f : Dev → Dev} (hc : exec c s = s.run f) (hf : f s.dev = (s.dev.received n).netDrop n) : s.Drops n c := by
  have hrx : NET_RX_CNT.addr n + 8 < NET_RX_DROP_CNT.addr n := by unfold NET_RX_CNT.addr NET_RX_DROP_CNT.addr; omega
  have hframe : Dev.Frame (Dev.DropRegs n) s.dev ((s.dev.received n).netDrop n) :=
    ((s.dev.received_frame n).mono fun _ h => h.imp_right .inl).count (.inr (.inr (.inl rfl))) (.inr (.inr (.inr rfl)))
  have hcount : ((s.dev.received n).netDrop n).get64 (NET_RX_CNT.addr n) = _ :=
    (Dev.get64_count_ne _ (by omega) (by omega) (by omega)).trans (s.dev.received_rx n)
  have hdrop : ((s.dev.received n).netDrop n).get64 (NET_RX_DROP_CNT.addr n) = _ := (Dev.get64_count_same _ _).trans
    (by rw [Dev.received, Dev.get64_count_ne _ (by omega) (by omega) (by omega)])
  have hexec := State.answers_run hs hc hf
  have hout : ((s.dev.received n).netDrop n).out = s.dev.out := rfl
  generalize (s.dev.received n).netDrop n = e at *
  exact ⟨_, hexec, hcount, hout, hdrop, hframe.keeps hs.2.2⟩

theorem sends_of {c : Instr} {f : Dev → Dev} {o : Out} (hc : exec c s = s.run f)
    (hf : f s.dev = ((s.dev.received n).count (NET_TX_CNT.addr n)).emit o) : s.Sends n c o := by
  have hrx : NET_RX_CNT.addr n + 8 < NET_TX_CNT.addr n ∨ NET_RX_CNT.addr n + 8 = NET_TX_CNT.addr n := by
    unfold NET_RX_CNT.addr NET_TX_CNT.addr; omega
  have hframe : Dev.Frame (Dev.SendRegs n) s.dev (((s.dev.received n).count (NET_TX_CNT.addr n)).emit o) :=
    (((s.dev.received_frame n).mono fun _ h => h.imp_right .inl).count (.inr (.inr (.inl rfl))) (.inr (.inr (.inr rfl)))).emit o
  have hcount : (((s.dev.received n).count (NET_TX_CNT.addr n)).emit o).get64 (NET_RX_CNT.addr n)
      = (s.dev.get64 (NET_RX_CNT.addr n) + 1) % 2 ^ 64 := by
    rw [Dev.emit_get64, Dev.get64_count_ne _ (by omega) (by omega) (by omega), Dev.received_rx]
  have hsent : (((s.dev.received n).count (NET_TX_CNT.addr n)).emit o).get64 (NET_TX_CNT.addr n)
      = (s.dev.get64 (NET_TX_CNT.addr n) + 1) % 2 ^ 64 := by
    rw [Dev.emit_get64, Dev.get64_count_same, Dev.received, Dev.get64_count_ne _ (by omega) (by omega) (by omega)]
  have hexec := State.answers_run hs hc hf
  have hout : (((s.dev.received n).count (NET_TX_CNT.addr n)).emit o).out = s.dev.out ++ [o] := rfl
  generalize ((s.dev.received n).count (NET_TX_CNT.addr n)).emit o = e at *
  exact ⟨_, hexec, hcount, hout, hsent, hframe.keeps hs.2.2⟩

theorem ignores_of {c : Instr} {f : Dev → Dev} (hc : exec c s = s.run f) (hf : f s.dev = (s.dev.received n).count NET_PTP_DROP_CNT.addr) :
    s.Ignores n c := by
  have hrx : NET_RX_CNT.addr n + 8 < NET_PTP_DROP_CNT.addr := by unfold NET_RX_CNT.addr NET_PTP_DROP_CNT.addr; omega
  have hframe := ((s.dev.received_frame n).mono fun _ h => h.imp_right .inl).count (P := fun a => a = NET_RX_CNT.addr n ∨ a = NET_RX_CNT.addr n + 4
    ∨ a = NET_PTP_DROP_CNT.addr ∨ a = NET_PTP_DROP_CNT.addr + 4) (a := NET_PTP_DROP_CNT.addr) (.inr (.inr (.inl rfl))) (.inr (.inr (.inr rfl)))
  have hcount : ((s.dev.received n).count NET_PTP_DROP_CNT.addr).get64 (NET_RX_CNT.addr n) = _ :=
    (Dev.get64_count_ne _ (by omega) (by omega) (by omega)).trans (s.dev.received_rx n)
  have hdrop : ((s.dev.received n).count NET_PTP_DROP_CNT.addr).get64 NET_PTP_DROP_CNT.addr = _ := (Dev.get64_count_same _ _).trans
    (by rw [Dev.received, Dev.get64_count_ne _ (by omega) (by omega) (by omega)])
  have hstate : ((s.dev.received n).count NET_PTP_DROP_CNT.addr).ptpState = s.dev.ptpState :=
    (((Dev.Frame.refl (fun a => a = NET_PTP_DROP_CNT.addr ∨ a = NET_PTP_DROP_CNT.addr + 4) _).count (.inl rfl) (.inr rfl)).get (by decide)).trans
      (s.dev.received_ptpState n)
  have hexec := State.answers_run hs hc hf
  generalize (s.dev.received n).count NET_PTP_DROP_CNT.addr = e at *
  exact ⟨_, hexec, hcount, hstate, hdrop, hframe.keeps hs.2.2⟩

/-- A frame that the port takes and counts, and what it does with it to other registers. -/
theorem takes_of {c : Instr} {f : Dev → Dev} {e : Dev} {P : Nat → Prop} (hc : exec c s = s.run f) (hf : f s.dev = e)
    (hframe : Dev.Frame P (s.dev.received n) e) (hP : ∀ a, P a → a < 0xD0_0A00 ∨ 0xD0_0A10 ≤ a) :
    exec c s = .next (s.settleTo e) ∧ s.Counts (s.settleTo e) n ∧ s.Keeps (s.settleTo e) fun a => Dev.RxRegs n a ∨ P a := by
  have hrx : ∀ a, Dev.RxRegs n a → ¬ P a := fun a ha hp => Dev.not_rxRegs (hP a hp) ha
  exact ⟨State.answers_run hs hc hf, (hframe.get64 (hrx _ (.inl rfl)) (hrx _ (.inr rfl))).trans (s.dev.received_rx n),
    (((s.dev.received_frame n).mono fun _ => .inl).trans (hframe.mono fun _ => .inr)).keeps hs.2.2⟩

omit hs in
theorem keeps_net {t : State} (h : s.Keeps t fun a => Dev.RxRegs n a ∨ Dev.PtpRegs a) : s.Keeps t Dev.NetRegs := by
  obtain ⟨hpending, hvault, htime, hregs⟩ := h
  exact ⟨hpending, hvault, htime, fun a ha => hregs a fun h => ha (h.elim (Dev.received_net n a) (·.1))⟩

omit hs in
theorem exec_ptpMessage (n : Fin 2) (dom : Byte) (tr : Fin 3) (m : PtpMsg) :
    exec (.ptpMessageReceive n ⟨dom, tr, m⟩) s = s.run fun d => d.ptpMessage n dom.toNat tr m := rfl

variable (hup : s.dev.netOn n = true) (hrun : s.dev.mgt.firmware = .running) (hon : s.dev.ptpOn n = true)
include hup hrun hon

section
variable {dom : Byte} {tr : Fin 3} (ht : tr.val = s.dev.appliedNum 0x9020 4) (hd : dom.toNat = s.dev.appliedNum 0x9020 2)
include ht hd

theorem announce_taken (gm : BitVec 64) (hstate : s.dev.ptpState = 1) (hne : s.dev.get64 NET_PTP_GM.addr ≠ gm.toNat) :
    ∃ t, exec (.ptpMessageReceive n ⟨dom, tr, .announce gm⟩) s = .next t ∧ s.Counts t n ∧ t.dev.ptpState = 2
      ∧ t.dev.get64 NET_PTP_GM.addr = gm.toNat ∧ t.dev.is NET_FLAGS.GM_CHANGE = true ∧ s.Keeps t Dev.NetRegs := by
  let d := s.dev.received n
  have hgm : d.get64 NET_PTP_GM.addr ≠ gm.toNat := by
    rw [(s.dev.received_frame n).get64 (Dev.not_rxRegs (.inl (by decide))) (Dev.not_rxRegs (.inl (by decide)))]; exact hne
  have hheard := (Dev.ptpMessage_heard hup hrun hon (m := .announce gm) (by simp) (by simp) ht hd).trans
    (Dev.announced_listening ((s.dev.received_ptpState n).trans hstate) hgm)
  obtain ⟨hexec, hcount, hkeeps⟩ := takes_of hs (exec_ptpMessage n dom tr _) hheard (d.gmTaken_setPtp_frame _) fun _ h => h.2
  have hlistens := Dev.setPtp_state (d.gmTaken gm.toNat) (m := 2) (by decide)
  have htaken := d.gmTaken_setPtp_gm gm.isLt
  have hchange := d.gmTaken_setPtp_change gm.toNat
  generalize (d.gmTaken gm.toNat).setPtp 2 = e at *
  exact ⟨_, hexec, hcount, hlistens, htaken, hchange, keeps_net hkeeps⟩

omit hs in
/-- A Sync in UNCALIBRATED or SLAVE. -/
theorem sync_heard (off domain : BitVec 64) (trim : BitVec 32) (hstate : s.dev.ptpState = 2 ∨ s.dev.ptpState = 3) :
    s.dev.ptpMessage n dom.toNat tr (.sync off domain trim)
      = ((s.dev.received n).synced off.toNat).when (s.dev.get CAD_TIME_CTL.DISC = 1) fun d => (d.discOffset domain.toNat).discUpdate trim.toInt := by
  have hdisc : ((s.dev.received n).synced off.toNat).get CAD_TIME_CTL.DISC = s.dev.get CAD_TIME_CTL.DISC :=
    ((Dev.synced_frame _ _).get (by decide)).trans (s.dev.received_get n (by decide))
  rw [Dev.ptpMessage_heard hup hrun hon (by simp) (by simp) ht hd, Dev.ptpHeard, s.dev.received_ptpState, if_neg (by simp; omega), hdisc]

theorem sync_taken (off domain : BitVec 64) (trim : BitVec 32) (hstate : s.dev.ptpState = 2 ∨ s.dev.ptpState = 3)
    (hdisc : s.dev.get CAD_TIME_CTL.DISC ≠ 1) :
    ∃ t, exec (.ptpMessageReceive n ⟨dom, tr, .sync off domain trim⟩) s = .next t ∧ s.Counts t n ∧ t.dev.ptpState = 3
      ∧ t.dev.get64 NET_PTP_OFFSET.addr = off.toNat
      ∧ t.dev.get64 NET_PTP_SYNC_CNT.addr = (s.dev.get64 NET_PTP_SYNC_CNT.addr + 1) % 2 ^ 64 ∧ s.Keeps t Dev.NetRegs := by
  let d := s.dev.received n
  have hsync := sync_heard hup hrun hon ht hd off domain trim hstate
  rw [Dev.when, if_neg (by simpa using hdisc)] at hsync
  obtain ⟨hexec, hcount, hkeeps⟩ := takes_of hs (exec_ptpMessage n dom tr _) hsync (d.synced_frame _) fun _ h => h.2
  have hsynced : d.get64 NET_PTP_SYNC_CNT.addr = s.dev.get64 NET_PTP_SYNC_CNT.addr :=
    (s.dev.received_frame n).get64 (Dev.not_rxRegs (.inr (by decide))) (Dev.not_rxRegs (.inr (by decide)))
  have hcnt := (d.synced_count off.toNat).trans (by rw [hsynced])
  have hslave := d.synced_state off.toNat
  have hmeasured := d.synced_offset off.isLt
  generalize d.synced off.toNat = e at *
  exact ⟨_, hexec, hcount, hslave, hmeasured, hcnt, keeps_net hkeeps⟩

theorem sync_disciplines (off domain : BitVec 64) (trim : BitVec 32) (hstate : s.dev.ptpState = 2 ∨ s.dev.ptpState = 3)
    (hdisc : s.dev.get CAD_TIME_CTL.DISC = 1) (hlo : s.dev.softWrote ⟨CAD_DOMAIN_OFF.addr, 0, 32⟩ = false)
    (hhi : s.dev.softWrote ⟨CAD_DOMAIN_OFF.addr + 4, 0, 32⟩ = false) :
    ∃ t, exec (.ptpMessageReceive n ⟨dom, tr, .sync off domain trim⟩) s = .next t ∧ s.Counts t n ∧ t.dev.ptpState = 3
      ∧ t.dev.get64 NET_PTP_OFFSET.addr = off.toNat
      ∧ t.dev.get64 CAD_DOMAIN_OFF.addr = (if s.dev.cad.held then s.dev.get64 CAD_DOMAIN_OFF.addr else domain.toNat)
      ∧ t.dev.is CAD_STAT.DISC_OK = true ∧ t.dev.cad.discAt = s.dev.time ∧ t.dev.cad.discTold = false
      ∧ s.Keeps t fun a => Dev.NetRegs a ∨ a / 0x1_0000 = 4 := by
  let d := s.dev.received n
  let e := (d.synced off.toNat).discOffset domain.toNat
  let g := e.discUpdate trim.toInt
  have hsync := sync_heard hup hrun hon ht hd off domain trim hstate
  rw [Dev.when, if_pos (by simpa using hdisc)] at hsync
  change s.dev.ptpMessage n dom.toNat tr (.sync off domain trim) = g at hsync
  have hoffset : Dev.Frame (fun a => a = CAD_DOMAIN_OFF.addr ∨ a = CAD_DOMAIN_OFF.addr + 4) (d.synced off.toNat) e := Dev.discOffset_frame _ _
  have hupdate : Dev.Frame Dev.UpdateRegs e g := Dev.discUpdate_keeps _ _
  have hframe : Dev.Frame (fun a => Dev.PtpRegs a ∨ a / 0x1_0000 = 4) d g :=
    (((d.synced_frame off.toNat).mono fun _ => .inl).trans (hoffset.mono fun a ha => .inr (by rcases ha with rfl | rfl <;> rfl))).trans
      (hupdate.mono fun a ha => .inr (by rcases ha with rfl | rfl | rfl <;> rfl))
  obtain ⟨hexec, hcount, hkeeps⟩ := takes_of hs (exec_ptpMessage n dom tr _) hsync hframe fun a ha =>
    ha.elim (·.2) fun h => .inl (by omega)
  have hwrote : ∀ f, (d.synced off.toNat).softWrote f = s.dev.softWrote f := fun f =>
    (d.synced_softWrote _ f).trans (s.dev.softWrote_count (NET_RX_CNT.addr n) f)
  have hbefore : (d.synced off.toNat).get64 CAD_DOMAIN_OFF.addr = s.dev.get64 CAD_DOMAIN_OFF.addr :=
    ((d.synced_frame _).get64 (by decide) (by decide)).trans
      ((s.dev.received_frame n).get64 (Dev.not_rxRegs (.inl (by decide))) (Dev.not_rxRegs (.inl (by decide))))
  have hoff : g.get64 CAD_DOMAIN_OFF.addr = if s.dev.cad.held then s.dev.get64 CAD_DOMAIN_OFF.addr else domain.toNat := by
    rw [hupdate.get64 (by decide) (by decide), Dev.discOffset_off _ _ ((hwrote _).trans hlo) ((hwrote _).trans hhi), hbefore,
      Nat.mod_eq_of_lt domain.isLt, Dev.synced_cad, s.dev.received_cad]
  have hstate' : g.ptpState = 3 := (hupdate.get (by decide)).trans ((hoffset.get (by decide)).trans (d.synced_state _))
  have hmeasured : g.get64 NET_PTP_OFFSET.addr = off.toNat :=
    (hupdate.get64 (by decide) (by decide)).trans ((hoffset.get64 (by decide) (by decide)).trans (d.synced_offset off.isLt))
  have hvalid : g.is CAD_STAT.DISC_OK = true := e.discUpdate_valid _
  have hcad : g.cad.discAt = e.time ∧ g.cad.discTold = false := e.discUpdate_cad trim.toInt
  obtain ⟨hat, htold⟩ := hcad
  have htime : e.time = s.dev.time := hoffset.2.1.trans ((d.synced_frame _).2.1.trans (s.dev.received_frame n).2.1)
  obtain ⟨hpending, hvault, hnow, hregs⟩ := hkeeps
  have hat := hat.trans htime
  clear_value g
  exact ⟨_, hexec, hcount, hstate', hmeasured, hoff, hvalid, hat, htold, hpending, hvault, hnow, fun a ha => hregs a fun h =>
    ha (h.elim (fun h => .inl (Dev.received_net n a h)) (·.imp_left (·.1)))⟩

theorem sync_ignored (off domain : BitVec 64) (trim : BitVec 32) (hstate : s.dev.ptpState = 1) :
    s.Ignores n (.ptpMessageReceive n ⟨dom, tr, .sync off domain trim⟩) :=
  ignores_of hs (exec_ptpMessage n dom tr _) ((Dev.ptpMessage_heard hup hrun hon (m := .sync off domain trim) (by simp) (by simp) ht hd).trans
    (if_pos (by simp [s.dev.received_ptpState, hstate])))

theorem delay_taken (mpd : Nat) : ∃ t, exec (.ptpMessageReceive n ⟨dom, tr, .delay mpd⟩) s = .next t ∧ s.Counts t n
    ∧ t.dev.get NET_PTP_MPD.MPD = Nat.min (2 ^ 32 - 1) mpd ∧ s.Keeps t Dev.NetRegs := by
  have hheard := Dev.ptpMessage_heard hup hrun hon (m := .delay mpd) (by simp) (by simp) ht hd
  have hframe := (Dev.Frame.refl Dev.PtpRegs (s.dev.received n)).put (f := NET_PTP_MPD.MPD) (Nat.min (2 ^ 32 - 1) mpd) (by decide)
  obtain ⟨hexec, hcount, hkeeps⟩ := takes_of hs (exec_ptpMessage n dom tr _) hheard hframe fun _ h => h.2
  have hfits : Nat.min (2 ^ 32 - 1) mpd < 2 ^ 32 := Nat.lt_of_le_of_lt (Nat.min_le_left _ _) (by decide)
  have hmpd := (Dev.get_put_same (s.dev.received n) NET_PTP_MPD.MPD _ (by decide)).trans (Nat.mod_eq_of_lt hfits)
  exact ⟨_, hexec, hcount, hmpd, keeps_net hkeeps⟩

theorem pdelayReq_answered (hprofile : s.dev.appliedNum 0x9020 1 = 1) :
    ∃ t, exec (.ptpMessageReceive n ⟨dom, tr, .pdelayReq⟩) s = .next t ∧ s.Counts t n
      ∧ t.dev.out = s.dev.out ++ [.ethernet n 4 (le 1 (s.dev.appliedNum 0x9020 2) ++ le 1 (s.dev.appliedNum 0x9020 4)),
        .ethernet n 5 (le 1 (s.dev.appliedNum 0x9020 2) ++ le 1 (s.dev.appliedNum 0x9020 4))]
      ∧ t.dev.get64 (NET_TX_CNT.addr n) = (s.dev.get64 (NET_TX_CNT.addr n) + 2) % 2 ^ 64 ∧ s.Keeps t Dev.NetRegs := by
  let d := s.dev.received n
  have htx : Dev.PtpRegs (NET_TX_CNT.addr n) ∧ Dev.PtpRegs (NET_TX_CNT.addr n + 4) := by unfold Dev.PtpRegs NET_TX_CNT.addr; omega
  have hheard : s.dev.ptpMessage n dom.toNat tr .pdelayReq = (d.ptpSend n 4).ptpSend n 5 :=
    (Dev.ptpMessage_heard hup hrun hon (m := .pdelayReq) (by simp) (by simp) ht hd).trans (if_pos (decide_eq_true hprofile))
  have hsend : ∀ g kind, Dev.Frame Dev.PtpRegs g (g.ptpSend n kind) := fun g kind => ((Dev.Frame.refl _ g).count htx.1 htx.2).emit _
  have htx' : d.get64 (NET_TX_CNT.addr n) = s.dev.get64 (NET_TX_CNT.addr n) :=
    (s.dev.received_frame n).get64 (Dev.not_rxRegs htx.1.2) (Dev.not_rxRegs htx.2.2)
  obtain ⟨hexec, hcount, hkeeps⟩ := takes_of hs (exec_ptpMessage n dom tr _) hheard ((hsend d 4).trans (hsend _ 5)) fun _ h => h.2
  have hcnt : ((d.ptpSend n 4).ptpSend n 5).get64 (NET_TX_CNT.addr n) = (s.dev.get64 (NET_TX_CNT.addr n) + 2) % 2 ^ 64 := by
    rw [Dev.ptpSend_sent, Dev.ptpSend_sent, htx']; omega
  have hout := Dev.ptpSend_twice d n
  rw [s.dev.received_out] at hout
  generalize (d.ptpSend n 4).ptpSend n 5 = e at *
  exact ⟨_, hexec, hcount, hout, hcnt, keeps_net hkeeps⟩

theorem dropped_ignored : s.Ignores n (.ptpMessageReceive n ⟨dom, tr, .dropped⟩) :=
  ignores_of hs (exec_ptpMessage n dom tr _) (Dev.ptpMessage_heard hup hrun hon (m := .dropped) (by simp) (by simp) ht hd)

theorem part_taken : ∃ t, exec (.ptpMessageReceive n ⟨dom, tr, .part⟩) s = .next t ∧ s.Counts t n ∧ t.dev.out = s.dev.out
    ∧ s.Keeps t (Dev.RxRegs n) := by
  have hheard := Dev.ptpMessage_heard hup hrun hon (m := .part) (by simp) (by simp) ht hd
  exact ⟨_, State.answers_run hs (exec_ptpMessage n dom tr _) hheard, s.dev.received_rx n, rfl,
    (s.dev.received_frame n).keeps hs.2.2⟩

end

omit hup in
theorem announceTimeout_listens (dom : Byte) (tr : Fin 3) (hstate : s.dev.ptpState = 3) :
    ∃ t, exec (.ptpMessageReceive n ⟨dom, tr, .announceTimeout⟩) s = .next t ∧ t.dev.ptpState = 1
      ∧ t.dev.ntq.input = s.dev.ntq.input ++ [⟨.event, idNET, 0x011, 1#32, s.dev.time⟩] ∧ s.Keeps t Dev.NetRegs := by
  have hexec := State.answers_run hs (exec_ptpMessage n dom tr _) (Dev.ptpMessage_timeout hrun hon)
  exact ⟨_, hexec, s.dev.setPtp_state (by decide), Dev.setPtp_input _ (by omega), ((s.dev.setPtp_net 1).mono fun _ h => h.1).keeps hs.2.2⟩

omit hup in
theorem interval_asks (dom : Byte) (tr : Fin 3) {kind : Nat} (hkind : (s.dev.appliedNum 0x9020 1 = 1 ∧ kind = 7)
    ∨ (s.dev.appliedNum 0x9020 1 ≠ 1 ∧ 2 ≤ s.dev.ptpState ∧ kind = 6)) :
    ∃ t, exec (.ptpMessageReceive n ⟨dom, tr, .interval⟩) s = .next t
      ∧ t.dev.out = s.dev.out ++ [.ethernet n kind (le 1 (s.dev.appliedNum 0x9020 2) ++ le 1 (s.dev.appliedNum 0x9020 4))]
      ∧ t.dev.get64 (NET_TX_CNT.addr n) = (s.dev.get64 (NET_TX_CNT.addr n) + 1) % 2 ^ 64
      ∧ s.Keeps t fun a => a = NET_TX_CNT.addr n ∨ a = NET_TX_CNT.addr n + 4 := by
  have hsend : s.dev.ptpInterval n = s.dev.ptpSend n kind := by
    rcases hkind with ⟨hprofile, rfl⟩ | ⟨hprofile, hstate, rfl⟩
    · exact if_pos hprofile
    · have hon' : s.dev.ptpState = 2 ∨ s.dev.ptpState = 3 := by simp [Dev.ptpOn] at hon; omega
      rw [Dev.ptpInterval, if_neg hprofile, Dev.when, if_pos (by simpa using hon')]
  have hexec := State.answers_run hs (exec_ptpMessage n dom tr _) ((Dev.ptpMessage_interval hrun hon).trans hsend)
  have hframe : Dev.Frame (fun a => a = NET_TX_CNT.addr n ∨ a = NET_TX_CNT.addr n + 4) s.dev (s.dev.ptpSend n kind) :=
    ((Dev.Frame.refl _ s.dev).count (.inl rfl) (.inr rfl)).emit _
  exact ⟨_, hexec, rfl, Dev.get64_count_same s.dev _, hframe.keeps hs.2.2⟩

end

section
variable {s : State} (hs : s.Ready) {n : Fin 2} (hup : s.dev.netOn n = true)
include hs hup

theorem ethLinkChange_told (code : BitVec 3) (lock : Bool) (hspeed : code.toNat ≤ s.dev.get (NET_PORT_CTL.SPEED_MAX n)) (hcode : code.toNat ≤ 5) :
    ∃ t, exec (.ethLinkChange n code lock) s = .next t ∧ t.dev.get (NET_PORT_STAT.RATE n) = code.toNat
      ∧ t.dev.is (NET_PORT_STAT.LINK n) = decide (code ≠ 0) ∧ t.dev.is (NET_PORT_STAT.LOCK n) = lock
      ∧ t.dev.ntq.input = s.dev.ntq.input ++ (if s.dev.get (NET_PORT_STAT.RATE n) = code.toNat then []
        else [⟨.event, idNET, 0x010, word (code.toNat * 16 + n), s.dev.time⟩])
      ∧ s.Keeps t fun a => a = NET_PORT_STAT.addr n ∨ a = NET_FLAGS.addr := by
  have hexec := State.answers_run hs (i := .ethLinkChange n code lock) (f := fun d => d.ethLink n code.toNat lock) rfl
    (Dev.ethLink_possible lock hup hspeed hcode)
  have hup : (code.toNat != 0) = decide (code ≠ 0) := by simp [← BitVec.toNat_inj, bne, beq_eq_decide]
  have hrate := s.dev.linkNow_rate n lock hcode
  have hlink := (s.dev.linkNow_link n code.toNat lock).trans hup
  have hlock := s.dev.linkNow_lock n code.toNat lock
  have hinput := s.dev.linkNow_input n code.toNat lock
  have hframe := s.dev.linkNow_frame n code.toNat lock
  generalize s.dev.linkNow n code.toNat lock = e at *
  exact ⟨_, hexec, hrate, hlink, hlock, hinput, hframe.keeps hs.2.2⟩

/-- The PTP port, with its messages. -/
theorem ptp_follows (hrun : s.dev.mgt.firmware = .running) (hon : s.dev.ptpOn n = true) (dom : Byte) (tr : Fin 3) {m : PtpMsg}
    (hframe : m ≠ .announceTimeout) (hframe' : m ≠ .interval) :
    (tr.val ≠ s.dev.appliedNum 0x9020 4 → s.Drops n (.ptpMessageReceive n ⟨dom, tr, m⟩))
      ∧ (tr.val = s.dev.appliedNum 0x9020 4 → dom.toNat ≠ s.dev.appliedNum 0x9020 2 → s.Ignores n (.ptpMessageReceive n ⟨dom, tr, m⟩)) :=
  ⟨fun ht => drops_of hs (exec_ptpMessage n dom tr m) (Dev.ptpMessage_transport hup hrun hon hframe hframe' ht),
    fun ht hd => ignores_of hs (exec_ptpMessage n dom tr m) (Dev.ptpMessage_domain hup hrun hon hframe hframe' ht hd)⟩

end
end Sys2Proof.Machine

/-- Settles O48: a frame received is counted and then dropped, answered, ignored or heard; a Sync that is heard can discipline the time. -/
theorem networkPorts : Obligations.NetworkPorts := by
  unfold Obligations.NetworkPorts
  intro s n hs hup
  refine ⟨fun hrun => ⟨fun mac ip target => ⟨fun hne hown => ?_, fun h => ?_⟩,
    fun source target h6 => ⟨fun hown => ?_, fun hlink hglobal => ?_⟩, fun source dest data => ⟨fun hown h6 hlink => ?_, fun hown => ?_⟩,
    fun hon dom tr => ⟨fun m hm hm' => ptp_follows hs hup hrun hon dom tr hm hm', fun ht hd => ?_,
      fun hstate => announceTimeout_listens hs hrun hon dom tr hstate, fun kind hkind => interval_asks hs hrun hon dom tr hkind⟩⟩,
    drops_of hs (f := fun d => d.frameDrop n) rfl (Dev.frameDrop_up hup),
    fun code lock hspeed hcode => ethLinkChange_told hs hup code lock hspeed hcode⟩
  · have h4 : Dev.isIp4 target.toNat = true := decide_eq_true target.isLt
    have hnat : target.toNat ≠ 0 := fun h => hne (BitVec.eq_of_toNat_eq h)
    exact sends_of hs (f := fun d => d.arpRequest n mac.toNat ip.toNat target.toNat) rfl (Dev.arpRequest_own hup hrun _ _ hnat h4 hown)
  · exact drops_of hs (f := fun d => d.arpRequest n mac.toNat ip.toNat target.toNat) rfl
      (Dev.arpRequest_other hup hrun _ _ (h.imp_left fun h => by rw [h]; rfl))
  · exact sends_of hs (f := fun d => d.neighborSolicit n source.toNat target.toNat) rfl (Dev.neighborSolicit_own hup hrun _ h6 hown)
  · exact drops_of hs (f := fun d => d.neighborSolicit n source.toNat target.toNat) rfl (Dev.neighborSolicit_other hup hrun _ h6 hlink hglobal)
  · exact sends_of hs (f := fun d => d.echoRequest n source.toNat dest.toNat data) rfl (Dev.echoRequest_own hup hrun data hown h6 hlink)
  · exact drops_of hs (f := fun d => d.echoRequest n source.toNat dest.toNat data) rfl (Dev.echoRequest_other hup hrun data hown)
  · exact ⟨fun gm hstate hne => announce_taken hs hup hrun hon ht hd gm hstate hne,
      fun off domain trim hstate hdisc => sync_taken hs hup hrun hon ht hd off domain trim hstate hdisc,
      fun off domain trim hstate hdisc hlo hhi => sync_disciplines hs hup hrun hon ht hd off domain trim hstate hdisc hlo hhi,
      fun off domain trim hstate => sync_ignored hs hup hrun hon ht hd off domain trim hstate, fun mpd => delay_taken hs hup hrun hon ht hd mpd,
      fun hprofile => pdelayReq_answered hs hup hrun hon ht hd hprofile, dropped_ignored hs hup hrun hon ht hd, part_taken hs hup hrun hon ht hd⟩
end

section
/-! PROOFS. The beginning of a tick and the tick bus (R60, R62, R64, R66, R69, R76, R79-R84). -/

open Sys2Proof Sys2Proof.Machine

namespace Sys2Proof.Machine
namespace Dev

/-! ### The beginning of a tick (R64, R66, R69) -/

section
variable (d : Dev) (n at' : Nat)

/-- CAD's own state once a tick has begun. -/
def cadBegun (c : CadState) (depth : Nat) : CadState :=
  { c with
    startAt := none, lastTick := some n, lastTime := at', planned := c.planned.filter (·.num != n)
    sentTo := c.sentTo.filter (n < ·.2)
    budget := c.budget.filter (fun e => n < e.1 + e.2) ++ [(n, depth)]
    scheduledTo := Nat.max c.scheduledTo (n + 1) }

/-- A tick begun, before REPLAY has its records due. -/
def tickNumbered : Dev := (d.setCad fun c => cadBegun n at' c (d.forceGet CAD_CTL.DEPTH)).put64 CAD_TICK.addr n
def tickBegun : Dev := (d.tickNumbered n at').fireHop 0x28 0

theorem tickNumbered_frame : Frame (fun a => a = CAD_TICK.addr ∨ a = CAD_TICK.addr + 4) d (d.tickNumbered n at') :=
  ((Frame.refl _ d).setCad _).put64 _ (.inl rfl) (.inr rfl)

theorem tickBegun_frame : Frame (fun a => a = CAD_TICK.addr ∨ a = CAD_TICK.addr + 4) d (d.tickBegun n at') := (d.tickNumbered_frame n at').fireHop _ _

theorem tickBegun_input : (d.tickBegun n at').evr.input = d.evr.input ++ [d.sourceEvent 0x28 0] := by
  have hsource : (d.tickNumbered n at').sourceEvent 0x28 0 = d.sourceEvent 0x28 0 :=
    sourceEvent_frame (d.tickNumbered_frame n at') (fun i _ => by unfold EVR_CH.addr CAD_TICK.addr; omega) rfl 0x28 0
  rw [← hsource]
  rfl

theorem tickBegun_number : (d.tickBegun n at').get64 CAD_TICK.addr = n % 2 ^ 64 := get64_put64_same (d.setCad _) _ _

variable {d n at'}

/-- Where no apply is pending, no deadline falls on the tick and it is no tick of REPLAY, its beginning is that of the cadence alone. -/
theorem tickBegin_plain (m : Vault) (ha : d.cad.apply = none) (hnext : d.nextTick = some (n, at')) (hat : at' ≤ d.time) (hmode : d.actMode ≠ 5)
    (hbudget : ∀ e ∈ d.cad.budget, n < e.1 + e.2) : d.tickBegin m = d.tickBegun n at' := by
  have hland : d.applyLand = d := by simp [applyLand, dueApply, ha]
  have hlate : d.cad.budget.filter (fun e => decide (e.1 + e.2 ≤ n)) = [] :=
    List.filter_eq_nil_iff.2 fun e he => by have := hbudget e he; simp; omega
  have hreplay : (d.tickBegun n at').actMode ≠ 5 := (actMode_frame (d.tickBegun_frame n at') (by decide)).trans_ne hmode
  unfold tickBegin
  rw [hnext]
  simp only [hland, hlate, if_neg (Nat.not_lt.2 hat)]
  change (d.tickBegun n at').replayTick m n = _
  exact if_pos (by simpa using hreplay)

theorem tickBegun_budget (hbudget : ∀ e ∈ d.cad.budget, n < e.1 + e.2) :
    (d.tickBegun n at').cad.budget = d.cad.budget ++ [(n, d.forceGet CAD_CTL.DEPTH)] := by
  have hkept : d.cad.budget.filter (fun e => decide (n < e.1 + e.2)) = d.cad.budget :=
    List.filter_eq_self.2 fun e he => decide_eq_true (hbudget e he)
  have hcad : (d.tickBegun n at').cad = cadBegun n at' d.cad (d.forceGet CAD_CTL.DEPTH) := rfl
  rw [hcad, cadBegun, hkept]

end

/-! ### A frame sent (R80) -/

section
variable {d : Dev} {n : Nat}

/-- The leader's frame of a TIME tick that no plan holds. -/
theorem busFrameSend_time (hdue : d.cad.busStopDue = none) (hplan : d.cad.planned = []) (hn : Nat.max d.cad.busSentTo d.nextNum = n)
    (hsource : d.sourceFor n = 0) (hrole : d.forceGet CAD_CTL.BUS_ROLE = 1) (htick : d.ticking = true)
    (hlead : d.timeOf n ≤ d.time + d.setting n CAD_BUS_LEAD.LEAD) (hedge : ∀ e, d.cad.busEdge = some e → e + us 1 ≤ d.time) :
    d.busFrameSend = (d.setCad fun c => { c with busSentTo := n + 1 }).busEmit n (d.timeOf n) false := by
  unfold busFrameSend
  rw [hdue]
  simp only [hn, hplan, List.find?_nil, hsource, hlead, hrole, htick]
  cases he : d.cad.busEdge with
  | none => simp
  | some e => have := hedge e he; simp; omega

end

/-! ### The silence of the bus (R83) -/

section
variable (d : Dev)

theorem sourceFor_congr {d e : Dev} (ha : e.cad.apply = d.cad.apply) (hr : e.reg CAD_CTL.addr = d.reg CAD_CTL.addr) (hf : e.force = d.force) (n : Nat) :
    e.sourceFor n = d.sourceFor n := by
  have hget : ∀ g : Bits, g.off = CAD_CTL.addr → e.get g = d.get g := fun g hg => get_of_reg (hg ▸ hr)
  have hforce : ∀ g, e.forceGet g = d.forceGet g := fun g => by rw [forceGet, forceGet, force1, force1, hf]
  have hbad : e.ctlBad = d.ctlBad := by rw [ctlBad, ctlBad, hget CAD_CTL.SRC rfl, hget CAD_CTL.BUS_ROLE rfl]
  have hctl : e.ctlNext CAD_CTL.SRC = d.ctlNext CAD_CTL.SRC := by rw [ctlNext, ctlNext, hbad, hforce, hget CAD_CTL.SRC rfl]
  rw [sourceFor, sourceFor, ha, hctl, hforce]

/-- The loss of the bus, before the ticks that it has fixed are taken back. -/
def silenceTold : Dev := (((d.unset CAD_STAT.BUS_OK).set1 CAD_FLAGS.BUS_LOST).notice .alert idCAD 0x012 d.cad.busRxTick).setCad
  fun c => { c with busLost := true }

/-- The first tick that the bus has fixed. -/
def busFixed : Option PlannedTick := d.cad.planned.find? fun q => d.sourceFor q.num = 2

def silenceEnded : Dev := match d.busFixed with
  | some q => d.silenceTold.busTakeBack q.num
  | none => d.silenceTold

theorem silenceTold_frame : Frame (fun a => a = CAD_STAT.addr ∨ a = CAD_FLAGS.addr) d d.silenceTold :=
  (((((Frame.refl _ d).unset (f := CAD_STAT.BUS_OK) (.inl rfl)).set1 (f := CAD_FLAGS.BUS_LOST) (.inr rfl)).notice _ _ _ _).setCad _)

theorem silenceTold_sourceFor (n : Nat) : d.silenceTold.sourceFor n = d.sourceFor n := by
  have happly : d.silenceTold.cad.apply = d.cad.apply := by simp [silenceTold]
  have hforce : d.silenceTold.force = d.force := by simp [silenceTold]
  have hreg : d.silenceTold.reg CAD_CTL.addr = d.reg CAD_CTL.addr := d.silenceTold_frame.2.2.2 _ (by decide)
  exact sourceFor_congr happly hreg hforce n

variable {d} in
theorem busSilence_lost (hrole : d.forceGet CAD_CTL.BUS_ROLE = 2) (hcap : d.capturing = true) (hstop : d.cad.busStopRx = false)
    (hlost : d.cad.busLost = false) (hat : d.cad.busRxAt + ms 10 ≤ d.time) : d.busSilence = d.silenceEnded := by
  have hfind : d.silenceTold.cad.planned.find? (fun q => decide (d.silenceTold.sourceFor q.num = 2)) = d.busFixed := by
    simp only [silenceTold_sourceFor]; rfl
  unfold busSilence when
  rw [if_pos (by simp [hrole, hcap, hstop, hlost, hat])]
  change (match d.silenceTold.cad.planned.find? (fun q => decide (d.silenceTold.sourceFor q.num = 2)) with
    | some q => d.silenceTold.busTakeBack q.num
    | none => d.silenceTold) = _
  rw [hfind]
  rfl

/-- Taking ticks back is CAD's own matter. -/
theorem silenceEnded_keeps {β : Type} (part : Dev → β) (h : ∀ e f, part (setCad e f) = part e) : part d.silenceEnded = part d.silenceTold := by
  unfold silenceEnded
  split
  · exact h _ _
  · rfl

theorem silenceEnded_frame : Frame (fun a => a = CAD_STAT.addr ∨ a = CAD_FLAGS.addr) d d.silenceEnded :=
  d.silenceTold_frame.other (d.silenceEnded_keeps (·.vlt.writes) fun _ _ => rfl) (d.silenceEnded_keeps (·.time) fun _ _ => rfl)
    (d.silenceEnded_keeps (·.low) fun _ _ => rfl) (d.silenceEnded_keeps (·.regs) fun _ _ => rfl)

theorem silenceEnded_ok : d.silenceEnded.is CAD_STAT.BUS_OK = false := by
  rw [d.silenceEnded_keeps (·.is CAD_STAT.BUS_OK) fun _ _ => rfl, silenceTold, setCad_is, notice_is, is_set1_apart _ _ _ (by decide) (.inl (by decide)),
    is_unset_same _ _ (by decide)]

theorem silenceEnded_lost : d.silenceEnded.is CAD_FLAGS.BUS_LOST = true := by
  rw [d.silenceEnded_keeps (·.is CAD_FLAGS.BUS_LOST) fun _ _ => rfl, silenceTold, setCad_is, notice_is, is_set1_same _ _ rfl (by decide)]

theorem silenceEnded_input : d.silenceEnded.ntq.input = d.ntq.input ++ [⟨.alert, idCAD, 0x012, word d.cad.busRxTick, d.time⟩] := by
  rw [d.silenceEnded_keeps (·.ntq) fun _ _ => rfl, silenceTold]; simp

theorem silenceEnded_busLost : d.silenceEnded.cad.busLost = true := by unfold silenceEnded; split <;> rfl

theorem silenceEnded_planned : d.silenceEnded.cad.planned = (match d.busFixed with
    | some q => d.cad.planned.filter (·.num < q.num) | none => d.cad.planned) := by unfold silenceEnded; split <;> rfl

end
end Dev

/-! ### The commands -/

section
variable {s : State} (hs : s.Ready) {n : Nat}
include hs

theorem tickBegin_begins {at' : Nat} (ha : s.dev.cad.apply = none) (hnext : s.dev.nextTick = some (n, at')) (hat : at' ≤ s.dev.time)
    (hmode : s.dev.actMode ≠ 5) (hbudget : ∀ e ∈ s.dev.cad.budget, n < e.1 + e.2) :
    ∃ t, exec .tickBegin s = .next t ∧ t.dev.get64 CAD_TICK.addr = n % 2 ^ 64 ∧ t.dev.cad.lastTick = some n
      ∧ t.dev.cad.lastTime = at' ∧ t.dev.cad.budget = s.dev.cad.budget ++ [(n, s.dev.forceGet CAD_CTL.DEPTH)]
      ∧ t.dev.evr.input = s.dev.evr.input ++ [s.dev.sourceEvent 0x28 0] ∧ t.dev.ntq = s.dev.ntq ∧ t.dev.out = s.dev.out
      ∧ s.Keeps t fun a => a = CAD_TICK.addr ∨ a = CAD_TICK.addr + 4 := by
  have hexec : exec .tickBegin s = .next (s.settleTo (s.dev.tickBegun n at')) := by
    rw [← Dev.tickBegin_plain s.vault ha hnext hat hmode hbudget]; exact State.runWith_ready s (fun m d => d.tickBegin m) hs
  have hnumber := s.dev.tickBegun_number n at'
  have hbudget := Dev.tickBegun_budget (at' := at') hbudget
  have hinput := s.dev.tickBegun_input n at'
  have hframe := s.dev.tickBegun_frame n at'
  have hother : (s.dev.tickBegun n at').cad.lastTick = some n ∧ (s.dev.tickBegun n at').cad.lastTime = at' ∧ (s.dev.tickBegun n at').ntq = s.dev.ntq
      ∧ (s.dev.tickBegun n at').out = s.dev.out := ⟨rfl, rfl, rfl, rfl⟩
  obtain ⟨hlast, htime, hntq, hout⟩ := hother
  generalize s.dev.tickBegun n at' = e at *
  exact ⟨_, hexec, hnumber, hlast, htime, hbudget, hinput, hntq, hout, hframe.keeps hs.2.2⟩

theorem busFrameSend_sent (hdue : s.dev.cad.busStopDue = none) (hplan : s.dev.cad.planned = [])
    (hn : Nat.max s.dev.cad.busSentTo s.dev.nextNum = n) (hsource : s.dev.sourceFor n = 0) (hrole : s.dev.forceGet CAD_CTL.BUS_ROLE = 1)
    (htick : s.dev.ticking = true) (hlead : s.dev.timeOf n ≤ s.dev.time + s.dev.setting n CAD_BUS_LEAD.LEAD)
    (hedge : ∀ e, s.dev.cad.busEdge = some e → e + us 1 ≤ s.dev.time) :
    ∃ t, exec .busFrameSend s = .next t
      ∧ t.dev.out = s.dev.out ++ [.busFrame s.dev.time (Dev.busWord n (s.dev.timeOf n) s.dev.time 0)]
      ∧ t.dev.cad = { s.dev.cad with busSentTo := n + 1, busEdge := some s.dev.time } ∧ s.Keeps t fun _ => False :=
  ⟨_, State.answers_run hs (i := .busFrameSend) (f := (·.busFrameSend)) rfl
    (Dev.busFrameSend_time hdue hplan hn hsource hrole htick hlead hedge), rfl, rfl,
    ((((Dev.Frame.refl _ s.dev).setCad fun c => { c with busSentTo := n + 1 }).emit _).setCad _).keeps hs.2.2⟩

theorem busSilence_told (hrole : s.dev.forceGet CAD_CTL.BUS_ROLE = 2) (hcap : s.dev.capturing = true) (hstop : s.dev.cad.busStopRx = false)
    (hlost : s.dev.cad.busLost = false) (hat : s.dev.cad.busRxAt + ms 10 ≤ s.dev.time) :
    ∃ t, exec .busSilenceTimeout s = .next t ∧ t.dev.is CAD_STAT.BUS_OK = false ∧ t.dev.is CAD_FLAGS.BUS_LOST = true
      ∧ t.dev.cad.busLost = true ∧ t.dev.mode = s.dev.mode
      ∧ t.dev.cad.planned = (match s.dev.cad.planned.find? (fun q => s.dev.sourceFor q.num = 2) with
        | some q => s.dev.cad.planned.filter (·.num < q.num) | none => s.dev.cad.planned)
      ∧ t.dev.ntq.input = s.dev.ntq.input ++ [⟨.alert, idCAD, 0x012, word s.dev.cad.busRxTick, s.dev.time⟩]
      ∧ s.Keeps t fun a => a = CAD_STAT.addr ∨ a = CAD_FLAGS.addr := by
  have hexec := State.answers_run hs (i := .busSilenceTimeout) (f := (·.busSilence)) rfl (Dev.busSilence_lost hrole hcap hstop hlost hat)
  have hframe := s.dev.silenceEnded_frame
  have hok := s.dev.silenceEnded_ok
  have hflag := s.dev.silenceEnded_lost
  have htold := s.dev.silenceEnded_busLost
  have hinput := s.dev.silenceEnded_input
  have hplanned := s.dev.silenceEnded_planned
  have hmode : s.dev.silenceEnded.mode = s.dev.mode := hframe.get (by decide)
  generalize s.dev.silenceEnded = e at *
  exact ⟨_, hexec, hok, hflag, htold, hmode, hplanned, hinput, hframe.keeps hs.2.2⟩

end
end Sys2Proof.Machine
end

section
/-! PROOFS. The frames that a follower receives (R60, R62, R81-R84). -/

open Sys2Proof Sys2Proof.Machine

namespace Sys2Proof.Machine
namespace Dev

/-! ### What a frame leaves alone before it fixes or takes back a tick -/

/-- No notice is told, and the values in force, the plan and what it rests on stay. -/
structure KeepsPlan (d e : Dev) : Prop where
  ntq : e.ntq = d.ntq
  force : e.force = d.force
  planned : e.cad.planned = d.cad.planned
  apply : e.cad.apply = d.cad.apply
  startAt : e.cad.startAt = d.cad.startAt
  lastTick : e.cad.lastTick = d.cad.lastTick
  lastTime : e.cad.lastTime = d.cad.lastTime

theorem KeepsPlan.trans {d e g : Dev} (h : KeepsPlan d e) (k : KeepsPlan e g) : KeepsPlan d g :=
  ⟨k.ntq.trans h.ntq, k.force.trans h.force, k.planned.trans h.planned, k.apply.trans h.apply, k.startAt.trans h.startAt,
    k.lastTick.trans h.lastTick, k.lastTime.trans h.lastTime⟩

theorem KeepsPlan.refl (d : Dev) : KeepsPlan d d := ⟨rfl, rfl, rfl, rfl, rfl, rfl, rfl⟩

theorem KeepsPlan.forceGet {d e : Dev} (h : KeepsPlan d e) (g : Bits) : e.forceGet g = d.forceGet g := by
  rw [Dev.forceGet, Dev.forceGet, force1, force1, h.force]

theorem KeepsPlan.nextNum {d e : Dev} (h : KeepsPlan d e) : e.nextNum = d.nextNum := by rw [Dev.nextNum, Dev.nextNum, h.lastTick]

theorem KeepsPlan.sourceFor {d e : Dev} (h : KeepsPlan d e) (hr : e.reg CAD_CTL.addr = d.reg CAD_CTL.addr) (n : Nat) :
    e.sourceFor n = d.sourceFor n := sourceFor_congr h.apply hr h.force n

theorem KeepsPlan.plannedNum {d e : Dev} (h : KeepsPlan d e) (hr : e.reg CAD_CTL.addr = d.reg CAD_CTL.addr) : e.plannedNum = d.plannedNum := by
  rw [Dev.plannedNum, Dev.plannedNum, h.planned, h.sourceFor hr, h.nextNum, h.apply]

/-! ### The offset and the trim (R35, R60, R62, R81) -/

section
variable (d : Dev)

/-- Whether software has written CAD_DOMAIN_OFF in the cycle. -/
def offWritten : Bool := d.softWrote ⟨CAD_DOMAIN_OFF.addr, 0, 32⟩ || d.softWrote ⟨CAD_DOMAIN_OFF.addr + 4, 0, 32⟩

theorem discOffset_eq (off : Nat) : d.discOffset off
    = if d.cad.held then d.setCad fun c => { c with held := d.get64 CAD_DOMAIN_OFF.addr != off % 2 ^ 64 }
    else if d.offWritten then d else d.put64 CAD_DOMAIN_OFF.addr off := rfl

theorem discOffset_plan (off : Nat) : KeepsPlan d (d.discOffset off) := by
  rw [discOffset_eq]
  split
  · exact ⟨rfl, rfl, rfl, rfl, rfl, rfl, rfl⟩
  · split <;> exact ⟨rfl, rfl, rfl, rfl, rfl, rfl, rfl⟩

theorem discOffset_out (off : Nat) : (d.discOffset off).out = d.out := by
  rw [discOffset_eq]
  split
  · rfl
  · split <;> rfl

theorem discOffset_softWrote (off : Nat) (f : Bits) : (d.discOffset off).softWrote f = d.softWrote f := by
  rw [discOffset_eq]
  split
  · rfl
  · split <;> rfl

/-- The offset is kept where it is held or software has just written it. -/
theorem discOffset_either (off : Nat) : (d.discOffset off).get64 CAD_DOMAIN_OFF.addr
    = if (d.cad.held || d.offWritten) = true then d.get64 CAD_DOMAIN_OFF.addr else off % 2 ^ 64 := by
  rw [discOffset_eq]
  cases d.cad.held
  · cases d.offWritten
    · exact get64_put64_same d _ _
    · rfl
  · exact setCad_get64 _ _ _

variable {v : Word} (hv : v.toInt.natAbs ≤ 219902326)
include hv

/-- An update whose trim is within the limit. -/
theorem discUpdate_within : d.discUpdate v.toInt = ((d.hwPut CAD_TRIM.RATE (unsigned 32 v.toInt)).set1 CAD_STAT.DISC_OK).setCad
    fun c => { c with discAt := d.time, discTold := false } := by
  rw [discUpdate, servoTrim, if_neg (by omega)]

omit hv in
theorem hwPut_plan (f : Bits) (n : Nat) : KeepsPlan d (d.hwPut f n) := by
  unfold hwPut; split <;> exact ⟨rfl, rfl, rfl, rfl, rfl, rfl, rfl⟩

theorem discUpdate_plan : KeepsPlan d (d.discUpdate v.toInt) := by
  rw [discUpdate_within d hv]
  exact (hwPut_plan d CAD_TRIM.RATE (unsigned 32 v.toInt)).trans ⟨rfl, rfl, rfl, rfl, rfl, rfl, rfl⟩

theorem discUpdate_out : (d.discUpdate v.toInt).out = d.out := by
  rw [discUpdate_within d hv, setCad_out, set1_out]
  unfold hwPut; split <;> rfl

theorem discUpdate_within_frame : Frame (fun a => a = CAD_STAT.addr ∨ a = CAD_TRIM.addr) d (d.discUpdate v.toInt) := by
  have hput : Frame (fun a => a = CAD_STAT.addr ∨ a = CAD_TRIM.addr) d (d.hwPut CAD_TRIM.RATE (unsigned 32 v.toInt)) := by
    unfold hwPut; split
    · exact .refl _ d
    · exact (Frame.refl _ d).put (f := CAD_TRIM.RATE) _ (.inr rfl)
  rw [discUpdate_within d hv]
  exact (hput.set1 (f := CAD_STAT.DISC_OK) (.inl rfl)).setCad _

theorem discUpdate_rate : (d.discUpdate v.toInt).reg CAD_TRIM.addr = if d.softWrote CAD_TRIM.RATE = false then v else d.reg CAD_TRIM.addr := by
  have hreg : (d.discUpdate v.toInt).reg CAD_TRIM.addr = (d.hwPut CAD_TRIM.RATE (unsigned 32 v.toInt)).reg CAD_TRIM.addr := by
    rw [discUpdate_within d hv, setCad_reg]; exact reg_setReg_ne _ _ (by decide)
  rw [hreg, hwPut]
  cases d.softWrote CAD_TRIM.RATE
  · exact (reg_put_whole d CAD_TRIM.RATE _ rfl rfl).trans (word_unsigned v)
  · rfl

/-- Another bit of CAD_STAT is not touched. -/
theorem discUpdate_stat {g : Bits} (hoff : g.off = CAD_STAT.addr) (hg : apart CAD_STAT.DISC_OK g) : (d.discUpdate v.toInt).is g = d.is g := by
  have hput : (d.hwPut CAD_TRIM.RATE (unsigned 32 v.toInt)).is g = d.is g := by
    unfold hwPut; split
    · rfl
    · exact is_put_apart _ _ _ _ (by decide) (.inl (by rw [hoff]; decide))
  rw [discUpdate_within d hv, setCad_is, is_set1_apart _ _ _ (by decide) hg, hput]

end

/-! ### A frame taken (R81) -/

section
variable (d : Dev) (off tick : Nat) (again : Out) (stop : Bool) (v : Word)

/-- The frame repeated, and its reception noted. -/
def busRepeated : Dev := (d.discOffset off).emit again
def busHeard : Dev := ((d.busRepeated off again).set1 CAD_STAT.BUS_OK).setCad fun c => { c with
  busRxAt := (d.busRepeated off again).time, busRxTick := tick, busStopRx := stop, busLost := false }

/-- Under DISC 2 it is an update too. -/
def busTaken : Dev := (d.busHeard off tick again stop).when ((d.busHeard off tick again stop).get CAD_TIME_CTL.DISC = 2) (·.discUpdate v.toInt)

abbrev OnBus : Prop := d.get CAD_TIME_CTL.DISC = 2

theorem busHeard_frame :
    Frame (fun a => a = CAD_DOMAIN_OFF.addr ∨ a = CAD_DOMAIN_OFF.addr + 4 ∨ a = CAD_STAT.addr) d (d.busHeard off tick again stop) :=
  ((((d.discOffset_frame off).mono fun _ h => h.imp_right .inl).emit again).set1 (f := CAD_STAT.BUS_OK) (.inr (.inr rfl))).setCad _

theorem busHeard_plan : KeepsPlan d (d.busHeard off tick again stop) :=
  (d.discOffset_plan off).trans ⟨rfl, rfl, rfl, rfl, rfl, rfl, rfl⟩

theorem busHeard_out : (d.busHeard off tick again stop).out = d.out ++ [again] := by
  have hout : (d.busHeard off tick again stop).out = (d.discOffset off).out ++ [again] := rfl
  rw [hout, discOffset_out]

theorem busHeard_softWrote (f : Bits) : (d.busHeard off tick again stop).softWrote f = d.softWrote f := by
  have hset : (d.busHeard off tick again stop).softWrote f = ((d.busRepeated off again).set1 CAD_STAT.BUS_OK).softWrote f := rfl
  rw [hset, softWrote_set1]
  exact d.discOffset_softWrote off f

theorem busHeard_ok : (d.busHeard off tick again stop).is CAD_STAT.BUS_OK = true := is_set1_same (d.busRepeated off again) _ rfl (by decide)

theorem busHeard_stat {g : Bits} (hoff : g.off = CAD_STAT.addr) (hg : apart CAD_STAT.BUS_OK g) : (d.busHeard off tick again stop).is g = d.is g := by
  rw [busHeard, setCad_is, is_set1_apart _ _ _ (by decide) hg, busRepeated, emit_is]
  exact (d.discOffset_frame off).is (by rw [hoff]; decide)

theorem busHeard_disc : (d.busHeard off tick again stop).is CAD_STAT.DISC_OK = d.is CAD_STAT.DISC_OK :=
  busHeard_stat _ _ _ _ _ rfl (.inr (.inl (by decide)))

theorem busHeard_onBus : (d.busHeard off tick again stop).OnBus ↔ d.OnBus := by
  rw [OnBus, (d.busHeard_frame off tick again stop).get (by decide)]

theorem busHeard_off : (d.busHeard off tick again stop).get64 CAD_DOMAIN_OFF.addr
    = if (d.cad.held || d.offWritten) = true then d.get64 CAD_DOMAIN_OFF.addr else off % 2 ^ 64 := by
  rw [← discOffset_either]
  exact (setCad_get64 _ _ _).trans (get64_set1_ne (d.busRepeated off again) CAD_STAT.BUS_OK (by decide) (by decide))

/-- The two cases of a frame taken. -/
theorem busTaken_on (h : d.OnBus) : d.busTaken off tick again stop v = (d.busHeard off tick again stop).discUpdate v.toInt :=
  if_pos (decide_eq_true ((d.busHeard_onBus off tick again stop).2 h))

theorem busTaken_else (h : ¬ d.OnBus) : d.busTaken off tick again stop v = d.busHeard off tick again stop :=
  if_neg (by simpa using mt (d.busHeard_onBus off tick again stop).1 h)

/-- The registers that a frame taken may change. -/
abbrev BusRegs (a : Nat) : Prop := a = CAD_DOMAIN_OFF.addr ∨ a = CAD_DOMAIN_OFF.addr + 4 ∨ a = CAD_STAT.addr ∨ d.OnBus ∧ a = CAD_TRIM.addr

variable {v} (hv : d.OnBus → v.toInt.natAbs ≤ 219902326)
include hv

theorem busTaken_frame : Frame d.BusRegs d (d.busTaken off tick again stop v) := by
  have hheard : Frame d.BusRegs d (d.busHeard off tick again stop) :=
    (d.busHeard_frame off tick again stop).mono fun _ h => h.imp_right fun h => h.imp_right .inl
  by_cases h : d.OnBus
  · rw [busTaken_on _ _ _ _ _ _ h]
    exact hheard.trans ((discUpdate_within_frame _ (hv h)).mono fun a ha => .inr (.inr (ha.imp_right fun ha => ⟨h, ha⟩)))
  · rw [busTaken_else _ _ _ _ _ _ h]
    exact hheard

theorem busTaken_plan : KeepsPlan d (d.busTaken off tick again stop v) := by
  by_cases h : d.OnBus
  · rw [busTaken_on _ _ _ _ _ _ h]
    exact (d.busHeard_plan off tick again stop).trans (discUpdate_plan _ (hv h))
  · rw [busTaken_else _ _ _ _ _ _ h]
    exact d.busHeard_plan off tick again stop

theorem busTaken_out : (d.busTaken off tick again stop v).out = d.out ++ [again] := by
  by_cases h : d.OnBus
  · rw [busTaken_on _ _ _ _ _ _ h, discUpdate_out _ (hv h), busHeard_out]
  · rw [busTaken_else _ _ _ _ _ _ h, busHeard_out]

theorem busTaken_off : (d.busTaken off tick again stop v).get64 CAD_DOMAIN_OFF.addr
    = if (d.cad.held || d.offWritten) = true then d.get64 CAD_DOMAIN_OFF.addr else off % 2 ^ 64 := by
  rw [← busHeard_off d off tick again stop]
  by_cases h : d.OnBus
  · rw [busTaken_on _ _ _ _ _ _ h, (discUpdate_within_frame _ (hv h)).get64 (by decide) (by decide)]
  · rw [busTaken_else _ _ _ _ _ _ h]

theorem busTaken_ticking : (d.busTaken off tick again stop v).ticking = d.ticking := by
  rw [ticking, ticking, ← busHeard_stat d off tick again stop (g := CAD_STAT.RUNNING) rfl (.inr (.inr (by decide)))]
  by_cases h : d.OnBus
  · rw [busTaken_on _ _ _ _ _ _ h, discUpdate_stat _ (hv h) rfl (.inr (.inr (by decide)))]
  · rw [busTaken_else _ _ _ _ _ _ h]

theorem busTaken_ok : (d.busTaken off tick again stop v).is CAD_STAT.BUS_OK = true := by
  rw [← busHeard_ok d off tick again stop]
  by_cases h : d.OnBus
  · rw [busTaken_on _ _ _ _ _ _ h, discUpdate_stat _ (hv h) rfl (.inr (.inr (by decide)))]
  · rw [busTaken_else _ _ _ _ _ _ h]

omit hv in
theorem busTaken_disc : (d.busTaken off tick again stop v).is CAD_STAT.DISC_OK = (decide d.OnBus || d.is CAD_STAT.DISC_OK) := by
  by_cases h : d.OnBus
  · rw [busTaken_on _ _ _ _ _ _ h, discUpdate_valid, decide_eq_true h, Bool.true_or]
  · rw [busTaken_else _ _ _ _ _ _ h, busHeard_disc, decide_eq_false h, Bool.false_or]

theorem busTaken_trim : (d.busTaken off tick again stop v).reg CAD_TRIM.addr
    = if d.OnBus ∧ d.softWrote CAD_TRIM.RATE = false then v else d.reg CAD_TRIM.addr := by
  have hheard : (d.busHeard off tick again stop).reg CAD_TRIM.addr = d.reg CAD_TRIM.addr := (d.busHeard_frame off tick again stop).2.2.2 _ (by decide)
  by_cases h : d.OnBus
  · rw [busTaken_on _ _ _ _ _ _ h, discUpdate_rate _ (hv h), busHeard_softWrote, hheard]
    exact (if_congr (and_iff_right h) rfl rfl).symm
  · rw [busTaken_else _ _ _ _ _ _ h, hheard, if_neg fun k => h k.1]

end

/-! ### A frame received (R81, R83, R84) -/

section
variable (d : Dev) (tick tickTime edge f : BitVec 64) (flags : BitVec 16) (v : Word)

/-- What CAD_DOMAIN_OFF becomes, the check that the frame carries, and the frame as it is repeated. -/
def busOff : Nat := (edge.toNat + d.get CAD_BUS_DELAY.DELAY + (2 ^ 64 - f.toNat % 2 ^ 64)) % 2 ^ 64
abbrev busCrc : BitVec 16 := crc16 (busBytes tick.toNat tickTime.toNat edge.toNat flags.toNat)
abbrev busAgain : Out := .busFrame (f.toNat + 160) (busWord tick.toNat tickTime.toNat edge.toNat flags.toNat)

/-- Device time of the tick that a frame names. -/
def busTime : Nat := (tickTime.toNat + (2 ^ 64 - d.busOff edge f)) % 2 ^ 64

/-- A STOP frame taken: the ticks from its number on are taken back. -/
def busStopped (d : Dev) (tick : Nat) : Dev :=
  ((d.when (d.sourceFor tick = 2) (·.busTakeBack tick)).set1 CAD_STAT.BUS_STOPPED).notice .info idCAD 0x017 tick

/-- Another frame taken: it fixes its tick, where the bus provides it and it comes in time. -/
def busFixes (d : Dev) (tick t : Nat) : Dev :=
  let d := d.unset CAD_STAT.BUS_STOPPED
  if !d.ticking || d.sourceFor tick != 2 || tick < d.plannedNum then d
  else
    let late := t < d.time + d.forceGet CAD_SCHED_LEAD.LEAD + us 2
    let n := d.cad.planned.length
    let d := d.fixTick tick t none (!late)
    d.when (late && n < d.cad.planned.length) fun d => (d.count CAD_SKIP_CNT.addr).tickSkipped 2 tick

/-- The device once a frame has been taken. -/
def frameTaken : Dev := d.busTaken (d.busOff edge f) tick.toNat (busAgain tick tickTime edge f flags) (flags.getLsbD 0) v

theorem busOff_eq : d.busOff edge f = (edge + BitVec.ofNat 64 (d.get CAD_BUS_DELAY.DELAY) - f).toNat := by
  have hf := f.isLt
  rw [busOff, BitVec.toNat_sub, BitVec.toNat_add, BitVec.toNat_ofNat]
  omega

theorem busTime_eq : d.busTime tickTime edge f = (tickTime - (edge + BitVec.ofNat 64 (d.get CAD_BUS_DELAY.DELAY) - f)).toNat := by
  rw [busTime, busOff_eq, BitVec.toNat_sub (x := tickTime), Nat.add_comm]

variable {d flags} (hrole : d.forceGet CAD_CTL.BUS_ROLE = 2)
include hrole

/-- A frame with another CRC. -/
theorem busFrameReceive_bad {bad : BitVec 16} (h : bad ≠ busCrc tick tickTime edge flags) :
    d.busFrameReceive tick.toNat tickTime.toNat edge.toNat flags.toNat bad.toNat f.toNat v.toInt
      = ((d.count CAD_BUS_BAD_CNT.addr).set1 CAD_FLAGS.BUS_BAD).atMost .busBad (ms 1) fun d => d.notice .alert idCAD 0x013 1 := by
  have hne : bad.toNat ≠ (busCrc tick tickTime edge flags).toNat := fun h' => h (BitVec.eq_of_toNat_eq h')
  simp [busFrameReceive, hrole, hne]

variable (hnum : d.nextNum ≤ tick.toNat)
include hnum

/-- A frame that is valid. -/
theorem busFrameReceive_good :
    d.busFrameReceive tick.toNat tickTime.toNat edge.toNat flags.toNat (busCrc tick tickTime edge flags).toNat f.toNat v.toInt
      = if flags.getLsbD 0 then (d.frameTaken tick tickTime edge f flags v).busStopped tick.toNat
        else (d.frameTaken tick tickTime edge f flags v).busFixes tick.toNat (d.busTime tickTime edge f) := by
  have hother : ¬ (d.forceGet CAD_CTL.BUS_ROLE != 2) = true := by simp [hrole]
  have hcrc : ¬ ((busCrc tick tickTime edge flags).toNat != (busCrc tick tickTime edge flags).toNat) = true := by simp
  unfold busFrameReceive
  rw [if_neg hother, if_neg hcrc, if_neg (Nat.not_lt.2 hnum)]
  rfl

end

/-! What a valid frame does to the plan. -/

section
variable {d e : Dev} (hplan : KeepsPlan d e) (hframe : Frame d.BusRegs d e)

include hframe in
theorem busRegs_ctl : e.reg CAD_CTL.addr = d.reg CAD_CTL.addr := hframe.2.2.2 _ (by rintro (h | h | h | ⟨-, h⟩) <;> revert h <;> decide)

/-- A tick or more taken back, or none. -/
def stopTaken (e : Dev) (tick : Nat) : Dev := e.when (e.sourceFor tick = 2) (·.busTakeBack tick)

theorem stopTaken_keeps {β : Type} (part : Dev → β) (h : ∀ e f, part (setCad e f) = part e) (e : Dev) (tick : Nat) :
    part (e.stopTaken tick) = part e := by
  unfold stopTaken when
  split
  · exact h _ _
  · rfl

theorem busStopped_frame (e : Dev) (tick : Nat) : Frame (· = CAD_STAT.addr) e (e.busStopped tick) := by
  have hstop : Frame (· = CAD_STAT.addr) e (e.stopTaken tick) := (Frame.refl _ e).when' _ _ fun _ => (Frame.refl _ e).setCad _
  exact (hstop.set1 (f := CAD_STAT.BUS_STOPPED) rfl).notice _ _ _ _

include hplan hframe in
theorem busStopped_planned (tick : Nat) : (e.busStopped tick).cad.planned
    = if d.sourceFor tick = 2 then d.cad.planned.filter (·.num < tick) else d.cad.planned := by
  have hcad : (e.busStopped tick).cad = (e.stopTaken tick).cad := rfl
  rw [hcad, stopTaken, when, hplan.sourceFor (busRegs_ctl hframe), ← hplan.planned]
  by_cases h : d.sourceFor tick = 2 <;> simp [h, busTakeBack]

theorem busStopped_stat (e : Dev) (tick : Nat) {g : Bits} (hg : apart CAD_STAT.BUS_STOPPED g) : (e.busStopped tick).is g = e.is g := by
  rw [busStopped, notice_is, is_set1_apart _ _ _ (by decide) hg]
  exact stopTaken_keeps (·.is g) (fun _ _ => rfl) e tick

theorem busStopped_stopped (e : Dev) (tick : Nat) : (e.busStopped tick).is CAD_STAT.BUS_STOPPED = true := by
  rw [busStopped, notice_is, is_set1_same _ _ rfl (by decide)]

theorem busStopped_out (e : Dev) (tick : Nat) : (e.busStopped tick).out = e.out := by
  rw [busStopped, notice_out, set1_out]
  exact stopTaken_keeps (·.out) (fun _ _ => rfl) e tick

theorem busStopped_input (e : Dev) (tick : Nat) : (e.busStopped tick).ntq.input = e.ntq.input ++ [⟨.info, idCAD, 0x017, word tick, e.time⟩] := by
  have hntq : (e.stopTaken tick).ntq = e.ntq := stopTaken_keeps (·.ntq) (fun _ _ => rfl) e tick
  have htime : (e.stopTaken tick).time = e.time := stopTaken_keeps (·.time) (fun _ _ => rfl) e tick
  have htold : (e.busStopped tick).ntq.input = (e.stopTaken tick).ntq.input ++ [⟨.info, idCAD, 0x017, word tick, (e.stopTaken tick).time⟩] := rfl
  rw [htold, hntq, htime]

/-- A tick at 400 dt or more from the one before, of no cadence that is yet to start and under no apply. -/
theorem fixTick_fixed {num t : Nat} (send : Bool) (ha : d.cad.apply = none) (hstart : d.cad.startAt = none) (hsource : d.sourceFor num = 2)
    (hlast : match d.cad.planned.getLast? with
      | some q => q.time + 400 ≤ t
      | none => d.cad.lastTick.isSome = true → d.cad.lastTime + 400 ≤ t) :
    d.fixTick num t none send = d.setCad fun c => { c with planned := c.planned ++ [⟨num, t, d.time, !send, none⟩] } := by
  have hnext : d.sourceFor d.nextNum = 2 := by simpa [sourceFor, ha] using hsource
  unfold fixTick
  simp only [hstart, hnext]
  cases hq : d.cad.planned.getLast? with
  | some q =>
    rw [hq] at hlast
    simp [Nat.not_lt.2 hlast, ha]
  | none =>
    rw [hq] at hlast
    cases hl : d.cad.lastTick with
    | none => simp [ha]
    | some m => simp [Nat.not_lt.2 (hlast (by simp [hl])), ha]

/-- The tick of a frame that comes in time. -/
def tickFixed (e : Dev) (tick t : Nat) : Dev := (e.unset CAD_STAT.BUS_STOPPED).setCad fun c => { c with
  planned := c.planned ++ [⟨tick, t, e.time, false, none⟩] }

include hplan hframe in
theorem busFixes_fixed {tick t : Nat} (htick : d.ticking = true) (hrun : e.ticking = d.ticking) (hsource : d.sourceFor tick = 2)
    (hnum : d.plannedNum ≤ tick) (ha : d.cad.apply = none) (hstart : d.cad.startAt = none) (hlead : d.time + d.forceGet CAD_SCHED_LEAD.LEAD + us 2 ≤ t)
    (hlast : match d.cad.planned.getLast? with
      | some q => q.time + 400 ≤ t
      | none => d.cad.lastTick.isSome = true → d.cad.lastTime + 400 ≤ t) : e.busFixes tick t = e.tickFixed tick t := by
  let g := e.unset CAD_STAT.BUS_STOPPED
  have hg : KeepsPlan d g := hplan.trans ⟨rfl, rfl, rfl, rfl, rfl, rfl, rfl⟩
  have hctl : g.reg CAD_CTL.addr = d.reg CAD_CTL.addr := (reg_setReg_ne _ _ (by decide)).trans (busRegs_ctl hframe)
  have hticking : g.ticking = true := by
    have hapart : g.ticking = e.ticking := is_put_apart e CAD_STAT.BUS_STOPPED _ 0 (by decide) (.inr (.inr (by decide)))
    rw [hapart, hrun, htick]
  have htime : g.time = d.time := hframe.2.1
  have hlate : ¬ t < g.time + g.forceGet CAD_SCHED_LEAD.LEAD + us 2 := by rw [htime, hg.forceGet]; omega
  have hfix : g.fixTick tick t none true = e.tickFixed tick t := fixTick_fixed true (hg.apply.trans ha) (hg.startAt.trans hstart)
    ((hg.sourceFor hctl tick).trans hsource) (by rw [hg.planned, hg.lastTick, hg.lastTime]; exact hlast)
  have hgoes : ¬ ((!g.ticking || g.sourceFor tick != 2 || decide (tick < g.plannedNum)) = true) := by
    rw [hticking, hg.sourceFor hctl, hsource, hg.plannedNum hctl]; simp [hnum]
  have hcomes : ∀ late, late = false → ((g.fixTick tick t none !late).when (late && decide (g.cad.planned.length
      < (g.fixTick tick t none !late).cad.planned.length)) fun d => (d.count CAD_SKIP_CNT.addr).tickSkipped 2 tick) = g.fixTick tick t none true := by
    rintro _ rfl
    rfl
  calc e.busFixes tick t
    _ = _ := if_neg hgoes
    _ = _ := hcomes (decide (t < g.time + g.forceGet CAD_SCHED_LEAD.LEAD + us 2)) (decide_eq_false hlate)
    _ = _ := hfix

theorem tickFixed_frame (e : Dev) (tick t : Nat) : Frame (· = CAD_STAT.addr) e (e.tickFixed tick t) :=
  ((Frame.refl (· = CAD_STAT.addr) e).unset (f := CAD_STAT.BUS_STOPPED) rfl).setCad _

theorem tickFixed_stat (e : Dev) (tick t : Nat) {g : Bits} (hg : apart CAD_STAT.BUS_STOPPED g) : (e.tickFixed tick t).is g = e.is g := by
  rw [tickFixed, setCad_is]; exact is_put_apart e CAD_STAT.BUS_STOPPED _ 0 (by decide) hg

theorem tickFixed_out (e : Dev) (tick t : Nat) : (e.tickFixed tick t).out = e.out := rfl
theorem tickFixed_ntq (e : Dev) (tick t : Nat) : (e.tickFixed tick t).ntq = e.ntq := rfl
theorem tickFixed_planned (e : Dev) (tick t : Nat) : (e.tickFixed tick t).cad.planned = e.cad.planned ++ [⟨tick, t, e.time, false, none⟩] := rfl

theorem tickFixed_stopped (e : Dev) (tick t : Nat) : (e.tickFixed tick t).is CAD_STAT.BUS_STOPPED = false := by
  rw [tickFixed, setCad_is, is_unset_same _ _ (by decide)]

end
end Dev

/-! ### The commands -/

/-- The trim and the registers after a frame. -/
abbrev State.Disciplined (s t : State) (v : Word) : Prop := t.dev.is CAD_STAT.DISC_OK = (decide s.dev.OnBus || s.dev.is CAD_STAT.DISC_OK)
  ∧ t.dev.reg CAD_TRIM.addr = (if s.dev.OnBus ∧ s.dev.softWrote CAD_TRIM.RATE = false then v else s.dev.reg CAD_TRIM.addr)
  ∧ s.Keeps t s.dev.BusRegs

/-- The offset after a frame. -/
abbrev State.offset (s : State) (edge f : BitVec 64) : BitVec 64 :=
  if (s.dev.cad.held || s.dev.offWritten) = true then BitVec.ofNat 64 (s.dev.get64 CAD_DOMAIN_OFF.addr)
  else edge + BitVec.ofNat 64 (s.dev.get CAD_BUS_DELAY.DELAY) - f

section
variable {s : State} (hs : s.Ready) (tick tickTime edge f : BitVec 64) {flags : BitVec 16} {v : Word}
  (hrole : s.dev.forceGet CAD_CTL.BUS_ROLE = 2)
include hs hrole

theorem busFrame_bad {bad : BitVec 16} (h : bad ≠ Dev.busCrc tick tickTime edge flags) :
    ∃ t, exec (.busFrameReceive tick tickTime edge flags bad f v) s = .next t
      ∧ t.dev.get64 CAD_BUS_BAD_CNT.addr = (s.dev.get64 CAD_BUS_BAD_CNT.addr + 1) % 2 ^ 64 ∧ t.dev.is CAD_FLAGS.BUS_BAD = true
      ∧ t.dev.cad = s.dev.cad ∧ t.dev.out = s.dev.out
      ∧ s.Keeps t fun a => a = CAD_BUS_BAD_CNT.addr ∨ a = CAD_BUS_BAD_CNT.addr + 4 ∨ a = CAD_FLAGS.addr := by
  have hexec := State.answers_run hs (i := .busFrameReceive tick tickTime edge flags bad f v)
    (f := fun d => d.busFrameReceive tick.toNat tickTime.toNat edge.toNat flags.toNat bad.toNat f.toNat v.toInt) rfl
    (Dev.busFrameReceive_bad tick tickTime edge f v hrole h)
  let d := (s.dev.count CAD_BUS_BAD_CNT.addr).set1 CAD_FLAGS.BUS_BAD
  have hregs := Dev.atMost_notice_regs d .busBad (ms 1) .alert idCAD 0x013 1
  have hcount : d.get64 CAD_BUS_BAD_CNT.addr = (s.dev.get64 CAD_BUS_BAD_CNT.addr + 1) % 2 ^ 64 :=
    (Dev.get64_set1_ne _ CAD_FLAGS.BUS_BAD (by decide) (by decide)).trans (Dev.get64_count_same _ _)
  have hflag : d.is CAD_FLAGS.BUS_BAD = true := Dev.is_set1_same _ _ rfl (by decide)
  have hcad : (d.atMost .busBad (ms 1) fun d => d.notice .alert idCAD 0x013 1).cad = s.dev.cad := by
    rw [Dev.atMost_notice]; split <;> rfl
  have hout : (d.atMost .busBad (ms 1) fun d => d.notice .alert idCAD 0x013 1).out = s.dev.out :=
    (Dev.atMost_notice_out d _ _ _ _ _ _).trans rfl
  have hframe : Dev.Frame (fun a => a = CAD_BUS_BAD_CNT.addr ∨ a = CAD_BUS_BAD_CNT.addr + 4 ∨ a = CAD_FLAGS.addr) s.dev d :=
    ((Dev.Frame.refl _ s.dev).count (.inl rfl) (.inr (.inl rfl))).set1 (f := CAD_FLAGS.BUS_BAD) (.inr (.inr rfl))
  have hframe' := hframe.atMost .busBad (ms 1) (fun d => d.notice .alert idCAD 0x013 1) ((Dev.Frame.refl _ d).notice _ _ _ _)
  have hcount' := (Dev.get64_congr hregs _).trans hcount
  have hflag' := (Dev.is_congr hregs _).trans hflag
  change exec _ s = .next (s.settleTo (d.atMost .busBad (ms 1) fun d => d.notice .alert idCAD 0x013 1)) at hexec
  generalize (d.atMost .busBad (ms 1) fun d => d.notice .alert idCAD 0x013 1) = e at *
  exact ⟨_, hexec, hcount', hflag', hcad, hout, hframe'.keeps hs.2.2⟩

variable (hv : s.dev.OnBus → v.toInt.natAbs ≤ 219902326)
include hv

omit hs hrole in
theorem frameTaken_off : (s.dev.frameTaken tick tickTime edge f flags v).get64 CAD_DOMAIN_OFF.addr = (s.offset edge f).toNat := by
  rw [Dev.frameTaken, Dev.busTaken_off _ _ _ _ _ hv, State.offset, apply_ite BitVec.toNat, BitVec.toNat_ofNat,
    Nat.mod_eq_of_lt (Dev.get64_lt _ _), Dev.busOff_eq, Nat.mod_eq_of_lt (BitVec.isLt _)]

omit hrole in
/-- What is left of a frame that has been taken once its ticks are fixed or taken back: only bits of CAD_STAT and the plan change. -/
theorem frame_disciplined {e : Dev} (he : Dev.Frame (· = CAD_STAT.addr) (s.dev.frameTaken tick tickTime edge f flags v) e)
    (hdisc : e.is CAD_STAT.DISC_OK = (s.dev.frameTaken tick tickTime edge f flags v).is CAD_STAT.DISC_OK) : s.Disciplined (s.settleTo e) v := by
  have hframe := (s.dev.busTaken_frame (s.dev.busOff edge f) tick.toNat (Dev.busAgain tick tickTime edge f flags) (flags.getLsbD 0) hv).trans
    (he.mono fun _ ha => .inr (.inr (.inl ha)))
  have hok := hdisc.trans (s.dev.busTaken_disc (s.dev.busOff edge f) tick.toNat (Dev.busAgain tick tickTime edge f flags) (flags.getLsbD 0))
  have htrim := (he.2.2.2 CAD_TRIM.addr (by decide)).trans
    (s.dev.busTaken_trim (s.dev.busOff edge f) tick.toNat (Dev.busAgain tick tickTime edge f flags) (flags.getLsbD 0) hv)
  exact ⟨hok, htrim, hframe.keeps hs.2.2⟩

variable (hnum : s.dev.nextNum ≤ tick.toNat)
include hnum

theorem busFrame_stop (hstop : flags.getLsbD 0 = true) :
    ∃ t, exec (.busFrameReceive tick tickTime edge flags (Dev.busCrc tick tickTime edge flags) f v) s = .next t
      ∧ t.dev.get64 CAD_DOMAIN_OFF.addr = (s.offset edge f).toNat
      ∧ t.dev.is CAD_STAT.BUS_OK = true ∧ t.dev.is CAD_STAT.BUS_STOPPED = true
      ∧ t.dev.cad.planned = (if s.dev.sourceFor tick.toNat = 2 then s.dev.cad.planned.filter (·.num < tick.toNat) else s.dev.cad.planned)
      ∧ t.dev.out = s.dev.out ++ [Dev.busAgain tick tickTime edge f flags]
      ∧ t.dev.ntq.input = s.dev.ntq.input ++ [⟨.info, idCAD, 0x017, word tick.toNat, s.dev.time⟩] ∧ s.Disciplined t v := by
  let e := s.dev.frameTaken tick tickTime edge f flags v
  have hexec := State.answers_run hs (i := .busFrameReceive tick tickTime edge flags (Dev.busCrc tick tickTime edge flags) f v)
    (f := fun d => d.busFrameReceive tick.toNat tickTime.toNat edge.toNat flags.toNat (Dev.busCrc tick tickTime edge flags).toNat f.toNat v.toInt) rfl
    ((Dev.busFrameReceive_good tick tickTime edge f v hrole hnum).trans (if_pos hstop))
  have htaken : Dev.Frame s.dev.BusRegs s.dev e := Dev.busTaken_frame _ _ _ _ _ hv
  have hplan : Dev.KeepsPlan s.dev e := Dev.busTaken_plan _ _ _ _ _ hv
  have hstat := Dev.busStopped_frame e tick.toNat
  have hoff := (hstat.get64 (by decide) (by decide)).trans (frameTaken_off tick tickTime edge f (flags := flags) hv)
  have hok := (Dev.busStopped_stat e tick.toNat (g := CAD_STAT.BUS_OK) (.inr (.inr (by decide)))).trans (Dev.busTaken_ok _ _ _ _ _ hv)
  have hstopped := Dev.busStopped_stopped e tick.toNat
  have hplanned := Dev.busStopped_planned hplan htaken tick.toNat
  have hout := (Dev.busStopped_out e tick.toNat).trans (Dev.busTaken_out _ _ _ _ _ hv)
  have hinput := Dev.busStopped_input e tick.toNat
  rw [hplan.ntq, htaken.2.1] at hinput
  have hdisc := frame_disciplined hs tick tickTime edge f hv hstat
    (Dev.busStopped_stat e tick.toNat (g := CAD_STAT.DISC_OK) (.inr (.inr (by decide))))
  change exec _ s = .next (s.settleTo (e.busStopped tick.toNat)) at hexec
  generalize e.busStopped tick.toNat = g at *
  exact ⟨_, hexec, hoff, hok, hstopped, hplanned, hout, hinput, hdisc⟩

theorem busFrame_fixes (hgo : flags.getLsbD 0 = false) (htick : s.dev.ticking = true) (hsource : s.dev.sourceFor tick.toNat = 2)
    (hplanned : s.dev.plannedNum ≤ tick.toNat) (ha : s.dev.cad.apply = none) (hstart : s.dev.cad.startAt = none)
    (hlead : s.dev.time + s.dev.forceGet CAD_SCHED_LEAD.LEAD + us 2 ≤ s.dev.busTime tickTime edge f)
    (hlast : match s.dev.cad.planned.getLast? with
      | some q => q.time + 400 ≤ s.dev.busTime tickTime edge f
      | none => s.dev.cad.lastTick.isSome = true → s.dev.cad.lastTime + 400 ≤ s.dev.busTime tickTime edge f) :
    ∃ t, exec (.busFrameReceive tick tickTime edge flags (Dev.busCrc tick tickTime edge flags) f v) s = .next t
      ∧ t.dev.get64 CAD_DOMAIN_OFF.addr = (s.offset edge f).toNat
      ∧ t.dev.is CAD_STAT.BUS_OK = true ∧ t.dev.is CAD_STAT.BUS_STOPPED = false
      ∧ t.dev.cad.planned = s.dev.cad.planned ++ [⟨tick.toNat, s.dev.busTime tickTime edge f, s.dev.time, false, none⟩]
      ∧ t.dev.out = s.dev.out ++ [Dev.busAgain tick tickTime edge f flags] ∧ t.dev.ntq = s.dev.ntq ∧ s.Disciplined t v := by
  let e := s.dev.frameTaken tick tickTime edge f flags v
  let T := s.dev.busTime tickTime edge f
  have htaken : Dev.Frame s.dev.BusRegs s.dev e := Dev.busTaken_frame _ _ _ _ _ hv
  have hplan : Dev.KeepsPlan s.dev e := Dev.busTaken_plan _ _ _ _ _ hv
  have hfixed : e.busFixes tick.toNat T = e.tickFixed tick.toNat T :=
    Dev.busFixes_fixed hplan htaken htick (Dev.busTaken_ticking _ _ _ _ _ hv) hsource hplanned ha hstart hlead hlast
  have hexec := State.answers_run hs (i := .busFrameReceive tick tickTime edge flags (Dev.busCrc tick tickTime edge flags) f v)
    (f := fun d => d.busFrameReceive tick.toNat tickTime.toNat edge.toNat flags.toNat (Dev.busCrc tick tickTime edge flags).toNat f.toNat v.toInt) rfl
    (((Dev.busFrameReceive_good tick tickTime edge f v hrole hnum).trans (if_neg (ne_true_of_eq_false hgo))).trans hfixed)
  have hstat := Dev.tickFixed_frame e tick.toNat T
  have hoff := (hstat.get64 (by decide) (by decide)).trans (frameTaken_off tick tickTime edge f (flags := flags) hv)
  have hok := (Dev.tickFixed_stat e tick.toNat T (g := CAD_STAT.BUS_OK) (.inr (.inr (by decide)))).trans (Dev.busTaken_ok _ _ _ _ _ hv)
  have hstopped := Dev.tickFixed_stopped e tick.toNat T
  have hout := (e.tickFixed_out tick.toNat T).trans (Dev.busTaken_out _ _ _ _ _ hv)
  have hcad := e.tickFixed_planned tick.toNat T
  rw [hplan.planned, htaken.2.1] at hcad
  have hntq := (e.tickFixed_ntq tick.toNat T).trans hplan.ntq
  have hdisc := frame_disciplined hs tick tickTime edge f hv hstat
    (Dev.tickFixed_stat e tick.toNat T (g := CAD_STAT.DISC_OK) (.inr (.inr (by decide))))
  generalize e.tickFixed tick.toNat T = g at *
  exact ⟨_, hexec, hoff, hok, hstopped, hcad, hout, hntq, hdisc⟩

end
end Sys2Proof.Machine
end

section
/-! PROOFS. The schedule point of a tick: its SCHEDULEs, head by head (R68, R78, R88, R151). -/

open Sys2Proof Sys2Proof.Machine

namespace Sys2Proof.Machine
namespace Dev

/-! ### What a port's packets are after an update -/

theorem pk_setPk (d : Dev) (p q : Nat) (f : Packets → Packets) :
    ((d.setPk p f).port q).pk = if p = q then f (d.port p).pk else (d.port q).pk := by
  rw [port, setPk, setPort, Tab.get_upd]
  split <;> rfl

/-- An update that does not touch the packets that are ready. -/
theorem ready_setPk (d : Dev) (p q : Nat) {f : Packets → Packets} (hf : ∀ k, (f k).ready = k.ready) :
    ((d.setPk p f).port q).pk.ready = (d.port q).pk.ready := by
  rw [pk_setPk]
  split
  · next h => rw [← h]; exact hf _
  · rfl

/-! ### A command noted (R88) -/

section
variable (d : Dev) (h : Nat) (c : SentCommand)

/-- The packets of a port of the gang, and of its head, once a command is noted. -/
def commandForgotten (k : Packets) : Packets := { k with
  closed := k.closed.filter (· != (c.source, c.id)), accepted := k.accepted.filter (· != (c.source, c.id)) }
def commandSent (k : Packets) : Packets := { k with
  sent := ((k.sent.filter fun e => !(e.source = c.source && e.id = c.id)).drop (k.sent.length - 63)) ++ [c] }

/-- A command noted in the ports of its gang. -/
def commandKept : Dev := (d.forEach (d.gang h) fun p d => d.setPk p (commandForgotten c)).setPk h (commandSent c)

theorem recordCommand_eq : d.recordCommand h c = (d.commandKept h c).setCad fun x =>
    { x with exposures := (d.commandKept h c).cad.exposures ++ [⟨h, c.source, c.id, c.tick, c.expose, none⟩] } := rfl

theorem commandKept_keeps {β : Type} (part : Dev → β) (hpart : ∀ e p f, part (setPk e p f) = part e) : part (d.commandKept h c) = part d :=
  (hpart _ _ _).trans (forEach_keeps part _ _ (fun _ _ => hpart _ _ _) d)

theorem commandKept_ready (q : Nat) : ((d.commandKept h c).port q).pk.ready = (d.port q).pk.ready := by
  have hforgotten : ∀ p (e : Dev), ((e.setPk p (commandForgotten c)).port q).pk.ready = (e.port q).pk.ready := fun p e =>
    ready_setPk e p q fun _ => rfl
  rw [commandKept, ready_setPk (f := commandSent c) _ h q fun _ => rfl]
  exact forEach_keeps (fun e : Dev => (e.port q).pk.ready) (d.gang h) (fun p e => e.setPk p (commandForgotten c)) hforgotten d

theorem recordCommand_frame (P : Nat → Prop) : Frame P d (d.recordCommand h c) := by
  rw [recordCommand_eq]
  exact ((Frame.refl P d).other (g := d.commandKept h c) (d.commandKept_keeps h c (·.vlt.writes) fun _ _ _ => rfl)
    (d.commandKept_keeps h c (·.time) fun _ _ _ => rfl) (d.commandKept_keeps h c (·.low) fun _ _ _ => rfl)
    (d.commandKept_keeps h c (·.regs) fun _ _ _ => rfl)).setCad _

theorem recordCommand_force : (d.recordCommand h c).force = d.force := d.commandKept_keeps h c (·.force) fun _ _ _ => rfl
theorem recordCommand_out : (d.recordCommand h c).out = d.out := d.commandKept_keeps h c (·.out) fun _ _ _ => rfl
theorem recordCommand_ready (q : Nat) : ((d.recordCommand h c).port q).pk.ready = (d.port q).pk.ready := d.commandKept_ready h c q

theorem recordCommand_cad : (d.recordCommand h c).cad
    = { d.cad with exposures := d.cad.exposures ++ [⟨h, c.source, c.id, c.tick, c.expose, none⟩] } := by
  have hcad : (d.commandKept h c).cad = d.cad := d.commandKept_keeps h c (·.cad) fun _ _ _ => rfl
  rw [recordCommand_eq, setCad_cad, hcad]

end

/-! ### The SCHEDULE of one head (R68, R151) -/

section
variable (d : Dev) (n T : Nat) (strike : Option Nat) (h : Nat)

/-- Whether a gang head gets its SCHEDULE, the time that it names, and the packet. -/
def goesTo : Bool := d.portUp h && d.is (AVP_RANGE_STAT.RANGED h)
def exposeAt : Nat := T + d.setting n (CAD_PHASE.PHASE h)
def scheduleOf : TxPacket := ⟨0x82, n % 2 ^ 32, le 8 (d.exposeAt n T h) ++ le 4 0⟩
def exposureOf : Exposure := ⟨h, srcSchedule, n % 2 ^ 32, n, d.exposeAt n T h, none⟩

/-- A head served, noted as such. -/
def headServed (e : Dev) (n h : Nat) : Dev := e.setCad fun c => { c with sentTo := c.sentTo ++ [(h, n)] }
theorem headServed_port (e : Dev) (n h q : Nat) : (e.headServed n h).port q = e.port q := rfl
def scheduleHead : Dev := (d.sendSchedule h n T (d.setting n (CAD_PHASE.PHASE h)) strike).headServed n h

/-- A SCHEDULE made ready and counted. -/
def scheduleCounted : Dev := (d.sendPacket h 0x82 (n % 2 ^ 32) (le 8 (d.exposeAt n T h) ++ le 4 0)).count (AVP_SCHED_CNT.addr h)

variable {d h} in
theorem scheduleHead_goes (hg : d.goesTo h = true) : d.scheduleHead n T strike h
    = ((d.scheduleCounted n T h).recordCommand h ⟨srcSchedule, n % 2 ^ 32, d.exposeAt n T h, n, strike⟩).headServed n h := by
  obtain ⟨hup, hranged⟩ := Bool.and_eq_true_iff.1 hg
  rw [scheduleHead, sendSchedule, if_neg (by simp [hup, hranged])]
  rfl

/-- A SCHEDULE that is withheld. -/
def scheduleWithheld : Dev := (d.set1 (AVP_PFLAGS.SCHED_WITHHELD h)).atMost (.schedWithheld h) (ms 1) fun d => d.notice .alert (idAVP h) 0x025 n

variable {d h} in
theorem scheduleHead_withheld (hg : d.goesTo h = false) : d.scheduleHead n T strike h = (d.scheduleWithheld n h).headServed n h := by
  rw [scheduleHead, sendSchedule, if_pos (by rw [goesTo] at hg; simpa [← Bool.not_and] using hg)]
  rfl

theorem scheduleCounted_force : (d.scheduleCounted n T h).force = d.force := by rw [scheduleCounted, count_force, sendPacket, setPk_force]
theorem scheduleCounted_out : (d.scheduleCounted n T h).out = d.out := by rw [scheduleCounted, count_out, sendPacket, setPk_out]
theorem scheduleCounted_cad : (d.scheduleCounted n T h).cad = d.cad := by rw [scheduleCounted, count_cad, sendPacket, setPk_cad]
theorem scheduleCounted_count : (d.scheduleCounted n T h).get64 (AVP_SCHED_CNT.addr h) = (d.get64 (AVP_SCHED_CNT.addr h) + 1) % 2 ^ 64 := by
  rw [scheduleCounted, get64_count_same, sendPacket, setPk_get64]

theorem scheduleCounted_ready (q : Nat) : ((d.scheduleCounted n T h).port q).pk.ready
    = if h = q then insertTx (d.scheduleOf n T h) (d.port q).pk.ready else (d.port q).pk.ready := by
  have hport : (d.scheduleCounted n T h).port q = (d.sendPacket h 0x82 (n % 2 ^ 32) (le 8 (d.exposeAt n T h) ++ le 4 0)).port q := rfl
  rw [hport, sendPacket, pk_setPk]
  split
  · next hq => rw [hq]; rfl
  · rfl

/-- The registers that the SCHEDULEs of some heads may change. -/
abbrev SchedRegs (l : List Nat) (a : Nat) : Prop := ∃ h ∈ l, a = AVP_SCHED_CNT.addr h ∨ a = AVP_SCHED_CNT.addr h + 4 ∨ a = AVP_PFLAGS.addr h

theorem scheduleCounted_frame : Frame (fun a => a = AVP_SCHED_CNT.addr h ∨ a = AVP_SCHED_CNT.addr h + 4) d (d.scheduleCounted n T h) :=
  ((Frame.refl _ d).setPk _ _).count (.inl rfl) (.inr rfl)

theorem scheduleWithheld_frame : Frame (· = AVP_PFLAGS.addr h) d (d.scheduleWithheld n h) :=
  ((Frame.refl (· = AVP_PFLAGS.addr h) d).set1 (f := AVP_PFLAGS.SCHED_WITHHELD h) rfl).atMost _ _ _ ((Frame.refl _ _).notice _ _ _ _)

theorem scheduleWithheld_keeps {β : Type} (part : Dev → β) (hset : ∀ f, part (d.set1 f) = part d)
    (hnotice : ∀ e c b code arg, part (notice e c b code arg) = part e)
    (hstamp : ∀ e m, part (stamp e m) = part e) : part (d.scheduleWithheld n h) = part d := by
  rw [scheduleWithheld, atMost_notice]
  split
  · rw [hstamp, hnotice, hset]
  · exact hset _

theorem scheduleWithheld_flag : (d.scheduleWithheld n h).is (AVP_PFLAGS.SCHED_WITHHELD h) = true :=
  (is_congr (atMost_notice_regs _ _ _ _ _ _ _) _).trans (is_set1_same d (AVP_PFLAGS.SCHED_WITHHELD h) rfl (show 9 + 1 ≤ 32 by decide))

end

/-! ### The SCHEDULEs of some heads -/

/-- `e` is `d` once the heads of a list have been served for tick `n` at time `T`. -/
structure Scheduled (d : Dev) (n T : Nat) (l : List Nat) (e : Dev) : Prop where
  frame : Frame (SchedRegs l) d e
  force : e.force = d.force
  out : e.out = d.out
  cad : e.cad = { d.cad with exposures := d.cad.exposures ++ (l.filter d.goesTo).map (d.exposureOf n T), sentTo := d.cad.sentTo ++ l.map (·, n) }
  ready : ∀ q, (e.port q).pk.ready
    = if q ∈ l ∧ d.goesTo q = true then insertTx (d.scheduleOf n T q) (d.port q).pk.ready else (d.port q).pk.ready
  count : ∀ q : Fin 16, e.get64 (AVP_SCHED_CNT.addr q)
    = if ↑q ∈ l ∧ d.goesTo q = true then (d.get64 (AVP_SCHED_CNT.addr q) + 1) % 2 ^ 64 else d.get64 (AVP_SCHED_CNT.addr q)
  withheld : ∀ q : Fin 16, e.is (AVP_PFLAGS.SCHED_WITHHELD q) = (d.is (AVP_PFLAGS.SCHED_WITHHELD q) || decide (↑q ∈ l) && !d.goesTo q)

namespace Scheduled

theorem nil (d : Dev) (n T : Nat) : Scheduled d n T [] d where
  frame := .refl _ d
  force := rfl
  out := rfl
  cad := by simp
  ready := by simp
  count := by simp
  withheld := by simp

variable {d e : Dev} {n T : Nat} {l : List Nat} (s : Scheduled d n T l e)
include s

theorem exposures : e.cad.exposures = d.cad.exposures ++ (l.filter d.goesTo).map (d.exposureOf n T) := by rw [s.cad]
theorem sentTo : e.cad.sentTo = d.cad.sentTo ++ l.map (·, n) := by rw [s.cad]
theorem scheduledTo : e.cad.scheduledTo = d.cad.scheduledTo := by rw [s.cad]

/-- Neither whether a head gets its SCHEDULE nor its time depends on those sent before. -/
theorem goesTo (h : Nat) : e.goesTo h = d.goesTo h := by
  have hstate : ¬ SchedRegs l (AVP_PORT_STAT.addr h) := by
    rintro ⟨k, -, hk⟩
    unfold AVP_PORT_STAT.addr AVP_SCHED_CNT.addr AVP_PFLAGS.addr at hk
    omega
  have hranged : ¬ SchedRegs l (AVP_RANGE_STAT.addr h) := by
    rintro ⟨k, -, hk⟩
    unfold AVP_RANGE_STAT.addr AVP_SCHED_CNT.addr AVP_PFLAGS.addr at hk
    omega
  rw [Dev.goesTo, Dev.goesTo, portUp, portUp, portState, portState, s.frame.get hstate, s.frame.is (g := AVP_RANGE_STAT.RANGED h) hranged]

theorem exposeAt {h : Nat} (hh : h < 16) : e.exposeAt n T h = d.exposeAt n T h := by
  have hphase : ¬ SchedRegs l (CAD_PHASE.addr h) := by
    rintro ⟨k, -, hk⟩
    unfold CAD_PHASE.addr AVP_SCHED_CNT.addr AVP_PFLAGS.addr at hk
    omega
  have hforce : e.forceGet (CAD_PHASE.PHASE h) = d.forceGet (CAD_PHASE.PHASE h) := by rw [forceGet, forceGet, force1, force1, s.force]
  have happly : e.cad.apply = d.cad.apply := by rw [s.cad]
  rw [Dev.exposeAt, Dev.exposeAt, setting, setting, stagedFor, stagedFor, happly, hforce, s.frame.get hphase]

/-- The heads of two lists, one after the other. -/
theorem append {m : List Nat} {g : Dev} (k : Scheduled e n T m g) (hdis : ∀ q ∈ m, q ∉ l) (hlt : ∀ q ∈ m, q < 16) :
    Scheduled d n T (l ++ m) g where
  frame := (s.frame.mono fun _ ⟨h, hh, ha⟩ => ⟨h, List.mem_append_left _ hh, ha⟩).trans
    (k.frame.mono fun _ ⟨h, hh, ha⟩ => ⟨h, List.mem_append_right _ hh, ha⟩)
  force := k.force.trans s.force
  out := k.out.trans s.out
  cad := by
    have hexposures : (m.filter e.goesTo).map (e.exposureOf n T) = (m.filter d.goesTo).map (d.exposureOf n T) := by
      rw [List.filter_congr fun q _ => s.goesTo q]
      exact List.map_congr_left fun q hq => by rw [exposureOf, exposureOf, s.exposeAt (hlt q (List.mem_of_mem_filter hq))]
    rw [k.cad, hexposures, s.cad]
    simp
  ready q := by
    rw [k.ready, s.goesTo, s.ready]
    by_cases hm : q ∈ m
    · have hschedule : e.scheduleOf n T q = d.scheduleOf n T q := by rw [scheduleOf, scheduleOf, s.exposeAt (hlt q hm)]
      simp [hm, hdis q hm, hschedule]
    · simp [hm]
  count q := by
    rw [k.count, s.goesTo, s.count]
    by_cases hm : ↑q ∈ m
    · simp [hm, hdis q hm]
    · simp [hm]
  withheld q := by
    rw [k.withheld, s.goesTo, s.withheld, Bool.or_assoc, ← Bool.and_or_distrib_right]
    simp [List.mem_append]

end Scheduled

section
variable (d : Dev) (n T : Nat) (strike : Option Nat) {h : Nat}

theorem scheduleHead_goes_scheduled (hg : d.goesTo h = true) : Scheduled d n T [h] (d.scheduleHead n T strike h) := by
  rw [scheduleHead_goes n T strike hg]
  have hserved : ∀ q, q ∈ [h] ∧ d.goesTo q = true ↔ h = q := fun q => by
    rw [List.mem_singleton]
    exact ⟨fun hq => hq.1.symm, fun hq => hq ▸ ⟨rfl, hg⟩⟩
  have hcounted := d.scheduleCounted_frame n T h
  have hforce := d.scheduleCounted_force n T h
  have hout := d.scheduleCounted_out n T h
  have hcad := d.scheduleCounted_cad n T h
  have hcount := d.scheduleCounted_count n T h
  have hready := d.scheduleCounted_ready n T h
  generalize d.scheduleCounted n T h = a at *
  let c : SentCommand := ⟨srcSchedule, n % 2 ^ 32, d.exposeAt n T h, n, strike⟩
  have hkept := a.recordCommand_frame h c fun _ => False
  have hforce := (a.recordCommand_force h c).trans hforce
  have hout := (a.recordCommand_out h c).trans hout
  have hexposures := a.recordCommand_cad h c
  have hpackets := a.recordCommand_ready h c
  rw [hcad] at hexposures
  generalize a.recordCommand h c = b at *
  exact {
    frame := ((hcounted.mono fun _ ha => ⟨h, List.mem_singleton_self h, ha.imp_right .inl⟩).trans (hkept.mono fun _ => False.elim)).setCad _
    force := hforce
    out := hout
    cad := by
      rw [headServed, setCad_cad, hexposures]
      simp [hg, exposureOf, c]
    ready := fun q => by
      rw [if_congr (hserved q) rfl rfl, headServed_port, hpackets, hready]
      split
      · next hq => rw [hq]
      · rfl
    count := fun q => by
      rw [if_congr (hserved q) rfl rfl, headServed, setCad_get64, hkept.get64 id id]
      split
      · next hq => rw [← hq]; exact hcount
      · next hq =>
        exact hcounted.get64 (by unfold AVP_SCHED_CNT.addr; omega) (by unfold AVP_SCHED_CNT.addr; omega)
    withheld := fun q => by
      have hflag : ¬ (AVP_PFLAGS.addr q = AVP_SCHED_CNT.addr h ∨ AVP_PFLAGS.addr q = AVP_SCHED_CNT.addr h + 4) := by
        unfold AVP_PFLAGS.addr AVP_SCHED_CNT.addr; omega
      rw [headServed, setCad_is, hkept.is id, hcounted.is (g := AVP_PFLAGS.SCHED_WITHHELD q) hflag]
      by_cases hq : ↑q = h
      · simp [hq, hg]
      · simp [hq] }

theorem scheduleHead_withheld_scheduled (hh : h < 16) (hg : d.goesTo h = false) : Scheduled d n T [h] (d.scheduleHead n T strike h) := by
  rw [scheduleHead_withheld n T strike hg]
  have hnone : ∀ q, ¬ (q ∈ [h] ∧ d.goesTo q = true) := fun q ⟨hq, hgq⟩ => by
    rw [List.mem_singleton.1 hq, hg] at hgq
    exact Bool.false_ne_true hgq
  have hframe := d.scheduleWithheld_frame n h
  exact {
    frame := (hframe.mono fun _ ha => ⟨h, List.mem_singleton_self h, .inr (.inr ha)⟩).setCad _
    force := d.scheduleWithheld_keeps n h (·.force) (fun _ => rfl) (fun _ _ _ _ _ => rfl) fun _ _ => rfl
    out := d.scheduleWithheld_keeps n h (·.out) (fun _ => rfl) (fun _ _ _ _ _ => rfl) fun _ _ => rfl
    cad := by
      have hcad : (d.scheduleWithheld n h).cad = d.cad :=
        d.scheduleWithheld_keeps n h (·.cad) (fun _ => rfl) (fun _ _ _ _ _ => rfl) fun _ _ => rfl
      rw [headServed, setCad_cad, hcad]
      simp [hg]
    ready := fun q => by
      rw [if_neg (hnone q)]
      exact d.scheduleWithheld_keeps n h (fun e : Dev => (e.port q).pk.ready) (fun _ => rfl) (fun _ _ _ _ _ => rfl) fun _ _ => rfl
    count := fun q => by
      rw [if_neg (hnone q), headServed, setCad_get64]
      exact hframe.get64 (by unfold AVP_SCHED_CNT.addr AVP_PFLAGS.addr; omega) (by unfold AVP_SCHED_CNT.addr AVP_PFLAGS.addr; omega)
    withheld := fun q => by
      rw [headServed, setCad_is]
      by_cases hq : ↑q = h
      · subst hq; simp [scheduleWithheld_flag, hg]
      · have hflag : ¬ AVP_PFLAGS.addr q = AVP_PFLAGS.addr h := by unfold AVP_PFLAGS.addr; omega
        rw [hframe.is (g := AVP_PFLAGS.SCHED_WITHHELD q) hflag]; simp [hq] }

theorem scheduleHead_scheduled (hh : h < 16) : Scheduled d n T [h] (d.scheduleHead n T strike h) := by
  cases hg : d.goesTo h
  · exact d.scheduleHead_withheld_scheduled n T strike hh hg
  · exact d.scheduleHead_goes_scheduled n T strike hg

end

/-- All the heads of a list, each once. -/
theorem scheduled_forEach (d : Dev) (n T : Nat) (strike : Option Nat) {l : List Nat} (hnodup : l.Nodup) (hlt : ∀ q ∈ l, q < 16) :
    Scheduled d n T l (d.forEach l fun h d => d.scheduleHead n T strike h) := by
  induction l generalizing d with
  | nil => exact .nil d n T
  | cons h t ih =>
    obtain ⟨hnew, hrest⟩ := List.nodup_cons.1 hnodup
    have hhead := d.scheduleHead_scheduled n T strike (hlt h List.mem_cons_self)
    exact hhead.append (ih _ hrest fun q hq => hlt q (List.mem_cons_of_mem _ hq)) (fun q hq hmem => hnew (List.mem_singleton.1 hmem ▸ hq))
      fun q hq => hlt q (List.mem_cons_of_mem _ hq)

/-! ### The schedule point (R68) -/

section
variable {d : Dev} {n : Nat}

theorem mem_dueHeads {q : Nat} (h : q ∈ d.dueHeads n) : q < 16 := by
  unfold dueHeads headsFor at h
  split at h
  · exact absurd h List.not_mem_nil
  · exact List.mem_range.1 (List.mem_of_mem_filter (List.mem_of_mem_filter h))

theorem dueHeads_nodup : (d.dueHeads n).Nodup := by
  unfold dueHeads headsFor
  split
  · exact List.nodup_nil
  · exact (List.nodup_range.filter _).filter _

theorem sendTick_scheduled (d : Dev) (n T : Nat) (strike : Option Nat) : Scheduled d n T (d.dueHeads n) (d.sendTick n T strike) :=
  scheduled_forEach d n T strike dueHeads_nodup fun _ h => mem_dueHeads h

/-- The point of a tick noted: a fixed tick is marked, else the next TIME tick is the last one taken. -/
def pointNoted (d : Dev) (n : Nat) : Dev :=
  if d.cad.planned.all (·.scheduled) = true then d.setCad fun c => { c with scheduledTo := n + 1 }
  else d.setCad fun c => { c with planned := c.planned.map fun e => if e.num = n then { e with scheduled := true } else e }

theorem pointNoted_keeps {β : Type} (part : Dev → β) (hto : ∀ d m, part (setCad d fun c => { c with scheduledTo := m }) = part d)
    (hplan : ∀ d f, part (setCad d fun c => { c with planned := c.planned.map f }) = part d) (d : Dev) (n : Nat) :
    part (d.pointNoted n) = part d := by
  unfold pointNoted
  split
  · exact hto d _
  · exact hplan d _

theorem pointNoted_dueHeads (d : Dev) (n m : Nat) : (d.pointNoted n).dueHeads m = d.dueHeads m :=
  pointNoted_keeps (·.dueHeads m) (fun _ _ => rfl) (fun _ _ => rfl) d n

theorem pointNoted_goesTo (d : Dev) (n : Nat) : (d.pointNoted n).goesTo = d.goesTo :=
  pointNoted_keeps (·.goesTo) (fun _ _ => rfl) (fun _ _ => rfl) d n

theorem pointNoted_exposeAt (d : Dev) (n m T : Nat) : (d.pointNoted n).exposeAt m T = d.exposeAt m T :=
  pointNoted_keeps (·.exposeAt m T) (fun _ _ => rfl) (fun _ _ => rfl) d n

theorem pointNoted_frame (d : Dev) (n : Nat) (P : Nat → Prop) : Frame P d (d.pointNoted n) :=
  (Frame.refl P d).other (pointNoted_keeps (·.vlt.writes) (fun _ _ => rfl) (fun _ _ => rfl) d n)
    (pointNoted_keeps (·.time) (fun _ _ => rfl) (fun _ _ => rfl) d n) (pointNoted_keeps (·.low) (fun _ _ => rfl) (fun _ _ => rfl) d n)
    (pointNoted_keeps (·.regs) (fun _ _ => rfl) (fun _ _ => rfl) d n)

theorem pointNoted_get64 (d : Dev) (n a : Nat) : (d.pointNoted n).get64 a = d.get64 a := (d.pointNoted_frame n fun _ => False).get64 id id
theorem pointNoted_is (d : Dev) (n : Nat) (g : Bits) : (d.pointNoted n).is g = d.is g := (d.pointNoted_frame n fun _ => False).is id

theorem pointNoted_ports (d : Dev) (n q : Nat) : (d.pointNoted n).port q = d.port q :=
  pointNoted_keeps (·.port q) (fun _ _ => rfl) (fun _ _ => rfl) d n

theorem pointNoted_out (d : Dev) (n : Nat) : (d.pointNoted n).out = d.out := pointNoted_keeps (·.out) (fun _ _ => rfl) (fun _ _ => rfl) d n

theorem pointNoted_exposures (d : Dev) (n : Nat) : (d.pointNoted n).cad.exposures = d.cad.exposures :=
  pointNoted_keeps (·.cad.exposures) (fun _ _ => rfl) (fun _ _ => rfl) d n

theorem pointNoted_sentTo (d : Dev) (n : Nat) : (d.pointNoted n).cad.sentTo = d.cad.sentTo :=
  pointNoted_keeps (·.cad.sentTo) (fun _ _ => rfl) (fun _ _ => rfl) d n

theorem pointNoted_scheduledTo (d : Dev) (n : Nat) : (d.pointNoted n).cad.scheduledTo
    = if d.cad.planned.all (·.scheduled) = true then n + 1 else d.cad.scheduledTo := by
  unfold pointNoted; split <;> rfl

variable {T : Nat} {strike : Option Nat}

theorem schedulePoint_sends (htick : d.ticking = true) (hpoint : match d.cad.planned.find? (!·.scheduled) with
      | some q => q.num = n ∧ q.time = T ∧ q.strike = strike
      | none => d.nextSchedule = n ∧ d.sourceFor n = 0 ∧ d.pointPassed n = true ∧ d.timeOf n = T ∧ strike = none) :
    d.schedulePoint = (d.pointNoted n).sendTick n T strike := by
  unfold schedulePoint pointNoted
  rw [if_neg (by simp [htick])]
  cases hq : d.cad.planned.find? (!·.scheduled) with
  | some q =>
    rw [hq] at hpoint
    obtain ⟨rfl, rfl, rfl⟩ := hpoint
    have hnot : ¬ d.cad.planned.all (·.scheduled) = true := fun hall => by
      have hmark := List.find?_some hq
      have := List.all_eq_true.1 hall q (List.mem_of_find?_eq_some hq)
      simp [this] at hmark
    rw [if_neg hnot]
  | none =>
    rw [hq] at hpoint
    obtain ⟨hnext, hsource, hpassed, rfl, rfl⟩ := hpoint
    have hall : d.cad.planned.all (·.scheduled) = true := by
      simpa [List.find?_eq_none] using hq
    simp [hnext, hsource, hpassed, hall]

end
end Dev

/-! ### The command -/

theorem schedulePoint_scheduled {s : State} (hs : s.Ready) {n T : Nat} {strike : Option Nat} (htick : s.dev.ticking = true)
    (hpoint : match s.dev.cad.planned.find? (!·.scheduled) with
      | some q => q.num = n ∧ q.time = T ∧ q.strike = strike
      | none => s.dev.nextSchedule = n ∧ s.dev.sourceFor n = 0 ∧ s.dev.pointPassed n = true ∧ s.dev.timeOf n = T ∧ strike = none) :
    ∃ t, exec .schedulePoint s = .next t
      ∧ (∀ h : Fin 16, (t.dev.port h).pk.ready = (if h.val ∈ s.dev.dueHeads n ∧ s.dev.goesTo h = true
          then Dev.insertTx (s.dev.scheduleOf n T h) (s.dev.port h).pk.ready else (s.dev.port h).pk.ready)
        ∧ t.dev.get64 (AVP_SCHED_CNT.addr h) = (if h.val ∈ s.dev.dueHeads n ∧ s.dev.goesTo h = true
          then (s.dev.get64 (AVP_SCHED_CNT.addr h) + 1) % 2 ^ 64 else s.dev.get64 (AVP_SCHED_CNT.addr h))
        ∧ t.dev.is (AVP_PFLAGS.SCHED_WITHHELD h)
          = (s.dev.is (AVP_PFLAGS.SCHED_WITHHELD h) || decide (h.val ∈ s.dev.dueHeads n) && !s.dev.goesTo h))
      ∧ t.dev.cad.exposures = s.dev.cad.exposures ++ ((s.dev.dueHeads n).filter s.dev.goesTo).map (s.dev.exposureOf n T)
      ∧ t.dev.cad.sentTo = s.dev.cad.sentTo ++ (s.dev.dueHeads n).map (·, n) ∧ t.dev.out = s.dev.out
      ∧ t.dev.cad.scheduledTo = (if s.dev.cad.planned.all (·.scheduled) = true then n + 1 else s.dev.cad.scheduledTo)
      ∧ s.Keeps t (Dev.SchedRegs (s.dev.dueHeads n)) := by
  have hexec := State.answers_run hs (i := .schedulePoint) (f := (·.schedulePoint)) rfl (Dev.schedulePoint_sends htick hpoint)
  have hsched := (s.dev.pointNoted n).sendTick_scheduled n T strike
  have hnoted := s.dev.pointNoted_frame n fun _ => False
  have hexposureOf : (s.dev.pointNoted n).exposureOf n T = s.dev.exposureOf n T := by
    funext q; rw [Dev.exposureOf, Dev.exposureOf, Dev.pointNoted_exposeAt]
  have hscheduleOf : ∀ q, (s.dev.pointNoted n).scheduleOf n T q = s.dev.scheduleOf n T q := fun q => by
    rw [Dev.scheduleOf, Dev.scheduleOf, Dev.pointNoted_exposeAt]
  have hexposures := hsched.exposures
  have hsentTo := hsched.sentTo
  have hto := hsched.scheduledTo
  have hout := hsched.out
  have hready := hsched.ready
  have hcount := hsched.count
  have hwithheld := hsched.withheld
  have hframe := hsched.frame
  simp only [Dev.pointNoted_exposures, Dev.pointNoted_sentTo, Dev.pointNoted_scheduledTo, hexposureOf] at hexposures hsentTo hto
  simp only [Dev.pointNoted_ports, Dev.pointNoted_get64, Dev.pointNoted_is, hscheduleOf] at hready hcount hwithheld
  rw [Dev.pointNoted_out] at hout
  simp only [Dev.pointNoted_dueHeads, Dev.pointNoted_goesTo] at hexposures hsentTo hready hcount hwithheld hframe
  have hall := hnoted.mono (Q := Dev.SchedRegs (s.dev.dueHeads n)) (fun _ => False.elim) |>.trans hframe
  clear hsched
  generalize (s.dev.pointNoted n).sendTick n T strike = e at *
  exact ⟨_, hexec, fun q => ⟨hready q, hcount q, hwithheld q⟩, hexposures, hsentTo, hout, hto, hall.keeps hs.2.2⟩

end Sys2Proof.Machine

/-- Settles O6: a tick begins, its heads are served one by one, and a frame on the bus is sent, taken, refused or missed. -/
theorem ticksAndTickBus : Obligations.TicksAndTickBus := by
  unfold Obligations.TicksAndTickBus
  refine ⟨fun s n hs => ⟨fun at' ha hnext hat hmode hbudget => tickBegin_begins hs ha hnext hat hmode hbudget,
    fun T strike htick hpoint => schedulePoint_scheduled hs htick hpoint⟩,
    fun s hs => ⟨fun n hdue hplan hn hsource hrole htick hlead hedge => busFrameSend_sent hs hdue hplan hn hsource hrole htick hlead hedge,
      fun tick tickTime edge f trim flags => ?_, fun hrole hcap hstop hlost hat => busSilence_told hs hrole hcap hstop hlost hat⟩⟩
  intro crc written off again bus disciplined hrole htrim
  refine ⟨fun hnum hstop => busFrame_stop hs tick tickTime edge f hrole htrim hnum hstop, ?_,
    fun bad hbad => busFrame_bad hs tick tickTime edge f hrole hbad⟩
  intro T hgo htick hsource hplanned hnum ha hstart hlead hlast
  have hT : T = s.dev.busTime tickTime edge f := (s.dev.busTime_eq tickTime edge f).symm
  rw [hT] at hlead hlast ⊢
  exact busFrame_fixes hs tick tickTime edge f hrole htrim hnum hgo htick hsource hplanned ha hstart hlead hlast
end


section
/-! SUPPORT. Operations that change only some fields of registers, and what a port's link and packets are after an update. -/

open Sys2Proof Sys2Proof.Machine

namespace Sys2Proof.Machine
namespace Dev

/-! ### The fields an operation changes -/

/-- No field of the list has a bit in common with `g`. -/
abbrev Clear (l : List Bits) (g : Bits) : Prop := ∀ f ∈ l, f.off ≠ g.off ∨ f.lo + f.w ≤ g.lo ∨ g.lo + g.w ≤ f.lo

/-- A whole register as a field, and the registers of a pair. -/
abbrev whole (a : Nat) : Bits := ⟨a, 0, 32⟩
abbrev pair (a : Nat) : List Bits := [whole a, whole (a + 4)]

/-- From `d` to `e`, only bits of the fields listed change; device time stays and no vault write is added. -/
structure Touches (l : List Bits) (d e : Dev) : Prop where
  writes : e.vlt.writes = d.vlt.writes
  time : e.time = d.time
  low : e.low = d.low
  bits : ∀ a i, (∀ f ∈ l, ¬ (f.off = a ∧ f.lo ≤ i ∧ i < f.lo + f.w)) → (e.reg a).getLsbD i = (d.reg a).getLsbD i

namespace Touches
variable {l m : List Bits} {d e : Dev}

theorem refl (l : List Bits) (d : Dev) : Touches l d d := ⟨rfl, rfl, rfl, fun _ _ _ => rfl⟩

theorem trans {g : Dev} (h : Touches l d e) (k : Touches l e g) : Touches l d g :=
  ⟨k.writes.trans h.writes, k.time.trans h.time, k.low.trans h.low, fun a i hc => (k.bits a i hc).trans (h.bits a i hc)⟩

theorem mono (h : Touches l d e) (hlm : l ⊆ m) : Touches m d e :=
  ⟨h.writes, h.time, h.low, fun a i hc => h.bits a i fun f hf => hc f (hlm hf)⟩

/-- An operation on other state. -/
theorem other {g : Dev} (h : Touches l d e) (hw : g.vlt.writes = e.vlt.writes) (ht : g.time = e.time) (hl : g.low = e.low) (hr : g.regs = e.regs) :
    Touches l d g :=
  ⟨hw.trans h.writes, ht.trans h.time, hl.trans h.low, fun a i hc => by rw [← h.bits a i hc, reg, reg, hr]⟩

/-- A field put, of those listed; every field fits into its register. -/
theorem put {f : Bits} (n : Nat) (h : Touches l d e) (hf : f ∈ l) (hfit : f.lo + f.w ≤ 32 := by exact Nat.le_of_ble_eq_true rfl) :
    Touches l d (e.put f n) := by
  refine ⟨h.writes, h.time, h.low, fun a i hc => (Eq.trans ?_ (h.bits a i hc))⟩
  by_cases ha : f.off = a
  · subst ha
    rw [reg_put_bit e f n i hfit, if_neg fun hi => hc f hf ⟨rfl, hi⟩]
  · rw [reg_put_ne e f n ha]

theorem set1 {f : Bits} (h : Touches l d e) (hf : f ∈ l) (hfit : f.lo + f.w ≤ 32 := by exact Nat.le_of_ble_eq_true rfl) :
    Touches l d (e.set1 f) := (h.other (g := e.noteSet f) rfl rfl rfl rfl).put 1 hf hfit

theorem unset {f : Bits} (h : Touches l d e) (hf : f ∈ l) (hfit : f.lo + f.w ≤ 32 := by exact Nat.le_of_ble_eq_true rfl) :
    Touches l d (e.unset f) := h.put 0 hf hfit

/-- An operation whose frame is a list of registers. -/
theorem frame {rs : List Nat} {g : Dev} (h : Touches l d e) (hf : Frame (· ∈ rs) e g) (hl : rs.map whole ⊆ l) : Touches l d g := by
  obtain ⟨hw, ht, hlow, hr⟩ := hf
  refine ⟨hw.trans h.writes, ht.trans h.time, hlow.trans h.low, fun a i hc => ?_⟩
  by_cases ha : a ∈ rs
  · have hi : 32 ≤ i := by
      have := hc (whole a) (hl (List.mem_map_of_mem ha))
      simp at this; exact this
    rw [BitVec.getLsbD_of_ge _ _ hi, BitVec.getLsbD_of_ge _ _ hi]
  · rw [hr a ha, h.bits a i hc]

theorem setReg {a : Nat} (v : Word) (h : Touches l d e) (ha : whole a ∈ l) : Touches l d (e.setReg a v) :=
  h.frame (rs := [a]) ((Frame.refl _ e).setReg v (by simp)) (by simpa using ha)

theorem put64 {a : Nat} (n : Nat) (h : Touches l d e) (ha : pair a ⊆ l) : Touches l d (e.put64 a n) :=
  (h.setReg _ (ha (by simp))).setReg _ (ha (by simp))

theorem count {a : Nat} (h : Touches l d e) (ha : pair a ⊆ l) : Touches l d (e.count a) :=
  (h.other (g := e.noteWas a) rfl rfl rfl rfl).put64 _ ha

theorem countBy {a : Nat} (k : Nat) (h : Touches l d e) (ha : pair a ⊆ l) : Touches l d (e.countBy a k) :=
  (h.other (g := e.noteWas a) rfl rfl rfl rfl).put64 _ ha

theorem notice (c : Cls) (b code arg : Nat) (h : Touches l d e) : Touches l d (e.notice c b code arg) := h.other rfl rfl rfl rfl
theorem setLink (p : Nat) (f : Link → Link) (h : Touches l d e) : Touches l d (e.setLink p f) := h.other rfl rfl rfl rfl
theorem setPk (p : Nat) (f : Packets → Packets) (h : Touches l d e) : Touches l d (e.setPk p f) := h.other rfl rfl rfl rfl

theorem ite {c : Prop} [Decidable c] {a b : Dev} (ha : c → Touches l d a) (hb : ¬ c → Touches l d b) : Touches l d (if c then a else b) := by
  split
  · exact ha ‹_›
  · exact hb ‹_›

theorem when' (c : Bool) (f : Dev → Dev) (h : Touches l d e) (hf : c = true → Touches l d (f e)) : Touches l d (e.when c f) := ite hf fun _ => h

theorem forEach {α : Type} (xs : List α) (f : α → Dev → Dev) (h : Touches l d e) (hf : ∀ a ∈ xs, ∀ g, Touches l d g → Touches l d (f a g)) :
    Touches l d (e.forEach xs f) := by
  unfold Dev.forEach
  induction xs generalizing e with
  | nil => exact h
  | cons a t ih => exact ih (hf a (by simp) e h) fun b hb => hf b (by simp [hb])

/-! What lies outside the fields stays. -/

theorem get (h : Touches l d e) {g : Bits} (hg : Clear l g) : e.get g = d.get g := by
  refine Nat.eq_of_testBit_eq fun i => ?_
  rw [Dev.get, Dev.get, testBit_slice, testBit_slice, BitVec.testBit_toNat, BitVec.testBit_toNat]
  by_cases hi : i < g.w
  · rw [h.bits g.off (g.lo + i) fun f hf => by have := hg f hf; omega]
  · simp [hi]

theorem is (h : Touches l d e) {g : Bits} (hg : Clear l g) : e.is g = d.is g := by rw [Dev.is, Dev.is, h.get hg]

theorem reg (h : Touches l d e) {a : Nat} (ha : ∀ f ∈ l, f.off ≠ a) : e.reg a = d.reg a :=
  BitVec.eq_of_getLsbD_eq fun i _ => h.bits a i fun f hf hfa => ha f hf hfa.1

theorem get64 (h : Touches l d e) {a : Nat} (ha : ∀ f ∈ l, f.off ≠ a ∧ f.off ≠ a + 4) : e.get64 a = d.get64 a := by
  rw [Dev.get64, Dev.get64, h.reg fun f hf => (ha f hf).1, h.reg fun f hf => (ha f hf).2]

theorem toFrame (h : Touches l d e) {P : Nat → Prop} (hP : ∀ f ∈ l, P f.off) : Frame P d e :=
  ⟨h.writes, h.time, h.low, fun _ ha => h.reg fun f hf hfa => ha (hfa ▸ hP f hf)⟩

end Touches

/-- Of operations along a list without repetition, each within the fields listed: what they leave is what the element's own operation leaves, on a
device that the others have changed within those fields, and not in that part. -/
theorem forEach_at {α β : Type} (part : Dev → β) (l : List Bits) {xs : List α} (hnodup : xs.Nodup) {x : α} (hx : x ∈ xs) (f : α → Dev → Dev)
    (d : Dev) (hf : ∀ a ∈ xs, ∀ e, Touches l e (f a e)) (hpart : ∀ a ∈ xs, a ≠ x → ∀ e, part (f a e) = part e) :
    ∃ e, Touches l d e ∧ part e = part d ∧ part (d.forEach xs f) = part (f x e) := by
  have hrest : ∀ ys : List α, ys ⊆ xs → x ∉ ys → ∀ e, part (ys.foldl (fun d a => f a d) e) = part e := fun ys => by
    induction ys with
    | nil => exact fun _ _ _ => rfl
    | cons y ys ih =>
      intro hsub hnot e
      rw [List.mem_cons, not_or] at hnot
      exact (ih (fun a ha => hsub (List.mem_cons_of_mem y ha)) hnot.2 (f y e)).trans (hpart y (hsub List.mem_cons_self) (Ne.symm hnot.1) e)
  obtain ⟨as, bs, rfl⟩ := List.append_of_mem hx
  rw [List.nodup_append, List.nodup_cons] at hnodup
  obtain ⟨-, ⟨hnotAfter, -⟩, hapart⟩ := hnodup
  have hnotBefore : x ∉ as := fun hmem => hapart x hmem x List.mem_cons_self rfl
  refine ⟨d.forEach as f, (Touches.refl l d).forEach as f fun a ha g hg => hg.trans (hf a (by simp [ha]) g),
    hrest as (fun a ha => by simp [ha]) hnotBefore d, ?_⟩
  rw [forEach, forEach, List.foldl_append, List.foldl_cons]
  exact hrest bs (fun a ha => by simp [ha]) hnotAfter _

/-! ### Ports -/

theorem port_setPort (d : Dev) (p : Nat) (f : Port → Port) : (d.setPort p f).port p = f (d.port p) := Tab.get_upd_same _ _ _ _

@[simp] theorem link_setLink (d : Dev) (p : Nat) (f : Link → Link) : ((d.setLink p f).port p).link = f (d.port p).link := by
  rw [setLink, port_setPort]
@[simp] theorem pk_setLink (d : Dev) (p : Nat) (f : Link → Link) : ((d.setLink p f).port p).pk = (d.port p).pk := by rw [setLink, port_setPort]
@[simp] theorem link_setPk (d : Dev) (p : Nat) (f : Packets → Packets) (q : Nat) : ((d.setPk p f).port q).link = (d.port q).link := by
  rw [port, setPk, setPort, Tab.get_upd]
  split
  · next h => rw [← h]; rfl
  · rfl
@[simp] theorem pk_setPk_same (d : Dev) (p : Nat) (f : Packets → Packets) : ((d.setPk p f).port p).pk = f (d.port p).pk := by rw [pk_setPk, if_pos rfl]
@[simp] theorem link_setRng (d : Dev) (p : Nat) (f : Ranging → Ranging) (q : Nat) : ((d.setRng p f).port q).link = (d.port q).link := by
  rw [port, setRng, setPort, Tab.get_upd]
  split
  · next h => rw [← h]; rfl
  · rfl

@[simp] theorem port_setReg (d : Dev) (a : Nat) (v : Word) (q : Nat) : (d.setReg a v).port q = d.port q := rfl
@[simp] theorem port_put (d : Dev) (f : Bits) (n q : Nat) : (d.put f n).port q = d.port q := rfl
@[simp] theorem port_set1 (d : Dev) (f : Bits) (q : Nat) : (d.set1 f).port q = d.port q := rfl
@[simp] theorem port_unset (d : Dev) (f : Bits) (q : Nat) : (d.unset f).port q = d.port q := rfl
@[simp] theorem port_put64 (d : Dev) (a n q : Nat) : (d.put64 a n).port q = d.port q := rfl
@[simp] theorem port_count (d : Dev) (a q : Nat) : (d.count a).port q = d.port q := rfl
@[simp] theorem port_notice (d : Dev) (c : Cls) (b code arg q : Nat) : (d.notice c b code arg).port q = d.port q := rfl

end Dev
end Sys2Proof.Machine
end


section
/-! SUPPORT. What a port's entering and leaving of UP and DEGRADED works on: its bands, credits, ranging and camera command (R136-R149, R465). -/

open Sys2Proof Sys2Proof.Machine

namespace Sys2Proof.Machine
namespace Dev

/-- From `d` to `e`, only registers that `P` names change, notices are only added, nothing is transmitted, and every port's link layer stays. -/
structure Works (P : Nat → Prop) (d e : Dev) : Prop where
  grows : Grows P d e
  out : e.out = d.out
  link : ∀ q, (e.port q).link = (d.port q).link

namespace Works
variable {P : Nat → Prop} {d e : Dev}

theorem refl (P : Nat → Prop) (d : Dev) : Works P d d := ⟨.refl P d, rfl, fun _ => rfl⟩
theorem trans {g : Dev} (h : Works P d e) (k : Works P e g) : Works P d g :=
  ⟨h.grows.trans k.grows, k.out.trans h.out, fun q => (k.link q).trans (h.link q)⟩
theorem put {f : Bits} (n : Nat) (h : Works P d e) (ha : P f.off) : Works P d (e.put f n) := ⟨h.grows.put n ha, h.out, h.link⟩
theorem set1 {f : Bits} (h : Works P d e) (ha : P f.off) : Works P d (e.set1 f) := ⟨h.grows.set1 ha, h.out, h.link⟩
theorem unset {f : Bits} (h : Works P d e) (ha : P f.off) : Works P d (e.unset f) := ⟨h.grows.unset ha, h.out, h.link⟩
theorem notice (c : Cls) (b code arg : Nat) (h : Works P d e) : Works P d (e.notice c b code arg) := ⟨h.grows.notice c b code arg, h.out, h.link⟩
theorem setPk (p : Nat) (f : Packets → Packets) (h : Works P d e) : Works P d (e.setPk p f) :=
  ⟨h.grows.setPk p f, h.out, fun q => (link_setPk e p f q).trans (h.link q)⟩
theorem setRng (p : Nat) (f : Ranging → Ranging) (h : Works P d e) : Works P d (e.setRng p f) :=
  ⟨h.grows.other rfl rfl rfl rfl rfl rfl rfl, h.out, fun q => (link_setRng e p f q).trans (h.link q)⟩
theorem setColumn (k : Nat) (f : Column → Column) (h : Works P d e) : Works P d (e.setColumn k f) := ⟨h.grows.setColumn k f, h.out, h.link⟩
theorem ite {c : Prop} [Decidable c] {a b : Dev} (ha : c → Works P d a) (hb : ¬ c → Works P d b) : Works P d (if c then a else b) := by
  split
  · exact ha ‹_›
  · exact hb ‹_›
theorem when' (c : Bool) (f : Dev → Dev) (h : Works P d e) (hf : c = true → Works P d (f e)) : Works P d (e.when c f) := ite hf fun _ => h
theorem forEach {α : Type} (xs : List α) (f : α → Dev → Dev) (h : Works P d e) (hf : ∀ a ∈ xs, ∀ g, Works P d g → Works P d (f a g)) :
    Works P d (e.forEach xs f) := by
  unfold Dev.forEach
  induction xs generalizing e with
  | nil => exact h
  | cons a t ih => exact ih (hf a (by simp) e h) fun b hb => hf b (by simp [hb])

end Works

/-! ### Bands (R136, R465) -/

section
variable {β : Type} {part : Dev → β} (hframe : ∀ e id f, part (setFrame e id f) = part e) (hcad : ∀ e f, part (setCad e f) = part e)
include hframe hcad

theorem addPart_keeps (d : Dev) (id : Nat) (x : BandPart) : part (d.addPart id x) = part d := by
  unfold addPart
  extract_lets e
  split
  · unfold when; split
    · exact (hcad _ _).trans (hframe _ _ _)
    · exact hframe _ _ _
  · exact hframe _ _ _

theorem closeBand_keeps (hreg : ∀ e a v, part (setReg e a v) = part e) (hwas : ∀ e a, part (noteWas e a) = part e)
    (hpk : ∀ e p f, part (setPk e p f) = part e) (d : Dev) (p : Nat) (trunc crc : Bool) (sent : Option (Nat × Nat)) :
    part (d.closeBand p trunc crc sent) = part d := by
  have hadvance : ∀ e, part (noteAdvance e p) = part e := fun e => by
    unfold noteAdvance when; split
    · exact hpk _ _ _
    · rfl
  unfold closeBand
  split
  · rfl
  · next b _ =>
    extract_lets rest stays d1 d2 d3 flags
    have h3 : part d3 = part d :=
      calc part d3 = part (d2.noteWas _) := (hreg _ _ _).trans (hreg _ _ _)
        _ = part d2 := hwas _ _
        _ = part d1 := (hadvance _).trans (hreg _ _ _)
        _ = part d := hpk _ _ _
    split
    · exact (addPart_keeps hframe hcad d3 _ _).trans h3
    · split
      · exact (hcad _ _).trans h3
      · unfold discardEnds when; split
        · exact (hcad _ _).trans ((hpk _ _ _).trans h3)
        · exact (hpk _ _ _).trans h3

end

/-- The registers that a port's entering and leaving of UP and DEGRADED works on. -/
def sessionRegs (p : Nat) : List Nat :=
  [AVP_CMD_STAT.addr p, AVP_RANGE_D.addr p, AVP_RANGE_STAT.addr p, AVP_CREDIT_LIMIT.addr p, AVP_CREDIT_USED.addr p, AVP_CREDIT_STAT.addr p
  , AVP_FRAME_CNT.addr p, AVP_FRAME_CNT.addr p + 4, AVP_PFLAGS.addr p]

variable (d : Dev) (p : Nat)

theorem closeBand_works (trunc crc : Bool) (sent : Option (Nat × Nat)) : Works (· ∈ sessionRegs p) d (d.closeBand p trunc crc sent) where
  grows := d.closeBand_grows (by simp [sessionRegs]) (by simp [sessionRegs]) (by simp [sessionRegs]) trunc crc sent
  out := closeBand_keeps (part := (·.out)) (fun _ _ _ => rfl) (fun _ _ => rfl) (fun _ _ _ => rfl) (fun _ _ => rfl) (fun _ _ _ => rfl) d p trunc crc sent
  link q := closeBand_keeps (part := fun e => (e.port q).link) (fun _ _ _ => rfl) (fun _ _ => rfl) (fun _ _ _ => rfl) (fun _ _ => rfl)
    (fun e r f => link_setPk e r f q) d p trunc crc sent

theorem addPart_works (P : Nat → Prop) (id : Nat) (x : BandPart) : Works P d (d.addPart id x) :=
  ⟨d.addPart_grows P id x, addPart_keeps (part := (·.out)) (fun _ _ _ => rfl) (fun _ _ => rfl) d id x,
    fun q => addPart_keeps (part := fun e => (e.port q).link) (fun _ _ _ => rfl) (fun _ _ => rfl) d id x⟩

theorem closeMissing_works (P : Nat → Prop) (id q : Nat) : Works P d (d.closeMissing id q) := by
  unfold closeMissing
  split
  · exact .refl P d
  · next r _ =>
    extract_lets h col height n d1 d2 d3
    refine .ite (fun _ => .refl P d) fun _ => ?_
    have h1 : Works P d d1 := (Works.refl P d).setColumn _ _
    have h2 : Works P d d2 := h1.setPk _ _
    have h3 : Works P d d3 := h2.when' _ _ fun _ => h2.setPk _ _
    exact h3.trans (d3.addPart_works P id _)

theorem closeLeft_works : Works (· ∈ sessionRegs p) d (d.closeLeft p) :=
  (d.closeBand_works p true false none).forEach _ _ fun id _ g hg => hg.trans (g.closeMissing_works _ id p)

/-! ### Leaving and entering UP and DEGRADED (R136, R137, R143, R148) -/

theorem endCommand_works (result count : Nat) : Works (· ∈ sessionRegs p) d (d.endCommand p result count) := by
  have hcmd : AVP_CMD_STAT.addr p ∈ sessionRegs p := by simp [sessionRegs]
  exact (((Works.refl _ d).unset (f := AVP_CMD_STAT.BUSY p) hcmd).put (f := AVP_CMD_STAT.RESULT p) _ hcmd).put (f := AVP_CMD_STAT.COUNT p) _ hcmd

theorem portLeft_works : Works (· ∈ sessionRegs p) d (d.portLeft p) := by
  unfold portLeft
  extract_lets closed left
  have hclosed : Works (· ∈ sessionRegs p) d closed := .ite (fun _ => d.closeLeft_works p) fun _ => (Works.refl _ d).setPk _ _
  have hleft : Works (· ∈ sessionRegs p) d left :=
    (hclosed.unset (f := AVP_RANGE_STAT.RANGED p) (show AVP_RANGE_STAT.addr p ∈ _ by simp [sessionRegs])).setRng _ _
  exact hleft.when' _ _ fun _ => hleft.trans (left.endCommand_works p _ _)

theorem sendLimit_works (lim : Nat) : Works (· ∈ sessionRegs p) d (d.sendLimit p lim) := by
  have hcap : AVP_CREDIT_STAT.addr p ∈ sessionRegs p := by simp [sessionRegs]
  have hlim : AVP_CREDIT_LIMIT.addr p ∈ sessionRegs p := by simp [sessionRegs]
  unfold sendLimit sendPacket
  exact ((((Works.refl _ d).put (f := AVP_CREDIT_STAT.CAPACITY p) _ hcap).put (f := AVP_CREDIT_LIMIT.LIMIT p) _ hlim).setPk _ _).setPk _ _

theorem newEpoch_works : Works (· ∈ sessionRegs p) d (d.newEpoch p) := by
  have hstat : AVP_CREDIT_STAT.addr p ∈ sessionRegs p := by simp [sessionRegs]
  have hlim : AVP_CREDIT_LIMIT.addr p ∈ sessionRegs p := by simp [sessionRegs]
  have hused : AVP_CREDIT_USED.addr p ∈ sessionRegs p := by simp [sessionRegs]
  have hrange : AVP_RANGE_STAT.addr p ∈ sessionRegs p := by simp [sessionRegs]
  have hd : AVP_RANGE_D.addr p ∈ sessionRegs p := by simp [sessionRegs]
  unfold newEpoch
  extract_lets epoch credits packets ranging e
  have hpackets : Works (· ∈ sessionRegs p) d packets :=
    (((((Works.refl _ d).put (f := AVP_CREDIT_STAT.EPOCH p) _ hstat).put (f := AVP_CREDIT_USED.USED p) _ hused).put
      (f := AVP_CREDIT_LIMIT.LIMIT p) _ hlim).setPk _ _)
  have he : Works (· ∈ sessionRegs p) d e :=
    (((hpackets.setRng _ _).put (f := AVP_RANGE_D.D p) _ hd).put (f := AVP_RANGE_STAT.ACCEPTED p) _ hrange).unset
      (f := AVP_RANGE_STAT.RANGED p) hrange
  exact he.trans (e.sendLimit_works p _)

theorem checkGang_works : Works (· ∈ sessionRegs p) d (d.checkGang p) :=
  (Works.refl _ d).when' _ _ fun _ =>
    (((Works.refl _ d).set1 (f := AVP_PFLAGS.GANG_MISMATCH p) (show AVP_PFLAGS.addr p ∈ _ by simp [sessionRegs])).notice _ _ _ _).setPk _ _

end Dev
end Sys2Proof.Machine
end


section
/-! SUPPORT. A change of a port's state (R98, R99, R115): what it sets, tells and keeps. -/

open Sys2Proof Sys2Proof.Machine

namespace Sys2Proof.Machine
namespace Dev

/-! ### Phase trackers (R98, R99) -/

section
variable (d : Dev) (p l phase : Nat)

/-- The phases in use on the lanes of a port. -/
def phaseFields : List Bits := (List.range 4).map (AVP_LANE_STAT.PI_NOW p)

/-- A port's link layer but for its trackers. -/
def linkUntracked : Link := { (d.port p).link with piAt := [] }

theorem trackFrom_touches : Touches [AVP_LANE_STAT.PI_NOW p l] d (d.trackFrom p l phase) := by
  unfold trackFrom
  extract_lets e
  have he : Touches [AVP_LANE_STAT.PI_NOW p l] d e := (Touches.refl _ d).setLink _ _
  refine .ite (fun _ => he.put _ (by simp)) fun _ => ?_
  have hput := he.put (f := AVP_LANE_STAT.PI_NOW p l) phase (by simp)
  exact hput.when' _ _ fun _ => hput.setLink _ _

/-- The tracker of a lane starts from the phase given, or stands at PI_CODE. -/
theorem trackFrom_phase : (d.trackFrom p l phase).get (AVP_LANE_STAT.PI_NOW p l)
    = if d.is (AVP_LANE_CTL.PI_MAN p l) = true then d.get (AVP_LANE_CTL.PI_CODE p l) else phase % 64 := by
  have hwhen : ∀ (e : Dev) c f, (e.when c fun g => g.setLink p f).get (AVP_LANE_STAT.PI_NOW p l) = e.get (AVP_LANE_STAT.PI_NOW p l) :=
    fun e c f => by unfold when; split <;> rfl
  unfold trackFrom
  extract_lets e
  have hman : e.is (AVP_LANE_CTL.PI_MAN p l) = d.is (AVP_LANE_CTL.PI_MAN p l) := rfl
  rw [hman]
  split
  · exact (get_put_same e _ _ (Nat.le_of_ble_eq_true rfl)).trans (Nat.mod_eq_of_lt (get_lt d (AVP_LANE_CTL.PI_CODE p l)))
  · exact (hwhen _ _ _).trans (get_put_same e _ _ (Nat.le_of_ble_eq_true rfl))

section
variable {β : Type} {part : Dev → β} (hreg : ∀ e a v, part (setReg e a v) = part e)
  (hlink : ∀ e (f : List (Nat × Nat) → List (Nat × Nat)), part (setLink e p fun k => { k with piAt := f k.piAt }) = part e)
include hreg hlink

theorem trackFrom_keeps : part (d.trackFrom p l phase) = part d := by
  unfold trackFrom
  extract_lets e
  have he : part e = part d := hlink d fun x => x.filter (·.1 != l)
  split
  · exact (hreg _ _ _).trans he
  · unfold when; split
    · exact (hlink _ fun x => (l, _) :: x).trans ((hreg _ _ _).trans he)
    · exact (hreg _ _ _).trans he

theorem trackState_keeps (s : Nat) : part (d.trackState p s) = part d := by
  unfold trackState
  split
  · exact forEach_keeps part _ _ (fun l e => trackFrom_keeps e p l 32 hreg hlink) d
  · split
    · rfl
    · exact forEach_keeps part _ _ (fun l e => trackFrom_keeps e p l _ hreg hlink) d

end

theorem trackState_touches (s : Nat) : Touches (phaseFields p) d (d.trackState p s) := by
  have hlane : ∀ l ∈ List.range 4, ∀ g phase, Touches (phaseFields p) d g → Touches (phaseFields p) d (g.trackFrom p l phase) :=
    fun l hl g phase hg => hg.trans ((g.trackFrom_touches p l phase).mono (List.cons_subset.2 ⟨List.mem_map_of_mem hl, List.nil_subset _⟩))
  unfold trackState
  refine .ite (fun _ => (Touches.refl _ d).forEach _ _ fun l hl g hg => hlane l hl g _ hg) fun _ => .ite (fun _ => .refl _ d) fun _ =>
    (Touches.refl _ d).forEach _ _ fun l hl g hg => hlane l hl g _ hg

end

/-! ### The change itself (R115) -/

section
variable (d : Dev) (p : Fin 16) (s : Nat)

/-- A port's new state, noted and told, before what its entering or leaving of UP and DEGRADED brings. -/
def stateMoved : Dev :=
  ((((if s = 4 || s = 5 || s = 7 then d else d.setPk p fun k => { k with ready := [] }).put (AVP_PORT_STAT.STATE p) s).trackState p s).set1
    (AVP_FLAGS.STATE_CHG p)).notice .event (idAVP p) 0x010 (d.portState p * 16 + s)

theorem setState_same (h : d.portState p = s) : d.setState p s = d := by rw [setState, if_pos h]

variable {d s} in
theorem setState_moves (h : d.portState p ≠ s) : d.setState p s
    = if d.portUp p && !(d.stateMoved p s).portUp p then (d.stateMoved p s).portLeft p
      else if !d.portUp p && (d.stateMoved p s).portUp p then (d.stateMoved p s).newEpoch p else d.stateMoved p s := by
  rw [setState, if_neg h]; rfl

/-- The fields of a change of state: STATE and STATE_CHG, and the phases where the trackers start or stop. -/
def movedFields : List Bits := [AVP_PORT_STAT.STATE p, AVP_FLAGS.STATE_CHG p] ++ if 2 < s && s < 8 then [] else phaseFields p

/-- The fields and registers that a change of state can touch. -/
def stateFields : List Bits := [AVP_PORT_STAT.STATE p, AVP_FLAGS.STATE_CHG p] ++ phaseFields p ++ (sessionRegs p).map whole

theorem movedFields_subset : movedFields p s ⊆ stateFields p := by
  unfold movedFields stateFields
  refine List.append_subset.2 ⟨fun f hf => List.mem_append_left _ (List.mem_append_left _ hf), ?_⟩
  split
  · exact List.nil_subset _
  · exact fun f hf => List.mem_append_left _ (List.mem_append_right _ hf)

theorem put_state_touches (l : List Bits) (h : AVP_PORT_STAT.STATE p ∈ l) : Touches l d
    ((if s = 4 || s = 5 || s = 7 then d else d.setPk p fun k => { k with ready := [] }).put (AVP_PORT_STAT.STATE p) s) :=
  (Touches.ite (fun _ => .refl l d) fun _ => (Touches.refl l d).setPk _ _).put _ h

theorem stateMoved_touches : Touches (movedFields p s) d (d.stateMoved p s) := by
  have hput := d.put_state_touches p s (movedFields p s) (by simp [movedFields])
  refine ((hput.trans ?_).set1 (by simp [movedFields])).notice _ _ _ _
  by_cases hs : (2 < s && s < 8) = true
  · have h2 : s ≠ 2 := by simp at hs; omega
    rw [trackState, if_neg h2, if_pos hs]
    exact .refl _ _
  · exact (trackState_touches _ p s).mono (by rw [movedFields, if_neg hs]; exact List.subset_append_right _ _)

theorem phaseFields_clear : Clear (phaseFields p) (AVP_PORT_STAT.STATE p)
    ∧ ∀ g ∈ sessionRegs p, g ≠ AVP_PORT_STAT.addr p ∧ g ≠ AVP_FLAGS.addr p := by
  revert p; decide

theorem stateMoved_state (hs : s < 16) : (d.stateMoved p s).portState p = s := by
  obtain ⟨hclear, -⟩ := phaseFields_clear p
  refine (get_put_apart _ (AVP_FLAGS.STATE_CHG p) (AVP_PORT_STAT.STATE p) 1 (Nat.le_of_ble_eq_true rfl)
    (.inl (by simp [AVP_FLAGS.STATE_CHG, AVP_PORT_STAT.STATE, AVP_FLAGS.addr, AVP_PORT_STAT.addr]))).trans ?_
  exact ((trackState_touches _ p s).get hclear).trans ((get_put_same _ _ s (Nat.le_of_ble_eq_true rfl)).trans (Nat.mod_eq_of_lt hs))

theorem stateMoved_changed : (d.stateMoved p s).is (AVP_FLAGS.STATE_CHG p) = true :=
  is_set1_same _ (AVP_FLAGS.STATE_CHG p) rfl (Nat.le_of_ble_eq_true rfl)

theorem stateMoved_keeps {β : Type} {part : Dev → β} (hreg : ∀ e a v, part (setReg e a v) = part e) (hnote : ∀ e f, part (noteSet e f) = part e)
    (hlink : ∀ e (f : List (Nat × Nat) → List (Nat × Nat)), part (setLink e p fun k => { k with piAt := f k.piAt }) = part e)
    (hpk : ∀ e f, part (setPk e p f) = part e) (hnotice : ∀ e c b code arg, part (notice e c b code arg) = part e) :
    part (d.stateMoved p s) = part d := by
  refine (hnotice _ _ _ _ _).trans (((hreg _ _ _).trans (hnote _ _)).trans ((trackState_keeps _ p hreg hlink s).trans ((hreg _ _ _).trans ?_)))
  split
  · rfl
  · exact hpk d _

theorem stateMoved_link : ((d.stateMoved p s).port p).link = { (d.port p).link with piAt := ((d.stateMoved p s).port p).link.piAt } := by
  have h : (d.stateMoved p s).linkUntracked p = d.linkUntracked p :=
    stateMoved_keeps d p s (part := fun e => e.linkUntracked p) (fun _ _ _ => rfl) (fun _ _ => rfl) (fun e f => by simp [linkUntracked])
      (fun e f => by simp [linkUntracked]) fun _ _ _ _ _ => rfl
  unfold linkUntracked at h
  generalize ((d.stateMoved p s).port p).link = k at h ⊢
  obtain ⟨⟩ := k
  simpa [Link.mk.injEq] using h

theorem stateMoved_out : (d.stateMoved p s).out = d.out :=
  stateMoved_keeps d p s (part := (·.out)) (fun _ _ _ => rfl) (fun _ _ => rfl) (fun _ _ => rfl) (fun _ _ => rfl) fun _ _ _ _ _ => rfl

theorem stateMoved_input : (d.stateMoved p s).ntq.input
    = d.ntq.input ++ [⟨.event, idAVP p, 0x010, word (d.portState p * 16 + s), d.time⟩] := by
  have hput := d.put_state_touches p s [AVP_PORT_STAT.STATE p] (by simp)
  generalize hq : (if s = 4 || s = 5 || s = 7 then d else d.setPk p fun k => { k with ready := [] }).put (AVP_PORT_STAT.STATE p) s = q at hput
  have hntq : (q.trackState p s).ntq = d.ntq := by
    refine (trackState_keeps q p (part := (·.ntq)) (fun _ _ _ => rfl) (fun _ _ => rfl) s).trans ?_
    rw [← hq, put_ntq]
    split <;> rfl
  have htime : (q.trackState p s).time = d.time := (trackState_keeps q p (part := (·.time)) (fun _ _ _ => rfl) (fun _ _ => rfl) s).trans hput.time
  unfold stateMoved
  rw [hq, notice_input, set1_ntq, set1_time, hntq, htime]

/-! ### What a change of state comes to -/

/-- A port has entered a state: it is told and flagged, nothing is transmitted, and the link layer stays but for the trackers. -/
structure Entered (e : Dev) : Prop where
  state : e.portState p = s
  changed : e.is (AVP_FLAGS.STATE_CHG p) = true
  told : ∃ l, e.ntq.input = d.ntq.input ++ ⟨.event, idAVP p, 0x010, word (d.portState p * 16 + s), d.time⟩ :: l
    ∧ (d.portUp p = false → s ≠ 5 → s ≠ 7 → l = [])
  out : e.out = d.out
  link : (e.port p).link = { (d.port p).link with piAt := (e.port p).link.piAt }
  touches : Touches (stateFields p) d e

variable {d s}

theorem setState_works (h : d.portState p ≠ s) : Works (· ∈ sessionRegs p) (d.stateMoved p s) (d.setState p s) := by
  rw [setState_moves p h]
  exact .ite (fun _ => portLeft_works _ p) fun _ => .ite (fun _ => newEpoch_works _ p) fun _ => .refl _ _

/-- A port that neither was nor comes to be UP or DEGRADED. -/
theorem setState_quiet (h : d.portState p ≠ s) (hs : s < 16) (hup : d.portUp p = false) (h5 : s ≠ 5) (h7 : s ≠ 7) :
    d.setState p s = d.stateMoved p s := by
  have hnot : (d.stateMoved p s).portUp p = false := by simp [portUp, d.stateMoved_state p s hs, h5, h7]
  simp [setState_moves p h, hup, hnot]

theorem setState_entered (h : d.portState p ≠ s) (hs : s < 16) : Entered d p s (d.setState p s) := by
  obtain ⟨hgrows, hout, hlink⟩ := setState_works p h
  obtain ⟨-, hregs⟩ := phaseFields_clear p
  have hstate := d.stateMoved_state p s hs
  constructor
  case state => exact (hgrows.frame.get fun hm => (hregs _ hm).1 rfl).trans hstate
  case changed => exact (hgrows.frame.is fun hm => (hregs _ hm).2 rfl).trans (d.stateMoved_changed p s)
  case told =>
    obtain ⟨l, hl⟩ := hgrows.told
    rw [stateMoved_input, List.append_assoc, List.singleton_append] at hl
    refine ⟨l, hl.symm, fun hup h5 h7 => ?_⟩
    rw [setState_quiet p h hs hup h5 h7, stateMoved_input] at hl
    simpa using hl
  case out => exact hout.trans (d.stateMoved_out p s)
  case link => rw [hlink p]; exact d.stateMoved_link p s
  case touches =>
    exact ((d.stateMoved_touches p s).mono (movedFields_subset p s)).frame hgrows.frame (List.subset_append_right _ _)

end
end Dev
end Sys2Proof.Machine
end


section
/-! SUPPORT. Writes of a port's control bits: EN, the command bits of PORT_CTL, and BITSLIP (R27, R110, R116, R119). -/

open Sys2Proof Sys2Proof.Machine

namespace Sys2Proof.Machine

/-- A field that is put to what it holds leaves the word. -/
theorem into_of_self {f : Bits} (hf : f.lo + f.w ≤ 32) (w : Word) : f.into w (f.of w) = w := by
  refine BitVec.eq_of_getLsbD_eq fun i _ => ?_
  rw [Dev.into_bit f _ _ i hf, Bits.of, testBit_slice, BitVec.testBit_toNat]
  split
  · next h => simp [show i - f.lo < f.w by omega, show f.lo + (i - f.lo) = i by omega]
  · rfl

/-- A field stored within the stored bits of its register is the word with the field replaced. -/
theorem store_within {f : Bits} (hf : f.lo + f.w ≤ 32) {rw' : Word} (hsub : f.mask &&& ~~~rw' = 0) (w : Word) (v : Nat) :
    (w &&& ~~~rw') ||| (f.into w v &&& rw') = f.into w v := by
  refine BitVec.eq_of_getLsbD_eq fun i hi => ?_
  have hbit : (f.mask &&& ~~~rw').getLsbD i = false := by rw [hsub]; simp
  rw [BitVec.getLsbD_and, BitVec.getLsbD_not, getLsbD_mask f hf] at hbit
  rw [BitVec.getLsbD_or, BitVec.getLsbD_and, BitVec.getLsbD_and, BitVec.getLsbD_not, Dev.into_bit f w v i hf]
  by_cases hin : f.lo ≤ i ∧ i < f.lo + f.w
  · have hrw : rw'.getLsbD i = true := by simpa [hin, hi] using hbit
    simp [hrw]
  · rw [if_neg hin]
    cases rw'.getLsbD i <;> simp [hi]

/-- A field that stands outside the stored bits of its register leaves the word. -/
theorem store_outside {f : Bits} (hf : f.lo + f.w ≤ 32) {rw' : Word} (hsep : f.mask &&& rw' = 0) (w : Word) (v : Nat) :
    (w &&& ~~~rw') ||| (f.into w v &&& rw') = w := by
  refine BitVec.eq_of_getLsbD_eq fun i hi => ?_
  have hbit : (f.mask &&& rw').getLsbD i = false := by rw [hsep]; simp
  rw [BitVec.getLsbD_and, getLsbD_mask f hf] at hbit
  rw [BitVec.getLsbD_or, BitVec.getLsbD_and, BitVec.getLsbD_and, BitVec.getLsbD_not, Dev.into_bit f w v i hf]
  by_cases hin : f.lo ≤ i ∧ i < f.lo + f.w
  · have hrw : rw'.getLsbD i = false := by simpa [hin, hi] using hbit
    simp only [hrw, hi]; simp
  · rw [if_neg hin]
    cases rw'.getLsbD i <;> simp [hi]

namespace Dev

/-! ### The registers of a port's control bits -/

theorem portCtl_plain (p : Fin 16) : isStaged (AVP_PORT_CTL.addr p) = false ∧ ¬ Refusable (AVP_PORT_CTL.addr p)
    ∧ ¬ SpecialWritten (AVP_PORT_CTL.addr p) ∧ isCommand (AVP_PORT_CTL.RETRAIN p) = true ∧ isCommand (AVP_PORT_CTL.QUAL p) = true := by
  revert p; decide +kernel

theorem laneCtl_plain (p : Fin 16) (l : Fin 4) : isStaged (AVP_LANE_CTL.addr p l) = false ∧ ¬ Refusable (AVP_LANE_CTL.addr p l)
    ∧ ¬ SpecialWritten (AVP_LANE_CTL.addr p l) := by
  revert p l; decide +kernel

/-- What a write of a port's page acts on, beside the registers of lanes. -/
theorem writeHook_port (d : Dev) {a : Nat} (hl : 0x10_0000 ≤ a) (hu : a < 0x20_0000) (old new cmd touch : Word) :
    d.writeHook a old new cmd touch = (d.laneHook a old new touch).portHook a old new cmd := by
  unfold writeHook
  rw [if_neg (by omega), if_neg (by omega), if_neg (by omega), if_neg (by omega), if_neg (by omega), if_neg (by omega), if_pos hu]

theorem writeHook_portCtl (d : Dev) (p : Fin 16) (old new cmd touch : Word) : d.writeHook (AVP_PORT_CTL.addr p) old new cmd touch
    = (((d.when ((AVP_PORT_CTL.EN p).of old = 0 && (AVP_PORT_CTL.EN p).of new = 1) (·.portEnable p)).when
      ((AVP_PORT_CTL.EN p).of old = 1 && (AVP_PORT_CTL.EN p).of new = 0) (·.portDisable p)).when (cmd.getLsbD 7) (·.portRetrain p)).when
      (cmd.getLsbD 6) (·.qualifyStart p) := by
  have haddr : AVP_PORT_CTL.addr p = 0x10_0000 + p * 0x1_0000 := rfl
  have hp := p.isLt
  have hindex : (AVP_PORT_CTL.addr p - 0x10_0000) / 0x1_0000 = p := by omega
  have hlane : d.laneHook (AVP_PORT_CTL.addr p) old new touch = d := by
    unfold laneHook
    rw [if_neg (by simp; omega), if_neg (by simp; omega)]
  rw [writeHook_port d (by omega) (by omega), hlane, portHook]
  simp only [hindex, if_true]

theorem writeHook_laneCtl (d : Dev) (p : Fin 16) (l : Fin 4) (old cmd touch : Word) (htouch : touch &&& (AVP_LANE_CTL.PEAK p l).mask = 0) :
    d.writeHook (AVP_LANE_CTL.addr p l) old old cmd touch = d.when (cmd.getLsbD 31) (·.bitslip p l) := by
  have haddr : AVP_LANE_CTL.addr p l = 0x10_0040 + p * 0x1_0000 + l * 4 := rfl
  have hp := p.isLt
  have hl := l.isLt
  have hport : (AVP_LANE_CTL.addr p l - 0x10_0000) / 0x1_0000 = p := by omega
  have hindex : (AVP_LANE_CTL.addr p l % 0x1_0000 - 0x40) / 4 = l := by omega
  have hlane : d.laneHook (AVP_LANE_CTL.addr p l) old old touch = d := by
    unfold laneHook
    rw [if_neg (by simp; omega), if_pos (by simp; omega), hport, hindex]
    simp [laneWritten, when, htouch]
  rw [writeHook_port d (by omega) (by omega), hlane, portHook]
  simp only [hport, hindex]
  rw [if_neg (by unfold AVP_PORT_CTL.addr; omega), if_neg (by unfold AVP_CMD_CTL.addr; omega), if_neg (by unfold AVP_URGENT.addr; omega),
    if_neg (by simp; unfold AVP_GEOM_W.addr AVP_GEOM_H.addr AVP_GANG_CFG.addr; omega)]
  simp [show 0x40 ≤ AVP_LANE_CTL.addr p l % 0x1_0000 by omega, show AVP_LANE_CTL.addr p l % 0x1_0000 < 0x50 by omega]

/-! ### Command bits -/

theorem noteWrite_ntq (d : Dev) (a : Nat) (touch : Word) : (d.noteWrite a touch).ntq = d.ntq := rfl
theorem noteWrite_reg (d : Dev) (a : Nat) (touch : Word) (b : Nat) : (d.noteWrite a touch).reg b = d.reg b := rfl
theorem port_noteWrite (d : Dev) (a : Nat) (touch : Word) (q : Nat) : (d.noteWrite a touch).port q = d.port q := rfl
theorem put_into (d : Dev) (f : Bits) (n : Nat) : d.put f n = d.setReg f.off (f.into (d.reg f.off) n) := rfl

/-- The device on which the action of a command bit runs: its registers read the same. -/
def pressed (d : Dev) (f : Bits) : Dev := (d.noteWrite f.off f.mask).setReg f.off (d.reg f.off)

theorem pressed_touches (d : Dev) (f : Bits) : Touches [] d (d.pressed f) :=
  ⟨rfl, rfl, rfl, fun a i _ => congrArg (BitVec.getLsbD · i) (reg_setReg_self (d.noteWrite f.off f.mask) f.off a)⟩

theorem pressed_time (d : Dev) (f : Bits) : (d.pressed f).time = d.time := rfl
theorem pressed_ntq (d : Dev) (f : Bits) : (d.pressed f).ntq = d.ntq := rfl
theorem pressed_port (d : Dev) (f : Bits) (q : Nat) : (d.pressed f).port q = d.port q := rfl
theorem pressed_get (d : Dev) (f g : Bits) : (d.pressed f).get g = d.get g := (d.pressed_touches f).get (List.forall_mem_nil _)
theorem pressed_is (d : Dev) (f g : Bits) : (d.pressed f).is g = d.is g := (d.pressed_touches f).is (List.forall_mem_nil _)
theorem pressed_portState (d : Dev) (f : Bits) (p : Nat) : (d.pressed f).portState p = d.portState p := d.pressed_get f _
theorem pressed_portUp (d : Dev) (f : Bits) (p : Nat) : (d.pressed f).portUp p = d.portUp p := by rw [portUp, portUp, pressed_portState]

theorem press_portCtl (d : Dev) (r : Requester) (p : Fin 16) {f : Bits} (hoff : f.off = AVP_PORT_CTL.addr p) (hf : isCommand f = true)
    (h : d.Admits r (AVP_PORT_CTL.addr p)) :
    d.press r f = ((d.pressed f).when (f.mask.getLsbD 7) (·.portRetrain p)).when (f.mask.getLsbD 6) (·.qualifyStart p) := by
  obtain ⟨hst, href, hsp, -, -⟩ := portCtl_plain p
  have hlt : f.off < 0x7_0000 ∨ 0x7_0100 ≤ f.off := .inr (by rw [hoff]; unfold AVP_PORT_CTL.addr; omega)
  have hrun := press_runs d r f (hoff ▸ h) hf (hoff ▸ hst) (wholeRefused_none (hoff ▸ href) _ _) (specialWrite_none (hoff ▸ hsp) _ _ _ _ _) hlt
  have hne : ∀ n : Nat, (decide (n = 0) && decide (n = 1)) = false ∧ (decide (n = 1) && decide (n = 0)) = false := fun n => by
    constructor <;> (rw [← Bool.decide_and]; exact decide_eq_false (by omega))
  rw [hrun]
  show (d.pressed f).writeHook f.off _ _ _ _ = _
  rw [hoff, writeHook_portCtl, (hne _).1, (hne _).2, when_false, when_false]

theorem press_retrain (d : Dev) (r : Requester) (p : Fin 16) (h : d.Admits r (AVP_PORT_CTL.addr p)) :
    d.press r (AVP_PORT_CTL.RETRAIN p) = (d.pressed (AVP_PORT_CTL.RETRAIN p)).portRetrain p := by
  obtain ⟨-, -, -, hretrain, -⟩ := portCtl_plain p
  have hmask : (AVP_PORT_CTL.RETRAIN p).mask = 0x80#32 := rfl
  rw [press_portCtl d r p rfl hretrain h, hmask, show (0x80#32).getLsbD 7 = true from rfl, show (0x80#32).getLsbD 6 = false from rfl,
    when_true, when_false]

theorem press_qual (d : Dev) (r : Requester) (p : Fin 16) (h : d.Admits r (AVP_PORT_CTL.addr p)) :
    d.press r (AVP_PORT_CTL.QUAL p) = (d.pressed (AVP_PORT_CTL.QUAL p)).qualifyStart p := by
  obtain ⟨-, -, -, -, hqual⟩ := portCtl_plain p
  have hmask : (AVP_PORT_CTL.QUAL p).mask = 0x40#32 := rfl
  rw [press_portCtl d r p rfl hqual h, hmask, show (0x40#32).getLsbD 7 = false from rfl, show (0x40#32).getLsbD 6 = true from rfl,
    when_true, when_false]

/-- The row of LANE_CTL. -/
def laneCtlRow : RegRow :=
  ⟨0x40, 4, 0x4, [⟨31, 31, .w1s, 0⟩, ⟨23, 23, .rwl 0, 0⟩, ⟨21, 16, .rwl 0, 0x20⟩, ⟨8, 8, .rwl 0, 0⟩, ⟨4, 0, .rwl 0, 0xC⟩]⟩

theorem regRow_laneCtl (p : Fin 16) (l : Fin 4) : regRow (AVP_LANE_CTL.addr p l) = some laneCtlRow := by revert p l; decide

/-- BITSLIP stands apart from the lockable fields of its register. -/
theorem laneCtl_masks (d : Dev) : 0x8000_0000#32 &&& laneCtlRow.mask d.locks = 0 ∧ 0x8000_0000#32 &&& laneCtlRow.mask d.stores = 0 := by
  have hlocks : laneCtlRow.mask d.locks = laneCtlRow.mask (fun x => x = .rwl 0 && d.bitOf DCT_LOCK.addr 0) :=
    RegRow.mask_congr _ _ _ (by simp [laneCtlRow, locks])
  have hstores : laneCtlRow.mask d.stores = laneCtlRow.mask (fun x => x = .rwl 0 && !d.bitOf DCT_LOCK.addr 0) :=
    RegRow.mask_congr _ _ _ (by simp [laneCtlRow, stores])
  rw [hlocks, hstores]
  generalize d.bitOf DCT_LOCK.addr 0 = b
  revert b; decide

theorem laneCtl_access : laneCtlRow.mask (· = .w1c) = 0 ∧ (laneCtlRow.mask fun x => x = .w1c || x = .w1s) = 0x8000_0000#32
    ∧ laneCtlRow.mask (· = .w1s) = 0x8000_0000#32 := by decide

section
variable (p l : Nat)

theorem bitslip_mask : (AVP_LANE_CTL.BITSLIP p l).mask = 0x8000_0000#32 := by
  have hshift : word ((2 ^ 1 - 1) <<< 31) = 0x8000_0000#32 := by decide
  exact hshift

theorem bitslip_fits : (AVP_LANE_CTL.BITSLIP p l).lo + (AVP_LANE_CTL.BITSLIP p l).w ≤ 32 := Nat.le_of_ble_eq_true rfl

theorem bitslip_written (w : Word) : (0x8000_0000#32 &&& (AVP_LANE_CTL.BITSLIP p l).into w 1 &&& 0x8000_0000#32).getLsbD 31 = true := by
  have hin : (AVP_LANE_CTL.BITSLIP p l).lo ≤ 31 ∧ 31 < (AVP_LANE_CTL.BITSLIP p l).lo + (AVP_LANE_CTL.BITSLIP p l).w :=
    ⟨le_refl 31, Nat.lt_succ_self 31⟩
  have hone : Nat.testBit 1 (31 - 31) = true := by decide
  have hbit : ((AVP_LANE_CTL.BITSLIP p l).into w 1).getLsbD 31 = true := by rw [into_bit _ _ _ _ (bitslip_fits p l), if_pos hin]; exact hone
  have htop : (0x8000_0000#32).getLsbD 31 = true := by decide
  rw [BitVec.getLsbD_and, BitVec.getLsbD_and, htop, hbit]
  rfl

end

theorem press_bitslip (d : Dev) (r : Requester) (p : Fin 16) (l : Fin 4) (h : d.Admits r (AVP_LANE_CTL.addr p l)) :
    d.press r (AVP_LANE_CTL.BITSLIP p l) = (d.pressed (AVP_LANE_CTL.BITSLIP p l)).bitslip p l := by
  obtain ⟨hst, href, hsp⟩ := laneCtl_plain p l
  obtain ⟨hlocks, hstores⟩ := d.laneCtl_masks
  obtain ⟨hw1c, hw1, hw1s⟩ := laneCtl_access
  have hlock : AVP_LANE_CTL.addr p l ≠ DCT_LOCK.addr := by unfold AVP_LANE_CTL.addr DCT_LOCK.addr; omega
  have hpin : ¬ (0x7_0000 ≤ AVP_LANE_CTL.addr p l ∧ AVP_LANE_CTL.addr p l < 0x7_0100) := by unfold AVP_LANE_CTL.addr; omega
  have hnew := store_outside (bitslip_fits p l) ((bitslip_mask p l).symm ▸ hstores) (d.reg (AVP_LANE_CTL.addr p l)) 1
  have htouch : 0x8000_0000#32 &&& (laneCtlRow.mask d.stores ||| 0x8000_0000#32) = 0x8000_0000#32 := by
    rw [BitVec.and_or_distrib_left, hstores]; simp
  have hpeak : 0x8000_0000#32 &&& (AVP_LANE_CTL.PEAK p l).mask = 0 := by
    have hshift : 0x8000_0000#32 &&& word ((2 ^ 5 - 1) <<< 0) = 0 := by decide
    exact hshift
  have hviol : ((0 : Word) != 0) = false := rfl
  rw [press, fieldWrite, show (AVP_LANE_CTL.BITSLIP p l).off = AVP_LANE_CTL.addr p l from rfl, gatePassed_admitted d r _ _ _ _ _ h, regWrite,
    regRow_laneCtl, bitslip_mask]
  simp only [hlocks, hw1c, hw1s, hw1, hlock, if_false, hviol, when_false, clear_none, hnew, htouch]
  rw [landWrite_ordinary d hst href hsp hpin, checked_same, writeHook_laneCtl _ p l _ _ _ hpeak, bitslip_written, when_true, pressed, bitslip_mask]
  rfl

/-! ### EN (R116) -/

/-- The row of PORT_CTL. -/
def portCtlRow : RegRow := ⟨0x0, 1, 0x4, [⟨7, 7, .w1s, 0⟩, ⟨6, 6, .w1s, 0⟩, ⟨3, 3, .rw, 0⟩, ⟨0, 0, .rw, 0⟩]⟩

theorem regRow_portCtl (p : Fin 16) : regRow (AVP_PORT_CTL.addr p) = some portCtlRow := by revert p; decide

theorem fieldChecks_portCtl (d : Dev) (p : Fin 16) : ∀ c ∈ d.fieldChecks (AVP_PORT_CTL.addr p), c.field.off ≠ AVP_PORT_CTL.addr p := by
  have hp := p.isLt
  have haddr : AVP_PORT_CTL.addr p = 0x10_0000 + p * 0x1_0000 := rfl
  have hindex : (AVP_PORT_CTL.addr p - 0x10_0000) / 0x1_0000 = p := by omega
  rw [fieldChecks, if_neg (by omega), if_neg (by omega), if_neg (by omega), if_neg (by omega), if_neg (by omega), if_neg (by omega),
    if_neg (by omega), if_neg (by omega), if_neg (by simp; omega), if_neg (by simp; omega), if_pos (by simp; omega), hindex]
  simp only [List.forall_mem_cons]
  refine ⟨?_, ?_, ?_, ?_, ?_, List.forall_mem_nil _⟩
  · show AVP_QUAL_CTL.addr p ≠ _; unfold AVP_QUAL_CTL.addr; omega
  · show AVP_QUAL_CTL.addr p ≠ _; unfold AVP_QUAL_CTL.addr; omega
  · show AVP_GEOM_W.addr p ≠ _; unfold AVP_GEOM_W.addr; omega
  · show AVP_RANGE_CTL.addr p ≠ _; unfold AVP_RANGE_CTL.addr; omega
  · show AVP_FRAME_TMO.addr p ≠ _; unfold AVP_FRAME_TMO.addr; omega

/-- A register that no check concerns takes the value. -/
theorem checked_unchecked (d : Dev) {a : Nat} (h : ∀ c ∈ d.fieldChecks a, c.field.off ≠ a) (old new : Word) : d.checked a old new = (d, new) := by
  unfold checked
  generalize d.fieldChecks a = l at h
  induction l with
  | nil => rfl
  | cons c l ih =>
    obtain ⟨hc, hl⟩ := List.forall_mem_cons.1 h
    simpa [hc] using ih hl

section
variable (d : Dev) (r : Requester) (p : Fin 16) (v : Nat)

/-- EN as written. -/
def enWritten : Dev := (d.noteWrite (AVP_PORT_CTL.addr p) 1#32).put (AVP_PORT_CTL.EN p) v

theorem enWritten_ntq : (d.enWritten p v).ntq = d.ntq := by rw [enWritten, put_ntq, noteWrite_ntq]
theorem enWritten_port (q : Nat) : (d.enWritten p v).port q = d.port q := by rw [enWritten, port_put, port_noteWrite]

theorem enWritten_touches : Touches [AVP_PORT_CTL.EN p] d (d.enWritten p v) :=
  ((Touches.refl _ d).other (g := d.noteWrite (AVP_PORT_CTL.addr p) 1#32) rfl rfl rfl rfl).put v (by simp)

theorem fieldWrite_en (h : d.Admits r (AVP_PORT_CTL.addr p)) : d.fieldWrite r (AVP_PORT_CTL.EN p) v
    = ((d.enWritten p v).when (d.get (AVP_PORT_CTL.EN p) = 0 && v % 2 = 1) (·.portEnable p)).when
      (d.get (AVP_PORT_CTL.EN p) = 1 && v % 2 = 0) (·.portDisable p) := by
  have hmask : (portCtlRow.mask fun x => x = .rw || x = .wo) = 9#32 ∧ portCtlRow.mask (· = .w1c) = 0
      ∧ portCtlRow.mask (· = .w1s) = 0xC0#32 ∧ (portCtlRow.mask fun x => x = .w1c || x = .w1s) = 0xC0#32 := by decide
  obtain ⟨hrw, hw1c, hw1s, hw1⟩ := hmask
  obtain ⟨hst, href, hsp, -, -⟩ := portCtl_plain p
  have hlock : AVP_PORT_CTL.addr p ≠ DCT_LOCK.addr := by unfold AVP_PORT_CTL.addr DCT_LOCK.addr; omega
  have hpin : ¬ (0x7_0000 ≤ AVP_PORT_CTL.addr p ∧ AVP_PORT_CTL.addr p < 0x7_0100) := by unfold AVP_PORT_CTL.addr; omega
  have hen : (AVP_PORT_CTL.EN p).mask = 1#32 := rfl
  have hnone : ∀ w : Word, 1#32 &&& w &&& 0xC0#32 = 0 := fun w => by
    rw [BitVec.and_assoc, BitVec.and_comm w, ← BitVec.and_assoc]; exact BitVec.zero_and
  have htouch : 1#32 &&& (9#32 ||| 0xC0#32) = 1#32 := by decide
  have hretrain : BitVec.getLsbD (0 : Word) 7 = false := by decide
  have hqual : BitVec.getLsbD (0 : Word) 6 = false := by decide
  have hnew : (AVP_PORT_CTL.EN p).of ((AVP_PORT_CTL.EN p).into (d.reg (AVP_PORT_CTL.addr p)) v) = v % 2 := of_into (Nat.le_of_ble_eq_true rfl) _ _
  rw [fieldWrite, show (AVP_PORT_CTL.EN p).off = AVP_PORT_CTL.addr p from rfl, gatePassed_admitted d r _ _ _ _ _ h,
    regWrite_unlocked d r _ _ _ _ _ (regRow_portCtl p) (by simp [RegRow.Unlocked, portCtlRow]), if_neg hlock, storedWord, hrw, hw1c, hw1s, hw1,
    clear_none, store_within (Nat.le_of_ble_eq_true rfl) (by rw [hen]; decide), landWrite_ordinary d hst href hsp hpin,
    checked_unchecked _ (fieldChecks_portCtl _ p), writeHook_portCtl, hnew, hen, hnone, htouch, hretrain, hqual, when_false,
    when_false]
  rfl

end
end Dev
end Sys2Proof.Machine
end


section
/-! SUPPORT. Which fields of a port's page a change of state leaves alone, and the frames of its operations. -/

open Sys2Proof Sys2Proof.Machine

namespace Sys2Proof.Machine
namespace Dev

/-- The fields of a port that a change of its state leaves. -/
def keptFields (p : Nat) : List Bits :=
  [AVP_PORT_CTL.EN p, AVP_PORT_STAT.CEILING p, AVP_PORT_STAT.LANES p, AVP_PORT_STAT.MASK p, AVP_PORT_STAT.VERSION p, AVP_PORT_STAT.RATE p
  , AVP_ATTEMPT.FAILS p, AVP_ATTEMPT.LAST_REASON p, AVP_QUAL_STAT.RUN p, AVP_QUAL_STAT.SYNC p, AVP_FLAGS.QUAL_DONE p, AVP_FLAGS.DEGRADED p]
    ++ (List.range 4).flatMap fun l =>
      [AVP_LANE_STAT.SIGNAL p l, AVP_LANE_STAT.LOCK p l, AVP_LANE_STAT.ALIGNED p l, AVP_LANE_STAT.EXCLUDED p l, AVP_LANE_STAT.SKEW p l]

/-- The counters of a port that a change of its state leaves. -/
def keptPairs (p : Nat) : List Nat :=
  [AVP_ATTEMPT_CNT.addr p, AVP_DEGRADE_CNT.addr p] ++ (List.range 4).flatMap fun l => [AVP_QUAL_ERR.addr p l, AVP_QUAL_BITS.addr p l]

/-- The registers of a port's page. -/
abbrev OnPage (p : Fin 16) : Nat → Prop := fun a => a / 0x1_0000 = 0x10 + p.val

section
variable (p : Fin 16)

theorem stateFields_clear : ∀ g ∈ keptFields p, Clear (stateFields p) g := by revert p; decide
theorem stateFields_pairs : ∀ a ∈ keptPairs p, ∀ f ∈ stateFields p, f.off ≠ a ∧ f.off ≠ a + 4 := by revert p; decide
theorem stateFields_page : ∀ f ∈ stateFields p, OnPage p f.off := by revert p; decide

end

namespace Touches
variable {l : List Bits} {d e : Dev}

theorem portState (h : Touches l d e) {p : Nat} (hc : Clear l (AVP_PORT_STAT.STATE p)) : e.portState p = d.portState p := h.get hc
theorem portUp (h : Touches l d e) {p : Nat} (hc : Clear l (AVP_PORT_STAT.STATE p)) : e.portUp p = d.portUp p := by
  rw [Dev.portUp, Dev.portUp, h.portState hc]

end Touches

namespace Entered
variable {d e : Dev} {p : Fin 16} {s : Nat} (h : Entered d p s e)
include h

theorem get {g : Bits} (hg : g ∈ keptFields p) : e.get g = d.get g := h.touches.get (stateFields_clear p g hg)
theorem is {g : Bits} (hg : g ∈ keptFields p) : e.is g = d.is g := h.touches.is (stateFields_clear p g hg)
theorem get64 {a : Nat} (ha : a ∈ keptPairs p) : e.get64 a = d.get64 a := h.touches.get64 (stateFields_pairs p a ha)
theorem frame : Frame (OnPage p) d e := h.touches.toFrame (stateFields_page p)

end Entered

end Dev
end Sys2Proof.Machine
end

section
/-! SUPPORT. The control bits of a port (R110, R116, R119). -/

open Sys2Proof Sys2Proof.Machine

namespace Sys2Proof.Machine
namespace Dev

section
variable (d : Dev) (p : Fin 16)

/-! ### EN (R116) -/

theorem en_clear : Clear [AVP_PORT_CTL.EN p] (AVP_PORT_STAT.STATE p) ∧ Clear (movedFields p 1) (AVP_PORT_CTL.EN p) := by revert p; decide

/-- EN is 0 or 1. -/
theorem en_value : d.get (AVP_PORT_CTL.EN p) = if d.is (AVP_PORT_CTL.EN p) = true then 1 else 0 := by
  have hlt : d.get (AVP_PORT_CTL.EN p) < 2 := get_lt d (AVP_PORT_CTL.EN p)
  by_cases h : d.get (AVP_PORT_CTL.EN p) = 0
  · simp [Dev.is, h]
  · simp [Dev.is, h]; omega

/-- EN written as it stands. -/
theorem enWritten_held : Frame (fun _ => False) d (d.enWritten p (d.get (AVP_PORT_CTL.EN p))) := by
  have htouch := d.enWritten_touches p (d.get (AVP_PORT_CTL.EN p))
  refine ⟨htouch.writes, htouch.time, htouch.low, fun a _ => ?_⟩
  have hword : (AVP_PORT_CTL.EN p).into (d.reg (AVP_PORT_CTL.EN p).off) (d.get (AVP_PORT_CTL.EN p)) = d.reg (AVP_PORT_CTL.EN p).off :=
    into_of_self (Nat.le_of_ble_eq_true rfl) _
  rw [enWritten, put_into, noteWrite_reg, hword, ← noteWrite_reg d (AVP_PORT_CTL.addr p) 1#32 (AVP_PORT_CTL.EN p).off, reg_setReg_self,
    noteWrite_reg]

variable (r : Requester) (h : d.Admits r (AVP_PORT_CTL.addr p))
include h

theorem fieldWrite_en_held (b : Bool) (hb : d.is (AVP_PORT_CTL.EN p) = b) : ∃ e, d.fieldWrite r (AVP_PORT_CTL.EN p) (if b = true then 1 else 0) = e
    ∧ e.port p = d.port p ∧ e.ntq = d.ntq ∧ Frame (fun _ => False) d e := by
  have hv := d.en_value p
  rw [hb] at hv
  refine ⟨d.enWritten p (d.get (AVP_PORT_CTL.EN p)), ?_, d.enWritten_port p _ p, d.enWritten_ntq p _, d.enWritten_held p⟩
  rw [fieldWrite_en d r p _ h, hv]
  cases b <;> rfl

/-- EN written 1 in DOWN. -/
theorem fieldWrite_en_set (hen : d.is (AVP_PORT_CTL.EN p) = false) (hdown : d.portState p = 0) :
    ∃ e, d.fieldWrite r (AVP_PORT_CTL.EN p) 1 = e ∧ e.is (AVP_PORT_CTL.EN p) = true ∧ e.portState p = 1
      ∧ (e.port p).link.running = true ∧ (e.port p).link.hold = none ∧ (e.port p).link.attempt = none ∧ e.is (AVP_FLAGS.STATE_CHG p) = true
      ∧ e.ntq.input = d.ntq.input ++ [⟨.event, idAVP p, 0x010, word (d.portState p * 16 + 1), d.time⟩]
      ∧ Touches (AVP_PORT_CTL.EN p :: movedFields p 1) d e := by
  obtain ⟨hclear, hkept⟩ := en_clear p
  have hwrite : d.fieldWrite r (AVP_PORT_CTL.EN p) 1 = (d.enWritten p 1).portEnable p := by
    have hv := d.en_value p
    rw [hen] at hv
    rw [fieldWrite_en d r p _ h, hv]
    rfl
  let c := ((d.enWritten p 1).set1 (AVP_PORT_CTL.EN p)).setLink p fun l => { l with
    running := true, hold := none, seekFrom := 0, attempt := none, kind := .fresh }
  have hc : Touches [AVP_PORT_CTL.EN p] d c := ((d.enWritten_touches p 1).set1 (by simp)).setLink _ _
  have hstate : c.portState p = 0 := (hc.portState hclear).trans hdown
  have hup : c.portUp p = false := by simp [Dev.portUp, hstate]
  have hmoved : c.setState p 1 = c.stateMoved p 1 := setState_quiet p (by omega) (by omega) hup (by omega) (by omega)
  have hlink := c.stateMoved_link p 1
  rw [link_setLink] at hlink
  have htouch := c.stateMoved_touches p 1
  refine ⟨c.stateMoved p 1, ?_, ?_, c.stateMoved_state p 1 (by omega), ?_, ?_, ?_, c.stateMoved_changed p 1, ?_, ?_⟩
  · have hstate' : ((d.enWritten p 1).set1 (AVP_PORT_CTL.EN p)).portState p = 0 := hstate
    rw [hwrite, portEnable, hstate', ← hmoved]
    rfl
  · exact (htouch.is hkept).trans (is_set1_same (d.enWritten p 1) (AVP_PORT_CTL.EN p) rfl (Nat.le_of_ble_eq_true rfl))
  · rw [hlink]
  · rw [hlink]
  · rw [hlink]
  · rw [stateMoved_input, hstate, hdown]; rfl
  · exact (hc.mono (by simp)).trans (htouch.mono (by simp))

/-- EN written 0. -/
theorem fieldWrite_en_clear (hen : d.is (AVP_PORT_CTL.EN p) = true) (hdown : d.portState p ≠ 0) :
    ∃ e l, d.fieldWrite r (AVP_PORT_CTL.EN p) 0 = e ∧ e.is (AVP_PORT_CTL.EN p) = false ∧ e.portState p = 0
      ∧ (e.port p).link.running = false ∧ (e.port p).link.attempt = none ∧ (e.port p).link.blocks = []
      ∧ (e.port p).link.hold = none ∧ (e.port p).link.degrade = none ∧ e.is (AVP_QUAL_STAT.RUN p) = false
      ∧ e.is (AVP_FLAGS.STATE_CHG p) = true
      ∧ e.ntq.input = d.ntq.input ++ ⟨.event, idAVP p, 0x010, word (d.portState p * 16 + 0), d.time⟩ :: l ∧ (d.portUp p = false → l = [])
      ∧ Frame (OnPage p) d e := by
  have hwrite : d.fieldWrite r (AVP_PORT_CTL.EN p) 0 = (d.enWritten p 0).portDisable p := by
    have hv := d.en_value p
    rw [hen] at hv
    rw [fieldWrite_en d r p _ h, hv]
    rfl
  have hclear : Clear [AVP_PORT_CTL.EN p, AVP_QUAL_STAT.RUN p] (AVP_PORT_STAT.STATE p) ∧ Clear [AVP_QUAL_STAT.RUN p] (AVP_PORT_CTL.EN p)
      ∧ ∀ f ∈ [AVP_PORT_CTL.EN p, AVP_QUAL_STAT.RUN p], OnPage p f.off := by
    clear hwrite hdown hen h; revert p; decide
  obtain ⟨hstate, hrun, hpage⟩ := hclear
  let b := (d.enWritten p 0).unset (AVP_PORT_CTL.EN p)
  let c := b.unset (AVP_QUAL_STAT.RUN p)
  have hbc : Touches [AVP_QUAL_STAT.RUN p] b c := (Touches.refl _ b).unset (by simp)
  have hc : Touches [AVP_PORT_CTL.EN p, AVP_QUAL_STAT.RUN p] d c :=
    ((((d.enWritten_touches p 0).mono (by simp)).unset (by simp)).trans (hbc.mono (by simp)))
  have hentered : Entered c p 0 (c.setState p 0) := setState_entered p (by rw [hc.portState hstate]; exact hdown) (by omega)
  have hleft : d.fieldWrite r (AVP_PORT_CTL.EN p) 0 = (c.setState p 0).setLink p fun l => { l with
      running := false, attempt := none, kind := .fresh, hold := none, degrade := none, blocks := [] } := hwrite
  have hen0 : c.is (AVP_PORT_CTL.EN p) = false := (hbc.is hrun).trans (is_unset_same _ (AVP_PORT_CTL.EN p) (Nat.le_of_ble_eq_true rfl))
  have hrun0 : c.is (AVP_QUAL_STAT.RUN p) = false := is_unset_same b (AVP_QUAL_STAT.RUN p) (Nat.le_of_ble_eq_true rfl)
  have hnotice : c.ntq = d.ntq := (unset_ntq b _).trans ((unset_ntq (d.enWritten p 0) _).trans (d.enWritten_ntq p 0))
  generalize c.setState p 0 = g at hleft hentered
  obtain ⟨l, hl, hquiet⟩ := hentered.told
  rw [hnotice, hc.portState hstate, hc.time] at hl
  refine ⟨_, l, hleft, (setLink_is g _ _ _).trans ((hentered.is (by simp [keptFields])).trans hen0), (setLink_get g _ _ _).trans hentered.state,
    ?_, ?_, ?_, ?_, ?_, (setLink_is g _ _ _).trans ((hentered.is (by simp [keptFields])).trans hrun0),
    (setLink_is g _ _ _).trans hentered.changed, (congrArg NtqState.input (setLink_ntq g _ _)).trans hl,
    fun hup => hquiet ((hc.portUp hstate).trans hup) (by omega) (by omega), ((hc.toFrame hpage).trans hentered.frame).setLink _ _⟩
  all_goals rw [link_setLink]

end

/-! ### RETRAIN (R113, R116) -/

theorem blocks_queueBlock (d : Dev) (p : Nat) (b : DlBlock) : b ∈ ((d.queueBlock p b).port p).link.blocks := by
  unfold queueBlock
  rw [link_setLink]
  exact List.mem_append_right _ (List.mem_singleton_self b)

theorem queueBlock_touches (l : List Bits) (d : Dev) (p : Nat) (b : DlBlock) : Touches l d (d.queueBlock p b) := by
  unfold queueBlock
  exact (Touches.refl l d).setLink _ _

section
variable (d : Dev) (p : Fin 16)

/-- A port as RETRAIN leaves it before it goes to SEEK. -/
def retrained : Dev :=
  let queued := (d.restoreCeiling p).queueBlock p .retrain
  (queued.setLink p fun l => { l with
    attempt := none, kind := .fresh, hold := none, degrade := none, seekFrom := if l.hold.isSome then queued.time else l.seekFrom }).unset
    (AVP_QUAL_STAT.RUN p)

theorem portRetrain_moves (h0 : d.portState p ≠ 0) (h8 : d.portState p ≠ 8) : d.portRetrain p = (d.retrained p).setState p 1 := by
  unfold retrained portRetrain stSeek
  exact if_neg (by simp [stDown, stFault, h0, h8])

theorem retrained_touches : Touches [AVP_PORT_STAT.CEILING p, AVP_QUAL_STAT.RUN p] d (d.retrained p) :=
  ((((Touches.refl _ d).put 3 (by simp)).setLink _ _).setLink _ _).unset (by simp)

theorem retrained_clear : Clear [AVP_PORT_STAT.CEILING p, AVP_QUAL_STAT.RUN p] (AVP_PORT_STAT.STATE p)
    ∧ Clear [AVP_PORT_STAT.CEILING p, AVP_QUAL_STAT.RUN p] (AVP_ATTEMPT.FAILS p)
    ∧ Clear [AVP_QUAL_STAT.RUN p] (AVP_PORT_STAT.CEILING p) ∧ ∀ f ∈ [AVP_PORT_STAT.CEILING p, AVP_QUAL_STAT.RUN p], OnPage p f.off := by
  revert p; decide

theorem retrained_ceiling : (d.retrained p).get (AVP_PORT_STAT.CEILING p) = 3 := by
  have hrun : Touches [AVP_QUAL_STAT.RUN p] (d.restoreCeiling p) (d.retrained p) := (((Touches.refl _ _).setLink _ _).setLink _ _).unset (by simp)
  obtain ⟨-, -, hclear, -⟩ := retrained_clear p
  exact (hrun.get hclear).trans (get_put_same d _ 3 (Nat.le_of_ble_eq_true rfl))

theorem retrained_link : .retrain ∈ ((d.retrained p).port p).link.blocks ∧ ((d.retrained p).port p).link.attempt = none
    ∧ ((d.retrained p).port p).link.hold = none := by
  have hmem := blocks_queueBlock (d.restoreCeiling p) p .retrain
  unfold retrained
  rw [port_unset, link_setLink]
  exact ⟨hmem, rfl, rfl⟩

theorem retrained_input : (d.retrained p).ntq.input = d.ntq.input := by
  rw [retrained, restoreCeiling, queueBlock, unset_ntq, setLink_ntq, setLink_ntq, put_ntq]

/-- RETRAIN in a state other than DOWN and FAULT. -/
theorem portRetrain_seeks (h0 : d.portState p ≠ 0) (h8 : d.portState p ≠ 8) :
    ∃ e l, d.portRetrain p = e ∧ e.portState p = 1 ∧ e.get (AVP_PORT_STAT.CEILING p) = 3 ∧ .retrain ∈ (e.port p).link.blocks
      ∧ (e.port p).link.attempt = none ∧ (e.port p).link.hold = none ∧ e.get (AVP_ATTEMPT.FAILS p) = d.get (AVP_ATTEMPT.FAILS p)
      ∧ e.ntq.input = d.ntq.input
        ++ (if d.portState p = 1 then [] else ⟨.event, idAVP p, 0x010, word (d.portState p * 16 + 1), d.time⟩ :: l)
      ∧ (d.portState p ≠ 1 → e.is (AVP_FLAGS.STATE_CHG p) = true) ∧ (d.portUp p = false → l = []) ∧ Frame (OnPage p) d e := by
  obtain ⟨hstate, hfails, -, hpage⟩ := retrained_clear p
  obtain ⟨hblock, hattempt, hhold⟩ := d.retrained_link p
  have htouch := d.retrained_touches p
  have hceiling := d.retrained_ceiling p
  have hsame := htouch.portState hstate
  have hinput := d.retrained_input p
  rw [portRetrain_moves d p h0 h8]
  generalize d.retrained p = c at *
  by_cases h1 : d.portState p = 1
  · rw [setState_same _ p 1 (hsame.trans h1)]
    exact ⟨_, [], rfl, hsame.trans h1, hceiling, hblock, hattempt, hhold, htouch.get hfails, by rw [hinput, if_pos h1, List.append_nil],
      fun hne => absurd h1 hne, fun _ => rfl, htouch.toFrame hpage⟩
  · have hentered := setState_entered (d := c) (s := 1) p (by rw [hsame]; exact h1) (by omega)
    obtain ⟨l, hl, hquiet⟩ := hentered.told
    rw [hinput, hsame, htouch.time] at hl
    refine ⟨_, l, rfl, hentered.state, (hentered.get (by simp [keptFields])).trans hceiling, ?_, ?_, ?_,
      (hentered.get (by simp [keptFields])).trans (htouch.get hfails), by rw [if_neg h1]; exact hl, fun _ => hentered.changed,
      fun hup => hquiet ((htouch.portUp hstate).trans hup) (by omega) (by omega), (htouch.toFrame hpage).trans hentered.frame⟩
    all_goals rw [hentered.link]
    · exact hblock
    · exact hattempt
    · exact hhold

theorem portRetrain_refused (h : d.portState p = 0 ∨ d.portState p = 8) : d.portRetrain p = d.set1 (AVP_FLAGS.BAD_STATE p) := by
  unfold portRetrain
  exact if_pos (by rcases h with h | h <;> simp [stDown, stFault, h])

/-! ### QUAL (R119) -/

/-- The counts of a qualification at 0. -/
def countsCleared : Dev := d.forEach (List.range 4) fun l d => (d.put64 (AVP_QUAL_ERR.addr p l) 0).put64 (AVP_QUAL_BITS.addr p l) 0

/-- A qualification running, without synchronisation. -/
def runStarted : Dev := (d.set1 (AVP_QUAL_STAT.RUN p)).put (AVP_QUAL_STAT.SYNC p) 0

/-- A port as QUAL leaves it before it goes to QUALIFY. -/
def qualified : Dev :=
  let running := ((d.queueBlock p (.qualStart (d.get (AVP_QUAL_CTL.PATTERN p)) (d.get (AVP_QUAL_CTL.DUR p)))).countsCleared p).runStarted p
  running.setLink p fun k => { k with qualAt := none, qualDur := running.get (AVP_QUAL_CTL.DUR p), degrade := none }

/-- The fields that a QUAL writes: the counts, and the status. -/
def countFields : List Bits := (List.range 4).flatMap fun l => pair (AVP_QUAL_ERR.addr p l) ++ pair (AVP_QUAL_BITS.addr p l)
def qualFields : List Bits := [AVP_QUAL_STAT.RUN p, AVP_QUAL_STAT.SYNC p] ++ countFields p

theorem countFields_lane (l : Nat) (hl : l ∈ List.range 4) :
    pair (AVP_QUAL_ERR.addr p l) ⊆ countFields p ∧ pair (AVP_QUAL_BITS.addr p l) ⊆ countFields p :=
  ⟨fun _ hf => List.mem_flatMap_of_mem hl (List.mem_append_left _ hf), fun _ hf => List.mem_flatMap_of_mem hl (List.mem_append_right _ hf)⟩

theorem qualFields_clear : Clear (qualFields p) (AVP_PORT_STAT.STATE p) ∧ Clear (countFields p) (AVP_QUAL_STAT.RUN p)
    ∧ ∀ f ∈ qualFields p, OnPage p f.off := by revert p; decide

theorem qualStat_clear : Clear [AVP_QUAL_STAT.SYNC p] (AVP_QUAL_STAT.RUN p)
    ∧ ∀ l : Fin 4, ∀ f ∈ [AVP_QUAL_STAT.RUN p, AVP_QUAL_STAT.SYNC p], (f.off ≠ AVP_QUAL_ERR.addr p l ∧ f.off ≠ AVP_QUAL_ERR.addr p l + 4)
      ∧ f.off ≠ AVP_QUAL_BITS.addr p l ∧ f.off ≠ AVP_QUAL_BITS.addr p l + 4 := by revert p; decide

theorem countsCleared_touches : Touches (countFields p) d (d.countsCleared p) :=
  (Touches.refl _ d).forEach _ _ fun l hl _ hg => (hg.put64 0 (countFields_lane p l hl).1).put64 0 (countFields_lane p l hl).2

theorem countsCleared_ntq : (d.countsCleared p).ntq = d.ntq := forEach_keeps (·.ntq) _ _ (fun l e => by rw [put64_ntq, put64_ntq]) _
theorem countsCleared_port : (d.countsCleared p).port p = d.port p := forEach_keeps (·.port p) _ _ (fun l e => by rw [port_put64, port_put64]) _

theorem countsCleared_get64 (l : Fin 4) :
    (d.countsCleared p).get64 (AVP_QUAL_ERR.addr p l) = 0 ∧ (d.countsCleared p).get64 (AVP_QUAL_BITS.addr p l) = 0 := by
  have hpart : ∀ k ∈ List.range 4, k ≠ l.val → ∀ e : Dev,
      (((e.put64 (AVP_QUAL_ERR.addr p k) 0).put64 (AVP_QUAL_BITS.addr p k) 0).get64 (AVP_QUAL_ERR.addr p l)
      , ((e.put64 (AVP_QUAL_ERR.addr p k) 0).put64 (AVP_QUAL_BITS.addr p k) 0).get64 (AVP_QUAL_BITS.addr p l))
        = (e.get64 (AVP_QUAL_ERR.addr p l), e.get64 (AVP_QUAL_BITS.addr p l)) := fun k hk hne e => by
    have hl := l.isLt
    rw [List.mem_range] at hk
    unfold AVP_QUAL_ERR.addr AVP_QUAL_BITS.addr
    repeat rw [get64_put64_ne _ _ (by omega) (by omega) (by omega)]
  obtain ⟨e, -, -, he⟩ := forEach_at (fun e => (e.get64 (AVP_QUAL_ERR.addr p l), e.get64 (AVP_QUAL_BITS.addr p l))) (countFields p) List.nodup_range
    (List.mem_range.2 l.isLt) (fun l d => (d.put64 (AVP_QUAL_ERR.addr p l) 0).put64 (AVP_QUAL_BITS.addr p l) 0) d
    (fun k hk e => ((Touches.refl _ e).put64 0 (countFields_lane p k hk).1).put64 0 (countFields_lane p k hk).2) hpart
  obtain ⟨herr, hbits⟩ := Prod.mk.inj he
  refine ⟨herr.trans ?_, hbits.trans (get64_put64_same _ _ 0)⟩
  have hl := l.isLt
  rw [get64_put64_ne _ _ (by unfold AVP_QUAL_ERR.addr AVP_QUAL_BITS.addr; omega) (by unfold AVP_QUAL_ERR.addr AVP_QUAL_BITS.addr; omega)
    (by unfold AVP_QUAL_ERR.addr AVP_QUAL_BITS.addr; omega)]
  exact get64_put64_same _ _ 0

theorem runStarted_touches : Touches [AVP_QUAL_STAT.RUN p, AVP_QUAL_STAT.SYNC p] d (d.runStarted p) :=
  ((Touches.refl _ d).set1 (f := AVP_QUAL_STAT.RUN p) (by simp)).put (f := AVP_QUAL_STAT.SYNC p) 0 (by simp)

theorem runStarted_status : (d.runStarted p).is (AVP_QUAL_STAT.RUN p) = true ∧ (d.runStarted p).get (AVP_QUAL_STAT.SYNC p) = 0 := by
  obtain ⟨hclear, -⟩ := qualStat_clear p
  have hsync := (Touches.refl [AVP_QUAL_STAT.SYNC p] (d.set1 (AVP_QUAL_STAT.RUN p))).put (f := AVP_QUAL_STAT.SYNC p) 0 (by simp)
  exact ⟨(hsync.is hclear).trans (is_set1_same d (AVP_QUAL_STAT.RUN p) rfl (Nat.le_of_ble_eq_true rfl)),
    get_put_same _ (AVP_QUAL_STAT.SYNC p) 0 (Nat.le_of_ble_eq_true rfl)⟩

theorem qualified_touches : Touches (qualFields p) d (d.qualified p) := by
  unfold qualified qualFields
  exact (((((queueBlock_touches (countFields p) d p _).trans (countsCleared_touches _ p)).mono (List.subset_append_right _ _)).trans
    ((runStarted_touches _ p).mono (List.subset_append_left _ _))).setLink _ _)

theorem qualified_ntq : (d.qualified p).ntq = d.ntq := by
  rw [qualified, setLink_ntq, runStarted, put_ntq, set1_ntq, countsCleared_ntq, queueBlock, setLink_ntq]

/-- What QUAL has written before the port goes to QUALIFY. -/
theorem qualified_values : (d.qualified p).is (AVP_QUAL_STAT.RUN p) = true ∧ (d.qualified p).get (AVP_QUAL_STAT.SYNC p) = 0
    ∧ (∀ l : Fin 4, (d.qualified p).get64 (AVP_QUAL_ERR.addr p l) = 0 ∧ (d.qualified p).get64 (AVP_QUAL_BITS.addr p l) = 0)
    ∧ .qualStart (d.get (AVP_QUAL_CTL.PATTERN p)) (d.get (AVP_QUAL_CTL.DUR p)) ∈ ((d.qualified p).port p).link.blocks := by
  have hblock := blocks_queueBlock d p (.qualStart (d.get (AVP_QUAL_CTL.PATTERN p)) (d.get (AVP_QUAL_CTL.DUR p)))
  unfold qualified
  generalize d.queueBlock p _ = c at hblock ⊢
  obtain ⟨hrun, hsync⟩ := (c.countsCleared p).runStarted_status p
  obtain ⟨-, hapart⟩ := qualStat_clear p
  have hkept := (c.countsCleared p).runStarted_touches p
  have hport : (((c.countsCleared p).runStarted p).port p) = c.port p := by
    rw [runStarted, port_put, port_set1, countsCleared_port]
  have hcounts := c.countsCleared_get64 p
  generalize (c.countsCleared p).runStarted p = g at *
  refine ⟨by rw [setLink_is]; exact hrun, by rw [setLink_get]; exact hsync, fun l => ?_, ?_⟩
  · obtain ⟨herr, hbits⟩ := hcounts l
    rw [setLink_get64, setLink_get64]
    exact ⟨(hkept.get64 fun f hf => (hapart l f hf).1).trans herr, (hkept.get64 fun f hf => (hapart l f hf).2).trans hbits⟩
  · rw [link_setLink, hport]
    exact hblock

theorem qualifyStart_moves (h : d.portUp p = true) : d.qualifyStart p = (d.qualified p).setState p 6 := by
  unfold qualifyStart qualified stQualify
  exact if_neg (by simp [h])

/-- QUAL in UP and DEGRADED. -/
theorem qualifyStart_starts (h : d.portUp p = true) : ∃ e l, d.qualifyStart p = e ∧ e.portState p = 6 ∧ e.is (AVP_QUAL_STAT.RUN p) = true
    ∧ e.get (AVP_QUAL_STAT.SYNC p) = 0 ∧ (∀ l : Fin 4, e.get64 (AVP_QUAL_ERR.addr p l) = 0 ∧ e.get64 (AVP_QUAL_BITS.addr p l) = 0)
    ∧ .qualStart (d.get (AVP_QUAL_CTL.PATTERN p)) (d.get (AVP_QUAL_CTL.DUR p)) ∈ (e.port p).link.blocks
    ∧ e.is (AVP_FLAGS.STATE_CHG p) = true
    ∧ e.ntq.input = d.ntq.input ++ ⟨.event, idAVP p, 0x010, word (d.portState p * 16 + 6), d.time⟩ :: l ∧ Frame (OnPage p) d e := by
  obtain ⟨hstate, -, hpage⟩ := qualFields_clear p
  obtain ⟨hrun, hsync, hcounts, hblock⟩ := d.qualified_values p
  have htouch := d.qualified_touches p
  have hntq := d.qualified_ntq p
  rw [qualifyStart_moves d p h]
  generalize d.qualified p = c at *
  have hne : c.portState p ≠ 6 := by rw [htouch.portState hstate]; intro h6; simp [Dev.portUp, h6] at h
  have hentered := setState_entered (s := 6) p hne (by omega)
  obtain ⟨l, hl, -⟩ := hentered.told
  rw [hntq, htouch.portState hstate, htouch.time] at hl
  have hlane : ∀ l : Fin 4, AVP_QUAL_ERR.addr p l ∈ keptPairs p ∧ AVP_QUAL_BITS.addr p l ∈ keptPairs p := fun l => by
    have hmem := List.mem_range.2 l.isLt
    exact ⟨List.mem_append_right _ (List.mem_flatMap_of_mem hmem (by simp)), List.mem_append_right _ (List.mem_flatMap_of_mem hmem (by simp))⟩
  refine ⟨_, l, rfl, hentered.state, (hentered.is (by simp [keptFields])).trans hrun, (hentered.get (by simp [keptFields])).trans hsync, fun l => ?_, ?_,
    hentered.changed, hl, (htouch.toFrame hpage).trans hentered.frame⟩
  · exact ⟨(hentered.get64 (hlane l).1).trans (hcounts l).1, (hentered.get64 (hlane l).2).trans (hcounts l).2⟩
  · rw [hentered.link]; exact hblock

theorem qualifyStart_refused (h : d.portUp p = false) : d.qualifyStart p = d.set1 (AVP_FLAGS.BAD_STATE p) := by
  unfold qualifyStart
  exact if_pos (by simp [h])

/-! ### BITSLIP (R110) -/

section
variable (l : Fin 4)

theorem bitslip_moves (h : d.portState p = 2) (hmode : d.is (AVP_PORT_CTL.SLIP_MODE p) = true) :
    ∃ e, d.bitslip p l = e ∧ e.is (AVP_LANE_STAT.LOCK p l) = false
      ∧ (e.port p).link = { (d.port p).link with boundary := Tab.upd (fun _ => 0) (d.port p).link.boundary l fun b => (b + 1) % 66 }
      ∧ Frame (· = AVP_LANE_STAT.addr p l) d e := by
  have hunset : (d.unset (AVP_LANE_STAT.LOCK p l)).is (AVP_LANE_STAT.LOCK p l) = false := is_unset_same d _ (Nat.le_of_ble_eq_true rfl)
  have hport : (d.unset (AVP_LANE_STAT.LOCK p l)).port p = d.port p := port_unset d _ _
  have hframe := (Frame.refl (· = AVP_LANE_STAT.addr p l) d).unset (f := AVP_LANE_STAT.LOCK p l) rfl
  unfold bitslip
  rw [if_pos (by simp [stSlip, h, hmode])]
  generalize d.unset (AVP_LANE_STAT.LOCK p l) = c at *
  exact ⟨_, rfl, (setLink_is c _ _ _).trans hunset, by rw [link_setLink, hport], hframe.setLink _ _⟩

theorem bitslip_refused (h : d.portState p ≠ 2 ∨ d.is (AVP_PORT_CTL.SLIP_MODE p) = false) : d.bitslip p l = d.set1 (AVP_FLAGS.BAD_STATE p) := by
  unfold bitslip
  exact if_neg (by rcases h with h | h <;> simp [stSlip, h])

end

end
end Dev

/-! ### The commands -/

/-- The registers of the fields that an enabling changes. -/
theorem enableFields_regs (p : Fin 16) : ∀ f ∈ AVP_PORT_CTL.EN p :: Dev.movedFields p 1, f.off = AVP_PORT_CTL.addr p ∨ f.off = AVP_PORT_STAT.addr p
    ∨ f.off = AVP_FLAGS.addr p ∨ ∃ l : Fin 4, f.off = AVP_LANE_STAT.addr p l := by revert p; decide

section
variable {s : State} (hs : s.Ready) (r : Requester) (p : Fin 16)
include hs

/-- A command that only sets BAD_STATE. -/
theorem State.refusal {i : Instr} {f : Dev → Dev} {g : Bits} (hexec : exec i s = s.run f)
    (hf : f s.dev = (s.dev.pressed g).set1 (AVP_FLAGS.BAD_STATE p)) :
    ∃ t, exec i s = .next t ∧ t.dev.is (AVP_FLAGS.BAD_STATE p) = true ∧ t.dev.port p = s.dev.port p ∧ s.Keeps t (· = AVP_FLAGS.addr p) := by
  have hframe : Dev.Frame (· = AVP_FLAGS.addr p) s.dev (s.dev.pressed g) := (s.dev.pressed_touches g).toFrame (List.forall_mem_nil _)
  have hport := s.dev.pressed_port g p
  generalize s.dev.pressed g = c at *
  have hset := Dev.is_set1_same c (AVP_FLAGS.BAD_STATE p) rfl (Nat.le_of_ble_eq_true rfl)
  have hport' := (Dev.port_set1 c (AVP_FLAGS.BAD_STATE p) p).trans hport
  have hframe' := hframe.set1 (f := AVP_FLAGS.BAD_STATE p) rfl
  generalize c.set1 (AVP_FLAGS.BAD_STATE p) = e at *
  exact ⟨_, State.answers_run hs hexec hf, hset, hport', hframe'.keeps hs.2.2⟩

end

/-- Settles O9: each write lands on the port's control register, whose action is one change of the port's state, or only a flag. -/
theorem portControl : Obligations.PortControl := by
  intro s r p hs
  have hpressed : ∀ g : Bits, (s.dev.pressed g).portState p = s.dev.portState p := fun g => s.dev.pressed_portState g p
  have hframe : ∀ (g : Bits) (P : Nat → Prop), Dev.Frame P s.dev (s.dev.pressed g) := fun g P =>
    (s.dev.pressed_touches g).toFrame (List.forall_mem_nil _)
  refine ⟨fun h => ⟨?_, fun hen hdown => ?_, fun hen hdown => ?_, fun h0 h8 => ?_, fun h08 => ?_, fun hup => ?_, fun hdown => ?_⟩,
    fun l h => ⟨fun hslip hmode => ?_, fun hslip => ?_⟩⟩
  · rintro c (⟨hen, rfl⟩ | ⟨hen, rfl⟩)
    · obtain ⟨e, he, hport, hntq, hf⟩ := s.dev.fieldWrite_en_held p r h true hen
      exact ⟨_, State.answers_run hs (f := (·.fieldWrite r (AVP_PORT_CTL.EN p) 1)) rfl he, hport, hntq, hf.keeps hs.2.2⟩
    · obtain ⟨e, he, hport, hntq, hf⟩ := s.dev.fieldWrite_en_held p r h false hen
      exact ⟨_, State.answers_run hs (f := (·.fieldWrite r (AVP_PORT_CTL.EN p) 0)) rfl he, hport, hntq, hf.keeps hs.2.2⟩
  · obtain ⟨e, he, hen', hstate, hrun, hhold, hattempt, hchg, htold, htouch⟩ := s.dev.fieldWrite_en_set p r h hen hdown
    exact ⟨_, State.answers_run hs (f := (·.fieldWrite r (AVP_PORT_CTL.EN p) 1)) rfl he, hen', hstate, hrun, hhold, hattempt, hchg, htold,
      (htouch.toFrame (enableFields_regs p)).keeps hs.2.2⟩
  · obtain ⟨e, l, he, hfacts⟩ := s.dev.fieldWrite_en_clear p r h hen hdown
    obtain ⟨hen', hstate, hrun, hattempt, hblocks, hhold, hdegrade, hqual, hchg, htold, hquiet, hf⟩ := hfacts
    exact ⟨_, l, State.answers_run hs (f := (·.fieldWrite r (AVP_PORT_CTL.EN p) 0)) rfl he, hen', hstate, hrun, hattempt, hblocks, hhold, hdegrade,
      hqual, hchg, htold, hquiet, hf.keeps hs.2.2⟩
  · obtain ⟨e, l, he, hfacts⟩ := (s.dev.pressed (AVP_PORT_CTL.RETRAIN p)).portRetrain_seeks p (by rwa [hpressed]) (by rwa [hpressed])
    rw [hpressed, Dev.pressed_get, Dev.pressed_portUp, Dev.pressed_ntq, Dev.pressed_time] at hfacts
    obtain ⟨hstate, hceiling, hblock, hattempt, hhold, hfails, htold, hchg, hquiet, hf⟩ := hfacts
    exact ⟨_, l, State.answers_run hs (f := (·.press r (AVP_PORT_CTL.RETRAIN p))) rfl ((s.dev.press_retrain r p h).trans he), hstate, hceiling,
      hblock, hattempt, hhold, hfails, htold, hchg, hquiet, ((hframe _ _).trans hf).keeps hs.2.2⟩
  · have hrefused := Dev.portRetrain_refused (s.dev.pressed (AVP_PORT_CTL.RETRAIN p)) p (by rwa [hpressed])
    exact State.refusal hs p (f := (·.press r (AVP_PORT_CTL.RETRAIN p))) rfl ((s.dev.press_retrain r p h).trans hrefused)
  · have hup' : (s.dev.pressed (AVP_PORT_CTL.QUAL p)).portUp p = true := by
      rw [Dev.pressed_portUp, Dev.portUp]
      simpa using hup
    obtain ⟨e, l, he, hfacts⟩ := Dev.qualifyStart_starts _ p hup'
    rw [hpressed, Dev.pressed_get, Dev.pressed_get, Dev.pressed_ntq, Dev.pressed_time] at hfacts
    obtain ⟨hstate, hrun, hsync, hcounts, hblock, hchg, htold, hf⟩ := hfacts
    exact ⟨_, l, State.answers_run hs (f := (·.press r (AVP_PORT_CTL.QUAL p))) rfl ((s.dev.press_qual r p h).trans he), hstate, hrun, hsync, hcounts,
      hblock, hchg, htold, ((hframe _ _).trans hf).keeps hs.2.2⟩
  · have hrefused := Dev.qualifyStart_refused (s.dev.pressed (AVP_PORT_CTL.QUAL p)) p (by rwa [Dev.pressed_portUp])
    exact State.refusal hs p (f := (·.press r (AVP_PORT_CTL.QUAL p))) rfl ((s.dev.press_qual r p h).trans hrefused)
  · obtain ⟨e, he, hlock, hlink, hf⟩ := (s.dev.pressed (AVP_LANE_CTL.BITSLIP p l)).bitslip_moves p l (by rwa [hpressed]) (by rwa [Dev.pressed_is])
    rw [Dev.pressed_port] at hlink
    exact ⟨_, State.answers_run hs (f := (·.press r (AVP_LANE_CTL.BITSLIP p l))) rfl ((s.dev.press_bitslip r p l h).trans he), hlock, hlink,
      ((hframe _ _).trans hf).keeps hs.2.2⟩
  · have hrefused := Dev.bitslip_refused (s.dev.pressed (AVP_LANE_CTL.BITSLIP p l)) p l (by rwa [hpressed, Dev.pressed_is])
    exact State.refusal hs p (f := (·.press r (AVP_LANE_CTL.BITSLIP p l))) rfl ((s.dev.press_bitslip r p l h).trans hrefused)

end Sys2Proof.Machine
end


section
/-! SUPPORT. Failed attempts, offers, losses of ULC and lasting faults of a port (R113, R114, R116, R122, R132, R417). -/

open Sys2Proof Sys2Proof.Machine

namespace Sys2Proof.Machine
namespace Dev

/-! ### Failed attempts (R114, R116) -/

/-- The hold that follows the `n`th failure in a row. -/
def holdFor (n : Nat) : Nat := if 100 ≤ n then ms 1000 else ms 10

section
variable (d : Dev) (p : Fin 16) (reason t0 : Nat)

/-- A failure counted, for a reason other than 5. -/
def failNoted : Dev :=
  (((d.put (AVP_ATTEMPT.FAILS p) (Nat.min 0xFFFF ((d.port p).link.fails + 1))).put (AVP_ATTEMPT.LAST_REASON p) reason).setLink p fun l =>
    { l with fails := (d.port p).link.fails + 1 }).set1 (AVP_FLAGS.ATTEMPT_FAIL p)

/-- And told, the first time and each hundredth. -/
def failCounted : Dev :=
  (d.failNoted p reason).when ((d.port p).link.fails + 1 = 1 || ((d.port p).link.fails + 1) % 100 = 0)
    (·.notice .alert (idAVP p) 0x012 (reason * 2 ^ 16 + Nat.min 0xFFFF ((d.port p).link.fails + 1)))

/-- A port as a failure leaves it before it goes to SEEK. -/
def attemptFailed : Dev :=
  ((d.failCounted p reason).queueBlock p .retrain).setLink p fun l => { l with
    attempt := none, kind := .fresh, hold := some (t0 + holdFor ((d.port p).link.fails + 1)), degrade := none }

theorem failAttempt_moves (h5 : reason ≠ 5) : d.failAttempt p reason t0 false = (d.attemptFailed p reason t0).setState p 1 := by
  unfold failAttempt
  extract_lets switch cause n fails noted marked told ceiling left
  have hceiling : ceiling = told := if_neg (by simpa [cause] using h5)
  unfold left
  rw [hceiling]
  rfl

/-- The fields of a failure, but for those of the state. -/
def failFields : List Bits := [AVP_ATTEMPT.FAILS p, AVP_ATTEMPT.LAST_REASON p, AVP_FLAGS.ATTEMPT_FAIL p]

theorem failFields_clear : Clear (failFields p) (AVP_PORT_STAT.STATE p) ∧ (∀ f ∈ failFields p, OnPage p f.off)
    ∧ Clear [AVP_ATTEMPT.LAST_REASON p, AVP_FLAGS.ATTEMPT_FAIL p] (AVP_ATTEMPT.FAILS p)
    ∧ Clear [AVP_FLAGS.ATTEMPT_FAIL p] (AVP_ATTEMPT.LAST_REASON p) := by revert p; decide

theorem failNoted_touches : Touches (failFields p) d (d.failNoted p reason) := by
  have hfails := (Touches.refl (failFields p) d).put (f := AVP_ATTEMPT.FAILS p) (Nat.min 0xFFFF ((d.port p).link.fails + 1)) (by simp [failFields])
  have hreason := hfails.put (f := AVP_ATTEMPT.LAST_REASON p) reason (by simp [failFields])
  exact (hreason.setLink p _).set1 (f := AVP_FLAGS.ATTEMPT_FAIL p) (by simp [failFields])

theorem failNoted_link : ((d.failNoted p reason).port p).link = { (d.port p).link with fails := (d.port p).link.fails + 1 } := by
  rw [failNoted, port_set1, link_setLink, port_put, port_put]

theorem failNoted_values (hr : reason < 16) : (d.failNoted p reason).get (AVP_ATTEMPT.FAILS p) = Nat.min 0xFFFF ((d.port p).link.fails + 1)
    ∧ (d.failNoted p reason).get (AVP_ATTEMPT.LAST_REASON p) = reason := by
  obtain ⟨-, -, hfails, hreason⟩ := failFields_clear p
  unfold failNoted
  generalize (d.port p).link.fails + 1 = n
  have hput := get_put_same d (AVP_ATTEMPT.FAILS p) (Nat.min 0xFFFF n) (Nat.le_of_ble_eq_true rfl)
  have hlt : Nat.min 0xFFFF n < 2 ^ 16 := Nat.lt_of_le_of_lt (Nat.min_le_left _ _) (by decide)
  generalize d.put (AVP_ATTEMPT.FAILS p) (Nat.min 0xFFFF n) = c at *
  have hafter := (((Touches.refl [AVP_ATTEMPT.LAST_REASON p, AVP_FLAGS.ATTEMPT_FAIL p] c).put (f := AVP_ATTEMPT.LAST_REASON p) reason
    (List.mem_cons_self)).setLink p fun l => { l with fails := n }).set1 (f := AVP_FLAGS.ATTEMPT_FAIL p) (List.mem_cons_of_mem _ List.mem_cons_self)
  have hlast := ((Touches.refl [AVP_FLAGS.ATTEMPT_FAIL p] (c.put (AVP_ATTEMPT.LAST_REASON p) reason)).setLink p fun l =>
    { l with fails := n }).set1 (f := AVP_FLAGS.ATTEMPT_FAIL p) List.mem_cons_self
  exact ⟨(hafter.get hfails).trans (hput.trans (Nat.mod_eq_of_lt hlt)),
    (hlast.get hreason).trans ((get_put_same c _ reason (Nat.le_of_ble_eq_true rfl)).trans (Nat.mod_eq_of_lt hr))⟩

/-- A notice changes no register and no port. -/
theorem told_touches (b : Bool) (c : Cls) (id code arg : Nat) : Touches [] d (d.when b (·.notice c id code arg))
    ∧ (d.when b (·.notice c id code arg)).port p = d.port p := by
  cases b
  · exact ⟨.refl _ _, rfl⟩
  · exact ⟨(Touches.refl _ d).notice _ _ _ _, rfl⟩

/-- What a failed attempt comes to. -/
structure Failed (e : Dev) : Prop where
  state : e.portState p = 1
  fails : e.get (AVP_ATTEMPT.FAILS p) = Nat.min 0xFFFF ((d.port p).link.fails + 1)
  count : (e.port p).link.fails = (d.port p).link.fails + 1
  reason : e.get (AVP_ATTEMPT.LAST_REASON p) = reason
  block : .retrain ∈ (e.port p).link.blocks
  attempt : (e.port p).link.attempt = none
  hold : (e.port p).link.hold = some (t0 + holdFor ((d.port p).link.fails + 1))
  frame : Frame (OnPage p) d e

theorem failAttempt_failed (hr : reason < 16) (h5 : reason ≠ 5) (h1 : d.portState p ≠ 1) :
    Failed d p reason t0 (d.failAttempt p reason t0 false) := by
  obtain ⟨hstate, hpage, -, -⟩ := failFields_clear p
  obtain ⟨hfails, hreason⟩ := d.failNoted_values p reason hr
  have hnoted := d.failNoted_touches p reason
  have hlink := d.failNoted_link p reason
  rw [failAttempt_moves d p reason t0 h5, attemptFailed, failCounted]
  generalize d.failNoted p reason = b at *
  obtain ⟨htold, hport⟩ := b.told_touches p ((d.port p).link.fails + 1 = 1 || ((d.port p).link.fails + 1) % 100 = 0) .alert (idAVP p) 0x012
    (reason * 2 ^ 16 + Nat.min 0xFFFF ((d.port p).link.fails + 1))
  have htouch := hnoted.trans (htold.mono (List.nil_subset _))
  rw [← hport] at hlink
  rw [← htold.get (List.forall_mem_nil _)] at hfails hreason
  generalize b.when _ _ = c at *
  have hqueued := queueBlock_touches [] c p .retrain
  have hblock := blocks_queueBlock c p .retrain
  have hcount : ((c.queueBlock p .retrain).port p).link.fails = (d.port p).link.fails + 1 := by
    rw [queueBlock, link_setLink, hlink]
  generalize c.queueBlock p .retrain = q at *
  generalize hk : q.setLink p _ = g
  have hg : Touches [] c g := hk ▸ hqueued.setLink _ _
  have hglink : (g.port p).link = { (q.port p).link with
      attempt := none, kind := .fresh, hold := some (t0 + holdFor ((d.port p).link.fails + 1)), degrade := none } := by
    rw [← hk, link_setLink]
  have hall := htouch.trans (hg.mono (List.nil_subset _))
  have hentered := setState_entered (d := g) (s := 1) p (by rw [hall.portState hstate]; exact h1) (by omega)
  constructor
  case state => exact hentered.state
  case fails => exact (hentered.get (by simp [keptFields])).trans ((hg.get (List.forall_mem_nil _)).trans hfails)
  case reason => exact (hentered.get (by simp [keptFields])).trans ((hg.get (List.forall_mem_nil _)).trans hreason)
  case frame => exact (hall.toFrame hpage).trans hentered.frame
  all_goals rw [hentered.link, hglink]
  · exact hcount
  · exact hblock

end

/-! ### Offers (R113, R132) -/

section
variable (d : Dev) (p : Nat)

theorem offer_ready : ((d.offer p).port p).pk.ready = insertTx ⟨0x87, 0, d.capsBody p none⟩ (d.port p).pk.ready := by
  rw [offer, pk_setLink, sendCaps, sendPacket, pk_setPk_same]

theorem offer_link : ((d.offer p).port p).link = { (d.port p).link with offers := (d.port p).link.offers + 1, offerAt := d.time } := by
  rw [offer, link_setLink, sendCaps, sendPacket, link_setPk]


theorem offer_touches : Touches [] d (d.offer p) := by
  unfold offer sendCaps sendPacket
  exact ((Touches.refl _ d).setPk _ _).setLink _ _

theorem capsOfferTimeout_due (h4 : d.portState p = 4) (hdue : (d.port p).link.offerAt + us 50 ≤ d.time) :
    d.capsOfferTimeout p = if (d.port p).link.offers < 4 then d.offer p else d.failAttempt p 3 (d.attemptAt p) false := by
  unfold capsOfferTimeout stNegotiate
  simp only [h4, hdue, decide_true, Bool.and_true, when_true]

theorem attemptTimeout_due {at' : Nat} (h2 : 2 ≤ d.portState p) (h4 : d.portState p ≤ 4) (hat : (d.port p).link.attempt = some at')
    (hdue : at' + ms 5 ≤ d.time) : d.attemptTimeout p = d.failAttempt p 6 at' false := by
  unfold attemptTimeout
  rw [hat]
  simp only [h2, h4, hdue, decide_true, Bool.and_true, when_true]

theorem degradeAlignTimeout_due {mask n at' : Nat} {seen : List Nat} (hup : d.portUp p = true)
    (hdeg : (d.port p).link.degrade = some ⟨mask, n, some at', seen⟩) (hdue : at' + us 20 ≤ d.time) :
    d.degradeAlignTimeout p = d.failAttempt p 2 at' false := by
  unfold degradeAlignTimeout
  rw [hdeg]
  simp only [hup, hdue, decide_true, Bool.and_true, when_true]

end

/-! ### Loss of ULC (R113, R116) -/

section
variable (d : Dev) (p : Fin 16)

theorem restoreCeiling_touches : Touches [AVP_PORT_STAT.CEILING p] d (d.restoreCeiling p) :=
  (Touches.refl _ d).put (f := AVP_PORT_STAT.CEILING p) 3 (by simp)

theorem restoreCeiling_get : (d.restoreCeiling p).get (AVP_PORT_STAT.CEILING p) = 3 :=
  get_put_same d (AVP_PORT_STAT.CEILING p) 3 (Nat.le_of_ble_eq_true rfl)

theorem restoreCeiling_port : (d.restoreCeiling p).port p = d.port p := port_put _ _ _ _

theorem ceiling_clear : Clear [AVP_PORT_STAT.CEILING p] (AVP_PORT_STAT.STATE p) ∧ Clear [AVP_PORT_STAT.CEILING p] (AVP_ATTEMPT.FAILS p)
    ∧ Clear [AVP_PORT_STAT.CEILING p] (AVP_ATTEMPT.LAST_REASON p) ∧ ∀ f ∈ [AVP_PORT_STAT.CEILING p], OnPage p f.off := by revert p; decide

theorem restoreCeiling_portState : (d.restoreCeiling p).portState p = d.portState p := (d.restoreCeiling_touches p).portState (ceiling_clear p).1

variable {d p} in
/-- A failure stays one where the ceiling is restored before it and after it. -/
theorem Failed.restored {reason t0 : Nat} {e : Dev} (h : Failed (d.restoreCeiling p) p reason t0 e) : Failed d p reason t0 (e.restoreCeiling p) := by
  obtain ⟨hstate, hfails, hcount, hreason, hblock, hattempt, hhold, hframe⟩ := h
  obtain ⟨hcs, hcf, hcr, hpage⟩ := ceiling_clear p
  have htouch := e.restoreCeiling_touches p
  rw [restoreCeiling_port] at hfails hcount hhold
  constructor
  case state => exact (htouch.portState hcs).trans hstate
  case fails => exact (htouch.get hcf).trans hfails
  case reason => exact (htouch.get hcr).trans hreason
  case frame => exact (((d.restoreCeiling_touches p).toFrame hpage).trans hframe).trans (htouch.toFrame hpage)
  all_goals rw [restoreCeiling_port]; assumption

/-- ULC lost during an attempt. -/
theorem ulcLost_failed (h2 : 2 ≤ d.portState p) (h4 : d.portState p ≤ 4) :
    Failed d p 7 (d.attemptAt p) (d.ulcLost p) ∧ (d.ulcLost p).get (AVP_PORT_STAT.CEILING p) = 3 := by
  have hat : (d.restoreCeiling p).attemptAt p = d.attemptAt p := by
    rw [attemptAt, attemptAt, restoreCeiling_port, (d.restoreCeiling_touches p).time]
  have hlost : d.ulcLost p = ((d.restoreCeiling p).failAttempt p 7 (d.attemptAt p) false).restoreCeiling p := by
    rw [← hat]
    unfold ulcLost
    exact if_pos (by simp [h2, h4])
  have hfailed := (d.restoreCeiling p).failAttempt_failed p 7 (d.attemptAt p) (by omega) (by omega) (by rw [restoreCeiling_portState]; omega)
  rw [hlost]
  exact ⟨hfailed.restored, restoreCeiling_get _ p⟩

/-- ULC lost in a state below SLIP or in FAULT. -/
theorem ulcLost_idle (h : d.portState p < 2 ∨ 7 < d.portState p) : d.ulcLost p = d.restoreCeiling p := by
  have h24 : (decide (2 ≤ d.portState p) && decide (d.portState p ≤ 4)) = false := by rw [← Bool.decide_and]; exact decide_eq_false (by omega)
  have h57 : (decide (5 ≤ d.portState p) && decide (d.portState p ≤ 7)) = false := by rw [← Bool.decide_and]; exact decide_eq_false (by omega)
  unfold ulcLost
  exact (if_neg (by rw [h24]; exact Bool.false_ne_true)).trans (if_neg (by rw [h57]; exact Bool.false_ne_true))

/-- A port whose ULC is lost, before it goes to SEEK. -/
def lostHeld : Dev :=
  ((d.restoreCeiling p).setLink p fun l => { l with
    attempt := none, kind := .fresh, hold := some ((d.restoreCeiling p).time + ms 10), degrade := none }).unset (AVP_QUAL_STAT.RUN p)

theorem lostHeld_touches : Touches [AVP_PORT_STAT.CEILING p, AVP_QUAL_STAT.RUN p] d (d.lostHeld p) :=
  (((d.restoreCeiling_touches p).mono (by simp)).setLink p _).unset (f := AVP_QUAL_STAT.RUN p) (by simp)

theorem lostHeld_ceiling : (d.lostHeld p).get (AVP_PORT_STAT.CEILING p) = 3 := by
  have hget := d.restoreCeiling_get p
  unfold lostHeld
  generalize d.restoreCeiling p = c at *
  have hkept := ((Touches.refl [AVP_QUAL_STAT.RUN p] c).setLink p fun l => { l with
    attempt := none, kind := .fresh, hold := some (c.time + ms 10), degrade := none }).unset (f := AVP_QUAL_STAT.RUN p) List.mem_cons_self
  obtain ⟨-, -, hclear, -⟩ := retrained_clear p
  exact (hkept.get hclear).trans hget

/-- ULC lost in UP, DEGRADED and QUALIFY. -/
theorem ulcLost_seeks (h5 : 5 ≤ d.portState p) (h7 : d.portState p ≤ 7) : (d.ulcLost p).portState p = 1
    ∧ (d.ulcLost p).get (AVP_PORT_STAT.CEILING p) = 3 ∧ ((d.ulcLost p).port p).link.hold = some (d.time + ms 10)
    ∧ (d.ulcLost p).get (AVP_ATTEMPT.FAILS p) = d.get (AVP_ATTEMPT.FAILS p) ∧ Frame (OnPage p) d (d.ulcLost p) := by
  have h24 : (decide (2 ≤ d.portState p) && decide (d.portState p ≤ 4)) = false := by rw [← Bool.decide_and]; exact decide_eq_false (by omega)
  have hlost : d.ulcLost p = (d.lostHeld p).setState p 1 := by
    unfold ulcLost lostHeld stSeek
    exact (if_neg (by rw [h24]; exact Bool.false_ne_true)).trans (if_pos (by simp [h5, h7]))
  obtain ⟨hstate, hfails, -, hpage⟩ := retrained_clear p
  have htouch := d.lostHeld_touches p
  have hceiling := d.lostHeld_ceiling p
  have hhold : ((d.lostHeld p).port p).link.hold = some (d.time + ms 10) := by
    rw [lostHeld, port_unset, link_setLink, (d.restoreCeiling_touches p).time]
  rw [hlost]
  generalize d.lostHeld p = c at *
  have hentered := setState_entered (d := c) (s := 1) p (by rw [htouch.portState hstate]; omega) (by omega)
  exact ⟨hentered.state, (hentered.get (by simp [keptFields])).trans hceiling, by rw [hentered.link]; exact hhold,
    (hentered.get (by simp [keptFields])).trans (htouch.get hfails), (htouch.toFrame hpage).trans hentered.frame⟩

/-- The ceiling is restored in every state. -/
theorem ulcLost_ceiling : (d.ulcLost p).get (AVP_PORT_STAT.CEILING p) = 3 := by
  rcases Nat.lt_or_ge (d.portState p) 2 with h2 | h2
  · rw [ulcLost_idle d p (.inl h2)]; exact d.restoreCeiling_get p
  · rcases Nat.lt_or_ge (d.portState p) 5 with h5 | h5
    · exact (d.ulcLost_failed p h2 (by omega)).2
    · rcases Nat.lt_or_ge 7 (d.portState p) with h7 | h7
      · rw [ulcLost_idle d p (.inr h7)]; exact d.restoreCeiling_get p
      · obtain ⟨-, hceiling, -⟩ := d.ulcLost_seeks p h5 h7
        exact hceiling

/-! ### Lasting faults (R116, R417) -/

theorem runStopped_touches : Touches [AVP_QUAL_STAT.RUN p] d (d.unset (AVP_QUAL_STAT.RUN p)) :=
  (Touches.refl _ d).unset (f := AVP_QUAL_STAT.RUN p) List.mem_cons_self

theorem run_clear : Clear [AVP_QUAL_STAT.RUN p] (AVP_PORT_STAT.STATE p) ∧ ∀ f ∈ [AVP_QUAL_STAT.RUN p], OnPage p f.off := by
  revert p; decide

/-- A fault told, and logged where it is not a PLL's. -/
def faultTold (cause : Nat) : Dev := (d.notice .fault (idAVP p) 0x016 cause).when (cause != 2) (·.faultLog (idAVP p) none 0 0)

theorem faultTold_input (cause : Nat) : ∃ arg, (d.faultTold p cause).ntq.input = d.ntq.input ++ ⟨.fault, idAVP p, 0x016, word cause, d.time⟩
    :: (if cause = 2 then [] else [⟨.info, idMGT, 0x020, arg, d.time⟩]) := by
  by_cases h : cause = 2
  · refine ⟨0, ?_⟩
    rw [faultTold, show (cause != 2) = false by simp [h], when_false, notice_input, if_pos h]
  · obtain ⟨arg, -, hinput, -⟩ := (d.notice .fault (idAVP p) 0x016 cause).faultLog_none (idAVP p) 0 0
    refine ⟨arg, ?_⟩
    rw [faultTold, show (cause != 2) = true by simpa using h, when_true, hinput, notice_input, if_neg h, List.append_assoc]
    rfl

theorem port_setMgt (f : MgtState → MgtState) (q : Nat) : (d.setMgt f).port q = d.port q := rfl
theorem port_draw (q : Nat) : d.draw.port q = d.port q := rfl

theorem port_faultLog (block : Nat) (action : Option Nat) (unit arg q : Nat) : (d.faultLog block action unit arg).port q = d.port q := by
  unfold faultLog
  extract_lets a drawn m record logged
  rw [port_notice, port_setMgt]
  unfold drawn
  split
  · exact port_draw d q
  · rfl

theorem faultTold_port (cause : Nat) : (d.faultTold p cause).port p = d.port p := by
  unfold faultTold when
  split
  · rw [port_faultLog, port_notice]
  · rfl

theorem faultTold_frame (P : Nat → Prop) (cause : Nat) : Frame P d (d.faultTold p cause) :=
  have htold := (Frame.refl P d).notice .fault (idAVP p) 0x016 cause
  htold.when' _ _ fun _ => htold.faultLog _ _ _ _

theorem portFault_faults (cause : Nat) (h0 : d.portState p ≠ 0) (h8 : d.portState p ≠ 8) :
    ∃ e l, d.portFault p cause = e ∧ e.portState p = 8 ∧ (e.port p).link.running = false
      ∧ (∃ arg, e.ntq.input = d.ntq.input ++ l ++ ⟨.fault, idAVP p, 0x016, word cause, d.time⟩
        :: (if cause = 2 then [] else [⟨.info, idMGT, 0x020, arg, d.time⟩])) ∧ Frame (OnPage p) d e := by
  have hfault : d.portFault p cause = ((((d.unset (AVP_QUAL_STAT.RUN p)).setState p 8).setLink p fun l => { l with
      running := false, attempt := none, kind := .fresh, hold := none, degrade := none, blocks := [] }).faultTold p cause) := by
    unfold portFault faultTold stFault
    rw [if_neg (by simp [stDown, h0, h8])]
  obtain ⟨hstate, hpage⟩ := run_clear p
  have htouch := d.runStopped_touches p
  have hntq := unset_ntq d (AVP_QUAL_STAT.RUN p)
  rw [hfault]
  generalize d.unset (AVP_QUAL_STAT.RUN p) = c at *
  have hentered := setState_entered (d := c) (s := 8) p (by rw [htouch.portState hstate]; exact h8) (by omega)
  obtain ⟨l, hl, -⟩ := hentered.told
  rw [hntq] at hl
  generalize c.setState p 8 = g at *
  generalize hk : g.setLink p _ = k
  have hrun : (k.port p).link.running = false := by rw [← hk, link_setLink]
  have hframe : Frame (OnPage p) d k := hk ▸ ((htouch.toFrame hpage).trans hentered.frame).setLink p _
  have hstate' : k.portState p = 8 := hk ▸ (setLink_get g p _ _).trans hentered.state
  have hinput : k.ntq.input = g.ntq.input := hk ▸ congrArg NtqState.input (setLink_ntq g p _)
  obtain ⟨arg, harg⟩ := k.faultTold_input p cause
  refine ⟨_, ⟨.event, idAVP p, 0x010, word (c.portState p * 16 + 8), c.time⟩ :: l, rfl, ?_, ?_, ⟨arg, ?_⟩,
    hframe.trans (k.faultTold_frame p _ cause)⟩
  · exact ((k.faultTold_frame p (fun _ => False) cause).get id).trans hstate'
  · rw [faultTold_port]; exact hrun
  · obtain ⟨-, htime, -⟩ := hframe
    rw [harg, htime, hinput, hl]

end
end Dev

theorem ulcRateBad_clear (p : Fin 16) : Dev.Clear [AVP_FLAGS.ULC_RATE_BAD p] (AVP_PORT_STAT.STATE p) := by revert p; decide

/-- Settles O11: what each cause makes of the attempt, and what a loss of ULC and a lasting fault make of the port. -/
theorem portFailures : Obligations.PortFailures := by
  intro s p hs k fails failed
  have hfailed : ∀ (c : Instr) (f : Dev → Dev) (reason at' : Nat), exec c s = s.run f → Dev.Failed s.dev p reason at' (f s.dev) →
      failed c reason at' := by
    rintro c f reason at' hexec hf
    generalize he : f s.dev = e at hf
    obtain ⟨hstate, hcount, hfails, hreason, hblock, hattempt, hhold, hframe⟩ := hf
    exact ⟨_, State.answers_run hs hexec he, hstate, hcount, hfails, hreason, hblock, hattempt, hhold, hframe.keeps hs.2.2⟩
  refine ⟨fun h4 hdue hfew => ?_, fun h4 hdue hmany => ?_, fun at' h2 h4 hat hdue => ?_, fun mask n at' seen hup hdeg hdue => ?_, fun h2 h4 => ?_,
    ?_, fun h5 h7 => ?_, fun at' hhold hdue => ?_, fun h1 hhold => ?_, fun cause h0 h8 => ?_⟩
  · have hready := s.dev.offer_ready p
    have hlink := s.dev.offer_link p
    have htouch := s.dev.offer_touches p
    have hrun := (s.dev.capsOfferTimeout_due p h4 hdue).trans (if_pos hfew)
    generalize s.dev.offer p = e at *
    exact ⟨_, State.answers_run hs (f := (·.capsOfferTimeout p)) rfl hrun, hready, hlink, (htouch.toFrame (List.forall_mem_nil _)).keeps hs.2.2⟩
  · refine hfailed _ (·.capsOfferTimeout p) _ _ rfl ?_
    rw [s.dev.capsOfferTimeout_due p h4 hdue, if_neg (Nat.not_lt.2 hmany)]
    exact s.dev.failAttempt_failed p 3 _ (by omega) (by omega) (by omega)
  · refine hfailed _ (·.attemptTimeout p) _ _ rfl ?_
    rw [s.dev.attemptTimeout_due p h2 h4 hat hdue]
    exact s.dev.failAttempt_failed p 6 _ (by omega) (by omega) (by omega)
  · refine hfailed _ (·.degradeAlignTimeout p) _ _ rfl ?_
    rw [s.dev.degradeAlignTimeout_due p hup hdeg hdue]
    refine s.dev.failAttempt_failed p 2 _ (by omega) (by omega) fun h1 => ?_
    simp [Dev.portUp, h1] at hup
  · exact hfailed _ (·.ulcLost p) _ _ rfl (s.dev.ulcLost_failed p h2 h4).1
  · have hceiling := s.dev.ulcLost_ceiling p
    have hidle := s.dev.ulcLost_idle p
    have hport := s.dev.restoreCeiling_port p
    have hstate := s.dev.restoreCeiling_portState p
    have htouch := s.dev.restoreCeiling_touches p
    generalize he : s.dev.ulcLost p = e at *
    refine ⟨_, State.answers_run hs (f := (·.ulcLost p)) rfl he, hceiling, fun h => ?_⟩
    rw [← hidle h] at hport hstate htouch
    exact ⟨hport, hstate, (htouch.toFrame (by simp [AVP_PORT_STAT.CEILING])).keeps hs.2.2⟩
  · obtain ⟨hstate, hceiling, hhold, hfails, hframe⟩ := s.dev.ulcLost_seeks p h5 h7
    generalize he : s.dev.ulcLost p = e at *
    exact ⟨_, State.answers_run hs (f := (·.ulcLost p)) rfl he, hstate, hceiling, hhold, hfails, hframe.keeps hs.2.2⟩
  · have hrun : s.dev.seekHoldEnd p = s.dev.setLink p fun l => { l with hold := none, seekFrom := at' } := by
      unfold Dev.seekHoldEnd
      rw [hhold]
      exact if_pos (by simp [hdue])
    have hlink := Dev.link_setLink s.dev p fun l => { l with hold := none, seekFrom := at' }
    exact ⟨_, State.answers_run hs (f := (·.seekHoldEnd p)) rfl hrun, hlink, ((Dev.Frame.refl _ s.dev).other rfl rfl rfl rfl).keeps hs.2.2⟩
  · have hrun : s.dev.ulcWrongRate p = s.dev.set1 (AVP_FLAGS.ULC_RATE_BAD p) := by
      unfold Dev.ulcWrongRate
      exact if_pos (by simp [stSeek, h1, show (s.dev.port p).link.hold = none from hhold])
    have hset := Dev.is_set1_same s.dev (AVP_FLAGS.ULC_RATE_BAD p) rfl (Nat.le_of_ble_eq_true rfl)
    have htouch := (Dev.Touches.refl [AVP_FLAGS.ULC_RATE_BAD p] s.dev).set1 List.mem_cons_self
    have hstate := (htouch.portState (ulcRateBad_clear p)).trans h1
    generalize s.dev.set1 (AVP_FLAGS.ULC_RATE_BAD p) = e at *
    exact ⟨_, State.answers_run hs (f := (·.ulcWrongRate p)) rfl hrun, hset, hstate,
      (htouch.toFrame (by simp [AVP_FLAGS.ULC_RATE_BAD])).keeps hs.2.2⟩
  · obtain ⟨e, l, he, hstate, hrun, hinput, hframe⟩ := s.dev.portFault_faults p cause h0 h8
    exact ⟨_, l, State.answers_run hs (f := (·.portFault p cause)) rfl he, hstate, hrun, hinput, hframe.keeps hs.2.2⟩

end Sys2Proof.Machine
end


section
/-! SUPPORT. The lanes of a port, its PLLs and its equaliser (R98, R101, R105, R107-R110, R124). -/

open Sys2Proof Sys2Proof.Machine

namespace Sys2Proof.Machine
namespace Dev

/-! ### Lanes (R109, R110) -/

section
variable (d : Dev) (p : Fin 16) (l : Fin 4)

theorem lane_clear : Clear [AVP_LANE_STAT.EXCLUDED p l] (AVP_LANE_STAT.SIGNAL p l) ∧ Clear [AVP_LANE_STAT.SIGNAL p l] (AVP_LANE_STAT.LOCK p l)
    ∧ Clear [AVP_LANE_STAT.SIGNAL p l] (AVP_PORT_STAT.STATE p) := by revert p l; decide

theorem laneSignalLoss_flags : (d.laneSignalLoss p l).is (AVP_LANE_STAT.SIGNAL p l) = false
    ∧ (2 ≤ d.portState p → d.portState p ≤ 4 → (d.laneSignalLoss p l).is (AVP_LANE_STAT.EXCLUDED p l) = true)
    ∧ Frame (· = AVP_LANE_STAT.addr p l) d (d.laneSignalLoss p l) := by
  obtain ⟨hkept, -, hstate⟩ := lane_clear p l
  have hoff := is_unset_same d (AVP_LANE_STAT.SIGNAL p l) (Nat.le_of_ble_eq_true rfl)
  have hframe := (Frame.refl (· = AVP_LANE_STAT.addr p l) d).unset (f := AVP_LANE_STAT.SIGNAL p l) rfl
  unfold laneSignalLoss
  generalize d.unset (AVP_LANE_STAT.SIGNAL p l) = c at *
  have hset : Touches [AVP_LANE_STAT.EXCLUDED p l] c (c.when (2 ≤ d.portState p && d.portState p ≤ 4) (·.set1 (AVP_LANE_STAT.EXCLUDED p l))) :=
    (Touches.refl _ c).when' _ _ fun _ => (Touches.refl _ c).set1 List.mem_cons_self
  refine ⟨(hset.is hkept).trans hoff, fun h2 h4 => ?_, hframe.trans (hset.toFrame (by simp [AVP_LANE_STAT.EXCLUDED]))⟩
  rw [show (decide (2 ≤ d.portState p) && decide (d.portState p ≤ 4)) = true by simp [h2, h4], when_true]
  exact is_set1_same c (AVP_LANE_STAT.EXCLUDED p l) rfl (Nat.le_of_ble_eq_true rfl)

theorem blockLockGained_lock (h2 : 2 ≤ d.portState p) (h7 : d.portState p ≤ 7) (h6 : d.portState p ≠ 6) :
    (d.blockLockGained p l).is (AVP_LANE_STAT.LOCK p l) = true ∧ Frame (· = AVP_LANE_STAT.addr p l) d (d.blockLockGained p l) := by
  obtain ⟨-, hkept, -⟩ := lane_clear p l
  have hgain : d.blockLockGained p l = (d.set1 (AVP_LANE_STAT.LOCK p l)).set1 (AVP_LANE_STAT.SIGNAL p l) := by
    unfold blockLockGained
    exact if_pos (by simp [stQualify, h2, h7, h6])
  have hlock := is_set1_same d (AVP_LANE_STAT.LOCK p l) rfl (Nat.le_of_ble_eq_true rfl)
  have hframe := (Frame.refl (· = AVP_LANE_STAT.addr p l) d).set1 (f := AVP_LANE_STAT.LOCK p l) rfl
  rw [hgain]
  generalize d.set1 (AVP_LANE_STAT.LOCK p l) = c at *
  exact ⟨(((Touches.refl [AVP_LANE_STAT.SIGNAL p l] c).set1 List.mem_cons_self).is hkept).trans hlock,
    hframe.set1 (f := AVP_LANE_STAT.SIGNAL p l) rfl⟩

theorem headerError_counts (hlock : d.is (AVP_LANE_STAT.LOCK p l) = true) (h6 : d.portState p ≠ 6) :
    (d.headerError p l).get64 (AVP_HDR_ERR_CNT.addr p l) = (d.get64 (AVP_HDR_ERR_CNT.addr p l) + 1) % 2 ^ 64
      ∧ Tab.get (fun _ => 0) (d.headerError p l).mgt.transients (idAVP p) = Tab.get (fun _ => 0) d.mgt.transients (idAVP p) + 1
      ∧ Frame (fun a => a = AVP_HDR_ERR_CNT.addr p l ∨ a = AVP_HDR_ERR_CNT.addr p l + 4) d (d.headerError p l) := by
  have herr : d.headerError p l = (d.count (AVP_HDR_ERR_CNT.addr p l)).transient (idAVP p) := by
    unfold headerError
    exact if_pos (by simp [stQualify, hlock, h6])
  have hcount := get64_count_same d (AVP_HDR_ERR_CNT.addr p l)
  have hmgt := count_mgt d (AVP_HDR_ERR_CNT.addr p l)
  have hframe := (Frame.refl (fun a => a = AVP_HDR_ERR_CNT.addr p l ∨ a = AVP_HDR_ERR_CNT.addr p l + 4) d).count (.inl rfl) (.inr rfl)
  rw [herr, transient]
  generalize d.count (AVP_HDR_ERR_CNT.addr p l) = c at *
  refine ⟨(setMgt_get64 c _ _).trans hcount, ?_, hframe.setMgt _⟩
  rw [setMgt_mgt, Tab.get_upd_same, hmgt]

/-- A lane that has lost lock, its port told. -/
def lockLost : Dev := ((d.unset (AVP_LANE_STAT.LOCK p l)).count (AVP_LOCK_LOSS_CNT.addr p)).set1 (AVP_FLAGS.LOCK_LOST p)

/-- The fields of a loss of lock. -/
def lossFields : List Bits := [AVP_LANE_STAT.LOCK p l, AVP_FLAGS.LOCK_LOST p] ++ pair (AVP_LOCK_LOSS_CNT.addr p)

theorem lossFields_clear : Clear (lossFields p l) (AVP_PORT_STAT.STATE p) ∧ Clear (lossFields p l) (AVP_PORT_STAT.MASK p)
    ∧ (∀ j : Fin 4, j ≠ l → Clear (lossFields p l) (AVP_LANE_STAT.LOCK p j))
    ∧ (∀ f ∈ lossFields p l, f.off ≠ AVP_DEGRADE_CNT.addr p ∧ f.off ≠ AVP_DEGRADE_CNT.addr p + 4)
    ∧ (∀ f ∈ lossFields p l, OnPage p f.off)
    ∧ (∀ f ∈ lossFields p l, f.off = AVP_LANE_STAT.addr p l ∨ f.off = AVP_LOCK_LOSS_CNT.addr p ∨ f.off = AVP_LOCK_LOSS_CNT.addr p + 4
      ∨ f.off = AVP_FLAGS.addr p)
    ∧ Clear (AVP_FLAGS.LOCK_LOST p :: pair (AVP_LOCK_LOSS_CNT.addr p)) (AVP_LANE_STAT.LOCK p l)
    ∧ ∀ f ∈ [AVP_LANE_STAT.LOCK p l, AVP_FLAGS.LOCK_LOST p], f.off ≠ AVP_LOCK_LOSS_CNT.addr p ∧ f.off ≠ AVP_LOCK_LOSS_CNT.addr p + 4 := by
  revert p l; decide

theorem lockLost_touches : Touches (lossFields p l) d (d.lockLost p l) :=
  (((Touches.refl _ d).unset (f := AVP_LANE_STAT.LOCK p l) (List.mem_append_left _ List.mem_cons_self)).count (a := AVP_LOCK_LOSS_CNT.addr p)
    (List.subset_append_right _ _)).set1 (f := AVP_FLAGS.LOCK_LOST p)
    (List.mem_append_left _ (List.mem_cons_of_mem _ List.mem_cons_self))

theorem lockLost_values : (d.lockLost p l).is (AVP_LANE_STAT.LOCK p l) = false ∧ (d.lockLost p l).is (AVP_FLAGS.LOCK_LOST p) = true
    ∧ (d.lockLost p l).get64 (AVP_LOCK_LOSS_CNT.addr p) = (d.get64 (AVP_LOCK_LOSS_CNT.addr p) + 1) % 2 ^ 64 := by
  obtain ⟨-, -, -, -, -, -, hlock, hcount⟩ := lossFields_clear p l
  have hoff := is_unset_same d (AVP_LANE_STAT.LOCK p l) (Nat.le_of_ble_eq_true rfl)
  have hunset := (Touches.refl [AVP_LANE_STAT.LOCK p l, AVP_FLAGS.LOCK_LOST p] d).unset (f := AVP_LANE_STAT.LOCK p l) List.mem_cons_self
  unfold lockLost
  generalize d.unset (AVP_LANE_STAT.LOCK p l) = c at *
  have hafter := ((Touches.refl (AVP_FLAGS.LOCK_LOST p :: pair (AVP_LOCK_LOSS_CNT.addr p)) c).count (a := AVP_LOCK_LOSS_CNT.addr p)
    (List.subset_cons_self _ _)).set1 (f := AVP_FLAGS.LOCK_LOST p) List.mem_cons_self
  have hset := (Touches.refl [AVP_LANE_STAT.LOCK p l, AVP_FLAGS.LOCK_LOST p] (c.count (AVP_LOCK_LOSS_CNT.addr p))).set1 (f := AVP_FLAGS.LOCK_LOST p)
    (by simp)
  exact ⟨(hafter.is hlock).trans hoff, is_set1_same _ (AVP_FLAGS.LOCK_LOST p) rfl (Nat.le_of_ble_eq_true rfl),
    (hset.get64 hcount).trans ((get64_count_same c _).trans (by rw [hunset.get64 hcount]))⟩

/-- Block lock lost on a port that is neither UP nor DEGRADED. -/
theorem blockLockLost_down (hlock : d.is (AVP_LANE_STAT.LOCK p l) = true) (h6 : d.portState p ≠ 6) (hup : d.portUp p = false) :
    d.blockLockLost p l = d.lockLost p l := by
  obtain ⟨hstate, -⟩ := lossFields_clear p l
  have hup' : (d.lockLost p l).portUp p = false := ((d.lockLost_touches p l).portUp hstate).trans hup
  unfold blockLockLost
  refine (if_pos (by simp [stQualify, hlock, h6])).trans (if_neg ?_)
  rw [lockLost] at hup'
  rw [hup']
  exact Bool.false_ne_true

/-- Block lock lost on a lane in use of a port that is UP or DEGRADED. -/
theorem blockLockLost_up {left : List Nat} (hlock : d.is (AVP_LANE_STAT.LOCK p l) = true) (hup : d.portUp p = true)
    (hbit : bit (d.get (AVP_PORT_STAT.MASK p)) l = true)
    (hleft : ((lanesOf ((d.lockLost p l).get (AVP_PORT_STAT.MASK p))).filter fun i => (d.lockLost p l).is (AVP_LANE_STAT.LOCK p i)) = left)
    (hsome : left ≠ []) : d.blockLockLost p l = (d.lockLost p l).laneDegrade p l left := by
  obtain ⟨hstate, hmask, -⟩ := lossFields_clear p l
  have h6 : d.portState p ≠ 6 := fun h6 => by simp [portUp, h6] at hup
  have hup' : (d.lockLost p l).portUp p = true := ((d.lockLost_touches p l).portUp hstate).trans hup
  have hmask' : (d.lockLost p l).get (AVP_PORT_STAT.MASK p) = d.get (AVP_PORT_STAT.MASK p) := (d.lockLost_touches p l).get hmask
  subst hleft
  unfold blockLockLost
  refine (if_pos (by simp [stQualify, hlock, h6])).trans ((if_pos ?_).trans (if_neg ?_))
  · rw [lockLost] at hup' hmask'
    rw [hup', hmask', hbit]; rfl
  · exact fun he => hsome (List.isEmpty_iff.1 he)

theorem badControl_values : (d.badControl p).is (AVP_FLAGS.CTRL_BAD p) = true
    ∧ (d.badControl p).get64 (AVP_CTRL_BAD_CNT.addr p) = (d.get64 (AVP_CTRL_BAD_CNT.addr p) + 1) % 2 ^ 64
    ∧ Frame (fun a => a = AVP_CTRL_BAD_CNT.addr p ∨ a = AVP_CTRL_BAD_CNT.addr p + 4 ∨ a = AVP_FLAGS.addr p) d (d.badControl p) := by
  have hcount := get64_count_same d (AVP_CTRL_BAD_CNT.addr p)
  have hframe := (Frame.refl (fun a => a = AVP_CTRL_BAD_CNT.addr p ∨ a = AVP_CTRL_BAD_CNT.addr p + 4 ∨ a = AVP_FLAGS.addr p) d).count
    (.inl rfl) (.inr (.inl rfl))
  unfold badControl
  generalize d.count (AVP_CTRL_BAD_CNT.addr p) = c at *
  refine ⟨is_set1_same c (AVP_FLAGS.CTRL_BAD p) rfl (Nat.le_of_ble_eq_true rfl), ?_, hframe.set1 (f := AVP_FLAGS.CTRL_BAD p) (.inr (.inr rfl))⟩
  rw [get64_set1_ne c (AVP_FLAGS.CTRL_BAD p), hcount]
  all_goals
    show AVP_FLAGS.addr p ≠ _
    unfold AVP_FLAGS.addr AVP_CTRL_BAD_CNT.addr
    omega

/-- ALIGN of a lane whose markers DESKEW gathers. -/
theorem alignReceive_marks {w slot : Nat} (hcount : slice w 16 4 = 4) (hword : slice w 48 16 = 0xA5C3) (h3 : d.portState p = 3)
    (hlock : d.is (AVP_LANE_STAT.LOCK p l) = true) :
    d.alignReceive p l w slot (BitVec.ofNat 8 (slice w 40 8))
      = d.setLink p fun k => { k with markers := (l.val, ⟨slice w 24 16, slot⟩) :: k.markers.filter (·.1 != l.val) } := by
  have hbip : (slice w 40 8 != (BitVec.ofNat 8 (slice w 40 8)).toNat) = false := by
    rw [BitVec.toNat_ofNat, Nat.mod_eq_of_lt (show slice w 40 8 < 2 ^ 8 from Nat.mod_lt _ (by decide))]
    simp
  unfold alignReceive
  rw [hbip, when_false]
  exact (if_neg (by simp [hcount, hword])).trans (if_pos (by simp [stDeskew, h3, hlock]))

end

/-! ### Control blocks (R108) -/

section
variable (d : Dev) (p : Nat)

/-- A control block sent, before what sending it starts. -/
def blockSent (b : DlBlock) : Dev := (d.emit (.block p (blockBytes b))).setLink p fun k => { k with blocks := k.blocks.filter (· != b) }

theorem controlSend_block {b : DlBlock} (hb : (d.port p).link.blocks = [b]) (hrun : (d.port p).link.running = true)
    (hurg : (d.port p).link.urgents = []) : ∃ c1 c2 : Bool, d.controlSend p
      = let e := (d.blockSent p b).when c1 fun g => g.setLink p fun k => { k with qualAt := some (g.time + us 1) }
        e.when c2 fun g => g.setLink p fun k => { k with degrade := k.degrade.map fun x => { x with sentAt := some g.time } } := by
  have hready : ((d.port p).link.running && (d.port p).link.urgents.isEmpty) = true := by rw [hrun, hurg]; rfl
  cases b with
  | degrade m n => simp only [controlSend, hb]; exact ⟨_, _, if_pos hready⟩
  | retrain => simp only [controlSend, hb]; exact ⟨_, _, if_pos hready⟩
  | rateGo r => simp only [controlSend, hb]; exact ⟨_, _, if_pos hready⟩
  | qualStart k n => simp only [controlSend, hb]; exact ⟨_, _, if_pos hready⟩

theorem controlSend_only {b : DlBlock} (hb : (d.port p).link.blocks = [b]) (hrun : (d.port p).link.running = true)
    (hurg : (d.port p).link.urgents = []) : ∃ e, d.controlSend p = e ∧ e.out = d.out ++ [.block p (blockBytes b)]
      ∧ (e.port p).link.blocks = [] ∧ Frame (fun _ => False) d e := by
  obtain ⟨c1, c2, hsend⟩ := d.controlSend_block p hb hrun hurg
  have hlater : ∀ (e : Dev) (c : Bool) (f : Dev → Link → Link), (∀ g k, (f g k).blocks = k.blocks) →
      (e.when c fun g => g.setLink p (f g)).out = e.out ∧ ((e.when c fun g => g.setLink p (f g)).port p).link.blocks = (e.port p).link.blocks
        ∧ Frame (fun _ => False) e (e.when c fun g => g.setLink p (f g)) := fun e c f hf => by
    cases c with
    | false => exact ⟨rfl, rfl, .refl _ e⟩
    | true => exact ⟨rfl, by rw [when_true, link_setLink, hf], (Frame.refl _ e).other rfl rfl rfl rfl⟩
  have hblocks : ((d.blockSent p b).port p).link.blocks = [] := by
    rw [blockSent, link_setLink]
    show ((d.emit _).port p).link.blocks.filter _ = []
    rw [show ((d.emit (.block p (blockBytes b))).port p).link.blocks = [b] from hb]
    simp
  have hout : (d.blockSent p b).out = d.out ++ [.block p (blockBytes b)] := by rw [blockSent, setLink_out, emit_out]
  have hframe : Frame (fun _ => False) d (d.blockSent p b) := (Frame.refl _ d).other rfl rfl rfl rfl
  obtain ⟨hout1, hblocks1, hframe1⟩ := hlater (d.blockSent p b) c1 (fun g k => { k with qualAt := some (g.time + us 1) }) fun _ _ => rfl
  obtain ⟨hout2, hblocks2, hframe2⟩ := hlater ((d.blockSent p b).when c1 fun g => g.setLink p fun k => { k with qualAt := some (g.time + us 1) }) c2
    (fun g k => { k with degrade := k.degrade.map fun x => { x with sentAt := some g.time } }) fun _ _ => rfl
  exact ⟨_, hsend, (hout2.trans hout1).trans hout, (hblocks2.trans hblocks1).trans hblocks, (hframe.trans hframe1).trans hframe2⟩

end

/-! ### PLLs (R124) -/

section
variable (d : Dev) (pll : Fin 5)

/-- The status bit of a PLL. -/
def pllField (n : Nat) : Bits := ⟨LPH_PLL_STAT.addr, if n = 0 then 0 else 1 + n, 1⟩

theorem setPll_fields (b : Bool) : d.setPll pll b
    = (d.put (pllField pll) (ofBool b)).put LPH_PLL_STAT.ALL_ULC (ofBool ((d.put (pllField pll) (ofBool b)).get LPH_PLL_STAT.ULC_PLL = 15)) := by
  unfold setPll pllField
  split <;> rfl

theorem setPll_locked (b : Bool) (j : Fin 5) : (d.setPll pll b).pllLocked j = if j = pll then b else d.pllLocked j := by
  have hbit : ∀ (e : Dev) (f : Bits) (n : Nat), f.off = LPH_PLL_STAT.addr → f.lo + f.w ≤ 32 → (e.put f n).pllLocked j
      = if f.lo ≤ (pllField j).lo ∧ (pllField j).lo < f.lo + f.w then n.testBit ((pllField j).lo - f.lo) else e.pllLocked j := fun e f n hoff hf => by
    rw [pllLocked, bitOf, ← hoff, reg_put_bit e f n _ hf, hoff]
    rfl
  have hj := j.isLt
  have hpll := pll.isLt
  have hlo : (pllField pll).lo + (pllField pll).w ≤ 32 := by unfold pllField; dsimp only; split <;> omega
  have hulc : ¬ (LPH_PLL_STAT.ALL_ULC.lo ≤ (pllField j).lo ∧ (pllField j).lo < LPH_PLL_STAT.ALL_ULC.lo + LPH_PLL_STAT.ALL_ULC.w) := by
    unfold pllField LPH_PLL_STAT.ALL_ULC
    dsimp only
    split <;> omega
  have hsame : ((pllField pll).lo ≤ (pllField j).lo ∧ (pllField j).lo < (pllField pll).lo + (pllField pll).w) ↔ j = pll := by
    rw [Fin.ext_iff]
    unfold pllField
    dsimp only
    split <;> split <;> omega
  have hone : (ofBool b).testBit 0 = b := by cases b <;> rfl
  rw [setPll_fields, hbit _ LPH_PLL_STAT.ALL_ULC _ rfl (Nat.le_of_ble_eq_true rfl), if_neg hulc, hbit _ (pllField pll) _ rfl hlo]
  by_cases h : j = pll
  · rw [if_pos (hsame.2 h), if_pos h, h, Nat.sub_self, hone]
  · rw [if_neg (fun hin => h (hsame.1 hin)), if_neg h]

theorem setPll_frame (b : Bool) : Frame (· = LPH_PLL_STAT.addr) d (d.setPll pll b) := by
  rw [setPll_fields]
  exact ((Frame.refl (· = LPH_PLL_STAT.addr) d).put (f := pllField pll) _ rfl).put (f := LPH_PLL_STAT.ALL_ULC) _ rfl

end

/-! ### Equaliser adaptation (R101) -/

section
variable (d : Dev) (p : Fin 16) (l : Fin 4)

/-- Where a step of adaptation goes. -/
def adaptStep (up : Bool) : Nat :=
  let c := d.get (AVP_LANE_CTL.PEAK p l)
  let now := d.get (AVP_LANE_STAT.PEAK_NOW p l)
  if up then Nat.min (Nat.min 31 (c + 2)) (now + 1) else Nat.max (c - 2) (now - 1)

theorem adaptStep_lt (up : Bool) : d.adaptStep p l up < 32 := by
  have hc : d.get (AVP_LANE_CTL.PEAK p l) < 32 := get_lt d (AVP_LANE_CTL.PEAK p l)
  have hnow : d.get (AVP_LANE_STAT.PEAK_NOW p l) < 32 := get_lt d (AVP_LANE_STAT.PEAK_NOW p l)
  unfold adaptStep
  cases up
  · exact Nat.max_lt.2 ⟨by omega, by omega⟩
  · exact Nat.lt_of_le_of_lt (Nat.min_le_left _ _) (Nat.lt_of_le_of_lt (Nat.min_le_left _ _) (by decide))

theorem adapt_moves (up : Bool) {run : Nat} (hadapt : d.is (AVP_LANE_CTL.ADAPT p l) = true) (hovr : d.is (LPH_EQ_OVR.EN p) = false)
    (hrun : run ≤ 4096) : (d.adapt p l up run).get (AVP_LANE_STAT.PEAK_NOW p l) = d.adaptStep p l up
      ∧ Frame (· = AVP_LANE_STAT.addr p l) d (d.adapt p l up run) := by
  have hstep : ∃ c : Bool, d.adapt p l up run = (d.put (AVP_LANE_STAT.PEAK_NOW p l) (d.adaptStep p l up)).when c fun d =>
      d.atMost (.adaptEdge p l) (ms 1000) fun d => d.notice .info (idAVP p) 0x015 (l + ofBool up * 2 ^ 8) := by
    unfold adapt adaptStep
    exact ⟨_, if_pos (by simp [hadapt, hovr, hrun])⟩
  obtain ⟨c, hc⟩ := hstep
  have hput := get_put_same d (AVP_LANE_STAT.PEAK_NOW p l) (d.adaptStep p l up) (Nat.le_of_ble_eq_true rfl)
  have hframe := (Frame.refl (· = AVP_LANE_STAT.addr p l) d).put (f := AVP_LANE_STAT.PEAK_NOW p l) (d.adaptStep p l up) rfl
  rw [hc]
  generalize d.put (AVP_LANE_STAT.PEAK_NOW p l) (d.adaptStep p l up) = e at *
  have htold : ∀ P, Frame P e (e.when c fun d => d.atMost (.adaptEdge p l) (ms 1000) fun d => d.notice .info (idAVP p) 0x015 (l + ofBool up * 2 ^ 8)) :=
    fun P => (Frame.refl P e).when' _ _ fun _ => (Frame.refl P e).atMost _ _ _ ((Frame.refl P e).notice _ _ _ _)
  exact ⟨((htold fun _ => False).get id).trans (hput.trans (Nat.mod_eq_of_lt (d.adaptStep_lt p l up))), hframe.trans (htold _)⟩

end
end Dev
end Sys2Proof.Machine
end


section
/-! SUPPORT. Lane degrade (R121), the return to SLIP (R110) and the end of a qualification pattern (R120). -/

open Sys2Proof Sys2Proof.Machine

namespace Sys2Proof.Machine
namespace Dev

/-! ### Lane degrade (R121) -/

theorem lanesOf_all : lanesOf 15 = [0, 1, 2, 3] := by decide

/-- The excluded bits of a port's lanes. -/
def excludedFields (p : Nat) : List Bits := (List.range 4).map (AVP_LANE_STAT.EXCLUDED p)

/-- The fields of a degrade, but for those of the state. -/
def degradeFields (p : Nat) : List Bits :=
  excludedFields p ++ [AVP_PORT_STAT.MASK p, AVP_PORT_STAT.LANES p] ++ (AVP_FLAGS.DEGRADED p :: pair (AVP_DEGRADE_CNT.addr p))

section
variable (d : Dev) (p : Fin 16) (l mask n : Nat)

theorem degradeFields_clear : Clear (degradeFields p) (AVP_PORT_STAT.STATE p) ∧ (∀ f ∈ degradeFields p, OnPage p f.off)
    ∧ (∀ f ∈ excludedFields p ++ [AVP_PORT_STAT.MASK p, AVP_PORT_STAT.LANES p],
      f.off ≠ AVP_DEGRADE_CNT.addr p ∧ f.off ≠ AVP_DEGRADE_CNT.addr p + 4)
    ∧ Clear [AVP_PORT_STAT.LANES p] (AVP_PORT_STAT.MASK p)
    ∧ Clear (AVP_FLAGS.DEGRADED p :: pair (AVP_DEGRADE_CNT.addr p)) (AVP_PORT_STAT.MASK p)
    ∧ Clear (AVP_FLAGS.DEGRADED p :: pair (AVP_DEGRADE_CNT.addr p)) (AVP_PORT_STAT.LANES p)
    ∧ Clear (pair (AVP_DEGRADE_CNT.addr p)) (AVP_FLAGS.DEGRADED p) ∧ AVP_FLAGS.addr p ≠ AVP_DEGRADE_CNT.addr p
    ∧ AVP_FLAGS.addr p ≠ AVP_DEGRADE_CNT.addr p + 4 := by revert p; decide

/-- The lanes in use set, and the lanes left out excluded. -/
def lanesSet : Dev :=
  ((d.forEach ((lanesOf (d.get (AVP_PORT_STAT.MASK p))).filter fun i => !bit mask i) fun i d => d.set1 (AVP_LANE_STAT.EXCLUDED p i)).put
    (AVP_PORT_STAT.MASK p) mask).put (AVP_PORT_STAT.LANES p) n

theorem lanesSet_touches : Touches (excludedFields p ++ [AVP_PORT_STAT.MASK p, AVP_PORT_STAT.LANES p]) d (d.lanesSet p mask n) := by
  have hlane : ∀ i ∈ (lanesOf (d.get (AVP_PORT_STAT.MASK p))).filter fun i => !bit mask i,
      AVP_LANE_STAT.EXCLUDED p i ∈ excludedFields p := fun i hi =>
    List.mem_map_of_mem (List.mem_of_mem_filter (List.mem_of_mem_filter hi))
  exact (((Touches.refl _ d).forEach _ _ fun i hi g hg => hg.set1 (List.mem_append_left _ (hlane i hi))).put (f := AVP_PORT_STAT.MASK p) mask
    (List.mem_append_right _ List.mem_cons_self)).put (f := AVP_PORT_STAT.LANES p) n (List.mem_append_right _ (by simp))

theorem lanesSet_values (hmask : mask < 16) (hn : n < 16) : (d.lanesSet p mask n).get (AVP_PORT_STAT.MASK p) = mask
    ∧ (d.lanesSet p mask n).get (AVP_PORT_STAT.LANES p) = n := by
  obtain ⟨-, -, -, hclear, -⟩ := degradeFields_clear p
  unfold lanesSet
  generalize d.forEach _ _ = c
  have hput := get_put_same c (AVP_PORT_STAT.MASK p) mask (Nat.le_of_ble_eq_true rfl)
  generalize c.put (AVP_PORT_STAT.MASK p) mask = g at *
  exact ⟨(((Touches.refl [AVP_PORT_STAT.LANES p] g).put n List.mem_cons_self).get hclear).trans (hput.trans (Nat.mod_eq_of_lt hmask)),
    (get_put_same g _ n (Nat.le_of_ble_eq_true rfl)).trans (Nat.mod_eq_of_lt hn)⟩

/-- A degrade flagged, counted, told and logged. -/
def degradeTold (before : Nat) : Dev :=
  (((d.set1 (AVP_FLAGS.DEGRADED p)).count (AVP_DEGRADE_CNT.addr p)).notice .alert (idAVP p) 0x011 (before * 16 + mask)).faultLog (idAVP p) (some 5)
    (4 * p + l) 0

theorem degradeTold_touches (before : Nat) :
    Touches (AVP_FLAGS.DEGRADED p :: pair (AVP_DEGRADE_CNT.addr p)) d (d.degradeTold p l mask before) :=
  (((Touches.refl _ d).set1 (f := AVP_FLAGS.DEGRADED p) List.mem_cons_self).count (a := AVP_DEGRADE_CNT.addr p) (List.subset_cons_self _ _)).frame
    (rs := []) (((Frame.refl _ _).notice _ _ _ _).faultLog _ _ _ _) (List.nil_subset _)

theorem degradeTold_port (before : Nat) : (d.degradeTold p l mask before).port p = d.port p := by
  rw [degradeTold, port_faultLog, port_notice, port_count, port_set1]

theorem degradeTold_values (before : Nat) : (d.degradeTold p l mask before).is (AVP_FLAGS.DEGRADED p) = true
    ∧ (d.degradeTold p l mask before).get64 (AVP_DEGRADE_CNT.addr p) = (d.get64 (AVP_DEGRADE_CNT.addr p) + 1) % 2 ^ 64 := by
  obtain ⟨-, -, -, -, -, -, hflag, hne, hne4⟩ := degradeFields_clear p
  have hset := is_set1_same d (AVP_FLAGS.DEGRADED p) rfl (Nat.le_of_ble_eq_true rfl)
  have hcnt := get64_set1_ne d (AVP_FLAGS.DEGRADED p) (b := AVP_DEGRADE_CNT.addr p) hne hne4
  unfold degradeTold
  generalize d.set1 (AVP_FLAGS.DEGRADED p) = c at *
  have hcount := get64_count_same c (AVP_DEGRADE_CNT.addr p)
  have htouch := (Touches.refl (pair (AVP_DEGRADE_CNT.addr p)) c).count (List.Subset.refl _)
  generalize c.count (AVP_DEGRADE_CNT.addr p) = g at *
  have htold : Frame (fun _ => False) g ((g.notice .alert (idAVP p) 0x011 (before * 16 + mask)).faultLog (idAVP p) (some 5) (4 * p + l) 0) :=
    ((Frame.refl _ g).notice _ _ _ _).faultLog _ _ _ _
  exact ⟨(htold.is id).trans ((htouch.is hflag).trans hset), (htold.get64 id id).trans (hcount.trans (by rw [hcnt]))⟩

/-- A degraded port before its open band closes. -/
def degradeNoted (before : Nat) : Dev :=
  (((d.lanesSet p mask n).queueBlock p (.degrade mask n)).setLink p fun k => { k with
    degrade := some ⟨mask, n, none, []⟩, markers := [] }).degradeTold p l mask before

theorem laneDegrade_moves (left : List Nat) (hn : n = Nat.min 2 (laneCount left.length)) (hmask : mask = maskOf (left.take n)) :
    d.laneDegrade p l left = (((d.degradeNoted p l mask n (d.get (AVP_PORT_STAT.MASK p))).truncateOpen p).setState p 7) := by
  subst hn hmask
  rfl

theorem degradeNoted_touches (before : Nat) : Touches (degradeFields p) d (d.degradeNoted p l mask n before) := by
  have hset := (d.lanesSet_touches p mask n).trans ((queueBlock_touches _ _ p (.degrade mask n)).setLink p fun k => { k with
    degrade := some ⟨mask, n, none, []⟩, markers := [] })
  exact (hset.mono (List.subset_append_left _ _)).trans ((degradeTold_touches _ p l mask before).mono (List.subset_append_right _ _))

/-- What a degrade has set before the port's state changes. -/
theorem degradeNoted_values (before : Nat) (hmask : mask < 16) (hn : n < 16) :
    (d.degradeNoted p l mask n before).get (AVP_PORT_STAT.MASK p) = mask
      ∧ (d.degradeNoted p l mask n before).get (AVP_PORT_STAT.LANES p) = n
      ∧ (d.degradeNoted p l mask n before).is (AVP_FLAGS.DEGRADED p) = true
      ∧ (d.degradeNoted p l mask n before).get64 (AVP_DEGRADE_CNT.addr p) = (d.get64 (AVP_DEGRADE_CNT.addr p) + 1) % 2 ^ 64
      ∧ .degrade mask n ∈ ((d.degradeNoted p l mask n before).port p).link.blocks := by
  obtain ⟨-, -, hcnt, -, hkeptMask, hkeptLanes, -⟩ := degradeFields_clear p
  obtain ⟨hm, hl⟩ := d.lanesSet_values p mask n hmask hn
  have hcount := (d.lanesSet_touches p mask n).get64 hcnt
  unfold degradeNoted
  generalize d.lanesSet p mask n = c at *
  have hqueued := queueBlock_touches [] c p (.degrade mask n)
  have hblock := blocks_queueBlock c p (.degrade mask n)
  generalize c.queueBlock p (.degrade mask n) = q at *
  generalize hk : q.setLink p _ = g
  have hg : Touches [] c g := hk ▸ hqueued.setLink _ _
  have hblocks : .degrade mask n ∈ (g.port p).link.blocks := by rw [← hk, link_setLink]; exact hblock
  have htouch := g.degradeTold_touches p l mask before
  obtain ⟨hflag, hcounted⟩ := g.degradeTold_values p l mask before
  refine ⟨(htouch.get hkeptMask).trans ((hg.get (List.forall_mem_nil _)).trans hm),
    (htouch.get hkeptLanes).trans ((hg.get (List.forall_mem_nil _)).trans hl), hflag, hcounted.trans ?_, ?_⟩
  · rw [hg.get64 (List.forall_mem_nil _), hcount]
  · rw [degradeTold_port]; exact hblocks

theorem sessionRegs_page : ∀ a ∈ sessionRegs p, OnPage p a := by revert p; decide

/-- The fields of a degrade lie outside what the closing of a band works on. -/
theorem sessionRegs_apart : AVP_PORT_STAT.addr p ∉ sessionRegs p ∧ AVP_FLAGS.addr p ∉ sessionRegs p ∧ AVP_DEGRADE_CNT.addr p ∉ sessionRegs p
    ∧ AVP_DEGRADE_CNT.addr p + 4 ∉ sessionRegs p := by revert p; decide

/-- What a degrade of a port that is UP or DEGRADED comes to. -/
theorem laneDegrade_degrades (left : List Nat) (hn : n = Nat.min 2 (laneCount left.length)) (hmask : mask = maskOf (left.take n)) (hmask16 : mask < 16)
    (hn16 : n < 16) : ∃ e, d.laneDegrade p l left = e ∧ e.portState p = 7 ∧ e.get (AVP_PORT_STAT.LANES p) = n ∧ e.get (AVP_PORT_STAT.MASK p) = mask
      ∧ e.is (AVP_FLAGS.DEGRADED p) = true ∧ .degrade mask n ∈ (e.port p).link.blocks
      ∧ e.get64 (AVP_DEGRADE_CNT.addr p) = (d.get64 (AVP_DEGRADE_CNT.addr p) + 1) % 2 ^ 64 ∧ Frame (OnPage p) d e := by
  rw [d.laneDegrade_moves p l mask n left hn hmask]
  obtain ⟨-, hpage, -⟩ := degradeFields_clear p
  have htouch := d.degradeNoted_touches p l mask n (d.get (AVP_PORT_STAT.MASK p))
  obtain ⟨hm, hl, hflag, hcount, hblock⟩ := d.degradeNoted_values p l mask n (d.get (AVP_PORT_STAT.MASK p)) hmask16 hn16
  generalize d.degradeNoted p l mask n (d.get (AVP_PORT_STAT.MASK p)) = c at *
  obtain ⟨hstat, hflags, hcnt, hcnt4⟩ := sessionRegs_apart p
  obtain ⟨hgrows, -, hlink⟩ := c.closeBand_works p true false none
  rw [← truncateOpen] at hgrows hlink
  generalize c.truncateOpen p = g at *
  have hgf := hgrows.frame
  have hm' := (hgf.get (g := AVP_PORT_STAT.MASK p) hstat).trans hm
  have hl' := (hgf.get (g := AVP_PORT_STAT.LANES p) hstat).trans hl
  have hflag' := (hgf.is (g := AVP_FLAGS.DEGRADED p) hflags).trans hflag
  have hcount' := (hgf.get64 hcnt hcnt4).trans hcount
  have hblock' : .degrade mask n ∈ (g.port p).link.blocks := hlink p ▸ hblock
  have hframe : Frame (OnPage p) d g := (htouch.toFrame hpage).trans (hgf.mono (sessionRegs_page p))
  by_cases h7 : g.portState p = 7
  · rw [setState_same g p 7 h7]
    exact ⟨g, rfl, h7, hl', hm', hflag', hblock', hcount', hframe⟩
  · have hentered := setState_entered p h7 (by omega)
    refine ⟨_, rfl, hentered.state, (hentered.get (by simp [keptFields])).trans hl', (hentered.get (by simp [keptFields])).trans hm',
      (hentered.is (by simp [keptFields])).trans hflag', ?_, (hentered.get64 (by simp [keptPairs])).trans hcount', hframe.trans hentered.frame⟩
    rw [hentered.link]
    exact hblock'

end

/-- The lanes left where one of four loses lock, and the mask of the first two of them. -/
theorem lanesLeft (d : Dev) (p : Fin 16) (l : Fin 4) (hmask : d.get (AVP_PORT_STAT.MASK p) = 15)
    (hlocks : ∀ j : Fin 4, d.is (AVP_LANE_STAT.LOCK p j) = true) :
    ((lanesOf ((d.lockLost p l).get (AVP_PORT_STAT.MASK p))).filter fun i => (d.lockLost p l).is (AVP_LANE_STAT.LOCK p i))
      = [0, 1, 2, 3].filter (· != l.val) := by
  obtain ⟨-, hkept, hothers, -⟩ := lossFields_clear p l
  have htouch := d.lockLost_touches p l
  obtain ⟨hlost, -, -⟩ := d.lockLost_values p l
  rw [htouch.get hkept, hmask, lanesOf_all]
  refine List.filter_congr fun i hi => ?_
  have hi4 : i < 4 := by simp at hi; omega
  by_cases h : i = l.val
  · subst h; simp [hlost]
  · have hother := htouch.is (hothers ⟨i, hi4⟩ fun he => h (congrArg Fin.val he))
    rw [hother, hlocks ⟨i, hi4⟩]
    simp [h]

theorem lanesLeft_mask (l : Fin 4) :
    maskOf (([0, 1, 2, 3].filter (· != l.val)).take 2) = (if l.val = 0 then 0b0110 else if l.val = 1 then 0b0101 else 0b0011)
    ∧ Nat.min 2 (laneCount ([0, 1, 2, 3].filter (· != l.val)).length) = 2 ∧ [0, 1, 2, 3].filter (· != l.val) ≠ [] := by revert l; decide

end Dev
end Sys2Proof.Machine
end


section
/-! SUPPORT. The end of a qualification pattern and the return to SLIP (R110, R119, R120). -/

open Sys2Proof Sys2Proof.Machine

namespace Sys2Proof.Machine
namespace Dev

/-! ### The return to SLIP (R110) -/

section
variable (d : Dev) (p : Fin 16)

/-- Lock, alignment and exclusion of a port's lanes. -/
def slipFields (p : Nat) : List Bits :=
  (List.range 4).flatMap fun l => [AVP_LANE_STAT.LOCK p l, AVP_LANE_STAT.ALIGNED p l, AVP_LANE_STAT.EXCLUDED p l]

theorem slipFields_clear : Clear (slipFields p) (AVP_PORT_STAT.STATE p) ∧ Clear (slipFields p) (AVP_QUAL_STAT.RUN p)
    ∧ Clear (slipFields p) (AVP_FLAGS.QUAL_DONE p) ∧ (∀ f ∈ slipFields p, OnPage p f.off)
    ∧ ∀ l : Fin 4, ∀ f ∈ slipFields p, (f.off ≠ AVP_QUAL_BITS.addr p l ∧ f.off ≠ AVP_QUAL_BITS.addr p l + 4)
      ∧ f.off ≠ AVP_QUAL_ERR.addr p l ∧ f.off ≠ AVP_QUAL_ERR.addr p l + 4 := by revert p; decide

/-- The lanes of a port that returns to SLIP. -/
def lanesRestarted : Dev := d.forEach (List.range 4) fun l d =>
  ((d.unset (AVP_LANE_STAT.LOCK p l)).unset (AVP_LANE_STAT.ALIGNED p l)).when
    (!((d.unset (AVP_LANE_STAT.LOCK p l)).unset (AVP_LANE_STAT.ALIGNED p l)).is (AVP_LANE_STAT.SIGNAL p l)) (·.set1 (AVP_LANE_STAT.EXCLUDED p l))

theorem lanesRestarted_touches : Touches (slipFields p) d (d.lanesRestarted p) := by
  refine (Touches.refl _ d).forEach _ _ fun l hl g hg => ?_
  have hmem : ∀ f ∈ [AVP_LANE_STAT.LOCK p l, AVP_LANE_STAT.ALIGNED p l, AVP_LANE_STAT.EXCLUDED p l], f ∈ slipFields p := fun f hf =>
    List.mem_flatMap_of_mem hl hf
  have hunset := (hg.unset (hmem (AVP_LANE_STAT.LOCK p l) (by simp))).unset (hmem (AVP_LANE_STAT.ALIGNED p l) (by simp))
  exact hunset.when' _ _ fun _ => hunset.set1 (hmem (AVP_LANE_STAT.EXCLUDED p l) (by simp))

section
variable {β : Type} {part : Dev → β} (hreg : ∀ e a v, part (setReg e a v) = part e) (hnote : ∀ e f, part (noteSet e f) = part e)
include hreg hnote

theorem lanesRestarted_keeps : part (d.lanesRestarted p) = part d := by
  refine forEach_keeps part _ _ (fun l e => ?_) d
  have hunset : part ((e.unset (AVP_LANE_STAT.LOCK p l)).unset (AVP_LANE_STAT.ALIGNED p l)) = part e := (hreg _ _ _).trans (hreg _ _ _)
  unfold when
  split
  · exact (hreg _ _ _).trans ((hnote _ _).trans hunset)
  · exact hunset

end

theorem toSlip_moves (attempt : Option Nat) (kind : AttemptKind) : d.toSlip p attempt kind
    = ((d.lanesRestarted p).setLink p fun k => { k with
      attempt := attempt, kind := kind, slipAt := (d.lanesRestarted p).time, markers := [] }).setState p 2 := rfl

/-- A return to SLIP from a state other than SLIP, UP and DEGRADED. -/
theorem toSlip_slips (attempt : Option Nat) (kind : AttemptKind) (h2 : d.portState p ≠ 2) (hup : d.portUp p = false) :
    ∃ e, d.toSlip p attempt kind = e ∧ e.portState p = 2 ∧ (e.port p).link.kind = kind
      ∧ e.is (AVP_QUAL_STAT.RUN p) = d.is (AVP_QUAL_STAT.RUN p) ∧ e.is (AVP_FLAGS.QUAL_DONE p) = d.is (AVP_FLAGS.QUAL_DONE p)
      ∧ (∀ l : Fin 4, e.get64 (AVP_QUAL_BITS.addr p l) = d.get64 (AVP_QUAL_BITS.addr p l)
        ∧ e.get64 (AVP_QUAL_ERR.addr p l) = d.get64 (AVP_QUAL_ERR.addr p l))
      ∧ e.ntq.input = d.ntq.input ++ [⟨.event, idAVP p, 0x010, word (d.portState p * 16 + 2), d.time⟩] ∧ Frame (OnPage p) d e := by
  obtain ⟨hstate, hrun, hdone, hpage, hcounts⟩ := slipFields_clear p
  have hlanes := d.lanesRestarted_touches p
  have hntq : (d.lanesRestarted p).ntq = d.ntq := d.lanesRestarted_keeps p (part := (·.ntq)) (fun _ _ _ => rfl) fun _ _ => rfl
  rw [toSlip_moves]
  generalize d.lanesRestarted p = c at *
  generalize hg : c.setLink p _ = g
  have hc : Touches (slipFields p) d g := hg ▸ hlanes.setLink _ _
  have hkind : (g.port p).link.kind = kind := by rw [← hg, link_setLink]
  have hinput : g.ntq.input = d.ntq.input := by rw [← hg, setLink_ntq, hntq]
  have hentered := setState_entered (d := g) (s := 2) p (by rw [hc.portState hstate]; exact h2) (by omega)
  obtain ⟨l, hl, hquiet⟩ := hentered.told
  rw [hquiet ((hc.portUp hstate).trans hup) (by omega) (by omega), hinput, hc.portState hstate, hc.time] at hl
  refine ⟨_, rfl, hentered.state, by rw [hentered.link]; exact hkind, (hentered.is (by simp [keptFields])).trans (hc.is hrun),
    (hentered.is (by simp [keptFields])).trans (hc.is hdone), fun l => ?_, hl, (hc.toFrame hpage).trans hentered.frame⟩
  have hmem := List.mem_range.2 l.isLt
  have hbits : AVP_QUAL_BITS.addr p l ∈ keptPairs p := List.mem_append_right _ (List.mem_flatMap_of_mem hmem (by simp))
  have herr : AVP_QUAL_ERR.addr p l ∈ keptPairs p := List.mem_append_right _ (List.mem_flatMap_of_mem hmem (by simp))
  exact ⟨(hentered.get64 hbits).trans (hc.get64 fun f hf => (hcounts l f hf).1), (hentered.get64 herr).trans (hc.get64 fun f hf => (hcounts l f hf).2)⟩

end

/-! ### Something for each lane -/

section
variable {α : Type} (q : Fin 4 → α)

/-- A value of each of the four lanes, with its lane. -/
def fourLanes : List (Nat × α) := [(0, q 0), (1, q 1), (2, q 2), (3, q 3)]

theorem fourLanes_nodup : (fourLanes q).Nodup := by simp [fourLanes]

theorem mem_fourLanes (e : Nat × α) : e ∈ fourLanes q ↔ ∃ l : Fin 4, e = (l.val, q l) := by
  constructor
  · intro h
    simp only [fourLanes, List.mem_cons, List.not_mem_nil, or_false] at h
    rcases h with rfl | rfl | rfl | rfl
    · exact ⟨0, rfl⟩
    · exact ⟨1, rfl⟩
    · exact ⟨2, rfl⟩
    · exact ⟨3, rfl⟩
  · rintro ⟨l, rfl⟩
    match l with
    | 0 => simp [fourLanes]
    | 1 => simp [fourLanes]
    | 2 => simp [fourLanes]
    | 3 => simp [fourLanes]

end

/-! ### The checkers' counts (R120) -/

/-- A count that rises to `n`, at most 2^48 - 1. -/
def countTo (n old : Nat) : Nat := Nat.max old (Nat.min n (2 ^ 48 - 1))

theorem countTo_above {n old : Nat} (hn : n < 2 ^ 48) (hold : old ≤ n) : countTo n old = n := by
  rw [countTo, show Nat.min n (2 ^ 48 - 1) = n from Nat.min_eq_left (by omega)]
  exact Nat.max_eq_right hold

section
variable (d : Dev) (p : Fin 16)

/-- The counts of a lane's checker recorded. -/
def laneCounted (e : Nat × QualLane) (d : Dev) : Dev :=
  (d.put64 (AVP_QUAL_BITS.addr p e.1) (countTo e.2.bits (d.get64 (AVP_QUAL_BITS.addr p e.1)))).put64 (AVP_QUAL_ERR.addr p e.1)
    (countTo e.2.errors (d.get64 (AVP_QUAL_ERR.addr p e.1)))

/-- The counts of a lane. -/
def laneCounts (l : Nat) (d : Dev) : Nat × Nat := (d.get64 (AVP_QUAL_BITS.addr p l), d.get64 (AVP_QUAL_ERR.addr p l))

theorem laneCounts_eq {l bits errors : Nat} {d : Dev} : laneCounts p l d = (bits, errors)
    ↔ d.get64 (AVP_QUAL_BITS.addr p l) = bits ∧ d.get64 (AVP_QUAL_ERR.addr p l) = errors := Prod.mk.injEq _ _ _ _ ▸ Iff.rfl

theorem laneCounted_touches (e : Nat × QualLane) (he : e.1 ∈ List.range 4) : Touches (countFields p) d (laneCounted p e d) :=
  ((Touches.refl _ d).put64 _ (countFields_lane p e.1 he).2).put64 _ (countFields_lane p e.1 he).1

theorem laneCounted_other (e : Nat × QualLane) (l : Nat) (he : e.1 < 4) (hl : l < 4) (hne : e.1 ≠ l) :
    laneCounts p l (laneCounted p e d) = laneCounts p l d := by
  unfold laneCounts laneCounted AVP_QUAL_BITS.addr AVP_QUAL_ERR.addr
  repeat rw [get64_put64_ne _ _ (by omega) (by omega) (by omega)]

theorem laneCounted_same (l : Nat) (q : QualLane) (hbits : q.bits < 2 ^ 48) (herr : q.errors < 2 ^ 48)
    (hob : d.get64 (AVP_QUAL_BITS.addr p l) ≤ q.bits) (hoe : d.get64 (AVP_QUAL_ERR.addr p l) ≤ q.errors) :
    laneCounts p l (laneCounted p (l, q) d) = (q.bits, q.errors) := by
  have hbits64 : q.bits % 2 ^ 64 = q.bits := Nat.mod_eq_of_lt (by omega)
  have herr64 : q.errors % 2 ^ 64 = q.errors := Nat.mod_eq_of_lt (by omega)
  unfold laneCounts laneCounted
  dsimp only
  rw [countTo_above hbits hob, countTo_above herr hoe, get64_put64_same, herr64,
    get64_put64_ne _ _ (by unfold AVP_QUAL_BITS.addr AVP_QUAL_ERR.addr; omega) (by unfold AVP_QUAL_BITS.addr AVP_QUAL_ERR.addr; omega)
      (by unfold AVP_QUAL_BITS.addr AVP_QUAL_ERR.addr; omega), get64_put64_same, hbits64]

variable (q : Fin 4 → QualLane)

/-- The lanes' counts, before their synchronisation. -/
def lanesCounted : Dev := d.forEach (fourLanes q) (laneCounted p)

theorem qualCounts_eq : ∃ sync, d.qualCounts p (fourLanes q) = (d.lanesCounted p q).put (AVP_QUAL_STAT.SYNC p) sync := ⟨_, rfl⟩

theorem lanesCounted_touches : Touches (countFields p) d (d.lanesCounted p q) :=
  (Touches.refl _ d).forEach _ _ fun e he g hg => by
    obtain ⟨l, rfl⟩ := (mem_fourLanes q e).1 he
    exact hg.trans (g.laneCounted_touches p _ (List.mem_range.2 l.isLt))

theorem lanesCounted_ntq : (d.lanesCounted p q).ntq = d.ntq :=
  forEach_keeps (·.ntq) _ _ (fun e g => by rw [laneCounted, put64_ntq, put64_ntq]) d

theorem lanesCounted_counts (hq : ∀ j, (q j).bits < 2 ^ 48 ∧ (q j).errors < 2 ^ 48 ∧ d.get64 (AVP_QUAL_BITS.addr p j) ≤ (q j).bits
    ∧ d.get64 (AVP_QUAL_ERR.addr p j) ≤ (q j).errors) (j : Fin 4) : laneCounts p j (d.lanesCounted p q) = ((q j).bits, (q j).errors) := by
  obtain ⟨e, -, hbefore, hafter⟩ := forEach_at (laneCounts p j) (countFields p) (fourLanes_nodup q) ((mem_fourLanes q _).2 ⟨j, rfl⟩)
    (laneCounted p) d
    (fun a ha g => by
      obtain ⟨l, rfl⟩ := (mem_fourLanes q a).1 ha
      exact g.laneCounted_touches p _ (List.mem_range.2 l.isLt))
    (fun a ha hne g => by
      obtain ⟨l, rfl⟩ := (mem_fourLanes q a).1 ha
      exact g.laneCounted_other p _ j l.isLt j.isLt fun h => hne (by rw [Fin.ext h]))
  obtain ⟨hbits, herr, hob, hoe⟩ := hq j
  obtain ⟨hb, he⟩ := (laneCounts_eq p).1 hbefore
  rw [← hb] at hob
  rw [← he] at hoe
  exact hafter.trans (e.laneCounted_same p j (q j) hbits herr hob hoe)

/-! ### The pattern's end (R120) -/

theorem qualFields_apart : Clear (countFields p) (AVP_PORT_STAT.STATE p)
    ∧ Clear [AVP_QUAL_STAT.SYNC p, AVP_QUAL_STAT.RUN p, AVP_FLAGS.QUAL_DONE p] (AVP_PORT_STAT.STATE p)
    ∧ Clear [AVP_FLAGS.QUAL_DONE p] (AVP_QUAL_STAT.RUN p)
    ∧ (∀ l : Fin 4, ∀ f ∈ [AVP_QUAL_STAT.SYNC p, AVP_QUAL_STAT.RUN p, AVP_FLAGS.QUAL_DONE p],
      (f.off ≠ AVP_QUAL_BITS.addr p l ∧ f.off ≠ AVP_QUAL_BITS.addr p l + 4) ∧ f.off ≠ AVP_QUAL_ERR.addr p l ∧ f.off ≠ AVP_QUAL_ERR.addr p l + 4)
    ∧ (∀ f ∈ countFields p, OnPage p f.off)
    ∧ ∀ f ∈ [AVP_QUAL_STAT.SYNC p, AVP_QUAL_STAT.RUN p, AVP_FLAGS.QUAL_DONE p], OnPage p f.off := by revert p; decide

/-- A pattern that has ended, its result told. -/
def qualDone (sync arg : Nat) : Dev :=
  (((d.put (AVP_QUAL_STAT.SYNC p) sync).unset (AVP_QUAL_STAT.RUN p)).set1 (AVP_FLAGS.QUAL_DONE p)).notice .event (idAVP p) 0x013 arg

theorem qualDone_touches (sync arg : Nat) :
    Touches [AVP_QUAL_STAT.SYNC p, AVP_QUAL_STAT.RUN p, AVP_FLAGS.QUAL_DONE p] d (d.qualDone p sync arg) :=
  ((((Touches.refl _ d).put (f := AVP_QUAL_STAT.SYNC p) sync (by simp)).unset (f := AVP_QUAL_STAT.RUN p) (by simp)).set1
    (f := AVP_FLAGS.QUAL_DONE p) (by simp)).notice _ _ _ _

theorem qualDone_flags (sync arg : Nat) : (d.qualDone p sync arg).is (AVP_QUAL_STAT.RUN p) = false
    ∧ (d.qualDone p sync arg).is (AVP_FLAGS.QUAL_DONE p) = true := by
  obtain ⟨-, -, hkept, -⟩ := qualFields_apart p
  unfold qualDone
  generalize d.put (AVP_QUAL_STAT.SYNC p) sync = c
  have hoff := is_unset_same c (AVP_QUAL_STAT.RUN p) (Nat.le_of_ble_eq_true rfl)
  generalize c.unset (AVP_QUAL_STAT.RUN p) = g at *
  have htouch := (Touches.refl [AVP_FLAGS.QUAL_DONE p] g).set1 (f := AVP_FLAGS.QUAL_DONE p) List.mem_cons_self
  exact ⟨((htouch.notice .event (idAVP p) 0x013 arg).is hkept).trans hoff, (notice_is _ _ _ _ _ _).trans <| is_set1_same g (AVP_FLAGS.QUAL_DONE p) rfl (Nat.le_of_ble_eq_true rfl)⟩

theorem qualDone_input (sync arg : Nat) :
    (d.qualDone p sync arg).ntq.input = d.ntq.input ++ [⟨.event, idAVP p, 0x013, word arg, d.time⟩] := by
  rw [qualDone, notice_input, set1_ntq, unset_ntq, put_ntq, set1_time, unset_time, put_time]

/-- A pattern that every lane has counted ends. -/
theorem qualifyEnd_moves (h6 : d.portState p = 6) (hmask : d.get (AVP_PORT_STAT.MASK p) = 15)
    (hbits : ∀ j, 2 ^ (d.port p).link.qualDur - 64 ≤ (q j).bits) : ∃ sync arg attempt,
    d.qualifyEnd p [q 0, q 1, q 2, q 3] = ((d.lanesCounted p q).qualDone p sync arg).toSlip p attempt .qualifyReturn := by
  have hactive : ((lanesOf (d.get (AVP_PORT_STAT.MASK p))).filterMap fun l => ([q 0, q 1, q 2, q 3][l]?).map fun x => (l, x)) = fourLanes q := by
    rw [hmask, lanesOf_all]; rfl
  have hall : (fourLanes q).all (fun e => decide (2 ^ (d.port p).link.qualDur - 64 ≤ e.2.bits)) = true := by
    rw [List.all_eq_true]
    intro e he
    obtain ⟨l, rfl⟩ := (mem_fourLanes q e).1 he
    exact decide_eq_true (hbits l)
  have hcounted : (d.when (d.portState p = stQualify) (·.qualCounts p (fourLanes q))) = d.qualCounts p (fourLanes q) :=
    if_pos (by simp [stQualify, h6])
  obtain ⟨sync, hsync⟩ := d.qualCounts_eq p q
  have hstate : (d.qualCounts p (fourLanes q)).portState p = 6 := by
    obtain ⟨hcs, hss, -⟩ := qualFields_apart p
    rw [hsync]
    exact ((((d.lanesCounted_touches p q).mono (List.subset_append_left _ _)).put (l := countFields p ++ [AVP_QUAL_STAT.SYNC p])
      (f := AVP_QUAL_STAT.SYNC p) sync (by simp)).portState (fun f hf => by
        rcases List.mem_append.1 hf with hf | hf
        · exact hcs f hf
        · exact hss f (by simp at hf; simp [hf]))).trans h6
  refine ⟨sync, ?_⟩
  unfold qualDone
  rw [← hsync]
  unfold qualifyEnd
  rw [hactive]
  dsimp only
  rw [hcounted]
  exact ⟨_, _, if_pos (by rw [hstate, hall, Bool.or_true]; rfl)⟩

end
end Dev
end Sys2Proof.Machine
end


section
/-! PROOF. The lanes, PLLs and equaliser of the ports (O12). -/

open Sys2Proof Sys2Proof.Machine

namespace Sys2Proof.Machine

theorem bit_all : ∀ l : Fin 4, bit 15 l = true := by decide

section
variable {s : State} (hs : s.Ready) (p : Fin 16)
include hs

/-- QUALIFY_END where every lane has counted the pattern. -/
theorem qualifyEnd_ends (q : Fin 4 → QualLane) (h6 : s.dev.portState p = 6) (hmask : s.dev.get (AVP_PORT_STAT.MASK p) = 15)
    (hq : ∀ j, 2 ^ (s.dev.port p).link.qualDur - 64 ≤ (q j).bits ∧ (q j).bits < 2 ^ 48 ∧ (q j).errors < 2 ^ 48
      ∧ s.dev.get64 (AVP_QUAL_BITS.addr p j) ≤ (q j).bits ∧ s.dev.get64 (AVP_QUAL_ERR.addr p j) ≤ (q j).errors) :
    ∃ t l, exec (.qualifyEnd p (q 0) (q 1) (q 2) (q 3)) s = .next t ∧ t.dev.portState p = 2
      ∧ t.dev.is (AVP_QUAL_STAT.RUN p) = false ∧ t.dev.is (AVP_FLAGS.QUAL_DONE p) = true
      ∧ (∀ j : Fin 4, t.dev.get64 (AVP_QUAL_BITS.addr p j) = (q j).bits ∧ t.dev.get64 (AVP_QUAL_ERR.addr p j) = (q j).errors)
      ∧ (t.dev.port p).link.kind = .qualifyReturn
      ∧ t.dev.ntq.input = s.dev.ntq.input ++ [⟨.event, idAVP p, 0x013, l, s.dev.time⟩, ⟨.event, idAVP p, 0x010, 0x62#32, s.dev.time⟩]
      ∧ s.Keeps t fun a => a / 0x1_0000 = 0x10 + p.val := by
  obtain ⟨hcountState, hdoneState, -, hapart, hcountPage, hdonePage⟩ := Dev.qualFields_apart p
  obtain ⟨sync, arg, attempt, hend⟩ := s.dev.qualifyEnd_moves p q h6 hmask fun j => (hq j).1
  have hcounts := s.dev.lanesCounted_counts p q fun j => (hq j).2
  have hcounted := s.dev.lanesCounted_touches p q
  have hntq := s.dev.lanesCounted_ntq p q
  generalize s.dev.lanesCounted p q = c at *
  have hdone := c.qualDone_touches p sync arg
  obtain ⟨hrun, hflag⟩ := c.qualDone_flags p sync arg
  have hinput := c.qualDone_input p sync arg
  generalize c.qualDone p sync arg = g at *
  have hstate : g.portState p = 6 := (hdone.portState hdoneState).trans ((hcounted.portState hcountState).trans h6)
  have htime : g.time = s.dev.time := hdone.time.trans hcounted.time
  obtain ⟨e, he, hslip, hkind, hrun', hflag', hcounts', hinput', hframe⟩ := g.toSlip_slips p attempt .qualifyReturn (by omega)
    (by simp [Dev.portUp, hstate])
  rw [hinput, hntq, hstate, htime, hcounted.time, List.append_assoc] at hinput'
  refine ⟨_, word arg, State.answers_run hs (f := (·.qualifyEnd p [q 0, q 1, q 2, q 3])) rfl (hend.trans he), hslip, hrun'.trans hrun,
    hflag'.trans hflag, fun j => ?_, hkind, hinput',
    (((hcounted.toFrame hcountPage).trans (hdone.toFrame hdonePage)).trans hframe).keeps hs.2.2⟩
  obtain ⟨hbits, herr⟩ := (Dev.laneCounts_eq p).1 (hcounts j)
  obtain ⟨hbits', herr'⟩ := hcounts' j
  exact ⟨hbits'.trans ((hdone.get64 fun f hf => (hapart j f hf).1).trans hbits), herr'.trans ((hdone.get64 fun f hf => (hapart j f hf).2).trans herr)⟩

/-- BLOCK_LOCK_LOST on one of four locked lanes of a port that is UP or DEGRADED. -/
theorem blockLockLost_degrades (l : Fin 4) (hup : s.dev.portUp p = true) (hmask : s.dev.get (AVP_PORT_STAT.MASK p) = 15)
    (hlocks : ∀ j : Fin 4, s.dev.is (AVP_LANE_STAT.LOCK p j) = true) :
    ∃ t, exec (.blockLockLost p l) s = .next t ∧ t.dev.portState p = 7 ∧ t.dev.get (AVP_PORT_STAT.LANES p) = 2
      ∧ t.dev.get (AVP_PORT_STAT.MASK p) = (if l.val = 0 then 0b0110 else if l.val = 1 then 0b0101 else 0b0011)
      ∧ t.dev.is (AVP_FLAGS.DEGRADED p) = true
      ∧ .degrade (t.dev.get (AVP_PORT_STAT.MASK p)) 2 ∈ (t.dev.port p).link.blocks
      ∧ t.dev.get64 (AVP_DEGRADE_CNT.addr p) = (s.dev.get64 (AVP_DEGRADE_CNT.addr p) + 1) % 2 ^ 64
      ∧ s.Keeps t fun a => a / 0x1_0000 = 0x10 + p.val := by
  obtain ⟨-, -, -, hcnt, hpage, -⟩ := Dev.lossFields_clear p l
  obtain ⟨hleft, hcount, hsome⟩ := Dev.lanesLeft_mask l
  have hbit : bit (s.dev.get (AVP_PORT_STAT.MASK p)) l = true := by rw [hmask]; exact bit_all l
  have hlost := s.dev.blockLockLost_up p l (hlocks l) hup hbit (s.dev.lanesLeft p l hmask hlocks) hsome
  have htouch := s.dev.lockLost_touches p l
  generalize s.dev.lockLost p l = c at *
  have hlt : (if l.val = 0 then 0b0110 else if l.val = 1 then 0b0101 else 0b0011) < 16 := by split <;> [decide; (split <;> decide)]
  obtain ⟨e, he, hstate, hlanes, hmask', hflag, hblock, hcount', hframe⟩ := c.laneDegrade_degrades p l _ 2 ([0, 1, 2, 3].filter (· != l.val))
    hcount.symm hleft.symm hlt (by omega)
  rw [htouch.get64 hcnt] at hcount'
  exact ⟨_, State.answers_run hs (f := (·.blockLockLost p l)) rfl (hlost.trans he), hstate, hlanes, hmask', hflag,
    (show Dev.get e (AVP_PORT_STAT.MASK p) = _ from hmask') ▸ hblock, hcount', ((htouch.toFrame hpage).trans hframe).keeps hs.2.2⟩

end

/-- Settles O12: each command's own lemma, and the states of the lanes, the port and the PLL that lead to it. -/
theorem portLanesAndPlls : Obligations.PortLanesAndPlls := by
  refine ⟨fun s p l hs => ?_, fun s hs => ⟨fun pll => ⟨fun hlocked => ?_, fun hlost => ?_⟩, fun p l run hadapt hovr hrun => ?_⟩⟩
  · intro k
    refine ⟨?_, fun h2 h7 h6 => ?_, fun hlock h6 => ⟨?_, fun hup => ?_, fun hup hmask hlocks => ?_⟩, ?_, fun w slot hcount hword h3 hlock => ?_,
      fun q h6 hmask hq => ?_, fun b hb hrun hurg => ?_⟩
    · obtain ⟨hoff, hexcluded, hframe⟩ := s.dev.laneSignalLoss_flags p l
      generalize he : s.dev.laneSignalLoss p l = e at *
      exact ⟨_, State.answers_run hs (f := (·.laneSignalLoss p l)) rfl he, hoff, hexcluded, hframe.keeps hs.2.2⟩
    · obtain ⟨hlock, hframe⟩ := s.dev.blockLockGained_lock p l h2 h7 h6
      generalize he : s.dev.blockLockGained p l = e at *
      exact ⟨_, State.answers_run hs (f := (·.blockLockGained p l)) rfl he, hlock, hframe.keeps hs.2.2⟩
    · obtain ⟨hcount, htransient, hframe⟩ := s.dev.headerError_counts p l hlock h6
      generalize he : s.dev.headerError p l = e at *
      exact ⟨_, State.answers_run hs (f := (·.headerError p l)) rfl he, hcount, htransient, hframe.keeps hs.2.2⟩
    · obtain ⟨-, -, -, -, -, hregs, -⟩ := Dev.lossFields_clear p l
      obtain ⟨hoff, hflag, hcount⟩ := s.dev.lockLost_values p l
      have htouch := s.dev.lockLost_touches p l
      have hlost := s.dev.blockLockLost_down p l hlock h6 hup
      obtain ⟨e, he⟩ : ∃ e, s.dev.lockLost p l = e := ⟨_, rfl⟩
      rw [he] at hoff hflag hcount htouch hlost
      exact ⟨_, State.answers_run hs (f := (·.blockLockLost p l)) rfl hlost, hoff, hflag, hcount, (htouch.toFrame hregs).keeps hs.2.2⟩
    · exact blockLockLost_degrades hs p l hup hmask hlocks
    · obtain ⟨hflag, hcount, hframe⟩ := s.dev.badControl_values p
      generalize he : s.dev.badControl p = e at *
      exact ⟨_, State.answers_run hs (f := (·.badControl p)) rfl he, hflag, hcount, hframe.keeps hs.2.2⟩
    · have hmark := s.dev.alignReceive_marks p l (slot := slot) hcount hword h3 hlock
      have hlink := Dev.link_setLink s.dev p fun k => { k with markers := (l.val, ⟨slice w.toNat 24 16, slot⟩) :: k.markers.filter (·.1 != l.val) }
      exact ⟨_, State.answers_run hs (f := (·.alignReceive p l w.toNat slot (BitVec.ofNat 8 (slice w.toNat 40 8)))) rfl hmark, hlink,
        ((Dev.Frame.refl _ s.dev).other rfl rfl rfl rfl).keeps hs.2.2⟩
    · exact qualifyEnd_ends hs p q h6 hmask hq
    · obtain ⟨e, he, hout, hblocks, hframe⟩ := s.dev.controlSend_only p hb hrun hurg
      exact ⟨_, State.answers_run hs (f := (·.controlSend p)) rfl he, hout, hblocks, hframe.keeps hs.2.2⟩
  · have hloss : s.dev.pllLoss pll = s.dev.setPll pll false := if_pos hlocked
    have hbits := s.dev.setPll_locked pll false
    have hframe := s.dev.setPll_frame pll false
    generalize s.dev.setPll pll false = e at *
    refine ⟨_, State.answers_run hs (f := (·.pllLoss pll)) rfl hloss, fun j => (hbits j).trans ?_, hframe.keeps hs.2.2⟩
    by_cases h : j = pll <;> simp [h]
  · have hrelock : s.dev.pllRelock pll true = (s.dev.setPll pll true).transient idLPH := if_pos (by rw [hlost]; rfl)
    have hbits := s.dev.setPll_locked pll true
    have hframe := (s.dev.setPll_frame pll true).setMgt fun m => { m with
      transients := Tab.upd (fun _ => 0) m.transients idLPH fun n => n + 1 }
    generalize s.dev.setPll pll true = e at *
    refine ⟨_, State.answers_run hs (f := (·.pllRelock pll true)) rfl hrelock, fun j => (hbits j).trans ?_, hframe.keeps hs.2.2⟩
    by_cases h : j = pll <;> simp [h]
  · refine ⟨?_, ?_⟩
    · obtain ⟨hpeak, hframe⟩ := s.dev.adapt_moves p l true hadapt hovr hrun
      generalize he : s.dev.adapt p l true run = e at *
      exact ⟨_, State.answers_run hs (f := (·.adapt p l true run)) rfl he, hpeak, hframe.keeps hs.2.2⟩
    · obtain ⟨hpeak, hframe⟩ := s.dev.adapt_moves p l false hadapt hovr hrun
      generalize he : s.dev.adapt p l false run = e at *
      exact ⟨_, State.answers_run hs (f := (·.adapt p l false run)) rfl he, hpeak, hframe.keeps hs.2.2⟩

end Sys2Proof.Machine
end


section
/-! SUPPORT. The beginning of an attempt and the end of SLIP (R98, R110, R116). -/

open Sys2Proof Sys2Proof.Machine

namespace Sys2Proof.Machine
namespace Dev

/-! ### The beginning of an attempt (R110, R116) -/

section
variable (d : Dev) (p : Fin 16)

/-- The bits of a port's lanes that an attempt sets at its beginning. -/
def foundFields (p : Nat) : List Bits :=
  (List.range 4).flatMap fun l => [AVP_LANE_STAT.SIGNAL p l, AVP_LANE_STAT.LOCK p l, AVP_LANE_STAT.ALIGNED p l, AVP_LANE_STAT.EXCLUDED p l]

/-- A lane as an attempt begins, with or without signal. -/
def laneFound (signal : Nat) (l : Nat) (d : Dev) : Dev :=
  (((d.put (AVP_LANE_STAT.SIGNAL p l) (ofBool (bit signal l))).unset (AVP_LANE_STAT.LOCK p l)).unset (AVP_LANE_STAT.ALIGNED p l)).put
    (AVP_LANE_STAT.EXCLUDED p l) (ofBool !(bit signal l))

theorem laneFound_touches (signal l : Nat) : Touches [AVP_LANE_STAT.SIGNAL p l, AVP_LANE_STAT.LOCK p l, AVP_LANE_STAT.ALIGNED p l
    , AVP_LANE_STAT.EXCLUDED p l] d (laneFound p signal l d) :=
  ((((Touches.refl _ d).put (f := AVP_LANE_STAT.SIGNAL p l) _ (by simp)).unset (f := AVP_LANE_STAT.LOCK p l) (by simp)).unset
    (f := AVP_LANE_STAT.ALIGNED p l) (by simp)).put (f := AVP_LANE_STAT.EXCLUDED p l) _ (by simp)

theorem found_clear (l : Fin 4) : Clear [AVP_LANE_STAT.LOCK p l, AVP_LANE_STAT.ALIGNED p l, AVP_LANE_STAT.EXCLUDED p l] (AVP_LANE_STAT.SIGNAL p l)
    ∧ Clear [AVP_LANE_STAT.ALIGNED p l, AVP_LANE_STAT.EXCLUDED p l] (AVP_LANE_STAT.LOCK p l) := by revert p l; decide

/-- What the lanes of a port show as an attempt begins. -/
def laneFlags (l : Nat) (d : Dev) : Bool × Bool × Bool :=
  (d.is (AVP_LANE_STAT.SIGNAL p l), d.is (AVP_LANE_STAT.LOCK p l), d.is (AVP_LANE_STAT.EXCLUDED p l))

theorem laneFound_flags (signal : Nat) (l : Fin 4) : laneFlags p l (laneFound p signal l d) = (bit signal l, false, !bit signal l) := by
  obtain ⟨hsignal, hlock⟩ := found_clear p l
  unfold laneFlags laneFound
  have hput := is_put_ofBool d (AVP_LANE_STAT.SIGNAL p l) (bit signal l) (Nat.le_of_ble_eq_true rfl) rfl
  generalize d.put (AVP_LANE_STAT.SIGNAL p l) (ofBool (bit signal l)) = c at *
  have hunset := is_unset_same c (AVP_LANE_STAT.LOCK p l) (Nat.le_of_ble_eq_true rfl)
  have hafter : Touches [AVP_LANE_STAT.LOCK p l, AVP_LANE_STAT.ALIGNED p l, AVP_LANE_STAT.EXCLUDED p l] c
      (((c.unset (AVP_LANE_STAT.LOCK p l)).unset (AVP_LANE_STAT.ALIGNED p l)).put (AVP_LANE_STAT.EXCLUDED p l) (ofBool !bit signal l)) :=
    (((Touches.refl _ c).unset (f := AVP_LANE_STAT.LOCK p l) (by simp)).unset (f := AVP_LANE_STAT.ALIGNED p l) (by simp)).put
      (f := AVP_LANE_STAT.EXCLUDED p l) _ (by simp)
  rw [hafter.is hsignal, hput]
  generalize c.unset (AVP_LANE_STAT.LOCK p l) = g at *
  have hlast : Touches [AVP_LANE_STAT.ALIGNED p l, AVP_LANE_STAT.EXCLUDED p l] g
      ((g.unset (AVP_LANE_STAT.ALIGNED p l)).put (AVP_LANE_STAT.EXCLUDED p l) (ofBool !bit signal l)) :=
    ((Touches.refl _ g).unset (f := AVP_LANE_STAT.ALIGNED p l) (by simp)).put (f := AVP_LANE_STAT.EXCLUDED p l) _ (by simp)
  rw [hlast.is hlock, hunset, is_put_ofBool _ (AVP_LANE_STAT.EXCLUDED p l) _ (Nat.le_of_ble_eq_true rfl) rfl]

theorem laneFound_other (signal : Nat) (k : Nat) (l : Fin 4) (hne : k ≠ l.val) :
    laneFlags p l (laneFound p signal k d) = laneFlags p l d := by
  have hclear : ∀ f ∈ [AVP_LANE_STAT.SIGNAL p k, AVP_LANE_STAT.LOCK p k, AVP_LANE_STAT.ALIGNED p k, AVP_LANE_STAT.EXCLUDED p k],
      f.off ≠ AVP_LANE_STAT.addr p l := by
    have hoff : AVP_LANE_STAT.addr p k ≠ AVP_LANE_STAT.addr p l := by unfold AVP_LANE_STAT.addr; omega
    simp only [List.forall_mem_cons]
    exact ⟨hoff, hoff, hoff, hoff, List.forall_mem_nil _⟩
  have htouch := d.laneFound_touches p signal k
  unfold laneFlags
  rw [htouch.is (g := AVP_LANE_STAT.SIGNAL p l) fun f hf => .inl (hclear f hf), htouch.is (g := AVP_LANE_STAT.LOCK p l) fun f hf => .inl (hclear f hf),
    htouch.is (g := AVP_LANE_STAT.EXCLUDED p l) fun f hf => .inl (hclear f hf)]

/-- The lanes of a port as an attempt begins. -/
def lanesFound (signal : Nat) : Dev := d.forEach (List.range 4) (laneFound p signal)

theorem laneFound_within (signal l : Nat) (hl : l ∈ List.range 4) : Touches (foundFields p) d (laneFound p signal l d) :=
  (d.laneFound_touches p signal l).mono fun _ hf => List.mem_flatMap_of_mem hl hf

theorem lanesFound_touches (signal : Nat) : Touches (foundFields p) d (d.lanesFound p signal) :=
  (Touches.refl _ d).forEach _ _ fun l hl g hg => hg.trans (g.laneFound_within p signal l hl)

theorem lanesFound_flags (signal : Nat) (l : Fin 4) : laneFlags p l (d.lanesFound p signal) = (bit signal l, false, !bit signal l) := by
  obtain ⟨e, -, -, he⟩ := forEach_at (laneFlags p l) (foundFields p) List.nodup_range (List.mem_range.2 l.isLt) (laneFound p signal) d
    (fun k hk g => g.laneFound_within p signal k hk) fun k _ hne g => g.laneFound_other p signal k l hne
  exact he.trans (e.laneFound_flags p signal l)

theorem lanesFound_ntq (signal : Nat) : (d.lanesFound p signal).ntq = d.ntq :=
  forEach_keeps (·.ntq) _ _ (fun l e => by rw [laneFound, put_ntq, unset_ntq, unset_ntq, put_ntq]) d

/-- A port as an attempt begins, before it goes to SLIP. -/
def attemptBegun (signal : Nat) : Dev :=
  let found := ((d.count (AVP_ATTEMPT_CNT.addr p)).lanesFound p signal).put (AVP_PORT_STAT.RATE p) 0
  found.setLink p fun l => { l with
    attempt := some found.time, kind := .fresh, slipAt := found.time, markers := [], boundary := [], degrade := none }

theorem ulcStable_moves (signal : Nat) (h1 : d.portState p = 1) (hhold : (d.port p).link.hold = none)
    (hfrom : (d.port p).link.seekFrom = 0 ∨ (d.port p).link.seekFrom + us 10 ≤ d.time) :
    d.ulcStable p signal = (d.attemptBegun p signal).setState p 2 := by
  unfold ulcStable attemptBegun lanesFound laneFound stSlip
  exact if_pos (by simp [stSeek, h1, hhold, hfrom])

/-- The fields of an attempt's beginning, but for those of the state. -/
def begunFields : List Bits := AVP_PORT_STAT.RATE p :: pair (AVP_ATTEMPT_CNT.addr p) ++ foundFields p

theorem begunFields_clear : Clear (begunFields p) (AVP_PORT_STAT.STATE p) ∧ (∀ f ∈ begunFields p, OnPage p f.off)
    ∧ (∀ l : Fin 4, Clear (begunFields p) (AVP_LANE_CTL.PI_MAN p l) ∧ Clear (begunFields p) (AVP_LANE_CTL.PI_CODE p l))
    ∧ (∀ f ∈ AVP_PORT_STAT.RATE p :: foundFields p, f.off ≠ AVP_ATTEMPT_CNT.addr p ∧ f.off ≠ AVP_ATTEMPT_CNT.addr p + 4)
    ∧ ∀ l : Fin 4, Clear [AVP_PORT_STAT.RATE p] (AVP_LANE_STAT.SIGNAL p l) ∧ Clear [AVP_PORT_STAT.RATE p] (AVP_LANE_STAT.LOCK p l)
      ∧ Clear [AVP_PORT_STAT.RATE p] (AVP_LANE_STAT.EXCLUDED p l) := by revert p; decide

theorem attemptBegun_touches (signal : Nat) : Touches (begunFields p) d (d.attemptBegun p signal) := by
  unfold attemptBegun begunFields
  exact (((((Touches.refl _ d).count (a := AVP_ATTEMPT_CNT.addr p) fun _ hf => List.mem_append_left _ (List.mem_cons_of_mem _ hf)).trans
    ((lanesFound_touches _ p signal).mono (List.subset_append_right _ _))).put (f := AVP_PORT_STAT.RATE p) 0
    (List.mem_append_left _ List.mem_cons_self)).setLink _ _)

/-- What an attempt's beginning has set before the port goes to SLIP. -/
theorem attemptBegun_values (signal : Nat) : (d.attemptBegun p signal).get (AVP_PORT_STAT.RATE p) = 0
    ∧ (d.attemptBegun p signal).get64 (AVP_ATTEMPT_CNT.addr p) = (d.get64 (AVP_ATTEMPT_CNT.addr p) + 1) % 2 ^ 64
    ∧ ((d.attemptBegun p signal).port p).link.attempt = some d.time
    ∧ (∀ l : Fin 4, laneFlags p l (d.attemptBegun p signal) = (bit signal l, false, !bit signal l))
    ∧ (d.attemptBegun p signal).ntq = d.ntq := by
  obtain ⟨-, -, -, hapart, hrate⟩ := begunFields_clear p
  have hcount := get64_count_same d (AVP_ATTEMPT_CNT.addr p)
  have hcounted := (Touches.refl (pair (AVP_ATTEMPT_CNT.addr p)) d).count (List.Subset.refl _)
  have hntq := count_ntq d (AVP_ATTEMPT_CNT.addr p)
  unfold attemptBegun
  generalize d.count (AVP_ATTEMPT_CNT.addr p) = c at *
  have hfound := c.lanesFound_touches p signal
  have hflags := c.lanesFound_flags p signal
  have hntq' := c.lanesFound_ntq p signal
  generalize c.lanesFound p signal = g at *
  have hput := get_put_same g (AVP_PORT_STAT.RATE p) 0 (Nat.le_of_ble_eq_true rfl)
  have htouch := (Touches.refl [AVP_PORT_STAT.RATE p] g).put 0 List.mem_cons_self
  have hntq'' := put_ntq g (AVP_PORT_STAT.RATE p) 0
  generalize g.put (AVP_PORT_STAT.RATE p) 0 = e at *
  have htime : e.time = d.time := htouch.time.trans (hfound.time.trans hcounted.time)
  have hkept : Touches (AVP_PORT_STAT.RATE p :: foundFields p) c e :=
    (hfound.mono (List.subset_cons_self _ _)).trans (htouch.mono (List.cons_subset.2 ⟨List.mem_cons_self, List.nil_subset _⟩))
  refine ⟨by rw [setLink_get]; exact hput, by rw [setLink_get64]; exact (hkept.get64 hapart).trans hcount, by rw [link_setLink, ← htime],
    fun l => ?_, by rw [setLink_ntq, hntq'', hntq', hntq]⟩
  obtain ⟨hs, hl, he⟩ := hrate l
  rw [← hflags l]
  unfold laneFlags
  rw [setLink_is, setLink_is, setLink_is, htouch.is hs, htouch.is hl, htouch.is he]

/-! ### The trackers in SLIP (R98) -/

theorem phase_clear : (∀ l : Fin 4, Clear (phaseFields p) (AVP_LANE_CTL.PI_MAN p l) ∧ Clear (phaseFields p) (AVP_LANE_CTL.PI_CODE p l)
      ∧ Clear [AVP_FLAGS.STATE_CHG p] (AVP_LANE_STAT.PI_NOW p l) ∧ Clear [AVP_PORT_STAT.STATE p] (AVP_LANE_CTL.PI_MAN p l)
      ∧ Clear [AVP_PORT_STAT.STATE p] (AVP_LANE_CTL.PI_CODE p l))
    ∧ ∀ k l : Fin 4, k ≠ l → Clear [AVP_LANE_STAT.PI_NOW p k] (AVP_LANE_STAT.PI_NOW p l) := by revert p; decide

theorem trackState_phase (l : Fin 4) : (d.trackState p 2).get (AVP_LANE_STAT.PI_NOW p l)
    = if d.is (AVP_LANE_CTL.PI_MAN p l) = true then d.get (AVP_LANE_CTL.PI_CODE p l) else 32 := by
  obtain ⟨hlane, hothers⟩ := phase_clear p
  obtain ⟨hman, hcode, -, -⟩ := hlane l
  obtain ⟨e, htouch, -, he⟩ := forEach_at (·.get (AVP_LANE_STAT.PI_NOW p l)) (phaseFields p) List.nodup_range (List.mem_range.2 l.isLt)
    (fun l d => d.trackFrom p l 32) d
    (fun k hk g => (g.trackFrom_touches p k 32).mono (List.cons_subset.2 ⟨List.mem_map_of_mem hk, List.nil_subset _⟩))
    fun k hk hne g => (g.trackFrom_touches p k 32).get (hothers ⟨k, List.mem_range.1 hk⟩ l fun h => hne (congrArg Fin.val h))
  refine he.trans ((e.trackFrom_phase p l 32).trans ?_)
  rw [htouch.is hman, htouch.get hcode]

/-- A port that enters SLIP starts its trackers. -/
theorem stateMoved_phase (l : Fin 4) : (d.stateMoved p 2).get (AVP_LANE_STAT.PI_NOW p l)
    = if d.is (AVP_LANE_CTL.PI_MAN p l) = true then d.get (AVP_LANE_CTL.PI_CODE p l) else 32 := by
  obtain ⟨hlane, -⟩ := phase_clear p
  obtain ⟨-, -, hflag, hman, hcode⟩ := hlane l
  have hput := d.put_state_touches p 2 [AVP_PORT_STAT.STATE p] List.mem_cons_self
  unfold stateMoved
  generalize (if 2 = 4 || 2 = 5 || 2 = 7 then d else d.setPk p fun k => { k with ready := [] }).put (AVP_PORT_STAT.STATE p) 2 = c at *
  have hafter := ((Touches.refl [AVP_FLAGS.STATE_CHG p] (c.trackState p 2)).set1 List.mem_cons_self).notice .event (idAVP p) 0x010 (d.portState p * 16 + 2)
  rw [hafter.get hflag, trackState_phase, hput.is hman, hput.get hcode]

/-! ### The end of SLIP (R110) -/

theorem goodLanes_all (f : Nat → Nat → Bits)
    (h : ∀ l : Fin 4, d.is (AVP_LANE_STAT.EXCLUDED p l) = false ∧ d.is (f p l) = true) : d.goodLanes p f = List.range 4 :=
  List.filter_eq_self.2 fun l hl => by
    obtain ⟨hin, hgood⟩ := h ⟨l, List.mem_range.1 hl⟩
    dsimp only at hin hgood
    rw [hin, hgood]
    rfl

/-- A port as SLIP ends, before it goes to DESKEW. -/
def slipLeft : Dev := d.setLink p fun k => { k with deskewAt := d.time, markers := [] }

theorem slipEnd_moves (h2 : d.portState p = 2)
    (h : ∀ l : Fin 4, d.is (AVP_LANE_STAT.EXCLUDED p l) = false ∧ d.is (AVP_LANE_STAT.LOCK p l) = true) :
    d.slipEnd p = (d.slipLeft p).setState p 3 := by
  have hlive : (List.range 4).filter (fun l => !d.is (AVP_LANE_STAT.EXCLUDED p l)) = List.range 4 := List.filter_eq_self.2 fun l hl => by
    obtain ⟨hin, -⟩ := h ⟨l, List.mem_range.1 hl⟩
    dsimp only at hin
    rw [hin]
    rfl
  have hgood := d.goodLanes_all p AVP_LANE_STAT.LOCK h
  have hloop : (d.forEach (List.range 4) fun l d => d.when (!(List.range 4).contains l) (·.set1 (AVP_LANE_STAT.EXCLUDED p l))) = d := rfl
  unfold slipEnd
  rw [hlive, hgood]
  refine (if_pos (by simp [stSlip, h2])).trans ?_
  dsimp only
  rw [hloop]
  exact if_neg Bool.false_ne_true

end
end Dev

section
variable {s : State} (hs : s.Ready) (p : Fin 16)
include hs

/-- ULC_STABLE in SEEK, 10 us after the last hold. -/
theorem ulcStable_begins (signal : BitVec 4) (h1 : s.dev.portState p = 1) (hhold : (s.dev.port p).link.hold = none)
    (hfrom : (s.dev.port p).link.seekFrom = 0 ∨ (s.dev.port p).link.seekFrom + us 10 ≤ s.dev.time) :
    ∃ t, exec (.ulcStable p signal) s = .next t ∧ t.dev.portState p = 2 ∧ t.dev.get (AVP_PORT_STAT.RATE p) = 0
      ∧ t.dev.get64 (AVP_ATTEMPT_CNT.addr p) = (s.dev.get64 (AVP_ATTEMPT_CNT.addr p) + 1) % 2 ^ 64
      ∧ (t.dev.port p).link.attempt = some s.dev.time
      ∧ (∀ l : Fin 4, t.dev.is (AVP_LANE_STAT.SIGNAL p l) = signal.getLsbD l ∧ t.dev.is (AVP_LANE_STAT.LOCK p l) = false
        ∧ t.dev.is (AVP_LANE_STAT.EXCLUDED p l) = !signal.getLsbD l
        ∧ t.dev.get (AVP_LANE_STAT.PI_NOW p l)
          = if s.dev.is (AVP_LANE_CTL.PI_MAN p l) = true then s.dev.get (AVP_LANE_CTL.PI_CODE p l) else 32)
      ∧ t.dev.ntq.input = s.dev.ntq.input ++ [⟨.event, idAVP p, 0x010, 0x12#32, s.dev.time⟩]
      ∧ s.Keeps t fun a => a / 0x1_0000 = 0x10 + p.val := by
  obtain ⟨hstate, hpage, hctl, -, -⟩ := Dev.begunFields_clear p
  have htouch := s.dev.attemptBegun_touches p signal.toNat
  obtain ⟨hrate, hcount, hattempt, hflags, hntq⟩ := s.dev.attemptBegun_values p signal.toNat
  have hmoves := s.dev.ulcStable_moves p signal.toNat h1 hhold hfrom
  generalize s.dev.attemptBegun p signal.toNat = c at *
  have h1' : c.portState p = 1 := (htouch.portState hstate).trans h1
  have hquiet := Dev.setState_quiet (d := c) (s := 2) p (by omega) (by omega) (by simp [Dev.portUp, h1']) (by omega) (by omega)
  have hentered := Dev.setState_entered (d := c) (s := 2) p (by omega) (by omega)
  have hphase := c.stateMoved_phase p
  have hinput := c.stateMoved_input p 2
  rw [← hquiet] at hphase hinput
  obtain ⟨e, he⟩ : ∃ e, c.setState p 2 = e := ⟨_, rfl⟩
  rw [he] at hmoves hentered hphase hinput
  rw [hntq, h1', htouch.time] at hinput
  refine ⟨_, State.answers_run hs (f := (·.ulcStable p signal.toNat)) rfl hmoves, hentered.state,
    (hentered.get (by simp [Dev.keptFields])).trans hrate, (hentered.get64 (by simp [Dev.keptPairs])).trans hcount,
    (congrArg Link.attempt hentered.link).trans hattempt, fun l => ?_, hinput, ((htouch.toFrame hpage).trans hentered.frame).keeps hs.2.2⟩
  obtain ⟨hman, hcode⟩ := hctl l
  have hbit : bit signal.toNat l = signal.getLsbD l := BitVec.testBit_toNat signal
  have hlane := hflags l
  rw [hbit] at hlane
  obtain ⟨hsignal, hrest⟩ := Prod.mk.inj hlane
  obtain ⟨hlock, hexcluded⟩ := Prod.mk.inj hrest
  have hmem := List.mem_range.2 l.isLt
  have hkept : ∀ g ∈ [AVP_LANE_STAT.SIGNAL p l, AVP_LANE_STAT.LOCK p l, AVP_LANE_STAT.EXCLUDED p l], g ∈ Dev.keptFields p := fun g hg =>
    List.mem_append_right _ (List.mem_flatMap_of_mem hmem (by
      simp only [List.mem_cons, List.not_mem_nil, or_false] at hg ⊢
      rcases hg with h | h | h <;> simp [h]))
  have hp := hphase l
  rw [htouch.is hman, htouch.get hcode] at hp
  exact ⟨(hentered.is (hkept _ (by simp))).trans hsignal, (hentered.is (hkept _ (by simp))).trans hlock,
    (hentered.is (hkept _ (by simp))).trans hexcluded, hp⟩

/-- SLIP_END with every lane locked. -/
theorem slipEnd_deskews (h2 : s.dev.portState p = 2)
    (hlanes : ∀ l : Fin 4, s.dev.is (AVP_LANE_STAT.EXCLUDED p l) = false ∧ s.dev.is (AVP_LANE_STAT.LOCK p l) = true) :
    ∃ t, exec (.slipEnd p) s = .next t ∧ t.dev.portState p = 3 ∧ (t.dev.port p).link.deskewAt = s.dev.time
      ∧ (t.dev.port p).link.markers = [] ∧ t.dev.ntq.input = s.dev.ntq.input ++ [⟨.event, idAVP p, 0x010, 0x23#32, s.dev.time⟩]
      ∧ s.Keeps t fun a => a = AVP_PORT_STAT.addr p ∨ a = AVP_FLAGS.addr p := by
  have hmoves := s.dev.slipEnd_moves p h2 hlanes
  have htouch : Dev.Touches [] s.dev (s.dev.slipLeft p) := (Dev.Touches.refl _ s.dev).setLink _ _
  have hlink : ((s.dev.slipLeft p).port p).link = { (s.dev.port p).link with deskewAt := s.dev.time, markers := [] } := Dev.link_setLink _ _ _
  have hntq : (s.dev.slipLeft p).ntq = s.dev.ntq := Dev.setLink_ntq _ _ _
  generalize s.dev.slipLeft p = c at *
  have h2' : c.portState p = 2 := (htouch.portState (List.forall_mem_nil _)).trans h2
  have hquiet := Dev.setState_quiet (d := c) (s := 3) p (by omega) (by omega) (by simp [Dev.portUp, h2']) (by omega) (by omega)
  have hinput := c.stateMoved_input p 3
  have hmoved := c.stateMoved_touches p 3
  have hmovedLink := c.stateMoved_link p 3
  have hstate := c.stateMoved_state p 3 (by omega)
  rw [hquiet] at hmoves
  obtain ⟨e, he⟩ : ∃ e, c.stateMoved p 3 = e := ⟨_, rfl⟩
  rw [he] at hmoves hinput hmoved hmovedLink hstate
  rw [hntq, h2', htouch.time] at hinput
  rw [hlink] at hmovedLink
  refine ⟨_, State.answers_run hs (f := (·.slipEnd p)) rfl hmoves, hstate, congrArg Link.deskewAt hmovedLink, congrArg Link.markers hmovedLink, hinput,
    ((htouch.toFrame (List.forall_mem_nil _)).trans (hmoved.toFrame ?_)).keeps hs.2.2⟩
  intro f hf
  simp only [Dev.movedFields] at hf
  simp at hf
  rcases hf with rfl | rfl
  · exact .inl rfl
  · exact .inr rfl

end
end Sys2Proof.Machine
end


section
/-! SUPPORT. The end of DESKEW (R111, R112, R116). -/

open Sys2Proof Sys2Proof.Machine

namespace Sys2Proof.Machine
namespace Dev

/-! ### Skews (R111) -/

/-- Two markers of one number are as far apart as their slots. -/
theorem markerSkew_same (q x y : Nat) (hq : q < 2 ^ 16) : markerSkew ⟨q, x⟩ ⟨q, y⟩ = (x : Int) - y := by
  have hzero : signed 16 (q + 2 ^ 16 - q % 2 ^ 16) = 0 := by
    rw [Nat.mod_eq_of_lt hq, Nat.add_sub_cancel_left]; rfl
  unfold markerSkew
  rw [hzero]
  dsimp only
  omega

/-- The skews of four lanes whose markers have one number, where lane 0 is the earliest. -/
theorem skews_four (q : Nat) (hq : q < 2 ^ 16) (x : Fin 4 → Nat) (hx : ∀ l, x 0 ≤ x l) :
    skews (fourLanes fun l => ⟨q, x l⟩) = fourLanes fun l => x l - x 0 := by
  have h1 := hx 1
  have h2 := hx 2
  have h3 := hx 3
  unfold skews fourLanes
  simp only [List.map_cons, List.map_nil, markerSkew_same q _ _ hq, List.foldl_cons, List.foldl_nil]
  rw [if_neg (by omega), if_neg (by omega), if_neg (by omega), if_neg (by omega)]
  simp only [List.cons.injEq, Prod.mk.injEq, true_and, and_true]
  exact ⟨by omega, by omega, by omega, by omega⟩

/-! ### The lanes aligned (R111, R112) -/

section
variable (d : Dev) (p : Fin 16)

def skewFields (p : Nat) : List Bits := (List.range 4).map (AVP_LANE_STAT.SKEW p)
def alignedFields (p : Nat) : List Bits := (List.range 4).map (AVP_LANE_STAT.ALIGNED p)

/-- The skews that DESKEW measured, shown and kept. -/
def skewsSet (sk : List (Nat × Nat)) : Dev :=
  (d.forEach sk fun e d => d.put (AVP_LANE_STAT.SKEW p e.1) (Nat.min 127 e.2)).setLink p fun k => { k with skew := sk }

/-- Every lane aligned. -/
def lanesAligned : Dev := d.forEach (List.range 4) fun l d => d.set1 (AVP_LANE_STAT.ALIGNED p l)

theorem skewFields_clear : (∀ k l : Fin 4, k ≠ l → Clear [AVP_LANE_STAT.SKEW p k] (AVP_LANE_STAT.SKEW p l)
      ∧ Clear [AVP_LANE_STAT.ALIGNED p k] (AVP_LANE_STAT.ALIGNED p l))
    ∧ ∀ l : Fin 4, Clear (alignedFields p) (AVP_LANE_STAT.SKEW p l)
      ∧ Clear [AVP_PORT_STAT.MASK p, AVP_PORT_STAT.LANES p] (AVP_LANE_STAT.SKEW p l)
      ∧ Clear [AVP_PORT_STAT.MASK p, AVP_PORT_STAT.LANES p] (AVP_LANE_STAT.ALIGNED p l) := by revert p; decide

variable (y : Fin 4 → Nat)

theorem skewsSet_touches : Touches (skewFields p) d (d.skewsSet p (fourLanes y)) :=
  ((Touches.refl _ d).forEach _ _ fun e he g hg => by
    obtain ⟨l, rfl⟩ := (mem_fourLanes y e).1 he
    exact hg.put (f := AVP_LANE_STAT.SKEW p l) _ (List.mem_map_of_mem (List.mem_range.2 l.isLt))).setLink _ _

theorem skewsSet_skew (hy : ∀ l, y l ≤ 64) (l : Fin 4) : (d.skewsSet p (fourLanes y)).get (AVP_LANE_STAT.SKEW p l) = y l := by
  obtain ⟨hothers, -⟩ := skewFields_clear p
  obtain ⟨e, -, -, he⟩ := forEach_at (·.get (AVP_LANE_STAT.SKEW p l)) (skewFields p) (fourLanes_nodup y) ((mem_fourLanes y _).2 ⟨l, rfl⟩)
    (fun e d => d.put (AVP_LANE_STAT.SKEW p e.1) (Nat.min 127 e.2)) d
    (fun a ha g => by
      obtain ⟨k, rfl⟩ := (mem_fourLanes y a).1 ha
      exact (Touches.refl _ g).put (f := AVP_LANE_STAT.SKEW p k) _ (List.mem_map_of_mem (List.mem_range.2 k.isLt)))
    (fun a ha hne g => by
      obtain ⟨k, rfl⟩ := (mem_fourLanes y a).1 ha
      exact ((Touches.refl [AVP_LANE_STAT.SKEW p k] g).put (f := AVP_LANE_STAT.SKEW p k) _ List.mem_cons_self).get
        (hothers k l fun h => hne (by rw [h])).1)
  have hle := hy l
  have hmin : Nat.min 127 (y l) = y l := Nat.min_eq_right (by omega)
  refine (setLink_get _ _ _ _).trans (he.trans ((get_put_same e (AVP_LANE_STAT.SKEW p l) _ (Nat.le_of_ble_eq_true rfl)).trans ?_))
  rw [hmin]
  exact Nat.mod_eq_of_lt (Nat.lt_of_le_of_lt hle (show 64 < 2 ^ 7 by decide))

theorem lanesAligned_touches : Touches (alignedFields p) d (d.lanesAligned p) :=
  (Touches.refl _ d).forEach _ _ fun l hl _ hg => hg.set1 (f := AVP_LANE_STAT.ALIGNED p l) (List.mem_map_of_mem hl)

theorem lanesAligned_aligned (l : Fin 4) : (d.lanesAligned p).is (AVP_LANE_STAT.ALIGNED p l) = true := by
  obtain ⟨hothers, -⟩ := skewFields_clear p
  obtain ⟨e, -, -, he⟩ := forEach_at (·.is (AVP_LANE_STAT.ALIGNED p l)) (alignedFields p) List.nodup_range (List.mem_range.2 l.isLt)
    (fun l d => d.set1 (AVP_LANE_STAT.ALIGNED p l)) d
    (fun k hk g => (Touches.refl _ g).set1 (f := AVP_LANE_STAT.ALIGNED p k) (List.mem_map_of_mem hk))
    (fun k hk hne g => ((Touches.refl [AVP_LANE_STAT.ALIGNED p k] g).set1 (f := AVP_LANE_STAT.ALIGNED p k) List.mem_cons_self).is
      (hothers ⟨k, List.mem_range.1 hk⟩ l fun h => hne (congrArg Fin.val h)).2)
  exact he.trans (is_set1_same e (AVP_LANE_STAT.ALIGNED p l) rfl (Nat.le_of_ble_eq_true rfl))

/-- A port whose four lanes are aligned, before it goes to NEGOTIATE. -/
def deskewed : Dev :=
  ((((((d.skewsSet p (fourLanes y)).lanesAligned p).put (AVP_PORT_STAT.MASK p) 15).put (AVP_PORT_STAT.LANES p) 4).setPk p fun q => { q with
    rxSeq := none }).setLink p fun k => { k with offers := 0 })

theorem deskewEnd_moves {q : Nat} (hq : q < 2 ^ 16) {x : Fin 4 → Nat} (h3 : d.portState p = 3) (hfresh : (d.port p).link.kind = .fresh)
    (hlanes : ∀ l : Fin 4, d.is (AVP_LANE_STAT.EXCLUDED p l) = false ∧ d.is (AVP_LANE_STAT.LOCK p l) = true)
    (hmarks : (d.port p).link.markers = fourLanes fun l => ⟨q, x l⟩) (hx : ∀ l, x 0 ≤ x l ∧ x l ≤ x 0 + 64) :
    d.deskewEnd p = ((d.deskewed p fun l => x l - x 0).setState p 4).offer p := by
  have hgood := d.goodLanes_all p AVP_LANE_STAT.LOCK hlanes
  have hseen : (fourLanes fun l => (⟨q, x l⟩ : LaneMarker)).filter (fun e => (List.range 4).contains e.1) = fourLanes fun l => ⟨q, x l⟩ := rfl
  have hskews := skews_four q hq x fun l => (hx l).1
  have hok : ((fourLanes fun l => x l - x 0).filter fun e => decide (e.2 ≤ 64)).map (·.1) = List.range 4 := by
    rw [List.filter_eq_self.2]
    · rfl
    · intro e he
      obtain ⟨l, rfl⟩ := (mem_fourLanes _ e).1 he
      have := (hx l).2
      exact decide_eq_true (by dsimp only; omega)
  unfold deskewEnd
  rw [hgood]
  dsimp only
  rw [hmarks, hseen, hskews, hok]
  refine (if_pos (by simp [stDeskew, h3, fourLanes])).trans ?_
  refine (if_neg (by rw [hfresh]; decide)).trans ((if_neg (by rw [hfresh]; decide)).trans ?_)
  rfl

/-- The fields of the end of a successful DESKEW, but for those of the state. -/
def deskewFields (p : Nat) : List Bits := skewFields p ++ alignedFields p ++ [AVP_PORT_STAT.MASK p, AVP_PORT_STAT.LANES p]

/-- The fields that a CAPS packet of the host's tells of. -/
def capsFields (p : Nat) : List Bits := [AVP_PORT_CFG.VER_MAX p, AVP_PORT_CFG.RATE_MAX p, AVP_PORT_CFG.LANES_MAX p, AVP_PORT_STAT.CEILING p]

theorem deskewFields_clear : Clear (deskewFields p) (AVP_PORT_STAT.STATE p) ∧ (∀ f ∈ deskewFields p, OnPage p f.off)
    ∧ (∀ g ∈ capsFields p, Clear (deskewFields p) g) ∧ (∀ g ∈ capsFields p, Clear (stateFields p) g)
    ∧ Clear [AVP_PORT_STAT.LANES p] (AVP_PORT_STAT.MASK p) := by revert p; decide

variable {d} in
theorem Touches.capsBody {l : List Bits} {e : Dev} (h : Touches l d e) (hl : ∀ g ∈ capsFields p, Clear l g) (res : Option (Nat × Nat × Nat)) :
    e.capsBody p res = d.capsBody p res := by
  simp only [capsFields, List.forall_mem_cons] at hl
  obtain ⟨hver, hrate, hlanes, hceiling, -⟩ := hl
  unfold Dev.capsBody
  rw [h.get hver, h.get hrate, h.get hlanes, h.get hceiling]

theorem skewsSet_port : ((d.skewsSet p (fourLanes y)).port p).pk = (d.port p).pk := by
  rw [skewsSet, pk_setLink, forEach_keeps (·.port p) _ _ fun e g => port_put g _ _ _]

theorem lanesAligned_port : (d.lanesAligned p).port p = d.port p := forEach_keeps (·.port p) _ _ (fun _ g => port_set1 g _ _) d

theorem deskewed_touches : Touches (deskewFields p) d (d.deskewed p y) :=
  ((((((d.skewsSet_touches p y).mono fun _ hf => List.mem_append_left _ (List.mem_append_left _ hf)).trans
    ((lanesAligned_touches _ p).mono fun _ hf => List.mem_append_left _ (List.mem_append_right _ hf))).put (f := AVP_PORT_STAT.MASK p) 15
    (List.mem_append_right _ List.mem_cons_self)).put (f := AVP_PORT_STAT.LANES p) 4 (List.mem_append_right _ (by simp))).setPk _ _).setLink _ _

theorem deskewed_ready : ((d.deskewed p y).port p).pk.ready = (d.port p).pk.ready := by
  rw [deskewed, pk_setLink, pk_setPk_same, port_put, port_put, lanesAligned_port, skewsSet_port]

theorem deskewed_offers : ((d.deskewed p y).port p).link.offers = 0 := by rw [deskewed, link_setLink]

/-- What DESKEW has set before the port goes to NEGOTIATE. -/
theorem deskewed_values (hy : ∀ l, y l ≤ 64) : (d.deskewed p y).get (AVP_PORT_STAT.MASK p) = 15 ∧ (d.deskewed p y).get (AVP_PORT_STAT.LANES p) = 4
    ∧ ∀ l : Fin 4, (d.deskewed p y).is (AVP_LANE_STAT.ALIGNED p l) = true ∧ (d.deskewed p y).get (AVP_LANE_STAT.SKEW p l) = y l := by
  obtain ⟨-, hskew⟩ := skewFields_clear p
  obtain ⟨-, -, -, -, hmask⟩ := deskewFields_clear p
  have hset := d.skewsSet_skew p y hy
  unfold deskewed
  generalize d.skewsSet p (fourLanes y) = b at *
  have haligned := b.lanesAligned_aligned p
  have hba := b.lanesAligned_touches p
  generalize b.lanesAligned p = c at *
  have hput := get_put_same c (AVP_PORT_STAT.MASK p) 15 (Nat.le_of_ble_eq_true rfl)
  have hcm := (Touches.refl [AVP_PORT_STAT.MASK p, AVP_PORT_STAT.LANES p] c).put (f := AVP_PORT_STAT.MASK p) 15 List.mem_cons_self
  generalize c.put (AVP_PORT_STAT.MASK p) 15 = g at *
  have hlanes := get_put_same g (AVP_PORT_STAT.LANES p) 4 (Nat.le_of_ble_eq_true rfl)
  have hgl := (Touches.refl [AVP_PORT_STAT.LANES p] g).put (f := AVP_PORT_STAT.LANES p) 4 List.mem_cons_self
  have hall := hcm.put (f := AVP_PORT_STAT.LANES p) 4 (List.mem_cons_of_mem _ List.mem_cons_self)
  generalize g.put (AVP_PORT_STAT.LANES p) 4 = e at *
  generalize hk : Dev.setLink (Dev.setPk e p _) p _ = k
  have hek : Touches [] e k := hk ▸ ((Touches.refl [] e).setPk p _).setLink p _
  refine ⟨(hek.get (List.forall_mem_nil _)).trans ((hgl.get hmask).trans hput), (hek.get (List.forall_mem_nil _)).trans hlanes, fun l => ?_⟩
  obtain ⟨hskewAligned, hskewKept, halignedKept⟩ := hskew l
  exact ⟨(hek.is (List.forall_mem_nil _)).trans ((hall.is halignedKept).trans (haligned l)),
    (hek.get (List.forall_mem_nil _)).trans ((hall.get hskewKept).trans ((hba.get hskewAligned).trans (hset l)))⟩

/-- A port that enters NEGOTIATE keeps the packets ready. -/
theorem stateMoved_negotiate : (d.stateMoved p 4).port p = d.port p := by
  unfold stateMoved trackState
  rw [port_notice, port_set1, if_neg (by decide), if_pos (by decide), port_put, if_pos (by decide)]

end
end Dev

/-- DESKEW_END with four lanes aligned. -/
theorem deskewEnd_negotiates {s : State} (hs : s.Ready) (p : Fin 16) (q : BitVec 16) (x : Fin 4 → Nat) (h3 : s.dev.portState p = 3)
    (hfresh : (s.dev.port p).link.kind = .fresh)
    (hlanes : ∀ l : Fin 4, s.dev.is (AVP_LANE_STAT.EXCLUDED p l) = false ∧ s.dev.is (AVP_LANE_STAT.LOCK p l) = true)
    (hmarks : (s.dev.port p).link.markers = Dev.fourLanes fun l => ⟨q.toNat, x l⟩) (hx : ∀ l, x 0 ≤ x l ∧ x l ≤ x 0 + 64) :
    ∃ t, exec (.deskewEnd p) s = .next t ∧ t.dev.portState p = 4 ∧ t.dev.get (AVP_PORT_STAT.MASK p) = 15
      ∧ t.dev.get (AVP_PORT_STAT.LANES p) = 4 ∧ (∀ l : Fin 4, t.dev.is (AVP_LANE_STAT.ALIGNED p l) = true
        ∧ t.dev.get (AVP_LANE_STAT.SKEW p l) = x l - x 0)
      ∧ (t.dev.port p).pk.ready = Dev.insertTx ⟨0x87, 0, s.dev.capsBody p none⟩ (s.dev.port p).pk.ready
      ∧ (t.dev.port p).link.offers = 1 ∧ (t.dev.port p).link.offerAt = s.dev.time
      ∧ s.Keeps t fun a => a / 0x1_0000 = 0x10 + p.val := by
  have hmoves := s.dev.deskewEnd_moves p q.isLt h3 hfresh hlanes hmarks hx
  obtain ⟨hclear, hpage, hcaps, hcapsState, -⟩ := Dev.deskewFields_clear p
  have htouch := s.dev.deskewed_touches p fun l => x l - x 0
  have hready := s.dev.deskewed_ready p fun l => x l - x 0
  have hoffers := s.dev.deskewed_offers p fun l => x l - x 0
  obtain ⟨hmask, hcount, hlane⟩ := s.dev.deskewed_values p (fun l => x l - x 0) fun l => by have := (hx l).2; omega
  generalize s.dev.deskewed p (fun l => x l - x 0) = c at *
  have h3' : c.portState p = 3 := (htouch.portState hclear).trans h3
  have hquiet := Dev.setState_quiet (d := c) (s := 4) p (by omega) (by omega) (by simp [Dev.portUp, h3']) (by omega) (by omega)
  have hentered := Dev.setState_entered (d := c) (s := 4) p (by omega) (by omega)
  have hport := c.stateMoved_negotiate p
  rw [← hquiet] at hport
  generalize c.setState p 4 = g at *
  have hbody : g.capsBody p none = s.dev.capsBody p none := (hentered.touches.capsBody p hcapsState none).trans (htouch.capsBody p hcaps none)
  have htime : g.time = s.dev.time := hentered.touches.time.trans htouch.time
  have hsent := g.offer_ready p
  have hlink := g.offer_link p
  have hkept := g.offer_touches p
  obtain ⟨e, he⟩ : ∃ e, g.offer p = e := ⟨_, rfl⟩
  rw [he] at hmoves hsent hlink hkept
  rw [hbody, hport, hready] at hsent
  rw [hport, htime] at hlink
  refine ⟨_, State.answers_run hs (f := (·.deskewEnd p)) rfl hmoves, (hkept.portState (List.forall_mem_nil _)).trans hentered.state,
    (hkept.get (List.forall_mem_nil _)).trans ((hentered.get (by simp [Dev.keptFields])).trans hmask),
    (hkept.get (List.forall_mem_nil _)).trans ((hentered.get (by simp [Dev.keptFields])).trans hcount), fun l => ?_, hsent,
    (congrArg Link.offers hlink).trans (by rw [hoffers]), congrArg Link.offerAt hlink,
    (((htouch.toFrame hpage).trans hentered.frame).trans (hkept.toFrame (List.forall_mem_nil _))).keeps hs.2.2⟩
  obtain ⟨haligned, hskew⟩ := hlane l
  have hmem := List.mem_range.2 l.isLt
  have hka : AVP_LANE_STAT.ALIGNED p l ∈ Dev.keptFields p := List.mem_append_right _ (List.mem_flatMap_of_mem hmem (by simp))
  have hks : AVP_LANE_STAT.SKEW p l ∈ Dev.keptFields p := List.mem_append_right _ (List.mem_flatMap_of_mem hmem (by simp))
  exact ⟨(hkept.is (List.forall_mem_nil _)).trans ((hentered.is hka).trans haligned),
    (hkept.get (List.forall_mem_nil _)).trans ((hentered.get hks).trans hskew)⟩

end Sys2Proof.Machine
end


section
/-! SUPPORT. A CAPS answer taken, its result sent, and the port UP (R113, R114, R116, R132). -/

open Sys2Proof Sys2Proof.Machine

namespace Sys2Proof.Machine
namespace Dev

/-! ### A packet's number taken, and a packet boundary (R128, R130) -/

section
variable (d : Dev) (p : Fin 16)

theorem takeSeq_touches (seq : Nat) : Touches (pair (AVP_SEQ_GAP_CNT.addr p)) d (d.takeSeq p seq) := by
  unfold takeSeq
  split
  · exact (Touches.refl _ d).setPk _ _
  · exact ((Touches.refl _ d).countBy (a := AVP_SEQ_GAP_CNT.addr p) _ (List.Subset.refl _)).setPk _ _

theorem takeSeq_out (seq : Nat) : (d.takeSeq p seq).out = d.out := by
  unfold takeSeq
  split
  · rw [setPk_out]
  · rw [setPk_out, countBy_out]

theorem port_countBy (a k q : Nat) : (d.countBy a k).port q = d.port q := rfl

theorem takeSeq_port (seq : Nat) : ((d.takeSeq p seq).port p).link = (d.port p).link
    ∧ ((d.takeSeq p seq).port p).pk = { (d.port p).pk with rxSeq := some seq } := by
  unfold takeSeq
  split
  · rw [link_setPk, pk_setPk_same]; exact ⟨rfl, rfl⟩
  · rw [link_setPk, pk_setPk_same, port_countBy]; exact ⟨rfl, rfl⟩

theorem emitTx_touches (q : TxPacket) : Touches [] d (d.emitTx p q) :=
  ((Touches.refl [] d).other (g := d.emit _) rfl rfl rfl rfl).setPk _ _

theorem port_emit (o : Out) (q : Nat) : (d.emit o).port q = d.port q := rfl

theorem emitTx_link (q : TxPacket) : ((d.emitTx p q).port p).link = (d.port p).link := by rw [emitTx, link_setPk, port_emit]

theorem boundary_touches : Touches [] d (d.boundary p) := by
  unfold boundary
  exact ((Touches.refl _ d).forEach _ _ fun q _ g hg => hg.trans (g.emitTx_touches p q)).setPk _ _

theorem boundary_link : ((d.boundary p).port p).link = (d.port p).link := by
  unfold boundary
  rw [link_setPk]
  exact forEach_keeps (fun e => (e.port p).link) _ _ (fun q e => e.emitTx_link p q) d

theorem boundary_single {q : TxPacket} (h : (d.port p).pk.ready = [q]) :
    (d.boundary p).out = d.out ++ [.packet p (mkPacket q.typ (d.port p).pk.txSeq q.tag q.body)] := by
  unfold boundary
  rw [h, setPk_out]
  show (d.emitTx p q).out = _
  rw [emitTx, setPk_out, emit_out]

end

/-! ### The answer noted (R132) -/

section
variable (d : Dev) (p : Fin 16) (b : List Byte)

/-- The registers of a camera's CAPS. -/
def camFields (p : Nat) : List Bits := (List.range 6).map fun i => whole (AVP_CAM_CAPS.addr p i)

/-- A camera's CAPS shown. -/
def camNoted : Dev := d.forEach (List.range 6) fun i d => d.setReg (AVP_CAM_CAPS.addr p i) (word (field b (4 * i) 4))

theorem camNoted_touches : Touches (camFields p) d (d.camNoted p b) :=
  (Touches.refl _ d).forEach _ _ fun _ hi _ hg => hg.setReg _ (List.mem_map_of_mem hi)

theorem camNoted_port : (d.camNoted p b).port p = d.port p := forEach_keeps (·.port p) _ _ (fun _ g => port_setReg g _ _ _) d
theorem camNoted_out : (d.camNoted p b).out = d.out := forEach_keeps (·.out) _ _ (fun _ g => setReg_out g _ _) d

theorem camNoted_reg (i : Fin 6) : (d.camNoted p b).reg (AVP_CAM_CAPS.addr p i) = word (field b (4 * i) 4) := by
  have hapart : ∀ k ∈ List.range 6, k ≠ i.val → AVP_CAM_CAPS.addr p k ≠ AVP_CAM_CAPS.addr p i := fun k _ hne => by
    unfold AVP_CAM_CAPS.addr; omega
  obtain ⟨e, -, -, he⟩ := forEach_at (·.reg (AVP_CAM_CAPS.addr p i)) (camFields p) List.nodup_range (List.mem_range.2 i.isLt)
    (fun i d => d.setReg (AVP_CAM_CAPS.addr p i) (word (field b (4 * i) 4))) d
    (fun k hk g => (Touches.refl _ g).setReg _ (List.mem_map_of_mem hk))
    fun k hk hne g => reg_setReg_ne g _ (hapart k hk hne)
  exact he.trans (reg_setReg_same e _ _)

/-- The result of an answer sent, the camera's lanes kept. -/
def resultSent (rate : Nat) : Dev :=
  (((d.sendCaps p (some (2, 4, rate))).boundary p).put (AVP_PORT_STAT.VERSION p) 2).setLink p fun k => { k with camLanes := 4 }

/-- A port whose attempt has succeeded with four lanes, before it goes to UP. -/
def upSet : Dev :=
  (((d.put (AVP_PORT_STAT.MASK p) 15).put (AVP_PORT_STAT.LANES p) 4).put (AVP_ATTEMPT.FAILS p) 0).setLink p fun k => { k with
    attempt := none, kind := .fresh, hold := none, fails := 0 }

theorem linkUp_full : d.linkUp p 15 4 true = ((d.upSet p).setState p 5).checkGang p := rfl

theorem capsRx_takes (k : RxPacket) (h4 : d.portState p = 4) (hdeg : (d.port p).link.degrade = none)
    (hv : k.verdict 0x07 (· = 36) (capsOk k.body) = .taken) : d.capsRx p k = (d.takeSeq p k.seq).takeCaps p k.body := by
  unfold capsRx receive
  rw [if_neg (by simp [h4, hdeg]), hv]

theorem checkGang_down (hup : d.portUp p = false) : d.checkGang p = d := by
  unfold checkGang
  rw [hup]
  exact if_neg Bool.false_ne_true

/-- What an answer leaves of what it is judged by. -/
theorem camFields_clear : Clear (camFields p) (AVP_PORT_STAT.STATE p) ∧ Clear (camFields p) (AVP_PORT_STAT.MASK p)
    ∧ Clear (camFields p) (AVP_PORT_STAT.RATE p) ∧ (∀ g ∈ capsFields p, Clear (camFields p) g) ∧ (∀ f ∈ camFields p, OnPage p f.off)
    ∧ Clear (pair (AVP_SEQ_GAP_CNT.addr p)) (AVP_PORT_STAT.STATE p) ∧ Clear (pair (AVP_SEQ_GAP_CNT.addr p)) (AVP_PORT_STAT.MASK p)
    ∧ Clear (pair (AVP_SEQ_GAP_CNT.addr p)) (AVP_PORT_STAT.RATE p) ∧ (∀ g ∈ capsFields p, Clear (pair (AVP_SEQ_GAP_CNT.addr p)) g)
    ∧ ∀ f ∈ pair (AVP_SEQ_GAP_CNT.addr p), OnPage p f.off := by revert p; decide

end

/-- A state in which an answer at the rate in force, with all lanes, brings the port to UP. -/
structure Agrees (p : Fin 16) (b : List Byte) (d : Dev) : Prop where
  state : d.portState p = 4
  fresh : (d.port p).link.kind = .fresh
  version : bit (field b 0 1) 1 = true
  verMax : d.get (AVP_PORT_CFG.VER_MAX p) = 2
  lanes : field b 1 1 = 4
  lanesMax : d.get (AVP_PORT_CFG.LANES_MAX p) = 2
  mask : d.get (AVP_PORT_STAT.MASK p) = 15
  rate : Nat.min (Nat.min (field b 2 1) (d.get (AVP_PORT_CFG.RATE_MAX p))) (d.get (AVP_PORT_STAT.CEILING p)) = d.get (AVP_PORT_STAT.RATE p)

/-- It depends on the fields it names, and on the port's link layer. -/
theorem Agrees.touched {p : Fin 16} {b : List Byte} {d e : Dev} {l : List Bits} (h : Agrees p b d) (ht : Touches l d e)
    (hlink : (e.port p).link = (d.port p).link) (hs : Clear l (AVP_PORT_STAT.STATE p)) (hm : Clear l (AVP_PORT_STAT.MASK p))
    (hr : Clear l (AVP_PORT_STAT.RATE p)) (hc : ∀ g ∈ capsFields p, Clear l g) : Agrees p b e := by
  simp only [capsFields, List.forall_mem_cons] at hc
  obtain ⟨hver, hrate, hlanes, hceiling, -⟩ := hc
  constructor
  case state => rw [ht.portState hs]; exact h.state
  case fresh => rw [hlink]; exact h.fresh
  case version => exact h.version
  case verMax => rw [ht.get hver]; exact h.verMax
  case lanes => exact h.lanes
  case lanesMax => rw [ht.get hlanes]; exact h.lanesMax
  case mask => rw [ht.get hm]; exact h.mask
  case rate => rw [ht.get hrate, ht.get hceiling, ht.get hr]; exact h.rate

section
variable (d : Dev) (p : Fin 16) (rate : Nat)

theorem sendCaps_touches (res : Option (Nat × Nat × Nat)) : Touches [] d (d.sendCaps p res) := by
  unfold sendCaps sendPacket
  exact (Touches.refl _ d).setPk _ _

theorem resultSent_touches : Touches [AVP_PORT_STAT.VERSION p] d (d.resultSent p rate) := by
  unfold resultSent
  exact ((((d.sendCaps_touches p _).trans (boundary_touches _ p)).mono (List.nil_subset _)).put (f := AVP_PORT_STAT.VERSION p) 2
    List.mem_cons_self).setLink _ _

theorem resultSent_link : ((d.resultSent p rate).port p).link = { (d.port p).link with camLanes := 4 } := by
  rw [resultSent, link_setLink, port_put, boundary_link, sendCaps, sendPacket, link_setPk]

theorem resultSent_version : (d.resultSent p rate).get (AVP_PORT_STAT.VERSION p) = 2 := by
  unfold resultSent
  rw [setLink_get]
  exact get_put_same _ (AVP_PORT_STAT.VERSION p) 2 (Nat.le_of_ble_eq_true rfl)

/-- With nothing else ready, the result alone leaves. -/
theorem resultSent_out (h : (d.port p).pk.ready = []) : (d.resultSent p rate).out
    = d.out ++ [.packet p (mkPacket 0x87 (d.port p).pk.txSeq 0 (d.capsBody p (some (2, 4, rate))))] := by
  have hready : ((d.sendCaps p (some (2, 4, rate))).port p).pk = { (d.port p).pk with
      ready := [⟨0x87, 0, d.capsBody p (some (2, 4, rate))⟩] } := by
    rw [sendCaps, sendPacket, pk_setPk_same, h]; rfl
  have hout : (d.sendCaps p (some (2, 4, rate))).out = d.out := by rw [sendCaps, sendPacket, setPk_out]
  unfold resultSent
  rw [setLink_out, put_out]
  generalize d.sendCaps p (some (2, 4, rate)) = e at *
  rw [e.boundary_single p (congrArg Packets.ready hready), hout, hready]

/-- The fields that success sets, but for those of the state. -/
def upFields (p : Nat) : List Bits := [AVP_PORT_STAT.MASK p, AVP_PORT_STAT.LANES p, AVP_ATTEMPT.FAILS p]

theorem answerFields_clear : Clear [AVP_PORT_STAT.VERSION p] (AVP_PORT_STAT.RATE p) ∧ Clear [AVP_PORT_STAT.VERSION p] (AVP_PORT_STAT.STATE p)
    ∧ Clear (upFields p) (AVP_PORT_STAT.STATE p) ∧ Clear (upFields p) (AVP_PORT_STAT.VERSION p)
    ∧ Clear [AVP_PORT_STAT.LANES p, AVP_ATTEMPT.FAILS p] (AVP_PORT_STAT.MASK p) ∧ Clear [AVP_ATTEMPT.FAILS p] (AVP_PORT_STAT.LANES p)
    ∧ (∀ f ∈ AVP_PORT_STAT.VERSION p :: upFields p, OnPage p f.off)
    ∧ (∀ i : Fin 6, ∀ f ∈ AVP_PORT_STAT.VERSION p :: (upFields p ++ stateFields p), f.off ≠ AVP_CAM_CAPS.addr p i)
    ∧ (∀ i : Fin 6, AVP_CAM_CAPS.addr p i ∉ sessionRegs p) ∧ AVP_ATTEMPT.addr p ∉ sessionRegs p := by revert p; decide

theorem upSet_touches : Touches (upFields p) d (d.upSet p) :=
  ((((Touches.refl _ d).put (f := AVP_PORT_STAT.MASK p) 15 (by simp [upFields])).put (f := AVP_PORT_STAT.LANES p) 4 (by simp [upFields])).put
    (f := AVP_ATTEMPT.FAILS p) 0 (by simp [upFields])).setLink _ _

theorem upSet_attempt : ((d.upSet p).port p).link.attempt = none := by rw [upSet, link_setLink]

theorem upSet_out : (d.upSet p).out = d.out := by rw [upSet, setLink_out, put_out, put_out, put_out]

theorem upSet_values : (d.upSet p).get (AVP_PORT_STAT.MASK p) = 15 ∧ (d.upSet p).get (AVP_PORT_STAT.LANES p) = 4
    ∧ (d.upSet p).get (AVP_ATTEMPT.FAILS p) = 0 := by
  obtain ⟨-, -, -, -, hmask, hlanes, -⟩ := answerFields_clear p
  unfold upSet
  have hput := get_put_same d (AVP_PORT_STAT.MASK p) 15 (Nat.le_of_ble_eq_true rfl)
  generalize d.put (AVP_PORT_STAT.MASK p) 15 = c at *
  have hput' := get_put_same c (AVP_PORT_STAT.LANES p) 4 (Nat.le_of_ble_eq_true rfl)
  have hrest := ((Touches.refl [AVP_PORT_STAT.LANES p, AVP_ATTEMPT.FAILS p] c).put (f := AVP_PORT_STAT.LANES p) 4 List.mem_cons_self).put
    (f := AVP_ATTEMPT.FAILS p) 0 (List.mem_cons_of_mem _ List.mem_cons_self)
  generalize c.put (AVP_PORT_STAT.LANES p) 4 = e at *
  have hput'' := get_put_same e (AVP_ATTEMPT.FAILS p) 0 (Nat.le_of_ble_eq_true rfl)
  have hlast := (Touches.refl [AVP_ATTEMPT.FAILS p] e).put (f := AVP_ATTEMPT.FAILS p) 0 List.mem_cons_self
  generalize e.put (AVP_ATTEMPT.FAILS p) 0 = g at *
  rw [setLink_get, setLink_get, setLink_get]
  exact ⟨(hrest.get hmask).trans hput, (hlast.get hlanes).trans hput', hput''⟩

/-- A success with four lanes brings the port to UP. -/
theorem linkUp_up (hdown : d.portState p = 4) : ∃ e, d.linkUp p 15 4 true = e ∧ e.portState p = 5
    ∧ e.get (AVP_PORT_STAT.VERSION p) = d.get (AVP_PORT_STAT.VERSION p) ∧ e.get (AVP_PORT_STAT.LANES p) = 4
    ∧ e.get (AVP_PORT_STAT.MASK p) = 15 ∧ e.get (AVP_ATTEMPT.FAILS p) = 0
    ∧ (∀ i : Fin 6, e.reg (AVP_CAM_CAPS.addr p i) = d.reg (AVP_CAM_CAPS.addr p i)) ∧ (e.port p).link.attempt = none ∧ e.out = d.out
    ∧ Frame (OnPage p) d e := by
  obtain ⟨-, -, hstate, hversion, -, -, hpage, hcam, hcamSession, hfails⟩ := answerFields_clear p
  obtain ⟨hstat, -, -, -⟩ := sessionRegs_apart p
  have htouch := d.upSet_touches p
  obtain ⟨hmask, hlanes, hfail⟩ := d.upSet_values p
  have hattempt := d.upSet_attempt p
  have hout := d.upSet_out p
  rw [linkUp_full]
  generalize d.upSet p = c at *
  have hentered := setState_entered (d := c) (s := 5) p (by rw [htouch.portState hstate, hdown]; decide) (by omega)
  generalize c.setState p 5 = g at *
  obtain ⟨hgrows, hout', hlink'⟩ := g.checkGang_works p
  generalize g.checkGang p = e at *
  have hframe := hgrows.frame
  refine ⟨e, rfl, (hframe.get (g := AVP_PORT_STAT.STATE p) hstat).trans hentered.state,
    (hframe.get (g := AVP_PORT_STAT.VERSION p) hstat).trans ((hentered.get (by simp [keptFields])).trans (htouch.get hversion)),
    (hframe.get (g := AVP_PORT_STAT.LANES p) hstat).trans ((hentered.get (by simp [keptFields])).trans hlanes),
    (hframe.get (g := AVP_PORT_STAT.MASK p) hstat).trans ((hentered.get (by simp [keptFields])).trans hmask),
    (hframe.get (g := AVP_ATTEMPT.FAILS p) hfails).trans ((hentered.get (by simp [keptFields])).trans hfail), fun i => ?_, ?_,
    hout'.trans (hentered.out.trans hout),
    ((htouch.toFrame fun f hf => hpage f (List.mem_cons_of_mem _ hf)).trans hentered.frame).trans (hframe.mono (sessionRegs_page p))⟩
  · have hkept := hcam i
    obtain ⟨-, -, -, hregs⟩ := hframe
    rw [hregs _ (hcamSession i), hentered.touches.reg fun f hf => hkept f (List.mem_cons_of_mem _ (List.mem_append_right _ hf)),
      htouch.reg fun f hf => hkept f (List.mem_cons_of_mem _ (List.mem_append_left _ hf))]
  · rw [hlink' p, hentered.link]
    exact hattempt

end

section
variable {d : Dev} {p : Fin 16} {b : List Byte}

theorem takeCaps_up (h : Agrees p b d) :
    d.takeCaps p b = ((d.camNoted p b).resultSent p ((d.camNoted p b).get (AVP_PORT_STAT.RATE p))).linkUp p 15 4 true := by
  obtain ⟨hs, hm, hr, hc, -⟩ := camFields_clear p
  have hcam := h.touched (d.camNoted_touches p b) (congrArg Port.link (d.camNoted_port p b)) hs hm hr hc
  have hfold : (d.forEach (List.range 6) fun i d => d.setReg (AVP_CAM_CAPS.addr p i) (word (field b (4 * i) 4))) = d.camNoted p b := rfl
  unfold takeCaps
  rw [hfold]
  dsimp only
  generalize d.camNoted p b = c at *
  have hgang := c.checkGang_down p (by simp [Dev.portUp, hcam.state])
  rw [hgang]
  refine (if_pos (by simp [stNegotiate, hcam.state])).trans ?_
  have hversion : (if (bit (field b 0 1) 1 && decide (c.get (AVP_PORT_CFG.VER_MAX p) = 2)) = true then 2
      else if bit (field b 0 1) 0 = true then 1 else 0) = 2 := by
    rw [hcam.version, hcam.verMax]; rfl
  have hcount : laneCount ((field b 1 1).min (([0, 1, 2, 3] : List Nat).length.min (2 ^ c.get (AVP_PORT_CFG.LANES_MAX p)))) = 4 := by
    rw [hcam.lanes, hcam.lanesMax]; rfl
  have hpast : ¬ (2 : Nat) = 1 := by decide
  dsimp only
  rw [hversion, hcam.mask, lanesOf_all, hcount, hcam.rate, hcam.lanes, if_neg hpast]
  refine (if_neg (by decide)).trans ?_
  have hsent := c.resultSent_touches p (c.get (AVP_PORT_STAT.RATE p))
  have hlink := c.resultSent_link p (c.get (AVP_PORT_STAT.RATE p))
  unfold resultSent at hsent hlink ⊢
  generalize (((c.sendCaps p (some (2, 4, c.get (AVP_PORT_STAT.RATE p)))).boundary p).put (AVP_PORT_STAT.VERSION p) 2).setLink p
    (fun k => { k with camLanes := 4 }) = g at *
  have hkind : (g.port p).link.kind = .fresh := (congrArg Link.kind hlink).trans hcam.fresh
  rw [hkind]
  exact if_pos (hsent.get (answerFields_clear p).1).symm

end
end Dev

/-- CAPS_RECEIVE of an answer at the rate in force with all lanes. -/
theorem capsReceive_up {s : State} (hs : s.Ready) (p : Fin 16) (pkt : RxPacket) (hdeg : (s.dev.port p).link.degrade = none)
    (hv : pkt.verdict 0x07 (· = 36) (Dev.capsOk pkt.body) = .taken) (hagree : Dev.Agrees p pkt.body s.dev) :
    ∃ t, exec (.capsReceive p pkt) s = .next t ∧ t.dev.portState p = 5 ∧ t.dev.get (AVP_PORT_STAT.VERSION p) = 2
      ∧ t.dev.get (AVP_PORT_STAT.LANES p) = 4 ∧ t.dev.get (AVP_PORT_STAT.MASK p) = 15 ∧ t.dev.get (AVP_ATTEMPT.FAILS p) = 0
      ∧ (∀ i : Fin 6, t.dev.reg (AVP_CAM_CAPS.addr p i) = word (field pkt.body (4 * i) 4))
      ∧ (t.dev.port p).link.attempt = none
      ∧ ((s.dev.port p).pk.ready = [] → t.dev.out = s.dev.out ++ [.packet p (mkPacket 0x87 (s.dev.port p).pk.txSeq 0
        (s.dev.capsBody p (some (2, 4, s.dev.get (AVP_PORT_STAT.RATE p)))))])
      ∧ s.Keeps t fun a => a / 0x1_0000 = 0x10 + p.val := by
  obtain ⟨hcs, hcm, hcr, hcc, hcamPage, hss, hsm, hsr, hsc, hseqPage⟩ := Dev.camFields_clear p
  obtain ⟨-, hversionState, -, -, -, -, hpage, hcam, -⟩ := Dev.answerFields_clear p
  have hrun := s.dev.capsRx_takes p pkt hagree.state hdeg hv
  have hseq := s.dev.takeSeq_touches p pkt.seq
  have hseqOut := s.dev.takeSeq_out p pkt.seq
  obtain ⟨hseqLink, hseqPk⟩ := s.dev.takeSeq_port p pkt.seq
  generalize s.dev.takeSeq p pkt.seq = b at *
  have hagreeb := hagree.touched hseq hseqLink hss hsm hsr hsc
  have hup := Dev.takeCaps_up hagreeb
  have hnoted := b.camNoted_touches p pkt.body
  have hnotedPort := b.camNoted_port p pkt.body
  have hnotedOut := b.camNoted_out p pkt.body
  have hregs := b.camNoted_reg p pkt.body
  generalize b.camNoted p pkt.body = c at *
  have hrate : c.get (AVP_PORT_STAT.RATE p) = s.dev.get (AVP_PORT_STAT.RATE p) := (hnoted.get hcr).trans (hseq.get hsr)
  have hstatec : c.portState p = 4 := (hnoted.portState hcs).trans hagreeb.state
  rw [hrate] at hup
  have hsent := c.resultSent_touches p (s.dev.get (AVP_PORT_STAT.RATE p))
  have hversion := c.resultSent_version p (s.dev.get (AVP_PORT_STAT.RATE p))
  have hout := c.resultSent_out p (s.dev.get (AVP_PORT_STAT.RATE p))
  have hbody : ∀ res, c.capsBody p res = s.dev.capsBody p res := fun res => (hnoted.capsBody p hcc res).trans (hseq.capsBody p hsc res)
  rw [hbody, hnotedPort, hseqPk, hnotedOut, hseqOut] at hout
  generalize c.resultSent p (s.dev.get (AVP_PORT_STAT.RATE p)) = g at *
  obtain ⟨e, he, hstate, hversion', hlanes, hmask, hfails, hcamRegs, hattempt, hout', hframe⟩ :=
    g.linkUp_up p ((hsent.portState hversionState).trans hstatec)
  refine ⟨_, State.answers_run hs (f := (·.capsRx p pkt)) rfl (hrun.trans (hup.trans he)), hstate, hversion'.trans hversion, hlanes, hmask, hfails,
    fun i => ?_, hattempt, fun hready => hout'.trans (hout hready),
    ((((hseq.toFrame hseqPage).trans (hnoted.toFrame hcamPage)).trans (hsent.toFrame fun f hf => ?_)).trans hframe).keeps hs.2.2⟩
  · exact (hcamRegs i).trans ((hsent.reg fun f hf => hcam i f (by simp at hf; simp [hf])).trans (hregs i))
  · exact hpage f (by simp at hf; simp [hf])

/-- Settles O10: the steps of an attempt, from SEEK to UP. -/
theorem portBringUp : Obligations.PortBringUp := by
  intro s p hs from'
  refine ⟨fun signal h1 hhold hfrom => ulcStable_begins hs p signal h1 hhold hfrom, fun h2 hlanes => slipEnd_deskews hs p h2 hlanes,
    fun q x h3 hfresh hlanes hmarks hx => deskewEnd_negotiates hs p q x h3 hfresh hlanes hmarks hx,
    fun pkt h4 hfresh hdeg hv hver hmax hlanes hlanesMax hmask hrate => ?_⟩
  exact capsReceive_up hs p pkt hdeg hv ⟨h4, hfresh, hver, hmax, hlanes, hlanesMax, hmask, hrate⟩

end Sys2Proof.Machine
end
